-- ==== Sys2Proof/Word.lean ====
section
/-! DEFINITION. Bytes, and tables as canonical lists of keyed rows. -/
namespace Sys2Proof

/-- One byte (R9). -/
abbrev Byte := BitVec 8

/-- A string of bytes, lowest address first. -/
abbrev Bytes := List Byte

/-- A sparse table: rows (key, value) with keys strictly rising. What an unlisted key
reads as is said at each field of the state that is a table. (DESIGN CHOICE, log entry 6) -/
abbrev Tbl (α : Type) := List (Nat × α)

end Sys2Proof
end

