-- ==== Sys2Proof/Config.lean ====
section
/-! DEFINITION. What the spec leaves open or to outside standards: opaque constants, of which no
proof can see a value. Each one is named in the assumption log. -/
namespace Sys2Proof

/-- The n-th free value: a natural number of which nothing is known. A use takes it modulo the
width it needs and advances State.free. (DESIGN CHOICE, log entry 4) -/
opaque Config.freeValue : Nat → Nat

/-- The part is an engineering sample (Table 0-5). (DESIGN CHOICE, log entry 110) -/
opaque Config.sample : Bool

/-- The parameter block of a TABLE_LOAD of flows, which the spec does not lay out: the source is the host window, its
address, the count, the format (R200). (DESIGN CHOICE, log entry 20) -/
opaque Config.loadBlock : Bytes → Bool × Nat × Nat × Nat

/-- The parameter block of a TABLE_DUMP of flows: its filter, whether the destination is the host window, its address,
the byte limit (R198). (DESIGN CHOICE, log entry 20) -/
opaque Config.dumpBlock : Bytes → Bytes × Bool × Nat × Nat

/-- The table code that the parameter block of a TABLE_LOAD, TABLE_DUMP or AUDIT_PASS names, by operation type
(Table 2-14). (DESIGN CHOICE, log entry 20) -/
opaque Config.opTable : Nat → Bytes → Nat

/-! ### Sorroth microcode (7.2 to 7.5) -/

/-- What a memory operation of a microword names. The spec gives the fields of the word and what each operation does,
not how its size or request field and its registers select these. -/
structure MemArgs where
  /-- byte offset in the local slot -/
  offset : Nat
  /-- bytes -/
  len : Nat
  /-- SLICE: 0 READ, 1 PROBE, 2 WRITE of a record, else WRITE of an index entry; COUNT: 0 event counter, else counter of
  a record; EMIT: 0 export stream, 1 log stream, else event queue -/
  what : Nat
  /-- awl-data offset, record index, pool mask, buffer address, counter ID, stream, event code, or output of a release -/
  target : Nat
  /-- amount to add, log template, counter of a record, or edit program of a release -/
  value : Nat
  /-- seed of HASH -/
  seed : Nat
  /-- bytes that the operation takes in the staged set -/
  staged : Nat
  deriving DecidableEq, Repr, Inhabited

/-- The arguments of a memory operation: its number, size or request field, address register, data register, immediate.
(DESIGN CHOICE, log entry 66) -/
opaque Config.memArgs : Nat → Nat → BitVec 64 → BitVec 64 → BitVec 64 → MemArgs

/-- The ROM of the control store (R209). (DESIGN CHOICE, log entry 66) -/
opaque Config.rom : Nat → BitVec 192

/-- The ROM address of a routine's first word, and the routine that a ROM address belongs to.
(DESIGN CHOICE, log entry 66) -/
opaque Config.routineEntry : Nat → Nat
opaque Config.routineAt : Nat → Nat

/-- What an ALU slot computes from its registers and the immediate: the result for its destination, if it writes one,
and the flags (Table 7-2). (DESIGN CHOICE, log entry 66) -/
opaque Config.alu : BitVec 32 → BitVec 64 → BitVec 64 → BitVec 64 → Option (BitVec 64) × BitVec 8

/-- A BRANCH condition: the tag that it tests, or else whether it holds for the flags. (DESIGN CHOICE, log entry 66) -/
opaque Config.condTag : Nat → Option Nat
opaque Config.condFlags : Nat → BitVec 8 → Bool

/-- What PROBE puts into its register: the record found with its direction, or absent. (DESIGN CHOICE, log entry 66) -/
opaque Config.probeResult : Option Nat → BitVec 64

/-- The servo offset that PTP_OFFSET leaves in its registers, in ns (Table 7-5). (DESIGN CHOICE, log entry 75) -/
opaque Config.servoOffset : Bytes → Int

end Sys2Proof
end

