-- ==== Sys2Proof/Syntax.lean ====
section
/-! DEFINITION. The commands of the block: one constructor per row of spec/opcode_table.json, and the types of their operands. -/
namespace Sys2Proof
/-- The path on which a request message reaches the Cobbler. -/
inductive Via where
  | mailbox
  | psindo (src : Nat) (dgram : Bytes)
  deriving DecidableEq, Repr
/-- The functions that a commit stops (Table 2-12): a pipeline, the tables of a pipeline group, the flow
engine, the awl cluster, a pipeline's TM, the switch core, the time unit, the HBM partition map,
telemetry, a port, a FlexE group. -/
inductive Fn where
  | pipeline (p : Nat)
  | tables (g : Nat)
  | flowEngine
  | awls
  | tm (p : Nat)
  | switchCore
  | timeUnit
  | hbmMap
  | telemetry
  | port (q : Nat)
  | flexe (g : Nat)
  deriving DecidableEq, Repr

/-- The path on which a table command reaches the device: a slot of the command ring, its 64 bytes and its payload as
they stand in host memory, with 2 when host memory could not be read and 3 when it could not be written; or a TABLE_CMD
message (R378, R380). -/
inductive CmdVia where
  | ring (slot payload : Bytes) (fail : Nat)
  | message (via : Via)
  deriving DecidableEq, Repr

/-- What one unit of work of a long operation found or wrote (R69). -/
inductive OpUnit where
  /-- a unit whose work is told by its count alone -/
  | plain
  /-- a sector of up to 4 KB that FIRMWARE_STAGE writes (R72) -/
  | sector (data : Bytes)
  /-- HBM_RETRAIN_FULL trained a pseudo-channel: its failing pin pairs, and whether its command-address training failed (R352, R355) -/
  | trained (pairs : List Nat) (ca : Bool)
  /-- SCRUB_PASS read 1 MB: the words found in error, as stored, with their addresses (R367) -/
  | scrubbed (words : List (Nat × BitVec 144))
  /-- AUDIT_PASS compared a block: the damage that the hardware holds, as target, copy, block and CRC (R128) -/
  | audited (bad : List (Nat × Nat × Nat × Nat))
  deriving DecidableEq, Repr

/-- What stands at an overhead frame position of a FlexE instance (R317, R320, R321). -/
structure OhFrame where
  /-- the overhead start pattern stands there -/
  start : Bool
  /-- the CRC-16 over the protected fields is good -/
  crc : Bool
  omf : Bool
  /-- FlexE group number, PHY number, and PHY map as a set of PHY numbers -/
  group : Nat
  phy : Nat
  map : Nat
  rpf : Bool
  /-- calendar in use by the partner, 0 A or 1 B; its switch request and acknowledgement -/
  c : Nat
  cr : Bool
  ca : Bool
  /-- slot of the instance whose client IDs in calendars A and B the frame carries -/
  slot : Nat
  idA : Nat
  idB : Nat
  /-- arrival of the member's instance-0 multiframe start, in blocks of 0.64 ns (R323) -/
  arrival : Nat
  deriving DecidableEq, Repr

/-- What a board programmer left in the flash while RESET_N was low (R488, Table 16-2). -/
structure FlashImage where
  /-- firmware slots A and B from the slot header on; empty when erased -/
  slotA : List (BitVec 8)
  slotB : List (BitVec 8)
  /-- the boot area, and whether it holds the completion marker (R67) -/
  boot : List (BitVec 8)
  marker : Bool
  /-- owner public key and management objects of the board record, by object address -/
  ownerKey : List (BitVec 8)
  mgmt : List (Nat × List (BitVec 8))
  /-- key store: access-key objects by address (R52) -/
  keys : List (Nat × List (BitVec 8))
  deriving DecidableEq, Repr

/-- What a REGISTER_WRITE writes: bytes at a BAR0 offset, or the value of a dictionary object (R10). -/
inductive RegTarget where
  | bar0 (off : Nat) (data : List (BitVec 8))
  | object (addr : Nat) (value : List (BitVec 8))
  deriving DecidableEq, Repr

/-- What befalls a frame that leaves a port (R261): nothing, its last byte had not come in time, or a cell of it in a
bank of its half read uncorrectable. -/
inductive TxCut where
  | none
  | underrun
  | badCell (bank : Nat)
  deriving DecidableEq, Repr

/-- The commands that reach the block and the events that occur in it (spec/opcode_table.json). -/
inductive Instr where
  /-- PWR_OK_FALL (R445): A fall of PWR_OK at any time acts as RESET_N low: transmitters go idle, PPS and recovered
  clocks are held low and PCIe is silent. -/
  | pwrOkFall
  /-- RESET_N_FALL (R445): RESET_N going low holds the device in reset with its outputs idle. -/
  | resetNFall
  /-- RESET_N_RISE (R446): The release of RESET_N at t0 starts the boot sequence: the PLLs begin to lock and the fault
  manager watches supplies. -/
  | resetNRise (flash : Option FlashImage)
  /-- PLL_LOCKED (R446): Once the PLLs lock, the device starts CCLK, MCLK, TCLK and SCLK, arms the clock monitors and
  starts the Cobbler ROM. -/
  | pllLocked
  /-- ROM_START_COMPLETE (R446): The end of the Cobbler ROM start launches the flash read, SRAM initialisation and HBM
  training in parallel. -/
  | romStartComplete
  /-- BOOT_IMAGE_READ (R449): When the flash image has been read, the device selects a valid firmware slot, verifies
  it, decrypts the patch, checks rollback, starts the firmware, sets cobbler_ready and brings up the management
  port. -/
  | bootImageRead
  /-- SRAM_INITIALISED (R446): At the end of SRAM zeroing and BIST, failing slice or buffer banks are spared, or the
  boot ends in safe stop with cause 18. -/
  | sramInitialised (failing : List (Nat × Nat × Nat))
  /-- HBM_TRAINED (R352): At the end of start-up HBM training, each pseudo-channel enters service, has a pin pair
  erased or is retired, and event 0x0901 is raised. -/
  | hbmTrained (ms : Nat) (bad : List (Nat × List Nat × Bool))
  /-- BOOT_PATTERN_CHECK (R67): With steps 5 to 7 done, the device checks and validates the boot pattern, prepares the
  flow partitions, or waits for a host pattern with its lanes idle. -/
  | bootPatternCheck
  /-- BOOT_COMMIT (R446): When validation and preparation are complete, the boot pattern is committed in epoch 0,
  domains are woken, ports leave idle and outputs_started is set. -/
  | bootCommit
  /-- PCIE_PERST_N_RISE (R447): The PCIe endpoint starts link training within 20 ms, answering configuration requests
  with Request Retry Status until it is ready. -/
  | pciePerstNRise
  /-- PCIE_PERST_N_FALL (R447): After boot, a fall of PCIE_PERST_N resets only the host interface, as R372 states. -/
  | pciePerstNFall
  /-- PCIE_LINK_CHANGE (R372): A link down, hot reset or function-level reset stops the rings and DMA channels, resets
  BAR0, frees ring-owned pool buffers and raises event 0x0A01. -/
  | pcieLinkChange (up : Bool) (rate width cause : Nat)
  /-- HELLO (R53): Negotiates the Psindo version and opens a session with nonces, or answers VERSION or BUSY. -/
  | hello (via : Via)
  /-- BYE (R52): Ends the session. -/
  | bye (via : Via)
  /-- READ (R40): Reads 1 to 64 objects, judging each entry in turn, with NO_SPACE for an answer that does not fit and
  segments for DOMAIN values. -/
  | read (via : Via)
  /-- WRITE (R40): Writes 1 to 64 objects atomically, live or into the staged pattern, with segmented DOMAIN writes. -/
  | write (via : Via)
  /-- DESCRIBE (R42): Returns the type, access, class, limits, default and name of one object. -/
  | describe (via : Via)
  /-- LIST (R42): Returns up to 128 object addresses in an index range. -/
  | list (via : Via)
  /-- LOAD (R58): Writes one segment of a pattern image into the staged slot, increments the generation and sets the
  slot to EDITING. -/
  | load (via : Via)
  /-- VALIDATE (R59): Checks the staged slot against Table 2-10 and sets it to VALID or INVALID. -/
  | validate (via : Via)
  /-- COMMIT (R60): Checks the expected staged generation and conflicts, then starts the commit sequence or queues a
  PATTERN_COMMIT. -/
  | commit (via : Via)
  /-- REVERT (R66): Exchanges the active and previous slots by the commit sequence. -/
  | revert (via : Via)
  /-- PATTERN_COPY (R58): Replaces the staged slot with the active slot's objects and banked tables. -/
  | patternCopy (via : Via)
  /-- READ_IMAGE (R45): Returns a segment of a slot's image from a snapshot taken at offset 0. -/
  | readImage (via : Via)
  /-- LONGOP_SUSPEND (R69): Suspends a long operation at its suspend point, or answers DENIED or INVALID. -/
  | longopSuspend (via : Via)
  /-- LONGOP_RESUME (R69): Resumes a suspended long operation as RUNNING or QUEUED. -/
  | longopResume (via : Via)
  /-- LONGOP_CANCEL (R69): Cancels a long operation to CANCELLED or CANCELLING, or answers DENIED. -/
  | longopCancel (via : Via)
  /-- LONGOP_QUERY (R68): Returns the state, units and result of a long operation slot. -/
  | longopQuery (via : Via)
  /-- REHASH (R188): START of REHASH builds a new flow index under new seeds and size in a host-window region. -/
  | rehash (via : Via)
  /-- RESIZE_PARTITION (R346): START of RESIZE_PARTITION grows, shrinks or restripes an HBM partition. -/
  | resizePartition (via : Via)
  /-- TABLE_LOAD (R200): START of TABLE_LOAD inserts table entries, such as flow records, from a host source. -/
  | tableLoad (via : Via)
  /-- TABLE_DUMP (R198): START of TABLE_DUMP writes the matching entries of a table to a host destination. -/
  | tableDump (via : Via)
  /-- FLOW_FLUSH (R199): START of FLOW_FLUSH removes the flows that match a filter. -/
  | flowFlush (via : Via)
  /-- AUDIT_PASS (R128): START of AUDIT_PASS runs an immediate audit comparison of one target. -/
  | auditPass (via : Via)
  /-- SCRUB_PASS (R367): START of SCRUB_PASS scrubs one HBM partition, or all of HBM, at pass_rate. -/
  | scrubPass (via : Via)
  /-- BIST_FUNCTION (R70): START of BIST_FUNCTION tests a function, or is refused with BUSY while the function runs. -/
  | bistFunction (via : Via)
  /-- HBM_RETRAIN_FULL (R355): START of HBM_RETRAIN_FULL runs full training on one stack, one pseudo-channel at a
  time. -/
  | hbmRetrainFull (via : Via)
  /-- FIRMWARE_STAGE (R72): START of FIRMWARE_STAGE writes a firmware image or a boot pattern into flash, sector by
  sector. -/
  | firmwareStage (via : Via)
  /-- PATTERN_COMMIT (R71): The queued commit operation created under wait runs the commit sequence once the drain has
  ended and its conflicts have cleared. -/
  | patternCommit (n : Nat)
  /-- LONGOP_CONFLICTS_CLEAR (R69): A QUEUED operation whose conflicts have cleared moves to RUNNING in START order
  and takes its holds. -/
  | longopConflictsClear (n : Nat)
  /-- LONGOP_WORK_COMPLETE (R69): A running operation whose work completes ends DONE, releases its holds and raises
  event 0x0D08. -/
  | longopWorkComplete (n : Nat)
  /-- LONGOP_FAILED (R69): An operation that meets a fault or a refusal ends FAILED with its status. -/
  | longopFailed (n status : Nat)
  /-- CANCEL_WORK_COMPLETE (R69): When its cancel work completes, a CANCELLING operation becomes CANCELLED and
  releases its holds. -/
  | cancelWorkComplete (n : Nat)
  /-- COMMIT_BACKLOG_READY (R61): At step 2, once every changed pipeline's hold FIFO holds at most 8,192 descriptors,
  the commit announces T0. -/
  | commitBacklogReady (t0 : Nat)
  /-- COMMIT_BACKLOG_TIMEOUT (R61): A step-2 wait that reaches 2 ms ends the commit with BUSY, detail 3, having
  changed nothing. -/
  | commitBacklogTimeout
  /-- COMMIT_STOP_INSTANT (R61): At T0, the Clickers pin the new epoch and every function in the change set enters its
  stop. -/
  | commitStopInstant
  /-- LASTING_RESTART (R62): A stopped function takes its new STOP values and restarts; the LIVE changes of the commit
  are applied. -/
  | lastingRestart (f : Fn)
  /-- COMMIT_ANSWER (R61): At step 6, the device takes changed links down, places deskew regions, rotates the slots,
  answers OK, raises 0x0D01 or 0x0D04 and accepts writes again. -/
  | commitAnswer
  /-- EPOCH_DRAIN_END (R65): When the old epoch's packet count reaches zero, the old bank is freed, the active tables
  are copied into it, and event 0x0D02 is raised. -/
  | epochDrainEnd
  /-- EPOCH_DRAIN_TIMEOUT (R65): At pat.drain.timeout, the packets of the old epoch still in the device are dropped
  and counted, event 0x0D07 is raised and the drain ends. -/
  | epochDrainTimeout
  /-- SESSION_IDLE_TIMEOUT (R52): A session with no authenticated datagram for psindo.idle_timeout closes and its key
  is retained. -/
  | sessionIdleTimeout (n : Nat)
  /-- SESSION_RETENTION_EXPIRY (R52): A retained session key is discarded after a further idle_timeout. -/
  | sessionRetentionExpiry (n : Nat)
  /-- COBBLER_MISMATCH (R462): A lockstep mismatch resets the Cobbler, which closes the sessions, fails the long
  operations and the mailbox request in progress, and raises event 0x0E14. -/
  | cobblerMismatch
  /-- COBBLER_WATCHDOG (R462): The expiry of the 100 ms watchdog resets the Cobbler as a mismatch does. -/
  | cobblerWatchdog
  /-- COBBLER_RESTARTED (R73): The restarted Cobbler sets cobbler_ready again and completes any commit that had passed
  T0. -/
  | cobblerRestarted
  /-- REGISTER_WRITE (R10): A write to a BAR0 register, or to a dictionary object with no behaviour of its own,
  updates the value, such as clearing MBX_STATUS done. -/
  | registerWrite (target : RegTarget)
  /-- BAR2_READ (R374): Reads HBM through the BAR2 window; a partition that forbids the read returns all ones, and
  poison is marked EP. -/
  | bar2Read (o n : Nat)
  /-- BAR2_WRITE (R374): Writes the HBM host window through BAR2, using read-modify-write for a partial codeword; a
  write elsewhere is refused and counted. -/
  | bar2Write (o : Nat) (data : Bytes)
  /-- RING_ENABLE (R376): Setting or clearing a ring's enable starts the ring, or stops it at the next entry boundary;
  re-enabling clears an error. -/
  | ringEnable (k : Nat) (on : Bool)
  /-- RING_CONS_WRITE (R375): The host advances the consumer index of an event queue or receive ring, freeing slots. -/
  | ringConsWrite (k : Nat) (v : BitVec 32)
  /-- MSIX_MODERATION_EXPIRY (R377): A ring raises its MSI-X message when mod_us has passed since the first
  unsignalled entry. -/
  | msixModerationExpiry (k : Nat)
  /-- TABLE_WRITE (R122): Writes count entries of a live or staged table in ascending order, after the checks of R494. -/
  | tableWrite (via : CmdVia)
  /-- TABLE_DELETE (R122): Deletes table entries, writing the entries of staged tables as all zeros. -/
  | tableDelete (via : CmdVia)
  /-- TABLE_READ (R122): Returns table entries from the active or the free bank into the reply. -/
  | tableRead (via : CmdVia)
  /-- L2_FLUSH (R122): Removes the dynamic layer-2 entries that match the port and VLAN filter in the selected groups. -/
  | l2Flush (via : CmdVia)
  /-- RESEED (R121): Starts a rebuild of the layer-2 layout under two new seeds in the selected groups. -/
  | reseed (via : CmdVia)
  /-- L2_REBUILD_DONE (R121): A group switches to its new layer-2 layout, dropping dynamic entries that find no room,
  or ending NO_SPACE for a static entry. -/
  | l2RebuildDone (g : Nat)
  /-- FLOW_WRITE (R194): Inserts a host flow record at its home slice, drawing an index, after the checks of R196. -/
  | flowWrite (via : CmdVia)
  /-- FLOW_DELETE (R194): Removes a flow by R184 with reason HOST_DELETE. -/
  | flowDelete (via : CmdVia)
  /-- FLOW_READ (R161): Returns the merged 128-byte record from the home slice. -/
  | flowRead (via : CmdVia)
  /-- MODIFY (R195): Changes the selected action and state fields of a flow at one instant. -/
  | modify (via : CmdVia)
  /-- FRAME_RECEIVE (R239): At a frame's first byte, the MAC checks the station filter, accepts or drops the frame
  against the buffer, writes cells and places the descriptor in the header FIFO. -/
  | frameReceive (q : Nat) (bytes : Bytes) (symbolErr : Bool)
  /-- FRAME_END (R261): At a frame's last byte, the FCS and length checks complete; a late error marks the frame
  errored, and the frame may be learned. -/
  | frameEnd (pid : Nat)
  /-- CLICKER_PARSE (R76): The header at the head of the FIFO is parsed through the header graph, keyed and pinned to
  the epoch, stage 0 runs, and a flow request may be sent. -/
  | clickerParse (p : Nat)
  /-- CLICKER_RETIRE (R18): In FIFO order, the Clicker merges the stage actions and the flow answer, chooses the
  output and admits the packet to its queue, holds it, or recirculates it. -/
  | clickerRetire (p : Nat)
  /-- RECIRCULATE (R21): An edited packet re-enters step 3 of its pipeline through the recirculation path, or is
  dropped at its fifth pass or when the path is full. -/
  | recirculate (p : Nat) (full : Bool)
  /-- NH_LINE_ARRIVAL (R112): A fetched next-hop, slot or backend line is installed in the resolution cache and its
  wait list is released in order. -/
  | nhLineArrival (g key : Nat)
  /-- L2_LEARN (R118): A group learns a source key from a frame, by insert, move, contest or static violation as Table
  4-8 states. -/
  | l2Learn (g : Nat)
  /-- L2_AGE_SCAN (R119): The scanner clears the hit bits of dynamic entries, or removes the entries whose hit bit is
  already clear. -/
  | l2AgeScan (g : Nat)
  /-- AUDIT_PERIOD (R127): Each period, the device compares every block of every active audit target and marks
  unrefreshed targets STALE. -/
  | auditPeriod (bad : List (Nat × Nat × Nat × Nat))
  /-- AUDIT_RECHECK (R127): 250 ms after a mismatch, the block is rechecked, and a persisting mismatch raises event
  0x0404 as a TABLE_CONTENT fault. -/
  | auditRecheck (bad : List (Nat × Nat × Nat × Nat))
  /-- LOOKUP (R149): A home slice serves a flow lookup: a hit updates the line, TCP state and meter; a miss consults
  the writeback buffer and the hold table. -/
  | lookup (n lost : Nat)
  /-- TOKEN_GRANTED (R163): The fetch at the head of a miss queue takes a reserved or pool token and starts its bucket
  read. -/
  | tokenGranted (p : Nat)
  /-- BUCKET_ARRIVAL (R152): An index bucket arrives; the engine reads the records that match the signature, or bucket
  B, or ends the search and moves to SETUP. -/
  | bucketArrival (h : Nat) (bad : Bool)
  /-- RECORD_ARRIVAL (R152): A record arrives; on a key match the lines are installed, with victim eviction, and the
  chain is released as hits; otherwise the search continues. -/
  | recordArrival (h : Nat) (bad : Bool)
  /-- SETUP_READS_COMPLETE (R169): Once the SNAT reverse-key reads confirm, the setup writes the record and index
  entries and installs the lines. -/
  | setupReadsComplete (h : Nat) (bad : Bool)
  /-- SETUP_WRITES_ACKNOWLEDGED (R169): The setup serves the chained packets as hits and releases the forward and then
  the reverse chain. -/
  | setupWritesAcknowledged (h : Nat)
  /-- SETUP_TIMEOUT (R171): A hold entry that has stayed in SETUP for flow.setup.timeout ends with cause TIMEOUT, and
  event 0x0509 is raised. -/
  | setupTimeout (h : Nat)
  /-- WRITEBACK (R156): The slice writes back the next buffered line, adding its deltas to the record in HBM. -/
  | writeback (n : Nat)
  /-- FOLD_PERIOD (R160): Every fold period, each slice folds every dirty primary line without evicting it. -/
  | foldPeriod (n : Nat)
  /-- AGE_SCAN (R182): The scanner reads a record's second half and sends AGE_DECIDE for a timed-out, unpinned
  candidate. -/
  | ageScan (r : Nat)
  /-- AGE_DECIDE (R183): The home slice ages the flow against its newest copy, or drops the decision. -/
  | ageDecide (n : Nat)
  /-- REMOVAL_COMPLETE (R184): Each RETIRING entry ends, or moves to SETUP when packets joined its chain. -/
  | removalComplete (n : Nat)
  /-- REHASH_COPY (R190): At the rehash rate, the copier moves the entries of old buckets into the new layout. -/
  | rehashCopy (cnt : Nat)
  /-- REHASH_SWITCH (R191): When the copy is done, the slices stop searching the old layout, or the flow engine lasts
  to take new seeds. -/
  | rehashSwitch
  /-- SURRENDER_REQUEST (R191): The old home slice writes back and invalidates a key's line, and waits for its hold
  entry to end, before the new home fetches. -/
  | surrenderRequest (n : Nat)
  /-- REHASH_CHANGEOVER_END (R191): After every slice has evicted its old-seed lines, the changeover ends and event
  0x050A is raised. -/
  | rehashChangeoverEnd
  /-- RESIZE_STEP (R193): One growth step, shrink move or restripe unit of RESIZE_PARTITION is completed. -/
  | resizeStep
  /-- FLOW_WALK (R198): At the walk rate, TABLE_DUMP writes, or FLOW_FLUSH removes, the next matching records. -/
  | flowWalk (n cnt : Nat)
  /-- LOAD_RECORD (R200): TABLE_LOAD inserts the next record as a host WRITE, or skips it and counts it by reason. -/
  | loadRecord (n : Nat) (data : Bytes)
  /-- SLICE_BANK_SPARE (R141): A slice copies a faulty bank into its spare and redirects the bank's sets, or raises
  event 0x0504 when the spare is in use. -/
  | sliceBankSpare (n bank hits : Nat)
  /-- SLICE_ONLINE_BIST (R142): The slice tests one bank through its spare and copies it back. -/
  | sliceOnlineBist (n bank : Nat) (pass : Bool)
  /-- CACHE_MODE_SETTLED (R148): After all old-form lines are folded and evicted, the cache mode settles and event
  0x0507 is raised. -/
  | cacheModeSettled
  /-- ITEM_DISPATCH (R226): The scheduler gives the next eligible item to an awl's free slot by class, domain and
  affinity. -/
  | itemDispatch
  /-- PREFETCH_COMPLETE (R227): A slot's prefetch of item, key, record, header and parameter set completes, and the
  item may run. -/
  | prefetchComplete (a l : Nat)
  /-- NEXT (R207): The microword proceeds to the following address. -/
  | next (a : Nat)
  /-- JUMP (R207): The microword jumps to target. -/
  | jump (a : Nat)
  /-- BRANCH (R207): The microword branches to target when cond holds. -/
  | branch (a : Nat)
  /-- CALL (R207): The microword pushes the return address and goes to target, faulting on a ninth nested call. -/
  | call (a : Nat)
  /-- RETURN (R207): The microword pops the return address, faulting on an empty stack. -/
  | ret (a : Nat)
  /-- WAIT (R207): The word repeats until every tag in its mask is complete. -/
  | wait (a : Nat)
  /-- PARK (R215): The routine parks its context to the context store unless its tags are complete, or waits when the
  store is full. -/
  | park (a : Nat)
  /-- END (R213): The routine ends and its staged set goes to the Closer. -/
  | finish (a : Nat)
  /-- LOCAL_RD (R208): Reads the local slot into a register. -/
  | localRd (a : Nat)
  /-- LOCAL_WR (R208): Writes a register into the local slot. -/
  | localWr (a : Nat)
  /-- AD_READ (R208): Reads 64 B of awl data into scratch under a tag. -/
  | adRead (a : Nat)
  /-- AD_WRITE (R213): Stages a 64 B awl-data write. -/
  | adWrite (a : Nat)
  /-- SLICE (R218): Issues a READ, PROBE with reservation, or staged WRITE to a home slice. -/
  | slice (a : Nat)
  /-- HASH (R208): Computes a seeded CRC-32C over slot data into a register. -/
  | hash (a : Nat)
  /-- POOL_GET (R208): Requests one buffer from the pool manager. -/
  | poolGet (a : Nat)
  /-- POOL_PUT (R208): Stages the free of a buffer. -/
  | poolPut (a : Nat)
  /-- RELEASE (R208): Stages a packet release or decision with output, edit program and header. -/
  | release (a : Nat)
  /-- COUNT (R208): Stages an add to an event or record counter. -/
  | count (a : Nat)
  /-- EMIT (R208): Stages bytes to an export stream, log stream or event queue. -/
  | emit (a : Nat)
  /-- MEM_OP_COMPLETE (R208): A memory operation completes under its tag, and a parked routine whose tags are all
  complete becomes ready. -/
  | memOpComplete (id tag : Nat)
  /-- YIELD_POINT (R214): At a yield point with an urgent item or a quiesce pending, the awl parks its routine and
  takes the interrupt. -/
  | yieldPoint (a : Nat)
  /-- AWL_PAIR_MISMATCH (R231): A lockstep mismatch stops the awl, retires the pair and re-dispatches its item
  elsewhere. -/
  | awlPairMismatch (a : Nat)
  /-- ITEM_FAULT (R231): An item fault re-dispatches the item, or ends it as a decline after two dispatches. -/
  | itemFault (a : Nat)
  /-- CLOSER_APPLY (R229): The Closer applies a commit set whole, in order and by domain mode, or discards its slice
  part when the slice refuses it. -/
  | closerApply
  /-- CLASS_AGE_ALARM (R223): An item whose wait reaches its class's age alarm raises event 0x0606. -/
  | classAgeAlarm (k : Nat)
  /-- AWL_TIMER (R216): A timer creates a TIMER_TICK or POOL_RECLAIM item, unless one is already waiting. -/
  | awlTimer (reclaim : Bool) (n domain : Nat)
  /-- HEEL_PAGE_WRITE (R245): A full staging page is written to the heel, and its cells are freed when the write
  completes. -/
  | heelPageWrite (u : Nat)
  /-- HEEL_PAGE_READ (R247): A prefetched heel page returns on chip and frees its HBM space; an uncorrectable page
  drops its frames. -/
  | heelPageRead (u : Nat) (bad : Bool)
  /-- DEQUEUE (R270): The hierarchy picks a queue and starts its head frame, charging shapers, discarding aged frames
  and leaving SPILL. -/
  | dequeue (e : Nat) (full : List Nat) (bad : Option Nat)
  /-- XBAR_ARBITRATE (R269): The egress arbiter accepts up to 4 descriptors per cycle from its inputs by DWRR. -/
  | xbarArbitrate (e : Nat)
  /-- XBAR_WEIGHT_UPDATE (R269): Every 64 CCLK cycles, the arbiter recomputes its input weights. -/
  | xbarWeightUpdate (e : Nat)
  /-- EDITOR (R96): The editor runs the packet's edit program, updates checksums and check bits, marks ECN, remarks
  DSCP and appends the FCS. -/
  | editor (p : Nat)
  /-- EDIT_END (R96): The edit program ends. -/
  | editEnd (p : Nat)
  /-- SET (R96): Sets a field from a source. -/
  | set (p : Nat)
  /-- ADD (R96): Adds an immediate to a field, modulo its width. -/
  | add (p : Nat)
  /-- DEC_TTL (R99): Decrements the TTL or hop limit, dropping the packet at 0 or 1. -/
  | decTtl (p : Nat)
  /-- PUSH (R97): Inserts a header template and moves the anchors. -/
  | push (p : Nat)
  /-- POP (R97): Removes bytes, or the bytes up to an anchor. -/
  | pop (p : Nat)
  /-- COPY (R96): Copies a same-width field from another anchor. -/
  | copy (p : Nat)
  /-- FIXLEN (R99): Sets the length fields and the IPv4 checksum at an anchor. -/
  | fixlen (p : Nat)
  /-- XLATE (R100): Translates headers between IPv6 and IPv4 as RFC 7915 does. -/
  | xlate (p : Nat)
  /-- TC_CORR (R415): Marks the PTP correctionField for the residence-time correction. -/
  | tcCorr (p : Nat)
  /-- FRAME_TRANSMIT (R17): The egress MAC appends the FCS, stamps PTP frames and applies the correction, and the PCS
  and SerDes transmit. -/
  | frameTransmit (q reached : Nat) (cut : TxCut)
  /-- MC_REPLICATE (R257): The replication engine enqueues one copy per cycle and places limited targets on the
  residue list. -/
  | mcReplicate (d : Nat)
  /-- MC_RESIDUE_RETRY (R257): A residue target whose queue has fallen below its limit is enqueued in order. -/
  | mcResidueRetry (d : Nat)
  /-- MC_RESIDUE_EXPIRY (R257): After sc.mc.residue_time, the remaining residue targets are refused and the engine
  releases its hold. -/
  | mcResidueExpiry (d : Nat)
  /-- BUFFER_SCRUB (R263): The scrubber reads and corrects every buffer cell and spares a bank that reaches its
  threshold. -/
  | bufferScrub (h : Nat) (hits : List (Nat × Nat))
  /-- BUFFER_ONLINE_BIST (R264): Every 100 ms, each half tests one bank through its spare. -/
  | bufferOnlineBist (h : Nat) (failed : Bool)
  /-- METER_REQUEST (R281): A meter bank updates the buckets and colours a packet by RFC 2698 or RFC 4115. -/
  | meterRequest (b : Nat) (lost : Bool)
  /-- METER_BACKLOG_ALARM (R283): A meter request that waits beyond backlog_alarm raises event 0x0803. -/
  | meterBacklogAlarm (b : Nat)
  /-- BUCKET_REFRESH (R276): Every shaper and meter bucket is updated at least once per second, so its elapsed count
  never wraps. -/
  | bucketRefresh
  /-- QUEUE_SAMPLE (R285): Every sample interval, a pipeline writes a queue sample record into the ring, or discards
  it when the ring is full. -/
  | queueSample (e : Nat)
  /-- BRINGUP_SUCCESS (R294): Every lane has trained and the PCS has locked, so the port goes UP and raises event
  0x0102. -/
  | bringupSuccess (k partner : Nat) (partnerFec partnerEee : Bool)
  /-- BRINGUP_TIMEOUT (R294): An attempt that has not succeeded after 500 ms fails: FAIL_WAIT, event 0x0103 and the
  retry timer start. -/
  | bringupTimeout (k lane stage : Nat)
  /-- RETRY_TIMER (R295): The expiry of the FAIL_WAIT timer doubles w, up to 30 s, and starts a new attempt. -/
  | retryTimer (k : Nat)
  /-- UP_STABLE (R295): After 30 s in UP, w returns to 1 s. -/
  | upStable (k : Nat)
  /-- LOCAL_FAULT (R296): Loss of signal, loss of lock, hi_ber, received local fault or FEC degradation takes the link
  down and starts an attempt at once. -/
  | localFault (k cause : Nat) (los : List Nat)
  /-- REMOTE_FAULT (R295): A received remote fault moves the port to REMOTE_FAULT, where it sends idles. -/
  | remoteFault (k : Nat)
  /-- REMOTE_FAULT_CLEAR (R295): A remote fault that has been clear for 10 ms returns the port to UP. -/
  | remoteFaultClear (k ns : Nat)
  /-- PORT_ENABLE_WRITE (R295): Writing the port's enable to 0 moves it to DISABLED, and writing 1 starts bring-up. -/
  | portEnableWrite (q : Nat) (on : Bool)
  /-- FEC_DEGRADE_WINDOW (R299): At the end of each 1 ms window, the port raises event 0x0104 when its uncorrectable
  codewords reached the limit. -/
  | fecDegradeWindow (k corrected bad blocks : Nat) (syms : List (Nat × Nat))
  /-- LPI_ENTER (R304): After lpi.idle with nothing sent and every queue empty, the transmitter enters LPI. -/
  | lpiEnter (q : Nat)
  /-- LPI_WAKE (R304): A frame that becomes eligible wakes the transmitter, and dequeue waits until tw_tx has passed. -/
  | lpiWake (q : Nat)
  /-- MGMT_FRAME_RECEIVE (R303): The management MAC filters a frame and passes it to the Cobbler or to a host receive
  ring, or drops it. -/
  | mgmtFrameReceive (bytes : Bytes)
  /-- MGMT_STAT_READ (R308): A read of a management counter returns its value and clears it in the same cycle. -/
  | mgmtStatRead (sub : Nat)
  /-- FLEXE_OH_FRAME (R320): At each overhead frame position, the lock state machine advances and GIDM and PNM are
  checked against the configuration. -/
  | flexeOhFrame (m n : Nat) (f : OhFrame)
  /-- FLEXE_MULTIFRAME (R316): At a multiframe boundary, CR is set, or the calendar switches after CA. -/
  | flexeMultiframe (g : Nat) (bips lost : List (Nat × Nat)) (idles : List (Nat × Nat × Nat))
  /-- FLEXE_CA_TIMEOUT (R316): The expiry of ca_timeout switches the calendar at the next boundary and raises event
  0x0204, outcome 2. -/
  | flexeCaTimeout (g : Nat)
  /-- FLEXE_REALIGN (R326): A large skew change, a late member or a lost pseudo-channel makes the group re-measure
  skew and reallocate its stripes. -/
  | flexeRealign (g : Nat) (arrivals : List (Nat × Nat))
  /-- SEAM_HELLO_RECEIVED (R329): A HELLO drives Seam negotiation toward ACTIVE, SILENT or a restart. -/
  | seamHelloReceived (u : Nat) (m : Bytes)
  /-- SEAM_REPORT_RECEIVED (R331): A REPORT's BIP-8 values are compared with the receiver's own windows and the error
  counts are recorded for rei. -/
  | seamReportReceived (u : Nat) (m : Bytes) (own : List (Nat × Nat))
  /-- SEAM_NEGOTIATE_TIMEOUT (R329): 30 multiframes without a HELLO move the group to SILENT. -/
  | seamNegotiateTimeout (g : Nat)
  /-- SEAM_REPORT_TIMEOUT (R329): 8 multiframes without a valid REPORT return the group to NEGOTIATE. -/
  | seamReportTimeout (g : Nat)
  /-- SEAM_RETRY (R329): In SILENT, the expiry of seam.retry sends one HELLO. -/
  | seamRetry (g : Nat)
  /-- PM_SECOND (R332): Each device second, the errored, severely errored and unavailable seconds are classified and
  the SD and SF defects are updated. -/
  | pmSecond
  /-- PM_BIN_CLOSE (R337): 10 s after its end, a PM bin closes, and a 15-minute bin is written as a history record. -/
  | pmBinClose (e : Nat)
  /-- HBM_REQUEST_ISSUE (R348): A controller issues the next request by promotion, class and age, with row hints. -/
  | hbmRequestIssue (n : Nat) (hit parity : Bool)
  /-- HBM_AGE_PROMOTION (R348): A request whose wait exceeds its class's age limit is promoted. -/
  | hbmAgePromotion (n : Nat)
  /-- HBM_READ_COMPLETE (R356): A read returns decoded data, corrected or marked poisoned and counted. -/
  | hbmReadComplete (n : Nat) (words : List (BitVec 144))
  /-- HBM_REFRESH (R351): Per-bank refresh runs at the rate the stack's temperature requires. -/
  | hbmRefresh (n bank : Nat)
  /-- HBM_RETRAIN (R353): In its staggered turn, a pseudo-channel pauses for at most 500 ns and retrains its delays,
  or holds its setting. -/
  | hbmRetrain (pass : Bool)
  /-- HBM_READ_TIMEOUT (R357): A read not answered within 10 µs retires the pseudo-channel with cause 3. -/
  | hbmReadTimeout (n : Nat)
  /-- PATROL_SCRUB (R366): The patrol reads every HBM codeword each period and writes back corrections. -/
  | patrolScrub (a : Nat) (w : BitVec 144) (overtaken last : Bool)
  /-- HBM_STACK_TEMPERATURE (R351): A stack at hm.temp.limit raises event 0x0907 as a temperature out of range. -/
  | hbmStackTemperature (st : Nat) (t : Int)
  /-- RX_DELIVER (R386): A receive ring reserves buffers for its head frame, fills them and writes a completion. -/
  | rxDeliver (r : Nat)
  /-- RX_BUFFER_RETRY (R387): A refused reservation is retried when a buffer of the chosen pool is freed. -/
  | rxBufferRetry (r : Nat)
  /-- RX_NOBUF_TIMEOUT (R387): After hi.rx.wait, the head frame is dropped as RX_NOBUF. -/
  | rxNobufTimeout (r : Nat)
  /-- TX_PIPELINE (R389): A transmit-ring frame enters its port's header FIFO with FROM_HOST set. -/
  | txPipeline (r : Nat) (ds : List (BitVec 256 × Bytes)) (held : List Nat)
  /-- TX_DIRECT (R389): A transmit-ring frame is queued directly on a unicast queue with its own edit program. -/
  | txDirect (r : Nat) (ds : List (BitVec 256 × Bytes)) (held : List Nat)
  /-- TX_GROUP (R389): A transmit-ring frame is replicated to a multicast group. -/
  | txGroup (r : Nat) (ds : List (BitVec 256 × Bytes)) (held : List Nat)
  /-- DMA_DESCRIPTOR (R391): A channel takes the next descriptor and moves data between the spaces, or stops with an
  error. -/
  | dmaDescriptor (c : Nat) (desc host : Bytes) (fail : Nat)
  /-- DMA_COMPLETE (R395): A completed descriptor advances CONS and acts on notify. -/
  | dmaComplete (c : Nat)
  /-- GET (R400): Grants one buffer of the smallest fitting pool, or EMPTY. -/
  | get (requester len mask : Nat)
  /-- SHARE (R400): Adds one to the share count, naming a sharer. -/
  | share (requester a sharer : Nat)
  /-- BUFFER_RELEASE (R400): A named sharer lowers the share count, including through the host free slot. -/
  | bufferRelease (requester a : Nat)
  /-- HANDOVER (R400): Passes ownership of an unshared buffer. -/
  | handover (requester a owner : Nat)
  /-- FREE (R400): Returns an unshared buffer to its pool, including through the host free slot. -/
  | free (requester a : Nat)
  /-- TOD_ANCHOR (R407): At least once per second, the Cobbler writes a new TOD anchor, and the time unit switches
  buffers. -/
  | todAnchor
  /-- TOD_STALE (R408): An anchor that has been in use for 3 s clears tu.tod.valid and raises event 0x0B05. -/
  | todStale
  /-- TOD_SET (R409): A write of tu.tod.set sets TOD at the next anchor and raises event 0x0B07. -/
  | todSet (sec ns : Nat)
  /-- SERVO_OFFSET_WRITE (R417): A write of tu.servo.offset is one servo sample: a step or a PI frequency update, with
  state transitions. -/
  | servoOffsetWrite (theta : Int)
  /-- PPS_IN_EDGE (R420): An accepted PPS_IN edge latches the time and gives a servo sample. -/
  | ppsInEdge
  /-- PPS_IN_LOST (R420): 1.5 s without an accepted edge raises event 0x0B04. -/
  | ppsInLost
  /-- SERVO_HOLDOVER (R418): No sample for holdover_after, or hold set, moves the servo to HOLDOVER with f = I. -/
  | servoHoldover
  /-- SERVO_RESET (R418): A write of 1 to tu.servo.reset returns the servo to FREERUN with I and f cleared. -/
  | servoReset
  /-- PPS_OUT_RISE (R419): PPS_OUT rises when tod.ns passes 0 plus out_delay. -/
  | ppsOutRise
  /-- PPS_OUT_FALL (R419): PPS_OUT falls after pps.width. -/
  | ppsOutFall
  /-- CHAIN_WRITE (R429): A write of a chain entry sets up a spare counter, clears it and raises event 0x0C02, or is
  refused with RANGE. -/
  | chainWrite (c : Nat) (v : BitVec 32)
  /-- COUNTER_RESTART (R428): A counter word read uncorrectable restarts at 0 and raises event 0x0C02. -/
  | counterRestart (id : Nat)
  /-- DUMP_SNAPSHOT (R430): Each period, or on ct.dump.now, the engine takes a counter snapshot at one TCLK cycle, or
  loses it when the ring is full. -/
  | dumpSnapshot
  /-- DUMP_NOW (R430): A write of ct.dump.now requests a snapshot. -/
  | dumpNow
  /-- DUMP_WRITE (R431): A waiting snapshot is written as a dump record and produced is advanced. -/
  | dumpWrite
  /-- BW_WINDOW (R435): At each window end, a port records its last-window octets and updates the peaks. -/
  | bwWindow (q : Nat)
  /-- IPFIX_FLUSH (R439): A stream sends its message when the message is full or flush has passed since its first
  record. -/
  | ipfixFlush (st : Nat)
  /-- TEMPLATE_REFRESH (R439): A stream resends its template sets every template_refresh. -/
  | templateRefresh (st : Nat)
  /-- STATS_INTERVAL (R441): A stream sends a template 266 loss-statistics record every stats_interval. -/
  | statsInterval (st : Nat)
  /-- DOMAIN_SLEEP (R455): A domain under AUTO whose sleep condition holds enters sleep, after holding DMA as R397
  states. -/
  | domainSleep (d : Nat)
  /-- DOMAIN_WAKE (R456): Work for a sleeping domain requests its wake in the wake queue. -/
  | domainWake (d : Nat)
  /-- WAKE_ADMIT (R457): A queued wake is admitted when the budget of the window allows it. -/
  | wakeAdmit
  /-- WAKE_DELAYED (R457): A wake that has waited 1 ms raises event 0x0E01. -/
  | wakeDelayed (d : Nat)
  /-- POWER_DMA_ABORT (R397): When 100 µs pass first, a channel held for a power-down is aborted with error 6 and
  event 0x0E03 is raised. -/
  | powerDmaAbort (c d : Nat)
  /-- HEARTBEAT (R463): Every 4 µs, a heartbeat token is issued to each awake class-8 function. -/
  | heartbeat (back : List Nat) (parity : List (Nat × Nat × Nat))
  /-- HEARTBEAT_TIMEOUT (R463): A token not returned within 46 µs marks the function stalled as a CONTROL fault. -/
  | heartbeatTimeout (key : Nat)
  /-- CLOCK_FAULT (R464): A missing edge, a frequency error or a loss of lock of a device clock is a CLOCK fault and
  leads to safe stop. -/
  | clockFault (clock cause : Nat)
  /-- ENV_SAMPLE (R465): Supply and temperature samples set or clear ENV_WARN and ENV_CRITICAL conditions. -/
  | envSample (kind n : Nat) (v : Int)
  /-- SRAM_SCRUB (R466): Each on-chip SRAM is scrubbed at least once per second. -/
  | sramScrub (mem : Nat) (errs : List (Nat × Bool))
  /-- PATTERN_RECHECK (R466): Once per second, the Cobbler rechecks the CRC of every pattern section. -/
  | patternRecheck (bad : List (Nat × Option Fn))
  /-- D2D_CRC_ERROR (R15): A CRC error on a die-to-die link triggers a replay; 8 failed replays are a D2D_FAIL. -/
  | d2dCrcError (link : Nat) (again : Bool)
  /-- FAULT_DETECTED (R469): A detected fault is reported with fault 1, asserts FAULT_N and takes its class's
  reaction. -/
  | faultDetected (k code : Nat) (ps : List Nat) (f : Option Fn) (drops : Nat)
  /-- FAULT_N_PULSE_END (R469): A LOG reaction's 1 µs FAULT_N pulse ends. -/
  | faultNPulseEnd
  /-- FAULT_ACK (R469): A write to sf.fault.ack clears pending bits and releases FAULT_N when none remain. -/
  | faultAck (v : BitVec 16)
  /-- SAFE_STOP_INPUT (R472): SAFE_STOP_N held low externally for at least 100 ns causes safe stop with cause 17. -/
  | safeStopInput (ns : Nat)
  /-- ROLLBACK_ADVANCE (R452): A write of sf.rollback.advance raises the fused rollback count, or is refused with
  RANGE. -/
  | rollbackAdvance (v : Nat)
  /-- OWNER_FUSE (R453): A write of sf.owner.fuse fuses the owner key hash once; later writes are refused. -/
  | ownerFuse (h : Bytes)
  /-- MGMT_LINK (R311): The management port's link goes up or down, px.mgmt.state changes and event 0x0106 is raised. -/
  | mgmtLink (up : Bool)
  /-- REFCLK_RETURN (R468): When REFCLK returns after a loss, the fault record that waited for it is written to the
  fault queue. -/
  | refclkReturn
  /-- POWER_UP (R476): The board raises the rails in sequence; LVCMOS outputs are held low, open-drain outputs are
  released, and the monitor oscillator, supply monitors and temperature sensors start. -/
  | powerUp
  /-- RX_LPI (R304): The receiver follows the partner's LPI entry and exit and counts rx_lpi_entries and rx_lpi_us. -/
  | rxLpi (q : Nat) (enter : Bool)
  /-- LONGOP_UNIT_DONE (R69): A running long operation completes one unit of work, such as a sector, pseudo-channel,
  block or MB, advances its done units, and stops there when a SUSPEND is pending. -/
  | longopUnitDone (n : Nat) (u : OpUnit)
  deriving DecidableEq, Repr

end Sys2Proof
end

