-- ==== Sys2Proof/Decode.lean ====
section
/-! DEFINITION. The table gives no row any bits, so no word spells a command. -/
namespace Sys2Proof

/-- The command that a word of nbits spells: none, since spec/opcode_table.json gives no row bits.
(DEDUCED, log entry 7) -/
def decodeTableWord (_nbits _w : Nat) : Option Instr := none

end Sys2Proof
end

