-- ==== Sys2Proof/Machine/Dictionary.lean ====
section
/-! DEFINITION. The object dictionary (R35 to R37, R11): one row per object table entry of spec/,
with address range, type, size, access, class, default and limits. The rows follow the object
tables of the chapters named at each part. -/
namespace Sys2Proof.Machine

/-- How an object's default follows from its instance and sub-index. -/
inductive Dflt where
  | num (n : Nat)
  | perInst (l : List Nat)
  | perSub (l : List Nat)
  | instPlus (n : Nat)
  | subId
  | bytes (l : List Nat)
  | text (s : String)
  | board
  deriving DecidableEq, Repr

/-- The limits of an object's value (R40, check 5). -/
inductive Lim5 where
  | none
  | range (lo hi : Int)
  | ranges (l : List (Nat × Nat))
  | multiple (m lo hi : Nat)
  | pow2 (lo hi : Nat)
  | enum (l : List Nat)
  deriving DecidableEq, Repr

/-- One row of the dictionary. Type codes are those of Table 2-1; access 0 RO, 1 RW, 2 RWS,
3 WO, 4 CONST; stop: commit class STOP. -/
structure ObjRow where
  index : Nat
  inst0 : Nat
  inst1 : Nat
  sub0 : Nat
  sub1 : Nat
  ty : Nat
  size : Nat
  access : Nat
  stop : Bool
  dflt : Dflt
  lim : Lim5
  name : String
  deriving DecidableEq, Repr

/-- Objects 0x1000 to 0x1108. -/
def dictPart0 : List ObjRow := [
  ⟨0x1000, 0, 0, 0, 0, 12, 64, 4, false, .text "Sorroth Semiconductor", .none, "id.vendor"⟩,
  ⟨0x1001, 0, 0, 0, 0, 12, 64, 4, false, .text "CRN9516", .none, "id.device"⟩,
  ⟨0x1002, 0, 0, 0, 0, 12, 64, 4, false, .text "B0", .none, "id.revision"⟩,
  ⟨0x1003, 0, 0, 0, 0, 6, 4, 4, false, .num 0, .enum [0, 1], "id.grade"⟩,
  ⟨0x1004, 0, 0, 0, 0, 7, 1, 4, false, .num 3, .none, "id.record_formats"⟩,
  ⟨0x1010, 0, 0, 0, 0, 2, 2, 4, false, .num 258, .none, "id.psindo.v1"⟩,
  ⟨0x1011, 0, 0, 0, 0, 2, 2, 4, false, .num 513, .none, "id.psindo.v2"⟩,
  ⟨0x1012, 0, 0, 0, 0, 2, 2, 4, false, .num 512, .none, "id.pattern.fmt_min"⟩,
  ⟨0x1013, 0, 0, 0, 0, 2, 2, 4, false, .num 513, .none, "id.pattern.fmt_max"⟩,
  ⟨0x1014, 0, 0, 0, 0, 2, 2, 4, false, .num 259, .none, "id.routine_if"⟩,
  ⟨0x1015, 0, 0, 0, 0, 2, 2, 4, false, .num 1, .none, "id.ipfix.templates"⟩,
  ⟨0x1020, 0, 7, 0, 0, 2, 2, 1, false, .num 0, .none, "psindo.key[k].id"⟩,
  ⟨0x1020, 0, 7, 1, 1, 13, 32, 3, false, .num 0, .none, "psindo.key[k].secret"⟩,
  ⟨0x1020, 0, 7, 2, 2, 6, 4, 1, false, .num 0, .enum [0, 1, 2], "psindo.key[k].role"⟩,
  ⟨0x1020, 0, 7, 3, 3, 0, 1, 1, false, .num 0, .none, "psindo.key[k].enable"⟩,
  ⟨0x1021, 0, 0, 0, 0, 9, 4, 1, false, .num 60, .range 10 3600, "psindo.idle_timeout"⟩,
  ⟨0x1022, 0, 0, 0, 0, 1, 1, 0, false, .num 0, .none, "psindo.sessions"⟩,
  ⟨0x1023, 0, 0, 0, 0, 4, 8, 0, false, .num 0, .none, "psindo.auth_fail"⟩,
  ⟨0x1100, 0, 3, 0, 0, 6, 4, 0, false, .num 0, .enum [0, 1, 2, 3], "pat.slot[s].state"⟩,
  ⟨0x1100, 0, 3, 1, 1, 3, 4, 0, false, .num 0, .none, "pat.slot[s].version"⟩,
  ⟨0x1100, 0, 3, 2, 2, 3, 4, 0, false, .num 0, .none, "pat.slot[s].crc"⟩,
  ⟨0x1100, 0, 3, 3, 3, 2, 2, 0, false, .num 0, .none, "pat.slot[s].format"⟩,
  ⟨0x1101, 0, 0, 0, 0, 3, 4, 0, false, .num 0, .none, "pat.staged.generation"⟩,
  ⟨0x1102, 0, 0, 0, 0, 1, 1, 0, false, .num 0, .none, "pat.epoch"⟩,
  ⟨0x1103, 0, 0, 0, 0, 0, 1, 0, false, .num 0, .none, "pat.drain.pending"⟩,
  ⟨0x1104, 0, 0, 0, 0, 4, 8, 0, false, .num 0, .none, "pat.drain.remaining"⟩,
  ⟨0x1105, 0, 0, 0, 0, 8, 8, 1, false, .num 2000000000, .range 100000000 10000000000, "pat.drain.timeout"⟩,
  ⟨0x1106, 0, 0, 0, 0, 2, 2, 0, false, .num 0, .none, "pat.last_reject"⟩,
  ⟨0x1107, 0, 0, 0, 0, 3, 4, 0, false, .num 0, .none, "pat.live_edits"⟩,
  ⟨0x1108, 0, 0, 0, 0, 8, 8, 0, false, .num 0, .none, "pat.last_stop"⟩]

/-- Objects 0x1200 to 0x1319. -/
def dictPart1 : List ObjRow := [
  ⟨0x1200, 0, 15, 0, 0, 6, 4, 0, false, .num 0, .enum [0, 1, 2, 3, 4, 5, 6, 7, 8, 9, 10, 11], "lop[n].type"⟩,
  ⟨0x1200, 0, 15, 1, 1, 6, 4, 0, false, .num 0, .enum [0, 1, 2, 3, 4, 5, 6, 7], "lop[n].state"⟩,
  ⟨0x1200, 0, 15, 2, 2, 4, 8, 0, false, .num 0, .none, "lop[n].done"⟩,
  ⟨0x1200, 0, 15, 3, 3, 4, 8, 0, false, .num 0, .none, "lop[n].total"⟩,
  ⟨0x1200, 0, 15, 4, 4, 2, 2, 0, false, .num 0, .none, "lop[n].result"⟩,
  ⟨0x1200, 0, 15, 5, 5, 9, 4, 0, false, .num 0, .none, "lop[n].started"⟩,
  ⟨0x1200, 0, 15, 6, 6, 1, 1, 0, false, .num 0, .none, "lop[n].requester"⟩,
  ⟨0x1201, 0, 0, 0, 0, 1, 1, 0, false, .num 0, .none, "lop.unfinished"⟩,
  ⟨0x1300, 1, 16, 0, 0, 6, 4, 1, false, .perInst [0, 255, 1, 1, 0, 1, 1, 1, 2, 3, 1, 3, 1, 2, 0, 1, 3], .enum [0, 1, 2, 3, 255], "sf.class[k].reaction"⟩,
  ⟨0x1300, 1, 16, 1, 1, 4, 8, 0, false, .num 0, .none, "sf.class[k].detected"⟩,
  ⟨0x1300, 1, 16, 2, 2, 9, 4, 0, false, .num 0, .none, "sf.class[k].last"⟩,
  ⟨0x1301, 0, 0, 0, 0, 7, 2, 0, false, .num 0, .none, "sf.fault.pending"⟩,
  ⟨0x1302, 0, 0, 0, 0, 7, 2, 3, false, .num 0, .none, "sf.fault.ack"⟩,
  ⟨0x1303, 0, 0, 0, 0, 7, 1, 0, false, .num 0, .none, "sf.guarantee"⟩,
  ⟨0x1304, 0, 0, 0, 0, 0, 1, 1, false, .num 1, .none, "sf.heartbeat.enable"⟩,
  ⟨0x1305, 0, 0, 0, 0, 5, 4, 1, false, .num 100, .range 70 105, "sf.temp.warn"⟩,
  ⟨0x1306, 0, 0, 0, 0, 5, 4, 1, false, .num 110, .range 105 115, "sf.temp.critical"⟩,
  ⟨0x1307, 0, 27, 0, 0, 5, 4, 0, false, .num 0, .none, "sf.temp[t]"⟩,
  ⟨0x1308, 0, 0, 0, 0, 1, 1, 0, false, .num 0, .none, "sf.safe_stop.cause"⟩,
  ⟨0x1309, 0, 0, 0, 0, 4, 8, 0, false, .num 0, .none, "sf.isolate_drops"⟩,
  ⟨0x1310, 0, 0, 0, 0, 6, 4, 0, false, .num 0, .enum [0, 1, 2], "sf.boot.state"⟩,
  ⟨0x1311, 0, 0, 0, 0, 1, 1, 0, false, .num 0, .none, "sf.boot.slot"⟩,
  ⟨0x1312, 0, 0, 0, 0, 3, 4, 0, false, .num 0, .none, "sf.boot.time"⟩,
  ⟨0x1313, 0, 0, 0, 0, 3, 4, 0, false, .num 0, .none, "sf.fw.version"⟩,
  ⟨0x1314, 0, 0, 0, 0, 1, 1, 0, false, .num 0, .none, "sf.fw.security_version"⟩,
  ⟨0x1315, 0, 0, 0, 0, 1, 1, 0, false, .num 0, .none, "sf.rollback.fused"⟩,
  ⟨0x1316, 0, 0, 0, 0, 1, 1, 3, false, .num 0, .none, "sf.rollback.advance"⟩,
  ⟨0x1317, 0, 0, 0, 0, 6, 4, 0, false, .num 0, .enum [0, 1], "sf.owner.mode"⟩,
  ⟨0x1318, 0, 0, 0, 0, 13, 48, 3, false, .num 0, .none, "sf.owner.fuse"⟩,
  ⟨0x1319, 0, 0, 0, 0, 7, 1, 0, false, .num 0, .none, "sf.key.revoked"⟩]

/-- Objects 0x1400 to 0x2010. -/
def dictPart2 : List ObjRow := [
  ⟨0x1400, 0, 96, 0, 0, 6, 4, 1, false, .perInst [1, 1, 1, 1, 1, 1, 1, 1, 1, 1, 1, 1, 1, 1, 1, 1, 0, 0, 0, 0, 0, 0, 0, 0, 0, 0, 0, 0, 1, 1, 1, 1, 1, 1, 1, 1, 1, 1, 1, 1, 1, 1, 1, 1, 1, 1, 1, 1, 1, 1, 1, 1, 1, 1, 1, 1, 1, 1, 1, 1, 1, 1, 1, 1, 1, 1, 1, 1, 1, 1, 1, 1, 1, 1, 1, 1, 1, 1, 1, 1, 1, 1, 1, 1, 1, 1, 1, 1, 1, 1, 1, 1, 1, 0, 0, 0, 0], .enum [0, 1], "pw.domain[d].policy"⟩,
  ⟨0x1400, 0, 96, 1, 1, 6, 4, 0, false, .num 0, .enum [0, 1, 2, 3, 4], "pw.domain[d].state"⟩,
  ⟨0x1401, 0, 0, 0, 0, 2, 2, 1, false, .num 60, .range 10 400, "pw.wake.budget"⟩,
  ⟨0x1402, 0, 0, 0, 0, 8, 8, 1, false, .num 20000, .range 1000 1000000, "pw.wake.window"⟩,
  ⟨0x1403, 0, 0, 0, 0, 8, 8, 1, false, .num 1000000, .range 10000 1000000000, "pw.awl.idle"⟩,
  ⟨0x1404, 0, 0, 0, 0, 1, 1, 0, false, .num 0, .none, "pw.wake.queued"⟩,
  ⟨0x1405, 0, 0, 0, 2, 4, 8, 0, false, .num 0, .none, "pw counters"⟩,
  ⟨0x2000, 0, 1023, 0, 0, 6, 4, 2, true, .num 0, .enum [0, 1, 2, 3, 4, 5, 6, 7, 8, 9, 10, 11, 12, 13, 14, 15, 16], "px.port[q].mode"⟩,
  ⟨0x2001, 0, 1023, 0, 0, 1, 1, 2, true, .num 0, .range 0 15, "px.port[q].lane"⟩,
  ⟨0x2002, 0, 1023, 0, 0, 6, 4, 2, true, .num 0, .enum [0, 1, 2], "px.port[q].medium"⟩,
  ⟨0x2003, 0, 1023, 0, 0, 6, 4, 2, true, .num 3, .enum [0, 1, 2, 3], "px.port[q].fec"⟩,
  ⟨0x2004, 0, 1023, 0, 0, 7, 4, 2, true, .num 0, .none, "px.port[q].an.advertise"⟩,
  ⟨0x2005, 0, 1023, 0, 0, 0, 1, 1, false, .num 1, .none, "px.port[q].enable"⟩,
  ⟨0x2006, 0, 1023, 0, 0, 2, 2, 1, false, .num 16000, .range 1518 16000, "px.port[q].max_rx"⟩,
  ⟨0x2007, 0, 1023, 0, 0, 2, 2, 1, false, .num 16000, .range 1518 16000, "px.port[q].mtu"⟩,
  ⟨0x2008, 0, 1023, 0, 3, 4, 8, 1, false, .num 0, .none, "px.port[q].station[i]"⟩,
  ⟨0x2009, 0, 15, 0, 63, 4, 8, 1, false, .num 0, .none, "px.pipe[p].station[e]"⟩,
  ⟨0x200A, 0, 1023, 0, 0, 0, 1, 1, false, .num 0, .none, "px.port[q].lpi.enable"⟩,
  ⟨0x200A, 0, 1023, 1, 1, 8, 8, 1, false, .num 20000, .range 1000 1000000000, "px.port[q].lpi.idle"⟩,
  ⟨0x200A, 0, 1023, 2, 2, 2, 2, 1, false, .num 0, .none, "px.port[q].lpi.tw_tx"⟩,
  ⟨0x200A, 0, 1023, 3, 3, 2, 2, 0, false, .num 0, .none, "px.port[q].lpi.tw_rx_min"⟩,
  ⟨0x200B, 0, 1023, 0, 0, 3, 4, 1, false, .num 16, .range 1 1000000, "px.port[q].fec.degrade_limit"⟩,
  ⟨0x200B, 0, 1023, 1, 1, 0, 1, 1, false, .num 0, .none, "px.port[q].fec.degrade_down"⟩,
  ⟨0x200C, 0, 1023, 0, 0, 6, 4, 0, false, .num 0, .enum [0, 1, 2, 3, 4], "px.port[q].state"⟩,
  ⟨0x200D, 0, 1023, 0, 0, 6, 4, 0, false, .num 0, .enum [0, 1, 2, 3, 4, 5, 6, 7, 8, 9, 10, 11, 12, 13, 14, 15, 16], "px.port[q].resolved"⟩,
  ⟨0x200D, 0, 1023, 1, 1, 6, 4, 0, false, .num 0, .enum [0, 1, 2], "px.port[q].resolved_fec"⟩,
  ⟨0x200D, 0, 1023, 2, 2, 9, 4, 0, false, .num 0, .none, "px.port[q].retry_in"⟩,
  ⟨0x200D, 0, 1023, 3, 3, 1, 1, 0, false, .num 0, .none, "px.port[q].last_down"⟩,
  ⟨0x2010, 0, 255, 0, 0, 0, 1, 2, true, .num 0, .none, "px.lane[l].tx_invert"⟩,
  ⟨0x2010, 0, 255, 1, 1, 0, 1, 2, true, .num 0, .none, "px.lane[l].rx_invert"⟩]

/-- Objects 0x2010 to 0x2801. -/
def dictPart3 : List ObjRow := [
  ⟨0x2010, 0, 255, 2, 2, 13, 4, 2, true, .num 0, .none, "px.lane[l].tx_eq"⟩,
  ⟨0x2010, 0, 255, 3, 3, 2, 2, 0, false, .num 0, .none, "px.lane[l].snr"⟩,
  ⟨0x2010, 0, 255, 4, 4, 4, 8, 0, false, .num 0, .none, "px.lane[l].symbols_corrected"⟩,
  ⟨0x2020, 0, 1023, 0, 255, 4, 8, 0, false, .num 0, .none, "px.port[q].stat"⟩,
  ⟨0x2070, 0, 0, 0, 0, 6, 4, 1, false, .board, .enum [0, 1], "px.mgmt.mode"⟩,
  ⟨0x2071, 0, 0, 0, 3, 10, 6, 1, false, .board, .none, "px.mgmt.station"⟩,
  ⟨0x2072, 0, 0, 0, 7, 10, 6, 1, false, .num 0, .none, "px.mgmt.mcast"⟩,
  ⟨0x2073, 0, 0, 0, 0, 0, 1, 1, false, .num 1, .none, "px.mgmt.bcast"⟩,
  ⟨0x2074, 0, 0, 0, 0, 0, 1, 1, false, .num 0, .none, "px.mgmt.promisc"⟩,
  ⟨0x2075, 0, 0, 0, 0, 1, 1, 1, false, .num 255, .ranges [(0, 63), (255, 255)], "px.mgmt.ring"⟩,
  ⟨0x2076, 0, 0, 0, 0, 11, 16, 1, false, .board, .none, "px.mgmt.ipv6"⟩,
  ⟨0x2077, 0, 0, 0, 0, 6, 4, 0, false, .num 0, .enum [0, 1], "px.mgmt.state"⟩,
  ⟨0x2080, 0, 0, 0, 255, 4, 8, 0, false, .num 0, .none, "px.mgmt.stat"⟩,
  ⟨0x2800, 0, 63, 0, 0, 0, 1, 2, true, .num 0, .none, "fx.group[g].enable"⟩,
  ⟨0x2800, 0, 63, 1, 1, 3, 4, 2, true, .num 0, .range 0 1048574, "fx.group[g].number"⟩,
  ⟨0x2800, 0, 63, 2, 2, 6, 4, 2, true, .num 0, .enum [0, 1, 2], "fx.group[g].phy_type"⟩,
  ⟨0x2800, 0, 63, 3, 3, 8, 8, 2, true, .num 10000, .range 1000 2000000, "fx.group[g].deskew_max"⟩,
  ⟨0x2800, 0, 63, 4, 4, 13, 1280, 2, false, .num 0, .none, "fx.group[g].cal"⟩,
  ⟨0x2800, 0, 63, 5, 5, 8, 8, 1, false, .num 100000000, .range 10000000 1000000000, "fx.group[g].ca_timeout"⟩,
  ⟨0x2800, 0, 63, 6, 6, 6, 4, 0, false, .num 0, .enum [0, 1], "fx.group[g].cal_in_use"⟩,
  ⟨0x2800, 0, 63, 7, 7, 6, 4, 0, false, .num 0, .enum [0, 1], "fx.group[g].cal_state"⟩,
  ⟨0x2800, 0, 63, 8, 8, 8, 8, 0, false, .num 0, .none, "fx.group[g].skew"⟩,
  ⟨0x2800, 0, 63, 9, 9, 4, 8, 0, false, .num 0, .none, "fx.group[g].deskew_bytes"⟩,
  ⟨0x2800, 0, 63, 10, 10, 4, 8, 0, false, .num 0, .none, "fx.group[g].unknown_slots"⟩,
  ⟨0x2801, 0, 511, 0, 0, 6, 4, 2, true, .num 0, .enum [0, 1, 2, 3, 4, 5, 6, 7, 8, 9, 10, 11, 12, 13, 14, 15, 16], "fx.phy[i].mode"⟩,
  ⟨0x2801, 0, 511, 1, 1, 1, 1, 2, true, .num 0, .range 0 15, "fx.phy[i].pipe"⟩,
  ⟨0x2801, 0, 511, 2, 2, 1, 1, 2, true, .num 0, .range 0 15, "fx.phy[i].lane"⟩,
  ⟨0x2801, 0, 511, 3, 3, 1, 1, 2, true, .num 0, .range 1 254, "fx.phy[i].number"⟩,
  ⟨0x2801, 0, 511, 4, 4, 6, 4, 2, true, .num 0, .enum [0, 1, 2], "fx.phy[i].medium"⟩,
  ⟨0x2801, 0, 511, 5, 5, 6, 4, 0, false, .num 0, .enum [0, 1, 2, 3, 4], "fx.phy[i].state"⟩]

/-- Objects 0x2801 to 0x3004. (PRESUMED, log entry 29) -/
def dictPart4 : List ObjRow := [
  ⟨0x2801, 0, 511, 6, 6, 7, 2, 0, false, .num 0, .none, "fx.phy[i].defects"⟩,
  ⟨0x2801, 0, 511, 7, 7, 8, 8, 0, false, .num 0, .none, "fx.phy[i].delay"⟩,
  ⟨0x2802, 0, 1023, 0, 0, 1, 1, 2, false, .num 255, .ranges [(0, 63), (255, 255)], "fx.client[q].group"⟩,
  ⟨0x2802, 0, 1023, 1, 1, 2, 2, 2, false, .num 0, .range 1 65534, "fx.client[q].id"⟩,
  ⟨0x2802, 0, 1023, 2, 2, 7, 1, 0, false, .num 0, .none, "fx.client[q].defects"⟩,
  ⟨0x2802, 0, 1023, 3, 3, 2, 2, 0, false, .num 0, .none, "fx.client[q].tx_slots"⟩,
  ⟨0x2802, 0, 1023, 4, 4, 2, 2, 0, false, .num 0, .none, "fx.client[q].rx_slots"⟩,
  ⟨0x2802, 0, 1023, 5, 5, 4, 8, 0, false, .num 0, .none, "fx.client[q].idle_inserted"⟩,
  ⟨0x2802, 0, 1023, 6, 6, 4, 8, 0, false, .num 0, .none, "fx.client[q].idle_removed"⟩,
  ⟨0x2810, 0, 63, 0, 0, 0, 1, 1, false, .num 1, .none, "fx.seam[g].enable"⟩,
  ⟨0x2810, 0, 63, 1, 1, 1, 1, 1, false, .num 2, .range 1 2, "fx.seam[g].max_version"⟩,
  ⟨0x2810, 0, 63, 2, 2, 6, 4, 0, false, .num 0, .enum [0, 1, 2, 3], "fx.seam[g].state"⟩,
  ⟨0x2810, 0, 63, 3, 3, 1, 1, 0, false, .num 0, .none, "fx.seam[g].version"⟩,
  ⟨0x2810, 0, 63, 4, 4, 9, 4, 1, false, .num 10, .range 1 3600, "fx.seam[g].retry"⟩,
  ⟨0x2810, 0, 63, 5, 5, 0, 1, 1, false, .num 0, .none, "fx.seam[g].sf_action"⟩,
  ⟨0x2810, 0, 63, 6, 6, 2, 2, 1, false, .num 3, .range 1 298, "fx.seam[g].sd_threshold"⟩,
  ⟨0x2810, 0, 63, 7, 7, 4, 8, 0, false, .num 0, .none, "fx.seam[g].discards"⟩,
  ⟨0x2820, 0, 0, 0, 0, 0, 1, 1, false, .num 1, .none, "fx.pm.enable"⟩,
  ⟨0x2821, 0, 0, 0, 0, 9, 4, 1, false, .num 0, .range 0 86399, "fx.pm.day_offset"⟩,
  ⟨0x2822, 0, 0, 0, 0, 2, 2, 1, false, .num 90, .range 1 298, "fx.pm.ses_threshold"⟩,
  ⟨0x2823, 0, 0, 0, 0, 4, 8, 0, false, .num 0, .none, "fx.pm.history_offset"⟩,
  ⟨0x2824, 0, 12, 0, 0, 3, 4, 1, false, .num 0, .none, "fx.pm.tca[k].bin15"⟩,
  ⟨0x2824, 0, 12, 1, 1, 3, 4, 1, false, .num 0, .none, "fx.pm.tca[k].bin24"⟩,
  ⟨0x2830, 0, 1535, 0, 255, 3, 4, 0, false, .num 0, .none, "fx.pm.entity[e]"⟩,
  ⟨0x3000, 0, 31, 0, 0, 13, 16, 4, false, .perInst [21267647932558658670380651760421175296, 42535295865117312636841564724906688512, 42535295865117312636841564724906688512, 63802943797675966603302477689392201728, 85070591730234620569763390653877714944, 106338239662793274536224303618363228160, 127605887595351928502685216582848741376, 127605887595351928502685216582848741376, 127605887595351928502685216582848741376, 127605887595351928502685216582848741376, 148873535527910582469146129547334254592, 170141183460469236435607042511819767808, 191408831393027890402067955476305281024, 191408831393027890402067955476305281024, 212676479325586544368528868440790794240, 233944127258145198334989781405276307456, 233944127258145193963111435936112574464, 233944127258145198334989781405276307456, 21267647932558658670380651760421175296, 276479423123262506267911607334247333888, 276479423123262506267911607334247333888, 4703919738795935662080, 4703919738795935662080, 4703919738795935662080, 4703919738795935662080, 4703919738795935662080, 4703919738795935662080, 4703919738795935662080, 4703919738795935662080, 4703919738795935662080, 4703919738795935662080, 4703919738795935662080], .none, "clk.node[n]"⟩,
  ⟨0x3000, 32, 63, 0, 0, 13, 16, 2, true, .num 0, .none, "clk.node[n]"⟩,
  ⟨0x3001, 0, 511, 0, 0, 4, 8, 2, true, .perInst [9295994779836350464, 9300304865417756672, 9300091560162492416, 9227877835473944576, 9299295513745031168, 9300478588263858176, 9227891029621866496, 9440109967912206336, 9444206748238348288, 9371993023549800448, 9443410701820887040, 9444593776339714048, 9372006217697722368, 9584225155988062208, 9588321936314204160, 9516108211625656320, 9587525889896742912, 9588708964415569920, 9516121405773578240, 9799845991859355648, 9799870181115691008, 9799834996744126464, 9800123068791652352, 9799936151815585792, 9799841593809829888, 9799922957670809600, 9943947985793581056, 9944042543794094080, 9944044742817873920, 9944079927190487040, 9943961179935211520, 9943985369191546880, 9944075529146073088, 9944238256867508224, 9944051339891441664, 9943956781885685760, 9944038145746665472, 10088063173869436928, 10088157731869949952, 10088159930893729792, 10088195115266342912, 10088076368011067392, 10088100557267402752, 10088190717221928960, 10088353444943364096, 10088166527967297536, 10088071969961541632, 10088153333822521344, 10232178361945292800, 10232272919945805824, 10232275118969585664, 10232310303342198784, 10232191556086923264, 10232215745343258624, 10232305905297784832, 10232468633019219968, 10232281716043153408, 10232187158037397504, 10232268521898377216, 10520408738097004544, 10520503296097517568, 10520505495121297408, 10520540679493910528, 10520421932238635008, 10520446121494970368, 10520536281449496576, 10520699009170931712, 10520512092194865152, 10520417534189109248, 10520498898050088960, 10819172427058249728, 10822013565104947200, 10809342793107374080, 10809344992130629632, 11389605656611782656, 11461023334882869248, 11442153516333793280, 11730383892485505024, 11677836032763494400, 11749253711034580992, 11890068165201756160, 11894378250783162368, 11894164945527898112, 11821951220839350272, 11893368899110436864, 11894551973629263872, 11821964414987272192], .none, "clk.edge[e]"⟩,
  ⟨0x3002, 0, 1023, 0, 0, 2, 2, 2, true, .num 0, .none, "clk.port[q].zone"⟩,
  ⟨0x3003, 0, 0, 0, 0, 11, 16, 2, true, .bytes [0, 100, 255, 155, 0, 0, 0, 0, 0, 0, 0, 0, 0, 0, 0, 0], .none, "clk.nat64.prefix"⟩,
  ⟨0x3004, 0, 0, 0, 0, 1, 1, 2, true, .num 96, .enum [32, 40, 48, 56, 64, 96], "clk.nat64.plen"⟩]

/-- Objects 0x3005 to 0x3817. -/
def dictPart5 : List ObjRow := [
  ⟨0x3005, 0, 0, 0, 0, 3, 4, 1, false, .num 100000, .none, "clk.malformed.event_rate"⟩,
  ⟨0x3010, 0, 3, 0, 3, 6, 4, 2, true, .num 1, .enum [0, 1, 2], "clk.group[g].stage[s].profile"⟩,
  ⟨0x3011, 0, 3, 0, 3, 3, 4, 2, true, .num 65536, .multiple 4096 0 262144, "clk.group[g].stage[s].units"⟩,
  ⟨0x3012, 0, 3, 0, 3, 6, 4, 2, true, .num 0, .enum [0, 1], "clk.group[g].stage[s].level"⟩,
  ⟨0x3013, 0, 3, 0, 3, 13, 16, 2, false, .num 0, .none, "clk.group[g].stage[s].default"⟩,
  ⟨0x3020, 1, 15, 0, 0, 2, 2, 2, true, .num 65535, .ranges [(0, 1023), (32768, 32831), (65535, 65535)], "clk.mirror[m].dest"⟩,
  ⟨0x3020, 1, 15, 1, 1, 2, 2, 2, true, .num 0, .ranges [(0, 0), (64, 16000)], "clk.mirror[m].truncate"⟩,
  ⟨0x3020, 1, 15, 2, 2, 1, 1, 2, true, .num 0, .range 0 7, "clk.mirror[m].class"⟩,
  ⟨0x3030, 0, 15, 0, 0, 4, 8, 0, false, .num 0, .none, "clk.pipe[p].malformed"⟩,
  ⟨0x3030, 0, 15, 1, 1, 4, 8, 0, false, .num 0, .none, "clk.pipe[p].parse_trunc"⟩,
  ⟨0x3030, 0, 15, 2, 2, 4, 8, 0, false, .num 0, .none, "clk.pipe[p].no_key"⟩,
  ⟨0x3030, 0, 15, 3, 3, 4, 8, 0, false, .num 0, .none, "clk.pipe[p].frag_no_lookup"⟩,
  ⟨0x3030, 0, 15, 4, 4, 4, 8, 0, false, .num 0, .none, "clk.pipe[p].edit_fault"⟩,
  ⟨0x3030, 0, 15, 5, 5, 4, 8, 0, false, .num 0, .none, "clk.pipe[p].recirc_drop"⟩,
  ⟨0x3030, 0, 15, 6, 6, 4, 8, 0, false, .num 0, .none, "clk.pipe[p].overrun"⟩,
  ⟨0x3030, 0, 15, 7, 7, 4, 8, 0, false, .num 0, .none, "clk.pipe[p].ttl_drop"⟩,
  ⟨0x3030, 0, 15, 17, 24, 4, 8, 0, false, .num 0, .none, "clk.pipe[p].malformed_cause[c]"⟩,
  ⟨0x3800, 0, 0, 0, 0, 6, 4, 1, false, .num 0, .enum [0, 1], "ft.route_miss.action"⟩,
  ⟨0x3801, 0, 0, 0, 0, 1, 1, 1, false, .num 0, .range 0 63, "ft.route_miss.ring"⟩,
  ⟨0x3802, 0, 0, 0, 0, 2, 2, 2, true, .num 4096, .range 1 16384, "ft.lb.tables"⟩,
  ⟨0x3803, 0, 0, 0, 0, 3, 4, 0, false, .num 0, .none, "ft.lpm.units"⟩,
  ⟨0x3810, 0, 0, 0, 0, 9, 4, 1, false, .num 300, .ranges [(0, 0), (10, 1000000)], "ft.l2.age"⟩,
  ⟨0x3811, 0, 0, 0, 0, 8, 8, 1, false, .num 1000000, .range 0 1000000000, "ft.l2.move_hold"⟩,
  ⟨0x3812, 0, 1023, 0, 0, 0, 1, 1, false, .num 1, .none, "ft.port[q].learn"⟩,
  ⟨0x3813, 0, 1023, 0, 0, 2, 2, 2, true, .num 1, .range 1 4094, "ft.port[q].pvid"⟩,
  ⟨0x3814, 0, 4095, 0, 0, 2, 2, 1, false, .num 65535, .none, "ft.vlan[v].flood"⟩,
  ⟨0x3815, 0, 3, 0, 0, 3, 4, 0, false, .instPlus 17, .none, "ft.l2.group[g].seed_a"⟩,
  ⟨0x3815, 0, 3, 1, 1, 3, 4, 0, false, .instPlus 145, .none, "ft.l2.group[g].seed_b"⟩,
  ⟨0x3816, 0, 3, 0, 8, 4, 8, 0, false, .num 0, .none, "ft.l2.group[g] counters"⟩,
  ⟨0x3817, 0, 3, 0, 7, 4, 8, 0, false, .num 0, .none, "ft.group[g] counters"⟩]

/-- Objects 0x3830 to 0x4034. -/
def dictPart6 : List ObjRow := [
  ⟨0x3830, 0, 0, 0, 0, 0, 1, 1, false, .num 1, .none, "ft.audit.enable"⟩,
  ⟨0x3831, 0, 0, 0, 0, 9, 4, 1, false, .num 10, .range 2 60, "ft.audit.period"⟩,
  ⟨0x3832, 0, 0, 0, 0, 4, 8, 1, false, .num 0, .multiple 4096 0 (2 ^ 64 - 1), "ft.audit.ref_base"⟩,
  ⟨0x3833, 0, 0, 0, 0, 4, 8, 0, false, .num 0, .none, "ft.audit.mismatches"⟩,
  ⟨0x3834, 0, 63, 0, 0, 6, 4, 0, false, .num 0, .enum [0, 1, 2], "ft.audit.target[t].state"⟩,
  ⟨0x3835, 0, 63, 0, 0, 9, 4, 0, false, .num 0, .none, "ft.audit.target[t].last_pass"⟩,
  ⟨0x4000, 1, 1, 0, 0, 3, 4, 2, true, .num 2651956165, .none, "flow.seed[1]"⟩,
  ⟨0x4000, 2, 2, 0, 0, 3, 4, 2, true, .num 1204991503, .none, "flow.seed[2]"⟩,
  ⟨0x4000, 3, 3, 0, 0, 3, 4, 2, true, .num 3051555960, .none, "flow.seed[3]"⟩,
  ⟨0x4000, 4, 4, 0, 0, 3, 4, 2, true, .num 527078610, .none, "flow.seed[4]"⟩,
  ⟨0x4000, 5, 5, 0, 0, 3, 4, 2, true, .num 3804715801, .none, "flow.seed[5]"⟩,
  ⟨0x4001, 0, 0, 0, 0, 3, 4, 0, false, .num 268435456, .none, "flow.records"⟩,
  ⟨0x4002, 0, 0, 0, 0, 3, 4, 0, false, .num 100663296, .none, "flow.buckets"⟩,
  ⟨0x4003, 0, 0, 0, 0, 0, 1, 2, true, .num 0, .none, "flow.cache.verified"⟩,
  ⟨0x4004, 0, 0, 0, 0, 6, 4, 0, false, .num 0, .enum [0, 1], "flow.cache.mode_state"⟩,
  ⟨0x4005, 0, 0, 0, 0, 8, 8, 1, false, .num 1000000000, .range 100000000 10000000000, "flow.fold.period"⟩,
  ⟨0x4006, 0, 0, 0, 0, 2, 2, 1, false, .num 1024, .range 16 4096, "flow.hold.chain_max"⟩,
  ⟨0x4007, 0, 0, 0, 0, 2, 2, 1, false, .num 16, .range 1 1024, "flow.bank.threshold"⟩,
  ⟨0x4010, 0, 15, 0, 0, 3, 4, 1, false, .num 500, .range 0 8000, "flow.pipe[p].reserve"⟩,
  ⟨0x4010, 0, 15, 1, 1, 3, 4, 1, false, .num 16384, .range 1024 65536, "flow.pipe[p].miss_hold"⟩,
  ⟨0x4011, 0, 15, 0, 5, 4, 8, 0, false, .num 0, .none, "flow.pipe[p] counters"⟩,
  ⟨0x4020, 0, 15, 0, 12, 4, 8, 0, false, .num 0, .none, "flow.slice[n] counters"⟩,
  ⟨0x4021, 0, 15, 0, 0, 6, 4, 0, false, .num 0, .enum [0, 1, 2], "flow.slice[n].spare"⟩,
  ⟨0x4021, 0, 15, 1, 1, 1, 1, 0, false, .num 0, .none, "flow.slice[n].spare_bank"⟩,
  ⟨0x4022, 0, 15, 0, 0, 3, 4, 0, false, .num 0, .none, "flow.slice[n].holds"⟩,
  ⟨0x4030, 0, 15, 0, 0, 9, 4, 1, false, .perInst [30, 120, 10, 60, 30, 7440, 300, 300, 300, 300, 300, 300, 300, 300, 240, 10], .range 1 1048575, "flow.age.class[c].timeout"⟩,
  ⟨0x4031, 0, 0, 0, 0, 0, 1, 1, false, .num 1, .none, "flow.age.enable"⟩,
  ⟨0x4032, 0, 0, 0, 0, 8, 8, 1, false, .num 1000000, .range 10000 100000000, "flow.setup.timeout"⟩,
  ⟨0x4033, 0, 0, 0, 0, 1, 1, 1, false, .num 14, .range 0 14, "flow.tcp.scale_assume"⟩,
  ⟨0x4034, 0, 0, 0, 0, 7, 1, 1, false, .num 63, .none, "flow.export.reasons"⟩]

/-- Objects 0x4035 to 0x4837. -/
def dictPart7 : List ObjRow := [
  ⟨0x4035, 0, 0, 0, 0, 3, 4, 0, false, .num 268435456, .none, "flow.records.free"⟩,
  ⟨0x4036, 0, 0, 0, 0, 3, 4, 1, false, .num 13421772, .none, "flow.records.low"⟩,
  ⟨0x4037, 0, 0, 0, 0, 3, 4, 1, false, .num 20000000, .range 1000000 100000000, "flow.rehash.rate"⟩,
  ⟨0x4038, 0, 0, 0, 0, 3, 4, 1, false, .num 100000000, .range 1000000 200000000, "flow.walk.rate"⟩,
  ⟨0x4039, 0, 0, 0, 0, 4, 8, 0, false, .num 0, .none, "flow.index.base"⟩,
  ⟨0x403A, 0, 0, 0, 0, 4, 8, 0, false, .num 0, .none, "flow.records.base"⟩,
  ⟨0x4040, 0, 15, 0, 13, 4, 8, 0, false, .num 0, .none, "flow.slice[n] lifecycle counters"⟩,
  ⟨0x4041, 0, 15, 1, 7, 4, 8, 0, false, .num 0, .none, "flow.slice[n].insert_fail[k]"⟩,
  ⟨0x4042, 0, 0, 1, 6, 4, 8, 0, false, .num 0, .none, "flow.load_refused[d]"⟩,
  ⟨0x4800, 0, 255, 0, 0, 2, 2, 0, false, .perInst [0, 259, 259, 259, 259, 259, 259, 259, 259, 259, 259, 259, 259, 259, 259, 259, 259], .none, "aw.routine[n].if_version"⟩,
  ⟨0x4800, 0, 255, 1, 1, 2, 2, 0, false, .perInst [0, 200, 230, 220, 180, 150, 160, 140, 90, 120, 60, 110, 40, 30, 120, 80, 50], .none, "aw.routine[n].words"⟩,
  ⟨0x4800, 0, 255, 2, 2, 0, 1, 0, false, .num 0, .none, "aw.routine[n].patched"⟩,
  ⟨0x4801, 0, 0, 0, 0, 6, 4, 0, false, .num 0, .enum [0, 1, 2, 3, 4], "aw.patch.state"⟩,
  ⟨0x4802, 0, 0, 0, 0, 3, 4, 0, false, .num 0, .none, "aw.patch.level"⟩,
  ⟨0x4803, 0, 63, 0, 0, 3, 4, 0, false, .num 0, .none, "aw.match[m]"⟩,
  ⟨0x4810, 0, 7, 0, 0, 6, 4, 2, true, .perInst [0, 0, 0, 1, 1, 1, 1, 1], .enum [0, 1], "aw.class[k].mode"⟩,
  ⟨0x4810, 0, 7, 1, 1, 2, 2, 1, false, .perInst [1, 1, 1, 4, 8, 8, 2, 1], .range 1 255, "aw.class[k].weight"⟩,
  ⟨0x4810, 0, 7, 2, 2, 3, 4, 1, false, .perInst [256, 65536, 16384, 16384, 65536, 65536, 4096, 4096], .range 64 262144, "aw.class[k].limit"⟩,
  ⟨0x4810, 0, 7, 3, 3, 8, 8, 1, false, .perInst [10000, 100000, 100000, 10000000, 10000000, 10000000, 10000000, 1000000000], .range 1000 10000000000, "aw.class[k].age_alarm"⟩,
  ⟨0x4811, 0, 7, 0, 5, 4, 8, 0, false, .num 0, .none, "aw.class[k] observables"⟩,
  ⟨0x4820, 0, 63, 0, 0, 6, 4, 0, false, .num 0, .enum [0, 1, 2, 3], "aw.awl[a].state"⟩,
  ⟨0x4820, 0, 63, 1, 5, 4, 8, 0, false, .num 0, .none, "aw.awl[a] observables"⟩,
  ⟨0x4830, 0, 0, 0, 0, 8, 8, 1, false, .num 200, .range 0 100000, "aw.affinity.wait"⟩,
  ⟨0x4831, 0, 0, 0, 0, 1, 1, 1, false, .num 16, .range 2 255, "aw.weighted.floor"⟩,
  ⟨0x4832, 0, 0, 0, 0, 8, 8, 1, false, .num 1000000, .range 1000 1000000000, "aw.obs.window"⟩,
  ⟨0x4833, 0, 0, 0, 0, 1, 1, 1, false, .num 4, .range 1 64, "aw.retire.alarm"⟩,
  ⟨0x4834, 0, 0, 0, 0, 1, 1, 0, false, .num 0, .none, "aw.retired"⟩,
  ⟨0x4835, 0, 255, 0, 3, 4, 8, 0, false, .num 0, .none, "aw.routine[n] counters"⟩,
  ⟨0x4836, 0, 0, 0, 0, 2, 2, 0, false, .num 0, .none, "aw.ctx.used"⟩,
  ⟨0x4837, 0, 0, 0, 0, 4, 8, 0, false, .num 0, .none, "aw.ctx.full_waits"⟩]

/-- Objects 0x4838 to 0x5801. -/
def dictPart8 : List ObjRow := [
  ⟨0x4838, 0, 0, 0, 0, 2, 2, 0, false, .num 0, .none, "aw.closer.held"⟩,
  ⟨0x4839, 0, 0, 0, 0, 4, 8, 0, false, .num 0, .none, "aw.closer.stall"⟩,
  ⟨0x5000, 0, 0, 0, 0, 3, 4, 2, true, .num 65536, .multiple 2 16384 131072, "sc.reserve"⟩,
  ⟨0x5001, 0, 1023, 0, 0, 3, 4, 2, true, .num 128, .range 0 4096, "sc.port[q].min"⟩,
  ⟨0x5002, 0, 1023, 0, 0, 3, 4, 1, false, .num 65536, .range 64 655360, "sc.port[q].limit"⟩,
  ⟨0x5003, 0, 4095, 0, 0, 3, 4, 1, false, .num 32768, .range 64 655360, "sc.uq[u].limit"⟩,
  ⟨0x5004, 0, 4095, 0, 0, 3, 4, 1, false, .num 0, .range 0 134217728, "sc.uq[u].ecn_threshold"⟩,
  ⟨0x5005, 0, 2047, 0, 0, 3, 4, 1, false, .num 8192, .range 64 655360, "sc.mq[m].limit"⟩,
  ⟨0x5005, 0, 2047, 1, 1, 3, 4, 1, false, .num 0, .range 0 655360, "sc.mq[m].ecn_threshold"⟩,
  ⟨0x5006, 0, 7, 0, 0, 8, 8, 1, false, .num 1000000000, .multiple 1000 1000 1000000000, "sc.class[c].age_limit"⟩,
  ⟨0x5007, 0, 1023, 0, 0, 0, 1, 1, false, .num 0, .none, "sc.port[q].heel"⟩,
  ⟨0x5007, 0, 1023, 1, 1, 0, 1, 1, false, .num 1, .none, "sc.port[q].cut_through"⟩,
  ⟨0x5008, 0, 4095, 0, 0, 3, 4, 1, false, .num 4096, .range 256 65536, "sc.uq[u].spill_on"⟩,
  ⟨0x5008, 0, 4095, 1, 1, 3, 4, 1, false, .num 65536, .range 0 8388608, "sc.uq[u].heel_limit"⟩,
  ⟨0x5009, 0, 0, 0, 0, 1, 1, 1, false, .num 16, .range 6 64, "sc.heel.prefetch"⟩,
  ⟨0x500A, 0, 0, 0, 0, 2, 2, 4, false, .num 64, .none, "sc.mc.split"⟩,
  ⟨0x500B, 0, 0, 0, 0, 8, 8, 1, false, .num 100000, .range 1000 10000000, "sc.mc.residue_time"⟩,
  ⟨0x500C, 0, 0, 0, 0, 1, 1, 1, false, .num 4, .range 0 8, "sc.mc.high_from"⟩,
  ⟨0x500D, 0, 0, 0, 0, 2, 2, 1, false, .num 16, .range 1 1024, "sc.bank.threshold"⟩,
  ⟨0x500E, 0, 0, 0, 0, 0, 1, 1, false, .num 1, .none, "sc.bist.online"⟩,
  ⟨0x5010, 0, 1, 0, 5, 4, 8, 0, false, .num 0, .none, "sc.half[h]"⟩,
  ⟨0x5011, 0, 0, 0, 0, 3, 4, 0, false, .num 0, .none, "sc.heel.pages_used"⟩,
  ⟨0x5012, 0, 0, 0, 0, 2, 2, 0, false, .num 0, .none, "sc.heel.spilling"⟩,
  ⟨0x5013, 0, 4095, 0, 0, 3, 4, 0, false, .num 0, .none, "sc.uq[u].depth"⟩,
  ⟨0x5013, 0, 4095, 1, 1, 3, 4, 0, false, .num 0, .none, "sc.uq[u].heel_pages"⟩,
  ⟨0x5013, 0, 4095, 2, 2, 6, 4, 0, false, .num 0, .enum [0, 1], "sc.uq[u].state"⟩,
  ⟨0x5014, 0, 1023, 0, 12, 4, 8, 0, false, .num 0, .none, "sc.port[q] egress counters"⟩,
  ⟨0x5015, 0, 1023, 0, 0, 4, 8, 0, false, .num 0, .none, "sc.port[q].ingress_drop"⟩,
  ⟨0x5800, 0, 15, 0, 0, 6, 4, 1, false, .num 1, .enum [0, 1], "tm.xbar[e].mode"⟩,
  ⟨0x5801, 0, 15, 0, 17, 2, 2, 0, false, .num 0, .none, "tm.xbar[e].weight[p]"⟩]

/-- Objects 0x5802 to 0x6025. -/
def dictPart9 : List ObjRow := [
  ⟨0x5802, 0, 15, 0, 15, 4, 8, 0, false, .num 0, .none, "tm.xbar[p].drop[e]"⟩,
  ⟨0x5810, 0, 1023, 0, 9, 1, 1, 2, true, .perSub [0, 1, 2, 3, 4, 5, 6, 7, 0, 4], .range 0 7, "tm.port[q].queue[s].group"⟩,
  ⟨0x5811, 0, 1023, 0, 9, 1, 1, 1, false, .num 1, .range 1 255, "tm.port[q].queue[s].weight"⟩,
  ⟨0x5812, 0, 1023, 0, 7, 1, 1, 2, true, .subId, .range 0 7, "tm.port[q].cg[k].prio"⟩,
  ⟨0x5813, 0, 1023, 0, 7, 1, 1, 1, false, .num 1, .range 1 255, "tm.port[q].cg[k].weight"⟩,
  ⟨0x5814, 0, 1023, 0, 7, 6, 4, 2, true, .num 1, .enum [0, 1], "tm.port[q].cg[k].mode"⟩,
  ⟨0x5815, 0, 1023, 0, 7, 6, 4, 2, true, .num 1, .enum [0, 1], "tm.port[q].cg[k].weight_mode"⟩,
  ⟨0x5820, 0, 1023, 0, 32, 13, 24, 1, false, .num 1461501636990620551282746369252908412224164331520, .none, "tm.port[q].shaper[n]"⟩,
  ⟨0x5830, 0, 0, 0, 0, 8, 8, 1, false, .num 1000, .range 100 1000000, "tm.meter.backlog_alarm"⟩,
  ⟨0x5831, 0, 15, 0, 4, 4, 8, 0, false, .num 0, .none, "tm.meter.pipe[p] counters"⟩,
  ⟨0x5840, 0, 0, 0, 0, 8, 8, 1, false, .num 1000, .range 100 1000000000, "tm.sample.interval"⟩,
  ⟨0x5841, 0, 1023, 0, 0, 0, 1, 1, false, .num 0, .none, "tm.port[q].sample"⟩,
  ⟨0x5842, 0, 0, 0, 0, 6, 4, 1, false, .num 0, .enum [0, 1], "tm.sample.dest"⟩,
  ⟨0x5843, 0, 0, 0, 0, 4, 8, 1, false, .num 0, .multiple 4096 0 (2 ^ 64 - 1), "tm.sample.ring_base"⟩,
  ⟨0x5844, 0, 0, 0, 0, 3, 4, 1, false, .num 65536, .pow2 1024 16777216, "tm.sample.ring_records"⟩,
  ⟨0x5845, 0, 0, 0, 0, 3, 4, 0, false, .num 0, .none, "tm.sample.produced"⟩,
  ⟨0x5846, 0, 0, 0, 0, 3, 4, 1, false, .num 0, .none, "tm.sample.consumed"⟩,
  ⟨0x5847, 0, 0, 0, 0, 4, 8, 0, false, .num 0, .none, "tm.sample.lost"⟩,
  ⟨0x6000, 0, 6, 0, 0, 2, 2, 2, true, .perInst [32, 6, 2, 8, 4, 16, 60], .range 1 128, "hm.part[k].size"⟩,
  ⟨0x6001, 0, 6, 0, 0, 4, 8, 0, false, .perInst [0, 34359738368, 40802189312, 42949672960, 51539607552, 55834574848, 73014444032], .none, "hm.part[k].base"⟩,
  ⟨0x6002, 0, 6, 0, 0, 1, 1, 0, false, .num 128, .none, "hm.part[k].stripes"⟩,
  ⟨0x6010, 0, 7, 0, 0, 8, 8, 1, false, .perInst [500, 1000, 2000, 4000, 2000, 20000, 20000, 100000], .range 100 10000000, "hm.class[c].age_limit"⟩,
  ⟨0x6010, 0, 7, 1, 1, 6, 4, 1, false, .num 0, .enum [0, 1, 2], "hm.class[c].page"⟩,
  ⟨0x6011, 0, 7, 0, 3, 4, 8, 0, false, .num 0, .none, "hm.class[c] counters"⟩,
  ⟨0x6020, 0, 0, 0, 0, 9, 4, 1, false, .num 120, .range 10 120, "hm.scrub.period"⟩,
  ⟨0x6021, 0, 0, 0, 0, 3, 4, 1, false, .num 16384, .range 1024 65536, "hm.scrub.pass_rate"⟩,
  ⟨0x6022, 0, 0, 0, 0, 2, 2, 1, false, .num 64, .range 4 65535, "hm.pin.threshold"⟩,
  ⟨0x6023, 0, 0, 0, 0, 8, 8, 1, false, .num 64000000, .range 16000000 256000000, "hm.retrain.interval"⟩,
  ⟨0x6024, 0, 0, 0, 0, 3, 4, 1, false, .num 1000, .range 1 1000000, "hm.retrain.cer_limit"⟩,
  ⟨0x6025, 0, 0, 0, 0, 2, 2, 1, false, .num 16, .range 1 65535, "hm.pc.ue_limit"⟩]

/-- Objects 0x6026 to 0x6840. -/
def dictPart10 : List ObjRow := [
  ⟨0x6026, 0, 0, 0, 0, 5, 4, 1, false, .num 95, .range 70 105, "hm.temp.limit"⟩,
  ⟨0x6030, 0, 127, 0, 0, 6, 4, 0, false, .num 0, .enum [0, 1, 2, 3], "hm.pc[n].state"⟩,
  ⟨0x6030, 0, 127, 1, 1, 1, 1, 0, false, .num 255, .none, "hm.pc[n].erased_pair"⟩,
  ⟨0x6030, 0, 127, 2, 2, 1, 1, 0, false, .num 0, .none, "hm.pc[n].retire_cause"⟩,
  ⟨0x6031, 0, 127, 0, 4, 4, 8, 0, false, .num 0, .none, "hm.pc[n] counters"⟩,
  ⟨0x6040, 0, 3, 0, 0, 5, 4, 0, false, .num 0, .none, "hm.stack[s].temp"⟩,
  ⟨0x6040, 0, 3, 1, 1, 6, 4, 0, false, .num 0, .enum [0, 1, 2], "hm.stack[s].state"⟩,
  ⟨0x6041, 0, 0, 0, 0, 1, 1, 0, false, .num 0, .none, "hm.retired"⟩,
  ⟨0x6042, 0, 0, 0, 0, 9, 4, 0, false, .num 0, .none, "hm.scrub.last_pass"⟩,
  ⟨0x6800, 0, 0, 0, 0, 6, 4, 0, false, .num 0, .enum [0, 1, 2, 3, 4, 5, 6], "hi.pcie.rate"⟩,
  ⟨0x6800, 0, 0, 1, 1, 1, 1, 0, false, .num 0, .none, "hi.pcie.width"⟩,
  ⟨0x6801, 0, 0, 0, 0, 4, 8, 0, false, .num 0, .none, "hi.bar2.refused"⟩,
  ⟨0x6810, 1, 14, 0, 0, 1, 1, 1, false, .num 0, .range 0 7, "hi.evt.route[s]"⟩,
  ⟨0x6811, 0, 0, 0, 0, 1, 1, 1, false, .num 7, .range 0 7, "hi.evt.fault_queue"⟩,
  ⟨0x6812, 0, 7, 0, 0, 4, 8, 0, false, .num 0, .none, "hi.evq[e].lost"⟩,
  ⟨0x6820, 0, 63, 0, 0, 7, 2, 1, false, .num 0, .none, "hi.rx[r].pools"⟩,
  ⟨0x6820, 0, 63, 1, 1, 8, 8, 1, false, .num 100000, .range 1000 10000000, "hi.rx[r].wait"⟩,
  ⟨0x6820, 0, 63, 2, 2, 3, 4, 1, false, .num 4096, .range 64 65536, "hi.rx[r].limit"⟩,
  ⟨0x6821, 0, 63, 0, 6, 4, 8, 0, false, .num 0, .none, "hi.rx[r] counters"⟩,
  ⟨0x6822, 0, 63, 0, 0, 1, 1, 1, false, .num 1, .range 1 255, "hi.tx[r].weight"⟩,
  ⟨0x6823, 0, 63, 0, 2, 4, 8, 0, false, .num 0, .none, "hi.tx[r] counters"⟩,
  ⟨0x6830, 0, 0, 0, 0, 1, 1, 1, false, .num 24, .range 8 32, "hi.dma.host_channels"⟩,
  ⟨0x6831, 0, 31, 0, 0, 1, 1, 0, false, .num 0, .none, "hi.dma[c].error"⟩,
  ⟨0x6831, 0, 31, 1, 1, 4, 8, 0, false, .num 0, .none, "hi.dma[c].bytes"⟩,
  ⟨0x6840, 0, 15, 0, 0, 3, 4, 1, false, .num 2048, .pow2 64 65536, "hi.pool[k].size"⟩,
  ⟨0x6840, 0, 15, 1, 1, 3, 4, 1, false, .num 0, .range 0 1048576, "hi.pool[k].count"⟩,
  ⟨0x6840, 0, 15, 2, 2, 6, 4, 1, false, .num 0, .enum [0, 1], "hi.pool[k].space"⟩,
  ⟨0x6840, 0, 15, 3, 3, 4, 8, 1, false, .num 0, .none, "hi.pool[k].base"⟩,
  ⟨0x6840, 0, 15, 4, 4, 0, 1, 1, false, .num 0, .none, "hi.pool[k].enable"⟩,
  ⟨0x6840, 0, 15, 5, 5, 3, 4, 1, false, .num 0, .none, "hi.pool[k].low"⟩]

/-- Objects 0x6841 to 0x7030. -/
def dictPart11 : List ObjRow := [
  ⟨0x6841, 0, 15, 0, 3, 4, 8, 0, false, .num 0, .none, "hi.pool[k] counters"⟩,
  ⟨0x6842, 0, 0, 0, 0, 4, 8, 0, false, .num 0, .none, "hi.pool.refused_range"⟩,
  ⟨0x7000, 0, 0, 0, 0, 13, 24, 0, false, .num 0, .none, "tu.now"⟩,
  ⟨0x7001, 0, 0, 0, 0, 3, 4, 0, false, .num 0, .none, "tu.ms"⟩,
  ⟨0x7002, 0, 0, 0, 0, 13, 16, 0, false, .num 0, .none, "tu.ms.anchor"⟩,
  ⟨0x7003, 0, 0, 0, 0, 13, 16, 3, false, .num 0, .none, "tu.tod.set"⟩,
  ⟨0x7004, 0, 0, 0, 0, 0, 1, 0, false, .num 0, .none, "tu.tod.valid"⟩,
  ⟨0x7010, 0, 1023, 0, 0, 5, 4, 1, false, .num 0, .range (-100000) (100000), "tu.port[q].rx_delay"⟩,
  ⟨0x7010, 0, 1023, 1, 1, 5, 4, 1, false, .num 0, .range (-100000) (100000), "tu.port[q].tx_delay"⟩,
  ⟨0x7010, 0, 1023, 2, 2, 3, 4, 1, false, .num 0, .range 0 1000000, "tu.port[q].link_delay"⟩,
  ⟨0x7011, 0, 0, 0, 0, 0, 1, 2, true, .num 0, .none, "tu.tc.p2p"⟩,
  ⟨0x7012, 0, 0, 0, 5, 4, 8, 0, false, .num 0, .none, "tu.ptp counters"⟩,
  ⟨0x7020, 0, 0, 0, 0, 6, 4, 2, true, .num 0, .enum [0, 1], "tu.servo.source"⟩,
  ⟨0x7021, 0, 0, 0, 0, 5, 4, 3, false, .num 0, .none, "tu.servo.offset"⟩,
  ⟨0x7022, 0, 0, 0, 0, 3, 4, 2, true, .num 262144, .none, "tu.servo.kp"⟩,
  ⟨0x7023, 0, 0, 0, 0, 3, 4, 2, true, .num 16384, .none, "tu.servo.ki"⟩,
  ⟨0x7024, 0, 0, 0, 0, 3, 4, 2, true, .num 20000, .range 100 1000000000, "tu.servo.step_ns"⟩,
  ⟨0x7025, 0, 0, 0, 0, 3, 4, 2, true, .num 100000, .range 1 500000, "tu.servo.max_ppb"⟩,
  ⟨0x7026, 0, 0, 0, 0, 3, 4, 2, true, .num 100, .range 1 1000000, "tu.servo.lock_ns"⟩,
  ⟨0x7027, 0, 0, 0, 0, 8, 8, 2, true, .num 3000000000, .range 100000000 60000000000, "tu.servo.holdover_after"⟩,
  ⟨0x7028, 0, 0, 0, 0, 0, 1, 1, false, .num 0, .none, "tu.servo.hold"⟩,
  ⟨0x7029, 0, 0, 0, 0, 0, 1, 3, false, .num 0, .none, "tu.servo.reset"⟩,
  ⟨0x702A, 0, 0, 0, 0, 6, 4, 0, false, .num 0, .enum [0, 1, 2, 3], "tu.servo.state"⟩,
  ⟨0x702B, 0, 0, 0, 0, 5, 4, 0, false, .num 0, .none, "tu.servo.freq"⟩,
  ⟨0x702B, 0, 0, 1, 1, 5, 4, 0, false, .num 0, .none, "tu.servo.integral"⟩,
  ⟨0x702B, 0, 0, 2, 2, 5, 4, 0, false, .num 0, .none, "tu.servo.last_offset"⟩,
  ⟨0x702C, 0, 0, 0, 2, 4, 8, 0, false, .num 0, .none, "tu.servo counters"⟩,
  ⟨0x7030, 0, 0, 0, 0, 0, 1, 2, true, .num 0, .none, "tu.pps.out_enable"⟩,
  ⟨0x7030, 0, 0, 1, 1, 8, 8, 2, true, .num 1000000, .range 100 500000000, "tu.pps.width"⟩,
  ⟨0x7030, 0, 0, 2, 2, 5, 4, 2, true, .num 0, .range (-1000000) (1000000), "tu.pps.out_delay"⟩]

/-- Objects 0x7030 to 0x7840. -/
def dictPart12 : List ObjRow := [
  ⟨0x7030, 0, 0, 3, 3, 0, 1, 2, true, .num 0, .none, "tu.pps.in_enable"⟩,
  ⟨0x7030, 0, 0, 4, 4, 5, 4, 2, true, .num 0, .range (-1000000) (1000000), "tu.pps.in_delay"⟩,
  ⟨0x7030, 0, 0, 5, 5, 13, 16, 0, false, .num 0, .none, "tu.pps.in_ts"⟩,
  ⟨0x7030, 0, 0, 6, 6, 4, 8, 0, false, .num 0, .none, "tu.pps.in_ignored"⟩,
  ⟨0x7040, 0, 3, 0, 0, 0, 1, 2, true, .num 0, .none, "tu.recclk[i].enable"⟩,
  ⟨0x7040, 0, 3, 1, 1, 1, 1, 2, true, .num 0, .none, "tu.recclk[i].lane"⟩,
  ⟨0x7040, 0, 3, 2, 2, 6, 4, 2, true, .num 0, .enum [0, 1, 2, 3, 4], "tu.recclk[i].div"⟩,
  ⟨0x7040, 0, 3, 3, 3, 6, 4, 0, false, .num 0, .enum [0, 1, 2], "tu.recclk[i].state"⟩,
  ⟨0x7800, 0, 3839, 0, 0, 3, 4, 1, false, .num 0, .none, "ct.chain[i]"⟩,
  ⟨0x7801, 0, 3839, 0, 0, 13, 16, 0, false, .num 0, .none, "ct.wide[i]"⟩,
  ⟨0x7810, 0, 0, 0, 0, 8, 8, 1, false, .num 1000000000, .range 1000000 10000000000, "ct.dump.period"⟩,
  ⟨0x7811, 0, 0, 0, 0, 2, 2, 2, true, .num 0, .none, "ct.dump.first"⟩,
  ⟨0x7812, 0, 0, 0, 0, 3, 4, 2, true, .num 65536, .range 1 65536, "ct.dump.count"⟩,
  ⟨0x7813, 0, 0, 0, 0, 0, 1, 2, true, .num 0, .none, "ct.dump.bw"⟩,
  ⟨0x7814, 0, 0, 0, 0, 6, 4, 2, true, .num 0, .enum [0, 1], "ct.dump.dest"⟩,
  ⟨0x7815, 0, 0, 0, 0, 4, 8, 2, true, .num 0, .multiple 4096 0 (2 ^ 64 - 1), "ct.dump.ring_base"⟩,
  ⟨0x7816, 0, 0, 0, 0, 3, 4, 2, true, .num 64, .pow2 2 65536, "ct.dump.ring_slots"⟩,
  ⟨0x7817, 0, 0, 0, 0, 3, 4, 0, false, .num 557120, .none, "ct.dump.slot_bytes"⟩,
  ⟨0x7818, 0, 0, 0, 0, 3, 4, 0, false, .num 0, .none, "ct.dump.produced"⟩,
  ⟨0x7819, 0, 0, 0, 0, 3, 4, 1, false, .num 0, .none, "ct.dump.consumed"⟩,
  ⟨0x781A, 0, 0, 0, 0, 0, 1, 3, false, .num 0, .none, "ct.dump.now"⟩,
  ⟨0x7820, 0, 1023, 0, 0, 8, 8, 1, false, .num 1000000, .multiple 1000 1000 1000000000, "ct.port[q].bw_window"⟩,
  ⟨0x7821, 0, 1023, 0, 0, 13, 32, 0, false, .num 0, .none, "ct.port[q].bw"⟩,
  ⟨0x7830, 0, 0, 0, 0, 1, 1, 2, true, .num 0, .range 0 15, "ct.ipfix.flow_stream"⟩,
  ⟨0x7831, 0, 0, 0, 0, 9, 4, 1, false, .num 60, .range 1 86400, "ct.ipfix.active_timeout"⟩,
  ⟨0x7832, 0, 0, 0, 0, 3, 4, 1, false, .num 1, .range 1 65536, "ct.ipfix.sample_n"⟩,
  ⟨0x7840, 0, 15, 0, 0, 6, 4, 2, true, .num 0, .enum [0, 1, 2, 3], "ct.stream[s].dest"⟩,
  ⟨0x7840, 0, 15, 1, 1, 3, 4, 2, true, .instPlus 0, .none, "ct.stream[s].domain"⟩,
  ⟨0x7840, 0, 15, 2, 2, 2, 2, 2, true, .num 1400, .range 256 9000, "ct.stream[s].mtu"⟩,
  ⟨0x7840, 0, 15, 3, 3, 8, 8, 1, false, .num 10000000, .range 1000000 1000000000, "ct.stream[s].flush"⟩]

/-- Objects 0x7840 to 0x788c. -/
def dictPart13 : List ObjRow := [
  ⟨0x7840, 0, 15, 4, 4, 4, 8, 2, true, .num 0, .multiple 4096 0 (2 ^ 64 - 1), "ct.stream[s].ring_base"⟩,
  ⟨0x7840, 0, 15, 5, 5, 3, 4, 2, true, .num 4096, .pow2 64 1048576, "ct.stream[s].ring_slots"⟩,
  ⟨0x7840, 0, 15, 6, 6, 3, 4, 0, false, .num 0, .none, "ct.stream[s].produced"⟩,
  ⟨0x7840, 0, 15, 7, 7, 3, 4, 1, false, .num 0, .none, "ct.stream[s].consumed"⟩,
  ⟨0x7840, 0, 15, 8, 8, 3, 4, 2, true, .num 0, .none, "ct.stream[s].udp.nh"⟩,
  ⟨0x7840, 0, 15, 9, 9, 2, 2, 2, true, .num 0, .range 0 4095, "ct.stream[s].udp.edit"⟩,
  ⟨0x7840, 0, 15, 10, 10, 11, 16, 2, true, .num 0, .none, "ct.stream[s].udp.src"⟩,
  ⟨0x7840, 0, 15, 11, 11, 11, 16, 2, true, .num 0, .none, "ct.stream[s].udp.dst"⟩,
  ⟨0x7840, 0, 15, 12, 12, 2, 2, 2, true, .num 4739, .none, "ct.stream[s].udp.sport"⟩,
  ⟨0x7840, 0, 15, 13, 13, 2, 2, 2, true, .num 4739, .none, "ct.stream[s].udp.dport"⟩,
  ⟨0x7840, 0, 15, 14, 14, 1, 1, 2, true, .num 0, .range 0 63, "ct.stream[s].udp.dscp"⟩,
  ⟨0x7840, 0, 15, 15, 15, 1, 1, 2, true, .num 0, .range 0 7, "ct.stream[s].udp.class"⟩,
  ⟨0x7840, 0, 15, 16, 16, 9, 4, 1, false, .num 600, .range 10 86400, "ct.stream[s].template_refresh"⟩,
  ⟨0x7840, 0, 15, 17, 17, 9, 4, 1, false, .num 60, .range 10 86400, "ct.stream[s].stats_interval"⟩,
  ⟨0x7840, 0, 15, 18, 18, 3, 4, 1, false, .num 65536, .range 1024 262144, "ct.stream[s].queue"⟩,
  ⟨0x7841, 0, 15, 0, 2, 4, 8, 0, false, .num 0, .none, "ct.stream[s] counters"⟩,
  ⟨0x7850, 0, 0, 0, 3, 4, 8, 0, false, .num 0, .none, "ct.stat counters"⟩,
  ⟨0x7880, 0, 4095, 0, 0, 4, 8, 0, false, .num 0, .none, "ct.counter[ID]"⟩,
  ⟨0x7881, 0, 4095, 0, 0, 4, 8, 0, false, .num 0, .none, "ct.counter[ID]"⟩,
  ⟨0x7882, 0, 4095, 0, 0, 4, 8, 0, false, .num 0, .none, "ct.counter[ID]"⟩,
  ⟨0x7883, 0, 4095, 0, 0, 4, 8, 0, false, .num 0, .none, "ct.counter[ID]"⟩,
  ⟨0x7884, 0, 4095, 0, 0, 4, 8, 0, false, .num 0, .none, "ct.counter[ID]"⟩,
  ⟨0x7885, 0, 4095, 0, 0, 4, 8, 0, false, .num 0, .none, "ct.counter[ID]"⟩,
  ⟨0x7886, 0, 4095, 0, 0, 4, 8, 0, false, .num 0, .none, "ct.counter[ID]"⟩,
  ⟨0x7887, 0, 4095, 0, 0, 4, 8, 0, false, .num 0, .none, "ct.counter[ID]"⟩,
  ⟨0x7888, 0, 4095, 0, 0, 4, 8, 0, false, .num 0, .none, "ct.counter[ID]"⟩,
  ⟨0x7889, 0, 4095, 0, 0, 4, 8, 0, false, .num 0, .none, "ct.counter[ID]"⟩,
  ⟨0x788A, 0, 4095, 0, 0, 4, 8, 0, false, .num 0, .none, "ct.counter[ID]"⟩,
  ⟨0x788B, 0, 4095, 0, 0, 4, 8, 0, false, .num 0, .none, "ct.counter[ID]"⟩,
  ⟨0x788C, 0, 4095, 0, 0, 4, 8, 0, false, .num 0, .none, "ct.counter[ID]"⟩]

/-- Objects 0x788d to 0x788f. -/
def dictPart14 : List ObjRow := [
  ⟨0x788D, 0, 4095, 0, 0, 4, 8, 0, false, .num 0, .none, "ct.counter[ID]"⟩,
  ⟨0x788E, 0, 4095, 0, 0, 4, 8, 0, false, .num 0, .none, "ct.counter[ID]"⟩,
  ⟨0x788F, 0, 4095, 0, 0, 4, 8, 0, false, .num 0, .none, "ct.counter[ID]"⟩]

/-- The whole dictionary, in ascending address order. -/
def dictionary : List ObjRow :=
  dictPart0 ++ dictPart1 ++ dictPart2 ++ dictPart3 ++ dictPart4 ++ dictPart5 ++ dictPart6 ++ dictPart7 ++ dictPart8 ++ dictPart9 ++ dictPart10 ++ dictPart11 ++ dictPart12 ++ dictPart13 ++ dictPart14

/-- Counters of Table 10-6 by sub-index: those that the management port keeps too (R308). -/
def macNames : List (Nat × String) := [
  (0, "rx_octets"), (1, "rx_octets_good"), (2, "rx_frames_good"), (3, "rx_unicast"), (4, "rx_multicast"),
  (5, "rx_broadcast"), (6, "rx_vlan"), (7, "rx_fcs_error"), (8, "rx_undersize"), (9, "rx_fragment"),
  (10, "rx_oversize"), (11, "rx_jabber"), (12, "rx_mac_control"), (13, "rx_symbol_error"), (14, "rx_bin[0]"),
  (15, "rx_bin[1]"), (16, "rx_bin[2]"), (17, "rx_bin[3]"), (18, "rx_bin[4]"), (19, "rx_bin[5]"), (20, "rx_bin[6]"),
  (21, "rx_bin[7]"), (22, "rx_bin[8]"), (23, "rx_bin[9]"), (32, "tx_octets"), (33, "tx_frames"),
  (34, "tx_unicast"), (35, "tx_multicast"), (36, "tx_broadcast"), (37, "tx_vlan"), (38, "tx_errored"),
  (39, "tx_bin[0]"), (40, "tx_bin[1]"), (41, "tx_bin[2]"), (42, "tx_bin[3]"), (43, "tx_bin[4]"), (44, "tx_bin[5]"),
  (45, "tx_bin[6]"), (46, "tx_bin[7]"), (47, "tx_bin[8]"), (48, "tx_bin[9]")]

/-- Further counters of Table 10-6 of a port. -/
def portNames : List (Nat × String) := [
  (49, "tx_lpi_entries"), (50, "tx_lpi_us"), (51, "rx_lpi_entries"), (52, "rx_lpi_us"), (64, "fec_corrected_cw"),
  (65, "fec_uncorrected_cw"), (66, "fec_corrected_symbols"), (67, "pcs_block_errors"), (68, "link_downs")]

/-- Rows that hold one object per sub-index under a name of its own: index, prefix, and the names by sub-index
as the row's Meaning column gives them. (DESIGN CHOICE, log entry 107) -/
def memberNames : List (Nat × String × List (Nat × String)) := [
  (0x2020, "px.port[q]", macNames ++ portNames),
  (0x2080, "px.mgmt", macNames ++ [(80, "rx_filtered")]),
  (0x1405, "pw", [(0, "wakes"), (1, "wake_delayed"), (2, "dma_aborts")]),
  (0x3816, "ft.l2.group[g]", [(0, "entries"), (1, "l2_learns"), (2, "l2_moves"), (3, "l2_contested"), (4, "l2_static_violation"),
    (5, "l2_no_room"), (6, "l2_aged"), (7, "l2_learn_skipped"), (8, "entries_static")]),
  (0x3817, "ft.group[g]", [(0, "route_miss"), (1, "nh_invalid"), (2, "nh_drop"), (3, "ecmp_fault"), (4, "nh_wait_drop"),
    (5, "l2_same_port"), (6, "l2_flood_drop"), (7, "lb_no_backend")]),
  (0x4011, "flow.pipe[p]", [(0, "misses"), (1, "reserved_used"), (2, "pool_used"), (3, "ovf_fwd"), (4, "ovf_drop"), (5, "chain_full")]),
  (0x4020, "flow.slice[n]", [(0, "hits"), (1, "fetches"), (2, "found_a"), (3, "found_b"), (4, "not_found"), (5, "victim_hits"),
    (6, "evictions"), (7, "writebacks"), (8, "folds"), (9, "wb_stall"), (10, "hold_full"), (11, "pc_retired"),
    (12, "lines_lost")]),
  (0x4040, "flow.slice[n]", [(0, "setups_tpl"), (1, "setups_awl"), (2, "no_setup"), (3, "tcp_no_syn"), (4, "setup_preempted"), (5, "aged"),
    (6, "tcp_closed"), (7, "reborn"), (8, "reborn_overwritten"), (9, "tcp_out_of_window"), (10, "tcp_syn_est"),
    (11, "export_lost"), (12, "fault_lost"), (13, "fail_trap")]),
  (0x4811, "aw.class[k]", [(0, "depth"), (1, "depth_max"), (2, "enqueued"), (3, "refused"), (4, "wait_avg_ns"), (5, "wait_max_ns")]),
  (0x4820, "aw.awl[a]", [(1, "load_ppm"), (2, "items"), (3, "words"), (4, "parks"), (5, "wait_cycles")]),
  (0x4835, "aw.routine[n]", [(0, "runs"), (1, "words"), (2, "declines"), (3, "faults")]),
  (0x5010, "sc.half[h]", [(0, "free"), (1, "pending"), (2, "queued"), (3, "exhausted"), (4, "spare"), (5, "spare_bank")]),
  (0x5014, "sc.port[q]", [(0, "enqueued"), (1, "limit_drop"), (2, "shared_drop"), (3, "down_drop"), (4, "aged"), (5, "ecn_marked"),
    (6, "stomped"), (7, "fcs_drop"), (8, "cell_lost"), (9, "mc_refused"), (10, "heel_drop"), (11, "heel_lost"),
    (12, "ct_underrun")]),
  (0x5831, "tm.meter.pipe[p]", [(0, "green"), (1, "yellow"), (2, "red"), (3, "meter_drop"), (4, "remarked")]),
  (0x6011, "hm.class[c]", [(0, "requests"), (1, "promoted"), (2, "wait_avg_ns"), (3, "wait_max_ns")]),
  (0x6031, "hm.pc[n]", [(0, "corrected"), (1, "uncorrectable"), (2, "retrains"), (3, "retrain_holds"), (4, "dropped_writes")]),
  (0x6821, "hi.rx[r]", [(0, "frames"), (1, "octets"), (2, "nobuf_drop"), (3, "limit_drop"), (4, "toobig_drop"), (5, "disabled_drop"),
    (6, "waits")]),
  (0x6823, "hi.tx[r]", [(0, "frames"), (1, "octets"), (2, "intake_waits")]),
  (0x6841, "hi.pool[k]", [(0, "free"), (1, "gets"), (2, "empty"), (3, "refused")]),
  (0x7012, "tu.ptp", [(0, "two_step"), (1, "one_step"), (2, "unparsed"), (3, "ignored"), (4, "tod_invalid"), (5, "tc_corrected")]),
  (0x702C, "tu.servo", [(0, "samples"), (1, "steps"), (2, "samples_ignored")]),
  (0x7841, "ct.stream[s]", [(0, "records_sent"), (1, "records_lost"), (2, "messages_lost")]),
  (0x7850, "ct.stat", [(0, "dumps_written"), (1, "dumps_lost"), (2, "triggers_lost"), (3, "end_skipped")])]

/-- Replace what stands in the brackets of a name by numbers, in order; skip: within a bracket that was
replaced. -/
def fillName : Bool → List Nat → List Char → List Char
  | _, _, [] => []
  | true, l, c :: t => if c = ']' then c :: fillName false l t else fillName true l t
  | false, [], c :: t => c :: fillName false [] t
  | false, n :: l, c :: t =>
    if c = '[' then c :: (Nat.toDigits 10 n ++ fillName true l t) else c :: fillName false (n :: l) t

/-- The name of the object of a row at an instance and sub-index: the numbers stand in the brackets (0.7.3).
(DESIGN CHOICE, log entry 107) -/
def objName (r : ObjRow) (inst sub : Nat) : List Char :=
  match memberNames.find? fun x => x.1 == r.index && r.sub0 != r.sub1 with
  | some (_, pre, l) =>
    fillName false [inst] pre.toList ++ '.' :: ((l.find? fun x => x.1 == sub).map (·.2.toList)).getD []
  | none =>
    if 0x7880 ≤ r.index then fillName false [4096 * (r.index - 0x7880) + inst] r.name.toList
    else
      let second := if r.index = 0x3030 then sub - 16 else sub
      fillName false (if r.inst1 = 0 then [second] else [inst, second]) r.name.toList

end Sys2Proof.Machine
end

