-- ==== Sys2Proof/Machine/State.lean ====
section
/-! DEFINITION. The state of the block: every piece of state the spec gives the CRN9516, as plain
data, and the queue of the commands that wait. Each field's docstring names its width and its rule. -/
namespace Sys2Proof.Machine

/-- A running or retained Psindo session (R50 to R52). -/
structure Session where
  /-- session ID of the HELLO answer, 32 bits (Table 2-7) -/
  id : BitVec 32
  /-- access key ID the session opened under, 16 bits (Table 2-7) -/
  keyId : BitVec 16
  /-- session key SK, 32 bytes (R50) -/
  key : Bytes
  /-- Psindo major version chosen (R53) -/
  major : Nat
  /-- Psindo minor version chosen (R53) -/
  minor : Nat
  /-- highest counter accepted, 64 bits (R51) -/
  highest : BitVec 64
  /-- counters seen among the 64 below the highest (R51) -/
  seen : List Nat
  /-- the device's own message counter in the session (R51) -/
  txCounter : BitVec 64
  /-- the last 16 answers, newest first: sequence number and answer message (R51) -/
  answers : List (Nat × Bytes)
  /-- raw cycle of the last authenticated datagram while open, of the closing once retained (R52) -/
  since : Nat
  deriving DecidableEq, Repr

/-- Segments held for a requester's segmented WRITE (R43). -/
structure SegWrite where
  /-- object address, 36 bits -/
  addr : Nat
  /-- total length announced -/
  total : Nat
  /-- staged bit of the message -/
  staged : Bool
  /-- bytes held so far, from offset 0 -/
  data : Bytes
  deriving DecidableEq, Repr

/-- What the Cobbler keeps per requester: 0 the mailbox, 1 to 8 a Psindo session. -/
structure Requester where
  /-- segmented WRITE in progress (R43) -/
  segWrite : Option SegWrite
  /-- copy answering a segmented READ: object address and value (R43) -/
  segRead : Option (Nat × Bytes)
  /-- READ_IMAGE snapshot: slot and image (R45) -/
  snapshot : Option (Nat × Bytes)
  deriving DecidableEq, Repr

/-- The mailbox (Table 2-6). -/
structure Mailbox where
  /-- 4 KB request buffer, sparse bytes, unlisted 0 (R46) -/
  request : List Host.Cell
  /-- answer buffer content, from its first byte (R46) -/
  answer : Bytes
  /-- MBX_CTRL tag, 16 bits -/
  ctrlTag : BitVec 16
  /-- tag of the request submitted last (R47) -/
  goTag : BitVec 16
  /-- MBX_CTRL irq_en -/
  irqEn : Bool
  /-- MBX_STATUS tag, 16 bits -/
  statusTag : BitVec 16
  /-- MBX_STATUS done -/
  done : Bool
  /-- MBX_STATUS busy -/
  busy : Bool
  deriving DecidableEq, Repr

/-- The banked tables of one bank (R64): rules, edit programs, header templates,
new-flow templates, routine parameter sets and the stage objects. -/
structure Banked where
  /-- rule entries: key 2^20 (4g + s) + entry number; value, mask and action word, up to 272 B (Table 3-9, Table 13-6); unlisted all zeros -/
  rules : Tbl (BitVec 2176)
  /-- values of the stage objects 0x3010 to 0x3013 by address; unlisted the dictionary default (R90, R102) -/
  stage : Tbl Bytes
  /-- edit programs, 16 words of 64 bits, word 0 lowest; unlisted zeros (Table 3-10) -/
  edits : Tbl (BitVec 1024)
  /-- header templates, 72 B; unlisted zeros (Table 3-14) -/
  headers : Tbl (BitVec 576)
  /-- new-flow templates; unlisted the defaults of Table 6-1 -/
  templates : Tbl (BitVec 512)
  /-- routine parameter sets, 64 B; unlisted zeros (Table 7-6) -/
  params : Tbl (BitVec 512)
  deriving DecidableEq, Repr

/-- One pattern slot (Table 2-8). -/
structure Slot where
  /-- 0 EMPTY, 1 EDITING, 2 VALID, 3 INVALID (R55) -/
  state : Nat
  /-- pattern version, 32 bits (Table 2-9) -/
  version : BitVec 32
  /-- pattern CRC-32C, 32 bits (R56) -/
  crc : BitVec 32
  /-- format version, 16 bits (R56) -/
  format : BitVec 16
  /-- device field of the image header (Table 2-9) -/
  device : BitVec 16
  /-- length, directory and CRC of the loaded image were found consistent (check 0x0102) -/
  consistent : Bool
  /-- object values the pattern sets, by address; unlisted the dictionary default (R11) -/
  objs : Tbl Bytes
  /-- banked tables held with the slot in the pattern store or flash; the active and staged slots use the banks instead (R45) -/
  tables : Banked
  /-- signature of a signed image whose content is unchanged since its load, else empty (R45) -/
  signature : Bytes
  deriving DecidableEq, Repr

/-- A request waiting for its answer: who asked and the request message. -/
structure Asker where
  /-- 0 the mailbox, 1 to 8 a Psindo session, 9 the device itself (a PATTERN_COMMIT, the boot) -/
  who : Nat
  /-- the request message: type byte, header, body -/
  msg : Bytes
  deriving DecidableEq, Repr

/-- A commit or REVERT in progress (Table 2-11). -/
structure Commit where
  /-- REVERT in place of COMMIT (R66) -/
  revert : Bool
  /-- the boot commit (Table 16-1, step 9), or the first commit after a bad boot pattern: epoch 0 (R67) -/
  boot : Bool
  /-- PATTERN_COMMIT slot that runs it (R71) -/
  op : Option Nat
  /-- whom step 6 answers -/
  asker : Asker
  /-- T0 has passed (Table 2-11, step 3) -/
  begun : Bool
  /-- T0 was announced (R61) -/
  announced : Bool
  /-- functions of the change set (R61) -/
  fns : List Fn
  /-- active slot before T0, with its tables (Table 2-11, step 6) -/
  oldSlot : Slot
  /-- slot that becomes active (Table 2-11) -/
  newSlot : Slot
  /-- its banked tables -/
  newTables : Banked
  /-- the LIVE changes were applied (Table 2-11, step 5) -/
  liveDone : Bool
  /-- a banked table changed: the epoch advances (R64) -/
  advance : Bool
  /-- raw cycle of T0 -/
  t0 : Nat
  /-- longest measured stop so far, ns (R61) -/
  longest : Nat
  /-- raw cycle at which step 1 was accepted -/
  accepted : Nat
  deriving DecidableEq, Repr

/-- An epoch drain (R65). -/
structure Drain where
  /-- epoch whose packets drain -/
  old : Nat
  /-- raw cycle at which the drain began (T0) -/
  since : Nat
  deriving DecidableEq, Repr

/-- A long-operation slot (R68). -/
structure LongOp where
  /-- Table 2-15 type, 0 NONE to 11 FIRMWARE_STAGE -/
  kind : Nat
  /-- 0 NONE, 1 QUEUED, 2 RUNNING, 3 SUSPENDED, 4 CANCELLING, 5 DONE, 6 FAILED, 7 CANCELLED -/
  state : Nat
  /-- done units, 64 bits -/
  done : Nat
  /-- total units, 0 while unknown -/
  total : Nat
  /-- final status code, 16 bits -/
  result : Nat
  /-- device seconds at START -/
  started : Nat
  /-- 0 mailbox, 1 to 8 Psindo session -/
  requester : Nat
  /-- the operation had run before it was suspended (Table 2-13) -/
  ran : Bool
  /-- SUSPEND asked for; stops at its suspend point (R69) -/
  suspendAsked : Bool
  /-- position in START order -/
  order : Nat
  /-- position in the order of finishing, 0 while unfinished (R68) -/
  finished : Nat
  /-- parameter block of its type's chapter -/
  params : Bytes
  /-- generation named by a PATTERN_COMMIT (R71) -/
  generation : Nat
  /-- bytes that a TABLE_DUMP of flows has written, which its result carries (R198) -/
  written : Nat
  deriving DecidableEq, Repr

/-- Everything of chapter 2: the dictionary's slots, sessions, commits and long operations. -/
structure Control where
  /-- the mailbox (R46) -/
  mbx : Mailbox
  /-- open and retained Psindo sessions by requester number 1 to 8; a retained session is keyed 9 and up (R52) -/
  sessions : Tbl Session
  /-- per requester work; unlisted none -/
  requesters : Tbl Requester
  /-- last Psindo datagram sent from the management port, empty before the first (R49) -/
  datagram : Bytes
  /-- access keys in the flash key store, by k: objects 0x1020[k] by address; unlisted the dictionary default (R52) -/
  keys : Tbl Bytes
  /-- pattern slots 0 active, 1 staged, 2 previous, 3 boot (Table 2-8) -/
  active : Slot
  staged : Slot
  previous : Slot
  boot : Slot
  /-- flash holds the boot pattern's completion marker (R67) -/
  bootMarker : Bool
  /-- bytes of the boot area as flash holds them; empty when none was staged (Table 16-2) -/
  bootImage : Bytes
  /-- banked tables of bank 0 (R64) -/
  bank0 : Banked
  /-- banked tables of bank 1 (R64) -/
  bank1 : Banked
  /-- active epoch 0 to 3 (R64) -/
  epoch : Nat
  /-- staged generation, 32 bits (R58) -/
  generation : BitVec 32
  /-- image bytes LOADed so far (R58) -/
  loading : Bytes
  /-- a LOAD is in progress -/
  loadOpen : Bool
  /-- drain pending (R65) -/
  drain : Option Drain
  /-- packets of epochs 0 to 3 in the device; unlisted 0 (R65) -/
  epochCount : Tbl Nat
  /-- packets of an expired epoch that are dropped where they are met: pids (R65) -/
  expired : List Nat
  /-- functions in their stop, by a commit or by ISOLATE, with the raw cycle it began (Table 2-12, R470) -/
  stopped : List (Fn × Nat)
  /-- commit in progress (R61) -/
  commit : Option Commit
  /-- last validation code (R59) -/
  lastReject : Nat
  /-- objects written live since the last commit or revert, 32 bits (R57) -/
  liveEdits : BitVec 32
  /-- longest stop of the last commit or revert, ns (R61) -/
  lastStop : Nat
  /-- long-operation slots 0 to 15 by number; unlisted NONE (R68) -/
  ops : Tbl LongOp
  /-- STARTs so far, orders the operations -/
  opOrder : Nat
  /-- operations finished so far, orders the finished slots -/
  opFinished : Nat
  deriving DecidableEq, Repr

/-- Occurrences of an event that is raised at most once per second. -/
structure Lim where
  /-- raw cycle of the last record raised, plus 1; 0 none -/
  last : Nat
  /-- raw cycles of the occurrences in the last second -/
  occ : List Nat
  deriving DecidableEq, Repr

/-- Counters and telemetry (chapter 15). -/
structure Counters where
  /-- value of every counter and device-set gauge, by object address; queue and spare counters under their ct.counter address; unlisted 0 (R425) -/
  ctr : Tbl Nat
  /-- per-event, per-instance occurrence history of rate-limited events -/
  lims : Tbl Lim
  /-- dump number n of the next snapshot, counting lost snapshots, 32 bits (Table 15-2 seq) -/
  dumpSeq : Nat
  /-- dumps written since the ring started (slot number, ct.dump.produced) -/
  produced : BitVec 32
  /-- snapshots lost since the previous record -/
  lostSince : Nat
  /-- flag bit 2 for the next dump (R428, R429) -/
  restarted : Bool
  /-- raw cycle of the last periodic snapshot -/
  lastPeriodic : Nat
  /-- the snapshot waiting to be written and the one being written, oldest first, each a whole dump record (R432) -/
  snaps : List Bytes
  /-- port bandwidth: per port rx_last, tx_last, rx_peak, tx_peak (R435) -/
  bw : Tbl (List Nat)
  /-- octets counted in the window in progress: per port rx, tx (R435) -/
  bwNow : Tbl (List Nat)
  /-- IPFIX streams: per stream its queued data records, oldest first: template ID (2 bytes) and fields (R439) -/
  streamQ : Tbl (List Bytes)
  /-- per stream: data records of all earlier messages, modulo 2^32 (R439) -/
  streamSeq : Tbl Nat
  /-- per stream: messages written (produced) -/
  streamProduced : Tbl Nat
  /-- per stream: cumulative notSentFlowTotalCount (R441) -/
  notSent : Tbl Nat
  /-- per stream: raw cycle at which its first queued record joined, plus 1 -/
  streamFirst : Tbl Nat
  /-- per stream: raw cycle of its last template message, plus 1; unlisted not started (R439) -/
  streamTemplate : Tbl Nat
  /-- per stream: raw cycle of its last loss-statistics record (R441) -/
  streamStats : Tbl Nat
  deriving DecidableEq, Repr

/-- One ring block (Table 13-3) with the device's own book-keeping. -/
structure Ring where
  /-- RING_BASE [63:12], as the 64-bit address -/
  base : BitVec 64
  /-- RING_CFG enable -/
  enable : Bool
  /-- RING_CFG vector, 6 bits -/
  vector : BitVec 6
  /-- RING_CFG mod_us, 10 bits -/
  modUs : BitVec 10
  /-- RING_CFG mod_count, 8 bits -/
  modCount : BitVec 8
  /-- RING_CFG log2n, 5 bits -/
  log2n : BitVec 5
  /-- RING_PROD, 32 bits -/
  prod : BitVec 32
  /-- RING_CONS, 32 bits -/
  cons : BitVec 32
  /-- RING_STATUS stopped -/
  stopped : Bool
  /-- RING_STATUS error, 8 bits -/
  error : BitVec 8
  /-- RING_ERRIDX, 32 bits -/
  erridx : BitVec 32
  /-- RING_SHADOW [63:3], as the 64-bit address -/
  shadow : BitVec 64
  /-- RING_SHADOW shadow_en -/
  shadowEn : Bool
  /-- entries produced or consumed since the last MSI-X message (R377) -/
  unsignalled : Nat
  /-- raw cycle of the first entry not yet signalled, plus 1; 0 none (R377) -/
  firstUnsig : Nat
  deriving DecidableEq, Repr

/-- A frame on a receive ring's delivery queue (R385). -/
structure RxFrame where
  /-- frame bytes without FCS, truncated as its session states -/
  data : Bytes
  /-- source of Table 13-8, 1 to 6 -/
  source : Nat
  /-- ingress port -/
  port : Nat
  /-- mirror truncation applied -/
  truncated : Bool
  /-- receive timestamp: nanosecond counter with 16 fraction bits, 48 bits -/
  ts : BitVec 48
  /-- parse result (Table 3-4), 64 bits -/
  parse : BitVec 64
  /-- merged metadata, 16 bits -/
  metadata : BitVec 16
  /-- raw cycle of the first refused buffer reservation, plus 1; 0 none (R387) -/
  refused : Nat
  deriving DecidableEq, Repr

/-- A DMA descriptor in flight (R394). -/
structure DmaFlight where
  /-- descriptor index, 32 bits -/
  index : BitVec 32
  /-- notify code (Table 13-10) -/
  notify : Nat
  /-- tag, 32 bits -/
  tag : BitVec 32
  /-- the descriptor's 64 bytes as a number -/
  desc : BitVec 512
  deriving DecidableEq, Repr

/-- A pool buffer that is out (R400). -/
structure PoolBuf where
  /-- owner, a requester ID of Table 13-11 -/
  owner : Nat
  /-- named sharers, one per share (share count 0 to 15) -/
  sharers : List Nat
  deriving DecidableEq, Repr

/-- One MSI-X table entry. -/
structure Msix where
  /-- message address, 64 bits -/
  addr : BitVec 64
  /-- message data, 32 bits -/
  data : BitVec 32
  /-- vector control, bit 0 masks the vector -/
  ctrl : BitVec 32
  deriving DecidableEq, Repr

/-- The host interface (chapter 13). -/
structure HostIf where
  /-- link up: data rate code 1 to 6, 0 down (hi.pcie.rate) -/
  rate : Nat
  /-- link width in lanes (hi.pcie.width) -/
  width : Nat
  /-- the endpoint is in training or trained: PERST_N released (R447) -/
  training : Bool
  /-- BAR2_WINDOW base, as the 64-bit HBM address (Table 13-2) -/
  bar2 : BitVec 64
  /-- size of BAR2 in bytes, a power of two from 1 GB to 128 GB (R373) -/
  bar2Size : Nat
  /-- ring blocks by ring key: command ring 0, event queue e at 1 + e, receive ring r at 16 + r, transmit ring r at 80 + r, DMA channel c at 144 + c; unlisted the reset block of its kind (Table 13-4) -/
  rings : Tbl Ring
  /-- host memory as the device has written it, sparse bytes, unlisted 0 -/
  mem : List Host.Cell
  /-- MSI-X table by vector; unlisted the reset entry -/
  msix : Tbl Msix
  /-- MSI-X pending bits, 64 bits -/
  msixPending : BitVec 64
  /-- per event queue: sequence number of the next record, counting discarded ones; unlisted 0 (Table 13-7) -/
  evSeq : Tbl Nat
  /-- per event queue: records discarded since the previous record written; unlisted 0 -/
  evLost : Tbl Nat
  /-- events that wait for REFCLK: queue, code, fault, parameters, oldest first (R468) -/
  evWait : List (Nat × Nat × Bool × List Nat)
  /-- per receive ring: delivery queue, head first; unlisted empty (R385) -/
  rxq : Tbl (List RxFrame)
  /-- per transmit ring: DWRR deficit in bytes; key 64 the ring served last; unlisted 0 (R389) -/
  txDeficit : Tbl Int
  /-- per DMA channel: descriptors in flight, oldest first; unlisted none -/
  dma : Tbl (List DmaFlight)
  /-- per DMA channel: DMA_NOTE items that wait at the channel, oldest first: index and tag (R224, R395) -/
  dmaNote : Tbl (List (Nat × Nat))
  /-- answer of the last BAR2 read: data and whether it completed poisoned (R374) -/
  bar2Data : Bytes × Bool
  /-- per requester: handle of the buffer its last GET was granted, plus 1; 0 EMPTY (R400) -/
  grants : Tbl Nat
  /-- pool buffers out: key 2^28 pool + buffer number (R400) -/
  bufs : Tbl PoolBuf
  /-- per pool: last requester served; unlisted 255 (R401) -/
  poolLast : Tbl Nat
  /-- raw cycles of the POOL_REFUSED events of the last second (R402) -/
  refusedEvents : List Nat
  deriving DecidableEq, Repr

/-- The servo (Table 14-4). -/
structure Servo where
  /-- 0 FREERUN, 1 LOCKING, 2 LOCKED, 3 HOLDOVER -/
  state : Nat
  /-- f in units of 2^-8 ppb (R417) -/
  freq : Int
  /-- I in units of 2^-8 ppb (R417) -/
  integral : Int
  /-- last θ in ns -/
  lastOffset : Int
  /-- consecutive samples with |θ| below lock_ns while LOCKING -/
  good : Nat
  /-- consecutive samples with |θ| at or above lock_ns while LOCKED -/
  bad : Nat
  /-- raw cycle of the last sample -/
  lastSample : Nat
  /-- samples waiting for the end of a lasting stop of the time unit, oldest first (R422) -/
  waiting : List Int
  deriving DecidableEq, Repr

/-- The time unit (chapter 14). -/
structure TimeUnit where
  /-- nanosecond counter: 32-bit ns with 48-bit fraction (R405) -/
  counter : BitVec 80
  /-- increment per TCLK cycle in units of 2^-48 ns (R405) -/
  inc : Nat
  /-- raw cycle count, 64 bits (R405) -/
  raw : BitVec 64
  /-- millisecond counter, 32 bits (R405) -/
  ms : BitVec 32
  /-- anchor counter value C_a in ns (R407) -/
  anchorC : BitVec 32
  /-- anchor seconds S_a, 48 bits (R407) -/
  anchorS : Nat
  /-- anchor nanoseconds N_a (R407) -/
  anchorN : Nat
  /-- raw cycle at which the anchor in use was switched in (R408) -/
  anchorRaw : Nat
  /-- tu.tod.valid (R408) -/
  todValid : Bool
  /-- the anchor went stale and no fresh one has come (R408) -/
  todStale : Bool
  /-- device time stepped or its anchor was stale since the last PM second (R336, R409) -/
  stepped : Bool
  /-- a TOD set waiting for the next anchor: seconds, ns, counter value at the instant of the write (R409) -/
  todSet : Option (Nat × Nat × Nat)
  /-- tu.ms.anchor: ms, TOD seconds, TOD ns (R410) -/
  msAnchor : Nat × Nat × Nat
  /-- the servo (R417) -/
  servo : Servo
  /-- PPS_OUT pin (R419) -/
  ppsOut : Bool
  /-- raw cycle of the last rise of PPS_OUT (R419) -/
  ppsRise : Nat
  /-- tu.pps.in_ts: counter, frac, TOD seconds, TOD ns (R420) -/
  ppsTs : Nat × Nat × Nat × Nat
  /-- raw cycle of the last accepted PPS_IN edge, plus 1; 0 none (R420) -/
  ppsLast : Nat
  /-- recovered-clock outputs 0 to 3: 0 OFF, 1 ACTIVE, 2 SQUELCHED; unlisted 0 (R421) -/
  recclk : Tbl Nat
  /-- lanes with loss of signal (R421) -/
  los : List Nat
  deriving DecidableEq, Repr

/-- Start-up, nonvolatile memory, power and safety (chapter 16). -/
structure Safety where
  /-- RESET_N pin is high -/
  resetN : Bool
  /-- PWR_OK pin is high -/
  pwrOk : Bool
  /-- PCIE_PERST_N pin is high -/
  perstN : Bool
  /-- the rails are up: monitor oscillator and supply monitors run (R476) -/
  powered : Bool
  /-- REFCLK is lost (R468) -/
  refclkLost : Bool
  /-- the root PLL or TCLK is lost: no TCLK cycle passes (R23, Table 1-4) -/
  tclkLost : Bool
  /-- CCLK, MCLK, TCLK and SCLK run (Table 16-1, step 2) -/
  clocks : Bool
  /-- boot steps of Table 16-1 that have completed -/
  bootDone : List Nat
  /-- DEV_STATUS cobbler_ready -/
  cobblerReady : Bool
  /-- DEV_STATUS pattern_active -/
  patternActive : Bool
  /-- DEV_STATUS outputs_started -/
  outputsStarted : Bool
  /-- DEV_STATUS boot_pattern_bad -/
  bootPatternBad : Bool
  /-- the device is in safe stop (R471) -/
  safeStop : Bool
  /-- sf.safe_stop.cause (R471) -/
  safeCause : Nat
  /-- a LOG pulse drives FAULT_N (R469) -/
  pulse : Bool
  /-- sf.fault.pending, 16 bits (R469) -/
  faults : BitVec 16
  /-- sf.guarantee as last reported, 8 bits (R460) -/
  guarantee : BitVec 8
  /-- ENV conditions standing: kind (1 supply, 2 sensor), number, level (R465) -/
  env : List (Nat × Nat × Nat)
  /-- consecutive samples beyond a limit, by condition key; unlisted 0 (R465) -/
  envBeyond : Tbl Nat
  /-- consecutive samples within the clearing limit, by condition key; unlisted 0 (R465) -/
  envWithin : Tbl Nat
  /-- sf.temp[t] in °C; unlisted 0 -/
  temps : Tbl Int
  /-- sf.boot.state: 0 NORMAL, 1 FALLBACK, 2 RECOVERY -/
  bootState : Nat
  /-- sf.boot.slot -/
  bootSlot : Nat
  /-- sf.boot.time in ms -/
  bootTime : Nat
  /-- sf.fw.version, 32 bits -/
  fwVersion : BitVec 32
  /-- sf.fw.security_version -/
  fwSecurity : Nat
  /-- sequence of the running firmware slot -/
  fwSequence : Nat
  /-- rollback count in the fuses, 0 to 64 (R452) -/
  rollback : Nat
  /-- owner key hash in the fuses, 48 bytes; none while blank (R453) -/
  ownerHash : Option Bytes
  /-- the fused owner hash was present at this boot: sf.owner.mode reads SIGNED (R453) -/
  signedMode : Bool
  /-- revocation fuses of the four Sorroth keys (R449) -/
  revoked : BitVec 8
  /-- patch root key in the fuses, no path reads it (R451) -/
  patchKey : Bytes
  /-- firmware slots A and B of the flash, as bytes from the slot header on; empty when erased (Table 16-2) -/
  flashA : Bytes
  flashB : Bytes
  /-- owner public key of the board record (Table 16-2) -/
  ownerKey : Bytes
  /-- management objects of the board record, by object address (Table 16-2) -/
  boardMgmt : Tbl Bytes
  /-- on-chip copy of the verified firmware (R462) -/
  fwCopy : Bytes
  /-- the Cobbler is resetting after a fault (R73) -/
  cobblerReset : Bool
  /-- raw cycle at which the Cobbler reset began and its cause, 1 mismatch or 2 watchdog (R462) -/
  cobblerSince : Nat
  cobblerCause : Nat
  /-- heartbeat tokens out: function code and raw cycle of issue (R463) -/
  tokens : Tbl Nat
  /-- raw cycles of the replays of the last second, per die-to-die link (R467) -/
  replays : Tbl (List Nat)
  /-- replays in a row of the word in flight, per link; unlisted 0 (R467) -/
  replayRow : Tbl Nat
  /-- pattern content found damaged: slot and section, not yet restored (R466) -/
  damaged : List (Nat × Nat)
  /-- power domain states: 0 AWAKE, 1 WAKE_QUEUED, 2 WAKING, 3 ENTERING_SLEEP, 4 ASLEEP; unlisted 0 (R455) -/
  domains : Tbl Nat
  /-- domains in ENTERING_SLEEP: raw cycle at which each entered it (R397) -/
  sleepSince : Tbl Nat
  /-- wakes waiting, oldest first: domain, raw cycle of the request, counted as delayed (R457) -/
  wakes : List (Nat × Nat × Bool)
  /-- wakes admitted in the window or still waking: domain and raw cycle of the admission (R457) -/
  admitted : List (Nat × Nat)
  /-- bytes that a FIRMWARE_STAGE has taken so far (R72) -/
  stageBytes : Bytes
  deriving DecidableEq, Repr

/-- A request at an HBM controller (R347, R348). -/
structure HbmReq where
  /-- arrival order over all controllers -/
  order : Nat
  /-- address of its first 64-byte unit -/
  addr : Nat
  /-- bytes accessed -/
  len : Nat
  /-- a write -/
  write : Bool
  /-- request class 0 to 7 (Table 12-3) -/
  cls : Nat
  /-- raw cycle of arrival, and once it is in flight of its issue -/
  since : Nat
  /-- promoted by age (R348) -/
  promoted : Bool
  /-- times an open-row request has passed it (R348) -/
  passed : Nat
  deriving DecidableEq, Repr

/-- A pseudo-channel and its controller queue. -/
structure Pc where
  /-- 0 IN_SERVICE, 1 ERASURE, 2 RETIRED, 3 TRAINING (Table 12-10) -/
  state : Nat
  /-- erased pin pair 0 to 17; 255 none -/
  erased : Nat
  /-- retirement cause, 0 none (R357) -/
  cause : Nat
  /-- raw cycles of the corrected codewords of the last second (R354) -/
  corrected : List Nat
  /-- raw cycles of the uncorrectable reads of the last second (R357) -/
  uncorrected : List Nat
  /-- uncorrectable words of the last second whose syndrome a pin pair resolves: raw cycle and pair (R365) -/
  patterns : List (Nat × Nat)
  /-- corrected symbols per pin pair in the patrol pass under way (R365) -/
  passSymbols : Tbl Nat
  /-- requests waiting, in arrival order -/
  queue : List HbmReq
  /-- requests issued and not yet answered, in issue order -/
  flight : List HbmReq
  /-- rows left open: local offset divided by 1 KB, and raw cycle of the last access (R350) -/
  rows : List (Nat × Nat)
  /-- consecutive command-address parity retries (R357) -/
  retries : Nat
  /-- raw cycle of the last refresh per bank (R351) -/
  refreshed : Tbl Nat
  /-- the last retraining found no passing setting and the earlier one is held (R354) -/
  holding : Bool
  deriving DecidableEq, Repr

/-- The HBM subsystem (chapter 12). -/
structure Hbm where
  /-- bytes of the byte-addressed partitions, unlisted 0 (R352: training writes zero codewords) -/
  mem : List Host.Cell
  /-- addresses of poisoned codewords, 16-byte aligned, rising (R356) -/
  poison : List Nat
  /-- partition bases in force by code; unlisted the default of Table 12-1 -/
  bases : Tbl Nat
  /-- partition sizes in force in GB where they differ from the active slot's, while the partition map is in its stop -/
  sizes : Tbl Nat
  /-- partitions laid out over fewer pseudo-channels: their list; unlisted all 128 (R344) -/
  layouts : Tbl (List Nat)
  /-- pseudo-channels by number; unlisted in service, empty -/
  pcs : Tbl Pc
  /-- stack temperatures in °C; unlisted 0 -/
  temps : Tbl Int
  /-- stack states: 0 ACTIVE, 1 SELF_REFRESH, 2 TRAINING; unlisted 0 -/
  stackSt : Tbl Nat
  /-- per stack: raw cycle of the last request but for class MAINT (Table 16-4); unlisted 0 -/
  touched : Tbl Nat
  /-- requests so far, orders them -/
  orders : Nat
  /-- last read completed: request, decoded bytes, poisoned (R356) -/
  lastRead : Option (HbmReq × Bytes × Bool)
  /-- next of the 128 turns of retraining; its stack is the turn modulo 4 (R353) -/
  turn : Nat
  /-- raw cycle of the last turn of retraining (R353) -/
  turnAt : Nat
  /-- per stack: which of its 32 pseudo-channels retrains next (R353, R456); unlisted 0 -/
  stackTurn : Tbl Nat
  /-- hm.scrub.last_pass, device seconds -/
  lastPass : Nat
  deriving DecidableEq, Repr

/-- The link of a native port or of a FlexE PHY (Table 10-3). -/
structure Link where
  /-- 0 DISABLED, 1 BRINGUP, 2 UP, 3 REMOTE_FAULT, 4 FAIL_WAIT -/
  state : Nat
  /-- retry wait w in s (R295) -/
  wait : Nat
  /-- raw cycle at which the attempt began (R294) -/
  attempt : Nat
  /-- raw cycle at which the FAIL_WAIT timer started -/
  timer : Nat
  /-- raw cycle at which the link last entered UP -/
  upSince : Nat
  /-- consecutive failed attempts -/
  fails : Nat
  /-- mode in use, Table 10-2 code (px.port[q].resolved) -/
  resolved : Nat
  /-- FEC in use: 0 NONE, 1 RS(528,514), 2 RS(544,514) -/
  fec : Nat
  /-- cause of the last event 0x0101 -/
  lastDown : Nat
  /-- a local fault persists: the port sends remote fault (R296) -/
  localFault : Bool
  /-- both ends advertised EEE for the resolved mode (R304) -/
  eee : Bool
  /-- windows of the last second: raw cycle, uncorrectable codewords, corrected symbols (R299) -/
  windows : List (Nat × Nat × Nat)
  /-- transmit LPI: 0 active, 1 in LPI, 2 waking (R304) -/
  lpi : Nat
  /-- raw cycle of the LPI entry, or of the begin of the wake -/
  lpiSince : Nat
  /-- raw cycle at which the port last sent a byte -/
  lastTx : Nat
  /-- the partner is in LPI, and the raw cycle of its entry -/
  rxLpi : Bool
  rxLpiSince : Nat
  deriving DecidableEq, Repr

/-- The port complex (chapter 10). -/
structure Ports where
  /-- links: native port q at key q, FlexE PHY i at key 1024 + i; unlisted DISABLED -/
  links : Tbl Link
  /-- the management link is up (px.mgmt.state) -/
  mgmtUp : Bool
  /-- last frame that the Cobbler sent on the management port by itself, empty before the first (R303) -/
  mgmtSent : Bytes
  deriving DecidableEq, Repr

/-- An L3 header and the L4 header that follows it at the same tunnel level (R86). -/
structure Pair where
  /-- tunnel level, 0 to 3 -/
  level : Nat
  /-- offset of the L3 header, and its length -/
  l3 : Nat
  l3len : Nat
  /-- offset of the L4 header, once the parser has reached it -/
  l4 : Option Nat
  /-- the first 8 bytes of the L4 header lie within the window -/
  l4ok : Bool
  /-- 0 IPv4, 1 IPv6 -/
  fam : Nat
  /-- addresses, 128 bits, IPv4 mapped; ports as Table 3-7, before normalisation -/
  src : Nat
  dst : Nat
  sport : Nat
  dport : Nat
  /-- protocol or final next header -/
  proto : Nat
  ttl : Nat
  dscp : Nat
  ecn : Nat
  /-- byte 13 of the TCP header; none where there is no TCP header or it lies beyond the window -/
  tcpFlags : Option Nat
  /-- TCP sequence number, acknowledgement number, window, header length -/
  tcp : Nat × Nat × Nat × Nat
  /-- end of the IP packet as its length field states (R83) -/
  stop : Nat
  /-- identifier of the tunnel header that opened the level -/
  tunnelId : Nat
  /-- quoted in an ICMP error (R89) -/
  quoted : Bool
  deriving DecidableEq, Repr

/-- A checksum that the editor maintains (R98). -/
structure Csum where
  /-- offset of the 16-bit checksum field -/
  at_ : Nat
  /-- runs of bytes it covers: first byte, length -/
  spans : List (Nat × Nat)
  /-- 0 IPv4 header, TCP or ICMP; 1 UDP over IPv4; 2 UDP over IPv6 -/
  kind : Nat
  deriving DecidableEq, Repr

/-- What the Clicker's parse leaves with a packet (3.2, 3.3). -/
structure Parse where
  /-- parse result, 64 bits (Table 3-4) -/
  word : BitVec 64
  /-- pairs, in the order the parser reached them -/
  pairs : List Pair
  /-- the level-0 pair as reached, an ICMP error's own included -/
  outer : Option Pair
  /-- the pair in force for the key -/
  keyPair : Option Pair
  /-- outermost EtherType after the tags, outer VLAN ID and priority -/
  l2type : Nat
  vlan : Nat
  pcp : Nat
  /-- first Ethernet header after a tunnel, PTP header -/
  innerL2 : Option Nat
  ptp : Option Nat
  /-- checksums of the headers present (R98) -/
  csums : List Csum
  deriving DecidableEq, Repr

/-- The action that one rule stage took (R92). -/
structure StageAct where
  /-- action word, 128 bits (Table 3-9) -/
  word : BitVec 128
  /-- the entry that gave it covers flag MALFORMED with value 1 (R82) -/
  malformed : Bool
  deriving DecidableEq, Repr

/-- The answer of a home slice: the action of the packet's direction (R150). -/
structure FlowAnswer where
  /-- record index -/
  record : Nat
  nh : Nat
  edit : Nat
  mirror : Nat
  telemetry : Nat
  drop : Bool
  meter : Nat
  /-- NAT data: whether it names a NAT address table entry, the entry or address, the port -/
  nat : Option (Bool × Nat × Nat)
  deriving DecidableEq, Repr

/-- A load-balancing search in progress (R115). -/
structure LbSearch where
  /-- service -/
  service : Nat
  /-- slot to read next, reads left -/
  i : Nat
  left : Nat
  /-- backend to read next -/
  backend : Option Nat
  /-- next hop that the search chose; the fallback of a search without backend -/
  nh : Option Nat
  deriving DecidableEq, Repr

/-- A packet in the device (R236 to R238). -/
structure Packet where
  /-- pipeline of entry -/
  pipe : Nat
  /-- ingress port, or the port of a transmit descriptor -/
  port : Nat
  /-- transmit ring that injected it -/
  ring : Option Nat
  /-- frame bytes as held now, without FCS -/
  data : Bytes
  /-- frame length as received, FCS included -/
  rxLen : Nat
  /-- the FCS over all its bytes is good, as the MAC finds at its last byte (R261) -/
  fcsOk : Bool
  /-- PCS errors met (R299) -/
  symbolErr : Bool
  /-- buffer half -/
  half : Nat
  /-- cells of the frame, and cells written so far -/
  cells : Nat
  written : Nat
  /-- cells charged to its half's reserve, to the shared pool, to a port minimum (R238) -/
  resv : Nat
  shared : Nat
  min : Nat
  /-- 0 pending, 1 queued unicast, 2 stored multicast copy, 3 cells freed -/
  place : Nat
  /-- output port of a queued packet -/
  out : Nat
  /-- queue entries and engine holds that name it (R256, R257) -/
  refs : Nat
  /-- the last byte has arrived -/
  ended : Bool
  /-- errored (R261): 0 no, 1 FCS or length, 2 cell, 3 tail lost -/
  err : Nat
  /-- the source check of a static layer-2 entry drops it (R118) -/
  barred : Bool
  /-- receive timestamp: nanosecond counter with 16 fraction bits, 48 bits (R411) -/
  ts : BitVec 48
  /-- raw cycle count at step 2, low 32 bits (R253) -/
  born : BitVec 32
  /-- the station filter matched (R302) -/
  router : Bool
  /-- pinned epoch (R64) -/
  epoch : Option Nat
  /-- pass number − 1 -/
  pass : Nat
  zone : Nat
  metadata : BitVec 16
  parse : Option Parse
  /-- flow key, 384 bits (Table 3-6) -/
  key : Option (BitVec 384)
  acts : List StageAct
  /-- flow request: 0 none, 1 sent, 2 answered, 3 held, 4 stateless forward, 5 drop by overflow or fail_action, 6 answered by the existing record (R219), 7 trap by fail_action -/
  flow : Nat
  answer : Option FlowAnswer
  /-- metering: 0 not asked, 1 asked, 2 green, 3 yellow, 4 red (R280) -/
  colour : Nat
  /-- meter that was asked -/
  meter : Nat
  lb : Option LbSearch
  /-- output and edit program of a release by a routine (R219) -/
  release : Option (Nat × Nat)
  /-- next hop of a service without backend, 0 drops (Table 6-2, step 2) -/
  fall : Option Nat
  /-- host ring of a trap by fail_action -/
  failRing : Nat
  /-- place of its lookup in the order in which lookups reached the slices, 0 none (the model's own field) -/
  turn : Nat
  deriving DecidableEq, Repr

/-- An entry of an output queue (R236, R240). -/
structure QEntry where
  /-- packet -/
  pid : Nat
  /-- edit program, traffic class -/
  edit : Nat
  cls : Nat
  /-- next-hop index whose entry supplies the NH sources -/
  nh : Option Nat
  /-- ECN mark (R252), DSCP of a remark (R282), cut-through mark (R260) -/
  ecn : Bool
  dscp : Option Nat
  cut : Bool
  /-- PTP field of a DIRECT transmit descriptor (R412) -/
  ptp : Nat
  deriving DecidableEq, Repr

/-- A heel page: its HBM address and the cells it holds, by packet (R246). -/
structure HeelPage where
  addr : Nat
  parts : List (Nat × Nat)
  /-- queue descriptors in slot 0 -/
  heads : Nat
  deriving DecidableEq, Repr

/-- A unicast queue (R240, R245). -/
structure UQueue where
  /-- frames, head first -/
  list : List QEntry
  /-- state SPILL -/
  spill : Bool
  /-- the staging page -/
  staging : HeelPage
  /-- full staging pages that wait to be written, oldest first -/
  full : List HeelPage
  /-- written pages, oldest first -/
  pages : List HeelPage
  /-- pages read back whose frames have not all left -/
  back : List HeelPage
  deriving DecidableEq, Repr

/-- A multicast replication in progress (R257). -/
structure Replica where
  pid : Nat
  /-- group chosen by flooding -/
  flooded : Bool
  /-- target entries still to walk, and targets accepted so far -/
  todo : List Nat
  accepted : Nat
  /-- residue: target port, multicast class, edit program (R258) -/
  residue : List (Nat × Nat × Nat)
  /-- raw cycle at which the replication began -/
  since : Nat
  /-- the walk has ended -/
  walked : Bool
  cls : Nat
  edit : Nat
  /-- DSCP of a remark (R282) -/
  dscp : Option Nat
  deriving DecidableEq, Repr

/-- An edit program at work in an editor (3.5). -/
structure EditJob where
  pid : Nat
  /-- output port; 1,024 for the recirculation path -/
  out : Nat
  /-- selector of the queue it left (R271) -/
  sel : Nat
  /-- program number, epoch of its bank, next word -/
  prog : Nat
  epoch : Nat
  pc : Nat
  /-- the frame being edited, without FCS -/
  frame : Bytes
  /-- anchors: code and offset (Table 3-12) -/
  anchors : List (Nat × Nat)
  /-- checksums that the editor maintains, and the places of those of all headers present on receipt (R98) -/
  csums : List Csum
  orig : List Nat
  nh : Option Nat
  nat : Option (Bool × Nat × Nat)
  metadata : BitVec 16
  zone : Nat
  entropy : Nat
  ecn : Bool
  dscp : Option Nat
  /-- pushes done, bytes pushed, bytes removed (R99) -/
  pushes : Nat
  pushed : Nat
  removed : Nat
  /-- correctionField marked by TC_CORR: its offset (R415) -/
  corr : Option Nat
  ptp : Nat
  /-- END was executed -/
  done : Bool
  deriving DecidableEq, Repr

/-- A frame at an egress MAC (step 9). -/
structure TxFrame where
  pid : Nat
  /-- selector of the queue it left (R271) -/
  sel : Nat
  frame : Bytes
  corr : Option Nat
  ptp : Nat
  ring : Option Nat
  /-- receive timestamp, ingress port -/
  ts : BitVec 48
  inPort : Nat
  /-- the first byte has left -/
  started : Bool
  deriving DecidableEq, Repr

/-- A packet and its way through pipelines and switch core (chapters 1, 3 and 8). -/
structure Path where
  /-- packets in the device, by packet number -/
  pkts : Tbl Packet
  /-- number of the next packet (the model's own field) -/
  nextPid : Nat
  /-- lookups that have reached the slices (the model's own field) -/
  turns : Nat
  /-- released packets that wait for an earlier frame of their flow to retire, or for a colour, oldest first (R20, R31,
  R283) -/
  parked : List Nat
  /-- header FIFO of each pipeline, 32,768 descriptors; unlisted empty (R22) -/
  hdr : Tbl (List Nat)
  /-- retire stage of each pipeline, in header order (R18) -/
  retire : Tbl (List Nat)
  /-- edited packets that wait at each pipeline's recirculation path (R21) -/
  recirc : Tbl (List Nat)
  /-- recirculated headers that wait at each Clicker, the recirculation queue (R22) -/
  rehdr : Tbl (List Nat)
  /-- per pipeline: the Clicker served last, 0 a header of the FIFO, 1 a recirculated one (R22) -/
  hdrTurn : Tbl Nat
  /-- per pipeline: malformed packets of the last second: raw cycle and cause (R104) -/
  malformed : Tbl (List (Nat × Nat))
  /-- edit jobs of each pipeline's editor, oldest first -/
  edits : Tbl (List EditJob)
  /-- frames at each egress MAC, oldest first -/
  tx : Tbl (List TxFrame)
  /-- last frame sent on each port, FCS included; unlisted none -/
  sent : Tbl Bytes
  /-- unicast queues (R240); unlisted empty -/
  uq : Tbl UQueue
  /-- multicast queues (R240); unlisted empty -/
  mq : Tbl (List QEntry)
  /-- replication engines of the two core dies: frames in arrival order (R257) -/
  repl : Tbl (List Replica)
  /-- pseudo-channel of the next heel page (R246) -/
  heelNext : Nat
  /-- new heel writes are paused (R251) -/
  heelPaused : Bool
  /-- per half: bank under online BIST or mapped to the spare, its state 0 free, 1 BIST, 2 mapped (R263) -/
  spare : Tbl (Nat × Nat)
  /-- per half: bank that online BIST tests next (R264) -/
  bistNext : Tbl Nat
  deriving DecidableEq, Repr

/-- A waiting fetch of the resolution cache: its line and its wait list (R112). -/
structure NhFetch where
  line : Nat
  waiters : List Nat
  deriving DecidableEq, Repr

/-- A learn that waits (R118). -/
structure Learn where
  vid : Nat
  mac : Nat
  port : Nat
  pid : Nat
  deriving DecidableEq, Repr

/-- Where a table command came from: a slot of the command ring, by its index, or a TABLE_CMD message (R378, R380). -/
inductive CmdSrc where
  | ring (idx : Nat)
  | msg (asker : Asker)
  deriving DecidableEq, Repr

/-- A RESEED whose groups still rebuild (R121): who is answered, the groups left, whether one found no room. -/
structure Reseed where
  src : CmdSrc
  groups : List Nat
  failed : Bool
  deriving DecidableEq, Repr

/-- A rebuild of a group's layer-2 layout (R121). -/
structure L2Rebuild where
  seedA : Nat
  seedB : Nat
  deriving DecidableEq, Repr

/-- A mismatch that waits for its recheck (R127). -/
structure Recheck where
  target : Nat
  bank : Nat
  copy : Nat
  block : Nat
  /-- raw cycle of the first comparison -/
  since : Nat
  /-- the AUDIT_PASS that found it, its order number plus 1; 0 the periodic audit -/
  pass : Nat
  deriving DecidableEq, Repr

/-- Forwarding tables and learning (chapters 4 and 8, Table 6-3's NAT table). -/
structure Forward where
  /-- prefixes by handle, 32 B; unlisted all zeros (Table 4-6) -/
  lpm : Tbl (BitVec 256)
  /-- next hops of both tiers by index, 64 B; unlisted all zeros (Table 4-2) -/
  nh : Tbl (BitVec 512)
  /-- ECMP slots, key 256 group + slot; unlisted 0 (R114) -/
  ecmp : Tbl (BitVec 32)
  /-- load-balancing services, backends, slots (key 2^17 table + slot); unlisted 0 (Tables 4-3 to 4-5) -/
  lbService : Tbl (BitVec 64)
  lbBackend : Tbl (BitVec 256)
  lbSlot : Tbl (BitVec 32)
  /-- layer-2 entries in their buckets: key 2^20 g + 2^18 layout + 8 bucket + slot; unlisted invalid (Table 4-7) -/
  l2 : Tbl (BitVec 128)
  /-- static layer-2 entries by handle (Table 4-10) -/
  l2static : Tbl (BitVec 128)
  /-- per group: seed_a, seed_b in force; unlisted the defaults (Table 4-13) -/
  seeds : Tbl (Nat × Nat)
  /-- per group: layout in force, 0 or 1 -/
  layout : Tbl Nat
  /-- per group: rebuild in progress (R121) -/
  rebuild : Tbl L2Rebuild
  /-- RESEED commands in progress -/
  reseeds : List Reseed
  /-- per group: learns that wait, at most 4,096 (R118) -/
  learnQ : Tbl (List Learn)
  /-- per group: lines in the resolution cache, at most 32,768 (R112) -/
  lines : Tbl (List Nat)
  /-- per group: fetches outstanding, at most 4,096 (R113) -/
  fetches : Tbl (List NhFetch)
  /-- multicast groups and targets; unlisted invalid (Tables 8-3, 8-4) -/
  mcGroup : Tbl (BitVec 64)
  mcTarget : Tbl (BitVec 32)
  /-- NAT address table; unlisted 0 (R176) -/
  natab : Tbl (BitVec 128)
  /-- audit: refreshed field of each directory entry at the last period, by target + 64 bank; unlisted none (R127) -/
  refreshed : Tbl Nat
  /-- audit targets that are STALE, by target + 64 bank -/
  stale : List Nat
  /-- mismatches that wait for their recheck, oldest first -/
  rechecks : List Recheck
  /-- raw cycle of the last period's start, plus 1; 0 none (R127) -/
  auditAt : Nat
  /-- per group: raw cycle of the last scan; unlisted 0 (R119) -/
  scanned : Tbl Nat
  deriving DecidableEq, Repr

/-- The buckets of a shaper (R276), in units of 2^-24 B. -/
structure Bucket where
  c : Int
  p : Int
  /-- TCLK cycle of the last update -/
  last : Nat
  deriving DecidableEq, Repr

/-- A meter (Table 9-4), buckets in units of 2^-24 B. -/
structure Meter where
  profile : Nat
  tc : Nat
  tp : Nat
  last : Nat
  deriving DecidableEq, Repr

/-- What queue sampling keeps of a queue (Table 9-5). -/
structure QStat where
  depthMax : Nat
  sojourn : Nat
  dequeued : Nat
  deriving DecidableEq, Repr

/-- The traffic manager (chapter 9). -/
structure TM where
  /-- descriptor FIFOs of ingress pipeline p for egress pipeline e, key 16 p + e: entry and output port (R267) -/
  xbar : Tbl (List (Nat × QEntry))
  /-- multicast inputs of egress pipeline e from core die d, key 2 e + d: port, multicast class, entry (R268) -/
  xmc : Tbl (List (Nat × Nat × QEntry))
  /-- per egress pipeline: credits of its 18 inputs, key 32 e + input (R269) -/
  credit : Tbl Nat
  /-- per egress pipeline: weights in force, key 32 e + input (R269) -/
  weight : Tbl Nat
  /-- per egress pipeline: input served last -/
  xlast : Tbl Nat
  /-- shaper buckets, key 64 q + n as the shaper objects' sub-index n (R276) -/
  buckets : Tbl Bucket
  /-- DWRR deficits: key 64 q + 10 + k class group, 64 q + s queue (R273) -/
  deficit : Tbl Int
  /-- child served last: key 64 q + 63 at the port, 64 q + 10 + k in group k -/
  turn : Tbl Nat
  /-- per egress pipeline: port served last (R270) -/
  portTurn : Tbl Nat
  /-- meters; unlisted meter0 (R279) -/
  meters : Tbl Meter
  /-- the meters that no write and no packet has changed: profile 0, refreshed with the others (R281) -/
  meter0 : Meter
  /-- meter profiles; unlisted the reserved-zero word with red_action 1 (Table 9-3) -/
  profiles : Tbl (BitVec 256)
  /-- per meter bank: requests in arrival order: packet, meter, raw cycle (R283) -/
  meterQ : Tbl (List (Nat × Nat × Nat))
  /-- per queue: sampling figures, key 16 q + selector (R285) -/
  qstat : Tbl QStat
  /-- per pipeline: queue sampled last, key 16 q + selector (R285) -/
  sampleAt : Tbl Nat
  /-- per pipeline: raw cycle of its last sample (R285) -/
  sampledAt : Tbl Nat
  /-- tm.sample.produced (R286) -/
  produced : BitVec 32
  deriving DecidableEq, Repr

/-- Overhead lock of one instance of a member (Table 11-2). -/
structure OhLock where
  /-- 0 SEARCH, 1 FRAME_CONFIRM, 2 MF_SEARCH, 3 MF_CONFIRM, 4 LOCKED -/
  state : Nat
  /-- recurrences of the candidate, or OMF transitions confirmed -/
  hits : Nat
  /-- overhead frames since the noted frame of the multiframe -/
  frames : Nat
  /-- OMF of the last good frame -/
  omf : Bool
  /-- consecutive frames without start block or with a bad CRC-16 -/
  badFrames : Nat
  /-- consecutive multiframes with a wrong OMF sequence -/
  badMf : Nat
  /-- the OMF sequence of the multiframe in progress was wrong -/
  mfWrong : Bool
  deriving DecidableEq, Repr

/-- A FlexE member (i = 8 g + m). -/
structure Member where
  /-- fx.phy defects, bits 0 to 8 (Table 11-11); bits 1 to 5 and 7, 8 as set by the overhead, deskew and Seam -/
  defects : BitVec 16
  /-- consecutive good frames that matched the group number, and the PHY number and map (R321) -/
  gidOk : Nat
  pnOk : Nat
  /-- arrival of its instance-0 multiframe start, blocks of 0.64 ns; none before it locked (R323) -/
  arrival : Option Nat
  /-- delay d in blocks (R323) -/
  delay : Nat
  /-- multiframes since the last valid REPORT on the member (Table 11-5) -/
  reportAge : Nat
  /-- section error count to return as rei, and the partner's mf_seq it concerns (R331) -/
  rei : Nat × Nat
  /-- last Seam message sent on the member, empty before the first -/
  seamSent : Bytes
  deriving DecidableEq, Repr

/-- A FlexE group (chapter 11). -/
structure FxGroup where
  /-- transmit calendars A and B as advertised, client IDs by slot (R316) -/
  calA : List Nat
  calB : List Nat
  /-- transmit calendar in use: 0 A, 1 B -/
  inUse : Nat
  /-- 0 SETTLED, 1 REQUESTED -/
  calState : Nat
  /-- CR is sent; CR is cleared for one multiframe before it is set again (R316) -/
  cr : Bool
  /-- raw cycle at which CR was set -/
  crSince : Nat
  /-- multiframe boundaries before CR is cleared (2) and set (1) anew after a further commit; 0 none -/
  crHold : Nat
  /-- ca_timeout has expired (R316) -/
  expired : Bool
  /-- the partner's calendars A and B as received in CRC-good overhead: client IDs by slot; unlisted no copy (R317) -/
  rxA : Tbl Nat
  rxB : Tbl Nat
  /-- calendar that the partner's C bit names; CA is sent (R317) -/
  rxC : Nat
  ca : Bool
  /-- CA is received from the partner (R316) -/
  caIn : Bool
  /-- deskew region: base in the deskew partition and bytes (R325) -/
  region : Nat × Nat
  /-- Seam: 0 OFF, 1 NEGOTIATE, 2 ACTIVE, 3 SILENT (Table 11-5) -/
  seam : Nat
  /-- negotiated version v, own nonce, partner nonce recorded (R328, R329) -/
  version : Nat
  nonce : BitVec 32
  peer : Option (BitVec 32)
  /-- multiframes in NEGOTIATE without a HELLO -/
  helloAge : Nat
  /-- raw cycle at which SILENT began or the last HELLO was sent there -/
  silentSince : Nat
  /-- the group's multiframe counter, 16 bits -/
  mfSeq : BitVec 16
  deriving DecidableEq, Repr

/-- A client's receive path (R331 to R333). -/
structure FxClient where
  /-- prdi received; path defects PSD, PSF -/
  prdi : Bool
  psd : Bool
  psf : Bool
  /-- path error count to return as rei, and the partner's mf_seq it concerns -/
  rei : Nat × Nat
  deriving DecidableEq, Repr

/-- What performance monitoring keeps of an entity (11.7); its bins stand under their objects 0x2830. -/
structure PmEntity where
  /-- it is monitored since a second before -/
  on : Bool
  /-- BIP bits in error and errored blocks in the second in progress, near and far end -/
  bip : Nat × Nat
  blocks : Nat × Nat
  /-- a near-end defect, a far-end defect, LOF or LOM stood in the second -/
  defect : Bool × Bool × Bool
  /-- in unavailability, near and far end -/
  unavail : Bool × Bool
  /-- consecutive seconds at level SD or above, below SD, below SF (R332) -/
  sd : Nat
  belowSd : Nat
  belowSf : Nat
  /-- seconds whose availability is not yet decided, oldest first, near and far end: second, ES, SES, BBE (R335) -/
  held : List (Nat × Nat × Nat × Nat) × List (Nat × Nat × Nat × Nat)
  /-- the current bins of 15 min and 24 h are suspect; some second lacked Seam (R335, R336) -/
  suspect : Bool × Bool
  noSeam : Bool × Bool
  /-- a bin of 15 min, of 24 h has ended and is not yet closed (R336) -/
  ending : Bool × Bool
  /-- closed 15-minute bins (R337) -/
  closed : Nat
  /-- counters whose threshold was reported in the current bins: k, and 16 + k for 24 h (R338) -/
  told : List Nat
  deriving DecidableEq, Repr

/-- The FlexE shim (chapter 11). -/
structure FlexE where
  /-- overhead lock by instance, key 8 i + n; unlisted SEARCH -/
  locks : Tbl OhLock
  /-- members; unlisted as at reset -/
  members : Tbl Member
  /-- groups; unlisted as at reset -/
  groups : Tbl FxGroup
  /-- clients by port; unlisted without defect -/
  clients : Tbl FxClient
  /-- device second that performance monitoring last ended -/
  pmLast : Nat
  /-- entities monitored, i for a member, 512 + q for a client -/
  pm : Tbl PmEntity
  /-- client states last reported, by port: defects and up (R333, R334) -/
  told : Tbl (Nat × Bool)
  deriving DecidableEq, Repr

/-- A version 2 flow record (5.2.1). -/
structure FlowRec where
  /-- bytes 0 to 47: the flow key (Table 3-6) -/
  key : BitVec 384
  /-- bytes 48 to 63: the state word (Table 5-2) -/
  st : BitVec 128
  /-- bytes 64 to 95: the counters word (Table 5-3) -/
  cnt : BitVec 256
  /-- bytes 96 to 127: the action word (Table 5-4) -/
  act : BitVec 256
  deriving DecidableEq, Repr

/-- A hot line (Table 5-6, R144, R147). -/
structure Line where
  /-- fingerprint F, 96 bits; in the verified form the model keeps it beside the key -/
  fp : BitVec 96
  /-- verified form: two units, matched by key (R147) -/
  wide : Bool
  /-- full key, held in the verified form only; else 0 -/
  key : BitVec 384
  /-- record index, 29 bits -/
  record : Nat
  /-- kind 1: a link line -/
  link : Bool
  dirty : Bool
  /-- the record key's swapped bit -/
  orient : Bool
  /-- state fields, laid out as the record's state word -/
  st : BitVec 128
  /-- action fields, laid out as the record's action word, nat_addr 0 -/
  act : BitVec 256
  telemetry : Nat
  mirror : Nat
  /-- deltas since the last writeback: forward packets and bytes, reverse packets and bytes -/
  dpf : Nat
  dbf : Nat
  dpr : Nat
  dbr : Nat
  /-- last_seen, 32 bits -/
  last : Nat
  /-- link line: unit of the primary line, original address and port -/
  home : Nat
  oAddr : Nat
  oPort : Nat
  /-- order of last use (LRU, R157) -/
  used : Nat
  deriving DecidableEq, Repr

/-- A line in a writeback buffer (R158). -/
structure WbEntry where
  line : Line
  /-- a fold entry: its line stays in the cache (R159) -/
  fold : Bool
  deriving DecidableEq, Repr

/-- A hardware setup or a routine's commit between its writes and its release (Table 6-2). -/
structure Setup where
  /-- record index drawn -/
  record : Nat
  image : FlowRec
  /-- reverse key of a translated flow -/
  rkey : Option (BitVec 384)
  /-- steps 4 and 5 lie between: the writes are issued -/
  written : Bool
  deriving DecidableEq, Repr

/-- A hold-table entry (Table 5-8). -/
structure Hold where
  /-- key, swapped taken as 0 -/
  key : BitVec 384
  /-- 1 FETCH_WAIT, 2 FETCHING, 3 SETUP, 4 RETIRING, 5 an exception (R219) -/
  state : Nat
  /-- pipeline and template of the first packet, and its epoch -/
  pipe : Nat
  template : Nat
  epoch : Nat
  /-- packets, in chain order -/
  chain : List Nat
  /-- raw cycle at which the entry entered SETUP -/
  since : Nat
  /-- buckets still to read: 2^40 layout + bucket; the first is being read -/
  buckets : List Nat
  /-- the bucket being searched is bucket B (for found_a, found_b) -/
  inB : Bool
  /-- records that match the signature in the bucket, lowest slot first: 2 record + dir; the first is being read -/
  cands : List Nat
  setup : Option Setup
  /-- the entry of the other key of a translated flow -/
  other : Option Nat
  /-- the entry stands for a reverse key -/
  reverse : Bool
  /-- exception: record -/
  record : Nat
  /-- the read of the first candidate's record waits for a writeback of that record (R158) -/
  readWaits : Bool
  deriving DecidableEq, Repr

/-- REHASH under way (6.6). -/
structure Rehash where
  /-- operation slot -/
  op : Nat
  /-- new seeds 1 to 5, buckets of the new index, base of its region -/
  seeds : List Nat
  nb : Nat
  region : Nat
  /-- its pseudo-channels, empty for all 128 (R344) -/
  lay : List Nat
  /-- next old bucket to copy -/
  next : Nat
  /-- 0 copying, 1 waiting for the stop of the flow engine, 2 changeover -/
  phase : Nat
  /-- raw cycle of the switch -/
  since : Nat
  /-- seeds before the switch -/
  oldSeeds : List Nat
  /-- records entered into the new layout alone -/
  newOnly : List Nat
  deriving DecidableEq, Repr

/-- RESIZE_PARTITION under way (R193, R346). -/
structure Resize where
  op : Nat
  /-- partition -/
  part : Nat
  /-- new size in GB, new base -/
  size : Nat
  base : Nat
  /-- pseudo-channels of the new layout, empty for all 128 (R344) -/
  lay : List Nat
  /-- units of work done -/
  next : Nat
  deriving DecidableEq, Repr

/-- The flow engine (chapters 5 and 6). -/
structure Flow where
  /-- records by index; unlisted free (R135) -/
  records : Tbl FlowRec
  /-- index slots, key 8 bucket + slot; unlisted invalid (Table 5-5) -/
  index : Tbl (BitVec 64)
  /-- index slots of the layout that REHASH builds -/
  index2 : Tbl (BitVec 64)
  /-- hot lines, key 131,072 slice + 8 set + way (R140); unlisted invalid -/
  lines : Tbl Line
  /-- order of the last line use -/
  lru : Nat
  /-- writeback buffers by slice, oldest first, at most 1,024 (R158) -/
  wb : Tbl (List WbEntry)
  /-- hold entries, key 65,536 slice + number (R151) -/
  holds : Tbl Hold
  /-- miss queues by pipeline: hold entries (R163) -/
  missQ : Tbl (List Nat)
  /-- lookups that wait at each slice: packets in arrival order (R149) -/
  reqs : Tbl (List Nat)
  /-- AGE_DECIDE requests that wait at each slice: the record, and the lookups that had reached the slices (R149, R182) -/
  ageQ : Tbl (List (Nat × Nat))
  /-- reserved buckets by pipeline, and the pool bucket, in 1/800 tokens (R163) -/
  tokens : Tbl Nat
  pool : Nat
  /-- raw cycle of the last fill -/
  filled : Nat
  /-- pipeline that last drew a pool token -/
  poolTurn : Nat
  /-- freed records by chain, the chain's head first (R172) -/
  chains : Tbl (List Nat)
  /-- per chain: records of its first threading that have been taken -/
  taken : Tbl Nat
  /-- per slice: drawn indexes (R172) -/
  drawn : Tbl (List Nat)
  /-- records in force: nr; 0 before the partitions are prepared -/
  nr : Nat
  /-- raw cycle of the last event 0x050D, plus 1 -/
  lowTold : Nat
  /-- reborn tables by slice: fingerprint and millisecond, oldest first (R185) -/
  reborn : Tbl (List (BitVec 96 × Nat))
  rehash : Option Rehash
  resize : Option Resize
  /-- next record of a walk, by operation slot (R198, R199); bytes it wrote -/
  walks : Tbl (Nat × Nat)
  /-- periodic export: quotient at the scanner's last visit, by record (R437) -/
  visits : Tbl Nat
  /-- nominations of the scanner that wait for TIMER_TICK (R437) -/
  nominated : List Nat
  /-- per slice: spare bank state 0 free, 1 BIST, 2 mapped, and the bank (R141) -/
  spare : Tbl (Nat × Nat)
  /-- raw cycle at which a conversion of the cache form began, plus 1; 0 settled (R148) -/
  converting : Nat
  /-- per slice: raw cycle at which it last served a request (Table 16-4); unlisted 0 -/
  served : Tbl Nat
  /-- per slice: raw cycle of its last periodic fold (R160); unlisted 0 -/
  folded : Tbl Nat
  /-- per slice: lines whose periodic fold waits for an entry of the writeback buffer (R158) -/
  foldWait : Tbl (List Nat)
  /-- surrender requests that wait at an old home slice: key, requesting hold entry (R191) -/
  surrender : List (BitVec 384 × Nat)
  deriving DecidableEq, Repr

/-- A task item (Table 7-7). -/
structure Item where
  routine : Nat
  param : Nat
  cls : Nat
  /-- 0 NONE, 1 KEY, 2 SRC, 3 SERVICE, 4 RECORD, 5 RING -/
  basis : Nat
  /-- 0 NONE, 1 ORDERED, 2 EXCLUSIVE -/
  mode : Nat
  epoch : Nat
  slice : Nat
  source : Nat
  domain : Nat
  dseq : Nat
  record : Nat
  desc : Nat
  /-- TCLK nanoseconds at creation -/
  created : Nat
  dispatches : Nat
  /-- source-specific data, 68 bits -/
  data : Nat
  /-- bytes that the source hands over with the item: end notice, version 1 record, tag of a descriptor -/
  bytes : Bytes
  /-- awl that a re-dispatch avoids, plus 1; 0 none (R231) -/
  avoid : Nat
  /-- raw cycle at which it entered its class, by which its wait is measured (R406) -/
  since : Nat
  deriving DecidableEq, Repr

/-- A memory operation issued by an awl: outstanding under a tag, or staged (R208, R213). -/
structure MemOp where
  /-- memory operation (Table 7-4); 16 is the servo offset that PTP_OFFSET hands over -/
  mop : Nat
  args : MemArgs
  /-- data register that takes the result -/
  reg : Nat
  /-- awl that issued it -/
  awl : Nat
  /-- bytes of the local slot that the operation takes with it -/
  data : Bytes
  deriving DecidableEq, Repr

/-- A routine's context in a local slot (Table 7-1). -/
structure Ctx where
  /-- number of the context (the model's own field) -/
  id : Nat
  item : Item
  /-- the slot's 4 KB, sparse bytes: the regions of Table 7-1 in table order from byte 0 -/
  mem : List Host.Cell
  /-- prefetch is complete (R227) -/
  ready : Bool
  /-- the routine has begun: its registers and scratch are its own -/
  begun : Bool
  /-- next word: patch RAM or ROM, address -/
  patch : Bool
  pc : Nat
  /-- return stack, top first -/
  stack : List (Bool × Nat)
  /-- alu0 flags that cond tests, 8 bits -/
  flags : BitVec 8
  /-- the memory operation of the current word has been issued -/
  issued : Bool
  /-- writes of the slot that land after the current word: offset and bytes -/
  late : List (Nat × Bytes)
  /-- the last word executed had yp set (R214) -/
  atYield : Bool
  /-- tags outstanding with their operations, and tags complete but not yet observed (R208) -/
  busy : Tbl MemOp
  done : List Nat
  staged : List MemOp
  /-- buffers that POOL_GET gave the item: the awl that asked and the buffer's address -/
  grants : List (Nat × Nat)
  /-- mask of the PARK it waits on -/
  mask : BitVec 16
  deriving DecidableEq, Repr

/-- A logical awl (R205, R206). -/
structure Awl where
  l0 : Option Ctx
  l1 : Option Ctx
  /-- slot that runs: 0 or 1 -/
  run : Nat
  retired : Bool
  /-- stopped at END or a yield point by lasting (R232) -/
  quiet : Bool
  /-- raw cycle at which it last ran a word -/
  lastRun : Nat
  deriving DecidableEq, Repr

/-- A commit set at the Closer (R229). -/
structure CommitSet where
  item : Item
  staged : List MemOp
  deriving DecidableEq, Repr

/-- A domain-table entry (R225). -/
structure Domain where
  issue : Nat
  release : Nat
  /-- items dispatched or parked -/
  out : Nat
  /-- awl that last ran one of its items, plus 1; 0 none -/
  lastAwl : Nat
  /-- sequences released out of order, above the next to release (R230) -/
  gone : List Nat
  deriving DecidableEq, Repr

/-- A table command, from either path (R380). -/
structure TblCmd where
  op : Nat
  table : Nat
  groups : Nat
  count : Nat
  index : Nat
  staged : Bool
  payload : Bytes
  /-- bytes that a READ may answer -/
  limit : Nat
  deriving DecidableEq, Repr

/-- How a table command ended: status, detail, entries applied, result, READ results or record indexes. -/
structure HostEnd where
  status : Nat
  detail : Nat
  done : Nat
  result : Nat
  reply : Bytes
  deriving DecidableEq, Repr

/-- A command of table codes 0x10 and 0x11 that HOST_FLOW has, or that waits for its completion's turn (R220, R379). -/
structure HostCmd where
  /-- source data of its item: ring and slot (Table 7-7) -/
  tag : Nat
  src : CmdSrc
  cmd : TblCmd
  /-- of a slot: the reply lies in the HBM host window, its address, and the failure of its writes that is given
  (Table 13-5) -/
  replyHbm : Bool
  replyAt : Nat
  replyLimit : Nat
  fail : Nat
  /-- how it ended, once it has -/
  ended : Option HostEnd
  deriving DecidableEq, Repr

/-- A block of ports of a NAT pool that a subscriber holds (R218). -/
structure NatBlock where
  /-- entry of the NAT address table, first port, ports -/
  natIndex : Nat
  first : Nat
  size : Nat
  /-- block_hold in s, and raw cycle of its last setup -/
  hold : Nat
  last : Nat
  /-- log stream of its pool, where it logs blocks -/
  log : Option Nat
  deriving DecidableEq, Repr

/-- The awl cluster and task scheduler (chapter 7). -/
structure Cluster where
  /-- awls; unlisted idle and empty -/
  awls : Tbl Awl
  /-- number of the next context (the model's own field) -/
  nextCtx : Nat
  /-- new items by ready class, in creation order (R223) -/
  ready : Tbl (List Item)
  /-- resumed, displaced and re-dispatched work at the head of each class: its context where it has one (R223) -/
  front : Tbl (List (Item × Option Ctx))
  /-- context store, at most 4,096 (R215) -/
  parked : List Ctx
  /-- commit sets at the Closer, in arrival order, at most 4,096 (R230) -/
  closer : List CommitSet
  /-- domain tables, key 65,536 basis + entry (R225) -/
  domains : Tbl Domain
  /-- DWRR credit of the weighted classes; dispatches since the last weighted one (R223) -/
  credit : Tbl Nat
  strictRun : Nat
  /-- patch RAM, 2,048 microwords of 192 bits; match registers (R209) -/
  patchRam : Tbl (BitVec 192)
  matchReg : Tbl (BitVec 32)
  /-- aw.patch.state, aw.patch.level (R211) -/
  patchState : Nat
  patchLevel : BitVec 32
  /-- interface versions that the patch changes, by routine (R210) -/
  versions : Tbl Nat
  /-- observables: window in progress, its accumulators and those of the last window, by object address (Table 7-10) -/
  obsWin : Nat
  obsNow : Tbl Nat
  obsLast : Tbl Nat
  /-- timers with an item waiting (R224) -/
  timers : List Nat
  /-- commands of table codes 0x10 and 0x11 in flight, oldest first (R220, R379) -/
  hostCmds : List HostCmd
  /-- number of the next command of the message path (the model's own field) -/
  hostNext : Nat
  /-- subscriber entries by forward source address: its blocks, newest first (R218) -/
  subs : Tbl (List NatBlock)
  /-- endpoint-independent mappings, key 65,536 × source address + source port: NAT address table entry, port (R218) -/
  eim : Tbl (Nat × Nat)
  deriving DecidableEq, Repr

/-- Why a step stops with a fault. -/
inductive Fault where
  /-- An HBM access at or beyond 128 GB, where no address exists (R342, Table 0-2). Raised by
  BAR2_READ and BAR2_WRITE when BAR2_WINDOW points past the end of HBM. Safe: the run stops. -/
  | noSuchHbmAddress (addr : Nat)
  deriving DecidableEq, Repr

/-- Why a step is refused. -/
inductive Refusal where
  /-- The model gives the command no meaning yet. Raised by exec's arms only. Safe: the run stops. -/
  | notModelled (mnemonic : String)
  deriving DecidableEq, Repr

/-- The whole state of the block. -/
structure State where
  /-- commands that wait, first in first out (the model's own field) -/
  pending : List Instr
  /-- free values drawn so far (the model's own field): Config.freeValue is applied to it -/
  free : Nat
  /-- chapter 2: mailbox, sessions, patterns, commits, long operations -/
  ctl : Control
  /-- chapter 15: counters and telemetry -/
  cnt : Counters
  /-- chapter 13: host interface -/
  host : HostIf
  /-- chapter 14: time unit -/
  time : TimeUnit
  /-- chapter 16: start-up, nonvolatile memory, power and safety -/
  safe : Safety
  /-- chapter 10: lanes, ports and MACs -/
  ports : Ports
  /-- chapter 12: HBM -/
  hbm : Hbm
  /-- chapters 1, 3, 8: packets, pipelines, switch core -/
  path : Path
  /-- chapters 4, 8: forwarding tables -/
  fwd : Forward
  /-- chapter 9: traffic manager -/
  tm : TM
  /-- chapter 11: FlexE and Seam -/
  fx : FlexE
  /-- chapters 5, 6: flow engine -/
  flow : Flow
  /-- chapter 7: awl cluster and scheduler -/
  aw : Cluster
  deriving DecidableEq, Repr

/-- No banked table entry. -/
def emptyBank : Banked :=
  { rules := [], stage := [], edits := [], headers := [], templates := [], params := [] }

/-- An EMPTY slot. -/
def emptySlot : Slot :=
  { state := 0, version := 0, crc := 0, format := 0, device := 0, consistent := false, objs := [],
    tables := emptyBank, signature := [] }

/-- At reset, Table 2-6. -/
def Mailbox.reset : Mailbox where
  request := []
  answer := []
  ctrlTag := 0
  goTag := 0
  irqEn := false
  statusTag := 0
  done := false
  busy := false

/-- At reset, Table 14-4. -/
def Servo.reset : Servo where
  state := 0
  freq := 0
  integral := 0
  lastOffset := 0
  good := 0
  bad := 0
  lastSample := 0
  waiting := []

/-- At reset, chapter 2: every slot EMPTY, no session, no operation. (DESIGN CHOICE, log entry 2) -/
def Control.reset : Control where
  mbx := Mailbox.reset
  sessions := []
  requesters := []
  datagram := []
  keys := []
  active := emptySlot
  staged := emptySlot
  previous := emptySlot
  boot := emptySlot
  bootMarker := false
  bootImage := []
  bank0 := emptyBank
  bank1 := emptyBank
  epoch := 0
  generation := 0
  loading := []
  loadOpen := false
  drain := none
  epochCount := []
  expired := []
  stopped := []
  commit := none
  lastReject := 0
  liveEdits := 0
  lastStop := 0
  ops := []
  opOrder := 0
  opFinished := 0

/-- At reset, chapter 15: every counter 0. -/
def Counters.reset : Counters where
  ctr := []
  lims := []
  dumpSeq := 0
  produced := 0
  lostSince := 0
  restarted := false
  lastPeriodic := 0
  snaps := []
  bw := []
  bwNow := []
  streamQ := []
  streamSeq := []
  streamProduced := []
  notSent := []
  streamFirst := []
  streamTemplate := []
  streamStats := []

/-- At reset, chapter 13: the link down, every register at its default. -/
def HostIf.reset : HostIf where
  rate := 0
  width := 0
  training := false
  bar2 := 0
  bar2Size := 2 ^ 30
  rings := []
  mem := []
  msix := []
  msixPending := 0
  evSeq := []
  evLost := []
  evWait := []
  rxq := []
  txDeficit := []
  dma := []
  dmaNote := []
  bar2Data := ([], false)
  grants := []
  bufs := []
  poolLast := []
  refusedEvents := []

/-- At reset, chapter 14: the counters at 0, the nominal increment, FREERUN. -/
def TimeUnit.reset : TimeUnit where
  counter := 0
  inc := 0x0001400000000000
  raw := 0
  ms := 0
  anchorC := 0
  anchorS := 0
  anchorN := 0
  anchorRaw := 0
  todValid := false
  todStale := false
  stepped := false
  todSet := none
  msAnchor := (0, 0, 0)
  servo := Servo.reset
  ppsOut := false
  ppsRise := 0
  ppsTs := (0, 0, 0, 0)
  ppsLast := 0
  recclk := []
  los := []

/-- At reset, chapter 16: the rails are up and PWR_OK is high, RESET_N is low (R445); flash and fuses are blank
(DESIGN CHOICE, log entry 2) -/
def Safety.reset : Safety where
  resetN := false
  pwrOk := true
  perstN := false
  powered := true
  refclkLost := false
  tclkLost := false
  clocks := false
  bootDone := []
  cobblerReady := false
  patternActive := false
  outputsStarted := false
  bootPatternBad := false
  safeStop := false
  safeCause := 0
  pulse := false
  faults := 0
  guarantee := 0
  env := []
  envBeyond := []
  envWithin := []
  temps := []
  bootState := 0
  bootSlot := 0
  bootTime := 0
  fwVersion := 0
  fwSecurity := 0
  fwSequence := 0
  rollback := 0
  ownerHash := none
  signedMode := false
  revoked := 0
  patchKey := List.replicate 32 0
  flashA := []
  flashB := []
  ownerKey := []
  boardMgmt := []
  fwCopy := []
  cobblerReset := false
  cobblerSince := 0
  cobblerCause := 0
  tokens := []
  replays := []
  replayRow := []
  damaged := []
  domains := []
  sleepSince := []
  wakes := []
  admitted := []
  stageBytes := []

/-- At reset, chapter 10: every link DISABLED. -/
def Ports.reset : Ports where
  links := []
  mgmtUp := false
  mgmtSent := []

/-- At reset, chapter 12. -/
def Hbm.reset : Hbm where
  mem := []
  poison := []
  bases := []
  sizes := []
  layouts := []
  pcs := []
  temps := []
  stackSt := []
  touched := []
  orders := 0
  lastRead := none
  turn := 0
  turnAt := 0
  stackTurn := []
  lastPass := 0

/-- At reset, chapters 1, 3 and 8: no packet. -/
def Path.reset : Path where
  pkts := []
  nextPid := 0
  turns := 0
  parked := []
  hdr := []
  retire := []
  recirc := []
  rehdr := []
  hdrTurn := []
  malformed := []
  edits := []
  tx := []
  sent := []
  uq := []
  mq := []
  repl := []
  heelNext := 0
  heelPaused := false
  spare := []
  bistNext := []

/-- At reset, chapters 4 and 8: no entry. -/
def Forward.reset : Forward where
  lpm := []
  nh := []
  ecmp := []
  lbService := []
  lbBackend := []
  lbSlot := []
  l2 := []
  l2static := []
  seeds := []
  layout := []
  rebuild := []
  reseeds := []
  learnQ := []
  lines := []
  fetches := []
  mcGroup := []
  mcTarget := []
  natab := []
  refreshed := []
  stale := []
  rechecks := []
  auditAt := 0
  scanned := []

/-- At reset, chapter 9: no entry. -/
def TM.reset : TM where
  xbar := []
  xmc := []
  credit := []
  weight := []
  xlast := []
  buckets := []
  deficit := []
  turn := []
  portTurn := []
  meters := []
  meter0 := { profile := 0, tc := 0, tp := 0, last := 0 }
  profiles := []
  meterQ := []
  qstat := []
  sampleAt := []
  sampledAt := []
  produced := 0

/-- At reset, chapter 11. -/
def FlexE.reset : FlexE where
  locks := []
  members := []
  groups := []
  clients := []
  pmLast := 0
  pm := []
  told := []

/-- At reset, chapters 5 and 6: no record. -/
def Flow.reset : Flow where
  records := []
  index := []
  index2 := []
  lines := []
  lru := 0
  wb := []
  holds := []
  missQ := []
  reqs := []
  ageQ := []
  tokens := []
  pool := 0
  filled := 0
  poolTurn := 0
  chains := []
  taken := []
  drawn := []
  nr := 0
  lowTold := 0
  reborn := []
  rehash := none
  resize := none
  walks := []
  visits := []
  nominated := []
  spare := []
  converting := 0
  served := []
  folded := []
  foldWait := []
  surrender := []

/-- At reset, chapter 7: no item. -/
def Cluster.reset : Cluster where
  awls := []
  nextCtx := 0
  ready := []
  front := []
  parked := []
  closer := []
  domains := []
  credit := []
  strictRun := 0
  patchRam := []
  matchReg := []
  patchState := 0
  patchLevel := 0
  versions := []
  obsWin := 0
  obsNow := []
  obsLast := []
  timers := []
  hostCmds := []
  hostNext := 0
  subs := []
  eim := []

/-- The machine right after reset: RESET_N is low, the outputs are idle (R445), and nothing is queued.
(DESIGN CHOICE, log entry 2) -/
def State.reset : State where
  pending := []
  free := 0
  ctl := Control.reset
  cnt := Counters.reset
  host := HostIf.reset
  time := TimeUnit.reset
  safe := Safety.reset
  ports := Ports.reset
  hbm := Hbm.reset
  path := Path.reset
  fwd := Forward.reset
  tm := TM.reset
  fx := FlexE.reset
  flow := Flow.reset
  aw := Cluster.reset

end Sys2Proof.Machine
end

