-- ==== Sys2Proof/Machine/Ops.lean ====
section
/-! DEFINITION. The named operations shared by the meanings: sparse tables and memories, bytes and
bit fields, check codes, the dictionary's values, counters, time of day, rings, events, faults. -/
namespace Sys2Proof.Machine

/-! ### Sparse tables -/

/-- The row of a key. -/
def tfind {α : Type} : Tbl α → Nat → Option α
  | [], _ => none
  | (k, v) :: t, n => if k = n then some v else tfind t n

/-- The row of a key, or what an unlisted key reads as. (DESIGN CHOICE, log entry 6) -/
def tget {α : Type} (d : α) (t : Tbl α) (n : Nat) : α := (tfind t n).getD d

/-- Insert or replace a row, keeping the keys rising. -/
def tput {α : Type} : Tbl α → Nat → α → Tbl α
  | [], n, x => [(n, x)]
  | (k, v) :: t, n, x =>
    if n < k then (n, x) :: (k, v) :: t
    else if n = k then (k, x) :: t
    else (k, v) :: tput t n x

/-- Remove a row. -/
def tdel {α : Type} : Tbl α → Nat → Tbl α
  | [], _ => []
  | (k, v) :: t, n => if k = n then t else (k, v) :: tdel t n

/-- Set a key to a value; the value an unlisted key reads as removes the row. (DESIGN CHOICE, log entry 6) -/
def tset {α : Type} [DecidableEq α] (d : α) (t : Tbl α) (n : Nat) (x : α) : Tbl α :=
  if x = d then tdel t n else tput t n x

/-- Keys strictly rising, all above a bound. -/
def tsortedFrom {α : Type} : Nat → Tbl α → Bool
  | _, [] => true
  | b, (k, _) :: t => decide (b ≤ k) && tsortedFrom (k + 1) t

/-- The canonical form of a table: keys strictly rising. -/
def tsorted {α : Type} (t : Tbl α) : Bool := tsortedFrom 0 t

/-- The canonical form of a table with a default: keys strictly rising, no row equal to it.
(DESIGN CHOICE, log entry 6) -/
def tcanon {α : Type} [DecidableEq α] (d : α) (t : Tbl α) : Bool :=
  tsorted t && t.all (fun r => decide (r.2 ≠ d))

/-! ### Byte memories: sparse, an unlisted address reads 0 -/

/-- The canonical form of a byte memory. -/
def Memory.wf (m : List Host.Cell) : Bool := tcanon (0 : Byte) m

/-- One byte. -/
def readByte (m : List Host.Cell) (a : Nat) : Byte := tget 0 m a

/-- Store one byte. -/
def writeByte (m : List Host.Cell) (a : Nat) (b : Byte) : List Host.Cell := tset 0 m a b

/-- The n bytes from an address. -/
def readBytes (m : List Host.Cell) : Nat → Nat → Bytes
  | _, 0 => []
  | a, n + 1 => readByte m a :: readBytes m (a + 1) n

/-- Store bytes from an address on, in ascending order. -/
def writeBytes (m : List Host.Cell) (a : Nat) : Bytes → List Host.Cell
  | [] => m
  | b :: bs => writeBytes (writeByte m a b) (a + 1) bs

/-! ### Bytes, numbers and fields -/

/-- The low n bytes of a number, least significant first (R9). -/
def leBytes : Nat → Nat → Bytes
  | 0, _ => []
  | n + 1, v => BitVec.ofNat 8 v :: leBytes n (v / 256)

/-- The number that little-endian bytes hold. -/
def leNat : Bytes → Nat
  | [] => 0
  | b :: bs => b.toNat + 256 * leNat bs

/-- The number that big-endian (network order) bytes hold. -/
def beNat (bs : Bytes) : Nat := bs.foldl (fun a b => a * 256 + b.toNat) 0

/-- The low n bytes of a number, most significant first. -/
def beBytes (n v : Nat) : Bytes := (leBytes n v).reverse

/-- Field [hi:lo] of a number. -/
def fld (v hi lo : Nat) : Nat := (v >>> lo) % 2 ^ (hi + 1 - lo)

/-- Field [hi:lo] of a word (0.7.2). -/
def bf {w : Nat} (v : BitVec w) (hi lo : Nat) : Nat := fld v.toNat hi lo

/-- Replace field [hi:lo] of a number. -/
def putFld (v hi lo x : Nat) : Nat :=
  (v >>> (hi + 1)) <<< (hi + 1) + (x % 2 ^ (hi + 1 - lo)) <<< lo + v % 2 ^ lo

/-- Replace field [hi:lo] of a word. -/
def putBf {w : Nat} (v : BitVec w) (hi lo x : Nat) : BitVec w := BitVec.ofNat w (putFld v.toNat hi lo x)

/-- One bit of a word. -/
def bit {w : Nat} (v : BitVec w) (i : Nat) : Bool := v.getLsbD i

/-- A flag as a number. -/
def b2n (b : Bool) : Nat := if b then 1 else 0

/-- Bytes slice: n bytes from offset o; bytes beyond the end are missing. -/
def slice (bs : Bytes) (o n : Nat) : Bytes := (bs.drop o).take n

/-- Bytes padded with zeros to length n, cut to n. -/
def padTo (n : Nat) (bs : Bytes) : Bytes := (bs ++ List.replicate (n - bs.length) 0).take n

/-- Bytes padded with zeros to a multiple of m. -/
def padMul (m : Nat) (bs : Bytes) : Bytes := bs ++ List.replicate ((m - bs.length % m) % m) 0

/-- Overwrite bytes at an offset within a string of bytes. -/
def patch (bs : Bytes) (o : Nat) (x : Bytes) : Bytes := bs.take o ++ x ++ bs.drop (o + x.length)

/-- The 16-bit one's complement sum of big-endian words, folded (RFC 1071). -/
def onesFold (v : Nat) : Nat :=
  let a := v % 65536 + v / 65536
  let b := a % 65536 + a / 65536
  b % 65536 + b / 65536

/-- Sum of the big-endian 16-bit words of bytes, an odd last byte padded with 0. -/
def sum16 : Bytes → Nat
  | [] => 0
  | [a] => a.toNat * 256
  | a :: b :: t => a.toNat * 256 + b.toNat + sum16 t

/-- The internet checksum of bytes over a starting sum. -/
def inetChecksum (start : Nat) (bs : Bytes) : Nat := 65535 - onesFold (start + sum16 bs)

/-! ### Check codes -/

/-- Eight steps of a reflected CRC. -/
def crcBits (poly : Nat) : Nat → Nat → Nat
  | 0, c => c
  | n + 1, c => crcBits poly n (if c % 2 = 1 then (c / 2) ^^^ poly else c / 2)

/-- A reflected 32-bit CRC over bytes, from a register value, without the final XOR. -/
def crcRun (poly : Nat) (reg : Nat) (bs : Bytes) : Nat :=
  bs.foldl (fun c b => crcBits poly 8 (c ^^^ b.toNat)) reg

/-- Plain CRC-32C: initial value and final XOR all ones, reflected (R124, R131). -/
def crc32c (bs : Bytes) : Nat := crcRun 0x82F63B78 0xFFFFFFFF bs ^^^ 0xFFFFFFFF

/-- The Ethernet FCS (IEEE 802.3 CRC-32) of bytes. -/
def crc32 (bs : Bytes) : Nat := crcRun 0xEDB88320 0xFFFFFFFF bs ^^^ 0xFFFFFFFF

/-! ### Object addresses and the dictionary -/

/-- The 36-bit address of an object (0.7.3). (DESIGN CHOICE, log entry 53) -/
def oa (index inst sub : Nat) : Nat := index * 2 ^ 20 + inst * 2 ^ 8 + sub

/-- Index, instance and sub-index of an address. -/
def oaIndex (a : Nat) : Nat := a / 2 ^ 20
def oaInst (a : Nat) : Nat := a / 2 ^ 8 % 2 ^ 12
def oaSub (a : Nat) : Nat := a % 2 ^ 8

/-- Sub-indices that a row's range spans but that name no object: the gaps of the shapers (Table 9-6), of the MAC
statistics (Table 10-6, R308) and of the FlexE bins (Table 11-11). -/
def objGap (a : Nat) : Bool :=
  let u := oaSub a
  match oaIndex a with
  | 0x5820 => !(u < 10 || (16 ≤ u && u < 24) || u == 32)
  | 0x2020 => !((macNames ++ portNames).any fun x => x.1 == u)
  | 0x2080 => !(u == 80 || macNames.any fun x => x.1 == u)
  | 0x2830 => 64 ≤ u || u % 16 == 13 || u % 16 == 14
  | _ => false

/-- The dictionary row of an address (R40, check 1). (DESIGN CHOICE, log entry 53) -/
def objRow (a : Nat) : Option ObjRow :=
  if objGap a || decide (2 ^ 36 ≤ a) then none
  else dictionary.find? fun r =>
    r.index == oaIndex a && decide (r.inst0 ≤ oaInst a) && decide (oaInst a ≤ r.inst1) &&
    decide (r.sub0 ≤ oaSub a) && decide (oaSub a ≤ r.sub1)

/-- UTF-8 bytes of ASCII characters. -/
def charBytes (l : List Char) : Bytes := l.map fun c => BitVec.ofNat 8 c.toNat

/-- UTF-8 bytes of a constant name. -/
def strBytes (s : String) : Bytes := charBytes s.toList

/-- The default value of a row at an address (R11). -/
def rowDflt (r : ObjRow) (a : Nat) : Bytes :=
  match r.dflt with
  | .num n => leBytes r.size n
  | .perInst l => leBytes r.size (l.getD (oaInst a) 0)
  | .perSub l => leBytes r.size (l.getD (oaSub a) 0)
  | .instPlus n => leBytes r.size (oaInst a + n)
  | .subId => leBytes r.size (oaSub a)
  | .bytes l => l.map (BitVec.ofNat 8)
  | .text s => strBytes s
  | .board => leBytes r.size 0

/-- The default value of an address: a management object's default is the board record's value
(Table 10-7, "boot image"). -/
def objDflt (board : Tbl Bytes) (a : Nat) : Bytes :=
  match tfind board a with
  | some b => b
  | none => match objRow a with
    | some r => rowDflt r a
    | none => []

/-- The value of a configuration object in the active slot (R11). The access keys live in the
flash key store (R52); the stage objects are read from their bank by stageB. -/
def cfgB (s : State) (a : Nat) : Bytes :=
  if oaIndex a = 0x1020 then (tfind s.ctl.keys a).getD (objDflt [] a)
  else (tfind s.ctl.active.objs a).getD (objDflt s.safe.boardMgmt a)

/-- The value of a numeric object. An instance above 4,095 (unicast queues 4,096 to 8,191) has no
address, so it keeps the default. -/
def cfgN (s : State) (index inst sub : Nat) : Nat :=
  if inst < 4096 then leNat (cfgB s (oa index inst sub)) else leNat (objDflt [] (oa index 0 sub))

/-- The value of a BOOL object. -/
def cfgOn (s : State) (index inst sub : Nat) : Bool := cfgN s index inst sub != 0

/-- A 32-bit two's complement number. -/
def signed32 (n : Nat) : Int := if n % 2 ^ 32 < 2 ^ 31 then (n % 2 ^ 32 : Int) else (n % 2 ^ 32 : Int) - 2 ^ 32

/-- The 32-bit pattern of a signed number. -/
def unsigned32 (i : Int) : Nat := (i % 2 ^ 32).toNat

/-- The value of an I32 object. -/
def cfgI (s : State) (index inst sub : Nat) : Int := signed32 (cfgN s index inst sub)

/-- The value of a MAC or IPADDR object as the number of its network-order bytes. -/
def cfgNet (s : State) (index inst sub : Nat) : Nat := beNat (cfgB s (oa index inst sub))

/-! ### Free values -/

/-- Draw a free value of w bits: nothing is known of it. (DESIGN CHOICE, log entry 4) -/
def fresh (w : Nat) (s : State) : BitVec w × State :=
  (BitVec.ofNat w (Config.freeValue s.free), { s with free := s.free + 1 })

/-! ### Event counters (R425, R426, R429) -/

/-- A run of counter IDs: first ID, object index, first instance, instances, sub-indices. -/
structure CtrSeg where
  first : Nat
  index : Nat
  inst0 : Nat
  insts : Nat
  subs : List Nat

/-- Table 15-1, object by object; the control and safety block as R473 assigns it. -/
def ctrSegs : List CtrSeg := [
  ⟨0x0000, 0x5014, 0, 1024, [0, 1, 2, 3, 4, 5, 6, 7, 8, 9, 10, 11, 12]⟩,
  ⟨0x3400, 0x5015, 0, 1024, [0]⟩,
  ⟨0xD800, 0x2800, 0, 64, [10]⟩,
  ⟨0xD840, 0x2802, 0, 1024, [5, 6]⟩,
  ⟨0xE040, 0x2810, 0, 64, [7]⟩,
  ⟨0xE100, 0x2010, 0, 256, [4]⟩,
  ⟨0xE200, 0x3030, 0, 16, [0, 1, 2, 3, 4, 5, 6, 7, 17, 18, 19, 20, 21, 22, 23, 24]⟩,
  ⟨0xE300, 0x3816, 0, 4, [1, 2, 3, 4, 5, 6, 7]⟩,
  ⟨0xE31C, 0x3817, 0, 4, [0, 1, 2, 3, 4, 5, 6, 7]⟩,
  ⟨0xE33C, 0x3833, 0, 1, [0]⟩,
  ⟨0xE340, 0x5010, 0, 2, [3]⟩,
  ⟨0xE380, 0x4011, 0, 16, [0, 1, 2, 3, 4, 5]⟩,
  ⟨0xE3E0, 0x4020, 0, 16, [0, 1, 2, 3, 4, 5, 6, 7, 8, 9, 10, 11, 12]⟩,
  ⟨0xE4B0, 0x4040, 0, 16, [0, 1, 2, 3, 4, 5, 6, 7, 8, 9, 10, 11, 12, 13]⟩,
  ⟨0xE590, 0x4041, 0, 16, [1, 2, 3, 4, 5, 6, 7]⟩,
  ⟨0xE600, 0x4042, 0, 1, [1, 2, 3, 4, 5, 6]⟩,
  ⟨0xE680, 0x4811, 0, 8, [2, 3]⟩,
  ⟨0xE690, 0x4835, 0, 256, [0, 1, 2, 3]⟩,
  ⟨0xEA90, 0x4837, 0, 1, [0]⟩,
  ⟨0xEA91, 0x4839, 0, 1, [0]⟩,
  ⟨0xEB00, 0x5802, 0, 16, [0, 1, 2, 3, 4, 5, 6, 7, 8, 9, 10, 11, 12, 13, 14, 15]⟩,
  ⟨0xEC00, 0x5831, 0, 16, [0, 1, 2, 3, 4]⟩,
  ⟨0xEC50, 0x5847, 0, 1, [0]⟩,
  ⟨0xEC80, 0x6011, 0, 8, [0, 1]⟩,
  ⟨0xEC90, 0x6031, 0, 128, [0, 1, 2, 3, 4]⟩,
  ⟨0xEF80, 0x6801, 0, 1, [0]⟩,
  ⟨0xEF81, 0x6812, 0, 8, [0]⟩,
  ⟨0xEF89, 0x6831, 0, 32, [1]⟩,
  ⟨0xEFA9, 0x6841, 0, 16, [1, 2, 3]⟩,
  ⟨0xEFD9, 0x6842, 0, 1, [0]⟩,
  ⟨0xF000, 0x7012, 0, 1, [0, 1, 2, 3, 4, 5]⟩,
  ⟨0xF006, 0x702C, 0, 1, [0, 1, 2]⟩,
  ⟨0xF009, 0x7030, 0, 1, [6]⟩,
  ⟨0xF040, 0x7841, 0, 16, [0, 1, 2]⟩,
  ⟨0xF070, 0x7850, 0, 1, [0, 1, 2, 3]⟩,
  ⟨0xF080, 0x1023, 0, 1, [0]⟩,
  ⟨0xF081, 0x1300, 1, 16, [1]⟩,
  ⟨0xF091, 0x1309, 0, 1, [0]⟩,
  ⟨0xF092, 0x1405, 0, 1, [0, 1, 2]⟩]

/-- The address of ct.counter[id] (Table 15-5): the home of a counter that has no view object. -/
def ctrCell (id : Nat) : Nat := oa (0x7880 + id / 4096) (id % 4096) 0

/-- Where a counter ID's value is kept: its view object's address, or its own cell. -/
def ctrAddr (id : Nat) : Nat :=
  match ctrSegs.find? (fun g => decide (g.first ≤ id) && decide (id < g.first + g.insts * g.subs.length)) with
  | some g =>
    let k := id - g.first
    oa g.index (g.inst0 + k / g.subs.length) (g.subs.getD (k % g.subs.length) 0)
  | none => ctrCell id

/-- The counter ID that a view object or a counter cell shows. -/
def ctrId (a : Nat) : Option Nat :=
  if 0x7880 ≤ oaIndex a ∧ oaIndex a < 0x7890 then some ((oaIndex a - 0x7880) * 4096 + oaInst a)
  else match ctrSegs.find? (fun g => g.index == oaIndex a && decide (g.inst0 ≤ oaInst a) &&
      decide (oaInst a < g.inst0 + g.insts) && g.subs.contains (oaSub a)) with
    | some g => some (g.first + (oaInst a - g.inst0) * g.subs.length + g.subs.idxOf (oaSub a))
    | none => none

/-- The value of a counter or device-set gauge. (DESIGN CHOICE, log entry 8) -/
def ctrGet (s : State) (a : Nat) : Nat := tget 0 s.cnt.ctr a

/-- Set a counter or gauge. -/
def ctrSet (s : State) (a n : Nat) : State := { s with cnt := { s.cnt with ctr := tset 0 s.cnt.ctr a n } }

/-- The chain entry i whose valid source is a counter ID, searched from spare k upward (R429). -/
def chainOf (s : State) (id : Nat) : Option Nat :=
  (s.ctl.active.objs.filterMap fun r =>
    if oaIndex r.1 = 0x7800 ∧ fld (leNat r.2) 31 31 = 1 ∧ fld (leNat r.2) 15 0 = id
    then some (oaInst r.1) else none).head?

/-- Add to an event counter: 48 bits, wrapping; a wrap increments the chained spare (R425, R429).
(DESIGN CHOICE, log entry 8) -/
def ctrAdd (a n : Nat) (s : State) : State :=
  let v := ctrGet s a + n
  let s' := ctrSet s a (v % 2 ^ 48)
  if v < 2 ^ 48 then s'
  else match (ctrId a).bind (chainOf s) with
    | some i =>
      let sp := ctrCell (0xF100 + i)
      ctrSet s' sp ((ctrGet s' sp + v / 2 ^ 48) % 2 ^ 48)
    | none => s'

/-- Count one event. -/
def count (index inst sub : Nat) (s : State) : State := ctrAdd (oa index inst sub) 1 s

/-- Count n. -/
def countN (index inst sub n : Nat) (s : State) : State := ctrAdd (oa index inst sub) n s

/-- The ID of counter k of a queue of port q, by selector: 0 frames enqueued, 1 bytes dequeued, 2 frames dropped, 3 frames
ECN-marked (R427). -/
def queueId (q sel k : Nat) : Nat := if sel < 8 then 0x3800 + 4 * (8 * q + sel) + k else 0xB800 + 4 * (2 * q + sel - 8) + k

/-- Add to counter k of a queue (R427). -/
def queueAdd (q sel k n : Nat) (s : State) : State := ctrAdd (ctrCell (queueId q sel k)) n s

/-- Count a frame for its port, and as counter k of its queue (Table 8-5, R427). -/
def queueCount (q sel sub k : Nat) (s : State) : State := queueAdd q sel k 1 (count 0x5014 q sub s)

/-- Count a frame dropped for its queue, under its cause of Table 8-5 (R427). -/
def queueDrop (q sel sub : Nat) (s : State) : State := queueCount q sel sub 2 s

/-- A counter that saturates at 2^64 - 1 and clears on read (R308, R390). (DESIGN CHOICE, log entry 8) -/
def satAdd (index inst sub n : Nat) (s : State) : State :=
  let a := oa index inst sub
  ctrSet s a (min (ctrGet s a + n) (2 ^ 64 - 1))

/-! ### Time -/

/-- The raw cycle count (R405). -/
def raw (s : State) : Nat := s.time.raw.toNat

/-- Raw TCLK cycles of a time in ns (1.25 ns each), rounded up. -/
def cyc (ns : Nat) : Nat := (ns * 4 + 4) / 5

/-- One second of raw cycles. -/
def cycSecond : Nat := 800000000

/-- Whole ns of the nanosecond counter. -/
def counterNs (s : State) : Nat := s.time.counter.toNat / 2 ^ 48

/-- Time of day at a counter value: seconds and ns (R407). -/
def todAt (s : State) (c : Nat) : Nat × Nat :=
  let d := (c + 2 ^ 32 - s.time.anchorC.toNat) % 2 ^ 32
  let t := s.time.anchorN + d
  ((s.time.anchorS + t / 1000000000) % 2 ^ 48, t % 1000000000)

/-- Time of day now. -/
def tod (s : State) : Nat × Nat := todAt s (counterNs s)

/-- Device seconds: the low 32 bits of TOD seconds (R407). -/
def devSeconds (s : State) : Nat := (tod s).1 % 2 ^ 32

/-- The device millisecond (R406). -/
def devMs (s : State) : Nat := s.time.ms.toNat

/-- The device microsecond: raw cycles divided by 800, low 32 bits (R406). -/
def devUs (s : State) : Nat := raw s / 800 % 2 ^ 32

/-- The receive or transmit time stamp now: nanosecond counter with its 16 visible fraction bits. -/
def stampNow (s : State) : BitVec 48 := BitVec.ofNat 48 (s.time.counter.toNat / 2 ^ 32)

/-! ### Host memory, MSI-X and rings (13.2) -/

/-- The device writes bytes to host memory. (DESIGN CHOICE, log entry 10) -/
def hostWrite (s : State) (a : Nat) (bs : Bytes) : State :=
  { s with host := { s.host with mem := writeBytes s.host.mem a bs } }

/-- The MSI-X table entry after reset: masked. (PRESUMED, log entry 79) -/
def msixReset : Msix := { addr := 0, data := 0, ctrl := 1 }

/-- Raise an MSI-X vector: the message is written, or the pending bit set while masked. (PRESUMED, log entry 79) -/
def raiseVector (v : Nat) (s : State) : State :=
  let e := tget msixReset s.host.msix v
  if bit e.ctrl 0 then
    { s with host := { s.host with msixPending := s.host.msixPending ||| BitVec.ofNat 64 (2 ^ v) } }
  else hostWrite s e.addr.toNat (leBytes 4 e.data.toNat)

/-- Ring keys (State.HostIf.rings). -/
def cmdKey : Nat := 0
def evKey (e : Nat) : Nat := 1 + e
def rxKey (r : Nat) : Nat := 16 + r
def txKey (r : Nat) : Nat := 80 + r
def dmaKey (c : Nat) : Nat := 144 + c

/-- The default vector of a ring (Table 13-4). -/
def ringVector (k : Nat) : Nat :=
  if k = 0 then 1
  else if k < 16 then 2 + (k - 1)
  else if k < 80 then 10 + (k - 16) % 27
  else if k < 144 then 37 + (k - 80) % 27
  else 0

/-- The reset block of a ring (Table 13-3). -/
def ringReset (k : Nat) : Ring :=
  { base := 0, enable := false, vector := BitVec.ofNat 6 (ringVector k), modUs := 0, modCount := 0,
    log2n := 6, prod := 0, cons := 0, stopped := true, error := 0, erridx := 0, shadow := 0,
    shadowEn := false, unsignalled := 0, firstUnsig := 0 }

/-- A ring block. -/
def ring (s : State) (k : Nat) : Ring := tget (ringReset k) s.host.rings k

/-- Replace a ring block. -/
def setRing (s : State) (k : Nat) (r : Ring) : State :=
  { s with host := { s.host with rings := tset (ringReset k) s.host.rings k r } }

/-- Entries of a ring: 2^log2n (R375). -/
def ringSize (r : Ring) : Nat := 2 ^ r.log2n.toNat

/-- Entries between the indexes: PROD - CONS modulo 2^32. -/
def ringFill (r : Ring) : Nat := (r.prod - r.cons).toNat

/-- The ring takes entries: enabled, not stopped, the link up (R372, R376). -/
def ringLive (s : State) (k : Nat) : Bool :=
  (ring s k).enable && !(ring s k).stopped && decide (s.host.rate ≠ 0)

/-- Write the shadow of an index (R377). -/
def writeShadow (k : Nat) (idx : BitVec 32) (s : State) : State :=
  let r := ring s k
  if r.shadowEn then hostWrite s r.shadow.toNat (leBytes 4 idx.toNat) else s

/-- Signal one entry produced or consumed by the device, with the moderation of R377. -/
def signalRing (k : Nat) (urgent : Bool) (s : State) : State :=
  if 144 ≤ k then s
  else
    let r := ring s k
    let n := r.unsignalled + 1
    if urgent || (r.modUs == 0 && r.modCount == 0) || (r.modCount != 0 && decide (r.modCount.toNat ≤ n)) then
      raiseVector r.vector.toNat (setRing s k { r with unsignalled := 0, firstUnsig := 0 })
    else
      setRing s k { r with unsignalled := n, firstUnsig := if r.firstUnsig = 0 then raw s + 1 else r.firstUnsig }

/-- The device produces one entry: the entry, then PROD, then the shadow, then the signal (R377). -/
def ringProduce (k : Nat) (entry : Bytes) (urgent : Bool) (s : State) : State :=
  let r := ring s k
  let s1 := hostWrite s (r.base.toNat + entry.length * (r.prod.toNat % ringSize r)) entry
  let s2 := setRing s1 k { r with prod := r.prod + 1 }
  signalRing k urgent (writeShadow k (r.prod + 1) s2)

/-- The device consumes n entries: CONS, the shadow, the signal (R377). -/
def ringConsume (k n : Nat) (s : State) : State :=
  let r := ring s k
  let c := r.cons + BitVec.ofNat 32 n
  signalRing k false (writeShadow k c (setRing s k { r with cons := c }))

/-- Stop a ring with an error at an entry (R376). -/
def ringError (k : Nat) (err : Nat) (idx : BitVec 32) (s : State) : State :=
  setRing s k { ring s k with stopped := true, error := BitVec.ofNat 8 err, erridx := idx }

/-! ### Events (13.4) -/

/-- Split a value into n 32-bit words, least significant first (R382). -/
def words32 : Nat → Nat → List Nat
  | 0, _ => []
  | n + 1, v => v % 2 ^ 32 :: words32 n (v / 2 ^ 32)

/-- The 320 parameter bits of an event record, p0 highest (Table 13-7). -/
def paramBits (ps : List Nat) : Nat :=
  (ps ++ List.replicate (10 - ps.length) 0).take 10 |>.foldl (fun a p => a * 2 ^ 32 + p % 2 ^ 32) 0

/-- The bytes of an event record (Table 13-7). -/
def eventBytes (code : Nat) (fault phase : Bool) (lost seq seconds ns : Nat) (ps : List Nat) : Bytes :=
  leBytes 64 (1 * 2 ^ 504 + code % 2 ^ 16 * 2 ^ 488 + b2n fault * 2 ^ 487 + b2n phase * 2 ^ 480 +
    min lost 65535 * 2 ^ 464 + seq % 2 ^ 32 * 2 ^ 416 + seconds % 2 ^ 32 * 2 ^ 384 + ns % 2 ^ 32 * 2 ^ 352 +
    paramBits ps * 2 ^ 32)

/-- The queue of an event (R383). -/
def eventQueue (s : State) (code : Nat) (fault : Bool) : Nat :=
  if fault then cfgN s 0x6811 0 0 else cfgN s 0x6810 (code / 256) 0

/-- The phase bit of the next record of a ring (Table 13-7). -/
def phaseOf (r : Ring) : Bool := r.prod.toNat / ringSize r % 2 == 0

/-- Put an event record on its queue, or discard and count it (R383, R384). (DESIGN CHOICE, log entry 9) -/
def putEvent (q code : Nat) (fault : Bool) (ps : List Nat) (s : State) : State :=
  let seq := tget 0 s.host.evSeq q
  let s1 : State := { s with host := { s.host with evSeq := tset 0 s.host.evSeq q ((seq + 1) % 2 ^ 32) } }
  let r := ring s (evKey q)
  if ringLive s (evKey q) && decide (ringFill r < ringSize r) then
    let lost := tget 0 s.host.evLost q
    let t := tod s
    let rec_ := eventBytes code fault (phaseOf r) lost seq (t.1 % 2 ^ 32) t.2 ps
    let s2 : State := { s1 with host := { s1.host with evLost := tset 0 s1.host.evLost q 0 } }
    ringProduce (evKey q) rec_ fault s2
  else
    count 0x6812 q 0 { s1 with host := { s1.host with evLost := tset 0 s1.host.evLost q (tget 0 s1.host.evLost q + 1) } }

/-- Raise an event (R382 to R384). While REFCLK is lost the record waits (R468). (DESIGN CHOICE, log entry 9) -/
def raise (code : Nat) (ps : List Nat) (s : State) (fault : Bool := false) : State :=
  let q := eventQueue s code fault
  if s.safe.refclkLost then
    { s with host := { s.host with evWait := s.host.evWait ++ [(q, code, fault, ps)] } }
  else putEvent q code fault ps s

/-- A ring stops with an error at an entry: the command ring reports event 0x0A03, a packet ring 0x0A04, a DMA channel
none (R376, R396, R404). -/
def ringFail (k err : Nat) (idx : BitVec 32) (s : State) : State :=
  let t := ringError k err idx s
  if k = cmdKey then raise 0x0A03 [err, idx.toNat] t
  else if rxKey 0 ≤ k ∧ k < txKey 0 then raise 0x0A04 [0, k - rxKey 0, err, idx.toNat] t
  else if txKey 0 ≤ k ∧ k < dmaKey 0 then raise 0x0A04 [1, k - txKey 0, err, idx.toNat] t
  else t

/-- The occurrences still within the last second. -/
def recent (s : State) (l : List Nat) : List Nat := l.filter fun t => decide (raw s < t + cycSecond)

/-- Note an occurrence of an event that is raised at most once per second per instance; answer
whether a record is due, and the occurrences of the last second, this one included. (DESIGN CHOICE, log entry 9) -/
def limit (code inst : Nat) (s : State) : Bool × Nat × State :=
  let k := code * 2 ^ 16 + inst
  let l := tget { last := 0, occ := [] } s.cnt.lims k
  let occ := recent s l.occ ++ [raw s]
  let due := l.last == 0 || decide (l.last - 1 + cycSecond ≤ raw s)
  let l' : Lim := { last := if due then raw s + 1 else l.last, occ := occ }
  (due, occ.length, { s with cnt := { s.cnt with lims := tput s.cnt.lims k l' } })

/-- Raise an event at most once per second per instance; its parameters may use the number of
occurrences in the last second. (DESIGN CHOICE, log entry 9) -/
def raiseLimited (code inst : Nat) (ps : Nat → List Nat) (s : State) : State :=
  let (due, n, s') := limit code inst s
  if due then raise code (ps n) s' else s'

/-! ### Faults (16.6) -/

/-- FAULT_N is asserted (R469, R471). -/
def faultN (s : State) : Bool := s.safe.pulse || s.safe.faults != 0 || s.safe.safeStop

/-- The function-class reaction of a fault class: 0 LOG, 1 NOTIFY, 2 ISOLATE, 3 SAFE_STOP, 255 NONE. -/
def reaction (s : State) (k : Nat) : Nat := cfgN s 0x1300 k 0

/-- Stop every DMA channel that has nothing in flight; the others stop as they complete (R396). -/
def stopDma (s : State) : State :=
  (List.range 32).foldl (fun s c =>
    if (tget [] s.host.dma c).isEmpty && (ring s (dmaKey c)).enable
    then setRing s (dmaKey c) { ring s (dmaKey c) with stopped := true } else s) s

/-- An ACTIVE recovered-clock output is held low; event 0x0B06 (R421). (DESIGN CHOICE, log entry 100) -/
def squelch (i : Nat) (s : State) : State :=
  if tget 0 s.time.recclk i = 1 then
    raise 0x0B06 [i, cfgN s 0x7040 i 1, 1] { s with time := { s.time with recclk := tput s.time.recclk i 2 } }
  else s

/-- A safe stop with a cause (R471). (DESIGN CHOICE, log entry 100) -/
def safeStop (cause : Nat) (s : State) : State :=
  if s.safe.safeStop then s
  else
    let s1 : State := { s with
      safe := { s.safe with safeStop := true, safeCause := cause },
      time := { s.time with ppsOut := false } }
    [0, 1, 2, 3].foldl (fun t i => squelch i t) (raise 0x0E16 [cause] (stopDma s1))

/-- Set the pending bit of a class (R469). -/
def pendFault (k : Nat) (s : State) : State :=
  { s with safe := { s.safe with faults := s.safe.faults ||| BitVec.ofNat 16 (2 ^ (k - 1)) } }

/-- Count a detection of class k and note its time (R461). (DESIGN CHOICE, log entry 22) -/
def noteFault (k : Nat) (s : State) : State :=
  ctrSet (count 0x1300 k 1 s) (oa 0x1300 k 2) (devSeconds s)

/-- Take the reaction of class k (R469 to R471). -/
def react (k : Nat) (s : State) : State :=
  let r := reaction s k
  if r = 0 then { s with safe := { s.safe with pulse := true } }
  else if r = 3 then safeStop k (pendFault k s)
  else pendFault k s

/-- A fault of class k is detected: counted, its record written with fault 1, FAULT_N driven and
its class's reaction taken (R461, R468 to R471). Class 1 is masked: it is only counted. (DESIGN CHOICE, log entry 22) -/
def detect (k code : Nat) (ps : List Nat) (s : State) : State :=
  if k = 1 then noteFault k s else react k (raise code ps (noteFault k s) true)

/-- Like detect, for an event that is raised at most once per second per instance: the detection
is counted and the reaction taken every time. (DESIGN CHOICE, log entry 22) -/
def detectLimited (k code inst : Nat) (ps : Nat → List Nat) (s : State) : State :=
  let (due, n, s') := limit code inst s
  react k (if due then raise code (ps n) (noteFault k s') true else noteFault k s')

end Sys2Proof.Machine
end

