-- ==== Sys2Proof/Machine/Symbol.lean ====
section
/-! DEFINITION. The 144/128 symbol code (R360 to R365): GF(16), encoder, decoder, erasure decoding. -/
namespace Sys2Proof.Machine

/-- Multiply by α in GF(16), modulo x^4 + x + 1 (R361). -/
def gfDouble (x : Nat) : Nat := if x < 8 then 2 * x else (2 * x % 16) ^^^ 3

/-- Multiply in GF(16) (R361). -/
def gfMul (x y : Nat) : Nat :=
  (if y % 2 = 1 then x else 0) ^^^
  (if y / 2 % 2 = 1 then gfDouble x else 0) ^^^
  (if y / 4 % 2 = 1 then gfDouble (gfDouble x) else 0) ^^^
  (if y / 8 % 2 = 1 then gfDouble (gfDouble (gfDouble x)) else 0)

/-- The inverse in GF(16): x^14; 0 for 0. -/
def gfInv (x : Nat) : Nat :=
  let x2 := gfMul x x
  let x4 := gfMul x2 x2
  let x8 := gfMul x4 x4
  gfMul x2 (gfMul x4 x8)

/-- Divide in GF(16). -/
def gfDiv (x y : Nat) : Nat := gfMul x (gfInv y)

/-- ω = α^3 (R361). -/
def gfOmega : Nat := 8

/-- f(x, y) = x^2 + xy + ωy^2 (R361). -/
def gfF (x y : Nat) : Nat := gfMul x x ^^^ gfMul x y ^^^ gfMul gfOmega (gfMul y y)

/-- a_j and b_j of a data symbol (R361). -/
def symA (j : Nat) : Nat := j % 16
def symB (j : Nat) : Nat := if j < 16 then 2 else 4

/-- Column h_p of the parity-check matrix (R361). -/
def symH (p : Nat) : List Nat :=
  if p < 32 then [1, symA p, symB p, gfF (symA p) (symB p)]
  else if p = 32 then [1, 0, 0, 0]
  else if p = 33 then [0, 0, 0, 1]
  else if p = 34 then [1, 1, 0, 1]
  else [1, 0, 1, 8]

/-- Symbol p of a word. -/
def symOf (r p : Nat) : Nat := r >>> (4 * p) % 16

/-- XOR a value into symbol p. -/
def symXor (r p e : Nat) : Nat := r ^^^ (e % 16) <<< (4 * p)

/-- XOR over the symbols below n of a coefficient times the symbol. -/
def symSum (c : Nat → Nat) (r : Nat) : Nat → Nat
  | 0 => 0
  | n + 1 => symSum c r n ^^^ gfMul (c n) (symOf r n)

/-- The encoder (R362): the codeword of 128 data bits. -/
def symEncode (d : BitVec 128) : BitVec 144 :=
  let v := d.toNat
  let c2 := symSum symA v 32
  let c3 := symSum symB v 32
  let c0 := symSum (fun j => 1 ^^^ symA j ^^^ symB j) v 32
  let c1 := symSum (fun j => gfF (symA j) (symB j) ^^^ symA j ^^^ gfMul gfOmega (symB j)) v 32
  BitVec.ofNat 144 (v + c0 * 2 ^ 128 + c1 * 2 ^ 132 + c2 * 2 ^ 136 + c3 * 2 ^ 140)

/-- Row i of the syndrome H·r (R363). -/
def symSyn (r i : Nat) : Nat := symSum (fun p => (symH p).getD i 0) r 36

/-- What the decoder answers: data, and whether it was clean, corrected in a symbol, or
uncorrectable. -/
inductive Decoded where
  | clean (data : BitVec 128)
  | corrected (data : BitVec 128) (symbols : List Nat)
  | uncorrectable
  deriving DecidableEq, Repr

/-- The symbol that (x, y) names (Table 12-8). -/
def symNamed (x y : Nat) : Option Nat :=
  if y = 2 then some x
  else if y = 4 then some (16 + x)
  else if y = 0 ∧ x = 0 then some 32
  else if y = 0 ∧ x = 1 then some 34
  else if y = 1 ∧ x = 0 then some 35
  else none

/-- Data bits of a word. -/
def symData (r : Nat) : BitVec 128 := BitVec.ofNat 128 r

/-- The decoder of a word with no erased pin pair (R363). -/
def symDecode (w : BitVec 144) : Decoded :=
  let r := w.toNat
  let s0 := symSyn r 0
  let s1 := symSyn r 1
  let s2 := symSyn r 2
  let s3 := symSyn r 3
  if s0 = 0 ∧ s1 = 0 ∧ s2 = 0 ∧ s3 = 0 then .clean (symData r)
  else if s0 ≠ 0 then
    let x := gfDiv s1 s0
    let y := gfDiv s2 s0
    let z := gfDiv s3 s0
    match symNamed x y with
    | some p => if z = gfF x y then .corrected (symData (symXor r p s0)) [p] else .uncorrectable
    | none => .uncorrectable
  else if s1 = 0 ∧ s2 = 0 then .corrected (symData (symXor r 33 s3)) [33]
  else .uncorrectable

/-- The pin pair of a symbol (Table 12-9). -/
def symPair (p : Nat) : Nat :=
  if p < 16 then p else if p < 32 then p - 16 else if p = 32 ∨ p = 34 then 16 else 17

/-- The two symbols of a pin pair (Table 12-9). -/
def pairSymbols (v : Nat) : Nat × Nat :=
  if v < 16 then (v, v + 16) else if v = 16 then (32, 34) else (33, 35)

/-- The row pairs in the order erasure decoding tries them (R365). -/
def rowPairs : List (Nat × Nat) := [(0, 1), (0, 2), (0, 3), (1, 2), (1, 3), (2, 3)]

/-- Erasure decoding of pin pair v (R365). -/
def symErase (v : Nat) (w : BitVec 144) : Decoded :=
  let r := w.toNat
  let (i, k) := pairSymbols v
  let hi := symH i
  let hk := symH k
  let s := fun m => symSyn r m
  match rowPairs.find? (fun mt => gfMul (hi.getD mt.1 0) (hk.getD mt.2 0) != gfMul (hi.getD mt.2 0) (hk.getD mt.1 0)) with
  | none => .uncorrectable
  | some (m, t) =>
    let det := gfMul (hi.getD m 0) (hk.getD t 0) ^^^ gfMul (hi.getD t 0) (hk.getD m 0)
    let ei := gfDiv (gfMul (s m) (hk.getD t 0) ^^^ gfMul (s t) (hk.getD m 0)) det
    let ek := gfDiv (gfMul (s t) (hi.getD m 0) ^^^ gfMul (s m) (hi.getD t 0)) det
    if [0, 1, 2, 3].all (fun q => s q == gfMul ei (hi.getD q 0) ^^^ gfMul ek (hk.getD q 0)) then
      if ei = 0 ∧ ek = 0 then .clean (symData r)
      else .corrected (symData (symXor (symXor r i ei) k ek))
        ((if ei = 0 then [] else [i]) ++ (if ek = 0 then [] else [k]))
    else .uncorrectable

/-- The decoder of a pseudo-channel with an erased pair or with none (255). -/
def symRead (erased : Nat) (w : BitVec 144) : Decoded :=
  if erased < 18 then symErase erased w else symDecode w

end Sys2Proof.Machine
end

