-- ==== Sys2Proof/Machine/Hbm.lean ====
section
/-! DEFINITION. The HBM subsystem (chapter 12): partitions and layout, the controllers' queues,
training and retraining, uncorrectable reads, retirement, erasure and scrub. -/
namespace Sys2Proof.Machine

/-- Size of the HBM address space, 128 GB (R342). -/
def hbmBytes : Nat := 2 ^ 37

/-- One GB. -/
def gb : Nat := 2 ^ 30

/-- Replace the HBM part of the state. -/
def setHbm (s : State) (h : Hbm) : State := { s with hbm := h }

/-- Default bases of partitions 0 to 5 (Table 12-1). (DESIGN CHOICE, log entry 92) -/
def partDefaultBase (k : Nat) : Nat := [0, 32, 38, 40, 48, 52].getD k 0 * gb

/-- Base in force of a partition. (DESIGN CHOICE, log entry 92) -/
def partBase (s : State) (k : Nat) : Nat := (tfind s.hbm.bases k).getD (partDefaultBase k)

/-- Size in force of a partition, in bytes. -/
def partSize (s : State) (k : Nat) : Nat := (tfind s.hbm.sizes k).getD (cfgN s 0x6000 k 0) * gb

/-- The address of an offset of a partition: a unit that RESIZE_PARTITION has copied lies at its new place (R346). -/
def partAddr (s : State) (k off : Nat) : Nat :=
  match s.flow.resize with
  | some z => if z.part = k ∧ off < z.next * 2 ^ 20 ∧ 2 ≤ k then z.base + off else partBase s k + off
  | none => partBase s k + off

/-- Stripe unit of a partition (Table 12-1). -/
def partUnit (k : Nat) : Nat := [128, 64, 4096, 64, 4096, 4096, 4096].getD k 4096

/-- The partition that holds an address: 0 to 5, else 6 the host window (R342). -/
def partOf (s : State) (a : Nat) : Nat :=
  ([0, 1, 2, 3, 4, 5].find? fun k => decide (partBase s k ≤ a) && decide (a < partBase s k + partSize s k)).getD 6

/-- Base of the run that lays out an address: its region's base, or the 1 GB run of the host window (R343). -/
def runBase (s : State) (a : Nat) : Nat :=
  if partOf s a < 6 then partBase s (partOf s a) else a / gb * gb

/-- The pseudo-channel of an address (R343, R344). -/
def pcOf (s : State) (a : Nat) : Nat :=
  let k := partOf s a
  let u := (a - runBase s a) / partUnit k
  match tfind s.hbm.layouts k with
  | some l => l.getD (u % max 1 l.length) 0
  | none => u % 128

/-- The local offset of an address in its pseudo-channel, for a region over all 128 (R343). -/
def localOf (s : State) (a : Nat) : Nat :=
  let g := partUnit (partOf s a)
  let b := runBase s a
  b / 128 + (a - b) / (128 * g) * g + (a - b) % g

/-- A pseudo-channel at its start: in service, nothing waiting. -/
def pcReset : Pc :=
  { state := 0, erased := 255, cause := 0, corrected := [], uncorrected := [], patterns := [],
    passSymbols := [], queue := [], flight := [], rows := [], retries := 0, refreshed := [], holding := false }

/-- A pseudo-channel. -/
def pc (s : State) (n : Nat) : Pc := tget pcReset s.hbm.pcs n

/-- Replace a pseudo-channel. -/
def setPc (s : State) (n : Nat) (p : Pc) : State :=
  setHbm s { s.hbm with pcs := tset pcReset s.hbm.pcs n p }

/-- The stack of a pseudo-channel (R341). -/
def stackOf (n : Nat) : Nat := n % 4

/-- Retired pseudo-channels (hm.retired). -/
def retiredCount (s : State) : Nat := (s.hbm.pcs.filter fun r => r.2.state == 2).length

/-- The pseudo-channel is retired (R357). -/
def pcRetired (s : State) (n : Nat) : Bool := (pc s n).state == 2

/-- Pseudo-channels in service at a placement, ascending (R344). -/
def pcsInService (s : State) : List Nat := (List.range 128).filter fun n => !pcRetired s n

/-- A read of the codeword at an address would return poison (R356, R358). -/
def poisoned (s : State) (a : Nat) : Bool := pcRetired s (pcOf s a) || s.hbm.poison.contains (a / 16 * 16)

/-- Some byte of a range lies in a poisoned codeword. -/
def rangePoisoned (s : State) (a n : Nat) : Bool :=
  (List.range ((a + n + 15) / 16 - a / 16)).any fun i => poisoned s ((a / 16 + i) * 16)

/-- Bytes of HBM. (DESIGN CHOICE, log entry 10) -/
def hbmRead (s : State) (a n : Nat) : Bytes := readBytes s.hbm.mem a n

/-- Write the bytes that lie in one 64-byte unit: dropped and counted on a retired pseudo-channel
(Table 12-4), else stored; a codeword wholly rewritten loses its poison (R356). -/
def hbmWriteUnit (s : State) (a : Nat) (bs : Bytes) : State :=
  if bs.isEmpty then s
  else if pcRetired s (pcOf s a) then count 0x6031 (pcOf s a) 4 s
  else setHbm s { s.hbm with
    mem := writeBytes s.hbm.mem a bs,
    poison := s.hbm.poison.filter fun w => !(decide (a ≤ w) && decide (w + 16 ≤ a + bs.length)) }

/-- Write bytes to HBM, unit by unit in ascending order; n bounds the units. -/
def hbmWriteUnits : Nat → State → Nat → Bytes → State
  | 0, s, _, _ => s
  | n + 1, s, a, bs =>
    let k := 64 - a % 64
    hbmWriteUnits n (hbmWriteUnit s a (bs.take k)) (a + k) (bs.drop k)

/-- Write bytes to HBM. (DESIGN CHOICE, log entry 10) -/
def hbmWrite (s : State) (a : Nat) (bs : Bytes) : State := hbmWriteUnits (bs.length / 64 + 2) s a bs

/-- Mark a codeword poisoned, keeping the list rising. -/
def addPoison (a : Nat) (s : State) : State :=
  let w := a / 16 * 16
  if s.hbm.poison.contains w then s
  else setHbm s { s.hbm with poison := s.hbm.poison.filter (· < w) ++ w :: s.hbm.poison.filter (w < ·) }

/-- A request reaches its controller (R347). On a retired pseudo-channel it completes as poisoned
at once (R357). A request to a sleeping stack waits in the queue like the others (R456).
(DESIGN CHOICE, log entry 90) -/
def hbmRequest (cls a len : Nat) (write : Bool) (s : State) : State :=
  let n := pcOf s a
  let q : HbmReq := {
    order := s.hbm.orders, addr := a, len := len, write := write, cls := cls,
    since := raw s, promoted := false, passed := 0 }
  let touched := if cls = 7 then s.hbm.touched else tset 0 s.hbm.touched (stackOf n) (raw s)
  let s1 := count 0x6011 cls 0 (setHbm s { s.hbm with orders := s.hbm.orders + 1, touched := touched })
  if pcRetired s1 n then
    (if write then s1 else setHbm s1 { s1.hbm with lastRead := some (q, [], true) })
  else
    -- R349: a queued request to the same unit takes the later request's class and promotion
    let lift := fun (r : HbmReq) =>
      if r.addr / 64 = a / 64 ∧ cls < r.cls then { r with cls := cls } else r
    setPc s1 n { pc s1 n with queue := (pc s1 n).queue.map lift ++ [q] }

/-- Retire a pseudo-channel (R357): what waits completes as poisoned, event 0x0903 reports the
fault of class 15. -/
def pcRetire (n cause : Nat) (s : State) : State :=
  let p := pc s n
  if p.state = 2 then s
  else
    let s1 := setPc s n { p with state := 2, cause := cause, queue := [], flight := [], rows := [] }
    let reads := (p.flight ++ p.queue).filter fun r => !r.write
    let s2 := match reads.getLast? with
      | some r => setHbm s1 { s1.hbm with lastRead := some (r, [], true) }
      | none => s1
    detect 15 0x0903 [n, cause, retiredCount s2] s2

/-- Erase a pin pair (R365); a second pair on an erased pseudo-channel retires it (R357, cause 5).
(DESIGN CHOICE, log entry 91) -/
def pinErase (n v cause : Nat) (s : State) : State :=
  let p := pc s n
  if p.state = 2 ∨ p.erased = v then s
  else if p.erased < 18 then pcRetire n 5 s
  else raise 0x0905 [n, v, cause] (setPc s n { p with state := 1, erased := v, patterns := [] })

/-- Retire a holding pseudo-channel whose corrected codewords reached the limit (R354). (DESIGN CHOICE, log entry 91) -/
def holdCheck (n : Nat) (s : State) : State :=
  if (pc s n).holding ∧ cfgN s 0x6024 0 0 ≤ (recent s (pc s n).corrected).length then pcRetire n 1 s else s

/-- Count a corrected codeword (class 1, R461) of a pseudo-channel and the symbols corrected. -/
def noteCorrected (n : Nat) (syms : List Nat) (s : State) : State :=
  let s1 := noteFault 1 (count 0x6031 n 0 s)
  let p := pc s1 n
  let ps := syms.foldl (fun t y => tset 0 t (symPair y) (tget 0 t (symPair y) + 1)) p.passSymbols
  holdCheck n (setPc s1 n { p with corrected := recent s p.corrected ++ [raw s], passSymbols := ps })

/-- Pin pairs whose erasure decoding resolves a word (R365). -/
def resolvingPairs (w : BitVec 144) : List Nat :=
  (List.range 18).filter fun v => match symErase v w with
    | .corrected _ _ => true
    | _ => false

/-- Note an uncorrectable read at an address: counted, poisoned, reported (R356), and the
retirement and erasure rules that count such reads (R357 cause 2, R365 cause 3). -/
def noteUncorrectable (n a cls : Nat) (w : BitVec 144) (s : State) : State :=
  let s1 := count 0x6031 n 1 s
  let s2 := detectLimited 3 0x0902 n (fun c => [n, partOf s a] ++ words32 2 a ++ [cls, c]) (addPoison a s1)
  let p := pc s2 n
  let ue := recent s p.uncorrected ++ [raw s]
  let pats := (p.patterns.filter fun r => decide (raw s < r.1 + cycSecond)) ++
    (if p.erased < 18 then [] else (resolvingPairs w).map fun v => (raw s, v))
  let s3 := setPc s2 n { p with uncorrected := ue, patterns := pats }
  match (List.range 18).find? fun v => decide (16 ≤ (pats.filter fun r => r.2 == v).length) with
  | some v => pinErase n v 3 s3
  | none => if cfgN s 0x6025 0 0 ≤ ue.length then pcRetire n 2 s3 else s3

/-- Decode the codewords of one read in turn: state, decoded bytes, poisoned. -/
def readWords (n cls : Nat) : Nat → List (BitVec 144) → State × Bytes × Bool → State × Bytes × Bool
  | _, [], acc => acc
  | a, w :: ws, (s, bs, bad) =>
    match symRead (pc s n).erased w with
    | .clean d => readWords n cls (a + 16) ws (s, bs ++ leBytes 16 d.toNat, bad)
    | .corrected d ys => readWords n cls (a + 16) ws (noteCorrected n ys s, bs ++ leBytes 16 d.toNat, bad)
    | .uncorrectable => readWords n cls (a + 16) ws
        (noteUncorrectable n a cls w s, bs ++ List.replicate 16 0, true)

/-- Raise a wait average and maximum of a class (Table 12-10). (DESIGN CHOICE, log entry 90) -/
def noteWait (cls ns : Nat) (s : State) : State :=
  let k := ctrGet s (oa 0x6011 cls 0)
  let avg := ctrGet s (oa 0x6011 cls 2)
  let s1 := ctrSet s (oa 0x6011 cls 2) ((avg * (k - 1) + ns) / max 1 k)
  ctrSet s1 (oa 0x6011 cls 3) (max (ctrGet s (oa 0x6011 cls 3)) ns)

/-- The row of an address in its pseudo-channel: 1 KB (R350). -/
def rowOf (s : State) (a : Nat) : Nat := localOf s a / 1024

/-- The bank of a row of a pseudo-channel: the stack's standard lays banks out, the spec does not.
(DESIGN CHOICE, log entry 105) -/
opaque Config.rowBank : Nat → Nat

/-- Rows of a pseudo-channel still open: a row closes once its bank has had no request to it for 100 ns (R350). -/
def openRows (s : State) (p : Pc) : List Nat :=
  (p.rows.filter fun r => decide (raw s < r.2 + cyc 100) ||
    p.queue.any fun q => rowOf s q.addr == r.1 && decide (q.since < r.2 + cyc 100)).map (·.1)

/-- A waiting request has waited longer than its class's age limit (R348). -/
def reqAged (s : State) (r : HbmReq) : Bool := decide (cyc (cfgN s 0x6010 r.cls 0) < raw s - r.since)

/-- A waiting request holds up a later one to the same 64-byte unit that is promoted, and takes its promotion (R349). -/
def liftsUnit (s : State) (q : List HbmReq) (r : HbmReq) : Bool :=
  q.any fun o => o.addr / 64 == r.addr / 64 && decide (r.order < o.order) && (o.promoted || reqAged s o)

/-- Promote the aged requests of pseudo-channel n and those that hold them up; each aged one is counted, and event
0x0906 reports them per class (R348, R349, R369). -/
def promoteAged (n : Nat) (s : State) : State :=
  let p := pc s n
  let aged := p.queue.filter fun r => !r.promoted && reqAged s r
  let s1 := setPc s n { p with queue := p.queue.map fun r =>
    { r with promoted := r.promoted || reqAged s r || liftsUnit s p.queue r } }
  aged.foldl (fun t r => raiseLimited 0x0906 r.cls
    (fun c => [r.cls, c, (aged.filter (fun o => o.cls == r.cls)).foldl (fun m o => max m ((raw s - o.since) * 5 / 4)) 0])
    (count 0x6011 r.cls 1 t)) s1

/-- The request a controller issues next (R348): promoted first, oldest first; else the oldest of
the lowest class; with hit set, a request of that class to an open row that has room to pass.
(DESIGN CHOICE, log entry 90) -/
def nextRequest (s : State) (n : Nat) (hit : Bool) : Option HbmReq :=
  let p := pc s n
  match p.queue.find? (·.promoted) with
  | some r => some r
  | none =>
    let c := p.queue.foldl (fun m r => min m r.cls) 8
    let q := p.queue.filter fun r => r.cls == c
    let opened := if hit then q.find? fun r => (openRows s p).contains (rowOf s r.addr) &&
        (q.filter fun o => decide (o.order < r.order)).all (fun o => decide (o.passed < 8)) &&
        !(p.queue.any fun o => decide (o.order < r.order) && o.addr / 64 == r.addr / 64) else none
    match opened with
    | some r => some r
    | none => q.head?

/-- The row stays open after an access of a class: the forced page policy, else the hint (R350). -/
def leavesOpen (s : State) (cls : Nat) : Bool :=
  match cfgN s 0x6010 cls 1 with
  | 1 => true
  | 2 => false
  | _ => [0, 2, 5, 6, 7].contains cls

/-- The rows open after an access of a class to a row: another open row of its bank closes (R350). -/
def rowsAfter (s : State) (p : Pc) (row cls : Nat) : List (Nat × Nat) :=
  (p.rows.filter fun x => (openRows s p).contains x.1 && Config.rowBank x.1 != Config.rowBank row) ++
    (if leavesOpen s cls then [(row, raw s)] else [])

/-- HBM_REQUEST_ISSUE: the controller of pseudo-channel n promotes what has aged and issues its next request (R348 to
R350). parity: the request meets a command-address parity error, the third in a row retires (R357).
(DESIGN CHOICE, log entry 90) -/
def execHbmRequestIssue (n : Nat) (hit parity : Bool) (s0 : State) : Host.Outcome State Fault Refusal :=
  let s := promoteAged n s0
  match nextRequest s n hit with
  | none => .next s
  | some r =>
    let p := pc s n
    if p.state = 2 ∨ tget 0 s.hbm.stackSt (stackOf n) = 1 then .next s
    else if parity then
      if 3 ≤ p.retries + 1 then .next (pcRetire n 3 s) else .next (setPc s n { p with retries := p.retries + 1 })
    else
      let q := (p.queue.filter fun o => o.order != r.order).map fun o =>
        if o.order < r.order ∧ o.cls = r.cls then { o with passed := o.passed + 1 } else o
      let s1 := noteWait r.cls ((raw s - r.since) * 5 / 4) s
      .next (setPc s1 n { p with
        queue := q, rows := rowsAfter s p (rowOf s r.addr) r.cls, retries := 0,
        flight := if r.write then p.flight else p.flight ++ [{ r with since := raw s }] })

/-- HBM_AGE_PROMOTION: requests of pseudo-channel n past their class's age limit are promoted (R348, R369). -/
def execHbmAgePromotion (n : Nat) (s : State) : Host.Outcome State Fault Refusal := .next (promoteAged n s)

/-- HBM_READ_COMPLETE: the oldest read in flight on pseudo-channel n returns its raw codewords;
they are decoded, corrected or marked poisoned, and counted (R356, R363, R365). -/
def execHbmReadComplete (n : Nat) (words : List (BitVec 144)) (s : State) : Host.Outcome State Fault Refusal :=
  match (pc s n).flight with
  | [] => .next s
  | r :: rest =>
    let s1 := setPc s n { pc s n with flight := rest }
    let (s2, bs, bad) := readWords n r.cls (r.addr / 16 * 16) words (s1, [], false)
    .next (setHbm s2 { s2.hbm with lastRead := some (r, bs, bad) })

/-- HBM_READ_TIMEOUT: a read not answered within 10 µs of its issue retires the pseudo-channel (R357, cause 3).
(DESIGN CHOICE, log entry 90) -/
def execHbmReadTimeout (n : Nat) (s : State) : Host.Outcome State Fault Refusal :=
  match (pc s n).flight with
  | [] => .next s
  | r :: _ => if r.since + cyc 10000 ≤ raw s then .next (pcRetire n 3 s) else .next s

/-- HBM_REFRESH: one bank of pseudo-channel n is refreshed, and an open row of it closes; the other banks keep
theirs (R351). -/
def execHbmRefresh (n bank : Nat) (s : State) : Host.Outcome State Fault Refusal :=
  if (pc s n).state = 2 then .next s
  else
    let p := pc s n
    let rows := p.rows.filter fun r => Config.rowBank r.1 != bank
    .next (setPc s n { p with refreshed := tput p.refreshed bank (raw s), rows := rows })

/-- The stack's refresh rate is doubled (R351). -/
def refreshDoubled (s : State) (st : Nat) : Bool := decide (85 ≤ tget 0 s.hbm.temps st)

/-- A turn of retraining is due: the turns are spread evenly over hm.retrain.interval (R353). -/
def retrainDue (s : State) : Bool := decide (s.hbm.turnAt + cyc (cfgN s 0x6023 0 0 / 128) ≤ raw s)

/-- The pseudo-channel whose turn to retrain it is (R353). (DESIGN CHOICE, log entry 90) -/
def turnPc (s : State) : Nat := 4 * tget 0 s.hbm.stackTurn (s.hbm.turn % 4) + s.hbm.turn % 4

/-- The turn of retraining passes on; used: the stack moves to its next pseudo-channel (R353, R456). -/
def nextTurn (used : Bool) (s : State) : State :=
  let st := s.hbm.turn % 4
  setHbm s { s.hbm with
    turn := (s.hbm.turn + 1) % 128, turnAt := raw s,
    stackTurn := if used then tset 0 s.hbm.stackTurn st ((tget 0 s.hbm.stackTurn st + 1) % 32) else s.hbm.stackTurn }

/-- HBM_RETRAIN: the pseudo-channel whose turn it is retrains or holds its setting (R353, R354). A retired one keeps its
turn unused; the turns skip a stack in self-refresh or in full training, which resumes where it stood (R355, R456). -/
def execHbmRetrain (pass : Bool) (s : State) : Host.Outcome State Fault Refusal :=
  let n := turnPc s
  let s0 := nextTurn (tget 0 s.hbm.stackSt (s.hbm.turn % 4) == 0) s
  if ¬ retrainDue s then .next s
  else if tget 0 s.hbm.stackSt (s.hbm.turn % 4) ≠ 0 ∨ (pc s n).state = 2 then .next s0
  else
    let s1 := count 0x6031 n 2 s0
    if pass then .next (setPc s1 n { pc s1 n with holding := false })
    else
      let s2 := setPc s1 n { pc s1 n with holding := true }
      .next (holdCheck n (raise 0x0904 [n, (recent s (pc s n).corrected).length] (count 0x6031 n 3 s2)))

/-- HBM_STACK_TEMPERATURE: a stack reports its temperature; at hm.temp.limit the event is a
fault of class 10 (R351, Table 16-5). -/
def execHbmStackTemperature (st : Nat) (t : Int) (s : State) : Host.Outcome State Fault Refusal :=
  let s1 := setHbm s { s.hbm with temps := tset 0 s.hbm.temps st t }
  if cfgI s 0x6026 0 0 ≤ t ∧ tget 0 s.hbm.temps st < cfgI s 0x6026 0 0
  then .next (detect 10 0x0907 [st, unsigned32 t, b2n (refreshDoubled s1 st)] s1)
  else .next s1

/-- A scrub reads the codeword at an address as the raw word given: a corrected word is written back, unless a write
has overtaken it (R365, R366). -/
def scrubWord (a : Nat) (w : BitVec 144) (overtaken : Bool) (s : State) : State :=
  let n := pcOf s a
  match symRead (pc s n).erased w with
  | .clean _ => s
  | .corrected d ys =>
    let t := noteCorrected n ys s
    let t1 := if overtaken ∨ partOf s a < 2 then t else hbmWriteUnit t (a / 16 * 16) (leBytes 16 d.toNat)
    match ys.find? fun y => decide (cfgN s 0x6022 0 0 ≤ tget 0 (pc t1 n).passSymbols (symPair y)) with
    | some y => pinErase n (symPair y) 2 t1
    | none => t1
  | .uncorrectable => noteUncorrectable n a 7 w s

/-- PATROL_SCRUB: the patrol reads the codeword at an address as the raw word given; a corrected
word is written back unless a later write overtook it; last closes the pass (R365, R366). -/
def execPatrolScrub (a : Nat) (w : BitVec 144) (overtaken last : Bool) (s : State) : Host.Outcome State Fault Refusal :=
  if hbmBytes ≤ a ∨ (pc s (pcOf s a)).state = 2 ∨ tget 0 s.hbm.stackSt (stackOf (pcOf s a)) = 1 then .next s
  else
    let s1 := scrubWord a w overtaken s
    if last then
      .next (setHbm s1 { s1.hbm with lastPass := devSeconds s1,
                                     pcs := s1.hbm.pcs.map fun r => (r.1, { r.2 with passSymbols := [] }) })
    else .next s1

/-- What start-up or full training does to a pseudo-channel: failing pin pairs and whether the
command-address interface failed (R352). (DESIGN CHOICE, log entry 91) -/
def trainPc (n : Nat) (pairs : List Nat) (ca : Bool) (s : State) : State :=
  let s0 := setPc s n { pc s n with state := 0, holding := false }
  if ca ∨ 1 < pairs.length then pcRetire n 4 s0
  else match pairs with
    | [v] => if (pc s0 n).erased = v then setPc s0 n { pc s0 n with state := 1 } else pinErase n v 1 s0
    | _ => if (pc s0 n).erased < 18 then setPc s0 n { pc s0 n with state := 1 } else s0

/-- The training result of a stack (event 0x0901). -/
def stackReport (ms st : Nat) (s : State) : State :=
  let mine := (List.range 128).filter fun n => stackOf n == st
  let retired := (mine.filter fun n => (pc s n).state == 2).length
  let erased := (mine.filter fun n => (pc s n).state == 1).length
  raise 0x0901 [st, ms, mine.length - retired - erased, erased, retired] s

/-- HBM_TRAINED: start-up training ends after ms; failing pseudo-channels are listed with their
failing pin pairs and command-address failure, all others pass (R352). Every codeword is zero. -/
def execHbmTrained (ms : Nat) (bad : List (Nat × List Nat × Bool)) (s : State) : Host.Outcome State Fault Refusal :=
  if ¬ s.safe.bootDone.contains 3 ∨ s.safe.bootDone.contains 7 then .next s
  else
    let s1 := setHbm s { s.hbm with mem := [], poison := [], pcs := [], stackSt := [] }
    let s2 := bad.foldl (fun t b => trainPc b.1 b.2.1 b.2.2 t) s1
    let s3 := [0, 1, 2, 3].foldl (fun t st => stackReport ms st t) s2
    .next { s3 with safe := { s3.safe with bootDone := s3.safe.bootDone ++ [7] } }

end Sys2Proof.Machine
end

