-- ==== Sys2Proof/Machine/Host.lean ====
section
/-! DEFINITION. The host interface (chapter 13): PCIe link, BAR0 and BAR2, ring blocks, MSI-X
moderation, receive rings and buffer pools. -/
namespace Sys2Proof.Machine

/-- Replace the host part of the state. -/
def setHost (s : State) (h : HostIf) : State := { s with host := h }

/-! ### Buffer pools (13.7) -/

/-- Pool k's buffer size in bytes. -/
def poolSize (s : State) (k : Nat) : Nat := cfgN s 0x6840 k 0

/-- Pool k is enabled. -/
def poolOn (s : State) (k : Nat) : Bool := cfgOn s 0x6840 k 4

/-- Buffers of pool k that are out. -/
def poolOut (s : State) (k : Nat) : Nat := (s.host.bufs.filter fun r => r.1 / 2 ^ 28 == k).length

/-- Free buffers of pool k (hi.pool[k].free). -/
def poolFree (s : State) (k : Nat) : Nat := if poolOn s k then cfgN s 0x6840 k 1 - poolOut s k else 0

/-- The handle of a buffer (13.5). -/
def handle (k n : Nat) : Nat := k * 2 ^ 28 + n

/-- The address of a buffer by handle. -/
def bufAddr (s : State) (h : Nat) : Nat :=
  cfgN s 0x6840 (h / 2 ^ 28) 3 + h % 2 ^ 28 * poolSize s (h / 2 ^ 28)

/-- The smallest enabled pool of a mask with size at least len; of equal sizes the lowest (R400).
(DESIGN CHOICE, log entry 78) -/
def poolFor (s : State) (mask len : Nat) : Option Nat :=
  ((List.range 16).filter fun k => mask.testBit k && poolOn s k && decide (len ≤ poolSize s k)).foldl
    (fun m k => match m with
      | none => some k
      | some j => if poolSize s k < poolSize s j then some k else some j) none

/-- The largest enabled pool of a mask (R386). -/
def poolLargest (s : State) (mask : Nat) : Option Nat :=
  ((List.range 16).filter fun k => mask.testBit k && poolOn s k).foldl
    (fun m k => match m with
      | none => some k
      | some j => if poolSize s j < poolSize s k then some k else some j) none

/-- Raise POOL_LOW when the free buffers of a pool lie below its mark (R402). -/
def poolLow (k : Nat) (s : State) : State :=
  if poolFree s k < cfgN s 0x6840 k 5 then raiseLimited 0x0A09 k (fun _ => [k, poolFree s k]) s else s

/-- The j-th free buffer number of pool k, counting from number n upward among m numbers.
(DESIGN CHOICE, log entry 78) -/
def nthFree (s : State) (k : Nat) : Nat → Nat → Nat → Option Nat
  | _, _, 0 => none
  | j, n, m + 1 =>
    if (tfind s.host.bufs (handle k n)).isSome then nthFree s k j (n + 1) m
    else match j with
      | 0 => some n
      | i + 1 => nthFree s k i (n + 1) m

/-- Grant one free buffer of pool k to an owner: which one is a free value. (DESIGN CHOICE, log entry 78) -/
def poolTake (k owner : Nat) (s : State) : Option (Nat × State) :=
  if poolFree s k = 0 then none
  else
    let (v, s1) := fresh 32 s
    match nthFree s k (v.toNat % poolFree s k) 0 (cfgN s 0x6840 k 1) with
    | none => none
    | some n =>
      some (handle k n, setHost s1 { s1.host with bufs := tput s1.host.bufs (handle k n) { owner := owner, sharers := [] } })

/-- Take n buffers of pool k. -/
def poolTakeN (k owner : Nat) : Nat → State → Option (List Nat × State)
  | 0, s => some ([], s)
  | n + 1, s => match poolTake k owner s with
    | none => none
    | some (h, s1) => match poolTakeN k owner n s1 with
      | none => none
      | some (hs, s2) => some (h :: hs, s2)

/-- Reserve n buffers of pool k as one request: whole or not at all (R386, R401). -/
def poolReserve (k n owner : Nat) (s : State) : List Nat × State :=
  let s0 := setHost s { s.host with poolLast := tset 255 s.host.poolLast k owner }
  if poolFree s k < n then ([], count 0x6841 k 2 s0)
  else match poolTakeN k owner n s0 with
    | some (hs, s1) => (hs, poolLow k (count 0x6841 k 1 s1))
    | none => ([], count 0x6841 k 2 s0)

/-- GET: one buffer of the smallest fitting pool of a mask, or EMPTY (R400). -/
def poolGet (requester len mask : Nat) (s : State) : Nat × State :=
  let answer := fun (h : Nat) (t : State) => setHost t { t.host with grants := tset 0 t.host.grants requester h }
  match poolFor s mask len with
  | none => (0, answer 0 s)
  | some k => match poolReserve k 1 requester s with
    | (h :: _, s1) => (h + 1, answer (h + 1) s1)
    | ([], s1) => (0, answer 0 s1)

/-- The handle that an address names in an enabled pool, and whether it is on a buffer boundary. -/
def poolAt (s : State) (a : Nat) : Option (Nat × Bool) :=
  match (List.range 16).find? fun k => poolOn s k && decide (cfgN s 0x6840 k 3 ≤ a) &&
      decide (a < cfgN s 0x6840 k 3 + cfgN s 0x6840 k 1 * poolSize s k) with
  | none => none
  | some k =>
    let o := a - cfgN s 0x6840 k 3
    some (handle k (o / max 1 (poolSize s k)), o % max 1 (poolSize s k) == 0)

/-- A refused pool operation: counted, and reported while at most 64 in one second (R402). -/
def poolRefuse (k a owner offender cause shares : Nat) (s : State) : State :=
  let s1 := if cause = 4 then count 0x6842 0 0 s else count 0x6841 k 3 s
  let l := recent s s.host.refusedEvents
  if 64 ≤ l.length then setHost s1 { s1.host with refusedEvents := l }
  else raise 0x0A08 ([k] ++ words32 2 a ++ [owner, offender, cause, shares])
    (setHost s1 { s1.host with refusedEvents := l ++ [raw s] })

/-- What a pool operation does to a buffer. -/
inductive PoolOp where
  | share (sharer : Nat)
  | release
  | handover (owner : Nat)
  | free
  deriving DecidableEq, Repr

/-- A pool operation by a requester on a buffer address, with the checks of R402. badBits: bits
[5:2] of a free-slot write are not 0; foreign: a host write to another requester's slot.
(DESIGN CHOICE, log entry 78) -/
def poolOp (op : PoolOp) (requester a : Nat) (badBits foreign : Bool) (s : State) : State :=
  match poolAt s a with
  | none => poolRefuse 0 a 0 requester 4 0 s
  | some (h, aligned) =>
    let k := h / 2 ^ 28
    let s0 := setHost s { s.host with poolLast := tset 255 s.host.poolLast k requester }
    if !aligned || badBits then poolRefuse k a 0 requester 5 0 s0
    else match tfind s.host.bufs h with
      | none => poolRefuse k a 0 requester 1 0 s0
      | some b =>
        let put := fun (b' : PoolBuf) => setHost s0 { s0.host with bufs := tput s0.host.bufs h b' }
        let no := fun cause => poolRefuse k a b.owner requester cause b.sharers.length s0
        match op with
        | .share sharer =>
          if foreign || b.owner != requester then no 3
          else if 15 ≤ b.sharers.length then s0 else put { b with sharers := b.sharers ++ [sharer] }
        | .release =>
          if foreign || !b.sharers.contains requester then no 3
          else put { b with sharers := b.sharers.erase requester }
        | .handover owner =>
          if b.sharers.length ≠ 0 then no 2
          else if foreign || b.owner != requester then no 3 else put { b with owner := owner }
        | .free =>
          if b.sharers.length ≠ 0 then no 2
          else if foreign || b.owner != requester then no 3
          else setHost s0 { s0.host with bufs := tdel s0.host.bufs h }

/-- GET (R400, R401). -/
def execGet (requester len mask : Nat) (s : State) : Host.Outcome State Fault Refusal :=
  .next (poolGet requester len mask s).2

/-- SHARE (R400, R402). -/
def execShare (requester a sharer : Nat) (s : State) : Host.Outcome State Fault Refusal :=
  .next (poolOp (.share sharer) requester a false false s)

/-- RELEASE of a buffer (R400, R402). -/
def execBufferRelease (requester a : Nat) (s : State) : Host.Outcome State Fault Refusal :=
  .next (poolOp .release requester a false false s)

/-- HANDOVER (R400, R402). -/
def execHandover (requester a owner : Nat) (s : State) : Host.Outcome State Fault Refusal :=
  .next (poolOp (.handover owner) requester a false false s)

/-- FREE (R400, R402). -/
def execFree (requester a : Nat) (s : State) : Host.Outcome State Fault Refusal :=
  .next (poolOp .free requester a false false s)

/-- A host write of the free slot of requester k (R400): the host may write only the slots of
requesters 64 to 191. -/
def poolSlotWrite (k v : Nat) (s : State) : State :=
  let a := v / 64 * 64
  let bad := fld v 5 2 != 0
  let foreign := decide (k < 64) || decide (191 < k)
  match v % 4 with
  | 0 => poolOp .free k a bad foreign s
  | 1 => poolOp .release k a bad foreign s
  | _ => s

/-! ### Rings and BAR0 (13.1, 13.2) -/

/-- The host produces entries of this ring (Table 13-4). -/
def hostProduces (k : Nat) : Bool := k == cmdKey || decide (80 ≤ k)

/-- The ring block is read-only to the host: a device DMA channel (R398). -/
def ringHidden (s : State) (k : Nat) : Bool := decide (144 ≤ k) && decide (cfgN s 0x6830 0 0 ≤ k - 144)

/-- Set or clear a ring's enable (R376). -/
def ringEnable (k : Nat) (on : Bool) (s : State) : State :=
  let r := ring s k
  if on = r.enable then s
  else if on then
    let c := if r.error != 0 && hostProduces k then r.erridx else r.cons
    setRing s k { r with enable := true, stopped := false, error := 0, cons := c }
  else
    let busy := decide (144 ≤ k) && !(tget [] s.host.dma (k - 144)).isEmpty
    let flows := k == cmdKey && s.aw.hostCmds.any fun c => match c.src with
      | .ring _ => true
      | .msg _ => false
    setRing s k { r with enable := false, stopped := r.stopped || !(busy || flows) }

/-- The host advances its own index of a ring; more than 2^n beyond CONS stops it with error 4 (R376). -/
def ringIndexWrite (k : Nat) (v : BitVec 32) (s : State) : State :=
  let r := ring s k
  if hostProduces k then
    let s1 := setRing s k { r with prod := v }
    if r.enable && !r.stopped && decide (ringSize r < (v - r.cons).toNat) then ringFail k 4 r.cons s1 else s1
  else setRing s k { r with cons := v }

/-- The ring that a BAR0 offset lies in, and the register offset in its block (Table 13-1).
(DESIGN CHOICE, log entry 80) -/
def ringAt (off : Nat) : Option (Nat × Nat) :=
  if 0x20000 ≤ off ∧ off < 0x20040 then some (cmdKey, off % 64)
  else if 0x21000 ≤ off ∧ off < 0x21200 then some (evKey ((off - 0x21000) / 64), off % 64)
  else if 0x22000 ≤ off ∧ off < 0x23000 then some (rxKey ((off - 0x22000) / 64), off % 64)
  else if 0x23000 ≤ off ∧ off < 0x24000 then some (txKey ((off - 0x23000) / 64), off % 64)
  else if 0x24000 ≤ off ∧ off < 0x24800 then some (dmaKey ((off - 0x24000) / 64), off % 64)
  else none

/-- Replace the low or high half of a 64-bit register. -/
def half64 (old : BitVec 64) (hi : Bool) (v : BitVec 32) : BitVec 64 :=
  if hi then putBf old 63 32 v.toNat else putBf old 31 0 v.toNat

/-- A 4-byte write into a ring block (Table 13-3). -/
def ringRegWrite (k reg : Nat) (v : BitVec 32) (s : State) : State :=
  let r := ring s k
  if ringHidden s k then s
  else if reg = 0x00 ∨ reg = 0x04 then
    setRing s k { r with base := putBf (half64 r.base (reg == 4) v) 11 0 0 }
  else if reg = 0x08 then
    ringEnable k (bit v 31) (setRing s k { r with
      vector := BitVec.ofNat 6 (bf v 30 25), modUs := BitVec.ofNat 10 (bf v 24 15),
      modCount := BitVec.ofNat 8 (bf v 14 7), log2n := BitVec.ofNat 5 (bf v 4 0) })
  else if reg = 0x0C then (if hostProduces k then ringIndexWrite k v s else s)
  else if reg = 0x10 then (if hostProduces k then s else ringIndexWrite k v s)
  else if reg = 0x20 then
    setRing s k { r with shadow := putBf (half64 r.shadow false v) 2 0 0, shadowEn := bit v 0 }
  else if reg = 0x24 then setRing s k { r with shadow := half64 r.shadow true v }
  else s

/-- A 4-byte write into the MSI-X table; unmasking a pending vector sends its message. (PRESUMED, log entry 79) -/
def msixWrite (off : Nat) (v : BitVec 32) (s : State) : State :=
  let k := off / 16
  let e := tget msixReset s.host.msix k
  let e' := match off % 16 / 4 with
    | 0 => { e with addr := half64 e.addr false v }
    | 1 => { e with addr := half64 e.addr true v }
    | 2 => { e with data := v }
    | _ => { e with ctrl := v }
  let s1 := setHost s { s.host with msix := tset msixReset s.host.msix k e' }
  if bit e.ctrl 0 && !bit e'.ctrl 0 && bit s.host.msixPending k then
    raiseVector k (setHost s1 { s1.host with
      msixPending := s1.host.msixPending &&& ~~~ BitVec.ofNat 64 (2 ^ k) })
  else s1

/-- A write of MBX_CTRL (R46, R47): go is ignored while busy or before cobbler_ready; a go that is taken binds its tag
to the request. -/
def mbxCtrlWrite (v : BitVec 32) (s : State) : State :=
  let m := s.ctl.mbx
  let m1 := { m with ctrlTag := BitVec.ofNat 16 (bf v 31 16), irqEn := bit v 1 }
  let m2 := if bit v 0 && !m.busy && s.safe.cobblerReady then { m1 with goTag := m1.ctrlTag, busy := true } else m1
  { s with ctl := { s.ctl with mbx := m2 } }

/-- A naturally aligned 4-byte write to BAR0 (Table 13-1). -/
def bar0Write4 (off : Nat) (v : BitVec 32) (s : State) : State :=
  if off = 0x8 then setHost s { s.host with bar2 := putBf (half64 s.host.bar2 false v) 29 0 0 }
  else if off = 0xC then setHost s { s.host with bar2 := half64 s.host.bar2 true v }
  else if off = 0x12000 then mbxCtrlWrite v s
  else if off = 0x12004 then
    if bit v 1 then { s with ctl := { s.ctl with mbx := { s.ctl.mbx with done := false } } } else s
  else if 0x100000 ≤ off ∧ off < 0x100400 then msixWrite (off - 0x100000) v s
  else match ringAt off with
    | some (k, reg) => ringRegWrite k reg v s
    | none => s

/-- A write to BAR0 (R373): the request buffer takes any write; elsewhere only naturally aligned
4-byte and 8-byte writes act. The free slots take 8-byte writes. (DESIGN CHOICE, log entry 80) -/
def bar0Write (off : Nat) (data : Bytes) (s : State) : State :=
  if 0x10000 ≤ off ∧ off + data.length ≤ 0x11000 then
    { s with ctl := { s.ctl with mbx := { s.ctl.mbx with
      request := writeBytes s.ctl.mbx.request (off - 0x10000) data } } }
  else if data.length = 8 ∧ off % 8 = 0 then
    if 0x30000 ≤ off ∧ off < 0x30800 then poolSlotWrite ((off - 0x30000) / 8) (leNat data) s
    else bar0Write4 (off + 4) (BitVec.ofNat 32 (leNat (data.drop 4)))
      (bar0Write4 off (BitVec.ofNat 32 (leNat (data.take 4))) s)
  else if data.length = 4 ∧ off % 4 = 0 then bar0Write4 off (BitVec.ofNat 32 (leNat data)) s
  else s

/-- DEV_STATUS (Table 13-2). -/
def devStatus (s : State) : BitVec 32 :=
  BitVec.ofNat 32 (b2n s.safe.cobblerReady + 2 * b2n s.safe.patternActive + 4 * b2n s.safe.outputsStarted +
    8 * b2n (faultN s) + 16 * b2n s.safe.safeStop + 32 * b2n s.safe.bootPatternBad)

/-- RING_ENABLE: the host sets or clears a ring's enable (R376). -/
def execRingEnable (k : Nat) (on : Bool) (s : State) : Host.Outcome State Fault Refusal :=
  if ringHidden s k then .next s else .next (ringEnable k on s)

/-- RING_CONS_WRITE: the host advances the consumer index of an event queue or receive ring (R375). -/
def execRingConsWrite (k : Nat) (v : BitVec 32) (s : State) : Host.Outcome State Fault Refusal :=
  if hostProduces k then .next s else .next (ringIndexWrite k v s)

/-- MSIX_MODERATION_EXPIRY: mod_us has passed since the first entry not yet signalled (R377). -/
def execMsixModerationExpiry (k : Nat) (s : State) : Host.Outcome State Fault Refusal :=
  let r := ring s k
  if k < 144 ∧ r.firstUnsig ≠ 0 ∧ r.modUs ≠ 0 ∧ r.firstUnsig - 1 + r.modUs.toNat * 800 ≤ raw s then
    .next (raiseVector r.vector.toNat (setRing s k { r with unsignalled := 0, firstUnsig := 0 }))
  else .next s

/-! ### BAR2 (R374) -/

/-- Count and report a refused BAR2 access. (DESIGN CHOICE, log entry 80) -/
def bar2Refuse (a : Nat) (s : State) : State :=
  raiseLimited 0x0A0A 0 (fun c => [partOf s a] ++ words32 2 a ++ [c]) (count 0x6801 0 0 s)

/-- BAR2_READ of n bytes at offset o (R374). An access beyond the size of BAR2 does not reach the device (R373).
(DESIGN CHOICE, log entry 92) -/
def execBar2Read (o n : Nat) (s : State) : Host.Outcome State Fault Refusal :=
  let a := s.host.bar2.toNat + o
  if s.host.bar2Size < o + n then .next s
  else if hbmBytes < a + n then .fault (.noSuchHbmAddress a)
  else if partOf s a = 6 ∨ partOf s a = 4 then
    .next (setHost s { s.host with bar2Data := (hbmRead s a n, rangePoisoned s a n) })
  else
    let s1 := bar2Refuse a s
    .next (setHost s1 { s1.host with bar2Data := (List.replicate n 0xFF, false) })

/-- BAR2_WRITE at offset o (R374): a partial codeword is a read-modify-write. (DESIGN CHOICE, log entry 92) -/
def execBar2Write (o : Nat) (data : Bytes) (s : State) : Host.Outcome State Fault Refusal :=
  let a := s.host.bar2.toNat + o
  if s.host.bar2Size < o + data.length then .next s
  else if hbmBytes < a + data.length then .fault (.noSuchHbmAddress a)
  else if partOf s a = 6 then .next (hbmWrite s a data)
  else .next (bar2Refuse a s)

/-! ### The PCIe link (R372, R447) -/

/-- What a link down, hot reset or function-level reset does to the host interface (R372). -/
def hostReset (s : State) : State :=
  let s1 := s.host.rxq.foldl (fun t r => satAdd 0x6821 r.1 5 r.2.length t) s
  let s2 := setHost s1 { s1.host with
    rings := [], bar2 := 0, msix := [], msixPending := 0, dma := [], dmaNote := [], rxq := [],
    txDeficit := [], evLost := s1.host.evLost,
    bufs := s1.host.bufs.filter fun r => !(decide (64 ≤ r.2.owner) && decide (r.2.owner ≤ 191)) }
  { s2 with aw := { s2.aw with hostCmds := s2.aw.hostCmds.filter fun c => match c.src with
    | .ring _ => false
    | .msg _ => true } }

/-- PCIE_LINK_CHANGE: the link goes up or down or changes rate or width; cause 1 training, 2 hot
reset, 3 function-level reset (R372). (DESIGN CHOICE, log entry 104) -/
def execPcieLinkChange (up : Bool) (rate width cause : Nat) (s : State) : Host.Outcome State Fault Refusal :=
  if !s.host.training then .next s
  else
    let s1 := if !up || cause == 2 || cause == 3 then hostReset s else s
    let s2 := setHost s1 { s1.host with rate := if up then rate else 0, width := if up then width else 0 }
    .next (raise 0x0A01 [b2n up, if up then rate else 0, if up then width else 0, cause] s2)

/-- PCIE_PERST_N_RISE: the endpoint starts link training (R447), once the ROM start is complete. -/
def execPciePerstNRise (s : State) : Host.Outcome State Fault Refusal :=
  let s1 : State := { s with safe := { s.safe with perstN := true } }
  .next (setHost s1 { s1.host with training := s.safe.bootDone.contains 3 || s.host.training })

/-- PCIE_PERST_N_FALL: after boot only the host interface is reset (R447, R372). The cause that
event 0x0A01 shows for it is not stated: a free value. -/
def execPciePerstNFall (s : State) : Host.Outcome State Fault Refusal :=
  let s1 : State := { s with safe := { s.safe with perstN := false } }
  let was := s.host.rate
  let s2 := hostReset s1
  let s3 := setHost s2 { s2.host with rate := 0, width := 0, training := false }
  if was = 0 then .next s3
  else
    let (v, s4) := fresh 32 s3
    .next (raise 0x0A01 [0, 0, 0, v.toNat] s4)

/-! ### Receive rings (13.5) -/

/-- Cells of a frame of n bytes: 256-byte cells (R237). -/
def cellsOf (n : Nat) : Nat := (n + 255) / 256

/-- Delivery queue of a receive ring. -/
def rxQueue (s : State) (r : Nat) : List RxFrame := tget [] s.host.rxq r

/-- Replace a delivery queue. -/
def setRxQueue (s : State) (r : Nat) (q : List RxFrame) : State :=
  setHost s { s.host with rxq := tset [] s.host.rxq r q }

/-- Cells on a delivery queue. -/
def rxCells (q : List RxFrame) : Nat := q.foldl (fun n f => n + cellsOf f.data.length) 0

/-- A frame joins a receive ring's delivery queue, or is dropped and counted (R385). -/
def rxEnqueue (r : Nat) (f : RxFrame) (s : State) : State :=
  if !ringLive s (rxKey r) then satAdd 0x6821 r 5 1 s
  else if cfgN s 0x6820 r 2 < rxCells (rxQueue s r) + cellsOf f.data.length then satAdd 0x6821 r 3 1 s
  else setRxQueue s r (rxQueue s r ++ [f])

/-- The pool and number of buffers a frame of len bytes asks for (R386); none: too big. -/
def rxRequest (s : State) (r len : Nat) : Option (Option (Nat × Nat)) :=
  let mask := cfgN s 0x6820 r 0
  match poolFor s mask len with
  | some k => some (some (k, 1))
  | none => match poolLargest s mask with
    | none => some none
    | some k =>
      let n := (len + poolSize s k - 1) / max 1 (poolSize s k)
      if 4 < n then none else some (some (k, n))

/-- Fill buffers with a frame in order from offset 0 (R387). -/
def fillBuffers : List Nat → Bytes → State → State
  | [], _, s => s
  | h :: hs, bs, s =>
    let z := poolSize s (h / 2 ^ 28)
    let a := bufAddr s h
    let s1 := if cfgN s 0x6840 (h / 2 ^ 28) 2 = 1 then hbmWrite s a (bs.take z) else hostWrite s a (bs.take z)
    fillBuffers hs (bs.drop z) s1

/-- A receive completion (Table 13-8). -/
def rxCompletion (f : RxFrame) (hs : List Nat) (phase : Bool) : Bytes :=
  let bufs := (hs ++ List.replicate (4 - hs.length) 0).take 4 |>.foldl (fun a h => a * 2 ^ 32 + h % 2 ^ 32) 0
  leBytes 64 (f.data.length % 2 ^ 14 * 2 ^ 498 + f.source % 16 * 2 ^ 494 + f.port % 1024 * 2 ^ 484 +
    (hs.length - 1) % 4 * 2 ^ 482 + b2n f.truncated * 2 ^ 481 + bf f.ts 47 16 * 2 ^ 416 +
    bf f.ts 15 0 * 2 ^ 400 + b2n phase * 2 ^ 384 + f.parse.toNat * 2 ^ 320 + f.metadata.toNat * 2 ^ 304 +
    bufs * 2 ^ 160)

/-- Try to deliver the head frame of a receive ring (R386, R387). (DESIGN CHOICE, log entry 77) -/
def rxDeliver (r : Nat) (s : State) : State :=
  match rxQueue s r with
  | [] => s
  | f :: rest =>
    let k := rxKey r
    if !ringLive s k || decide (ringSize (ring s k) ≤ ringFill (ring s k)) then s
    else
      let wait := fun (t : State) =>
        if f.refused = 0 then
          satAdd 0x6821 r 6 1 (setRxQueue t r ({ f with refused := raw s + 1 } :: rest)) else t
      match rxRequest s r f.data.length with
      | none => satAdd 0x6821 r 4 1 (setRxQueue s r rest)
      | some none => wait s
      | some (some (pool, n)) => match poolReserve pool n (64 + r) s with
        | ([], s1) => wait s1
        | (hs, s1) =>
          let s2 := setRxQueue (fillBuffers hs f.data s1) r rest
          let s3 := ringProduce k (rxCompletion f hs (phaseOf (ring s2 k))) false s2
          satAdd 0x6821 r 1 f.data.length (satAdd 0x6821 r 0 1 s3)

/-- RX_DELIVER: ring r serves its head frame (R386). -/
def execRxDeliver (r : Nat) (s : State) : Host.Outcome State Fault Refusal := .next (rxDeliver r s)

/-- RX_BUFFER_RETRY: a buffer was freed and the refused reservation is tried again (R387). -/
def execRxBufferRetry (r : Nat) (s : State) : Host.Outcome State Fault Refusal :=
  match rxQueue s r with
  | f :: _ => if f.refused = 0 then .next s else .next (rxDeliver r s)
  | [] => .next s

/-- RX_NOBUF_TIMEOUT: hi.rx.wait has passed since the first refusal, and the head frame is dropped
as RX_NOBUF (R387). -/
def execRxNobufTimeout (r : Nat) (s : State) : Host.Outcome State Fault Refusal :=
  match rxQueue s r with
  | f :: rest =>
    if f.refused = 0 ∨ raw s < f.refused - 1 + cyc (cfgN s 0x6820 r 1) then .next s
    else
      let pool := match rxRequest s r f.data.length with
        | some (some (k, _)) => k
        | _ => 0
      .next (raiseLimited 0x0A05 r (fun c => [r, pool, c]) (satAdd 0x6821 r 2 1 (setRxQueue s r rest)))
  | [] => .next s

end Sys2Proof.Machine
end

