-- ==== Sys2Proof/Machine/Time.lean ====
section
/-! DEFINITION. The time unit (chapter 14): counters, time of day, servo and the 1PPS pins. -/
namespace Sys2Proof.Machine

/-- Replace the time part of the state. -/
def setTime (s : State) (t : TimeUnit) : State := { s with time := t }

/-- Replace the servo. -/
def setServo (s : State) (v : Servo) : State := setTime s { s.time with servo := v }

/-- A function of the change set is in its lasting stop (R62). -/
def fnStopped (s : State) (f : Fn) : Bool :=
  s.ctl.stopped.any fun x => x.1 == f

/-- Nominal increment, 1.25 ns in units of 2^-48 ns (Table 14-1). -/
def incNominal : Nat := 0x0001400000000000

/-- Round to the nearest integer, for a quotient that cannot lie midway. -/
def divNearest (n d : Int) : Int := (2 * n + d) / (2 * d)

/-- The increment at frequency f in units of 2^-8 ppb (R417): incNominal × f / (2^8 × 10^9) is
2^29 f / 5^8. -/
def incOf (f : Int) : Nat := ((incNominal : Int) - divNearest (2 ^ 29 * f) (5 ^ 8)).toNat

/-- One TCLK cycle passes (R405): the counters advance while the clocks run.
(DESIGN CHOICE, log entry 1; DESIGN CHOICE, log entry 93) -/
def tick (s : State) : State :=
  if !s.safe.clocks || s.safe.refclkLost || s.safe.tclkLost then s
  else
    let r := s.time.raw + 1
    setTime s { s.time with
      raw := r
      counter := s.time.counter + BitVec.ofNat 80 s.time.inc
      ms := if r.toNat % 800000 = 0 then s.time.ms + 1 else s.time.ms }

/-! ### Time of day -/

/-- ns since the anchor, extended beyond 32 bits by the raw cycle count, as the Cobbler extends
the seconds (R407). (DESIGN CHOICE, log entry 93) -/
def anchorAge (s : State) : Nat :=
  let d := (counterNs s + 2 ^ 32 - s.time.anchorC.toNat) % 2 ^ 32
  let e := (raw s - s.time.anchorRaw) * 5 / 4
  d + (e + 2 ^ 31 - d) / 2 ^ 32 * 2 ^ 32

/-- TOD as the Cobbler computes it for a new anchor. (DESIGN CHOICE, log entry 93) -/
def todExtended (s : State) : Nat × Nat :=
  let t := s.time.anchorN + anchorAge s
  ((s.time.anchorS + t / 1000000000) % 2 ^ 48, t % 1000000000)

/-- TOD_ANCHOR: the Cobbler writes a new anchor and the time unit switches buffers (R407 to R409).
A TOD set that waits takes effect, so that TOD at the instant of its write was the written value. -/
def execTodAnchor (s : State) : Host.Outcome State Fault Refusal :=
  if !s.safe.cobblerReady then .next s
  else
    let old := todExtended s
    let new_ := match s.time.todSet with
      | some (sec, ns, c) =>
        let t := ns + (counterNs s + 2 ^ 32 - c) % 2 ^ 32
        ((sec + t / 1000000000) % 2 ^ 48, t % 1000000000)
      | none => old
    let age := (raw s - s.time.anchorRaw) / 800000
    let s1 := setTime s { s.time with
      anchorC := BitVec.ofNat 32 (counterNs s), anchorS := new_.1, anchorN := new_.2,
      anchorRaw := raw s, todValid := true, todStale := false, todSet := none,
      stepped := s.time.stepped || s.time.todStale || s.time.todSet.isSome,
      msAnchor := (devMs s, new_.1, new_.2) }
    let s2 := if s.time.todStale then raise 0x0B05 [0, age] s1 else s1
    .next (if s.time.todSet.isSome then raise 0x0B07 (words32 2 old.1 ++ words32 2 new_.1) s2 else s2)

/-- TOD_STALE: the anchor has been in use for 3 s by the raw cycle count (R408). -/
def execTodStale (s : State) : Host.Outcome State Fault Refusal :=
  if s.time.todValid ∧ s.time.anchorRaw + 3 * cycSecond ≤ raw s then
    .next (raise 0x0B05 [1, (raw s - s.time.anchorRaw) / 800000]
      (setTime s { s.time with todValid := false, todStale := true, stepped := true }))
  else .next s

/-- A write of tu.tod.set: it takes effect at the Cobbler's next anchor (R409). -/
def todSet (sec ns : Nat) (s : State) : State :=
  setTime s { s.time with todSet := some (sec % 2 ^ 48, ns, counterNs s) }

/-- TOD_SET: a write of tu.tod.set; ns at or above 10^9 is refused (Table 14-5). (DESIGN CHOICE, log entry 93) -/
def execTodSet (sec ns : Nat) (s : State) : Host.Outcome State Fault Refusal :=
  if ns < 1000000000 then .next (todSet sec ns s) else .next s

/-! ### Servo (14.4) -/

/-- Clamp to ±m. -/
def clampTo (m x : Int) : Int := max (-m) (min m x)

/-- A quotient whose rounding the spec does not state: exact where it is exact, else floor plus
a free bit. (DEDUCED, log entry 94) -/
def divFree (n d : Int) (s : State) : Int × State :=
  if n % d = 0 then (n / d, s)
  else
    let (v, s1) := fresh 1 s
    (n / d + (v.toNat : Int), s1)

/-- Change the servo's state; a change raises event 0x0B02 (R418). (DEDUCED, log entry 94) -/
def servoGo (st : Nat) (s : State) : State :=
  let v := s.time.servo
  if v.state = st then s
  else raise 0x0B02 [st, unsigned32 v.lastOffset, unsigned32 v.freq]
    (setServo s { v with state := st, good := 0, bad := 0 })

/-- The state that follows a sample (Table 14-4). step: the sample made a step. -/
def servoNext (v : Servo) (lock theta : Int) (step : Bool) : Nat × Nat × Nat :=
  let small := decide ((theta.natAbs : Int) < lock)
  let good := if small then v.good + 1 else 0
  let bad := if small then 0 else v.bad + 1
  match v.state with
  | 1 => if 16 ≤ good then (2, 0, 0) else (1, good, 0)
  | 2 => if step || decide (4 ≤ bad) then (1, 0, 0) else (2, 0, bad)
  | _ => (1, if small then 1 else 0, 0)

/-- Set f and with it the increment, from the next cycle (R417). -/
def setFreq (f : Int) (s : State) : State :=
  setTime s { s.time with servo := { s.time.servo with freq := f }, inc := incOf f }

/-- The servo takes a sample now (R417, R418). A step moves the nanosecond counter and with it device time (R336).
(DEDUCED, log entry 94) -/
def servoTake (theta : Int) (s : State) : State :=
  let v := s.time.servo
  if v.state = 3 ∧ cfgOn s 0x7028 0 0 then count 0x702C 0 2 s
  else
    let s1 := setServo (count 0x702C 0 0 s) { v with lastOffset := theta, lastSample := raw s }
    let isStep := decide ((cfgN s 0x7024 0 0 : Int) ≤ (theta.natAbs : Int))
    let s2 :=
      if isStep then
        let c := s1.time.counter - BitVec.ofInt 80 (theta * 2 ^ 48)
        raise 0x0B03 [unsigned32 theta, v.state] (count 0x702C 0 1 (setTime s1 { s1.time with counter := c, stepped := true }))
      else
        let m : Int := (cfgN s 0x7025 0 0 : Int) * 256
        let (ki, t1) := divFree ((cfgN s 0x7023 0 0 : Int) * theta) 256 s1
        let i := clampTo m (v.integral + ki)
        let (kp, t2) := divFree ((cfgN s 0x7022 0 0 : Int) * theta) 256 t1
        setFreq (clampTo m (kp + i)) (setServo t2 { t2.time.servo with integral := i })
    let (st, good, bad) := servoNext v (cfgN s 0x7026 0 0) theta isStep
    let s3 := servoGo st s2
    setServo s3 { s3.time.servo with good := good, bad := bad }

/-- A sample arrives: it waits during a lasting stop of the time unit (R422). (DEDUCED, log entry 94) -/
def servoSample (theta : Int) (s : State) : State :=
  if fnStopped s .timeUnit then
    setServo s { s.time.servo with waiting := s.time.servo.waiting ++ [theta] }
  else servoTake theta s

/-- Samples that waited are served after the restart (R422). -/
def servoResume (s : State) : State :=
  s.time.servo.waiting.foldl (fun t th => servoTake th t) (setServo s { s.time.servo with waiting := [] })

/-- A write of tu.servo.offset (R416): ignored and counted while the source is PPS_IN. -/
def servoWrite (theta : Int) (s : State) : State :=
  if cfgN s 0x7020 0 0 = 1 then count 0x702C 0 2 s else servoSample theta s

/-- SERVO_OFFSET_WRITE (R416, R417). -/
def execServoOffsetWrite (theta : Int) (s : State) : Host.Outcome State Fault Refusal :=
  .next (servoWrite theta s)

/-- Enter holdover from LOCKING or LOCKED: f = I (Table 14-4). -/
def servoHold (s : State) : State :=
  if s.time.servo.state = 1 ∨ s.time.servo.state = 2 then servoGo 3 (setFreq s.time.servo.integral s) else s

/-- SERVO_HOLDOVER: no sample for holdover_after, or hold set to 1 (R418). -/
def execServoHoldover (s : State) : Host.Outcome State Fault Refusal :=
  if cfgOn s 0x7028 0 0 ∨ s.time.servo.lastSample + cyc (cfgN s 0x7027 0 0) ≤ raw s then .next (servoHold s)
  else .next s

/-- A write of 1 to tu.servo.reset (Table 14-4). -/
def servoReset (s : State) : State :=
  let s1 := setFreq 0 (setServo s { s.time.servo with integral := 0, good := 0, bad := 0 })
  servoGo 0 s1

/-- SERVO_RESET (R418). -/
def execServoReset (s : State) : Host.Outcome State Fault Refusal := .next (servoReset s)

/-! ### 1PPS pins (14.5) -/

/-- Picoseconds as units of 2^-16 ns, rounded down. (DESIGN CHOICE, log entry 93) -/
def psFrac (ps : Int) : Int := ps * 65536 / 1000

/-- TOD nanoseconds mapped into -500,000,000 to 499,999,999 (R420). (DESIGN CHOICE, log entry 93) -/
def ppsOffset (ns : Nat) : Int := if ns < 500000000 then ns else (ns : Int) - 1000000000

/-- PPS_IN_EDGE: a rising edge of PPS_IN now (R420). (DESIGN CHOICE, log entry 93) -/
def execPpsInEdge (s : State) : Host.Outcome State Fault Refusal :=
  if !cfgOn s 0x7030 0 3 then .next s
  else if s.time.ppsLast ≠ 0 ∧ raw s < s.time.ppsLast - 1 + cycSecond / 2 then .next (count 0x7030 0 6 s)
  else
    let stamp := stampNow s - BitVec.ofInt 48 (psFrac (cfgI s 0x7030 0 4))
    let t := todAt s (bf stamp 47 16)
    let s1 := setTime s { s.time with
      ppsTs := (bf stamp 47 16, bf stamp 15 0, t.1, t.2), ppsLast := raw s + 1 }
    .next (if cfgN s 0x7020 0 0 = 1 then servoSample (ppsOffset t.2) s1 else s1)

/-- PPS_IN_LOST: 1.5 s without an accepted edge (R420). -/
def execPpsInLost (s : State) : Host.Outcome State Fault Refusal :=
  let last := s.time.ppsLast - 1
  if cfgOn s 0x7030 0 3 ∧ last + cycSecond * 3 / 2 ≤ raw s then
    .next (raiseLimited 0x0B04 0 (fun _ => [(raw s - last) / cycSecond]) s)
  else .next s

/-- PPS_OUT is driven: enabled, TOD valid, no reset and no safe stop (R419, R445, R471). -/
def ppsEnabled (s : State) : Bool :=
  cfgOn s 0x7030 0 0 && s.time.todValid && s.safe.outputsStarted && !s.safe.safeStop

/-- PPS_OUT_RISE: tod.ns passed 0 plus out_delay within the last TCLK cycle (R419). -/
def execPpsOutRise (s : State) : Host.Outcome State Fault Refusal :=
  let ps : Int := ((tod s).2 : Int) * 1000 - cfgI s 0x7030 0 2
  if ppsEnabled s ∧ !s.time.ppsOut ∧ ps % 1000000000000 < 1251 then
    .next (setTime s { s.time with ppsOut := true, ppsRise := raw s })
  else .next s

/-- PPS_OUT_FALL: pps.width has passed since the rise (R419). -/
def execPpsOutFall (s : State) : Host.Outcome State Fault Refusal :=
  if s.time.ppsOut ∧ s.time.ppsRise + cyc (cfgN s 0x7030 0 1) ≤ raw s then
    .next (setTime s { s.time with ppsOut := false })
  else .next s

end Sys2Proof.Machine
end

