-- ==== Sys2Proof/Machine/Image.lean ====
section
/-! DEFINITION. Pattern images (R56), the banks (R64), and live and staged values of objects. -/
namespace Sys2Proof.Machine

/-- Replace the control part of the state. -/
def setCtl (s : State) (c : Control) : State := { s with ctl := c }

/-- Directory and sections of an image of given objects and banked tables: the spec does not lay
them out, so nothing is known of these bytes. (DESIGN CHOICE, log entry 11) -/
opaque Config.imageBody : Tbl Bytes → Banked → Bytes

/-- Number of directory entries of an image. (DESIGN CHOICE, log entry 11) -/
opaque Config.imageSections : Tbl Bytes → Banked → Nat

/-- What the directory and sections of an image hold; none: the directory is inconsistent.
(DESIGN CHOICE, log entry 11) -/
opaque Config.imageParse : Bytes → Option (Tbl Bytes × Banked)

/-- The bank of an epoch: epoch modulo 2 (R64, R124). -/
def bankOf (s : State) (e : Nat) : Banked := if e % 2 = 0 then s.ctl.bank0 else s.ctl.bank1

/-- Replace the bank of an epoch. -/
def setBank (s : State) (e : Nat) (b : Banked) : State :=
  if e % 2 = 0 then setCtl s { s.ctl with bank0 := b } else setCtl s { s.ctl with bank1 := b }

/-- The free bank: the bank that the active epoch does not use (R64). -/
def freeBank (s : State) : Banked := bankOf s (s.ctl.epoch + 1)

/-- Replace the free bank. -/
def setFreeBank (s : State) (b : Banked) : State := setBank s (s.ctl.epoch + 1) b

/-- A slot by its number (Table 2-8). -/
def slotOf (s : State) (n : Nat) : Slot :=
  match n with
  | 0 => s.ctl.active
  | 1 => s.ctl.staged
  | 2 => s.ctl.previous
  | _ => s.ctl.boot

/-- Replace a slot by its number. -/
def setSlot (s : State) (n : Nat) (x : Slot) : State :=
  match n with
  | 0 => setCtl s { s.ctl with active := x }
  | 1 => setCtl s { s.ctl with staged := x }
  | 2 => setCtl s { s.ctl with previous := x }
  | _ => setCtl s { s.ctl with boot := x }

/-- The banked tables that belong to a slot (R45). (DESIGN CHOICE, log entry 11) -/
def slotTables (s : State) (n : Nat) : Banked :=
  match n with
  | 0 => bankOf s s.ctl.epoch
  | 1 => freeBank s
  | 2 => s.ctl.previous.tables
  | _ => s.ctl.boot.tables

/-- The image header (Table 2-9) as 32 bytes. -/
def imageHeader (x : Slot) (sections length crc : Nat) (signed : Bool) : Bytes :=
  leBytes 32 (sections % 2 ^ 16 * 2 ^ 160 + b2n signed * 2 ^ 128 + crc % 2 ^ 32 * 2 ^ 96 +
    length % 2 ^ 32 * 2 ^ 64 + x.version.toNat * 2 ^ 32 + x.device.toNat * 2 ^ 16 + x.format.toNat)

/-- CRC of a slot's image, the crc field taken as zero (R56). -/
def imageCrc (x : Slot) (t : Banked) : Nat :=
  let body := Config.imageBody x.objs t
  crc32c (imageHeader x (Config.imageSections x.objs t) (32 + body.length) 0 (!x.signature.isEmpty) ++ body)

/-- The image of a slot with its tables (R45, R56). -/
def slotImage (x : Slot) (t : Banked) : Bytes :=
  let body := Config.imageBody x.objs t
  imageHeader x (Config.imageSections x.objs t) (32 + body.length) (imageCrc x t) (!x.signature.isEmpty)
    ++ body ++ x.signature

/-- The reserved fields of an object's value (R10; Tables 3-1, 3-2, 9-2 and 10-5, R429). -/
def objReserved (a : Nat) : List (Nat × Nat) :=
  match oaIndex a with
  | 0x2008 => [(62, 60)]
  | 0x2009 => [(62, 60)]
  | 0x3000 => [(123, 120), (63, 0)]
  | 0x3001 => [(16, 0)]
  | 0x5820 => [(73, 0)]
  | 0x7800 => [(30, 16)]
  | _ => []

/-- A value written to an object, its reserved fields 0 (R10). -/
def objClean (a : Nat) (v : Bytes) : Bytes :=
  match objReserved a with
  | [] => v
  | l => leBytes v.length (l.foldl (fun n r => putFld n r.1 r.2 0) (leNat v))

/-- The slot and tables that an image holds (R56): the state is EDITING; consistent says whether
length, directory and CRC agree (check 0x0102). -/
def parseImage (img : Bytes) : Slot × Banked :=
  let h := leNat (img.take 32)
  let len := fld h 95 64
  let body := slice img 32 (len - 32)
  let signed := fld h 128 128 == 1
  let sig := if signed then slice img len 96 else []
  let zeroed := leBytes 32 (putFld h 127 96 0) ++ body
  let (objs, tables, ok) := match Config.imageParse body with
    | some (o, t) => (o, t, true)
    | none => ([], emptyBank, false)
  ({ state := 1, version := BitVec.ofNat 32 (fld h 63 32), crc := BitVec.ofNat 32 (fld h 127 96),
     format := BitVec.ofNat 16 h, device := BitVec.ofNat 16 (fld h 31 16),
     consistent := ok && decide (32 ≤ len) && decide (img.length = len + sig.length) &&
       decide (sig.length = if signed then 96 else 0) && decide (crc32c zeroed = fld h 127 96),
     objs := objs.map fun r => (r.1, objClean r.1 r.2), tables := emptyBank, signature := sig }, tables)

/-- Recompute the CRC of the active slot (R57). -/
def recrcActive (s : State) : State :=
  setCtl s { s.ctl with active := { s.ctl.active with
    crc := BitVec.ofNat 32 (imageCrc s.ctl.active (bankOf s s.ctl.epoch)) } }

/-- Store the value of an object live: only the active slot changes (R57); access keys go to the
key store (R52). (DESIGN CHOICE, log entry 16) -/
def liveSet (a : Nat) (v : Bytes) (s : State) : State :=
  let s1 := if oaIndex a = 0x1020 then setCtl s { s.ctl with keys := tput s.ctl.keys a v }
    else recrcActive (setCtl s { s.ctl with active := { s.ctl.active with
      objs := tput s.ctl.active.objs a (objClean a v), signature := [] } })
  setCtl s1 { s1.ctl with liveEdits := s1.ctl.liveEdits + 1 }

/-- A stage object: banked with the rules (R64, R90, R102). -/
def isStageObj (a : Nat) : Bool := decide (0x3010 ≤ oaIndex a) && decide (oaIndex a ≤ 0x3013)

/-- The value of a stage object in a bank. -/
def stageB (b : Banked) (a : Nat) : Bytes := (tfind b.stage a).getD (objDflt [] a)

/-- The numeric value of a stage object in a bank. -/
def stageN (b : Banked) (index g st : Nat) : Nat := leNat (stageB b (oa index g st))

/-- Recompute the CRC of the staged slot (R56). -/
def recrcStaged (s : State) : State :=
  setCtl s { s.ctl with staged := { s.ctl.staged with
    crc := BitVec.ofNat 32 (imageCrc s.ctl.staged (freeBank s)) } }

/-- Mark the staged slot edited: the generation advances (R58), and the slot is no longer the signed image (R45). -/
def stagedEdit (s : State) : State :=
  recrcStaged (setCtl s { s.ctl with
    generation := s.ctl.generation + 1,
    staged := { s.ctl.staged with state := 1, signature := [] } })

/-- Set every entry of rule stage st of group g to zero (R90). -/
def zeroStage (g st : Nat) (b : Banked) : Banked :=
  { b with rules := b.rules.filter fun r => r.1 / 2 ^ 20 != 4 * g + st }

/-- Store the value of an object in the staged pattern; access keys go to the key store (R52). A
stage object reaches its bank when the pattern commits (R64). A stage's profile or units zero its entries in the free
bank (R90); while a drain is pending, that bank still serves packets, and drainEnd does it.
(DESIGN CHOICE, log entry 108) -/
def stagedSet (a : Nat) (v : Bytes) (s : State) : State :=
  if oaIndex a = 0x1020 then setCtl s { s.ctl with keys := tput s.ctl.keys a v }
  else
    let s1 := setCtl s { s.ctl with staged := { s.ctl.staged with objs := tput s.ctl.staged.objs a (objClean a v) } }
    if (oaIndex a = 0x3010 ∨ oaIndex a = 0x3011) ∧ s.ctl.drain.isNone then
      setFreeBank s1 (zeroStage (oaInst a) (oaSub a) (freeBank s1))
    else s1

/-- The value of a configuration object in the staged pattern. -/
def stagedB (s : State) (a : Nat) : Bytes :=
  if oaIndex a = 0x1020 then cfgB s a
  else (tfind s.ctl.staged.objs a).getD (objDflt s.safe.boardMgmt a)

end Sys2Proof.Machine
end

