-- ==== Sys2Proof/Machine/Counters.lean ====
section
/-! DEFINITION. Event counters, chaining, snapshot dumps and port bandwidth (15.1 to 15.4). -/
namespace Sys2Proof.Machine

/-- Replace the counter part of the state. -/
def setCnt (s : State) (c : Counters) : State := { s with cnt := c }

/-! ### Chaining (15.2) -/

/-- Whether a write of ct.chain[i] is refused with RANGE: a spare as source, or a source that
another entry chains (R429). -/
def chainRefused (s : State) (i : Nat) (v : BitVec 32) : Bool :=
  bit v 31 && (decide (0xF100 ≤ bf v 15 0) || match chainOf s (bf v 15 0) with
    | some j => j != i
    | none => false)

/-- What a write of ct.chain[i] does: the spare is cleared and reported (R429). -/
def chainEffect (i : Nat) (s : State) : State :=
  let s1 := ctrSet s (ctrCell (0xF100 + i)) 0
  raise 0x0C02 [0xF100 + i] (setCnt s1 { s1.cnt with restarted := true })

/-- CHAIN_WRITE: a live write of a chain entry (R429), refused during a commit (R61). -/
def execChainWrite (i : Nat) (v : BitVec 32) (s : State) : Host.Outcome State Fault Refusal :=
  if 3840 ≤ i ∨ s.ctl.commit.isSome ∨ chainRefused s i v then .next s
  else .next (chainEffect i (liveSet (oa 0x7800 i 0) (leBytes 4 v.toNat) s))

/-- COUNTER_RESTART: the stored word of a counter is read uncorrectable; it restarts at 0 (R428). -/
def execCounterRestart (id : Nat) (s : State) : Host.Outcome State Fault Refusal :=
  let s1 := ctrSet s (ctrAddr id) 0
  .next (raise 0x0C02 [id] (setCnt s1 { s1.cnt with restarted := true }))

/-! ### Dumps (15.3) -/

/-- The bandwidth entry of a port: rx_last, tx_last, rx_peak, tx_peak (R435). (DESIGN CHOICE, log entry 52) -/
def bwOf (s : State) (q : Nat) : List Nat := tget [0, 0, 0, 0] s.cnt.bw q

/-- Bytes of a bandwidth entry. -/
def bwBytes (l : List Nat) : Bytes := l.flatMap (leBytes 8)

/-- Bytes of a dump slot (ct.dump.slot_bytes). -/
def dumpSlotBytes (s : State) : Nat :=
  let n := 64 + 8 * cfgN s 0x7812 0 0 + (if cfgOn s 0x7813 0 0 then 32768 else 0)
  (n + 63) / 64 * 64

/-- The dump record of a snapshot now (Table 15-2): header, values, bandwidth section, padding. -/
def dumpRecord (s : State) (triggered : Bool) (tag : Nat) : Bytes :=
  let first := cfgN s 0x7811 0 0
  let cnt := cfgN s 0x7812 0 0
  let bw := cfgOn s 0x7813 0 0
  let vals := (List.range cnt).flatMap fun i => leBytes 8 (ctrGet s (ctrAddr (first + i)))
  let body := vals ++ (if bw then (List.range 1024).flatMap fun q => bwBytes (bwOf s q) else [])
  let t := tod s
  let flags := b2n triggered + 2 * b2n bw + 4 * b2n s.cnt.restarted + 8 * b2n (s.cnt.lostSince != 0)
  let h := 1 * 2 ^ 504 + flags * 2 ^ 496 + first * 2 ^ 480 + (cnt - 1) * 2 ^ 464 + s.cnt.dumpSeq * 2 ^ 432 +
    (64 + body.length) * 2 ^ 400 + t.1 * 2 ^ 352 + t.2 * 2 ^ 320 + raw s * 2 ^ 256 + tag % 2 ^ 32 * 2 ^ 224 +
    s.cnt.lostSince % 2 ^ 32 * 2 ^ 192 + crc32c body * 2 ^ 160
  padMul 64 (leBytes 64 h ++ body)

/-- The dump ring has no room: produced - consumed equals the ring size (R432). (DESIGN CHOICE, log entry 52) -/
def dumpFull (s : State) : Bool :=
  (s.cnt.produced.toNat + 2 ^ 32 - cfgN s 0x7819 0 0) % 2 ^ 32 == cfgN s 0x7816 0 0

/-- Take a snapshot now, or lose it (R430, R432, R435). (DESIGN CHOICE, log entry 52) -/
def takeSnapshot (triggered : Bool) (tag : Nat) (s : State) : State :=
  if cfgN s 0x7815 0 0 = 0 then s
  else
    let seq := (s.cnt.dumpSeq + 1) % 2 ^ 32
    if 2 ≤ s.cnt.snaps.length ∨ dumpFull s then
      let s1 := count 0x7850 0 1 (setCnt s { s.cnt with dumpSeq := seq, lostSince := s.cnt.lostSince + 1 })
      raiseLimited 0x0C01 0 (fun c => [c, s.cnt.produced.toNat, cfgN s 0x7819 0 0]) s1
    else
      setCnt s { s.cnt with
        dumpSeq := seq, snaps := s.cnt.snaps ++ [dumpRecord s triggered tag], lostSince := 0,
        restarted := false,
        bw := (s.cnt.bw.map fun r => (r.1, r.2.take 2 ++ [0, 0])).filter fun r => r.2 != [0, 0, 0, 0] }

/-- DUMP_SNAPSHOT: the period of ct.dump.period has passed on the raw cycle count (R430). -/
def execDumpSnapshot (s : State) : Host.Outcome State Fault Refusal :=
  if s.cnt.lastPeriodic + cyc (cfgN s 0x7810 0 0) ≤ raw s then
    .next (takeSnapshot false 0 (setCnt s { s.cnt with lastPeriodic := raw s }))
  else .next s

/-- DUMP_NOW: a write of ct.dump.now requests a snapshot (R430). -/
def execDumpNow (s : State) : Host.Outcome State Fault Refusal := .next (takeSnapshot true 0 s)

/-- DUMP_WRITE: the oldest snapshot is written as a dump record and produced advances (R431). In a
lasting stop of telemetry records wait (R434). -/
def execDumpWrite (s : State) : Host.Outcome State Fault Refusal :=
  match s.cnt.snaps with
  | [] => .next s
  | r :: rest =>
    if fnStopped s .telemetry ∨ dumpFull s then .next s
    else
      let slots := max 1 (cfgN s 0x7816 0 0)
      let a := cfgN s 0x7815 0 0 + s.cnt.produced.toNat % slots * dumpSlotBytes s
      let s1 := if cfgN s 0x7814 0 0 = 0 then hbmWrite s a r else hostWrite s a r
      .next (count 0x7850 0 0 (setCnt s1 { s1.cnt with snaps := rest, produced := s1.cnt.produced + 1 }))

/-! ### Port bandwidth (15.4) -/

/-- Credit octets to the window in progress of a port (R435). (DESIGN CHOICE, log entry 52) -/
def bwCredit (q rx tx : Nat) (s : State) : State :=
  let l := tget [0, 0] s.cnt.bwNow q
  setCnt s { s.cnt with bwNow := tset [0, 0] s.cnt.bwNow q [l.getD 0 0 + rx, l.getD 1 0 + tx] }

/-- A change of a port's window length discards the window in progress (R435). -/
def bwDiscard (q : Nat) (s : State) : State := setCnt s { s.cnt with bwNow := tset [0, 0] s.cnt.bwNow q [0, 0] }

/-- BW_WINDOW: a bandwidth window of port q ends, at a raw-cycle multiple of its length (R435). -/
def execBwWindow (q : Nat) (s : State) : Host.Outcome State Fault Refusal :=
  if raw s % max 1 (cyc (cfgN s 0x7820 q 0)) ≠ 0 then .next s
  else
    let n := tget [0, 0] s.cnt.bwNow q
    let b := bwOf s q
    let rx := n.getD 0 0
    let tx := n.getD 1 0
    .next (setCnt s { s.cnt with
      bw := tset [0, 0, 0, 0] s.cnt.bw q [rx, tx, max rx (b.getD 2 0), max tx (b.getD 3 0)],
      bwNow := tset [0, 0] s.cnt.bwNow q [0, 0] })

end Sys2Proof.Machine
end

