-- ==== Sys2Proof/Machine/Crypto.lean ====
section
/-! DEFINITION. The cryptographic functions the spec names by their standards: SHA-256, SHA-384,
HMAC (R50, R451), ECDSA P-384 verification (R56, R450), AES-256-GCM (R451), the counter-mode KDF of
NIST SP 800-108 (R451), and the AES S-box that seeds the flow hashes use (R131). -/
namespace Sys2Proof.Machine

/-- The AES S-box (FIPS 197). -/
def aesSbox : List Nat := [
    0x63, 0x7C, 0x77, 0x7B, 0xF2, 0x6B, 0x6F, 0xC5, 0x30, 0x01, 0x67, 0x2B, 0xFE, 0xD7, 0xAB, 0x76,
    0xCA, 0x82, 0xC9, 0x7D, 0xFA, 0x59, 0x47, 0xF0, 0xAD, 0xD4, 0xA2, 0xAF, 0x9C, 0xA4, 0x72, 0xC0,
    0xB7, 0xFD, 0x93, 0x26, 0x36, 0x3F, 0xF7, 0xCC, 0x34, 0xA5, 0xE5, 0xF1, 0x71, 0xD8, 0x31, 0x15,
    0x04, 0xC7, 0x23, 0xC3, 0x18, 0x96, 0x05, 0x9A, 0x07, 0x12, 0x80, 0xE2, 0xEB, 0x27, 0xB2, 0x75,
    0x09, 0x83, 0x2C, 0x1A, 0x1B, 0x6E, 0x5A, 0xA0, 0x52, 0x3B, 0xD6, 0xB3, 0x29, 0xE3, 0x2F, 0x84,
    0x53, 0xD1, 0x00, 0xED, 0x20, 0xFC, 0xB1, 0x5B, 0x6A, 0xCB, 0xBE, 0x39, 0x4A, 0x4C, 0x58, 0xCF,
    0xD0, 0xEF, 0xAA, 0xFB, 0x43, 0x4D, 0x33, 0x85, 0x45, 0xF9, 0x02, 0x7F, 0x50, 0x3C, 0x9F, 0xA8,
    0x51, 0xA3, 0x40, 0x8F, 0x92, 0x9D, 0x38, 0xF5, 0xBC, 0xB6, 0xDA, 0x21, 0x10, 0xFF, 0xF3, 0xD2,
    0xCD, 0x0C, 0x13, 0xEC, 0x5F, 0x97, 0x44, 0x17, 0xC4, 0xA7, 0x7E, 0x3D, 0x64, 0x5D, 0x19, 0x73,
    0x60, 0x81, 0x4F, 0xDC, 0x22, 0x2A, 0x90, 0x88, 0x46, 0xEE, 0xB8, 0x14, 0xDE, 0x5E, 0x0B, 0xDB,
    0xE0, 0x32, 0x3A, 0x0A, 0x49, 0x06, 0x24, 0x5C, 0xC2, 0xD3, 0xAC, 0x62, 0x91, 0x95, 0xE4, 0x79,
    0xE7, 0xC8, 0x37, 0x6D, 0x8D, 0xD5, 0x4E, 0xA9, 0x6C, 0x56, 0xF4, 0xEA, 0x65, 0x7A, 0xAE, 0x08,
    0xBA, 0x78, 0x25, 0x2E, 0x1C, 0xA6, 0xB4, 0xC6, 0xE8, 0xDD, 0x74, 0x1F, 0x4B, 0xBD, 0x8B, 0x8A,
    0x70, 0x3E, 0xB5, 0x66, 0x48, 0x03, 0xF6, 0x0E, 0x61, 0x35, 0x57, 0xB9, 0x86, 0xC1, 0x1D, 0x9E,
    0xE1, 0xF8, 0x98, 0x11, 0x69, 0xD9, 0x8E, 0x94, 0x9B, 0x1E, 0x87, 0xE9, 0xCE, 0x55, 0x28, 0xDF,
    0x8C, 0xA1, 0x89, 0x0D, 0xBF, 0xE6, 0x42, 0x68, 0x41, 0x99, 0x2D, 0x0F, 0xB0, 0x54, 0xBB, 0x16]

/-- One byte through the S-box. -/
def sbox (b : Byte) : Byte := BitVec.ofNat 8 (aesSbox.getD b.toNat 0)

/-- Big-endian value of bytes. -/
def beVal (bs : Bytes) : Nat := bs.foldl (fun a b => a * 256 + b.toNat) 0

/-- n bytes of a value, most significant first. -/
def beOut : Nat → Nat → Bytes
  | 0, _ => []
  | n + 1, v => beOut n (v / 256) ++ [BitVec.ofNat 8 v]

/-! ### SHA-2 (FIPS 180-4) -/

/-- Round constants of SHA-256. -/
def sha256K : List Nat := [
    0x428A2F98, 0x71374491, 0xB5C0FBCF, 0xE9B5DBA5, 0x3956C25B, 0x59F111F1, 0x923F82A4, 0xAB1C5ED5,
    0xD807AA98, 0x12835B01, 0x243185BE, 0x550C7DC3, 0x72BE5D74, 0x80DEB1FE, 0x9BDC06A7, 0xC19BF174,
    0xE49B69C1, 0xEFBE4786, 0x0FC19DC6, 0x240CA1CC, 0x2DE92C6F, 0x4A7484AA, 0x5CB0A9DC, 0x76F988DA,
    0x983E5152, 0xA831C66D, 0xB00327C8, 0xBF597FC7, 0xC6E00BF3, 0xD5A79147, 0x06CA6351, 0x14292967,
    0x27B70A85, 0x2E1B2138, 0x4D2C6DFC, 0x53380D13, 0x650A7354, 0x766A0ABB, 0x81C2C92E, 0x92722C85,
    0xA2BFE8A1, 0xA81A664B, 0xC24B8B70, 0xC76C51A3, 0xD192E819, 0xD6990624, 0xF40E3585, 0x106AA070,
    0x19A4C116, 0x1E376C08, 0x2748774C, 0x34B0BCB5, 0x391C0CB3, 0x4ED8AA4A, 0x5B9CCA4F, 0x682E6FF3,
    0x748F82EE, 0x78A5636F, 0x84C87814, 0x8CC70208, 0x90BEFFFA, 0xA4506CEB, 0xBEF9A3F7, 0xC67178F2]

/-- Initial hash value of SHA-256. -/
def sha256H : List Nat := [
    0x6A09E667, 0xBB67AE85, 0x3C6EF372, 0xA54FF53A, 0x510E527F, 0x9B05688C, 0x1F83D9AB, 0x5BE0CD19]

/-- Round constants of SHA-384. -/
def sha384K : List Nat := [
    0x428A2F98D728AE22, 0x7137449123EF65CD, 0xB5C0FBCFEC4D3B2F, 0xE9B5DBA58189DBBC,
    0x3956C25BF348B538, 0x59F111F1B605D019, 0x923F82A4AF194F9B, 0xAB1C5ED5DA6D8118,
    0xD807AA98A3030242, 0x12835B0145706FBE, 0x243185BE4EE4B28C, 0x550C7DC3D5FFB4E2,
    0x72BE5D74F27B896F, 0x80DEB1FE3B1696B1, 0x9BDC06A725C71235, 0xC19BF174CF692694,
    0xE49B69C19EF14AD2, 0xEFBE4786384F25E3, 0x0FC19DC68B8CD5B5, 0x240CA1CC77AC9C65,
    0x2DE92C6F592B0275, 0x4A7484AA6EA6E483, 0x5CB0A9DCBD41FBD4, 0x76F988DA831153B5,
    0x983E5152EE66DFAB, 0xA831C66D2DB43210, 0xB00327C898FB213F, 0xBF597FC7BEEF0EE4,
    0xC6E00BF33DA88FC2, 0xD5A79147930AA725, 0x06CA6351E003826F, 0x142929670A0E6E70,
    0x27B70A8546D22FFC, 0x2E1B21385C26C926, 0x4D2C6DFC5AC42AED, 0x53380D139D95B3DF,
    0x650A73548BAF63DE, 0x766A0ABB3C77B2A8, 0x81C2C92E47EDAEE6, 0x92722C851482353B,
    0xA2BFE8A14CF10364, 0xA81A664BBC423001, 0xC24B8B70D0F89791, 0xC76C51A30654BE30,
    0xD192E819D6EF5218, 0xD69906245565A910, 0xF40E35855771202A, 0x106AA07032BBD1B8,
    0x19A4C116B8D2D0C8, 0x1E376C085141AB53, 0x2748774CDF8EEB99, 0x34B0BCB5E19B48A8,
    0x391C0CB3C5C95A63, 0x4ED8AA4AE3418ACB, 0x5B9CCA4F7763E373, 0x682E6FF3D6B2B8A3,
    0x748F82EE5DEFB2FC, 0x78A5636F43172F60, 0x84C87814A1F0AB72, 0x8CC702081A6439EC,
    0x90BEFFFA23631E28, 0xA4506CEBDE82BDE9, 0xBEF9A3F7B2C67915, 0xC67178F2E372532B,
    0xCA273ECEEA26619C, 0xD186B8C721C0C207, 0xEADA7DD6CDE0EB1E, 0xF57D4F7FEE6ED178,
    0x06F067AA72176FBA, 0x0A637DC5A2C898A6, 0x113F9804BEF90DAE, 0x1B710B35131C471B,
    0x28DB77F523047D84, 0x32CAAB7B40C72493, 0x3C9EBE0A15C9BEBC, 0x431D67C49C100D4C,
    0x4CC5D4BECB3E42B6, 0x597F299CFC657E2A, 0x5FCB6FAB3AD6FAEC, 0x6C44198C4A475817]

/-- Initial hash value of SHA-384. -/
def sha384H : List Nat := [
    0xCBBB9D5DC1059ED8, 0x629A292A367CD507, 0x9159015A3070DD17, 0x152FECD8F70E5939,
    0x67332667FFC00B31, 0x8EB44A8768581511, 0xDB0C2E0D64F98FA7, 0x47B5481DBEFA4FA4]

/-- What differs between SHA-256 and SHA-384: word bits, rotation amounts, constants. -/
structure ShaKind where
  w : Nat
  a : Nat × Nat × Nat
  e : Nat × Nat × Nat
  s0 : Nat × Nat × Nat
  s1 : Nat × Nat × Nat
  ks : List Nat
  h0 : List Nat

/-- SHA-256. -/
def shaKind256 : ShaKind :=
  ⟨32, (2, 13, 22), (6, 11, 25), (7, 18, 3), (17, 19, 10), sha256K, sha256H⟩

/-- SHA-384, over SHA-512's compression. -/
def shaKind384 : ShaKind :=
  ⟨64, (28, 34, 39), (14, 18, 41), (1, 8, 7), (19, 61, 6), sha384K, sha384H⟩

/-- Rotate right in w bits. -/
def rotr (w n x : Nat) : Nat := (x >>> n) ||| ((x <<< (w - n)) % 2 ^ w)

/-- Σ functions: three rotations. -/
def bigSig (w : Nat) (r : Nat × Nat × Nat) (x : Nat) : Nat :=
  rotr w r.1 x ^^^ rotr w r.2.1 x ^^^ rotr w r.2.2 x

/-- σ functions: two rotations and a shift. -/
def smallSig (w : Nat) (r : Nat × Nat × Nat) (x : Nat) : Nat :=
  rotr w r.1 x ^^^ rotr w r.2.1 x ^^^ x >>> r.2.2

/-- Words of a block. -/
def shaWords (bytes : Nat) : Nat → Bytes → List Nat
  | 0, _ => []
  | n + 1, bs => beVal (bs.take bytes) :: shaWords bytes n (bs.drop bytes)

/-- The message schedule, newest word first, n words to add to the last 16. -/
def shaSchedule (k : ShaKind) : Nat → List Nat → List Nat
  | 0, l => l
  | n + 1, l =>
    let x := (smallSig k.w k.s1 (l.getD 1 0) + l.getD 6 0 + smallSig k.w k.s0 (l.getD 14 0) + l.getD 15 0) % 2 ^ k.w
    shaSchedule k n (x :: l)

/-- One round over the working variables a to h. -/
def shaRound (k : ShaKind) (v : List Nat) (kw : Nat × Nat) : List Nat :=
  match v with
  | [a, b, c, d, e, f, g, h] =>
    let ch := (e &&& f) ^^^ ((2 ^ k.w - 1 - e) &&& g)
    let t1 := h + bigSig k.w k.e e + ch + kw.1 + kw.2
    let maj := (a &&& b) ^^^ (a &&& c) ^^^ (b &&& c)
    let t2 := bigSig k.w k.a a + maj
    [(t1 + t2) % 2 ^ k.w, a, b, c, (d + t1) % 2 ^ k.w, e, f, g]
  | _ => v

/-- Compress one block. -/
def shaBlock (k : ShaKind) (h : List Nat) (blk : Bytes) : List Nat :=
  let ws := (shaSchedule k (k.ks.length - 16) (shaWords (k.w / 8) 16 blk).reverse).reverse
  let v := (k.ks.zip ws).foldl (shaRound k) h
  (h.zip v).map fun p => (p.1 + p.2) % 2 ^ k.w

/-- Compress n blocks. -/
def shaBlocks (k : ShaKind) : Nat → List Nat → Bytes → List Nat
  | 0, h, _ => h
  | n + 1, h, bs => shaBlocks k n (shaBlock k h (bs.take (2 * k.w))) (bs.drop (2 * k.w))

/-- The padded message: 0x80, zeros, and the bit length in the last two words. -/
def shaPad (k : ShaKind) (bs : Bytes) : Bytes :=
  let b := 2 * k.w
  let l := k.w / 4
  let z := (b - (bs.length + 1 + l) % b) % b
  bs ++ 0x80 :: List.replicate z 0 ++ beOut l (8 * bs.length)

/-- The digest, n bytes of it. -/
def shaDigest (k : ShaKind) (n : Nat) (bs : Bytes) : Bytes :=
  let p := shaPad k bs
  ((shaBlocks k (p.length / (2 * k.w)) k.h0 p).flatMap (beOut (k.w / 8))).take n

/-- SHA-256. -/
def sha256 (bs : Bytes) : Bytes := shaDigest shaKind256 32 bs

/-- SHA-384. -/
def sha384 (bs : Bytes) : Bytes := shaDigest shaKind384 48 bs

/-- HMAC over a hash of block size b (RFC 2104). -/
def hmacWith (hash : Bytes → Bytes) (b : Nat) (key msg : Bytes) : Bytes :=
  let k0 := if b < key.length then hash key else key
  let k1 := k0 ++ List.replicate (b - k0.length) 0
  hash (k1.map (· ^^^ 0x5C) ++ hash (k1.map (· ^^^ 0x36) ++ msg))

/-- HMAC-SHA-256 (R50). -/
def hmacSha256 (key msg : Bytes) : Bytes := hmacWith sha256 64 key msg

/-- HMAC-SHA-384 (R451). -/
def hmacSha384 (key msg : Bytes) : Bytes := hmacWith sha384 128 key msg

/-! ### AES-256-GCM (FIPS 197, NIST SP 800-38D) -/

/-- Multiply by x in GF(2^8) of AES. -/
def aesX (b : Byte) : Byte := if b.getLsbD 7 then (b <<< 1) ^^^ 0x1B else b <<< 1

/-- XOR byte by byte. -/
def xorBytes (a b : Bytes) : Bytes := (a.zip b).map fun p => p.1 ^^^ p.2

/-- The round-key words of AES-256, newest first; i counts the words made. -/
def aesExpand : Nat → Nat → Byte → List Bytes → List Bytes
  | 0, _, _, ws => ws
  | n + 1, i, rc, ws =>
    let t := ws.getD 0 []
    let t1 :=
      if i % 8 = 0 then xorBytes ((t.drop 1 ++ t.take 1).map sbox) [rc, 0, 0, 0]
      else if i % 8 = 4 then t.map sbox else t
    aesExpand n (i + 1) (if i % 8 = 0 then aesX rc else rc) (xorBytes (ws.getD 7 []) t1 :: ws)

/-- Cut bytes into pieces of k. -/
def chunks (k : Nat) : Nat → Bytes → List Bytes
  | 0, _ => []
  | n + 1, bs => bs.take k :: chunks k n (bs.drop k)

/-- The 15 round keys of AES-256. -/
def aesKeys (key : Bytes) : List Bytes :=
  chunks 16 15 (aesExpand 52 8 1 (chunks 4 8 key).reverse).reverse.flatten

/-- MixColumns of one column. -/
def aesMix (c : Bytes) : Bytes :=
  match c with
  | [a, b, c, d] =>
    let t := a ^^^ b ^^^ c ^^^ d
    [a ^^^ t ^^^ aesX (a ^^^ b), b ^^^ t ^^^ aesX (b ^^^ c), c ^^^ t ^^^ aesX (c ^^^ d), d ^^^ t ^^^ aesX (d ^^^ a)]
  | _ => c

/-- ShiftRows: output byte i of the state comes from this index. -/
def aesShift : List Nat := [0, 5, 10, 15, 4, 9, 14, 3, 8, 13, 2, 7, 12, 1, 6, 11]

/-- SubBytes and ShiftRows. -/
def aesSub (st : Bytes) : Bytes := aesShift.map fun i => sbox (st.getD i 0)

/-- One AES block under round keys. -/
def aesBlock (ks : List Bytes) (blk : Bytes) : Bytes :=
  let st := xorBytes blk (ks.getD 0 [])
  let st := (ks.drop 1 |>.take 13).foldl (fun st k => xorBytes ((chunks 4 4 (aesSub st)).flatMap aesMix) k) st
  xorBytes (aesSub st) (ks.getD 14 [])

/-- Multiply in GF(2^128) of GCM; the first bit of a block is its most significant. -/
def ghashMul (h : Nat) : Nat → Nat → Nat → Nat → Nat
  | 0, _, _, z => z
  | n + 1, x, v, z =>
    let z' := if (x >>> n) % 2 = 1 then z ^^^ v else z
    let v' := if v % 2 = 1 then v / 2 ^^^ 0xE1000000000000000000000000000000 else v / 2
    ghashMul h n x v' z'

/-- GHASH over whole blocks. -/
def ghash (h : Nat) (n : Nat) (bs : Bytes) : Nat :=
  (chunks 16 n bs).foldl (fun y b => ghashMul h 128 (y ^^^ beVal b) h 0) 0

/-- Zero-pad to whole blocks. -/
def padBlocks (bs : Bytes) : Bytes := bs ++ List.replicate ((16 - bs.length % 16) % 16) 0

/-- Counter-mode key stream of n blocks. -/
def gcmStream (ks : List Bytes) (iv : Bytes) : Nat → Nat → Bytes
  | 0, _ => []
  | n + 1, c => aesBlock ks (iv ++ beOut 4 c) ++ gcmStream ks iv n (c + 1)

/-- AES-256-GCM decryption: the plaintext when the tag verifies (R451). -/
def gcmOpen (key iv aad ct tag : Bytes) : Option Bytes :=
  let ks := aesKeys key
  let h := beVal (aesBlock ks (List.replicate 16 0))
  let data := padBlocks aad ++ padBlocks ct ++ beOut 8 (8 * aad.length) ++ beOut 8 (8 * ct.length)
  let y := ghash h (data.length / 16) data
  let t := xorBytes (beOut 16 y) (aesBlock ks (iv ++ beOut 4 1))
  if t = tag then some (xorBytes ct (gcmStream ks iv ((ct.length + 15) / 16) 2)) else none

/-- KDF in counter mode of NIST SP 800-108 with HMAC-SHA-384: the first 32 bytes (R451). The
counter and the length are 32-bit big-endian fields around label, zero byte and context. (PRESUMED, log entry 14) -/
def kdf108 (key label context : Bytes) : Bytes :=
  (hmacSha384 key (beOut 4 1 ++ label ++ [0] ++ context ++ beOut 4 256)).take 32

/-! ### ECDSA P-384 (FIPS 186) -/

/-- Field prime, order, coefficient b and base point of P-384. -/
def p384p : Nat := 2 ^ 384 - 2 ^ 128 - 2 ^ 96 + 2 ^ 32 - 1
def p384n : Nat := 0xffffffffffffffffffffffffffffffffffffffffffffffffc7634d81f4372ddf581a0db248b0a77aecec196accc52973
def p384b : Nat := 0xb3312fa7e23ee7e4988e056be3f82d19181d9c6efe8141120314088f5013875ac656398d8a2ed19d2a85c8edd3ec2aef
def p384x : Nat := 0xaa87ca22be8b05378eb1c71ef320ad746e1d3b628ba79b9859f741e082542a385502f25dbf55296c3a545e3872760ab7
def p384y : Nat := 0x3617de4a96262c6f5d9e98bf9292dc29f8f41dbd289a147ce9da3113b5f0b8c00a60b1ce1d7e819d7a431d7c90ea0e5f

/-- Power modulo m by squaring, over n exponent bits. -/
def powMod (m : Nat) : Nat → Nat → Nat → Nat
  | 0, _, _ => 1 % m
  | n + 1, b, e => (if e % 2 = 1 then b else 1) * powMod m n (b * b % m) (e / 2) % m

/-- Inverse modulo a prime. -/
def invMod (m a : Nat) : Nat := powMod m 384 (a % m) (m - 2)

/-- Subtract modulo m. -/
def subMod (m a b : Nat) : Nat := (a % m + m - b % m) % m

/-- Add two points of P-384; none is the point at infinity. -/
def ecAdd (p q : Option (Nat × Nat)) : Option (Nat × Nat) :=
  match p, q with
  | none, q => q
  | p, none => p
  | some (x1, y1), some (x2, y2) =>
    if x1 = x2 ∧ (y1 + y2) % p384p = 0 then none
    else
      let l := if x1 = x2 then (3 * x1 * x1 + (p384p - 3)) * invMod p384p (2 * y1) % p384p
        else subMod p384p y2 y1 * invMod p384p (subMod p384p x2 x1) % p384p
      let x3 := subMod p384p (subMod p384p (l * l) x1) x2
      some (x3, subMod p384p (l * subMod p384p x1 x3) y1)

/-- Multiply a point, over n bits. -/
def ecMul : Nat → Nat → Option (Nat × Nat) → Option (Nat × Nat)
  | 0, _, _ => none
  | n + 1, k, p => ecAdd (if k % 2 = 1 then p else none) (ecMul n (k / 2) (ecAdd p p))

/-- Verify an ECDSA P-384 signature r, s (48 bytes each, big-endian) over a SHA-384 digest, under a
public key of 96 bytes (x, y). (PRESUMED, log entry 14) -/
def ecdsaVerify (key digest sig : Bytes) : Bool :=
  let x := beVal (key.take 48)
  let y := beVal (key.drop 48)
  let r := beVal (sig.take 48)
  let s := beVal (sig.drop 48)
  let onCurve := y * y % p384p == (x * x * x + (p384p - 3) * x + p384b) % p384p
  if key.length ≠ 96 ∨ sig.length ≠ 96 ∨ !onCurve ∨ p384p ≤ x ∨ p384p ≤ y ∨ r = 0 ∨ s = 0 ∨ p384n ≤ r ∨ p384n ≤ s
  then false
  else
    let w := invMod p384n s
    match ecAdd (ecMul 384 (beVal digest * w % p384n) (some (p384x, p384y)))
        (ecMul 384 (r * w % p384n) (some (x, y))) with
    | some (px, _) => px % p384n == r
    | none => false

end Sys2Proof.Machine
end

