-- ==== Sys2Proof/Machine/Ports.lean ====
section
/-! DEFINITION. Lanes, ports and MACs (chapter 10): modes, link table, statistics, station filter and the
management port. -/
namespace Sys2Proof.Machine

/-- Replace the port part of the state. -/
def setPorts (s : State) (p : Ports) : State := { s with ports := p }

/-! ### Modes (Table 10-2) -/

/-- Lanes of a mode. -/
def modeLanes (m : Nat) : Nat := [0, 1, 1, 4, 1, 4, 2, 1, 4, 2, 1, 8, 4, 2, 8, 4, 8].getD m 0

/-- Ethernet rate of a mode in Mb/s. -/
def modeRate (m : Nat) : Nat :=
  [0, 10000, 25000, 40000, 50000, 100000, 100000, 100000, 200000, 200000, 200000, 400000, 400000, 400000,
   800000, 800000, 1600000].getD m 0

/-- The FEC values that Table 10-2 allows for a mode. -/
def modeFecs (m : Nat) : List Nat :=
  if m = 0 then [] else if m = 1 ∨ m = 3 then [0] else if m = 2 then [0, 1] else if m = 5 then [1] else [2]

/-- The mode supports LPI. -/
def modeLpi (m : Nat) : Bool := m == 1 || m == 2 || m == 3 || m == 5

/-- The mode is defined for Clause 73 auto-negotiation. Which modes are is a matter of IEEE 802.3; the
spec does not list them. (DESIGN CHOICE, log entry 24) -/
opaque Config.clause73 : Nat → Bool

/-- Wake times of IEEE 802.3 for a mode in µs: the transmit minimum, and the device's receive recovery
time (R305). The spec gives no value. (DESIGN CHOICE, log entry 24) -/
opaque Config.lpiTxMin : Nat → Nat
opaque Config.lpiRxMin : Nat → Nat

/-- A lane's signal-to-noise estimate in a 10 ms period, by lane and period (R309): analog, not derived.
(DESIGN CHOICE, log entry 24) -/
opaque Config.laneSnr : Nat → Nat → Nat

/-- The number by which events of Table 10-8 name a FlexE PHY. (DESIGN CHOICE, log entry 24) -/
opaque Config.phyPort : Nat → Nat

/-! ### Links (Table 10-3) -/

/-- A link after reset. -/
def linkReset : Link :=
  { state := 0, wait := 1, attempt := 0, timer := 0, upSince := 0, fails := 0, resolved := 0, fec := 0,
    lastDown := 0, localFault := false, eee := false, windows := [], lpi := 0, lpiSince := 0, lastTx := 0,
    rxLpi := false, rxLpiSince := 0 }

/-- The key of a FlexE PHY's link. -/
def phyKey (i : Nat) : Nat := 1024 + i

/-- A link. -/
def link (s : State) (k : Nat) : Link := tget linkReset s.ports.links k

/-- Replace a link. -/
def setLink (s : State) (k : Nat) (l : Link) : State :=
  setPorts s { s.ports with links := tset linkReset s.ports.links k l }

/-- The number that events give a link. -/
def linkName (k : Nat) : Nat := if k < 1024 then k else Config.phyPort (k - 1024)

/-- The configured mode of a link. -/
def linkMode (s : State) (k : Nat) : Nat := if k < 1024 then cfgN s 0x2000 k 0 else cfgN s 0x2801 (k - 1024) 0

/-- The first lane of a link (R291; a PHY's pipeline and offset are objects of its own). -/
def linkLane (s : State) (k : Nat) : Nat :=
  if k < 1024 then 16 * (k / 64) + cfgN s 0x2001 k 0
  else 16 * cfgN s 0x2801 (k - 1024) 1 + cfgN s 0x2801 (k - 1024) 2

/-- The medium of a link: 0 ELECTRICAL_AN, 1 ELECTRICAL_FORCED, 2 OPTICAL. -/
def linkMedium (s : State) (k : Nat) : Nat := if k < 1024 then cfgN s 0x2002 k 0 else cfgN s 0x2801 (k - 1024) 4

/-- The lanes of a link in a mode. -/
def linkLanes (s : State) (k mode : Nat) : List Nat := (List.range (modeLanes mode)).map (linkLane s k + ·)

/-- The link is enabled: a PHY is enabled by its group, a native port by its enable object. -/
def linkOn (s : State) (k : Nat) : Bool :=
  linkMode s k != 0 && (if k < 1024 then cfgOn s 0x2005 k 0 else cfgOn s 0x2800 ((k - 1024) / 8) 0)

/-- The native port's link is up (R295). -/
def linkUp (s : State) (k : Nat) : Bool := (link s k).state == 2 && !s.safe.safeStop

/-- The native port or PHY that owns a lane, by link key. -/
def laneOwner (s : State) (l : Nat) : Option Nat :=
  let p := l / 16
  let ports := (List.range 64).map (64 * p + ·)
  let phys := s.ctl.active.objs.filterMap fun r =>
    if oaIndex r.1 = 0x2801 ∧ oaSub r.1 = 0 then some (phyKey (oaInst r.1)) else none
  (ports ++ phys).find? fun k => (linkLanes s k (linkMode s k)).contains l

/-- Rate of a mode's lanes in kb/s (Tables 10-1, 10-2). -/
def modeLaneRate (m : Nat) : Nat :=
  [0, 10312500, 25781250, 10312500, 53125000, 25781250, 53125000, 106250000, 53125000, 106250000, 212500000, 53125000,
   106250000, 212500000, 106250000, 212500000, 212500000].getD m 0

/-- The mode that a link's lanes run: while it is brought up the configured one, then the resolved one (R293). -/
def runningMode (s : State) (k : Nat) : Nat := if (link s k).state = 2 ∨ (link s k).state = 3 then (link s k).resolved else linkMode s k

/-- The link's transmitters are out of electrical idle: in BRINGUP, UP and REMOTE_FAULT, once the outputs have started and
outside safe stop (Table 10-3). -/
def linkDrives (s : State) (k : Nat) : Bool :=
  decide (1 ≤ (link s k).state) && decide ((link s k).state ≤ 3) && s.safe.outputsStarted && !s.safe.safeStop

/-- The rate at which a lane runs, in kb/s; none: its transmitter is in electrical idle, as without an owner, or with one
whose mode does not use it (R289, R293). -/
def laneRate (s : State) (l : Nat) : Option Nat :=
  (laneOwner s l).bind fun k =>
    if linkDrives s k ∧ (linkLanes s k (runningMode s k)).contains l then some (modeLaneRate (runningMode s k)) else none

/-! ### Statistics (R306, R307) -/

/-- Add to a MAC statistic: 40 bits, wrapping; bit 39 turning to 1 raises event 0x0105 (R307).
(DESIGN CHOICE, log entry 8) -/
def stat (q sub n : Nat) (s : State) : State :=
  let a := oa 0x2020 q sub
  let old := ctrGet s a
  let v := (old + n) % 2 ^ 40
  let s1 := ctrSet s a v
  if old / 2 ^ 39 % 2 = 0 ∧ v / 2 ^ 39 % 2 = 1 then raise 0x0105 [q, sub] s1 else s1

/-- Add to a management statistic: 40 bits, saturating (R308). (DESIGN CHOICE, log entry 8) -/
def mgmtStat (sub n : Nat) (s : State) : State :=
  let a := oa 0x2080 0 sub
  ctrSet s a (min (ctrGet s a + n) (2 ^ 40 - 1))

/-- The size bin of a length (Table 10-6). -/
def sizeBin (len : Nat) : Nat :=
  if len ≤ 64 then 0 else if len ≤ 127 then 1 else if len ≤ 255 then 2 else if len ≤ 511 then 3
  else if len ≤ 1023 then 4 else if len ≤ 1518 then 5 else if len ≤ 2047 then 6
  else if len ≤ 4095 then 7 else if len ≤ 9216 then 8 else 9

/-- Unicast, multicast or broadcast: 0, 1, 2. -/
def daKind (frame : Bytes) : Nat :=
  let da := beNat (frame.take 6)
  if da = 2 ^ 48 - 1 then 2 else if bit (frame.headD 0) 0 then 1 else 0

/-- The frame starts with at least one VLAN tag (TPID 0x8100 or 0x88A8). -/
def hasVlan (frame : Bytes) : Bool :=
  let t := beNat (slice frame 12 2)
  t == 0x8100 || t == 0x88A8

/-- EtherType of a MAC control frame (R301). -/
def isMacControl (frame : Bytes) : Bool := beNat (slice frame 12 2) == 0x8808

/-- The receive statistics that a frame of length len counts in (Table 10-6); maxRx is the receive limit. -/
def rxStats (add : Nat → Nat → State → State) (frame : Bytes) (len maxRx : Nat) (fcsOk symbolErr : Bool) (s : State) : State :=
  let one := fun k t => add k 1 t
  let s1 := add 0x00 len s
  let s2 := if symbolErr then one 0x0D s1 else s1
  if len < 64 then one (if fcsOk then 0x08 else 0x09) s2
  else if maxRx < len then one (if fcsOk then 0x0A else 0x0B) s2
  else
    let s3 := one (0x0E + sizeBin len) s2
    if fcsOk then
      let s4 := one (0x03 + daKind frame) (one 0x02 (add 0x01 len s3))
      if hasVlan frame then one 0x06 s4 else s4
    else one 0x07 s3

/-- The transmit statistics of a frame whose first byte leaves (Table 10-6). -/
def txStats (add : Nat → Nat → State → State) (frame : Bytes) (len : Nat) (s : State) : State :=
  let one := fun k t => add k 1 t
  let s1 := one (0x27 + sizeBin len) (one (0x22 + daKind frame) (one 0x21 (add 0x20 len s)))
  if hasVlan frame then one 0x25 s1 else s1

/-! ### Station filter (R302) -/

/-- A station entry matches a destination and an outer VLAN ID. -/
def stationHit (e : Nat) (da vid : Nat) : Bool :=
  e.testBit 63 && fld e 47 0 == da && (fld e 59 48 == 0 || fld e 59 48 == vid)

/-- The outer VLAN ID of a frame on a port, its pvid when untagged. -/
def outerVid (s : State) (q : Nat) (frame : Bytes) : Nat :=
  if hasVlan frame then beNat (slice frame 14 2) % 4096 else cfgN s 0x3813 q 0

/-- ROUTER_MAC: the destination is a station of the port or of its pipeline (R302). -/
def routerMac (s : State) (q : Nat) (frame : Bytes) : Bool :=
  let da := beNat (frame.take 6)
  let v := outerVid s q frame
  ((List.range 4).any fun i => stationHit (cfgN s 0x2008 q i) da v) ||
  ((List.range 64).any fun e => stationHit (cfgN s 0x2009 (q / 64) e) da v)

/-- A station entry that a write is refused for: valid with a multicast or zero mac (R302), or a vid
beyond 4,094. (DESIGN CHOICE, log entry 30) -/
def stationBad (e : Nat) : Bool :=
  (e.testBit 63 && (fld e 47 0 == 0 || (fld e 47 40) % 2 == 1)) || fld e 59 48 == 4095

/-! ### Low-power idle (R304, R305) -/

/-- The transmit wake time in raw cycles (R305). -/
def lpiWakeCycles (s : State) (q : Nat) : Nat :=
  max (cfgN s 0x200A q 2) (Config.lpiTxMin (link s q).resolved) * 800

/-- The port requests no dequeue: it is in LPI, or its wake time has not passed (R304). -/
def lpiBlocks (s : State) (q : Nat) : Bool :=
  let l := link s q
  l.lpi == 1 || (l.lpi == 2 && decide (raw s < l.lpiSince + lpiWakeCycles s q))

/-! ### Resolution (R293) -/

/-- The modes a port advertises. -/
def advertised (s : State) (q : Nat) : Nat :=
  let a := cfgN s 0x2004 q 0
  if a = 0 then 2 ^ cfgN s 0x2000 q 0 else a

/-- An advertised mode is refused: too many lanes, misaligned at k, or not for Clause 73 (R293). -/
def advertiseBad (mode lane adv : Nat) : Bool :=
  (List.range 32).any fun c => adv.testBit c && (decide (modeLanes mode < modeLanes c) || modeLanes c == 0 ||
    lane % max 1 (modeLanes c) != 0 || !Config.clause73 c)

/-- The common mode of the highest rate, of equal rates the one with fewer lanes. -/
def resolveMode (own partner : Nat) : Option Nat :=
  ((List.range 17).filter fun c => own.testBit c && partner.testBit c && c != 0).foldl (fun m c => match m with
    | none => some c
    | some b => if modeRate b < modeRate c ∨ (modeRate b = modeRate c ∧ modeLanes c < modeLanes b) then some c else some b) none

/-- The FEC of a link in a mode (R293, R298): an explicit value that the mode allows, else that of the
mode; under AUTO, 25GBASE-R runs RS(528,514) when both ends request it. (DEDUCED, log entry 83) -/
def resolveFec (s : State) (k mode : Nat) (partnerFec : Bool) : Nat :=
  let f := if k < 1024 then cfgN s 0x2003 k 0 else 3
  if f ≠ 3 ∧ (modeFecs mode).contains f then f
  else if mode = 2 then b2n partnerFec
  else (modeFecs mode).headD 0

/-- px.port objects that the device sets (Table 10-7). -/
def portObj (a : Nat) (s : State) : Option Bytes :=
  let q := oaInst a
  match oaIndex a with
  | 0x200A => if oaSub a = 3 then some (leBytes 2 (Config.lpiRxMin (link s q).resolved)) else none
  | 0x200C => some (leBytes 4 (link s q).state)
  | 0x200D => some (match oaSub a with
    | 0 => leBytes 4 (link s q).resolved
    | 1 => leBytes 4 (link s q).fec
    | 2 => leBytes 4 (if (link s q).state = 4 then
        ((link s q).timer + (link s q).wait * cycSecond - raw s + cycSecond - 1) / cycSecond else 0)
    | _ => leBytes 1 (link s q).lastDown)
  | 0x2010 => if oaSub a = 3 then some (leBytes 2 (Config.laneSnr q (raw s / 8000000))) else none
  | 0x2077 => some (leBytes 4 (b2n s.ports.mgmtUp))
  | _ => none

/-! ### Management port (R303, R308, R311) -/

/-- R303 accepts a frame by its destination. (DEDUCED, log entry 84) -/
def mgmtAccepts (s : State) (frame : Bytes) : Bool :=
  let da := beNat (frame.take 6)
  cfgOn s 0x2074 0 0 || (da == 2 ^ 48 - 1 && cfgOn s 0x2073 0 0) ||
  ((List.range 4).any fun i => da != 0 && !da.testBit 40 && cfgNet s 0x2071 0 i == da) ||
  ((List.range 8).any fun i => da != 0 && cfgNet s 0x2072 0 i == da)

/-- The link-local address of station entry 0 by modified EUI-64. (DEDUCED, log entry 84) -/
def mgmtLinkLocal (s : State) : Nat :=
  let m := cfgNet s 0x2071 0 0
  0xFE80 * 2 ^ 112 + ((m / 2 ^ 24 * 2 ^ 40 + 0xFFFE * 2 ^ 24 + m % 2 ^ 24) ^^^ 2 ^ 57)

/-- The frame carries IPv6 with next header nh, untagged; answer the offset of its payload. -/
def isIpv6 (frame : Bytes) (nh : Nat) : Bool :=
  beNat (slice frame 12 2) == 0x86DD && (frame.getD 20 0).toNat == nh && decide (54 ≤ frame.length)

/-- The IPv6 destination is the management address. (DEDUCED, log entry 84) -/
def mgmtAddressed (s : State) (frame : Bytes) : Bool :=
  let d := beNat (slice frame 38 16)
  d == cfgNet s 0x2076 0 0 || d == mgmtLinkLocal s

/-- Psindo: UDP port 47820 to px.mgmt.ipv6 (R303). -/
def isPsindo (s : State) (frame : Bytes) : Bool :=
  isIpv6 frame 17 && mgmtAddressed s frame && beNat (slice frame 56 2) == 47820

/-- ICMPv6 type of a frame. -/
def icmp6Type (frame : Bytes) : Nat := (frame.getD 54 0).toNat

/-- Complete an ICMPv6 packet with its checksum and frame it. -/
def icmp6Frame (da sa src dst hop : Nat) (msg : Bytes) : Bytes :=
  let m0 := patch msg 2 [0, 0]
  let pseudo := beBytes 16 src ++ beBytes 16 dst ++ beBytes 4 msg.length ++ [0, 0, 0, 58]
  let c := inetChecksum 0 (pseudo ++ m0)
  beBytes 6 da ++ beBytes 6 sa ++ [0x86, 0xDD, 0x60, 0, 0, 0] ++ beBytes 2 msg.length ++
    [58, BitVec.ofNat 8 hop] ++ beBytes 16 src ++ beBytes 16 dst ++ patch m0 2 (beBytes 2 c)

/-- The Cobbler sends a frame on the management port. -/
def mgmtSend (frame : Bytes) (s : State) : State :=
  let f := padTo (max 60 frame.length) frame
  txStats mgmtStat f (f.length + 4) (setPorts s { s.ports with mgmtSent := f ++ leBytes 4 (crc32 f) })

/-- The Cobbler answers a neighbour solicitation for its address (RFC 4861). -/
def answerNd (frame : Bytes) (s : State) : State :=
  let target := beNat (slice frame 62 16)
  if icmp6Type frame = 135 ∧ (target = cfgNet s 0x2076 0 0 ∨ target = mgmtLinkLocal s) then
    let mac := cfgNet s 0x2071 0 0
    let src := beNat (slice frame 22 16)
    let unspec := src == 0
    let dst := if unspec then 0xFF02 * 2 ^ 112 + 1 else src
    let da := if unspec then 0x333300000001 else beNat (slice frame 6 6)
    let flags : Byte := if unspec then 0x20 else 0x60
    mgmtSend (icmp6Frame da mac target dst 255
      ([136, 0, 0, 0, flags, 0, 0, 0] ++ beBytes 16 target ++ [2, 1] ++ beBytes 6 mac)) s
  else s

/-- The Cobbler answers an echo request to its address; the hop limit of the answer is free. -/
def answerEcho (frame : Bytes) (s : State) : State :=
  if icmp6Type frame = 128 ∧ mgmtAddressed s frame then
    let (h, s1) := fresh 8 s
    let len := beNat (slice frame 18 2)
    let msg := slice frame 54 len
    mgmtSend (icmp6Frame (beNat (slice frame 6 6)) (cfgNet s 0x2071 0 0) (beNat (slice frame 38 16))
      (beNat (slice frame 22 16)) h.toNat (129 :: msg.drop 1)) s1
  else s

/-- MGMT_FRAME_RECEIVE: a whole frame, FCS included, reaches the management MAC (R303, R308). A Psindo
datagram that it carries is a request of its own (READ and the other message commands). -/
def execMgmtFrameReceive (bytes : Bytes) (s : State) : Host.Outcome State Fault Refusal :=
  if !s.ports.mgmtUp then .next s
  else
    let n := bytes.length
    let frame := bytes.take (n - 4)
    let fcsOk := leNat (bytes.drop (n - 4)) == crc32 frame
    let s1 := rxStats mgmtStat frame n 9216 fcsOk false s
    if n < 64 then .next s1
    else if isMacControl frame then .next (mgmtStat 0x0C 1 s1)
    else if !fcsOk ∨ 9216 < n then .next s1
    else if !mgmtAccepts s frame then .next (mgmtStat 0x50 1 s1)
    else if isPsindo s frame then .next s1
    else if isIpv6 frame 58 && (133 ≤ icmp6Type frame && icmp6Type frame ≤ 137) then .next (answerNd frame s1)
    else if isIpv6 frame 58 && icmp6Type frame == 128 && mgmtAddressed s frame then .next (answerEcho frame s1)
    else
      let r := cfgN s 0x2075 0 0
      if 63 < r then .next s1
      else .next (rxEnqueue r {
        data := frame, source := 6, port := 0, truncated := false, ts := stampNow s, parse := 0, metadata := 0,
        refused := 0 } s1)

/-- MGMT_LINK: the management link goes up, once boot step 5 has brought the port up, or down (R311, R446, R454).
(DEDUCED, log entry 84) -/
def execMgmtLink (up : Bool) (s : State) : Host.Outcome State Fault Refusal :=
  if s.ports.mgmtUp = up ∨ (up ∧ (!s.safe.bootDone.contains 5 || s.safe.bootState == 2)) then .next s
  else .next (raise 0x0106 [b2n up, cfgN s 0x2070 0 0] (setPorts s { s.ports with mgmtUp := up }))

/-- The clear that a read of a management counter makes (R308). -/
def mgmtStatClear (sub : Nat) (s : State) : State := ctrSet s (oa 0x2080 0 sub) 0

/-- MGMT_STAT_READ: a read of management counter sub clears it (R308). -/
def execMgmtStatRead (sub : Nat) (s : State) : Host.Outcome State Fault Refusal := .next (mgmtStatClear sub s)

end Sys2Proof.Machine
end

