-- ==== Sys2Proof/Machine/Packets.lean ====
section
/-! DEFINITION. Packets: their table, the cells and pools they are charged to, their epochs and their end
(8.1, R64, R65). -/
namespace Sys2Proof.Machine

/-- Replace the packet part of the state. -/
def setPath (s : State) (p : Path) : State := { s with path := p }

/-- A packet that no table row holds. -/
def noPacket : Packet :=
  { pipe := 0, port := 0, ring := none, data := [], rxLen := 0, fcsOk := true, symbolErr := false, half := 0, cells := 0,
    written := 0, resv := 0, shared := 0, min := 0, place := 3, out := 0, refs := 0, ended := true, err := 0,
    barred := false, ts := 0, born := 0, router := false, epoch := none, pass := 0, zone := 0, metadata := 0,
    parse := none, key := none, acts := [], flow := 0, answer := none, colour := 0, meter := 0, lb := none,
    release := none, fall := none, failRing := 0, turn := 0 }

/-- A packet. -/
def pkt (s : State) (n : Nat) : Packet := tget noPacket s.path.pkts n

/-- Replace a packet. -/
def setPkt (n : Nat) (p : Packet) (s : State) : State := setPath s { s.path with pkts := tput s.path.pkts n p }

/-- Change a packet. -/
def modPkt (n : Nat) (f : Packet → Packet) (s : State) : State := setPkt n (f (pkt s n)) s

/-- Sum of a figure over the packets that satisfy a test. -/
def sumPkts (s : State) (p : Packet → Bool) (f : Packet → Nat) : Nat :=
  s.path.pkts.foldl (fun n r => if p r.2 then n + f r.2 else n) 0

/-- Sum of a numeric object over instances 0 to n - 1: listed values, and the default for the rest. -/
def cfgSum (s : State) (index n : Nat) : Nat :=
  let d := leNat (objDflt [] (oa index 0 0))
  let own := s.ctl.active.objs.filter fun r => oaIndex r.1 == index && decide (oaInst r.1 < n) && oaSub r.1 == 0
  own.foldl (fun t r => t + leNat r.2) ((n - own.length) * d)

/-! ### Pools (R236, R238) -/

/-- Cells of one half. -/
def halfCells : Nat := 327680

/-- Cells that ring r's delivery queue and the others hold in the shared pool (R385). -/
def rxqCells (s : State) : Nat := s.host.rxq.foldl (fun n r => n + rxCells r.2) 0

/-- Free cells of a half. -/
def halfFree (s : State) (h : Nat) : Nat := halfCells - sumPkts s (fun p => p.half == h) (·.written)

/-- Pending cells of a half. -/
def halfPending (s : State) (h : Nat) : Nat := sumPkts s (fun p => p.half == h && p.place == 0) (·.written)

/-- Queued cells of a half. -/
def halfQueued (s : State) (h : Nat) : Nat :=
  sumPkts s (fun p => p.half == h && (p.place == 1 || p.place == 2)) (·.written)

/-- The shared pool: what reserve and port minimums leave (R238). (DESIGN CHOICE, log entry 44) -/
def sharedSize (s : State) : Nat := 2 * halfCells - cfgN s 0x5000 0 0 - cfgSum s 0x5001 1024

/-- Cells charged to the shared pool. -/
def sharedUsed (s : State) : Nat := sumPkts s (fun _ => true) (·.shared) + rxqCells s

/-- Cells of a half charged to its reserve. -/
def resvUsed (s : State) (h : Nat) : Nat := sumPkts s (fun p => p.half == h) (·.resv)

/-- Charge n more pending cells of a packet: its half's reserve first, then the shared pool (R238).
(DESIGN CHOICE, log entry 44) -/
def chargePending (n pid : Nat) (s : State) : State :=
  let p := pkt s pid
  let r := min n (cfgN s 0x5000 0 0 / 2 - resvUsed s p.half)
  setPkt pid { p with written := p.written + n, resv := p.resv + r, shared := p.shared + (n - r) } s

/-- Cells of a frame of len bytes, at least one (R237). -/
def frameCells (len : Nat) : Nat := max 1 ((len + 255) / 256)

/-! ### The life of a packet -/

/-- Some editor or egress MAC still works on a packet. -/
def inFlight (s : State) (pid : Nat) : Bool :=
  s.path.edits.any (fun r => r.2.any fun j => j.pid == pid) ||
  s.path.tx.any (fun r => r.2.any fun t => t.pid == pid)

/-- Count a packet out of its epoch (R65). -/
def leaveEpoch (pid : Nat) (s : State) : State :=
  match (pkt s pid).epoch with
  | none => s
  | some e =>
    let c : Control := { s.ctl with epochCount := tset 0 s.ctl.epochCount e (tget 0 s.ctl.epochCount e - 1) }
    modPkt pid (fun p => { p with epoch := none }) (setCtl s c)

/-- A packet that nothing holds any more leaves its epoch, and its row ends once its last byte has come.
(DESIGN CHOICE, log entry 44) -/
def settle (pid : Nat) (s : State) : State :=
  if (pkt s pid).place = 3 && !inFlight s pid then
    let s1 := leaveEpoch pid s
    if (pkt s1 pid).ended then
      setPath (setCtl s1 { s1.ctl with expired := s1.ctl.expired.filter (· != pid) }) { s1.path with pkts := tdel s1.path.pkts pid }
    else s1
  else s

/-- The cells of a packet are freed. (DESIGN CHOICE, log entry 44) -/
def freeCells (pid : Nat) (s : State) : State :=
  settle pid (modPkt pid (fun p => { p with place := 3, written := 0, resv := 0, shared := 0, min := 0, refs := 0 }) s)

/-- A packet is dropped. -/
def dropPkt (pid : Nat) (s : State) : State := freeCells pid s

/-- One reference to a packet ends; at the last one its cells are freed (R256). -/
def unref (pid : Nat) (s : State) : State :=
  if (pkt s pid).refs ≤ 1 then freeCells pid s else modPkt pid (fun p => { p with refs := p.refs - 1 }) s

/-- Pin the active epoch to a packet (R64). -/
def pinEpoch (pid : Nat) (s : State) : State :=
  match (pkt s pid).epoch with
  | some _ => s
  | none =>
    let e := s.ctl.epoch
    let c : Control := { s.ctl with epochCount := tput s.ctl.epochCount e (tget 0 s.ctl.epochCount e + 1) }
    modPkt pid (fun p => { p with epoch := some e }) (setCtl s c)

/-- The bank that a packet's epoch names; without one, the active bank. -/
def pktBank (s : State) (pid : Nat) : Banked := bankOf s ((pkt s pid).epoch.getD s.ctl.epoch)

/-- A packet's epoch has expired: it is dropped where it is met (R65). -/
def isExpired (s : State) (pid : Nat) : Bool := s.ctl.expired.contains pid

/-! ### Lists of packets by pipeline -/

/-- Header FIFO, retire stage and recirculation queue of a pipeline. (DESIGN CHOICE, log entry 32) -/
def hdrFifo (s : State) (p : Nat) : List Nat := tget [] s.path.hdr p
def retireQ (s : State) (p : Nat) : List Nat := tget [] s.path.retire p
def recircQ (s : State) (p : Nat) : List Nat := tget [] s.path.recirc p

def setHdr (s : State) (p : Nat) (l : List Nat) : State := setPath s { s.path with hdr := tset [] s.path.hdr p l }
def setRetire (s : State) (p : Nat) (l : List Nat) : State :=
  setPath s { s.path with retire := tset [] s.path.retire p l }
def setRecirc (s : State) (p : Nat) (l : List Nat) : State :=
  setPath s { s.path with recirc := tset [] s.path.recirc p l }

/-- Recirculated headers that wait at a Clicker. -/
def reHdr (s : State) (p : Nat) : List Nat := tget [] s.path.rehdr p
def setReHdr (s : State) (p : Nat) (l : List Nat) : State := setPath s { s.path with rehdr := tset [] s.path.rehdr p l }

/-- Two frames of one flow in one pass, a served before b by their home slice, between which order is promised: neither
took a miss-overflow or a fail_action (R31, R34). (DEDUCED, log entry 112) -/
def servedBefore (s : State) (a b : Nat) : Bool :=
  let x := pkt s a
  let y := pkt s b
  x.turn != 0 && decide (x.turn < y.turn) && x.key.isSome && x.key == y.key && x.pass == y.pass &&
    !([4, 5, 7].contains x.flow) && !([4, 5, 7].contains y.flow)

/-- A frame of packet pid's flow that was served before it has not retired, or is released but waits (R20, R31).
(DEDUCED, log entry 112) -/
def flowAhead (s : State) (pid : Nat) : Bool :=
  (List.range 16).any (fun q => (retireQ s q).any fun a => servedBefore s a pid) ||
    s.path.parked.any fun a => servedBefore s a pid

/-- The pipeline whose retire stage holds an earlier frame of the flow of pipeline p's head, if any. -/
def retireBehind (s : State) (p : Nat) : Option Nat :=
  match retireQ s p with
  | [] => none
  | pid :: _ => (List.range 16).find? fun q => q != p && (retireQ s q).any fun a => servedBefore s a pid

/-- From pipeline q on, each retire stage waits for another, and so round to p. -/
def retireRing (s : State) (p : Nat) : Nat → Nat → Bool
  | 0, _ => false
  | n + 1, q => match retireBehind s q with
    | none => false
    | some r => r == p || retireRing s p n r

/-- The head of pipeline p's retire stage waits there for an earlier frame of its flow in another pipeline (R31); where
the stages wait for one another in a ring, the order of each Clicker (R18) goes first. (DESIGN CHOICE, log entry 118) -/
def retireWaits (s : State) (p : Nat) : Bool :=
  match retireBehind s p with
  | none => false
  | some q => !retireRing s p 16 q

/-- Descriptors that a header FIFO holds (R22). -/
def hdrDepth : Nat := 32768

/-- The header FIFO of a pipeline has no room. -/
def hdrFull (s : State) (p : Nat) : Bool := decide (hdrDepth ≤ (hdrFifo s p).length)

/-- An ingress overrun of a pipeline (R22, R104). -/
def ingressOverrun (p : Nat) (s : State) : State :=
  raiseLimited 0x0304 p (fun n => [p, n]) (count 0x3030 p 6 s)

/-- The group of a pipeline (0.7), and the core die of a pipeline (Table 1-1). -/
def groupOf (p : Nat) : Nat := p / 4
def dieOf (p : Nat) : Nat := p / 8

/-- A packet's frame goes to a receive ring as received, truncated when its session says so (R385). -/
def toRing (r source pid trunc : Nat) (s : State) : State :=
  let p := pkt s pid
  let cut := trunc != 0 && decide (trunc < p.data.length)
  rxEnqueue r {
    data := if cut then p.data.take trunc else p.data, source := source, port := p.port, truncated := cut, ts := p.ts,
    parse := match p.parse with
      | some w => w.word
      | none => 0,
    metadata := p.metadata, refused := 0 } s

end Sys2Proof.Machine
end

