-- ==== Sys2Proof/Machine/FlexE.lean ====
section
/-! DEFINITION. FlexE groups, members, clients and calendars as the rest of the device sees them (11.1, 11.2,
11.6). -/
namespace Sys2Proof.Machine

/-- Replace the FlexE part of the state. -/
def setFx (s : State) (x : FlexE) : State := { s with fx := x }

/-- A lock at SEARCH. -/
def lockReset : OhLock :=
  { state := 0, hits := 0, frames := 0, omf := false, badFrames := 0, badMf := 0, mfWrong := false }

/-- A member at reset. -/
def memberReset : Member :=
  { defects := 0, gidOk := 0, pnOk := 0, arrival := none, delay := 0, reportAge := 0, rei := (0, 0), seamSent := [] }

/-- A group at reset. -/
def groupReset : FxGroup :=
  { calA := [], calB := [], inUse := 0, calState := 0, cr := false, crSince := 0, crHold := 0, expired := false, rxA := [],
    rxB := [], rxC := 0, ca := false, caIn := false, region := (0, 0), seam := 0, version := 0, nonce := 0, peer := none,
    helloAge := 0, silentSince := 0, mfSeq := 0 }

/-- A client at reset. -/
def clientReset : FxClient := { prdi := false, psd := false, psf := false, rei := (0, 0) }

def ohLock (s : State) (k : Nat) : OhLock := tget lockReset s.fx.locks k
def member (s : State) (i : Nat) : Member := tget memberReset s.fx.members i
def fxGroup (s : State) (g : Nat) : FxGroup := tget groupReset s.fx.groups g
def fxClient (s : State) (q : Nat) : FxClient := tget clientReset s.fx.clients q

def setLock (s : State) (k : Nat) (l : OhLock) : State := setFx s { s.fx with locks := tset lockReset s.fx.locks k l }
def setMember (s : State) (i : Nat) (m : Member) : State :=
  setFx s { s.fx with members := tset memberReset s.fx.members i m }
def setGroup (s : State) (g : Nat) (x : FxGroup) : State :=
  setFx s { s.fx with groups := tset groupReset s.fx.groups g x }
def setClient (s : State) (q : Nat) (c : FxClient) : State :=
  setFx s { s.fx with clients := tset clientReset s.fx.clients q c }

/-- The group is enabled. -/
def fxOn (s : State) (g : Nat) : Bool := cfgOn s 0x2800 g 0

/-- 100G instances of a PHY by the group's PHY type. -/
def fxInstances (s : State) (g : Nat) : Nat := [1, 2, 4].getD (cfgN s 0x2800 g 2) 1

/-- Members of a group: PHYs with a mode, in ascending PHY number (R314). -/
def fxMembers (s : State) (g : Nat) : List Nat :=
  let ms := ((List.range 8).map (8 * g + ·)).filter fun i => cfgN s 0x2801 i 0 != 0
  let insert := fun (l : List Nat) (i : Nat) =>
    let n := cfgN s 0x2801 i 3
    l.filter (fun j => cfgN s 0x2801 j 3 ≤ n) ++ [i] ++ l.filter (fun j => n < cfgN s 0x2801 j 3)
  ms.foldl insert []

/-- The member that carries a group slot: rank slot / (20 n) (R314). -/
def slotMember (s : State) (g slot : Nat) : Option Nat := (fxMembers s g)[slot / (20 * fxInstances s g)]?

/-- The group of a client port; none: not a client (fx.client[q].group). -/
def clientGroup (s : State) (q : Nat) : Option Nat :=
  let g := cfgN s 0x2802 q 0
  if g < 64 then some g else none

/-- Ports that are clients of a group. -/
def groupClients (s : State) (g : Nat) : List Nat :=
  s.ctl.active.objs.filterMap fun r =>
    if oaIndex r.1 = 0x2802 ∧ oaSub r.1 = 0 ∧ leNat r.2 = g then some (oaInst r.1) else none

/-- The transmit calendar in use, and the receive calendar that the partner's C bit names. -/
def txCal (x : FxGroup) : List Nat := if x.inUse = 0 then x.calA else x.calB
def rxCal (x : FxGroup) : Tbl Nat := if x.rxC = 0 then x.rxA else x.rxB

/-- Slots of a client ID in the transmit and the receive calendar. -/
def txSlots (x : FxGroup) (id : Nat) : List Nat := (List.range 640).filter fun j => (txCal x).getD j 0 == id && id != 0
def rxSlots (x : FxGroup) (id : Nat) : List Nat := ((rxCal x).filter fun r => r.2 == id && id != 0).map (·.1)

/-- A member has a defect with a client-down action on receive (Table 11-8): LOF, LOM, GIDM, PNM, SKEW, and
SSF under sf_action. -/
def rxDefect (s : State) (i : Nat) : Bool :=
  let d := (member s i).defects
  bf d 5 1 != 0 || (bit d 8 && cfgOn s 0x2810 (i / 8) 5)

/-- A member is out of state UP: defect LINK. -/
def linkDefect (s : State) (i : Nat) : Bool := !linkUp s (phyKey i)

/-- fx.client[q].defects (Table 11-11); a client of a disabled group has none. -/
def clientDefects (s : State) (q : Nat) : Nat :=
  match clientGroup s q with
  | none => 0
  | some g =>
    if !fxOn s g then 0 else
    let x := fxGroup s g
    let id := cfgN s 0x2802 q 1
    let rx := rxSlots x id
    let tx := txSlots x id
    let on := fun (slots : List Nat) (bad : Nat → Bool) => slots.any fun j => match slotMember s g j with
      | some i => bad i
      | none => true
    let c := fxClient s q
    b2n (on rx (fun i => linkDefect s i || rxDefect s i)) + 2 * b2n (on tx (linkDefect s)) + 4 * b2n rx.isEmpty +
      8 * b2n tx.isEmpty + 16 * b2n c.prdi + 32 * b2n c.psd + 64 * b2n c.psf

/-- A client is up (R334). -/
def clientUp (s : State) (q : Nat) : Bool :=
  match clientGroup s q with
  | none => false
  | some g =>
    let d := clientDefects s q
    fxOn s g && fld d 3 0 == 0 && !(d.testBit 6 && cfgOn s 0x2810 g 5) && !fnStopped s (.flexe g) && !s.safe.safeStop

/-- A port's link is up in the sense of R241, R244 and R278. -/
def portUp (s : State) (q : Nat) : Bool :=
  if cfgN s 0x2000 q 0 != 0 then linkUp s q else clientUp s q

/-- A port's rate in Mb/s: its mode's rate, a client's 5 Gb/s per slot of its transmit calendar (R315). -/
def portRate (s : State) (q : Nat) : Nat :=
  if cfgN s 0x2000 q 0 != 0 then modeRate (if (link s q).resolved = 0 then cfgN s 0x2000 q 0 else (link s q).resolved)
  else match clientGroup s q with
    | some g => 5000 * (txSlots (fxGroup s g) (cfgN s 0x2802 q 1)).length
    | none => 0

end Sys2Proof.Machine
end

