-- ==== Sys2Proof/Machine/Parser.lean ====
section
/-! DEFINITION. Parse window, header graph, parse result and flow key (3.1 to 3.3). -/
namespace Sys2Proof.Machine

/-- Bytes that the Clicker parses (R76). (DEDUCED, log entry 28) -/
def window : Nat := 192

/-- Bit numbers of the parse result's flags (Table 3-4). -/
def fTrunc : Nat := 0
def fMalformed : Nat := 1
def fTrailing : Nat := 2
def fFrag : Nat := 3
def fFragFirst : Nat := 4
def fNoKey : Nat := 5
def fIpOptions : Nat := 6
def fIpv6Ext : Nat := 7
def fTtlExpired : Nat := 8
def fIcmpErr : Nat := 9
def fTcpSyn : Nat := 10
def fTcpFinRst : Nat := 11
def fTcpBad : Nat := 12
def fBcast : Nat := 13
def fMcast : Nat := 14
def fL3Mcast : Nat := 15
def fRouterMac : Nat := 16
def fCsumBad : Nat := 17
def fUdpZero : Nat := 18
def fTunnel : Nat := 19
def fPtp : Nat := 20
def fRecirc : Nat := 21
def fFromHost : Nat := 22
def fLand : Nat := 23

/-- The parser's position in a frame. -/
structure Walk where
  d : Bytes
  router : Bool
  flags : Nat
  trunc : Nat
  cause : Nat
  count : Nat
  level : Nat
  depth : Nat
  /-- end of the enclosing payload (R83) -/
  bound : Nat
  quote : Bool
  pairs : List Pair
  outer : Option Pair
  l2type : Nat
  tag : Option (Nat × Nat)
  innerL2 : Option Nat
  ptp : Option Nat
  /-- offset of the header that opened the level in force -/
  opener : Option Nat
  csums : List Csum

/-- Where the parser goes after a header. -/
inductive Next where
  | halt
  | leave
  | select (len sel : Nat)
  | enter (len node : Nat)

/-- Set a flag. -/
def Walk.flag (w : Walk) (b : Nat) (on : Bool := true) : Walk :=
  if on then { w with flags := w.flags ||| 2 ^ b } else w

/-- n bytes at an offset as a big-endian number; bytes beyond the window are not parsed and read 0 (R76). -/
def Walk.rd (w : Walk) (off n : Nat) : Nat := beNat (padTo n (slice w.d off (min n (window - off))))

/-- One byte; beyond the window 0. -/
def Walk.b (w : Walk) (off : Nat) : Nat := if off < window then (w.d.getD off 0).toNat else 0

/-- One byte of the window; beyond it nothing is parsed, and the value given stands for it (R76).
(DEDUCED, log entry 28) -/
def Walk.seen (w : Walk) (off dflt : Nat) : Nat := if off < window then w.b off else dflt

/-- Stop as MALFORMED (R82). (DEDUCED, log entry 28) -/
def Walk.fail (w : Walk) (cause : Nat) : Walk × Next := ({ w.flag fMalformed with cause := cause }, .halt)

/-- Stop as PARSE_TRUNC (R80). (DEDUCED, log entry 28) -/
def Walk.cut (w : Walk) (cause : Nat) : Walk × Next := ({ w.flag fTrunc with trunc := cause }, .halt)

/-- The frame end that cause 5 is judged against (R82). -/
def Walk.end_ (w : Walk) : Nat := if w.quote then min w.d.length w.bound else w.d.length

/-- A header of len bytes lies in frame and window: go on; else stop, a header that the window cuts with the flags of a
header reached, cutAs (R80 to R82). (DEDUCED, log entry 28) -/
def Walk.within (w : Walk) (off len : Nat) (go : Walk × Next) (cutAs : Walk := w) : Walk × Next :=
  if w.end_ < off + len then w.fail 5 else if window < off + len then cutAs.cut 3 else go

/-- Change the pair of the level in force that parsing last reached. -/
def modLast (f : Pair → Pair) : List Pair → List Pair
  | [] => []
  | [p] => [f p]
  | p :: ps => p :: modLast f ps

/-- The pair of the level in force. -/
def Walk.here (w : Walk) : Option Pair := match w.pairs.getLast? with
  | some p => if p.level = w.level then some p else none
  | none => none

/-- A pair that only an L3 header has opened. -/
def l3Pair (level off len fam src dst proto ttl tos stop : Nat) (quoted : Bool) : Pair :=
  { level := level, l3 := off, l3len := len, l4 := none, l4ok := false, fam := fam, src := src, dst := dst, sport := 0,
    dport := 0, proto := proto, ttl := ttl, dscp := tos / 4, ecn := tos % 4, tcpFlags := none, tcp := (0, 0, 0, 0),
    stop := stop, tunnelId := 0, quoted := quoted }

/-- An L3 header is reached: it opens the level's pair; the first of level 0 is the outer one. A quoted
header takes the place of its level's pair (R89). -/
def Walk.l3 (w : Walk) (p : Pair) (mcast : Bool) : Walk :=
  let tid := (w.pairs.find? fun x => x.level == w.level).map (·.tunnelId)
  let p1 := { p with tunnelId := tid.getD 0 }
  let w1 := { w with pairs := w.pairs.filter (fun x => x.level != w.level) ++ [p1] }
  if p.quoted ∨ w.level ≠ 0 ∨ w.outer.isSome then w1
  else ({ w1 with outer := some p1 }.flag fTtlExpired (w.router && decide (p.ttl ≤ 1))).flag fL3Mcast mcast

/-- Change the pair of the level in force, and the outer pair with it at level 0. -/
def Walk.modPair (w : Walk) (f : Pair → Pair) : Walk :=
  match w.here with
  | none => w
  | some p =>
    let out := if w.level = 0 ∧ !p.quoted then w.outer.map f else w.outer
    { w with pairs := modLast f w.pairs, outer := out }

/-- The port fields of an ICMP or ICMPv6 message (Table 3-7): src_port, dst_port. -/
def icmpPorts (v6 : Bool) (ty code ident : Nat) : Nat × Nat :=
  let req := if v6 then (if ty = 128 ∨ ty = 129 then some 128 else none)
    else if ty = 8 ∨ ty = 0 then some 8 else if ty = 13 ∨ ty = 14 then some 13
    else if ty = 15 ∨ ty = 16 then some 15 else if ty = 17 ∨ ty = 18 then some 17 else none
  match req with
  | some t => (ident, t * 256 + code)
  | none => (0, ty * 256 + code)

/-- The checksum of an L4 header at off with its field at at_, over its L3's addresses (R98); udp is the length field
of a UDP header, beyond which its checksum covers nothing. (DEDUCED, log entry 106) -/
def l4Csum (p : Pair) (off at_ : Nat) (pseudo : Bool) (udp : Option Nat) : Csum :=
  let addrs := if p.fam = 0 then (p.l3 + 12, 8) else (p.l3 + 8, 32)
  let room := p.stop - off
  { at_ := at_, spans := (off, (udp.map (min room ·)).getD room) :: (if pseudo then [addrs] else []),
    kind := if udp.isSome then (if p.fam = 0 then 1 else 2) else 0 }

/-- An L4 header of node n is reached at off: ports, flags and its checksum join the pair. -/
def Walk.l4 (w : Walk) (off n : Nat) : Walk :=
  match w.here with
  | none => w
  | some p =>
    if p.l4.isSome then w
    else
      let ports := if n = 12 ∨ n = 13 then icmpPorts (n == 13) (w.b off) (w.b (off + 1)) (w.rd (off + 4) 2)
        else (w.rd off 2, w.rd (off + 2) 2)
      let fl := if n = 10 ∧ !w.quote ∧ off + 14 ≤ window then some (w.b (off + 13)) else none
      let tcp := if n = 10 ∧ !w.quote then (w.rd (off + 4) 4, w.rd (off + 8) 4, w.rd (off + 14) 2, w.b (off + 12) / 16 * 4)
        else (0, 0, 0, 0)
      let w1 := w.modPair fun x => { x with
        l4 := some off, l4ok := decide (off + 8 ≤ min window w.d.length), sport := ports.1, dport := ports.2, tcpFlags := fl, tcp := tcp }
      let cs := if n = 10 then (if w.quote then [] else [l4Csum p off (off + 16) true none])
        else if n = 11 then [l4Csum p off (off + 6) true (some (w.rd (off + 4) 2))]
        else if n = 12 then [l4Csum p off (off + 2) false none]
        else if n = 13 then [l4Csum p off (off + 2) true none] else []
      { w1 with csums := w1.csums ++ cs }

/-- UDP over IPv6 with checksum 0 (Table 3-4). -/
def Walk.udpZero (w : Walk) (off : Nat) : Walk :=
  match w.here with
  | some p => w.flag fUdpZero (p.fam == 1 && w.rd (off + 6) 2 == 0)
  | none => w

/-- Where a quoted IP header leads: into TCP, UDP, SCTP, ICMP or ICMPv6 (R89). -/
def quotedNext (len proto : Nat) : Next :=
  if proto = 6 then .enter len 10 else if proto = 17 then .enter len 11 else if proto = 132 then .enter len 14
  else if proto = 1 then .enter len 12 else if proto = 58 then .enter len 13 else .leave

/-- Family of an address by its value (R493): 0 IPv4, 1 IPv6. -/
def addrFam (a : Nat) : Nat := if a / 2 ^ 32 = 0xFFFF then 0 else 1

/-- A mapped IPv4 address. -/
def mapped (a : Nat) : Nat := 0xFFFF * 2 ^ 32 + a % 2 ^ 32

/-- The flags of an IPv4 header reached: options, and a fragment, first or not (Table 3-4). -/
def Walk.ipv4Flags (w : Walk) (off : Nat) : Walk :=
  let fr := w.rd (off + 6) 2
  ((w.flag fIpOptions (5 < w.b off % 16)).flag fFrag (fr % 0x4000 != 0)).flag fFragFirst (fr % 0x4000 != 0 && fr % 0x2000 == 0)

/-- Node IPV4 (R82 to R84). -/
def nodeIpv4 (w : Walk) (off : Nat) : Walk × Next :=
  let ihl := w.seen off 5 % 16
  let len := max 5 ihl * 4
  w.within off len (cutAs := if off + 8 ≤ window then w.ipv4Flags off else w.flag fIpOptions (5 < ihl)) <|
    let tl := w.rd (off + 2) 2
    if ihl < 5 then w.fail 1
    else if tl < len then w.fail 2
    else if !w.quote && decide (w.bound < off + tl) then w.fail 3
    else if w.b off / 16 ≠ 4 then w.fail 6
    else
      let fr := w.rd (off + 6) 2
      let w1 := w.flag fTrailing (!w.quote && decide (64 < w.bound - (off + tl)))
      let w3 := (w1.flag fCsumBad (onesFold (sum16 (slice w.d off len)) != 0xFFFF)).ipv4Flags off
      let stop := off + tl
      let proto := w.b (off + 9)
      let p := l3Pair w.level off len 0 (mapped (w.rd (off + 12) 4)) (mapped (w.rd (off + 16) 4)) proto (w.b (off + 8))
        (w.b (off + 1)) stop w.quote
      let w4 := (if w.quote then w3 else { w3 with bound := stop }).l3 p (w.b (off + 16) / 16 == 0xE)
      let w5 := { w4 with csums := w4.csums ++ [{ at_ := off + 10, spans := [(off, len)], kind := 0 }] }
      if fr % 0x4000 ≠ 0 then (w5, .leave)
      else if w.quote then (w5, quotedNext len proto)
      else (w5, .select len proto)

/-- Node IPV6 (R82, R83). -/
def nodeIpv6 (w : Walk) (off : Nat) : Walk × Next :=
  w.within off 40 <|
    let stop := off + 40 + w.rd (off + 4) 2
    if !w.quote && decide (w.bound < stop) then w.fail 3
    else if w.b off / 16 ≠ 6 then w.fail 6
    else
      let w1 := w.flag fTrailing (!w.quote && decide (64 < w.bound - stop))
      let nh := w.b (off + 6)
      let p := l3Pair w.level off 40 1 (w.rd (off + 8) 16) (w.rd (off + 24) 16) nh (w.b (off + 7))
        (w.rd off 2 / 16 % 256) stop w.quote
      let w2 := (if w.quote then w1 else { w1 with bound := stop }).l3 p (w.b (off + 24) == 0xFF)
      if w.quote then (w2, quotedNext 40 nh) else (w2, .select 40 nh)

/-- Nodes V6_HOPOPT, V6_ROUTING and V6_DSTOPT. -/
def nodeV6Ext (w : Walk) (off : Nat) : Walk × Next :=
  let len := (w.seen (off + 1) 0 + 1) * 8
  w.within off len (cutAs := w.flag fIpv6Ext) <|
    if w.bound < off + len then w.fail 8
    else
      let nh := w.b off
      ((w.flag fIpv6Ext).modPair fun p => { p with proto := nh }, .select len nh)

/-- Node V6_FRAG: parsing stops after it (R84). -/
def nodeV6Frag (w : Walk) (off : Nat) : Walk × Next :=
  let w1 := ((w.flag fIpv6Ext).flag fFrag).flag fFragFirst (off + 4 ≤ window && w.rd (off + 2) 2 / 8 == 0)
  w.within off 8 (cutAs := w1) <|
    if w.bound < off + 8 then w.fail 8 else (w1.modPair fun p => { p with proto := w.b off }, .leave)

/-- A quoted L4 header: its first 8 bytes (R89); a TCP data offset that the quote and the window hold is checked
(cause 7). -/
def nodeQuoted (w : Walk) (off n : Nat) : Walk × Next :=
  w.within off 8 <|
    if n = 10 ∧ off + 13 ≤ min w.end_ window ∧ w.b (off + 12) / 16 < 5 then w.fail 7
    else (if n = 11 then (w.l4 off n).udpZero off else w.l4 off n, .leave)

/-- Node TCP (Table 3-5, causes 5 and 7). (PRESUMED, log entry 27) -/
def nodeTcp (w : Walk) (off : Nat) : Walk × Next :=
  let hl := w.seen (off + 12) 0x50 / 16 * 4
  let len := max 20 hl
  w.within off len (cutAs := w.l4 off 10) <|
    if hl < 20 ∨ w.bound < off + len then w.fail 7 else (w.l4 off 10, .leave)

/-- Node UDP (cause 4); the UDP payload encloses what follows (R83). (PRESUMED, log entry 27) -/
def nodeUdp (w : Walk) (off : Nat) : Walk × Next :=
  w.within off 8 <|
    let ul := w.rd (off + 4) 2
    if ul < 8 ∨ w.bound < off + ul then w.fail 4
    else ({ (w.l4 off 11).udpZero off with bound := off + ul }, .select 8 (w.rd (off + 2) 2))

/-- An ICMP or ICMPv6 error type (Table 3-4). -/
def isIcmpError (n ty : Nat) : Bool :=
  if n = 12 then ty == 3 || ty == 4 || ty == 5 || ty == 11 || ty == 12 else decide (1 ≤ ty) && decide (ty ≤ 4)

/-- Nodes ICMP and ICMPV6: an error continues into its quoted IP header (R89). (PRESUMED, log entry 27) -/
def nodeIcmp (w : Walk) (off n : Nat) : Walk × Next :=
  w.within off 8 (cutAs := w.flag fIcmpErr (off < window && isIcmpError n (w.b off))) <|
    let w1 := w.l4 off n
    if isIcmpError n (w.b off) then
      let tid := (w1.here.map (·.tunnelId)).getD 0
      let blank := { l3Pair w.level 0 0 0 0 0 0 0 0 0 true with tunnelId := tid }
      let w2 := { w1.flag fIcmpErr with
        quote := true, pairs := w1.pairs.filter (fun p => p.level != w1.level) ++ [blank] }
      (w2, .enter 8 (if n = 12 then 4 else 5))
    else (w1, .leave)

/-- Node MPLS: one label stack entry. -/
def nodeMpls (w : Walk) (off : Nat) : Walk × Next :=
  w.within off 4 <|
    if w.b (off + 2) % 2 = 0 then (w, .enter 4 3)
    else if w.end_ ≤ off + 4 ∨ window ≤ off + 4 then (w, .leave)
    else if w.b (off + 4) / 16 = 4 then (w, .enter 4 4)
    else if w.b (off + 4) / 16 = 6 then (w, .enter 4 5) else (w, .leave)

/-- The identifier of the tunnel header that opened the level (Table 3-6): the level's pair, once reached,
carries it. -/
def Walk.tunnel (w : Walk) (off id : Nat) : Walk :=
  if w.opener = some off then
    { w with pairs := w.pairs ++ [{ l3Pair w.level 0 0 0 0 0 0 0 0 0 true with tunnelId := id }] }
  else w

/-- Node GRE: optional checksum, key and sequence words. (PRESUMED, log entry 27) -/
def nodeGre (w : Walk) (off : Nat) : Walk × Next :=
  let fl := w.seen off 0
  let len := 4 + 4 * (fl / 128) + 4 * (fl / 32 % 2) + 4 * (fl / 16 % 2)
  w.within off len <|
    let id := if fl / 32 % 2 = 1 then w.rd (off + 4 + 4 * (fl / 128)) 4 % 2 ^ 24 else 0
    (w.tunnel off id, .select len (w.rd (off + 2) 2))

/-- Node GENEVE. (PRESUMED, log entry 27) -/
def nodeGeneve (w : Walk) (off : Nat) : Walk × Next :=
  let len := 8 + w.seen off 0 % 64 * 4
  w.within off len (w.tunnel off (w.rd (off + 4) 3), .select len (w.rd (off + 2) 2))

/-- Nodes ETH and ETH_INNER. -/
def nodeEth (w : Walk) (off n : Nat) : Walk × Next :=
  w.within off 14 <|
    let sel := w.rd (off + 12) 2
    let w1 := if n = 18 ∧ w.innerL2.isNone then { w with innerL2 := some off } else w
    let w2 := if w.level = 0 then { w1 with l2type := sel } else w1
    let w3 := if off = 0 then
        (w2.flag fBcast (w.rd 0 6 == 2 ^ 48 - 1)).flag fMcast (w.b 0 % 2 == 1 && w.rd 0 6 != 2 ^ 48 - 1) else w2
    (w3, .select 14 sel)

/-- Nodes VLAN_C and VLAN_S. -/
def nodeVlan (w : Walk) (off : Nat) : Walk × Next :=
  w.within off 4 <|
    let sel := w.rd (off + 2) 2
    let t := w.rd off 2
    let w1 := if w.level = 0 then
        { w with l2type := sel, tag := if w.tag.isNone then some (t % 4096, t / 8192) else w.tag } else w
    (w1, .select 4 sel)

/-- A user node by its descriptor (R77, Table 3-1). -/
def nodeUser (w : Walk) (off desc : Nat) : Walk × Next :=
  let lw := fld desc 103 99
  let nb := (lw + 7) / 8
  let lo := off + fld desc 111 104
  if lw ≠ 0 ∧ w.end_ < lo + nb then w.fail 5
  else if lw ≠ 0 ∧ window < lo + nb then w.cut 3
  else
    let len := if lw = 0 then fld desc 119 112
      else (w.rd lo nb % 2 ^ lw) * 2 ^ fld desc 98 96 + fld desc 95 88
    let nw := fld desc 79 75
    let no := off + fld desc 87 80
    let bitoff := fld desc 74 72
    let sb := (bitoff + nw + 7) / 8
    w.within off len <|
      if nw = 0 then (w, .enter len (fld desc 71 64))
      else if w.end_ < no + sb then w.fail 5
      else if window < no + sb then w.cut 3
      else (w, .select len (w.rd no sb / 2 ^ (8 * sb - bitoff - nw) % 2 ^ nw))

/-- The descriptor of a user node. -/
def userNode (s : State) (n : Nat) : Nat := leNat (cfgB s (oa 0x3000 n 0))

/-- An unused node: 21 to 31, or a user node of class 0 (R78). -/
def nodeUnused (s : State) (n : Nat) : Bool :=
  (decide (21 ≤ n) && decide (n ≤ 31)) || (decide (32 ≤ n) && fld (userNode s n) 127 124 == 0)

/-- default_next of a node (R79). -/
def defaultNext (s : State) (n : Nat) : Nat := if n = 16 then 18 else if n < 32 then 0xFF else fld (userNode s n) 71 64

/-- What the header at off is, entered as node n. (PRESUMED, log entry 27) -/
def nodeAct (s : State) (w : Walk) (n off : Nat) : Walk × Next :=
  if n = 0 ∨ n = 18 then nodeEth w off n
  else if n = 1 ∨ n = 2 then nodeVlan w off
  else if n = 3 then nodeMpls w off
  else if n = 4 then nodeIpv4 w off
  else if n = 5 then nodeIpv6 w off
  else if n = 6 ∨ n = 7 ∨ n = 9 then nodeV6Ext w off
  else if n = 8 then nodeV6Frag w off
  else if w.quote && decide (10 ≤ n) && decide (n ≤ 14) then nodeQuoted w off n
  else if n = 10 then nodeTcp w off
  else if n = 11 then nodeUdp w off
  else if n = 12 ∨ n = 13 then nodeIcmp w off n
  else if n = 14 then w.within off 12 (w.l4 off 14, .leave) (w.l4 off 14)
  else if n = 15 then nodeGre w off
  else if n = 16 then w.within off 8 (w.tunnel off (w.rd (off + 4) 3), .enter 8 18)
  else if n = 17 then nodeGeneve w off
  else if n = 19 then
    w.within off 34 ({ w.flag fPtp (w.b off % 16 ≤ 3) with ptp := some off }, .leave) (w.flag fPtp (off < window && w.b off % 16 ≤ 3))
  else if n = 20 then w.within off 28 (w, .leave)
  else nodeUser w off (userNode s n)

/-- The valid edge of the lowest entry number that leads from a node on a selector (R78). (PRESUMED, log entry 29) -/
def findEdge (s : State) (node sel : Nat) : Option Nat :=
  let own := s.ctl.active.objs.filterMap fun r => if oaIndex r.1 = 0x3001 then some (oaInst r.1, leNat r.2) else none
  let dflt := match objRow (oa 0x3001 0 0) with
    | some r => match r.dflt with
      | .perInst l => l
      | _ => []
    | none => []
  let rest := (List.range dflt.length).filterMap fun e =>
    if own.any (·.1 == e) then none else some (e, dflt.getD e 0)
  let fits := (rest ++ own).filter fun r =>
    r.2.testBit 63 && fld r.2 62 57 == node && (sel &&& fld r.2 40 25) == (fld r.2 56 41 &&& fld r.2 40 25)
  (fits.foldl (fun b r => match b with
    | none => some r
    | some x => if r.1 < x.1 then some r else some x) none).map (·.2)

/-- Walk the header graph from node n at off; fuel bounds the headers entered (R80). The spec does not say which cause
an edge records that would open a fourth tunnel level and enter a thirteenth header: 2 here; nor whether a tunnel edge
to a thirteenth header, which is not entered, sets TUNNEL and raises tunnel_depth: it does both here.
(DESIGN CHOICE, log entry 111) -/
def walk (s : State) : Nat → Walk → Nat → Nat → Walk
  | 0, w, _, _ => w
  | fuel + 1, w, n, off =>
    if nodeUnused s n then w
    else if w.count = 12 then (w.cut 1).1
    else
      let r := nodeAct s { w with count := w.count + 1 } n off
      match r.2 with
      | .halt => r.1
      | .leave => r.1
      | .enter len m => if m = 0xFF then r.1 else walk s fuel r.1 m (off + len)
      | .select len sel => match findEdge s n sel with
        | none => if defaultNext s n = 0xFF then r.1 else walk s fuel r.1 (defaultNext s n) (off + len)
        | some e =>
          let dest := fld e 24 19
          if e.testBit 18 || nodeUnused s dest then r.1
          else if e.testBit 17 then
            if r.1.level = 3 then (r.1.cut 2).1
            else
              let w1 := { r.1.flag fTunnel with
                level := r.1.level + 1, depth := max r.1.depth (r.1.level + 1), opener := some (off + len) }
              walk s fuel w1 dest (off + len)
          else walk s fuel r.1 dest (off + len)

/-- A pair is complete (R86). A pair that a stop of R80 left at an IPv6 extension header is not: its L4 header was not
reached. -/
def pairComplete (stopped : Bool) (p : Pair) : Bool :=
  p.l3len != 0 && !(stopped && p.fam == 1 && [0, 43, 44, 60].contains p.proto && p.l4.isNone) && (if p.proto = 6 ∨ p.proto = 17 ∨ p.proto = 132 ∨ p.proto = 1 ∨ p.proto = 58 then p.l4.isSome && p.l4ok else true)

/-- The pair that the key is built from: the innermost complete one, or the level-0 pair (R86). -/
def choosePair (stopped : Bool) (pairs : List Pair) (level0 : Bool) : Option Pair :=
  (pairs.filter fun p => pairComplete stopped p && (!level0 || p.level == 0)).foldl (fun b p => match b with
    | none => some p
    | some x => if x.level < p.level then some p else some x) none

/-- Set or clear a flag of a parse result. -/
def setFlag (w : BitVec 64) (b : Nat) (on : Bool) : BitVec 64 := putBf w b b (b2n on)

/-- The values of the parse result that depend on the key level, for the pair chosen (R92, Table 3-4). -/
def settleKey (p : Parse) (level0 : Bool) : Parse :=
  match choosePair (bit p.word fTrunc || bit p.word fMalformed) p.pairs level0 with
  | none =>
    let w := setFlag (setFlag (setFlag (setFlag (setFlag p.word fNoKey true) fLand false) fTcpSyn false) fTcpFinRst false) fTcpBad false
    { p with word := putBf w 41 40 0, keyPair := none }
  | some k =>
    let fl := k.tcpFlags.getD 0
    let tcp := k.proto == 6 && k.tcpFlags.isSome
    let syn := fl / 2 % 2 == 1
    let fin := fl % 2 == 1
    let rst := fl / 4 % 2 == 1
    let ack := fl / 16 % 2 == 1
    let w0 := putBf (setFlag p.word fNoKey false) 41 40 k.level
    let w1 := setFlag (setFlag w0 fLand (k.src == k.dst)) fTcpSyn (tcp && syn && !ack)
    let w2 := setFlag w1 fTcpFinRst (tcp && (fin || rst))
    { p with word := setFlag w2 fTcpBad (tcp && ((syn && (fin || rst)) || fl == 0)), keyPair := some k }

/-- Parse a frame, its FCS removed (R76 to R84, R86). (DESIGN CHOICE, log entry 30) -/
def parseFrame (s : State) (d : Bytes) (router fromHost recirc : Bool) : Parse :=
  let w0 : Walk := {
    d := d, router := router, flags := b2n router * 2 ^ fRouterMac + b2n fromHost * 2 ^ fFromHost + b2n recirc * 2 ^ fRecirc,
    trunc := 0, cause := 0, count := 0, level := 0, depth := 0, bound := d.length, quote := false, pairs := [],
    outer := none, l2type := 0, tag := none, innerL2 := none, ptp := none, opener := none, csums := [] }
  let w := walk s 14 w0 0 0
  let word := w.count * 2 ^ 44 + w.depth * 2 ^ 42 + w.trunc * 2 ^ 38 + w.cause * 2 ^ 34 + w.flags
  settleKey {
    word := BitVec.ofNat 64 word, pairs := w.pairs, outer := w.outer, keyPair := none, l2type := w.l2type,
    vlan := (w.tag.getD (0, 0)).1, pcp := (w.tag.getD (0, 0)).2, innerL2 := w.innerL2, ptp := w.ptp,
    csums := w.csums } false

/-! ### Flow key (R85 to R88) -/

/-- The flow key of its fields (Table 3-6). -/
def mkKey (fam level zone proto sport dport src dst tid : Nat) (swapped : Bool) : BitVec 384 :=
  BitVec.ofNat 384 (fam % 2 * 2 ^ 383 + b2n swapped * 2 ^ 382 + level % 4 * 2 ^ 380 + zone % 2 ^ 16 * 2 ^ 360 +
    proto % 2 ^ 8 * 2 ^ 352 + sport % 2 ^ 16 * 2 ^ 336 + dport % 2 ^ 16 * 2 ^ 320 + src % 2 ^ 128 * 2 ^ 192 +
    dst % 2 ^ 128 * 2 ^ 64 + tid % 2 ^ 24 * 2 ^ 40)

/-- Normalise the direction of a key's endpoints (R88): an ICMP or ICMPv6 key exchanges its addresses only. -/
def normKey (fam level zone proto sport dport src dst tid : Nat) : BitVec 384 :=
  if proto = 1 ∨ proto = 58 then
    if dst < src then mkKey fam level zone proto sport dport dst src tid true
    else mkKey fam level zone proto sport dport src dst tid false
  else if dst * 2 ^ 16 + dport < src * 2 ^ 16 + sport then mkKey fam level zone proto dport sport dst src tid true
  else mkKey fam level zone proto sport dport src dst tid false

/-- The flow key of a pair (R85). -/
def pairKey (p : Pair) (zone : Nat) : BitVec 384 :=
  normKey p.fam p.level zone p.proto p.sport p.dport p.src p.dst (if p.level = 0 then 0 else p.tunnelId)

/-- A key with its swapped bit and its reserved bits taken as 0, as hashes and comparisons use it (R85, R131). -/
def bareKey (k : BitVec 384) : BitVec 384 := putBf (putBf (putBf k 382 382 0) 379 376 0) 39 0 0

end Sys2Proof.Machine
end

