-- ==== Sys2Proof/Machine/Rules.lean ====
section
/-! DEFINITION. Rule stages: match fields, entries, action words and their merge (3.4). -/
namespace Sys2Proof.Machine

/-- Key width of a profile in bits: 0 V4, 1 V6, 2 FULL (R91). -/
def profWidth (prof : Nat) : Nat := if prof = 0 then 256 else if prof = 1 then 512 else 1024

/-- Units that an entry of a profile takes (R90). -/
def profUnits (prof : Nat) : Nat := if prof = 0 then 1 else if prof = 1 then 2 else 4

/-- Bytes of an entry of a profile: value, mask and action word (Table 4-11). -/
def profBytes (prof : Nat) : Nat := 2 * (profWidth prof / 8) + 16

/-- Entries that a stage of a bank holds (R90). -/
def stageEntries (b : Banked) (g st : Nat) : Nat := stageN b 0x3011 g st / profUnits (stageN b 0x3010 g st)

/-- Key of an entry in the rule table of a bank. -/
def ruleKey (g st e : Nat) : Nat := (4 * g + st) * 2 ^ 20 + e

/-- The pair that a stage of level KEY matches: the key pair, or under NO_KEY the outermost reached (R90). -/
def viewPair (p : Parse) (outer : Bool) : Option Pair :=
  if outer then p.outer
  else match p.keyPair with
    | some k => some k
    | none => match p.outer with
      | some o => some o
      | none => (p.pairs.filter fun x => x.l3len != 0).foldl (fun b x => match b with
        | none => some x
        | some y => if x.level < y.level then some x else some y) none

/-- The match fields of a packet in row order of Table 3-8: width and value. -/
def matchFields (prof port zone metadata pass : Nat) (p : Parse) (outer : Bool) (d : Bytes) : List (Nat × Nat) :=
  let v := viewPair p outer
  let f := fun (g : Pair → Nat) => match v with
    | some x => g x
    | none => 0
  let ety := match v with
    | some x => if x.fam = 0 then 0x0800 else 0x86DD
    | none => p.l2type
  let aw := if prof = 0 then 32 else 128
  let base := [(10, port), (16, zone), (16, metadata), (24, bf p.word 23 0), (2, bf p.word 43 42), (2, bf p.word 41 40),
    (2, pass), (16, ety), (12, p.vlan), (3, p.pcp), (8, f (·.proto)), (6, f (·.dscp)), (2, f (·.ecn)),
    (aw, f (·.src)), (aw, f (·.dst)), (16, f (·.sport)), (16, f (·.dport)), (8, f fun x => x.tcpFlags.getD 0)]
  if prof ≤ 1 then base
  else base ++ [(8, f (·.ttl)), (24, f fun x => if x.level = 0 then 0 else x.tunnelId), (48, beNat (slice d 6 6)),
    (48, beNat (d.take 6)), (14, d.length + 4)]

/-- Pack fields from the most significant bit, padded at the low end to the key width (R91). -/
def packFields (width : Nat) (fs : List (Nat × Nat)) : Nat :=
  let r := fs.foldl (fun (a : Nat × Nat) x => (a.1 * 2 ^ x.1 + x.2 % 2 ^ x.1, a.2 + x.1)) (0, 0)
  r.1 * 2 ^ (width - r.2)

/-- An entry's value, mask and action word. (DESIGN CHOICE, log entry 31) -/
def entryValue (prof : Nat) (e : BitVec 2176) : Nat := bf e (profWidth prof - 1) 0
def entryMask (prof : Nat) (e : BitVec 2176) : Nat := bf e (2 * profWidth prof - 1) (profWidth prof)
def entryAction (prof : Nat) (e : BitVec 2176) : BitVec 128 :=
  BitVec.ofNat 128 (bf e (2 * profWidth prof + 127) (2 * profWidth prof))

/-- The lowest matching entry among those listed from number i on: an entry that is not listed is all
zeros, matches every packet and sets nothing (R90, R92). None: no entry below n matches.
(DESIGN CHOICE, log entry 31) -/
def firstMatch (prof key n base : Nat) : Nat → List (Nat × BitVec 2176) → Option (Option (BitVec 2176))
  | i, [] => if i < n then some none else none
  | i, (k, e) :: t =>
    if k < base + i then firstMatch prof key n base i t
    else if n ≤ i then none
    else if base + i < k then some none
    else if (key &&& entryMask prof e) = (entryValue prof e &&& entryMask prof e) then some (some e)
    else firstMatch prof key n base (i + 1) t

/-- Bit of flag MALFORMED in a stage key (R91). -/
def malformedBit (prof : Nat) : Nat := profWidth prof - 66 + fMalformed

/-- Run one stage of a group on a packet: the action taken (R92). (DESIGN CHOICE, log entry 31) -/
def stageRun (b : Banked) (g st port zone metadata pass : Nat) (p : Parse) (d : Bytes) : StageAct :=
  let prof := stageN b 0x3010 g st
  let key := packFields (profWidth prof)
    (matchFields prof port zone metadata pass p (stageN b 0x3012 g st == 1) d)
  match firstMatch prof key (stageEntries b g st) (ruleKey g st 0) 0 b.rules with
  | none => { word := BitVec.ofNat 128 (stageN b 0x3013 g st), malformed := false }
  | some none => { word := 0, malformed := false }
  | some (some e) => {
      word := entryAction prof e,
      malformed := (entryMask prof e).testBit (malformedBit prof) && (entryValue prof e).testBit (malformedBit prof) }

/-! ### Action word (Table 3-9) -/

def aFinal (w : BitVec 128) : Bool := bit w 127
def aVerdict (w : BitVec 128) : Nat := bf w 126 125
def aTrap (w : BitVec 128) : Bool := bit w 124
def aTrapRing (w : BitVec 128) : Nat := bf w 123 118
def aRecirc (w : BitVec 128) : Bool := bit w 117
def aLookup (w : BitVec 128) : Bool := bit w 116
def aKeyLevel (w : BitVec 128) : Bool := bit w 115
def aSetZone (w : BitVec 128) : Bool := bit w 114
def aZone (w : BitVec 128) : Nat := bf w 113 98
def aTemplate (w : BitVec 128) : Nat := bf w 97 90
def aOvfDrop (w : BitVec 128) : Bool := bit w 89
def aNhKind (w : BitVec 128) : Nat := bf w 88 87
def aNhValue (w : BitVec 128) : Nat := bf w 86 63
def aSetEdit (w : BitVec 128) : Bool := bit w 62
def aEdit (w : BitVec 128) : Nat := bf w 61 50
def aSetMeter (w : BitVec 128) : Bool := bit w 49
def aMeter (w : BitVec 128) : Nat := bf w 48 29
def aMirror (w : BitVec 128) : Nat := bf w 28 25
def aTelemetry (w : BitVec 128) : Nat := bf w 24 21
def aSetClass (w : BitVec 128) : Bool := bit w 20
def aClass (w : BitVec 128) : Nat := bf w 19 17
def aSetMeta (w : BitVec 128) : Bool := bit w 16
def aMeta (w : BitVec 128) : BitVec 16 := BitVec.ofNat 16 (bf w 15 0)

/-- A reserved value in an action word: verdict 3, or nh_value bits that its kind keeps zero (R93). -/
def actionReserved (w : BitVec 128) : Bool :=
  aVerdict w == 3 || (aNhKind w == 2 && fld (aNhValue w) 23 10 != 0) || (aNhKind w == 3 && fld (aNhValue w) 23 16 != 0)

/-- Run stages 1 to 3 after stage 0: the metadata that reaches them, and whether final was set (R92).
(DESIGN CHOICE, log entry 31) -/
def stagesRun (b : Banked) (g port zone pass : Nat) (p : Parse) (d : Bytes) :
    List Nat → BitVec 16 → Bool → List StageAct
  | [], _, _ => []
  | st :: rest, m, fin =>
    let a := stageRun b g st port zone m.toNat pass p d
    let m' := if !fin && aSetMeta a.word then aMeta a.word else m
    a :: stagesRun b g port zone pass p d rest m' (fin || aFinal a.word)

/-- The merged action of the stages (R94). -/
structure Merged where
  verdict : Nat
  trap : Bool
  trapRing : Nat
  /-- the trap came from an entry that covers MALFORMED with value 1 (R82) -/
  trapMalformed : Bool
  recirc : Bool
  nhKind : Nat
  nhValue : Nat
  edit : Nat
  meter : Nat
  mirror : Nat
  telemetry : Nat
  cls : Nat
  mdata : Option (BitVec 16)

/-- Nothing set. -/
def mergedNone : Merged :=
  { verdict := 0, trap := false, trapRing := 0, trapMalformed := false, recirc := false, nhKind := 0, nhValue := 0,
    edit := 0, meter := 0, mirror := 0, telemetry := 0, cls := 0, mdata := none }

/-- The merge of one more stage: what it sets prevails (R94). (DESIGN CHOICE, log entry 33) -/
def mergeOne (m : Merged) (a : StageAct) : Merged :=
  let w := a.word
  { verdict := if aVerdict w = 0 then m.verdict else aVerdict w,
    trap := m.trap || aTrap w,
    trapRing := if aTrap w then aTrapRing w else m.trapRing,
    trapMalformed := if aTrap w then a.malformed else m.trapMalformed,
    recirc := m.recirc || aRecirc w,
    nhKind := if aNhKind w = 0 then m.nhKind else aNhKind w,
    nhValue := if aNhKind w = 0 then m.nhValue else aNhValue w,
    edit := if aSetEdit w then aEdit w else m.edit,
    meter := if aSetMeter w then aMeter w else m.meter,
    mirror := if aMirror w = 0 then m.mirror else aMirror w,
    telemetry := m.telemetry ||| aTelemetry w,
    cls := if aSetClass w then aClass w else m.cls,
    mdata := if aSetMeta w then some (aMeta w) else m.mdata }

/-- Merge the stages up to and including the first with final set (R94). (DESIGN CHOICE, log entry 33) -/
def mergeActs : Merged → List StageAct → Merged
  | m, [] => m
  | m, a :: t => if aFinal a.word then mergeOne m a else mergeActs (mergeOne m a) t

/-- The merged action of a packet. -/
def merged (p : Packet) : Merged := mergeActs mergedNone p.acts

/-- An action word holds a reserved value, or a port or service beyond its range (Table 3-9). -/
def actionBad (w : BitVec 128) : Bool :=
  aVerdict w == 3 || (aNhKind w == 2 && decide (1023 < aNhValue w)) || (aNhKind w == 3 && decide (65535 < aNhValue w))

end Sys2Proof.Machine
end

