-- ==== Sys2Proof/Machine/Hashes.lean ====
section
/-! DEFINITION. Seeded hashes (R131, R132) and next-hop entries (R110). -/
namespace Sys2Proof.Machine

/-- CRC-32C(seed, data) with the substitution of R131; s gives the seed byte of the next data byte. -/
def seededRun (seed : Nat) : Nat → Bytes → Nat → Nat
  | _, [], crc => crc
  | i, b :: t, crc =>
    let x := sbox (b ^^^ BitVec.ofNat 8 (seed / 2 ^ (8 * (i % 4))))
    seededRun seed (i + 1) t (crcBits 0x82F63B78 8 (crc ^^^ x.toNat))

/-- CRC-32C(seed, data) (R131). -/
def seededCrc (seed : Nat) (bs : Bytes) : Nat := seededRun seed 0 bs 0xFFFFFFFF ^^^ 0xFFFFFFFF

/-- Flow seed n in force: flow.seed[n], and from REHASH's switch to its end the new seed (R189, R191). -/
def flowSeed (s : State) (n : Nat) : Nat :=
  match s.flow.rehash with
  | some r => if r.phase = 2 then r.seeds.getD (n - 1) 0 else cfgN s 0x4000 n 0
  | none => cfgN s 0x4000 n 0

/-- The 48 bytes of a flow key as hashes take it: big-endian, swapped 0 (R85, R131). -/
def keyBytes (k : BitVec 384) : Bytes := beBytes 48 (bareKey k).toNat

/-- CRC-32C(seed n, K). -/
def keyHash (s : State) (n : Nat) (k : BitVec 384) : Nat := seededCrc (flowSeed s n) (keyBytes k)

/-- The home slice of a key: H1[3:0] (Table 5-1). -/
def homeSlice (s : State) (k : BitVec 384) : Nat := keyHash s 1 k % 16

/-- The selection hash S of a packet (R114). (DESIGN CHOICE, log entry 114) -/
def selectHash (s : State) (p : Packet) : Nat :=
  match p.key with
  | some k => keyHash s 2 k
  | none =>
    match p.parse.bind (·.outer) with
    | some o => seededCrc (flowSeed s 2) (beBytes 16 o.src ++ beBytes 16 o.dst)
    | none => seededCrc (flowSeed s 2) (p.data.take 12 ++ beBytes 2 ((p.parse.map (·.l2type)).getD 0))

/-- The ENTROPY source (Table 3-13). -/
def entropyOf (s : State) (p : Packet) : Nat :=
  let h := match p.key with
    | some k => keyHash s 1 k
    | none => seededCrc (flowSeed s 1) (p.data.take 12 ++ beBytes 2 ((p.parse.map (·.l2type)).getD 0))
  0xC000 ||| fld h 29 16

/-! ### Next-hop entries (Table 4-2) -/

/-- A next-hop entry of either tier. -/
def nhEntry (s : State) (i : Nat) : BitVec 512 := tget 0 s.fwd.nh i

def nhKind (e : BitVec 512) : Nat := bf e 511 509
def nhTunnel (e : BitVec 512) : Bool := bit e 508
def nhTrapRing (e : BitVec 512) : Nat := bf e 507 502
def nhPort (e : BitVec 512) : Nat := bf e 501 492
def nhVlan (e : BitVec 512) : Nat := bf e 491 480
def nhEcmp (e : BitVec 512) : Nat := bf e 479 468
def nhDmac (e : BitVec 512) : Nat := bf e 467 420
def nhSmac (e : BitVec 512) : Nat := bf e 419 372
def nhTunId (e : BitVec 512) : Nat := bf e 371 348
def nhTunSrc (e : BitVec 512) : Nat := bf e 347 220
def nhTunDst (e : BitVec 512) : Nat := bf e 219 92

end Sys2Proof.Machine
end

