-- ==== Sys2Proof/Machine/Editor.lean ====
section
/-! DEFINITION. Edit programs and the editors that run them (3.5). -/
namespace Sys2Proof.Machine

/-! ### Instruction words (Tables 3-10 and 3-11) -/

def eOp (w : Nat) : Nat := fld w 63 59
def eAnchor (w : Nat) : Nat := fld w 58 55
def eOffset (w : Nat) : Nat := fld w 54 47
def eBitoff (w : Nat) : Nat := fld w 46 44
def eWidth (w : Nat) : Nat := fld w 43 37 + 1
def eSrc (w : Nat) : Nat := fld w 36 32
def eImm (w : Nat) : Nat := fld w 31 0

/-- Word i of an edit program of a bank. -/
def editWord (b : Banked) (prog i : Nat) : Nat := bf (tget 0 b.edits prog) (64 * i + 63) (64 * i)

/-- A word that an edit program may not hold (R96). -/
def editReserved (w : Nat) : Bool :=
  decide (9 < eOp w) || decide (6 < eAnchor w) || decide (11 < eSrc w) || (eOp w == 2 && decide (32 < eWidth w))

/-- The words that a program executes: up to its first END (R96). -/
def progWords (b : Banked) (prog : Nat) : List Nat :=
  ((List.range 16).map (editWord b prog)).takeWhile fun w => eOp w != 0

/-- The program holds no POP and no XLATE (R260). -/
def progCutThrough (b : Banked) (prog : Nat) : Bool := (progWords b prog).all fun w => eOp w != 5 && eOp w != 8

/-! ### The frame being edited -/

/-- Bytes that an instruction may touch: the first 320 of the frame (R99). -/
def editLimit (j : EditJob) : Nat := min 320 j.frame.length

/-- Offset of an anchor; none: it does not exist. L2 is frame byte 0 (Table 3-12). -/
def anchorAt (j : EditJob) (a : Nat) : Option Nat :=
  if a = 0 then some 0 else (j.anchors.find? fun x => x.1 == a).map (·.2)

/-- Bytes that a bit field takes. -/
def fieldBytes (bitoff width : Nat) : Nat := (bitoff + width + 7) / 8

/-- Read a bit field; none: it lies beyond the limit (cause 6). -/
def readField (j : EditJob) (pos bitoff width : Nat) : Option Nat :=
  let nb := fieldBytes bitoff width
  if editLimit j < pos + nb then none
  else some (beNat (slice j.frame pos nb) / 2 ^ (8 * nb - bitoff - width) % 2 ^ width)

/-- Bytes with a bit field replaced. -/
def putField (frame : Bytes) (pos bitoff width v : Nat) : Bytes :=
  let nb := fieldBytes bitoff width
  let sh := 8 * nb - bitoff - width
  let old := beNat (slice frame pos nb)
  patch frame pos (beBytes nb (old - old / 2 ^ sh % 2 ^ width * 2 ^ sh + v % 2 ^ width * 2 ^ sh))

/-! ### Checksums (R98) -/

/-- The byte at p within a span that ends at stop; 0 beyond it. -/
def spanByte (bs : Bytes) (p stop : Nat) : Nat := if p < stop then (bs.getD p 0).toNat else 0

/-- The changed 16-bit words of a span from off to stop: sum of the complements of the old and of the new
ones; skip is the checksum field's own offset. -/
def spanDelta (old new : Bytes) (skip stop : Nat) : Nat → Nat → Nat
  | 0, _ => 0
  | n + 1, p =>
    let word := fun (bs : Bytes) => spanByte bs p stop * 256 + spanByte bs (p + 1) stop
    (if p = skip ∨ word old = word new then 0 else 65535 - word old + word new) + spanDelta old new skip stop n (p + 2)

/-- Words of a span that lie within the bytes an editor may touch. (DESIGN CHOICE, log entry 39) -/
def spanWords (off len : Nat) : Nat := (min (off + len) 322 - off + 1) / 2

/-- Update one checksum for the bytes that changed (RFC 1624). (DESIGN CHOICE, log entry 39) -/
def csumFix (old new : Bytes) (c : Csum) : Bytes :=
  let d := (c.spans.map fun s => spanDelta old new c.at_ (s.1 + s.2) (spanWords s.1 s.2) s.1).sum
  let hc := beNat (slice new c.at_ 2)
  if d = 0 ∨ (c.kind = 1 ∧ hc = 0) ∨ new.length < c.at_ + 2 then new
  else
    let v := 65535 - onesFold (onesFold (65535 - hc + d))
    patch new c.at_ (beBytes 2 (if v = 0 ∧ c.kind ≠ 0 then 65535 else v))

/-- Take a changed frame of the same length: every checksum that covers a changed byte follows, the
innermost first. -/
def changed (j : EditJob) (new : Bytes) : EditJob :=
  { j with frame := j.csums.reverse.foldl (fun f c => csumFix j.frame f c) new }

/-- Write a bit field with its checksums; none: cause 6. -/
def writeField (j : EditJob) (pos bitoff width v : Nat) : Option EditJob :=
  if editLimit j < pos + fieldBytes bitoff width then none
  else some (changed j (putField j.frame pos bitoff width v))

/-! ### PUSH and POP (R97) -/

/-- Insert bytes: anchors at or behind the point move; a checksum whose header or payload the point lies
within is no longer maintained (R98). -/
def insertBytes (j : EditJob) (pos : Nat) (bs : Bytes) : EditJob :=
  let n := bs.length
  let keep := j.csums.filter fun c => match c.spans.head? with
    | some (o, l) => !(decide (o < pos) && decide (pos < o + l))
    | none => false
  let mv := fun (x : Nat) => if pos ≤ x then x + n else x
  { j with
    frame := j.frame.take pos ++ bs ++ j.frame.drop pos,
    anchors := j.anchors.map fun a => (a.1, mv a.2),
    csums := keep.map fun c => { c with at_ := mv c.at_, spans := c.spans.map fun s => (mv s.1, s.2) },
    orig := j.orig.map mv, corr := j.corr.map mv }

/-- Remove the bytes from a to b: anchors behind move, anchors inside are gone. -/
def removeBytes (j : EditJob) (a b : Nat) : EditJob :=
  if b ≤ a then j
  else
    let n := b - a
    let keep := j.csums.filter fun c => match c.spans.head? with
      | some (o, l) => !(decide (o < b) && decide (a < o + l))
      | none => false
    let mv := fun (x : Nat) => if b ≤ x then x - n else min x a
    { j with
      frame := j.frame.take a ++ j.frame.drop b,
      anchors := (j.anchors.filter fun x => !(decide (a ≤ x.2) && decide (x.2 < b))).map fun x => (x.1, mv x.2),
      csums := keep.map fun c =>
        { c with at_ := mv c.at_, spans := c.spans.map fun s => (mv s.1, mv (s.1 + s.2) - mv s.1) },
      orig := (j.orig.filter fun x => !(decide (a ≤ x) && decide (x < b))).map mv,
      corr := match j.corr with
        | some c => if a < c + 8 ∧ c < b then none else some (mv c)
        | none => none }

/-- An anchor for a template offset of 0: none. -/
def templAnchor (code off : Nat) : List (Nat × Nat) := if off = 0 then [] else [(code, off)]

/-- PUSH template t at pos (R97, R99): the job, or a fault cause. -/
def pushTemplate (j : EditJob) (b : Banked) (pos t : Nat) (atL2 : Bool) : EditJob × Nat :=
  let e := (tget 0 b.headers t).toNat
  let len := min 64 (fld e 7 0)
  if 2 ≤ j.pushes ∨ 128 < j.pushed + len then (j, 3)
  else if editLimit j < pos then (j, 6)
  else
    let bs := slice (leBytes 72 e) 8 len
    let j1 := { insertBytes j pos bs with pushes := j.pushes + 1, pushed := j.pushed + len }
    if atL2 && e.testBit 24 then
      let rest := j1.anchors.filter fun a => a.1 != 1 && a.1 != 2 && a.1 != 5
      ({ j1 with anchors := rest ++ templAnchor 1 (fld e 15 8) ++ templAnchor 2 (fld e 23 16) ++ [(5, len)] }, 0)
    else (j1, 0)

/-- POP at pos (R99): the job, or a fault cause. -/
def popBytes (j : EditJob) (pos imm : Nat) : EditJob × Nat :=
  let stop := if imm.testBit 15 then anchorAt j (imm % 16) else some (pos + imm % 256)
  match stop with
  | none => (j, 1)
  | some e =>
    if e < pos then (j, 3)
    else if 192 < j.removed + (e - pos) then (j, 3)
    else if editLimit j < e then (j, 6)
    else ({ removeBytes j pos e with removed := j.removed + (e - pos) }, 0)

/-! ### Sources (Table 3-13) -/

/-- A NAT address: the entry of the NAT address table it names, or the address itself (R150, R176). -/
def natAddr (s : State) (n : Bool × Nat × Nat) : Nat :=
  if n.1 then (tget (0 : BitVec 128) s.fwd.natab n.2.1).toNat else n.2.1

/-- The value of a source; none: it does not exist (cause 2). -/
def editSource (s : State) (j : EditJob) (src imm : Nat) : Option Nat :=
  let nh := j.nh.map (nhEntry s)
  let tun := nh.bind fun e => if nhTunnel e then some e else none
  match src with
  | 0 => some imm
  | 1 => j.nat.map (natAddr s)
  | 2 => j.nat.map (·.2.2)
  | 3 => nh.map nhDmac
  | 4 => nh.map nhSmac
  | 5 => nh.map nhVlan
  | 6 => some j.metadata.toNat
  | 7 => some j.zone
  | 8 => tun.map nhTunId
  | 9 => tun.map nhTunSrc
  | 10 => tun.map nhTunDst
  | 11 => some j.entropy
  | _ => none

/-! ### DEC_TTL, FIXLEN and XLATE -/

/-- The version nibble at an L3 anchor; 0: no IP header there (R99). -/
def ipVersion (j : EditJob) (anchor pos : Nat) : Nat :=
  let v := if pos < j.frame.length then (j.frame.getD pos 0).toNat / 16 else 0
  if (anchor = 1 ∨ anchor = 3) ∧ (v = 4 ∨ v = 6) then v else 0

/-- DEC_TTL: the job, or a cause; 7 is the TTL drop (Table 3-11, R99). -/
def decTtl (j : EditJob) (anchor pos : Nat) : EditJob × Nat :=
  let v := ipVersion j anchor pos
  if v = 0 then (j, 1)
  else
    let f := if v = 4 then pos + 8 else pos + 7
    match readField j f 0 8 with
    | none => (j, 6)
    | some ttl => if ttl ≤ 1 then (j, 7) else
      match writeField j f 0 8 (ttl - 1) with
      | some j1 => (j1, 0)
      | none => (j, 6)

/-- The header at an L4 anchor is UDP: its level's L3 header names 17 (R99). -/
def udpAt (j : EditJob) (anchor : Nat) : Bool :=
  if anchor = 2 ∨ anchor = 4 then
    match anchorAt j (anchor - 1) with
    | some o =>
      let v := ipVersion j (anchor - 1) o
      (v == 4 && (j.frame.getD (o + 9) 0).toNat == 17) || (v == 6 && (j.frame.getD (o + 6) 0).toNat == 17)
    | none => false
  else false

/-- Length of the IPv4 header at an offset, as its IHL field states it. -/
def ihlBytes (j : EditJob) (pos : Nat) : Nat := (j.frame.getD pos 0).toNat % 16 * 4

/-- FIXLEN: the job, or a cause (Table 3-11, R99). The spec states no checksum for an IPv4 header whose IHL is
below 5: there it is the free value. (DESIGN CHOICE, log entry 39) -/
def fixLen (j : EditJob) (anchor pos free : Nat) : EditJob × Nat :=
  let n := j.frame.length - pos
  let v := ipVersion j anchor pos
  if v = 4 then
    let hl := ihlBytes j pos
    if editLimit j < pos + max 20 hl then (j, 6)
    else
      let f1 := patch (patch j.frame (pos + 2) (beBytes 2 n)) (pos + 10) [0, 0]
      let c := if hl < 20 then free else inetChecksum 0 (slice f1 pos hl)
      ({ j with frame := patch f1 (pos + 10) (beBytes 2 c) }, 0)
  else if v = 6 then
    if editLimit j < pos + 40 then (j, 6) else ({ j with frame := patch j.frame (pos + 4) (beBytes 2 (n - 40)) }, 0)
  else if udpAt j anchor then
    if editLimit j < pos + 8 then (j, 6) else ({ j with frame := patch j.frame (pos + 4) (beBytes 2 n ++ [0, 0]) }, 0)
  else (j, 1)

/-- An IPv4 address embedded under a prefix of plen bits, the u octet zero (RFC 6052). (PRESUMED, log entry 40) -/
def embed64 (pre plen v4 : Nat) : Nat :=
  if plen = 96 then pre / 2 ^ 32 * 2 ^ 32 + v4
  else
    let body := pre / 2 ^ (128 - plen) * 2 ^ (120 - plen) + v4 * 2 ^ (88 - plen)
    body / 2 ^ 56 * 2 ^ 64 + body % 2 ^ 56

/-- The IPv4 address embedded in an IPv6 address under a prefix of plen bits (RFC 6052). (PRESUMED, log entry 40) -/
def extract64 (plen a : Nat) : Nat :=
  if plen = 96 then a % 2 ^ 32
  else (a / 2 ^ 64 * 2 ^ 56 + a % 2 ^ 56) / 2 ^ (88 - plen) % 2 ^ 32

/-- The bytes of an L4 header and payload that its checksum covers: of UDP, its length field's. -/
def l4Covered (l4 : Bytes) (proto : Nat) : Bytes := if proto = 17 then l4.take (beNat (slice l4 4 2)) else l4

/-- The L4 checksum after its pseudo-header's addresses changed from old to new bytes; a UDP checksum of 0
over IPv4 is computed whole, as IPv6 needs one. (PRESUMED, log entry 40) -/
def xlateCsum (l4 : Bytes) (proto : Nat) (old new : Bytes) : Bytes :=
  let at_ := if proto = 6 then 16 else 6
  let hc := beNat (slice l4 at_ 2)
  let v := if proto = 17 ∧ hc = 0 then
      65535 - onesFold (onesFold (sum16 new + 17 + (l4Covered l4 proto).length + sum16 (l4Covered l4 proto)))
    else 65535 - onesFold (onesFold (65535 - hc + (65535 - onesFold (sum16 old)) + sum16 new))
  if l4.length < at_ + 2 then l4
  else patch l4 at_ (beBytes 2 (if v = 0 ∧ proto = 17 then 65535 else v))

/-- Replace the L3 header at pos, cut the padding, and let EtherType, anchors and checksums follow.
(PRESUMED, log entry 40) -/
def xlateApply (j : EditJob) (pos oldLen : Nat) (hdr l4 : Bytes) (ety newEty proto : Nat) : EditJob :=
  let pre := j.frame.take pos
  let pre1 := if 2 ≤ pos ∧ beNat (slice pre (pos - 2) 2) = ety then patch pre (pos - 2) (beBytes 2 newEty) else pre
  let mv := fun (x : Nat) => if pos + oldLen ≤ x then x + hdr.length - oldLen else x
  let l4at := pos + hdr.length
  let outer := j.csums.filter fun c => decide (c.at_ < pos) && c.spans.all fun s => decide (s.1 + s.2 ≤ pos)
  let v4 := hdr.length == 20
  let own := (if v4 then [{ at_ := pos + 10, spans := [(pos, 20)], kind := 0 : Csum }] else []) ++
    [{ at_ := l4at + (if proto = 6 then 16 else 6),
       spans := [(l4at, (l4Covered l4 proto).length), if v4 then (pos + 12, 8) else (pos + 8, 32)],
       kind := if proto = 6 then 0 else if v4 then 1 else 2 : Csum }]
  { j with
    frame := pre1 ++ hdr ++ l4, anchors := j.anchors.map fun a => (a.1, mv a.2), csums := outer ++ own,
    orig := j.orig.map mv, corr := j.corr.map mv }

/-- XLATE (R100): the translation of RFC 7915 for TCP and UDP; ident is the identification of a new IPv4
header. A NAT_ADDR that is not of the new family (R493) is cause 5. The job, or a cause. -/
def xlate (s : State) (j : EditJob) (imm ident : Nat) : EditJob × Nat :=
  let pre := cfgNet s 0x3003 0 0
  let plen := cfgN s 0x3004 0 0
  match anchorAt j 3, anchorAt j 4, j.nat with
  | some pos, some l4at, some nat =>
    let na := natAddr s nat
    let b := fun (k : Nat) => (j.frame.getD (pos + k) 0).toNat
    let v := b 0 / 16
    if editLimit j < l4at + 8 then (j, 6)
    else if !imm.testBit 0 then
      if v ≠ 6 ∨ l4at ≠ pos + 40 ∨ (b 6 ≠ 6 ∧ b 6 ≠ 17) ∨ addrFam na ≠ 0 then (j, 5)
      else
        let plen6 := b 4 * 256 + b 5
        let dst := extract64 plen (beNat (slice j.frame (pos + 24) 16))
        let l4 := slice j.frame (pos + 40) plen6
        let tos := (b 0 * 256 + b 1) / 16 % 256
        let df := if 1260 < plen6 + 20 then 0x40 else 0
        let h0 := [0x45, BitVec.ofNat 8 tos] ++ beBytes 2 (plen6 + 20) ++ beBytes 2 ident ++
          [BitVec.ofNat 8 df, 0, BitVec.ofNat 8 (b 7), BitVec.ofNat 8 (b 6), 0, 0] ++ beBytes 4 na ++ beBytes 4 dst
        let hdr := patch h0 10 (beBytes 2 (inetChecksum 0 h0))
        let l4' := xlateCsum l4 (b 6) (slice j.frame (pos + 8) 32) (beBytes 4 na ++ beBytes 4 dst)
        (xlateApply j pos 40 hdr l4' 0x86DD 0x0800 (b 6), 0)
    else
      let hl := b 0 % 16 * 4
      let proto := b 9
      if v ≠ 4 ∨ l4at ≠ pos + hl ∨ (proto ≠ 6 ∧ proto ≠ 17) ∨ addrFam na ≠ 1 then (j, 5)
      else
        let tl := b 2 * 256 + b 3
        let src := embed64 pre plen (beNat (slice j.frame (pos + 12) 4))
        let l4 := slice j.frame (pos + hl) (tl - hl)
        let hdr := beBytes 4 (6 * 2 ^ 28 + b 1 * 2 ^ 20) ++ beBytes 2 (tl - hl) ++
          [BitVec.ofNat 8 proto, BitVec.ofNat 8 (b 8)] ++ beBytes 16 src ++ beBytes 16 na
        let l4' := xlateCsum l4 proto (slice j.frame (pos + 12) 8) (beBytes 16 src ++ beBytes 16 na)
        (xlateApply j pos hl hdr l4' 0x0800 0x86DD proto, 0)
  | none, _, _ => (j, 1)
  | some _, none, _ => (j, 5)
  | some _, some _, none => (j, 2)

/-! ### One instruction -/

/-- Execute one word: the job after it, and a cause: 0 none, 1 to 6 the faults of R99, 7 the TTL drop;
ident is a free value of 16 bits. (DESIGN CHOICE, log entry 39) -/
def editExec (s : State) (j : EditJob) (w ident : Nat) : EditJob × Nat :=
  let imm := eImm w
  if eOp w = 0 then ({ j with done := true }, 0)
  else if eOp w = 8 then xlate s j imm ident
  else match anchorAt j (eAnchor w) with
    | none => (j, 1)
    | some base =>
      let pos := base + eOffset w
      let store := fun (v : Option Nat) (cause : Nat) => match v with
        | none => (j, cause)
        | some x => match writeField j pos (eBitoff w) (eWidth w) x with
          | some j1 => (j1, 0)
          | none => (j, 6)
      match eOp w with
      | 1 => store (editSource s j (eSrc w) imm) 2
      | 2 => store ((readField j pos (eBitoff w) (eWidth w)).map (· + imm)) 6
      | 3 => decTtl j (eAnchor w) base
      | 4 => pushTemplate j (bankOf s j.epoch) pos (imm % 1024) (eAnchor w == 0 && eOffset w == 0)
      | 5 => popBytes j pos imm
      | 6 => match anchorAt j (fld imm 31 28) with
        | none => (j, 1)
        | some o => store (readField j (o + fld imm 27 20) (fld imm 19 17) (eWidth w)) 6
      | 7 => fixLen j (eAnchor w) base ident
      | 9 => match anchorAt j 6 with
        | none => (j, 1)
        | some o => if editLimit j < o + 16 then (j, 6) else ({ j with corr := some (o + 8) }, 0)
      | _ => (j, 0)

/-- Execute the word at the job's pc. -/
def editStep (s : State) (j : EditJob) : EditJob × Nat :=
  let w := editWord (bankOf s j.epoch) j.prog j.pc
  let r := editExec s j w (Config.freeValue s.free % 65536)
  if eOp w = 0 then r else ({ r.1 with pc := j.pc + 1, done := decide (15 ≤ j.pc) }, r.2)

/-- Run a program to its end or its first fault; each word has a free value of its own. -/
def editRun (s : State) : Nat → EditJob → EditJob × Nat
  | 0, j => (j, 0)
  | n + 1, j =>
    if j.done then (j, 0)
    else
      let r := editStep s j
      if r.2 ≠ 0 then r else editRun { s with free := s.free + 1 } n r.1

/-! ### After the program: ECN, DSCP, padding and limits -/

/-- The outermost IP header of a frame as edited: behind its VLAN tags, or at the first L3 anchor. -/
def outerIp (j : EditJob) : Option Nat :=
  let ety := fun (o : Nat) => beNat (slice j.frame o 2)
  let tag := fun (o : Nat) => ety o == 0x8100 || ety o == 0x88A8
  let o := if tag 12 then (if tag 16 then 20 else 16) else 12
  if (ety o = 0x0800 ∨ ety o = 0x86DD) ∧ o + 22 ≤ j.frame.length then some (o + 2)
  else match anchorAt j 1, anchorAt j 3 with
    | some a, some b => some (min a b)
    | some a, none => some a
    | none, b => b

/-- The IPv4 header at o came by a PUSH: no header that was present on receipt has its checksum there (R98). -/
def pushedV4 (j : EditJob) (o : Nat) : Bool :=
  (j.frame.getD o 0).toNat / 16 == 4 && !(j.csums.any fun c => c.at_ == o + 10) && !j.orig.contains (o + 10)

/-- Take a frame with a mark written into its IP header at o: the checksums follow, a pushed IPv4 header's too (R98, R252,
R282). (DESIGN CHOICE, log entry 41) -/
def marked (j : EditJob) (o : Nat) (new : Bytes) : EditJob :=
  let k := changed j new
  if pushedV4 j o then { k with frame := csumFix j.frame k.frame { at_ := o + 10, spans := [(o, ihlBytes j o)], kind := 0 } }
  else k

/-- Write the CE mark (R252): the job, and whether it was written. -/
def markEcn (j : EditJob) : EditJob × Bool :=
  match outerIp j with
  | none => (j, false)
  | some o =>
    let v := (j.frame.getD o 0).toNat / 16
    let sh := if v = 4 then 6 else 2
    let f := beNat (slice j.frame (o + 1) 1) / 2 ^ (6 - sh) % 4
    if (v = 4 ∨ v = 6) ∧ (f = 1 ∨ f = 2) then (marked j o (putField j.frame (o + 1) sh 2 3), true) else (j, false)

/-- Write a DSCP (R282). -/
def markDscp (j : EditJob) (d : Nat) : EditJob :=
  match outerIp j with
  | none => j
  | some o =>
    let v := (j.frame.getD o 0).toNat / 16
    if v = 4 then marked j o (putField j.frame (o + 1) 0 6 d)
    else if v = 6 then changed j (putField j.frame o 4 6 d) else j

/-- End of a program: DSCP and ECN, padding, the length limit (R99, R252, R282): the job, whether CE was
written, and a cause. (DESIGN CHOICE, log entry 41) -/
def editFinish (s : State) (j : EditJob) : EditJob × Bool × Nat :=
  let j1 := match j.dscp with
    | some d => markDscp j d
    | none => j
  let r := if j.ecn then markEcn j1 else (j1, false)
  let j2 := { r.1 with frame := r.1.frame ++ List.replicate (60 - r.1.frame.length) 0 }
  let len := j2.frame.length + 4
  (j2, r.2, if 16000 < len ∨ (j.out < 1024 ∧ cfgN s 0x2007 j.out 0 < len) then 4 else 0)

/-- A frame's length after editing, FCS included (R277). -/
def editedLength (s : State) (j : EditJob) : Nat := (editFinish s (editRun s 16 j).1).1.frame.length + 4

/-- The anchors of a packet as its parse names them (Table 3-12). -/
def anchorsOf (p : Packet) : List (Nat × Nat) :=
  match p.parse with
  | none => []
  | some w =>
    let one := fun (code : Nat) (x : Option Nat) => match x with
      | some o => [(code, o)]
      | none => []
    one 1 (w.outer.map (·.l3)) ++ one 2 (w.outer.bind (·.l4)) ++ one 3 (w.keyPair.map (·.l3)) ++
      one 4 (w.keyPair.bind (·.l4)) ++ one 5 w.innerL2 ++ one 6 w.ptp

/-- The edit job of an entry of queue sel at an output. -/
def mkJob (s : State) (e : QEntry) (out sel : Nat) : EditJob :=
  let p := pkt s e.pid
  { pid := e.pid, out := out, sel := sel, prog := e.edit, epoch := p.epoch.getD s.ctl.epoch, pc := 0, frame := p.data,
    anchors := anchorsOf p, csums := (p.parse.map (·.csums)).getD [],
    orig := ((p.parse.map (·.csums)).getD []).map (·.at_), nh := e.nh, nat := p.answer.bind (·.nat),
    metadata := p.metadata, zone := p.zone, entropy := entropyOf s p, ecn := e.ecn, dscp := e.dscp, pushes := 0,
    pushed := 0, removed := 0, corr := none, ptp := e.ptp, done := false }

/-! ### The editors -/

/-- Edit jobs of a pipeline's editor. -/
def editJobs (s : State) (p : Nat) : List EditJob := tget [] s.path.edits p

def setEdits (s : State) (p : Nat) (l : List EditJob) : State :=
  setPath s { s.path with edits := tset [] s.path.edits p l }

/-- A job joins its editor. -/
def pushJob (p : Nat) (j : EditJob) (s : State) : State := setEdits s p (editJobs s p ++ [j])

/-- A recirculated packet that the editor has edited (R21, R101): its frame is the edited one.
(DESIGN CHOICE, log entry 41) -/
def toRecirc (p : Nat) (j : EditJob) (s : State) : State :=
  let s1 := modPkt j.pid (fun x => { x with data := j.frame }) s
  setRecirc s1 p (recircQ s1 p ++ [j.pid])

/-- The head job of an editor ends dropped: by a fault (R99), or by DEC_TTL. -/
def editDrop (p cause : Nat) (j : EditJob) (rest : List EditJob) (s : State) : State :=
  let s1 := setEdits s p rest
  let s2 := if cause = 7 then count 0x3030 p 7 s1
    else raiseLimited 0x0301 p (fun n => [p, j.prog, cause, n]) (count 0x3030 p 4 s1)
  if j.out < 1024 then settle j.pid s2 else dropPkt j.pid s2

/-- The frame of an edit job for its MAC. -/
def txFrameOf (s : State) (j : EditJob) : TxFrame :=
  let p := pkt s j.pid
  { pid := j.pid, sel := j.sel, frame := j.frame, corr := j.corr, ptp := j.ptp, ring := p.ring, ts := p.ts, inPort := p.port,
    started := false }

/-- The head job's program has ended: the frame goes to its MAC or to the recirculation path. -/
def editDone (p : Nat) (j : EditJob) (rest : List EditJob) (s : State) : State :=
  let r := editFinish s j
  if r.2.2 ≠ 0 then editDrop p r.2.2 r.1 rest s
  else
    let s1 := setEdits s p rest
    let s2 := if r.2.1 && decide (j.out < 1024) then queueCount j.out j.sel 5 3 s1 else s1
    if j.out < 1024 then
      setPath s2 { s2.path with tx := tset [] s2.path.tx j.out (tget [] s2.path.tx j.out ++ [txFrameOf s2 r.1]) }
    else toRecirc p r.1 s2

/-- A word may use the free value: XLATE, and FIXLEN on an IPv4 header whose IHL is below 5. -/
def usesFree (j : EditJob) (w : Nat) : Bool :=
  eOp w == 8 || (eOp w == 7 && (match anchorAt j (eAnchor w) with
    | some o => ipVersion j (eAnchor w) o == 4 && decide (ihlBytes j o < 20)
    | none => false))

/-- Note that n free values were drawn. -/
def drawFree (n : Nat) (used : Bool) (s : State) : State := if used then { s with free := s.free + n } else s

/-- EDITOR: the editor of pipeline p runs its head packet's program to its end (R96 to R99). In its stop it runs none
(Table 2-12). -/
def execEditor (p : Nat) (s : State) : Host.Outcome State Fault Refusal :=
  if fnStopped s (.pipeline p) then .next s
  else match editJobs s p with
  | [] => .next s
  | j :: rest =>
    let r := editRun s 16 j
    let used := (progWords (bankOf s j.epoch) j.prog).any fun w => eOp w == 7 || eOp w == 8
    .next (drawFree 16 used (if r.2 ≠ 0 then editDrop p r.2 r.1 rest s else editDone p r.1 rest s))

/-- The head job of pipeline p executes its next word, when that word holds operation op and the editor is not in its
stop (Table 2-12). -/
def editOp (op p : Nat) (s : State) : State :=
  if fnStopped s (.pipeline p) then s
  else match editJobs s p with
  | [] => s
  | j :: rest =>
    let w := editWord (bankOf s j.epoch) j.prog j.pc
    if j.done ∨ eOp w ≠ op then s
    else
      let r := editStep s j
      drawFree 1 (usesFree j w) (if r.2 ≠ 0 then editDrop p r.2 r.1 rest s else setEdits s p (r.1 :: rest))

/-- EDIT_END: the program ends (R96). -/
def execEditEnd (p : Nat) (s : State) : Host.Outcome State Fault Refusal := .next (editOp 0 p s)

/-- SET: a field takes a source's value (R96, R98). -/
def execSet (p : Nat) (s : State) : Host.Outcome State Fault Refusal := .next (editOp 1 p s)

/-- ADD: an immediate is added to a field (R96, R98). -/
def execAdd (p : Nat) (s : State) : Host.Outcome State Fault Refusal := .next (editOp 2 p s)

/-- DEC_TTL: the TTL or hop limit falls by 1, or the packet is dropped (R99). -/
def execDecTtl (p : Nat) (s : State) : Host.Outcome State Fault Refusal := .next (editOp 3 p s)

/-- PUSH: a header template is inserted (R97, R99). -/
def execPush (p : Nat) (s : State) : Host.Outcome State Fault Refusal := .next (editOp 4 p s)

/-- POP: bytes are removed (R97, R99). -/
def execPop (p : Nat) (s : State) : Host.Outcome State Fault Refusal := .next (editOp 5 p s)

/-- COPY: a field takes the value of a field of the same width (R96, R98). -/
def execCopy (p : Nat) (s : State) : Host.Outcome State Fault Refusal := .next (editOp 6 p s)

/-- FIXLEN: the length fields at an anchor follow the frame (R99). -/
def execFixlen (p : Nat) (s : State) : Host.Outcome State Fault Refusal := .next (editOp 7 p s)

/-- XLATE: IPv6 to IPv4 or IPv4 to IPv6 (R100). -/
def execXlate (p : Nat) (s : State) : Host.Outcome State Fault Refusal := .next (editOp 8 p s)

/-- TC_CORR: the correctionField is marked for the residence time (R415). (DESIGN CHOICE, log entry 42) -/
def execTcCorr (p : Nat) (s : State) : Host.Outcome State Fault Refusal := .next (editOp 9 p s)

end Sys2Proof.Machine
end

