-- ==== Sys2Proof/Machine/Switch.lean ====
section
/-! DEFINITION. The switch core (chapter 8): queues, admission, the heel, multicast, banks. -/
namespace Sys2Proof.Machine

/-- Note n occurrences of an event that is raised at most once per second per instance, and raise it when
due: its parameters may use the number of occurrences in the last second. -/
def raiseLimitedN (code inst n : Nat) (ps : Nat → List Nat) (s : State) : State :=
  if n = 0 then s
  else
    let k := code * 2 ^ 16 + inst
    let l := tget { last := 0, occ := [] } s.cnt.lims k
    let l' : Lim := { l with occ := recent s l.occ ++ List.replicate (n - 1) (raw s) }
    raiseLimited code inst ps { s with cnt := { s.cnt with lims := tput s.cnt.lims k l' } }

/-- Occurrences of the last second kept under an instance. -/
def seenLately (code inst : Nat) (s : State) : Nat :=
  (recent s (tget { last := 0, occ := [] } s.cnt.lims (code * 2 ^ 16 + inst)).occ).length

/-- Note an occurrence under an instance of its own, without a record. -/
def noteLately (code inst : Nat) (s : State) : State := (limit code inst s).2.2

/-! ### Unicast queues (R240) -/

/-- An empty heel page. -/
def pageEmpty : HeelPage := { addr := 0, parts := [], heads := 0 }

/-- A unicast queue at reset. -/
def uqReset : UQueue := { list := [], spill := false, staging := pageEmpty, full := [], pages := [], back := [] }

def uq (s : State) (u : Nat) : UQueue := tget uqReset s.path.uq u
def setUq (s : State) (u : Nat) (x : UQueue) : State := setPath s { s.path with uq := tset uqReset s.path.uq u x }

/-- Cells of a page that belong to a packet. (DESIGN CHOICE, log entry 47) -/
def pageCells (h : HeelPage) (pid : Nat) : Nat := h.parts.foldl (fun n p => if p.1 = pid then n + p.2 else n) 0

/-- Cells in a page. -/
def pageFill (h : HeelPage) : Nat := h.parts.foldl (fun n p => n + p.2) 0

/-- Cells in written pages: these are off chip. -/
def offChip (x : UQueue) : Nat := x.pages.foldl (fun n h => n + pageFill h) 0

/-- On-chip cells of a unicast queue, staged and prefetched cells included (R241, R247).
(DESIGN CHOICE, log entry 47) -/
def uqDepth (s : State) (u : Nat) : Nat :=
  (uq s u).list.foldl (fun n e => n + (pkt s e.pid).cells) 0 - offChip (uq s u)

/-- A port's on-chip queued cells over its unicast queues (R241). -/
def portUnicast (s : State) (q : Nat) : Nat := (List.range 8).foldl (fun n c => n + uqDepth s (8 * q + c)) 0

/-! ### Multicast queues -/

def mq (s : State) (m : Nat) : List QEntry := tget [] s.path.mq m
def setMq (s : State) (m : Nat) (l : List QEntry) : State := setPath s { s.path with mq := tset [] s.path.mq m l }

/-- Copies that wait at a multicast input for a queue (R268). -/
def mcWaiting (s : State) (m : Nat) : List Nat :=
  s.tm.xmc.flatMap fun r => r.2.filterMap fun x => if 2 * x.1 + x.2.1 = m then some x.2.2.pid else none

/-- Cells of the copies on a multicast queue (R255). -/
def mqDepth (s : State) (m : Nat) : Nat :=
  (mq s m).foldl (fun n e => n + (pkt s e.pid).cells) 0 + (mcWaiting s m).foldl (fun n p => n + (pkt s p).cells) 0

/-- A port's queued cells with its multicast copies (R255). (DESIGN CHOICE, log entry 47) -/
def portQueued (s : State) (q : Nat) : Nat := portUnicast s q + mqDepth s (2 * q) + mqDepth s (2 * q + 1)

/-- The multicast class of a traffic class (R240). -/
def mclass (s : State) (c : Nat) : Nat := b2n (decide (cfgN s 0x500C 0 0 ≤ c))

/-! ### What queue sampling keeps (R285) -/

def qstatReset : QStat := { depthMax := 0, sojourn := 0, dequeued := 0 }
def qstat (s : State) (k : Nat) : QStat := tget qstatReset s.tm.qstat k
def setQstat (s : State) (k : Nat) (x : QStat) : State :=
  { s with tm := { s.tm with qstat := tset qstatReset s.tm.qstat k x } }

/-- Depth of a queue by port and selector (R271). -/
def selDepth (s : State) (q sel : Nat) : Nat := if sel < 8 then uqDepth s (8 * q + sel) else mqDepth s (2 * q + sel - 8)

/-- Note a queue's depth as its highest. (DESIGN CHOICE, log entry 47) -/
def noteDepth (q sel : Nat) (s : State) : State :=
  let x := qstat s (16 * q + sel)
  setQstat s (16 * q + sel) { x with depthMax := max x.depthMax (selDepth s q sel) }

/-! ### Deficits (R273) -/

def setTm (s : State) (t : TM) : State := { s with tm := t }

/-- Head entry of a queue by selector (R271). -/
def headEntry (s : State) (q sel : Nat) : Option QEntry :=
  if sel < 8 then (uq s (8 * q + sel)).list.head? else (mq s (2 * q + sel - 8)).head?

def selGroup (s : State) (q sel : Nat) : Nat := cfgN s 0x5810 q sel

/-- Queues of a class group that hold a frame (R273). -/
def groupBacklog (s : State) (q k : Nat) : Nat :=
  ((List.range 10).filter fun x => selGroup s q x == k && (headEntry s q x).isSome).length

def deficit (s : State) (k : Nat) : Int := tget 0 s.tm.deficit k
def setDeficit (s : State) (k : Nat) (v : Int) : State := setTm s { s.tm with deficit := tset 0 s.tm.deficit k v }

/-- A child that empties has its deficit set to 0 (R273). -/
def emptyDeficits (q sel : Nat) (s : State) : State :=
  let k := selGroup s q sel
  let s1 := if (headEntry s q sel).isNone then setDeficit s (64 * q + sel) 0 else s
  if groupBacklog s1 q k = 0 then setDeficit s1 (64 * q + 10 + k) 0 else s1

/-! ### The heel (8.3) -/

/-- Written heel pages of the device (sc.heel.pages_used). -/
def heelUsed (s : State) : Nat := s.path.uq.foldl (fun n r => n + r.2.pages.length) 0

/-- Addresses of the pages in use. -/
def heelAddrs (s : State) : List Nat := s.path.uq.flatMap fun r => r.2.pages.map (·.addr)

/-- Bytes and pages of the heel. -/
def heelPageBytes : Nat := 4096
def heelPages (s : State) : Nat := partSize s 5 / heelPageBytes

/-- Pseudo-channels that the allocator uses. -/
def heelPcs (s : State) : List Nat := (List.range 128).filter fun n => !pcRetired s n

/-- The free heel page of lowest address on a pseudo-channel, tried in steps of one round over them (R246);
fuel bounds the pages in use. -/
def pageOnPc (s : State) (n : Nat) : Nat → Nat → Option Nat
  | 0, _ => none
  | fuel + 1, a =>
    if partBase s 5 + partSize s 5 ≤ a then none
    else if pcOf s a = n ∧ !(heelAddrs s).contains a then some a
    else pageOnPc s n fuel (a + heelPageBytes)

/-- The next heel page: round-robin over the pseudo-channels from heelNext, skipping retired ones (R246, R250).
(DESIGN CHOICE, log entry 45) -/
def heelAlloc (s : State) : Option Nat :=
  ((List.range 128).map fun i => (s.path.heelNext + i) % 128).findSome? fun n =>
    if pcRetired s n then none else pageOnPc s n (128 * (heelUsed s + 2)) (partBase s 5)

/-- A heel page is free. (DESIGN CHOICE, log entry 45) -/
def heelRoom (s : State) : Bool := decide (heelUsed s < heelPages s * (heelPcs s).length / 128)

/-- Put n cells of a packet into the staging page, closing it when its 15 data slots or its 16 descriptors
are used; first: the packet's descriptor stands here (R246). -/
def stageCells (pid : Nat) : Nat → Nat → Bool → UQueue → UQueue
  | 0, _, _, x => x
  | fuel + 1, n, first, x =>
    if n = 0 then x
    else
      let h := x.staging
      let k := min n (15 - pageFill h)
      let h1 := { h with parts := h.parts ++ [(pid, k)], heads := h.heads + b2n first }
      let closed := 15 ≤ pageFill h1 || 16 ≤ h1.heads
      stageCells pid fuel (n - k) false
        (if closed then { x with staging := pageEmpty, full := x.full ++ [h1] } else { x with staging := h1 })

/-- A frame's cells lie in a page. -/
def inPages (l : List HeelPage) (pid : Nat) : Bool := l.any fun h => h.parts.any fun p => p.1 == pid

/-- The queue returns to NORMAL: no written page is left and the reader has reached the staging page, or
the port's heel is off (Table 8-2). Its staged cells are then the on-chip tail. (DESIGN CHOICE, log entry 45) -/
def heelReview (u : Nat) (s : State) : State :=
  let x := uq s u
  let reached : Bool := match x.list.head? with
    | none => true
    | some e => inPages (x.staging :: x.full) e.pid
  if x.spill ∧ x.pages.isEmpty ∧ (reached ∨ !cfgOn s 0x5007 (u / 8) 0)
  then setUq s u { x with spill := false, staging := pageEmpty, full := [], back := [] } else s

/-- A frame has left its queue: its cells leave the pages; a written page that holds no cell any more
frees its HBM space. -/
def leavePages (u pid : Nat) (s : State) : State :=
  let x := uq s u
  let cut := fun (h : HeelPage) => { h with parts := h.parts.filter fun p => p.1 != pid }
  let live := fun (l : List HeelPage) => (l.map cut).filter fun h => !h.parts.isEmpty
  heelReview u (setUq s u { x with staging := cut x.staging, full := live x.full, pages := live x.pages, back := live x.back })

/-- Take a frame out of a unicast queue, wherever it stands. -/
def uqRemove (u pid : Nat) (s : State) : State :=
  emptyDeficits (u / 8) (u % 8)
    (leavePages u pid (setUq s u { uq s u with list := (uq s u).list.filter fun e => e.pid != pid }))

/-- Drop a queued unicast frame and count it for its port and queue. -/
def uqDrop (u pid sub : Nat) (s : State) : State := dropPkt pid (queueDrop (u / 8) (u % 8) sub (uqRemove u pid s))

/-! ### Queue entries (R236) -/

/-- Queue entries of the device (Table 8-1). -/
def queueEntries : Nat := 1310720

/-- Queue entries in use: unicast frames queued on chip, and targets of multicast frames. -/
def entriesUsed (s : State) : Nat :=
  s.path.uq.foldl (fun n r => n + (r.2.list.filter fun e => !inPages r.2.pages e.pid).length) 0 +
    s.path.mq.foldl (fun n r => n + r.2.length) 0 + s.tm.xmc.foldl (fun n r => n + r.2.length) 0

/-- A queue entry is free. (DESIGN CHOICE, log entry 44) -/
def entryFree (s : State) : Bool := decide (entriesUsed s < queueEntries)

/-! ### Admission (R241) -/

/-- Charge a frame to its port: the port minimum first, then the shared pool; its pending charges end (R238). -/
def chargeQueued (q pid : Nat) (s : State) : State :=
  let p := pkt s pid
  let used := sumPkts s (fun x => x.place == 1 && x.out == q) (·.min)
  let m := min p.cells (cfgN s 0x5001 q 0 - used)
  setPkt pid { p with place := 1, out := q, refs := 1, resv := 0, min := m, shared := p.cells - m } s

/-- The frame is marked for cut-through (R260). -/
def cutThrough (s : State) (q : Nat) (x : UQueue) (e : QEntry) : Bool :=
  let p := pkt s e.pid
  p.ring.isNone && cfgOn s 0x5007 q 1 && x.list.isEmpty && !x.spill &&
    decide (portRate s q ≤ portRate s p.port) && progCutThrough (pktBank s e.pid) e.edit

/-- Why R241 refuses a frame: the counter of Table 8-5, or none. -/
def admitRefused (s : State) (q u pid : Nat) (toHeel : Bool) : Option Nat :=
  let p := pkt s pid
  if !portUp s q then some 3
  else if cfgN s 0x5003 u 0 ≤ uqDepth s u ∨ cfgN s 0x5002 q 0 ≤ portUnicast s q then some 1
  else if toHeel && decide (cfgN s 0x5008 u 1 ≤ (uq s u).pages.length) then some 10
  else if toHeel && !heelRoom s then some 11
  else if entryFree s ∧ (portUnicast s q < cfgN s 0x5001 q 0 ∨ sharedUsed s - p.shared < sharedSize s) then none
  else some 2

/-- A heel refusal: the frame counts as heel_drop and event 0x0703 or 0x0702 reports it (Table 8-2).
(DESIGN CHOICE, log entry 45) -/
def heelRefuse (q u why : Nat) (s : State) : State :=
  let s1 := queueDrop q (u % 8) 10 s
  if why = 10 then raiseLimited 0x0703 q (fun n => [u, (uq s u).pages.length, n]) s1
  else raiseLimited 0x0702 q (fun n => [heelUsed s, n]) s1

/-- Admit or drop a unicast frame at its queue (R241, R245, R252, R260). (DESIGN CHOICE, log entry 44) -/
def admitFrame (q : Nat) (e : QEntry) (s : State) : State :=
  let u := 8 * q + e.cls
  let x := uq s u
  let on := cfgOn s 0x5007 q 0 && !s.path.heelPaused
  let toHeel := on && (x.spill || decide (cfgN s 0x5008 u 0 ≤ uqDepth s u))
  match admitRefused s q u e.pid (toHeel && x.spill) with
  | some why =>
    dropPkt e.pid (if 10 ≤ why then heelRefuse q u why s else queueDrop q e.cls why s)
  | none =>
    let th := cfgN s 0x5004 u 0
    let e1 := { e with
      ecn := th != 0 && decide (th ≤ uqDepth s u + 15 * x.pages.length),
      cut := cutThrough s q x e && !toHeel }
    let y := { x with list := x.list ++ [e1] }
    let z := if toHeel then stageCells e.pid 8 (pkt s e.pid).cells true { y with spill := true } else y
    noteDepth q e.cls (queueCount q e.cls 0 0 (setUq (chargeQueued q e.pid s) u z))

/-! ### Heel pages -/

/-- Bytes of the heel: its cells leave or come back on chip, and their charges with them: what leaves is
given back to the shared pool first. (DESIGN CHOICE, log entry 45) -/
def pageOut (h : HeelPage) (s : State) : State :=
  h.parts.foldl (fun t r => modPkt r.1 (fun p =>
    let sh := min r.2 p.shared
    { p with written := p.written - r.2, shared := p.shared - sh, min := p.min - (r.2 - sh) }) t) s

def pageIn (q : Nat) (h : HeelPage) (s : State) : State :=
  h.parts.foldl (fun t r =>
    let used := sumPkts t (fun x => x.place == 1 && x.out == q) (·.min)
    modPkt r.1 (fun p =>
      let m := min r.2 (cfgN t 0x5001 q 0 - used)
      { p with written := p.written + r.2, min := p.min + m, shared := p.shared + (r.2 - m) }) t) s

/-- HEEL_PAGE_WRITE: the oldest full staging page of queue u is written to the heel, and its cells are freed
(R245, R246). A page waits while the heel is paused (R251), no page is free, or a frame in it still arrives. -/
def execHeelPageWrite (u : Nat) (s : State) : Host.Outcome State Fault Refusal :=
  let x := uq s u
  match x.full with
  | [] => .next s
  | h :: rest =>
    if s.path.heelPaused ∨ !(h.parts.all fun p => (pkt s p.1).ended) then .next s
    else match heelAlloc s with
      | none => .next s
      | some a =>
        let s1 := setUq s u { x with full := rest, pages := x.pages ++ [{ h with addr := a }] }
        let s2 := setPath s1 { s1.path with heelNext := (pcOf s a + 1) % 128 }
        .next (hbmRequest 2 a heelPageBytes true (pageOut h s2))

/-- The frames of a page are lost with it (R250). -/
def heelLost (u : Nat) (h : HeelPage) (bad : Bool) (s : State) : State :=
  let pids := (h.parts.map (·.1)).eraseDups
  let s1 := pids.foldl (fun t p => uqDrop u p 11 t) s
  if pcRetired s (pcOf s h.addr) then raise 0x0707 [pcOf s h.addr, pids.length] s1
  else if bad then raise 0x0708 [u, (h.addr - partBase s 5) / heelPageBytes, pids.length] s1
  else s1

/-- HEEL_PAGE_READ: the oldest written page of queue u comes back on chip and its HBM space is freed; bad:
the read found an uncorrectable error, and the page's frames are dropped (R247, R250). -/
def execHeelPageRead (u : Nat) (bad : Bool) (s : State) : Host.Outcome State Fault Refusal :=
  let x := uq s u
  match x.pages with
  | [] => .next s
  | h :: rest =>
    if cfgN s 0x5009 0 0 ≤ x.back.length then .next s
    else
      let s1 := hbmRequest 2 h.addr heelPageBytes false s
      if bad then
        let s2 := setUq s1 u { x with pages := rest }
        .next (heelReview u (heelLost u h true s2))
      else
        let s2 := pageIn (u / 8) h (setUq s1 u { x with pages := rest, back := x.back ++ [h] })
        .next (heelReview u (noteDepth (u / 8) (u % 8) s2))

/-! ### Multicast (8.5) -/

/-- A target entry (Table 8-4). -/
def mcTarget (s : State) (t : Nat) : BitVec 32 := tget 0 s.fwd.mcTarget t
def mtValid (w : BitVec 32) : Bool := bit w 31
def mtUseEdit (w : BitVec 32) : Bool := bit w 30
def mtEdit (w : BitVec 32) : Nat := bf w 29 18
def mtPort (w : BitVec 32) : Nat := bf w 9 0

/-- A group entry (Table 8-3). -/
def mcGroup (s : State) (g : Nat) : BitVec 64 := tget 0 s.fwd.mcGroup g
def mgValid (w : BitVec 64) : Bool := bit w 63
def mgTargets (w : BitVec 64) : List Nat := (List.range (bf w 42 32)).map (bf w 62 43 + ·)

/-- A target queue takes a copy: link up, queue and port below their limits, a queue entry free (R236, R255). -/
def mcTakes (s : State) (q m : Nat) : Bool :=
  portUp s q && entryFree s && decide (mqDepth s m < cfgN s 0x5005 m 0) && decide (portQueued s q < cfgN s 0x5002 q 0)

/-- Enqueue a copy for a port: it joins the multicast input of its egress pipeline and counts in the
reference count (R255 to R257). (DESIGN CHOICE, log entry 46) -/
def mcEnqueue (d q mc edit pid cls : Nat) (dscp : Option Nat) (s : State) : State :=
  let m := 2 * q + mc
  let th := cfgN s 0x5005 m 1
  let e : QEntry := {
    pid := pid, edit := edit, cls := cls, nh := none, ecn := th != 0 && decide (th ≤ mqDepth s m), dscp := dscp,
    cut := false, ptp := 0 }
  let k := 2 * (q / 64) + d
  let s1 := modPkt pid (fun p => { p with refs := p.refs + 1 }) s
  let s2 : State := { s1 with tm := { s1.tm with
    xmc := tset [] s1.tm.xmc k (tget [] s1.tm.xmc k ++ [(q, mc, e)]) } }
  noteDepth q (8 + mc) (queueCount q (8 + mc) 0 0 s2)

/-- The stored copy is charged to the shared pool once (R255). (DESIGN CHOICE, log entry 41) -/
def storeCopy (pid : Nat) (s : State) : State :=
  modPkt pid (fun p => { p with place := 2, resv := 0, min := 0, shared := p.cells, refs := 0 }) s

/-- Replication engine of a core die. -/
def engine (s : State) (d : Nat) : List Replica := tget [] s.path.repl d
def setEngine (s : State) (d : Nat) (l : List Replica) : State :=
  setPath s { s.path with repl := tset [] s.path.repl d l }

/-- A target queue has a residue entry (R258). -/
def hasResidue (s : State) (m : Nat) : Bool :=
  [0, 1].any fun d => (engine s d).any fun r => r.residue.any fun x => 2 * x.1 + x.2.1 == m

/-- A target entry is valid and names target queue m of a multicast class. -/
def targetIs (s : State) (mc m t : Nat) : Bool := mtValid (mcTarget s t) && 2 * mtPort (mcTarget s t) + mc == m

/-- A frame of packet pid's flow, served before it, still has to be copied to target queue m by the engine of core die d
(R31). (DEDUCED, log entry 112) -/
def flowInEngine (s : State) (d pid m : Nat) : Bool :=
  (engine s d).any fun r => servedBefore s r.pid pid &&
    (r.todo.any (targetIs s (mclass s r.cls) m) || r.residue.any fun x => 2 * x.1 + x.2.1 == m)

/-- A frame for target queue m is still before packet pid in an engine: one that the engine of pid's cells has yet to
walk to that queue, or one of pid's flow in the other engine (R31, R32). (DEDUCED, log entry 112) -/
def engineAhead (s : State) (d pid m : Nat) : Bool :=
  (engine s d).any (fun r => r.todo.any (targetIs s (mclass s r.cls) m)) || flowInEngine s (1 - d) pid m

/-- Serve one target of a small group at step 6 (R255, R256). (DESIGN CHOICE, log entry 46) -/
def mcServe (d pid cls edit : Nat) (dscp : Option Nat) (flooded : Bool) (s : State) (t : Nat) : State :=
  let w := mcTarget s t
  let q := mtPort w
  let mc := mclass s cls
  if !mtValid w ∨ (flooded ∧ q = (pkt s pid).port) then s
  else if mcTakes s q (2 * q + mc) then mcEnqueue d q mc (if mtUseEdit w then mtEdit w else edit) pid cls dscp s
  else queueDrop q (8 + mc) 9 s

/-- A frame becomes multicast (R254 to R257): a small group is served at once, unless one of its target queues has a
residue entry or an earlier frame in an engine (R31, R32, R258); it then passes, as a larger one does, to the engine of
the die that holds its cells. (DESIGN CHOICE, log entry 46) -/
def multicast (grp pid cls edit : Nat) (dscp : Option Nat) (flooded : Bool) (s : State) : State :=
  let w := mcGroup s grp
  let d := (pkt s pid).half
  if !mgValid w then dropPkt pid (count 0x3817 (groupOf (pkt s pid).pipe) 6 s)
  else
    let ts := (mgTargets w).filter fun t => mtValid (mcTarget s t)
    let mc := mclass s cls
    let after := fun (m : Nat) => hasResidue s m || engineAhead s d pid m
    if ts.length ≤ cfgN s 0x500A 0 0 ∧ !(ts.any fun t => after (2 * mtPort (mcTarget s t) + mc)) then
      let s1 := ts.foldl (mcServe d pid cls edit dscp flooded) (storeCopy pid s)
      if (pkt s1 pid).refs = 0 then dropPkt pid s1 else s1
    else
      let r : Replica := {
        pid := pid, flooded := flooded, todo := mgTargets w, accepted := 0, residue := [], since := raw s,
        walked := false, cls := cls, edit := edit, dscp := dscp }
      let s1 := modPkt pid (fun p => { p with refs := 1 }) (storeCopy pid s)
      setEngine s1 d (engine s1 d ++ [r])

/-- Replace a replica in an engine; one that has walked and has no residue releases its hold. -/
def putReplica (d : Nat) (r : Replica) (s : State) : State :=
  if r.walked ∧ r.residue.isEmpty then
    unref r.pid (setEngine s d ((engine s d).filter fun x => x.pid != r.pid))
  else setEngine s d ((engine s d).map fun x => if x.pid = r.pid then r else x)

/-- The residue time of the next frame runs from the end of the walk before it. (DESIGN CHOICE, log entry 46) -/
def beginNext (d : Nat) (s : State) : State :=
  match (engine s d).find? fun r => !r.walked with
  | some n => setEngine s d ((engine s d).map fun x => if x.pid = n.pid then { x with since := raw s } else x)
  | none => s

/-- MC_REPLICATE: the engine of core die d serves the next target of the frame it replicates (R257 to R259). A target
whose queue has a residue entry, or an earlier frame of the flow in the other engine, joins the residue (R31, R258). -/
def execMcReplicate (d : Nat) (s : State) : Host.Outcome State Fault Refusal :=
  match (engine s d).find? fun r => !r.walked with
  | none => .next s
  | some r =>
    match r.todo with
    | [] => .next (beginNext d (putReplica d { r with walked := true } s))
    | t :: rest =>
      let r1 := { r with todo := rest, walked := rest.isEmpty }
      let fin := fun (x : Replica) (z : State) => if x.walked then beginNext d (putReplica d x z) else putReplica d x z
      let w := mcTarget s t
      let q := mtPort w
      let mc := mclass s r.cls
      let edit := if mtUseEdit w then mtEdit w else r.edit
      let room := !r.residue.isEmpty || decide (((engine s d).filter fun x => !x.residue.isEmpty).length < 4096)
      if !mtValid w ∨ (r.flooded ∧ q = (pkt s r.pid).port) then .next (fin r1 s)
      else if !portUp s q then .next (fin r1 (queueDrop q (8 + mc) 9 s))
      else if hasResidue s (2 * q + mc) ∨ flowInEngine s (1 - d) r.pid (2 * q + mc) ∨ !mcTakes s q (2 * q + mc) then
        if room then .next (fin { r1 with residue := r1.residue ++ [(q, mc, edit)] } s)
        else .next (fin r1 (queueDrop q (8 + mc) 9 s))
      else .next (fin { r1 with accepted := r1.accepted + 1 } (mcEnqueue d q mc edit r.pid r.cls r.dscp s))

/-- The first residue entry of the engine of core die d that its queue takes now, none of the queue's entries before it
(R258) and no earlier frame of its flow in the other engine (R31): the replica and the entry.
(DESIGN CHOICE, log entry 46) -/
def residueReady (s : State) (d : Nat) : List Replica → List Nat → Option (Replica × Nat × Nat × Nat)
  | [], _ => none
  | r :: rest, seen =>
    let rec go (l : List (Nat × Nat × Nat)) (seen : List Nat) : Option (Nat × Nat × Nat) × List Nat :=
      match l with
      | [] => (none, seen)
      | x :: t =>
        let m := 2 * x.1 + x.2.1
        if seen.contains m then go t seen
        else if mcTakes s x.1 m && !flowInEngine s (1 - d) r.pid m then (some x, seen) else go t (m :: seen)
    match go r.residue seen with
    | (some x, _) => some (r, x)
    | (none, seen1) => residueReady s d rest seen1

/-- MC_RESIDUE_RETRY: a residue target of core die d whose queue has fallen below its limit is enqueued
(R257, R258). -/
def execMcResidueRetry (d : Nat) (s : State) : Host.Outcome State Fault Refusal :=
  match residueReady s d (engine s d) [] with
  | none => .next s
  | some (r, x) =>
    let r1 := { r with residue := r.residue.erase x, accepted := r.accepted + 1 }
    .next (putReplica d r1 (mcEnqueue d x.1 x.2.1 x.2.2 r.pid r.cls r.dscp s))

/-- MC_RESIDUE_EXPIRY: the oldest frame of core die d whose residue time has passed has its remaining
targets refused, and the engine's hold ends (R257). -/
def execMcResidueExpiry (d : Nat) (s : State) : Host.Outcome State Fault Refusal :=
  match (engine s d).find? fun r => r.walked && !r.residue.isEmpty && decide (r.since + cyc (cfgN s 0x500B 0 0) ≤ raw s) with
  | none => .next s
  | some r =>
    let s1 := r.residue.foldl (fun t x => queueDrop x.1 (8 + x.2.1) 9 t) s
    let s2 := raiseLimitedN 0x0704 d r.residue.length (fun n => [d, n]) s1
    .next (putReplica d { r with residue := [] } s2)

/-! ### Links (R244) -/

/-- A multicast queue discards its copies. (DESIGN CHOICE, log entry 46) -/
def mqDiscard (m : Nat) (s : State) : State :=
  (mq s m).foldl (fun t e => unref e.pid (queueDrop (m / 2) (8 + m % 2) 3 t)) (emptyDeficits (m / 2) (8 + m % 2) (setMq s m []))

/-- The queues of a port whose link is down are discarded, the heel included (R244). -/
def portDiscard (q : Nat) (s : State) : State :=
  let s1 := (List.range 8).foldl (fun t c =>
    (uq t (8 * q + c)).list.foldl (fun z e => uqDrop (8 * q + c) e.pid 3 z) t) s
  mqDiscard (2 * q + 1) (mqDiscard (2 * q) s1)

/-- No frame stands on a queue of the port, in an editor or at its MAC. -/
def portIdle (s : State) (q : Nat) : Bool :=
  (List.range 8).all (fun c => (uq s (8 * q + c)).list.isEmpty) && (mq s (2 * q)).isEmpty &&
    (mq s (2 * q + 1)).isEmpty && (tget [] s.path.tx q).isEmpty

/-! ### Banks (8.7) -/

/-- Spare bank of a half: state and bank. (DESIGN CHOICE, log entry 48) -/
def halfSpare (s : State) (h : Nat) : Nat × Nat := tget (0, 0) s.path.spare h
def setHalfSpare (s : State) (h : Nat) (x : Nat × Nat) : State :=
  setPath s { s.path with spare := tset (0, 0) s.path.spare h x }

/-- A bank of a half is found bad: mapped to the spare (event 0x0705), or with the spare taken reported as a
fault (R263, event 0x0706). A running online test ends first (R264). (DESIGN CHOICE, log entry 48) -/
def bankFault (h bank cause : Nat) (s : State) : State :=
  if (halfSpare s h).1 = 2 then
    if (halfSpare s h).2 = bank then s else detect 7 0x0706 [h, bank] s
  else detect 7 0x0705 [h, bank, cause] (setHalfSpare s h (2, bank))

/-- BUFFER_SCRUB: one scrub pass of half h ends; hits: the corrected errors found per bank (R263). Each is a
corrected error of class 1 (R466). -/
def execBufferScrub (h : Nat) (hits : List (Nat × Nat)) (s : State) : Host.Outcome State Fault Refusal :=
  let s1 := hits.foldl (fun t r => (List.range r.2).foldl (fun z _ => noteFault 1 z) t) s
  .next (hits.foldl (fun t r => if cfgN s 0x500D 0 0 ≤ r.2 then bankFault h r.1 2 t else t) s1)

/-- BUFFER_ONLINE_BIST: half h ends the test of the bank under online BIST, with its result, and starts that
of the next bank (R264). (DESIGN CHOICE, log entry 48) -/
def execBufferOnlineBist (h : Nat) (failed : Bool) (s : State) : Host.Outcome State Fault Refusal :=
  let sp := halfSpare s h
  let s1 := if sp.1 = 1 then (if failed then bankFault h sp.2 1 s else setHalfSpare s h (0, 0)) else s
  if cfgOn s 0x500E 0 0 ∧ (halfSpare s1 h).1 = 0 then
    let b := tget 0 s1.path.bistNext h
    let s2 := setHalfSpare s1 h (1, b)
    .next (setPath s2 { s2.path with bistNext := tset 0 s2.path.bistNext h ((b + 1) % 32) })
  else .next s1

/-! ### Objects (Table 8-5) -/

/-- sc.half and the other device-set objects of Table 8-5. -/
def switchObj (a : Nat) (s : State) : Option Bytes :=
  let i := oaInst a
  match oaIndex a, oaSub a with
  | 0x5010, 0 => some (leBytes 8 (halfFree s i))
  | 0x5010, 1 => some (leBytes 8 (halfPending s i))
  | 0x5010, 2 => some (leBytes 8 (halfQueued s i))
  | 0x5010, 4 => some (leBytes 8 (halfSpare s i).1)
  | 0x5010, 5 => some (leBytes 8 (halfSpare s i).2)
  | 0x5011, _ => some (leBytes 4 (heelUsed s))
  | 0x5012, _ => some (leBytes 2 ((s.path.uq.filter fun r => r.2.spill).length))
  | 0x5013, 0 => some (leBytes 4 (uqDepth s i))
  | 0x5013, 1 => some (leBytes 4 (uq s i).pages.length)
  | 0x5013, 2 => some (leBytes 4 (b2n (uq s i).spill))
  | _, _ => none

end Sys2Proof.Machine
end

