-- ==== Sys2Proof/Machine/Tm.lean ====
section
/-! DEFINITION. The traffic manager (chapter 9): crossbar, dequeue hierarchy, shapers, meters, samples. -/
namespace Sys2Proof.Machine

/-! ### Crossbar (9.1) -/

/-- Descriptor FIFO of ingress pipeline p for egress pipeline e (R267). -/
def xfifo (s : State) (p e : Nat) : List (Nat × QEntry) := tget [] s.tm.xbar (16 * p + e)
def setXfifo (s : State) (p e : Nat) (l : List (Nat × QEntry)) : State :=
  setTm s { s.tm with xbar := tset [] s.tm.xbar (16 * p + e) l }

/-- Multicast input of egress pipeline e from core die d (R268). -/
def mcInput (s : State) (e d : Nat) : List (Nat × Nat × QEntry) := tget [] s.tm.xmc (2 * e + d)

/-- Put a unicast descriptor into the FIFO of its output port's pipeline, or drop the frame (R267). -/
def xbarPut (p q : Nat) (x : QEntry) (s : State) : State :=
  let e := q / 64
  if 1024 ≤ (xfifo s p e).length then
    let s1 := dropPkt x.pid (count 0x5802 p e s)
    raiseLimited 0x0801 p (fun n =>
      [p, (List.range 16).foldl (fun b i => if ctrGet s1 (oa 0x5802 p b) < ctrGet s1 (oa 0x5802 p i) then i else b) 0, n]) s1
  else setXfifo s p e (xfifo s p e ++ [(q, x)])

/-- Descriptors that wait at input i of egress pipeline e: 0 to 15 the FIFOs, 16 and 17 the multicast inputs. -/
def inputLength (s : State) (e i : Nat) : Nat :=
  if i < 16 then (xfifo s i e).length else (mcInput s e (i - 16)).length

/-- The weight of an input now (R269). -/
def inputWeight (s : State) (e i : Nat) : Nat :=
  if cfgN s 0x5800 e 0 = 0 then 1
  else if i < 16 then
    ((xfifo s i e).map fun r => ((pkt s r.2.pid).port, (pkt s r.2.pid).ring, r.1)).eraseDups.length
  else ((mcInput s e (i - 16)).map fun r => 2 * r.1 + r.2.1).eraseDups.length

/-- XBAR_WEIGHT_UPDATE: the arbiter of egress pipeline e recomputes its input weights (R269). -/
def execXbarWeightUpdate (e : Nat) (s : State) : Host.Outcome State Fault Refusal :=
  .next ((List.range 18).foldl (fun t i =>
    setTm t { t.tm with weight := tset 0 t.tm.weight (32 * e + i) (inputWeight s e i) }) s)

/-- A round starts: every input with descriptors waiting gains its weight in credit (R269).
(DESIGN CHOICE, log entry 49) -/
def xbarRound (e : Nat) (s : State) : State :=
  (List.range 18).foldl (fun t i =>
    if inputLength t e i = 0 then t
    else
      let k := 32 * e + i
      setTm t { t.tm with credit := tset 0 t.tm.credit k (tget 0 t.tm.credit k + max 1 (tget 0 t.tm.weight k)) }) s

/-- The descriptors that wait at input i of egress pipeline e: port, queue selector and packet. -/
def inputEntries (s : State) (e i : Nat) : List (Nat × Nat × Nat) :=
  if i < 16 then (xfifo s i e).map fun r => (r.1, r.2.cls, r.2.pid)
  else (mcInput s e (i - 16)).map fun r => (r.1, 8 + r.2.1, r.2.2.pid)

/-- The descriptor at the head of input i has an earlier frame of its flow for its queue at another input (R31). -/
def inputBehind (s : State) (e i : Nat) : Bool :=
  match inputEntries s e i with
  | [] => false
  | h :: _ => (List.range 18).any fun j => j != i && (inputEntries s e j).any fun x =>
      x.1 == h.1 && x.2.1 == h.2.1 && servedBefore s x.2.2 h.2.2

/-- The waiting input with credit that is served next: the one served last keeps its turn (R269). An input whose head is
behind an earlier frame of its flow is passed, unless all are (R31).
(DESIGN CHOICE, log entry 49; DESIGN CHOICE, log entry 118) -/
def xbarPick (s : State) (e : Nat) (all : Bool) : Option Nat :=
  ((List.range 18).map fun i => (tget 0 s.tm.xlast e + i) % 18).find? fun i =>
    decide (0 < inputLength s e i) && decide (0 < tget 0 s.tm.credit (32 * e + i)) && (all || !inputBehind s e i)

/-- A copy reaches its multicast queue; with the link down it is discarded (R244). -/
def mcJoin (q mc : Nat) (x : QEntry) (s : State) : State :=
  if portUp s q then setMq s (2 * q + mc) (mq s (2 * q + mc) ++ [x]) else unref x.pid (queueDrop q (8 + mc) 3 s)

/-- Serve one descriptor of input i (R268): a unicast one is judged by R241; one of an expired epoch is dropped. -/
def xbarServe (e i : Nat) (s : State) : State :=
  let k := 32 * e + i
  let c := tget 0 s.tm.credit k - 1
  let last := inputLength s e i ≤ 1
  let s1 := setTm s { s.tm with
    credit := tset 0 s.tm.credit k (if last then 0 else c), xlast := tset 0 s.tm.xlast e i }
  if i < 16 then
    match xfifo s1 i e with
    | [] => s1
    | r :: rest =>
      let s2 := setXfifo s1 i e rest
      if isExpired s2 r.2.pid then dropPkt r.2.pid s2 else admitFrame r.1 r.2 s2
  else
    match mcInput s1 e (i - 16) with
    | [] => s1
    | r :: rest =>
      mcJoin r.1 r.2.1 r.2.2 (setTm s1 { s1.tm with xmc := tset [] s1.tm.xmc (2 * e + (i - 16)) rest })

/-- Serve up to n descriptors. -/
def xbarCycle (e : Nat) : Nat → State → State
  | 0, s => s
  | n + 1, s =>
    let s1 := match xbarPick s e false with
      | some _ => s
      | none => xbarRound e s
    match (xbarPick s1 e false).or (xbarPick s1 e true) with
    | some i => xbarCycle e n (xbarServe e i s1)
    | none => s1

/-- XBAR_ARBITRATE: one CCLK cycle of the enqueue stage of egress pipeline e: at most 4 descriptors (R268,
R269). The switch core in its stop admits nothing (Table 2-12). -/
def execXbarArbitrate (e : Nat) (s : State) : Host.Outcome State Fault Refusal :=
  if fnStopped s .switchCore then .next s else .next (xbarCycle e 4 s)

/-! ### Shapers (9.3) -/

/-- A byte in bucket units. -/
def unit24 : Nat := 2 ^ 24

/-- The shaper word of node n of port q (Table 9-2): queue s at s, class group k at 16 + k, the port at 32. -/
def shaperWord (s : State) (q n : Nat) : Nat := leNat (cfgB s (oa 0x5820 q n))

def shCir (w : Nat) : Nat := fld w 191 160
def shPir (w : Nat) : Nat := fld w 159 128
def shCbs (w : Nat) : Nat := fld w 127 104
def shPbs (w : Nat) : Nat := fld w 103 80
def shLenAdd (w : Nat) : Nat := fld w 79 75
def shReset (w : Nat) : Nat := fld w 74 74

/-- An unshaped peak rate. -/
def unshaped : Nat := 0xFFFFFFFF

def bucketReset : Bucket := { c := 0, p := 0, last := 0 }
def bucket (s : State) (q n : Nat) : Bucket := tget bucketReset s.tm.buckets (64 * q + n)
def setBucket (s : State) (q n : Nat) (b : Bucket) : State :=
  setTm s { s.tm with buckets := tset bucketReset s.tm.buckets (64 * q + n) b }

/-- A bucket filled for the cycles since its last update (R276). -/
def bucketFill (w now : Nat) (b : Bucket) : Bucket :=
  let e := now - b.last
  { c := min (shCbs w * unit24 : Nat) (b.c + (e * shCir w : Nat)),
    p := if shPir w = unshaped then b.p else min (shPbs w * unit24 : Nat) (b.p + (e * shPir w : Nat)),
    last := now }

/-- The buckets of a node now. (DESIGN CHOICE, log entry 50) -/
def bucketNow (s : State) (q n : Nat) : Bucket := bucketFill (shaperWord s q n) (raw s) (bucket s q n)

/-- The peak bucket of a node does not block it (R272, R277). (DESIGN CHOICE, log entry 50) -/
def peakOk (s : State) (q n : Nat) : Bool :=
  shPir (shaperWord s q n) == unshaped || decide (0 < (bucketNow s q n).p)

/-- A node is in the committed tier: never with cir 0 (R272, R277). -/
def committed (s : State) (q n : Nat) : Bool := shCir (shaperWord s q n) != 0 && decide (0 < (bucketNow s q n).c)

/-- The least value of a bucket: -16,031 B (R277). -/
def bucketFloor : Int := -((16031 * unit24 : Nat) : Int)

/-- Charge a frame to a node's buckets (R277). (DESIGN CHOICE, log entry 50) -/
def chargeNode (q len : Nat) (s : State) (n : Nat) : State :=
  let w := shaperWord s q n
  let b := bucketNow s q n
  let x : Int := ((len + shLenAdd w) * unit24 : Nat)
  setBucket s q n { b with
    c := max bucketFloor (b.c - x), p := if shPir w = unshaped then b.p else max bucketFloor (b.p - x) }

/-- Set a node's buckets to their sizes, or to 0. (DESIGN CHOICE, log entry 50) -/
def bucketSet (full : Bool) (q n : Nat) (s : State) : State :=
  let w := shaperWord s q n
  setBucket s q n (if full then { c := (shCbs w * unit24 : Nat), p := (shPbs w * unit24 : Nat), last := raw s }
    else { c := 0, p := 0, last := raw s })

/-- A shaper word takes effect in place of an old one (R278). -/
def shaperChanged (q n old : Nat) (s : State) : State :=
  let w := shaperWord s q n
  if fld w 191 80 = fld old 191 80 then s else bucketSet (shReset w == 0) q n s

/-- The nodes of a port. -/
def shaperNodes : List Nat := List.range 10 ++ (List.range 8).map (16 + ·) ++ [32]

/-- A port's link comes up: every bucket of the port is set full (R278). -/
def bucketsFull (q : Nat) (s : State) : State := shaperNodes.foldl (fun t n => bucketSet true q n t) s

/-- A shaper word breaks R275 for a port of a rate in Mb/s. -/
def shaperBad (w rateMb : Nat) : Bool :=
  let tooFast := fun (r : Nat) => decide (rateMb * 1000000 * 2 ^ 24 < r * 8 * 800000000)
  let small := fun (r size : Nat) => r != 0 && r != unshaped && decide (size < 2048)
  tooFast (shCir w) || (shPir w != unshaped && tooFast (shPir w)) || decide (shPir w < shCir w) ||
    small (shCir w) (shCbs w) || small (shPir w) (shPbs w)

/-! ### Dequeue hierarchy (9.2) -/

/-- The head frame may be dequeued: wholly on chip (R247), and its last cell written, or cut through with its
first one (R26, R260). -/
def headReady (s : State) (q sel : Nat) : Bool :=
  match headEntry s q sel with
  | none => false
  | some e =>
    let p := pkt s e.pid
    !(sel < 8 && inPages (uq s (8 * q + sel)).pages e.pid) &&
      (p.ended || (e.cut && decide (1 ≤ p.written) && decide (256 ≤ p.rxLen)))

/-- A queue is eligible (R270). -/
def selEligible (s : State) (q sel : Nat) : Bool := headReady s q sel && peakOk s q sel

/-- DWRR among children with deficit keys and weights: while none has a deficit above 0 every child gains its
quantum; the child served last keeps its turn (R273). Answer: the child chosen, and the state with the gains.
(DESIGN CHOICE, log entry 49) -/
def dwrr (turnKey : Nat) (kids : List (Nat × Nat × Nat)) : Nat → State → Option Nat × State
  | 0, s => (none, s)
  | fuel + 1, s =>
    let last := tget 0 s.tm.turn turnKey
    let order := kids.filter (fun c => last ≤ c.1) ++ kids.filter (fun c => c.1 < last)
    match order.find? fun c => decide (0 < deficit s c.2.1) with
    | some c => (some c.1, setTm s { s.tm with turn := tset 0 s.tm.turn turnKey c.1 })
    | none =>
      if kids.isEmpty then (none, s)
      else dwrr turnKey kids fuel (kids.foldl (fun t c => setDeficit t c.2.1 (deficit t c.2.1 + (c.2.2 * 1024 : Nat))) s)

/-- The best tier of a list of children: those in the committed tier, if any (R272). (DESIGN CHOICE, log entry 49) -/
def bestTier (l : List Nat) (com : Nat → Bool) : List Nat := if l.any com then l.filter com else l

/-- Choose the queue of port q that is served: its selector (R272, R273). (DESIGN CHOICE, log entry 49) -/
def chooseQueue (q : Nat) (s : State) : Option Nat × State :=
  let sels := (List.range 10).filter (selEligible s q)
  let groups := (List.range 8).filter fun k => sels.any (fun x => selGroup s q x == k) && peakOk s q (16 + k)
  let tier := bestTier groups fun k => committed s q (16 + k)
  let top := tier.foldl (fun m k => max m (cfgN s 0x5812 q k)) 0
  let kids := (tier.filter fun k => cfgN s 0x5812 q k == top).map fun k =>
    (k, 64 * q + 10 + k, cfgN s 0x5813 q k * (if cfgN s 0x5815 q k = 1 then groupBacklog s q k else 1))
  let r := dwrr (64 * q + 63) kids 32 s
  match r.1 with
  | none => (none, s)
  | some k =>
    let pick := bestTier (sels.filter fun x => selGroup s q x == k) (committed s q)
    if cfgN s 0x5814 q k = 0 then (pick.getLast?, r.2)
    else dwrr (64 * q + 10 + k) (pick.map fun x => (x, 64 * q + x, cfgN s 0x5811 q x)) 32 r.2

/-- A port requests service: its transmit FIFO has room, low-power idle does not block it,
its peak bucket allows it and a queue is eligible (R270, R304). -/
def portWants (s : State) (full : List Nat) (q : Nat) : Bool :=
  !full.contains q && !lpiBlocks s q && peakOk s q 32 &&
    (List.range 10).any fun x => selEligible s q x && peakOk s q (16 + selGroup s q x)

/-- The port served next: round-robin behind the one served last (R270). -/
def nextPort (s : State) (e : Nat) (full : List Nat) : Option Nat :=
  ((List.range 64).map fun i => 64 * e + (tget 0 s.tm.portTurn e + 1 + i) % 64).find? (portWants s full)

/-- Take the head entry off a queue. -/
def popHead (q sel : Nat) (s : State) : State :=
  if sel < 8 then
    match (uq s (8 * q + sel)).list with
    | [] => s
    | e :: rest => leavePages (8 * q + sel) e.pid (setUq s (8 * q + sel) { uq s (8 * q + sel) with list := rest })
  else setMq s (2 * q + sel - 8) (mq s (2 * q + sel - 8)).tail

/-- Age of a packet in raw cycles (R253). -/
def ageCycles (s : State) (p : Packet) : Nat := (s.time.raw.setWidth 32 - p.born).toNat

/-- The frame's first byte starts: shapers and deficits are charged, and the editor takes it (R273, R277). -/
def startFrame (q sel : Nat) (x : QEntry) (s : State) : State :=
  let k := selGroup s q sel
  let j := mkJob s x q sel
  let len := editedLength s j
  let s1 := [sel, 16 + k, 32].foldl (chargeNode q len) s
  let s2 := setDeficit s1 (64 * q + 10 + k) (deficit s1 (64 * q + 10 + k) - (len : Int))
  let s3 := if cfgN s 0x5814 q k = 1 then setDeficit s2 (64 * q + sel) (deficit s2 (64 * q + sel) - (len : Int)) else s2
  let st := qstat s3 (16 * q + sel)
  let s4 := setQstat s3 (16 * q + sel) { st with
    sojourn := ageCycles s (pkt s x.pid) * 5 / 4, dequeued := (st.dequeued + len) % 2 ^ 32 }
  unref x.pid (pushJob (q / 64) j (queueAdd q sel 1 len s4))

/-- Dequeue one frame of queue sel of port q: an errored, lost, aged or expired frame is discarded (R253, R261,
R65), any other one starts. bad: the bank in which a cell of it reads uncorrectable. -/
def dequeueFrame (q sel : Nat) (bad : Option Nat) (s : State) : State :=
  match headEntry s q sel with
  | none => s
  | some x =>
    let p := pkt s x.pid
    let s1 := popHead q sel s
    let r := match bad with
      | some bank => unref x.pid (queueDrop q sel 8 (detectLimited 2 0x0709 q (fun n => [p.half, bank, q, n]) s1))
      | none =>
        if isExpired s x.pid || p.barred then unref x.pid s1
        else if p.err = 2 then unref x.pid (queueDrop q sel 8 s1)
        else if p.err ≠ 0 then unref x.pid (queueDrop q sel 7 s1)
        else if cfgN s 0x5006 x.cls 0 * 4 < ageCycles s p * 5 then unref x.pid (queueDrop q sel 4 s1)
        else startFrame q sel x s1
    emptyDeficits q sel r

/-- DEQUEUE: egress pipeline e starts one frame; full: ports whose transmit FIFO has no room (R270 to R273).
The TM or the switch core in its stop dequeues nothing (Table 2-12). -/
def execDequeue (e : Nat) (full : List Nat) (bad : Option Nat) (s : State) : Host.Outcome State Fault Refusal :=
  if fnStopped s (.tm e) ∨ fnStopped s .switchCore then .next s
  else match nextPort s e full with
    | none => .next s
    | some q =>
      let r := chooseQueue q s
      match r.1 with
      | none => .next s
      | some sel =>
        let s1 := setTm r.2 { r.2.tm with portTurn := tset 0 r.2.tm.portTurn e (q % 64) }
        .next (dequeueFrame q sel bad s1)

/-! ### Meters (9.4) -/

def meter (s : State) (m : Nat) : Meter := tget s.tm.meter0 s.tm.meters m
def setMeter (s : State) (m : Nat) (x : Meter) : State :=
  setTm s { s.tm with meters := tset s.tm.meter0 s.tm.meters m x }

/-- The default meter profile: red_action 1 (Table 9-3). -/
def profReset : BitVec 256 := BitVec.ofNat 256 (2 ^ 237)
def meterProf (s : State) (i : Nat) : BitVec 256 := tget profReset s.tm.profiles i

def mpMode (w : BitVec 256) : Nat := bf w 255 254
def mpAware (w : BitVec 256) : Bool := bit w 253
def mpCoupled (w : BitVec 256) : Bool := bit w 252
def mpLenAdd (w : BitVec 256) : Nat := bf w 251 247
def mpYellow (w : BitVec 256) : Nat := bf w 246 245
def mpYellowDscp (w : BitVec 256) : Nat := bf w 244 239
def mpRed (w : BitVec 256) : Nat := bf w 238 237
def mpRedDscp (w : BitVec 256) : Nat := bf w 236 231
def mpCir (w : BitVec 256) : Nat := bf w 191 160
def mpPir (w : BitVec 256) : Nat := bf w 159 128
def mpCbs (w : BitVec 256) : Nat := bf w 127 104 * unit24
def mpPbs (w : BitVec 256) : Nat := bf w 103 80 * unit24

/-- A meter's buckets filled for e cycles (R281). (DESIGN CHOICE, log entry 50) -/
def meterFill (w : BitVec 256) (now : Nat) (m : Meter) : Meter :=
  let e := now - m.last
  let excess := m.tc + e * mpCir w - mpCbs w
  { m with
    tc := min (mpCbs w) (m.tc + e * mpCir w),
    tp := min (mpPbs w) (m.tp + e * mpPir w + (if mpMode w = 1 ∧ mpCoupled w then excess else 0)),
    last := now }

/-- Colour a packet of b bytes (R281): the meter after it, and 2 green, 3 yellow, 4 red. -/
def meterColour (w : BitVec 256) (now b pre : Nat) (m : Meter) : Meter × Nat :=
  let f := meterFill w now m
  let n := b * unit24
  if mpMode w = 0 then
    if pre = 4 ∨ f.tp < n then (f, 4)
    else if pre = 3 ∨ f.tc < n then ({ f with tp := f.tp - n }, 3)
    else ({ f with tc := f.tc - n, tp := f.tp - n }, 2)
  else if pre = 2 ∧ n ≤ f.tc then ({ f with tc := f.tc - n }, 2)
  else if pre ≠ 4 ∧ n ≤ f.tp then ({ f with tp := f.tp - n }, 3)
  else (f, 4)

/-- A packet's metadata with what its stages set. -/
def mergedMeta (p : Packet) : BitVec 16 := (merged p).mdata.getD p.metadata

/-- The pre-colour of a packet (Table 9-3). -/
def preColour (w : BitVec 256) (p : Packet) : Nat :=
  if !mpAware w then 2
  else
    let v := bf (mergedMeta p) 15 14
    if v = 1 then 3 else if v = 2 then 4 else 2

/-- Serve one meter request: the packet takes its colour (R281). One that was dropped while it waited is passed.
(DESIGN CHOICE, log entry 50) -/
def meterServe (pid m : Nat) (s : State) : State :=
  if (tfind s.path.pkts pid).isNone then s else
  let x := meter s m
  let w := meterProf s x.profile
  let p := pkt s pid
  let r := meterColour w (raw s) (p.rxLen + mpLenAdd w) (preColour w p) x
  setMeter (modPkt pid (fun q => { q with colour := r.2 }) s) m r.1

def meterQ (s : State) (b : Nat) : List (Nat × Nat × Nat) := tget [] s.tm.meterQ b
def setMeterQ (s : State) (b : Nat) (l : List (Nat × Nat × Nat)) : State :=
  setTm s { s.tm with meterQ := tset [] s.tm.meterQ b l }

/-- A packet asks its meter's bank for a colour (R280, R283). -/
def meterAsk (pid m : Nat) (s : State) : State :=
  let s1 := modPkt pid (fun p => { p with colour := 1, meter := m }) s
  setMeterQ s1 (m % 16) (meterQ s1 (m % 16) ++ [(pid, m, raw s1)])

/-- METER_BACKLOG_ALARM: a request of bank b has waited longer than tm.meter.backlog_alarm (R283). -/
def execMeterBacklogAlarm (b : Nat) (s : State) : Host.Outcome State Fault Refusal :=
  match meterQ s b with
  | [] => .next s
  | r :: _ =>
    let ns := (raw s - r.2.2) * 5 / 4
    if cfgN s 0x5830 0 0 < ns then .next (raiseLimited 0x0803 b (fun _ => [b, r.2.1, ns]) s) else .next s

/-- A host write of a meter entry sets its buckets as its reset bit states (R284). -/
def meterWrite (m : Nat) (e : BitVec 128) (s : State) : State :=
  let w := meterProf s (bf e 127 116)
  let full := !bit e 115
  setMeter s m { profile := bf e 127 116, tc := if full then mpCbs w else 0, tp := if full then mpPbs w else 0, last := raw s }

/-- A meter entry as it reads (Table 9-4). -/
def meterEntry (s : State) (m : Nat) : BitVec 128 :=
  let x := meter s m
  BitVec.ofNat 128 (x.profile * 2 ^ 116 + x.tc / unit24 * 2 ^ 56 + x.tp / unit24 * 2 ^ 32 + x.last % 2 ^ 32)

/-- BUCKET_REFRESH: every shaper and meter bucket is updated (R276, R281). -/
def execBucketRefresh (s : State) : Host.Outcome State Fault Refusal :=
  let bs := s.tm.buckets.map fun r => (r.1, bucketFill (shaperWord s (r.1 / 64) (r.1 % 64)) (raw s) r.2)
  let fill := fun (x : Meter) => meterFill (meterProf s x.profile) (raw s) x
  let m0 := fill s.tm.meter0
  let ms := (s.tm.meters.map fun r => (r.1, fill r.2)).filter fun r => decide (r.2 ≠ m0)
  .next (setTm s { s.tm with buckets := bs, meters := ms, meter0 := m0 })

/-! ### Queue sampling (9.5) -/

/-- tm.sample.interval has passed since pipeline e's last sample (R285). -/
def sampleDue (s : State) (e : Nat) : Bool := decide (tget 0 s.tm.sampledAt e + cyc (cfgN s 0x5840 0 0) ≤ raw s)

/-- The queue that pipeline e samples next: port and selector (R285). -/
def nextSample (s : State) (e : Nat) : Option Nat :=
  let from_ := tget 1023 s.tm.sampleAt e % 1024
  let all := ((List.range 64).filter fun i => cfgOn s 0x5841 (64 * e + i) 0).flatMap fun i =>
    (List.range 10).map (16 * i + ·)
  match all.find? (from_ < ·) with
  | some k => some k
  | none => all.head?

/-- The 32 bytes of a sample record (Table 9-5). -/
def sampleRecord (s : State) (q sel : Nat) : Bytes :=
  let st := qstat s (16 * q + sel)
  let depth := selDepth s q sel
  let x := uq s (8 * q + sel)
  let age := match headEntry s q sel with
    | some e => ageCycles s (pkt s e.pid) * 5 / 4
    | none => 0
  let flags := b2n (sel < 8 && x.spill) + 2 * b2n (!peakOk s q sel) + 4 * b2n (!portUp s q) + 8 * b2n (committed s q sel)
  leBytes 32 (b2n (8 ≤ sel) * 2 ^ 255 + q * 2 ^ 245 + sel * 2 ^ 241 + counterNs s % 2 ^ 32 * 2 ^ 208 +
    depth % 2 ^ 24 * 2 ^ 184 + max depth st.depthMax % 2 ^ 24 * 2 ^ 160 +
    (if sel < 8 then x.pages.length % 2 ^ 24 else 0) * 2 ^ 136 + age % 2 ^ 32 * 2 ^ 104 +
    st.sojourn % 2 ^ 32 * 2 ^ 72 + st.dequeued % 2 ^ 32 * 2 ^ 40 + flags * 2 ^ 32)

/-- QUEUE_SAMPLE: pipeline e samples its next queue into the ring, or loses the sample (R285, R286). -/
def execQueueSample (e : Nat) (s : State) : Host.Outcome State Fault Refusal :=
  if cfgN s 0x5843 0 0 = 0 ∨ !sampleDue s e then .next s
  else match nextSample s e with
    | none => .next s
    | some k =>
      let q := 64 * e + k / 16
      let sel := k % 16
      let st := qstat s (16 * q + sel)
      let r := sampleRecord s q sel
      let s1 := setQstat (setTm s { s.tm with sampleAt := tset 1023 s.tm.sampleAt e k, sampledAt := tset 0 s.tm.sampledAt e (raw s) }) (16 * q + sel)
        { st with depthMax := selDepth s q sel, dequeued := 0 }
      let n := s1.tm.produced.toNat
      let size := cfgN s 0x5844 0 0
      if (n + 2 ^ 32 - cfgN s 0x5846 0 0) % 2 ^ 32 = size then
        .next (raiseLimited 0x0802 0 (fun c => [c]) (count 0x5847 0 0 s1))
      else
        let a := cfgN s 0x5843 0 0 + 32 * (n % size)
        let s2 := if cfgN s 0x5842 0 0 = 0 then hbmWrite s1 a r else hostWrite s1 a r
        .next (setTm s2 { s2.tm with produced := s2.tm.produced + 1 })

/-- Device-set objects of Table 9-6. -/
def tmObj (a : Nat) (s : State) : Option Bytes :=
  match oaIndex a with
  | 0x5801 => some (leBytes 2 (tget 0 s.tm.weight (32 * oaInst a + oaSub a)))
  | 0x5845 => some (leBytes 4 s.tm.produced.toNat)
  | _ => none

end Sys2Proof.Machine
end

