-- ==== Sys2Proof/Machine/Forward.lean ====
section
/-! DEFINITION. Forwarding tables, the resolution cache, load balancing, layer-2 learning and the audit
(chapter 4). -/
namespace Sys2Proof.Machine

def setFwd (s : State) (f : Forward) : State := { s with fwd := f }

/-! ### The tables of the awl-data partition (R105, Tables 4-2 to 4-5) -/

/-- Service, slot and backend fields (Tables 4-3 to 4-5). -/
def svEntry (s : State) (v : Nat) : BitVec 64 := tget 0 s.fwd.lbService v
def svValid (e : BitVec 64) : Bool := bit e 63
def svTable (e : BitVec 64) : Nat := bf e 62 49
def svFallback (e : BitVec 64) : Nat := bf e 48 25
def lbSlotEntry (s : State) (t i : Nat) : BitVec 32 := tget 0 s.fwd.lbSlot (2 ^ 17 * t + i)
def beEntry (s : State) (b : Nat) : BitVec 256 := tget 0 s.fwd.lbBackend b
def beState (e : BitVec 256) : Nat := bf e 255 254
def beNh (e : BitVec 256) : Nat := bf e 253 230

/-- Bytes of the slot tables, of the extended next hops and of the backends (R105, R115). -/
def slotRegion (s : State) : Nat := cfgN s 0x3802 0 0 * 266240
def nhRegion : Nat := (2 ^ 24 - 2 ^ 18) * 64
def beRegion : Nat := 2 ^ 25

/-- A 64-byte unit of the awl-data partition, by its offset: a unit of the tables holds their entries
(R105, R115). (DESIGN CHOICE, log entry 113) -/
def awlUnit (s : State) (off : Nat) : Bytes :=
  let o := off - slotRegion s
  if off < slotRegion s then
    (List.range 16).flatMap fun j => leBytes 4 (lbSlotEntry s (off / 266240) (off % 266240 / 4 + j)).toNat
  else if o < nhRegion then leBytes 64 (nhEntry s (2 ^ 18 + o / 64)).toNat
  else if o < nhRegion + beRegion then
    (List.range 2).flatMap fun j => leBytes 32 (beEntry s ((o - nhRegion) / 32 + j)).toNat
  else hbmRead s (partAddr s 3 off) 64

/-- Write a 64-byte unit of the awl-data partition; reserved fields of the tables' entries stay 0 (R10).
(DESIGN CHOICE, log entry 113) -/
def awlUnitPut (off : Nat) (d : Bytes) (s : State) : State :=
  let o := off - slotRegion s
  let word := fun (n j : Nat) => leNat (slice d (n * j) n)
  if off < slotRegion s then
    let k := 2 ^ 17 * (off / 266240) + off % 266240 / 4
    (List.range 16).foldl (fun t j =>
      setFwd t { t.fwd with lbSlot := tset 0 t.fwd.lbSlot (k + j) (BitVec.ofNat 32 (putFld (word 4 j) 30 20 0)) }) s
  else if o < nhRegion then
    setFwd s { s.fwd with nh := tset 0 s.fwd.nh (2 ^ 18 + o / 64) (BitVec.ofNat 512 (putFld (word 64 0) 91 0 0)) }
  else if o < nhRegion + beRegion then
    let k := (o - nhRegion) / 32
    (List.range 2).foldl (fun t j =>
      setFwd t { t.fwd with lbBackend := tset 0 t.fwd.lbBackend (k + j) (BitVec.ofNat 256 (putFld (word 32 j) 69 0 0)) }) s
  else hbmWrite s (partAddr s 3 off) d

/-! ### The resolution cache (R112, R113) -/

/-- Line key of an extended next hop. -/
def lineNh (i : Nat) : Nat := i

/-- Line key of a slot of a slot table: a line holds one slot. (DESIGN CHOICE, log entry 113) -/
def lineSlot (t i : Nat) : Nat := 2 ^ 24 + t * 2 ^ 17 + i

/-- Line key of a backend: a line holds one backend. (DESIGN CHOICE, log entry 113) -/
def lineBackend (b : Nat) : Nat := 2 ^ 40 + b

/-- The HBM address that a line is read from: slot tables first, then the extended next hops, then the
backends, in the awl-data partition. (DESIGN CHOICE, log entry 113) -/
def lineAddr (s : State) (key : Nat) : Nat :=
  partAddr s 3 (
    if 2 ^ 40 ≤ key then slotRegion s + nhRegion + (key - 2 ^ 40) * 32
    else if 2 ^ 24 ≤ key then (key - 2 ^ 24) / 2 ^ 17 * 266240 + (key - 2 ^ 24) % 2 ^ 17 * 4
    else slotRegion s + (key - 2 ^ 18) * 64)

def cacheLines (s : State) (g : Nat) : List Nat := tget [] s.fwd.lines g
def fetchesOf (s : State) (g : Nat) : List NhFetch := tget [] s.fwd.fetches g

/-- A line is in the group's resolution cache. -/
def hasLine (s : State) (g key : Nat) : Bool := (cacheLines s g).contains key

def setFetches (s : State) (g : Nat) (l : List NhFetch) : State :=
  setFwd s { s.fwd with fetches := tset [] s.fwd.fetches g l }

/-- Descriptors that wait in a group. -/
def waiting (s : State) (g : Nat) : Nat := (fetchesOf s g).foldl (fun n f => n + f.waiters.length) 0

/-- A packet waits for a line: it joins a fetch in progress or starts one; with a limit full it is dropped
(R112, R113). (DESIGN CHOICE, log entry 34) -/
def awaitLine (g key pid : Nat) (s : State) : State :=
  let fs := fetchesOf s g
  let known := fs.any fun f => f.line == key
  if 65536 ≤ waiting s g ∨ (!known ∧ 4096 ≤ fs.length) then
    dropPkt pid (raiseLimited 0x0406 g (fun n => [g, n]) (count 0x3817 g 4 s))
  else if known then
    setFetches s g (fs.map fun f => if f.line = key then { f with waiters := f.waiters ++ [pid] } else f)
  else hbmRequest 4 (lineAddr s key) 64 false (setFetches s g (fs ++ [{ line := key, waiters := [pid] }]))

/-- Install a line; a full cache gives up one line, which is free. (DESIGN CHOICE, log entry 34) -/
def installLine (g key : Nat) (s : State) : State :=
  let l := cacheLines s g
  if l.contains key then s
  else if l.length < 32768 then setFwd s { s.fwd with lines := tset [] s.fwd.lines g (l ++ [key]) }
  else
    let r := fresh 15 s
    setFwd r.2 { r.2.fwd with lines := tset [] r.2.fwd.lines g (l.eraseIdx r.1.toNat ++ [key]) }

/-! ### Prefixes (R108, R116) -/

def lpValid (e : BitVec 256) : Bool := bit e 255
def lpFam (e : BitVec 256) : Nat := bf e 254 254
def lpLen (e : BitVec 256) : Nat := bf e 253 246
def lpZone (e : BitVec 256) : Nat := bf e 245 230
def lpNh (e : BitVec 256) : Nat := bf e 229 206
def lpPrefix (e : BitVec 256) : Nat := bf e 127 0

/-- Bits of an address of a family. -/
def famBits (fam : Nat) : Nat := if fam = 0 then 32 else 128

/-- An entry matches a zone, family and destination. -/
def lpMatch (e : BitVec 256) (zone fam dst : Nat) : Bool :=
  lpValid e && lpFam e == fam && lpZone e == zone &&
    dst % 2 ^ famBits fam / 2 ^ (famBits fam - lpLen e) == lpPrefix e % 2 ^ famBits fam / 2 ^ (famBits fam - lpLen e)

/-- The longest matching prefix's next-hop index. -/
def lpmLookup (s : State) (zone fam dst : Nat) : Option Nat :=
  ((s.fwd.lpm.filter fun r => lpMatch r.2 zone fam dst).foldl (fun (b : Option (BitVec 256)) r => match b with
    | none => some r.2
    | some x => if lpLen x < lpLen r.2 then some r.2 else some x) none).map lpNh

/-- Prefix units in use: 1 for IPv4, 2 for IPv6 (Table 4-1). -/
def lpmUnits (s : State) : Nat := s.fwd.lpm.foldl (fun n r => if lpValid r.2 then n + 1 + lpFam r.2 else n) 0

/-! ### Layer-2 entries (R117 to R121) -/

def l2Valid (e : BitVec 128) : Bool := bit e 127
def l2Static (e : BitVec 128) : Bool := bit e 126
def l2SvDrop (e : BitVec 128) : Bool := bit e 125
def l2Hit (e : BitVec 128) : Bool := bit e 124
def l2Vid (e : BitVec 128) : Nat := bf e 123 112
def l2Mac (e : BitVec 128) : Nat := bf e 111 64
def l2Port (e : BitVec 128) : Nat := bf e 63 54
def l2At (e : BitVec 128) : Nat := bf e 31 0

/-- The seeds of a group's layout in force. -/
def l2Seeds (s : State) (g : Nat) : Nat × Nat := tget (0x11 + g, 0x91 + g) s.fwd.seeds g

/-- The 8 key bytes of a VLAN ID and MAC (R117). -/
def l2Key (vid mac : Nat) : Bytes := beBytes 8 (vid * 2 ^ 48 + mac)

/-- Slots of a key in a layout under two seeds: bucket A, then bucket B. -/
def l2Slots (g layout : Nat) (seeds : Nat × Nat) (vid mac : Nat) : List Nat :=
  let k := l2Key vid mac
  let base := 2 ^ 20 * g + 2 ^ 18 * layout
  let bucket := fun (seed : Nat) => (List.range 8).map fun j => base + 8 * (seededCrc seed k % 32768) + j
  (bucket seeds.1 ++ bucket seeds.2).eraseDups

def l2Entry (s : State) (k : Nat) : BitVec 128 := tget 0 s.fwd.l2 k
def setL2 (s : State) (k : Nat) (e : BitVec 128) : State := setFwd s { s.fwd with l2 := tset 0 s.fwd.l2 k e }

/-- The layout of a group in force. -/
def l2Layout (s : State) (g : Nat) : Nat := tget 0 s.fwd.layout g

/-- Slots in which a key may sit now: the layout in force, and during a rebuild the new one too (R121). -/
def l2Where (s : State) (g vid mac : Nat) : List Nat :=
  let l := l2Layout s g
  l2Slots g l (l2Seeds s g) vid mac ++ (match tfind s.fwd.rebuild g with
    | some r => l2Slots g (1 - l) (r.seedA, r.seedB) vid mac
    | none => [])

/-- The slot of a key's entry. (DESIGN CHOICE, log entry 35) -/
def l2Find (s : State) (g vid mac : Nat) : Option Nat :=
  (l2Where s g vid mac).find? fun k => l2Valid (l2Entry s k) && l2Vid (l2Entry s k) == vid && l2Mac (l2Entry s k) == mac

/-- Slots that an insertion may take: those of the new layout during a rebuild (R121). -/
def l2Room (s : State) (g vid mac : Nat) : Option Nat :=
  let slots := match tfind s.fwd.rebuild g with
    | some r => l2Slots g (1 - l2Layout s g) (r.seedA, r.seedB) vid mac
    | none => l2Slots g (l2Layout s g) (l2Seeds s g) vid mac
  slots.find? fun k => !l2Valid (l2Entry s k)

/-- Entries of a group. -/
def l2Group (s : State) (g : Nat) : List (Nat × BitVec 128) := s.fwd.l2.filter fun r => r.1 / 2 ^ 20 == g

/-- L2_LEARN: group g takes the next learn of its queue (Table 4-8). (DESIGN CHOICE, log entry 35) -/
def execL2Learn (g : Nat) (s : State) : Host.Outcome State Fault Refusal :=
  match tget [] s.fwd.learnQ g with
  | [] => .next s
  | x :: rest =>
    let s1 := setFwd s { s.fwd with learnQ := tset [] s.fwd.learnQ g rest }
    let macP := words32 2 x.mac
    match l2Find s1 g x.vid x.mac with
    | none =>
      match l2Room s1 g x.vid x.mac with
      | none => .next (raiseLimited 0x0401 g (fun _ => [g, x.vid] ++ macP ++ [(l2Group s1 g).length]) (count 0x3816 g 5 s1))
      | some k =>
        let e := 2 ^ 127 + x.vid * 2 ^ 112 + x.mac * 2 ^ 64 + x.port * 2 ^ 54 + devUs s1
        .next (count 0x3816 g 1 (setL2 s1 k (BitVec.ofNat 128 e)))
    | some k =>
      let e := l2Entry s1 k
      let age := (devUs s1 + 2 ^ 32 - l2At e) % 2 ^ 32
      if l2Port e = x.port then .next (setL2 s1 k (putBf e 124 124 1))
      else if l2Static e then
        let gone := (pkt s1 x.pid).place = 3
        let dropped := l2SvDrop e && !gone
        let s2 := raiseLimited 0x0403 g (fun _ => [g, x.vid] ++ macP ++ [l2Port e, x.port, b2n dropped])
          (count 0x3816 g 4 s1)
        .next (if dropped then modPkt x.pid (fun p => { p with barred := true }) s2 else s2)
      else if age * 1000 < cfgN s1 0x3811 0 0 then
        .next (raiseLimited 0x0402 g (fun _ => [g, x.vid] ++ macP ++ [l2Port e, x.port]) (count 0x3816 g 3 s1))
      else
        let e1 := putBf (putBf (putBf e 63 54 x.port) 31 0 (devUs s1)) 124 124 1
        .next (count 0x3816 g 2 (setL2 s1 k e1))

/-- Half of ft.l2.age has passed since the last scan of group g (R119). -/
def scanDue (g : Nat) (s : State) : Bool :=
  cfgN s 0x3810 0 0 != 0 && decide (tget 0 s.fwd.scanned g + cycSecond * cfgN s 0x3810 0 0 / 2 ≤ raw s)

/-- L2_AGE_SCAN: the scanner of group g visits every entry: a hit bit is cleared, a dynamic entry without it is
removed and counted (R119). -/
def execL2AgeScan (g : Nat) (s : State) : Host.Outcome State Fault Refusal :=
  if !scanDue g s then .next s
  else .next ((l2Group s g).foldl (fun t r =>
    if l2Static r.2 then t
    else if l2Hit r.2 then setL2 t r.1 (putBf r.2 124 124 0)
    else count 0x3816 g 6 (setL2 t r.1 0)) (setFwd s { s.fwd with scanned := tset 0 s.fwd.scanned g (raw s) }))

/-- Move the entries of a group's old layout into the new one: static entries first. Answer: whether every
static entry found room, and the state. -/
def l2Move (g : Nat) (s : State) : Bool × State :=
  match tfind s.fwd.rebuild g with
  | none => (true, s)
  | some r =>
    let l := l2Layout s g
    let old := (l2Group s g).filter fun x => x.1 / 2 ^ 18 % 4 == l
    let order := old.filter (fun x => l2Static x.2) ++ old.filter fun x => !l2Static x.2
    order.foldl (fun (a : Bool × State) x =>
      let slots := l2Slots g (1 - l) (r.seedA, r.seedB) (l2Vid x.2) (l2Mac x.2)
      match slots.find? fun k => !l2Valid (l2Entry a.2 k) with
      | some k => (a.1, setL2 (setL2 a.2 x.1 0) k x.2)
      | none => if l2Static x.2 then (false, a.2) else (a.1, count 0x3816 g 5 (setL2 a.2 x.1 0))) (true, s)

/-- End a group's rebuild (R121): it switches to the new layout, or keeps the old one when a static entry finds
no room: entries learned meanwhile then move back where they find room. Answer: whether it switched.
(DESIGN CHOICE, log entry 35) -/
def l2Rebuilt (g : Nat) (s : State) : Bool × State :=
  match tfind s.fwd.rebuild g with
  | none => (true, s)
  | some r =>
    let l := l2Layout s g
    let m := l2Move g s
    if m.1 then
      (true, setFwd m.2 { m.2.fwd with
        seeds := tset (0x11 + g, 0x91 + g) m.2.fwd.seeds g (r.seedA, r.seedB),
        layout := tset 0 m.2.fwd.layout g (1 - l), rebuild := tdel m.2.fwd.rebuild g })
    else
      let new := (l2Group s g).filter fun x => x.1 / 2 ^ 18 % 4 == 1 - l
      let back := new.foldl (fun t x =>
        let t1 := setL2 t x.1 0
        match (l2Slots g l (l2Seeds s g) (l2Vid x.2) (l2Mac x.2)).find? fun k => !l2Valid (l2Entry t1 k) with
        | some k => setL2 t1 k x.2
        | none => count 0x3816 g 5 t1) s
      (false, setFwd back { back.fwd with rebuild := tdel back.fwd.rebuild g })

/-! ### Choosing the output (R107 to R115) -/

/-- What a resolution comes to. -/
inductive Output where
  /-- a port, and the next hop whose entry supplies the NH sources -/
  | port (q : Nat) (nh : Option Nat)
  /-- a multicast group chosen by flooding -/
  | flood (grp : Nat)
  /-- a trap: ring and source (Table 13-8) -/
  | trap (ring source : Nat)
  /-- a drop, with the group counter that counts it -/
  | drop (counter : Option Nat)
  /-- wait for a line of the resolution cache -/
  | await (key : Nat)

/-- Resolve a next-hop index in group g under selection hash S (R111, R114). -/
def resolveNh (s : State) (g sel i : Nat) : Output :=
  if 2 ^ 18 ≤ i ∧ !hasLine s g (lineNh i) then .await (lineNh i)
  else
    let e := nhEntry s i
    match nhKind e with
    | 1 => .port (nhPort e) (some i)
    | 2 =>
      let m := (tget (0 : BitVec 32) s.fwd.ecmp (256 * nhEcmp e + sel % 256)).toNat % 2 ^ 24
      if 2 ^ 18 ≤ m ∧ !hasLine s g (lineNh m) then .await (lineNh m)
      else if nhKind (nhEntry s m) = 1 then .port (nhPort (nhEntry s m)) (some m)
      else .drop (some 3)
    | 3 => .drop (some 2)
    | 4 => .trap (nhTrapRing e) 2
    | _ => .drop (some 1)

/-- A backend qualifies (R115). -/
def beTakes (e : BitVec 256) (newFlow : Bool) : Bool := beState e == 1 || (beState e == 2 && !newFlow)

/-- The search of R115 without waits, as a setup makes it: the chosen backend's next hop, or none.
(DESIGN CHOICE, log entry 35) -/
def lbSearch (s : State) (t : Nat) (newFlow : Bool) : Nat → Nat → Option Nat
  | 0, _ => none
  | n + 1, i =>
    let sl := lbSlotEntry s t i
    let b := beEntry s (bf sl 19 0)
    if bit sl 31 && beTakes b newFlow then some (beNh b) else lbSearch s t newFlow n ((i + 1) % 65537)

/-- One move of a stateless search (R112, R115): a line to wait for, or the search after reading it. -/
def lbStep (s : State) (g t : Nat) (x : LbSearch) : Option Nat × LbSearch :=
  match x.backend with
  | some b =>
    if !hasLine s g (lineBackend b) then (some (lineBackend b), x)
    else if beTakes (beEntry s b) false then (none, { x with nh := some (beNh (beEntry s b)) })
    else (none, { x with backend := none, i := (x.i + 1) % 65537, left := x.left - 1 })
  | none =>
    if !hasLine s g (lineSlot t x.i) then (some (lineSlot t x.i), x)
    else
      let sl := lbSlotEntry s t x.i
      if bit sl 31 then (none, { x with backend := some (bf sl 19 0) })
      else (none, { x with i := (x.i + 1) % 65537, left := x.left - 1 })

/-- Run a stateless search until it waits or ends. -/
def lbRun (s : State) (g t : Nat) : Nat → LbSearch → Option Nat × LbSearch
  | 0, x => (none, x)
  | n + 1, x =>
    if x.nh.isSome ∨ x.left = 0 then (none, x)
    else
      let r := lbStep s g t x
      match r.1 with
      | some key => (some key, r.2)
      | none => lbRun s g t n r.2

/-- Note a search that found no backend (R115). -/
def noBackend (g service : Nat) (s : State) : State :=
  raiseLimited 0x0408 g (fun n => [g, service, n]) (count 0x3817 g 7 s)

/-- The stateless lookup of a service for a packet: the output, and the packet's search kept in the state. -/
def resolveService (g sel service pid : Nat) (s : State) : Output × State :=
  let e := svEntry s service
  let fall := fun (n : Nat) (z : State) => if n = 0 then (Output.drop none, z) else (resolveNh z g sel n, z)
  if !svValid e then fall (svFallback e) s
  else
    let x0 := ((pkt s pid).lb).getD { service := service, i := sel % 65537, left := 8, backend := none, nh := none }
    let r := lbRun s g (svTable e) 17 x0
    match r.1 with
    | some key => (.await key, modPkt pid (fun p => { p with lb := some r.2 }) s)
    | none =>
      match r.2.nh with
      | some n =>
        let z := modPkt pid (fun p => { p with lb := some r.2 }) s
        if x0.nh.isSome ∧ x0.left = 0 then fall n z else (resolveNh z g sel n, z)
      | none =>
        let x1 := { r.2 with nh := some (svFallback e), left := 0 }
        fall (svFallback e) (modPkt pid (fun p => { p with lb := some x1 }) (noBackend g service s))

/-- The routed lookup (R108). -/
def routed (g sel : Nat) (p : Packet) (s : State) : Output × State :=
  let hit := (p.parse.bind (·.outer)).bind fun o => lpmLookup s p.zone o.fam o.dst
  match hit with
  | some i => (resolveNh s g sel i, s)
  | none =>
    (if cfgN s 0x3800 0 0 = 1 then .trap (cfgN s 0x3801 0 0) 3 else .drop none, count 0x3817 g 0 s)

/-- The VLAN ID of the bridged lookup (R109). -/
def bridgeVid (s : State) (p : Packet) : Nat :=
  let tagged := hasVlan p.data
  let v := beNat (slice p.data 14 2) % 4096
  if tagged ∧ v ≠ 0 then v else cfgN s 0x3813 p.port 0

/-- The bridged lookup (R109). -/
def bridged (g : Nat) (p : Packet) (s : State) : Output :=
  let vid := bridgeVid s p
  match l2Find s g vid (beNat (p.data.take 6)) with
  | some k => if l2Port (l2Entry s k) = p.port then .drop (some 5) else .port (l2Port (l2Entry s k)) none
  | none =>
    let f := cfgN s 0x3814 vid 0
    if f = 0xFFFF then .drop (some 6) else .flood f

/-- A packet's output from its first source (R107). (DESIGN CHOICE, log entry 32) -/
def chooseOutput (pid : Nat) (s : State) : Output × State :=
  let p := pkt s pid
  let g := groupOf p.pipe
  let sel := selectHash s p
  let m := merged p
  let rec_ := (p.answer.map (·.nh)).getD 0
  match p.release, p.fall with
  | some r, _ => (resolveNh s g sel r.1, s)
  | none, some f => (if f = 0 then .drop none else resolveNh s g sel f, s)
  | none, none =>
    if rec_ ≠ 0 then (resolveNh s g sel rec_, s)
    else match m.nhKind with
      | 1 => (resolveNh s g sel m.nhValue, s)
      | 2 => (.port (m.nhValue % 1024) none, s)
      | 3 => resolveService g sel (m.nhValue % 65536) pid s
      | _ =>
        if (p.parse.map fun w => bit w.word fRouterMac).getD false then routed g sel p s else (bridged g p s, s)

/-! ### Step 6 (R94, R95, R107, R282) -/

/-- The edit program of a packet: its release's, its record's, else that of its stages (R95, R168). -/
def editOf (p : Packet) : Nat :=
  match p.release with
  | some r => r.2
  | none => match p.answer with
    | some a => a.edit
    | none => (merged p).edit

/-- A colour's action: 0 PASS, 1 DROP, 2 REMARK, and its DSCP (Table 9-3, R282). -/
def colourAction (s : State) (p : Packet) : Nat × Nat :=
  let w := meterProf s (meter s p.meter).profile
  if p.colour = 3 then (mpYellow w, mpYellowDscp w) else if p.colour = 4 then (mpRed w, mpRedDscp w) else (0, 0)

/-- The DSCP that a packet's colour has written (R282). -/
def colourDscp (s : State) (p : Packet) : Option Nat :=
  let a := colourAction s p
  if a.1 = 2 then some a.2 else none

/-- Route a packet: its output is resolved, and it is queued, replicated, trapped, dropped or waits. -/
def route (pid : Nat) (s : State) : State :=
  let r := chooseOutput pid s
  let p := pkt r.2 pid
  let g := groupOf p.pipe
  let dscp := colourDscp s p
  let cls := (merged p).cls
  match r.1 with
  | .await key => awaitLine g key pid r.2
  | .drop none => dropPkt pid r.2
  | .drop (some k) => dropPkt pid (count 0x3817 g k r.2)
  | .trap ring source => dropPkt pid (toRing ring source pid 0 r.2)
  | .flood grp => multicast grp pid cls (editOf p) dscp true r.2
  | .port q nh =>
    xbarPut p.pipe q { pid := pid, edit := editOf p, cls := cls, nh := nh, ecn := false, dscp := dscp, cut := false, ptp := 0 } r.2

/-- A mirror copy to a port: the frame as received, truncated, unedited (R95, Table 3-17). -/
def mirrorPort (q cls trunc pid : Nat) (s : State) : State :=
  let p := pkt s pid
  let d := if trunc != 0 && decide (trunc < p.data.length) then p.data.take trunc else p.data
  let n := frameCells (d.length + 4)
  if halfFree s p.half < n then s
  else
    let c : Packet := { noPacket with
      pipe := p.pipe, port := p.port, data := d, rxLen := d.length + 4, half := p.half, cells := n,
      place := 0, refs := 1, ended := true, ts := p.ts, born := p.born, epoch := none }
    let id := s.path.nextPid
    let s1 := chargePending n id (setPkt id c (setPath s { s.path with nextPid := id + 1 }))
    xbarPut p.pipe q { pid := id, edit := 4096, cls := cls, nh := none, ecn := false, dscp := none, cut := false, ptp := 0 } s1

/-- Send the mirror copy of a session (R95). (DESIGN CHOICE, log entry 33) -/
def mirror (m pid : Nat) (s : State) : State :=
  let dest := cfgN s 0x3020 m 0
  let trunc := cfgN s 0x3020 m 1
  if m = 0 ∨ dest = 0xFFFF then s
  else if 0x8000 ≤ dest then toRing (dest - 0x8000) 5 pid trunc s
  else if dest < 1024 then mirrorPort dest (cfgN s 0x3020 m 2) trunc pid s
  else s

/-- A malformed packet is dropped and counted (R82, R104). (DESIGN CHOICE, log entry 33) -/
def dropMalformed (pid : Nat) (s : State) : State :=
  let p := pkt s pid
  let c := (p.parse.map fun w => bf w.word 37 34).getD 0
  let l := (tget [] s.path.malformed p.pipe).filter (fun r => decide (raw s < r.1 + cycSecond)) ++ [(raw s, c)]
  let s1 := count 0x3030 p.pipe (0x10 + c) (count 0x3030 p.pipe 0 s)
  let s2 := setPath s1 { s1.path with malformed := tput s1.path.malformed p.pipe l }
  let hits := fun (k : Nat) => (l.filter fun r => r.2 == k).length
  let top := [1, 2, 3, 4, 5, 6, 7, 8].foldl (fun b k => if hits b < hits k then k else b) 1
  dropPkt pid (if cfgN s 0x3005 0 0 ≤ l.length then raiseLimited 0x0302 p.pipe (fun _ => [p.pipe, top, l.length]) s2 else s2)

/-- A packet of which a colour asks a remark goes on to an output: no trap, verdict or record stops it. -/
def remarkGoes (p : Packet) : Bool :=
  let m := merged p
  !m.trap && m.verdict != 2 && p.flow != 5 && p.flow != 7 && !(p.answer.map (·.drop)).getD false

/-- Count a packet's colour, its drop or its remark (R282): a drop that a trap overrides is none. -/
def countColour (pid : Nat) (s : State) : State :=
  let p := pkt s pid
  if p.colour < 2 then s
  else
    let a := (colourAction s p).1
    let s1 := count 0x5831 p.pipe (p.colour - 2) s
    if a = 1 ∧ !(merged p).trap then count 0x5831 p.pipe 3 s1
    else if a = 2 ∧ remarkGoes p then count 0x5831 p.pipe 4 s1 else s1

/-- The packet's metadata is the merged one from here on (R94, R101). -/
def takeMeta (pid : Nat) (s : State) : State := modPkt pid (fun p => { p with metadata := mergedMeta p }) s

/-- Step 6 of a packet whose flow answer and colour are in: malformed packets, mirror, traps and drops,
recirculation, then its output (R82, R94, R95, R282). (DESIGN CHOICE, log entry 33) -/
def stepSix (pid : Nat) (s0 : State) : State :=
  let s := takeMeta pid s0
  let p := pkt s pid
  let m := merged p
  if isExpired s pid ∨ p.barred then dropPkt pid s
  else if (p.parse.map fun w => bit w.word fMalformed).getD false then
    if m.trap && m.trapMalformed then dropPkt pid (toRing m.trapRing 1 pid 0 s) else dropMalformed pid s
  else
    let ses := match p.answer with
      | some a => a.mirror
      | none => m.mirror
    let s1 := mirror ses pid (countColour pid s)
    if m.trap then dropPkt pid (toRing m.trapRing 1 pid 0 s1)
    else if m.verdict = 2 ∨ p.flow = 5 then dropPkt pid s1
    else if p.flow = 7 then dropPkt pid (toRing p.failRing 4 pid 0 s1)
    else if (p.answer.map (·.drop)).getD false ∨ (colourAction s p).1 = 1 then dropPkt pid s1
    else if m.recirc ∧ p.release.isNone then
      let nh := if (p.answer.map (·.nh)).getD 0 ≠ 0 then p.answer.map (·.nh)
        else if m.nhKind = 1 then some m.nhValue else none
      pushJob p.pipe (mkJob s1 { pid := pid, edit := editOf p, cls := m.cls, nh := nh, ecn := false,
                                 dscp := colourDscp s p, cut := false, ptp := 0 } 1024 0) s1
    else route pid s1

/-- The meter that a packet still has to ask at step 6: the merged rule meter, when no record meter was asked
(R280). -/
def ruleMeter (p : Packet) : Option Nat :=
  let m := (merged p).meter
  if p.colour = 0 ∧ m ≠ 0 ∧ ((p.answer.map (·.meter)).getD 0) = 0 then some m else none

/-- A released packet waits. -/
def parkPkt (pid : Nat) (s : State) : State := setPath s { s.path with parked := s.path.parked ++ [pid] }

/-- A released packet re-enters step 6, after it has waited for the colour of its rule meter (R280, R283). -/
def releaseStep (pid : Nat) (s : State) : State :=
  match ruleMeter (pkt s pid) with
  | some m => parkPkt pid (meterAsk pid m s)
  | none => stepSix pid s

/-- A released packet waits for an earlier frame of its flow, or for the colour that it has asked (R31, R283).
(DEDUCED, log entry 112) -/
def releaseWaits (s : State) (pid : Nat) : Bool := flowAhead s pid || (pkt s pid).colour == 1

/-- A held packet is released (R20, R153). One that has not yet retired takes its turn there (R18), and one behind an
earlier frame of its flow that has not retired, or that awaits its colour, waits (R31, R283).
(DEDUCED, log entry 112) -/
def releasePkt (pid : Nat) (s : State) : State :=
  if (pkt s pid).place = 3 then s
  else if (retireQ s (pkt s pid).pipe).contains pid then s
  else if releaseWaits s pid then parkPkt pid s
  else releaseStep pid s

/-- A frame has left its retire stage, or a colour has come: released packets that waited for it go on, in order
(R20, R31, R283). -/
def unpark (s : State) : State :=
  s.path.parked.foldl (fun t pid =>
    if releaseWaits t pid then t
    else
      let u := setPath t { t.path with parked := t.path.parked.filter (· != pid) }
      if isExpired u pid then dropPkt pid u else releaseStep pid u) s

/-- METER_REQUEST: meter bank b serves its oldest request; lost: the meter's state word reads uncorrectable and
is set full (R281, R284). -/
def execMeterRequest (b : Nat) (lost : Bool) (s : State) : Host.Outcome State Fault Refusal :=
  match meterQ s b with
  | [] => .next s
  | r :: rest =>
    let s1 := setMeterQ s b rest
    let s2 := if lost then
        let w := meterProf s1 (meter s1 r.2.1).profile
        detect 2 0x0804 [b, r.2.1] (setMeter s1 r.2.1 { meter s1 r.2.1 with tc := mpCbs w, tp := mpPbs w, last := raw s1 })
      else s1
    .next (unpark (meterServe r.1 r.2.1 s2))

/-- NH_LINE_ARRIVAL: a fetched line of group g is installed, and its wait list is released in list order
(R112). -/
def execNhLineArrival (g key : Nat) (s : State) : Host.Outcome State Fault Refusal :=
  match (fetchesOf s g).find? fun f => f.line == key with
  | none => .next s
  | some f =>
    let s1 := installLine g key (setFetches s g ((fetchesOf s g).filter fun x => x.line != key))
    .next (f.waiters.foldl (fun t pid => if isExpired t pid then dropPkt pid t else route pid t) s1)

/-! ### Objects of Table 4-13 -/

/-- Device-set forwarding objects. -/
def forwardObj (a : Nat) (s : State) : Option Bytes :=
  let g := oaInst a
  match oaIndex a, oaSub a with
  | 0x3803, _ => some (leBytes 4 (lpmUnits s))
  | 0x3815, 0 => some (leBytes 4 (l2Seeds s g).1)
  | 0x3815, 1 => some (leBytes 4 (l2Seeds s g).2)
  | 0x3816, 0 => some (leBytes 8 (l2Group s g).length)
  | 0x3816, 8 => some (leBytes 8 ((l2Group s g).filter fun r => l2Static r.2).length)
  | _, _ => none

end Sys2Proof.Machine
end

