-- ==== Sys2Proof/Machine/Shim.lean ====
section
/-! DEFINITION. The FlexE shim and Seam: overhead lock, deskew, calendar switch, integrity, performance monitoring
(chapter 11). -/
namespace Sys2Proof.Machine

/-! ### Groups, members and entities -/

/-- Enabled groups. -/
def fxGroupsOn (s : State) : List Nat :=
  s.ctl.active.objs.filterMap fun r =>
    if oaIndex r.1 = 0x2800 ∧ oaSub r.1 = 0 ∧ leNat r.2 ≠ 0 then some (oaInst r.1) else none

/-- Every instance of a member is LOCKED. -/
def memberLocked (s : State) (i : Nat) : Bool :=
  linkUp s (phyKey i) && (List.range (fxInstances s (i / 8))).all fun n => (ohLock s (8 * i + n)).state == 4

/-- Locked members of a group, in ascending PHY number. -/
def lockedMembers (s : State) (g : Nat) : List Nat := (fxMembers s g).filter (memberLocked s)

/-- PHY rate of a group in Mb/s. -/
def fxRate (s : State) (g : Nat) : Nat := 100000 * fxInstances s g

/-- The PHY map that a group is configured with, as a set of PHY numbers. -/
def fxMap (s : State) (g : Nat) : Nat := (fxMembers s g).foldl (fun a i => a + 2 ^ cfgN s 0x2801 i 3) 0

/-- A client of the group by its client ID. -/
def clientOfId (s : State) (g id : Nat) : Option Nat := (groupClients s g).find? fun q => id != 0 && cfgN s 0x2802 q 1 == id

/-- Blocks of 0.64 ns as whole ns. -/
def blocksNs (d : Nat) : Nat := d * 16 / 25

/-- A member's RPF as transmitted (R322). -/
def rpfSent (s : State) (i : Nat) : Bool := rxDefect s i

def pmReset : PmEntity :=
  { on := false, bip := (0, 0), blocks := (0, 0), defect := (false, false, false), unavail := (false, false), sd := 0,
    belowSd := 0, belowSf := 0, held := ([], []), suspect := (false, false), noSeam := (false, false),
    ending := (false, false), closed := 0, told := [] }

def pmEntity (s : State) (e : Nat) : PmEntity := tget pmReset s.fx.pm e
def setPm (s : State) (e : Nat) (x : PmEntity) : State := setFx s { s.fx with pm := tset pmReset s.fx.pm e x }

/-- Near-end defects, far-end defect, and LOF or LOM of a member (R335). -/
def memberPmDefects (s : State) (i : Nat) : Bool × Bool × Bool :=
  let d := (member s i).defects
  (linkDefect s i || bf d 5 1 != 0, bit d 6, bf d 2 1 != 0)

/-- Near-end and far-end defects of a client (R335). -/
def clientPmDefects (s : State) (q : Nat) : Bool × Bool × Bool :=
  match clientGroup s q with
  | none => (false, false, false)
  | some g =>
    let rx := rxSlots (fxGroup s g) (cfgN s 0x2802 q 1)
    (rx.isEmpty || rx.any (fun j => match slotMember s g j with
      | some i => (memberPmDefects s i).1
      | none => true), (fxClient s q).prdi, false)

def entityDefects (s : State) (e : Nat) : Bool × Bool × Bool :=
  if e < 512 then memberPmDefects s e else clientPmDefects s (e - 512)

/-- Note in the second in progress the defects that an entity has now. (DESIGN CHOICE, log entry 89) -/
def pmNote (e : Nat) (s : State) : State :=
  let x := pmEntity s e
  let d := entityDefects s e
  setPm s e { x with defect := (x.defect.1 || d.1, x.defect.2.1 || d.2.1, x.defect.2.2 || d.2.2) }

/-! ### Defects and consequent actions (11.6) -/

/-- Set or clear a member's defect; a change raises event 0x0202. -/
def setDefect (i b : Nat) (on : Bool) (s : State) : State :=
  let m := member s i
  if bit m.defects b = on then s
  else pmNote i (raise 0x0202 [i, b, b2n on] (setMember s i { m with defects := putBf m.defects b b (b2n on) }))

/-- Report the changes of a client's defects and take it up or down (R333, R334). -/
def fxReviewPort (q : Nat) (s : State) : State :=
  let old := tget (0, false) s.fx.told q
  let d := clientDefects s q
  let up := clientUp s q
  if old = (d, up) then s
  else
    let s1 := setFx s { s.fx with told := tset (0, false) s.fx.told q (d, up) }
    let bits := (List.range 7).filter fun b => d.testBit b != old.1.testBit b
    let s2 := (if bits.isEmpty then [0xFF] else bits).foldl (fun t b => raise 0x0203 [q, b2n up, b] t) s1
    let s3 := pmNote (512 + q) s2
    if old.2 && !up then portDiscard q (stat q 0x44 1 s3)
    else if up && !old.2 then bucketsFull q s3 else s3

/-- Review every client of a group. -/
def fxReview (g : Nat) (s : State) : State := (groupClients s g).foldl (fun t q => fxReviewPort q t) s

/-- Event 0x0201: members locked and clients up changed. -/
def groupState (g : Nat) (s : State) : State :=
  raise 0x0201 [g, (lockedMembers s g).length, ((groupClients s g).filter (clientUp s)).length] s

/-! ### Deskew (11.4) -/

/-- The largest set of locked members whose arrivals lie within deskew_max, of equal sets the one with the lowest
PHY number (R323). Members are listed in ascending PHY number. -/
def deskewSet (win : Nat) (ms : List (Nat × Nat)) : List (Nat × Nat) :=
  let sets := ms.map fun a => ms.filter fun b => a.2 ≤ b.2 ∧ b.2 ≤ a.2 + win
  let rank := fun (l : List (Nat × Nat)) => ms.findIdx fun a => l.head? == some a
  sets.foldl (fun best l =>
    if best.length < l.length ∨ (l.length = best.length ∧ rank l < rank best) then l else best) []

/-- Slots of a member that the receive calendar in use assigns. (DESIGN CHOICE, log entry 87) -/
def assignedSlots (s : State) (i : Nat) : Nat :=
  let g := i / 8
  ((rxCal (fxGroup s g)).filter fun r => r.2 != 0 && slotMember s g r.1 == some i).length

/-- Delay on chip: 10 µs in blocks (R324). -/
def chipDelay : Nat := 15625

/-- Mb/s of assigned slot rate that the other groups of a group's core die carry through HBM (R324).
(DESIGN CHOICE, log entry 88) -/
def dieHbmRate (s : State) (g : Nat) : Nat :=
  (s.fx.members.filter fun r => r.1 / 256 == g / 32 && r.1 / 8 != g && decide (chipDelay < r.2.delay)).foldl
    (fun a r => a + 5000 * assignedSlots s r.1) 0

/-- Bytes that a deskew region can hold now (R325, R326). (DESIGN CHOICE, log entry 88) -/
def regionRoom (s : State) (g : Nat) : Nat := (fxGroup s g).region.2 * (128 - retiredCount s) / 128

/-- Admit the members that need HBM in ascending PHY number until the rate limit (R324): answer what is refused for
the rate and for room. (DESIGN CHOICE, log entry 88) -/
def admitHbm (s : State) (g : Nat) : List (Nat × Nat) → Nat → Nat → List Nat × List Nat → List Nat × List Nat
  | [], _, _, r => r
  | (i, d) :: rest, rate, bytes, r =>
    let slots := assignedSlots s i
    if 200000 < rate + 5000 * slots then (r.1 ++ i :: rest.map (·.1), r.2)
    else if regionRoom s g < bytes + slots * d * 2 / 5 then admitHbm s g rest rate bytes (r.1, r.2 ++ [i])
    else admitHbm s g rest (rate + 5000 * slots) (bytes + slots * d * 2 / 5) r

/-- Measure the skew of a group's locked members and delay them (R323, R324, R326). again: the group realigns.
(DESIGN CHOICE, log entry 88) -/
def deskew (g : Nat) (again : Bool) (s : State) : State :=
  let ms := (lockedMembers s g).filterMap fun i => ((member s i).arrival).map fun a => (i, a)
  let set := deskewSet (cfgN s 0x2800 g 3 * 25 / 16) ms
  let last := set.foldl (fun a r => max a r.2) 0
  let ds := set.map fun r => (r.1, last - r.2)
  let bad := admitHbm s g (ds.filter fun r => chipDelay < r.2) (dieHbmRate s g) 0 ([], [])
  let out := (ms.map (·.1)).filter fun i => !(set.map (·.1)).contains i
  let skewed := out ++ bad.1 ++ bad.2
  let big := blocksNs (ds.foldl (fun a r => max a r.2) 0)
  let s1 := ms.foldl (fun t r =>
    let d := if skewed.contains r.1 then 0 else ((ds.find? fun x => x.1 == r.1).map (·.2)).getD 0
    setDefect r.1 5 (skewed.contains r.1) (setMember t r.1 { member t r.1 with delay := d })) s
  let causes := (if again then [1] else []) ++ (if out.isEmpty then [] else [2]) ++
    (if bad.1.isEmpty then [] else [3]) ++ (if bad.2.isEmpty then [] else [4])
  fxReview g (causes.foldl (fun t c => raise 0x0206 [g, c, big] t) s1)

/-- Bytes of a group's deskew region (R325). (DESIGN CHOICE, log entry 88) -/
def regionBytes (s : State) (g : Nat) : Nat :=
  let ns := cfgN s 0x2800 g 3
  let n := ((fxMembers s g).length - 1) * fxRate s g * ns
  let unit := 8000 * 2 ^ 24
  if ns ≤ 10000 then 0 else (n + unit - 1) / unit * 2 ^ 24

/-- First place of n bytes among the regions held in the deskew partition. (DESIGN CHOICE, log entry 88) -/
def regionPlace (s : State) (n : Nat) : Nat :=
  let held := s.fx.groups.filterMap fun r => if r.2.region.2 = 0 then none else some r.2.region
  let free := fun (a : Nat) => held.all fun h => a + n ≤ h.1 || h.1 + h.2 ≤ a
  let ends := (held.map fun h => h.1 + h.2).filter free
  if free 0 then 0 else ends.foldl min (ends.headD 0)

/-! ### Seam (11.5) -/

/-- Change the Seam state of a group with event 0x0207. (DESIGN CHOICE, log entry 87) -/
def seamGo (g state cause : Nat) (s : State) : State :=
  let x := fxGroup s g
  raise 0x0207 [g, state, if state = 2 then x.version else 0, cause]
    (setGroup s g { x with seam := state, helloAge := 0, silentSince := raw s })

/-- Enter NEGOTIATE from OFF or ACTIVE with a new nonce (R329). -/
def seamNegotiate (g : Nat) (s : State) : State :=
  let (n, s1) := fresh 32 s
  let x := fxGroup s1 g
  setGroup s1 g { x with seam := 1, nonce := n, version := 0, peer := none, helloAge := 0 }

/-- Seam falls back to OFF (Table 11-5, last row). -/
def seamOff (g : Nat) (s : State) : State :=
  setGroup s g { fxGroup s g with seam := 0, version := 0, peer := none, helloAge := 0 }

/-- A write of fx.seam[g].enable (Table 11-5). -/
def seamEnable (g : Nat) (on : Bool) (s : State) : State := if on then s else seamOff g s

/-- The lead member: the locked member of the lowest PHY number (R329). -/
def leadMember (s : State) (g : Nat) : Option Nat := (lockedMembers s g).head?

/-- A Seam message: header, body and CRC-32C (R327, Table 11-3). -/
def seamMessage (s : State) (i type version : Nat) (body : Bytes) : Bytes :=
  let x := fxGroup s (i / 8)
  let head := 0x534D * 2 ^ 112 + type * 2 ^ 104 + version * 2 ^ 96 + body.length * 2 ^ 80 +
    cfgN s 0x2800 (i / 8) 1 % 2 ^ 20 * 2 ^ 56 + cfgN s 0x2801 i 3 * 2 ^ 48 + x.mfSeq.toNat * 2 ^ 32 + x.nonce.toNat
  let m := beBytes 16 head ++ body
  m ++ beBytes 4 (crc32c m)

/-- Send a HELLO on the lead member (Table 11-4). -/
def seamHello (g : Nat) (s : State) : State :=
  match leadMember s g with
  | none => s
  | some i =>
    let x := fxGroup s g
    let body := [1, cfgN s 0x2810 g 1, if x.peer.isSome then x.version else 0, 0].map (BitVec.ofNat 8) ++
      beBytes 4 ((x.peer.map (·.toNat)).getD 0)
    setMember s i { member s i with seamSent := seamMessage s i 1 1 body }

/-- The REPORT that a member sends (R330): bips holds the own BIP-8 values of the window before, by entity. -/
def seamReport (s : State) (i : Nat) (bips : List (Nat × Nat)) : Bytes :=
  let g := i / 8
  let x := fxGroup s g
  let v2 := x.version == 2
  let own := fun (e : Nat) => ((bips.find? fun r => r.1 == e).map (·.2)).getD 0 % 256
  let paths := if v2 then (groupClients s g).filter fun q =>
      match txSlots x (cfgN s 0x2802 q 1) with
      | j :: _ => slotMember s g j == some i
      | [] => false
    else []
  let r := (member s i).rei
  let section_ := own i * 2 ^ 56 + (if v2 then min r.1 8 * 2 ^ 52 + r.2 % 65536 * 2 ^ 32 else 0) + paths.length * 2 ^ 16
  let entry := fun (q : Nat) =>
    let c := fxClient s q
    let d := clientDefects s q
    let rxBad := d.testBit 0 || d.testBit 2 || c.psd || c.psf
    beBytes 4 (cfgN s 0x2802 q 1 * 2 ^ 16 + own (512 + q) * 2 ^ 8 + min c.rei.1 8 * 16 + b2n rxBad * 8)
  seamMessage s i 2 x.version (beBytes 8 section_ ++ paths.flatMap entry)

/-- The header of a Seam message as a number, its body, and whether R327 accepts it for a type and body lengths. -/
def seamParse (s : State) (i type : Nat) (okLen : Nat → Bool) (m : Bytes) : Nat × Bytes × Bool :=
  let n := m.length - 4
  let h := beNat (m.take 16)
  let len := fld h 95 80
  (h, slice m 16 len, decide (20 ≤ m.length) && fld h 127 112 == 0x534D && fld h 111 104 == type &&
    beNat (m.drop n) == crc32c (m.take n) && fld h 75 56 == cfgN s 0x2800 (i / 8) 1 && n == 16 + len && okLen len)

/-- SEAM_HELLO_RECEIVED: a HELLO arrives on a member (R328, Table 11-5). -/
def execSeamHelloReceived (i : Nat) (m : Bytes) (s : State) : Host.Outcome State Fault Refusal :=
  let g := i / 8
  let x := fxGroup s g
  let (h, body, ok) := seamParse s i 1 (· == 8) m
  if ¬ fxOn s g ∨ ¬ memberLocked s i ∨ x.seam = 0 then .next s
  else if !ok then .next (count 0x2810 g 7 s)
  else if x.seam = 2 then .next (seamNegotiate g (seamGo g 1 4 s))
  else
    let b := fun (k : Nat) => (body.getD k 0).toNat
    let v := min (cfgN s 0x2810 g 1) (b 1)
    if v < 1 ∨ v < b 0 then .next (seamGo g 3 3 s)
    else
      let nonce : BitVec 32 := BitVec.ofNat 32 h
      let s1 := setGroup s g { x with seam := 1, version := v, peer := some nonce, helloAge := 0 }
      if b 2 = v ∧ beNat (slice body 4 4) = x.nonce.toNat then
        let s2 := (fxMembers s1 g).foldl (fun t j => setMember t j { member t j with reportAge := 0 }) s1
        .next (seamGo g 2 1 s2)
      else .next s1

/-- Bits in which two bytes differ. -/
def byteErrors (a b : Nat) : Nat := ((List.range 8).filter fun k => a.testBit k != b.testBit k).length

/-- Note an evaluated window of an entity: near-end errors, far-end errors if the version carries rei. -/
def pmWindow (e near : Nat) (far : Option Nat) (s : State) : State :=
  let x := pmEntity s e
  let f := far.getD 0
  setPm s e { x with bip := (x.bip.1 + near, x.bip.2 + f),
                     blocks := (x.blocks.1 + b2n (near != 0), x.blocks.2 + b2n (f != 0)) }

/-- SEAM_REPORT_RECEIVED: a REPORT arrives on a member (R330, R331). own holds the receiver's BIP-8 values of that
window, by entity. -/
def execSeamReportReceived (i : Nat) (m : Bytes) (own : List (Nat × Nat)) (s : State) : Host.Outcome State Fault Refusal :=
  let g := i / 8
  let x := fxGroup s g
  let (h, body, ok) := seamParse s i 2 (fun n => n % 4 == 0 && decide (8 ≤ n) && decide (n ≤ 328)) m
  let sec := beNat (body.take 8)
  let paths := fld sec 31 16
  if ¬ fxOn s g ∨ ¬ memberLocked s i ∨ x.seam = 0 then .next s
  else if !ok || body.length != 8 + 4 * paths then .next (count 0x2810 g 7 s)
  else if x.seam ≠ 2 then .next s
  else if x.peer ≠ some (BitVec.ofNat 32 h) then .next (seamNegotiate g (seamGo g 1 5 s))
  else
    let mine := fun (e : Nat) => ((own.find? fun r => r.1 == e).map (·.2)).getD 0 % 256
    let seq := (fld h 47 32 + 65535) % 65536
    let v2 := x.version == 2
    let n := byteErrors (fld sec 63 56) (mine i)
    let s1 := setMember s i { member s i with reportAge := 0, rei := (n, seq) }
    let s2 := pmWindow i n (if v2 then some (fld sec 55 52) else none) s1
    let s3 := if v2 then (List.range paths).foldl (fun t k =>
        let w := beNat (slice body (8 + 4 * k) 4)
        match clientOfId t g (fld w 31 16) with
        | none => t
        | some q =>
          let e := byteErrors (fld w 15 8) (mine (512 + q))
          let t1 := setClient t q { fxClient t q with rei := (e, seq), prdi := bit (BitVec.ofNat 32 w) 3 }
          pmWindow (512 + q) e (some (fld w 7 4)) t1) s2
      else s2
    .next (fxReview g s3)

/-- SEAM_NEGOTIATE_TIMEOUT: 30 multiframes passed without a HELLO (Table 11-5). -/
def execSeamNegotiateTimeout (g : Nat) (s : State) : Host.Outcome State Fault Refusal :=
  let x := fxGroup s g
  if x.seam = 1 ∧ 30 ≤ x.helloAge then .next (seamGo g 3 2 s) else .next s

/-- SEAM_REPORT_TIMEOUT: 8 multiframes passed without a valid REPORT on any member (Table 11-5). -/
def execSeamReportTimeout (g : Nat) (s : State) : Host.Outcome State Fault Refusal :=
  if (fxGroup s g).seam = 2 ∧ (lockedMembers s g).all (fun i => 8 ≤ (member s i).reportAge) then
    .next (seamNegotiate g (seamGo g 1 5 s))
  else .next s

/-- SEAM_RETRY: in SILENT, fx.seam[g].retry has expired: one HELLO is sent (Table 11-5). -/
def execSeamRetry (g : Nat) (s : State) : Host.Outcome State Fault Refusal :=
  let x := fxGroup s g
  if x.seam = 3 ∧ x.silentSince + cfgN s 0x2810 g 4 * cycSecond ≤ raw s then
    .next (setGroup (seamHello g s) g { x with silentSince := raw s })
  else .next s

/-! ### Overhead lock (11.3) -/

/-- A member's lock is lost or gained: events and consequences (R320, R323, R329). (DEDUCED, log entry 85) -/
def lockChanged (i : Nat) (was : Bool) (s : State) : State :=
  let g := i / 8
  let now := memberLocked s i
  if was = now then s
  else if now then
    let others := (lockedMembers s g).any fun j => j != i
    let s1 := setDefect i 2 false (setDefect i 1 false s)
    let s2 := groupState g (deskew g others s1)
    if (fxGroup s2 g).seam = 0 ∧ cfgOn s2 0x2810 g 0 then seamNegotiate g s2 else s2
  else
    let s1 := groupState g (setMember s i { member s i with arrival := none, delay := 0 })
    fxReview g (if (lockedMembers s1 g).isEmpty then seamOff g s1 else s1)

/-- The lock state machine of an instance at an overhead frame position (Table 11-2): the lock after it, and the
defect it sets. (DEDUCED, log entry 85) -/
def lockStep (l : OhLock) (f : OhFrame) : OhLock × Option Nat :=
  let good := f.start && f.crc
  let fell := good && l.omf && !f.omf
  let l1 := { l with omf := if good then f.omf else l.omf }
  match l.state with
  | 0 => if good then ({ lockReset with state := 1, omf := f.omf }, none) else (lockReset, none)
  | 1 =>
    if !good then (lockReset, none)
    else if l.hits = 1 then ({ l1 with state := 2, hits := 0 }, none) else ({ l1 with hits := l.hits + 1 }, none)
  | 2 => if fell then ({ l1 with state := 3, hits := 0, frames := 0 }, none) else (l1, none)
  | 3 =>
    if l.frames + 1 < 32 then ({ l1 with frames := l.frames + 1 }, none)
    else if !fell then ({ l1 with state := 2, hits := 0, frames := 0 }, none)
    else if l.hits = 1 then ({ l1 with state := 4, hits := 0, frames := 0, badFrames := 0, badMf := 0, mfWrong := false }, none)
    else ({ l1 with hits := l.hits + 1, frames := 0 }, none)
  | _ =>
    if !good && l.badFrames == 4 then (lockReset, some 1)
    else
      let k := (l.frames + 1) % 32
      let wrong := l.mfWrong || (good && f.omf != decide (16 ≤ k))
      let l2 := { l1 with frames := k, badFrames := if good then 0 else l.badFrames + 1, mfWrong := wrong }
      if k ≠ 31 then (l2, none)
      else if wrong && l.badMf == 1 then ({ l2 with state := 2, hits := 0, badMf := 0, mfWrong := false }, some 2)
      else ({ l2 with badMf := if wrong then l.badMf + 1 else 0, mfWrong := false }, none)

/-- A defect of R321: set on a mismatch, cleared after 3 frames in a row that match; answers the count of those. -/
def matchDefect (i b : Nat) (ok : Bool) (run : Nat) (s : State) : Nat × State :=
  if !ok then (0, setDefect i b true s)
  else if run + 1 < 3 ∧ bit (member s i).defects b then (run + 1, s) else (0, setDefect i b false s)

/-- A LOCKED instance compares an overhead frame with the configuration (R321). (PRESUMED, log entry 86) -/
def ohCompare (i : Nat) (f : OhFrame) (s : State) : State :=
  let m := member s i
  let (a, s1) := matchDefect i 3 (f.group == cfgN s 0x2800 (i / 8) 1) m.gidOk s
  let (b, s2) := matchDefect i 4 (f.phy == cfgN s 0x2801 i 3 && f.map == fxMap s (i / 8)) m.pnOk s1
  setMember s2 i { member s2 i with gidOk := a, pnOk := b }

/-- What a CRC-good overhead frame of instance n says to a member (R317, R321, R322). (PRESUMED, log entry 86) -/
def ohContent (i n : Nat) (locked : Bool) (f : OhFrame) (s : State) : State :=
  let g := i / 8
  let s3 := setDefect i 6 f.rpf (if locked then ohCompare i f s else s)
  let x := fxGroup s3 g
  let base := 20 * fxInstances s g * ((fxMembers s g).findIdx (· == i)) + 20 * n
  let rxA := tput x.rxA (base + f.slot % 20) f.idA
  let rxB := tput x.rxB (base + f.slot % 20) f.idB
  let asked := if f.c = 0 then rxB else rxA
  let slots := 20 * fxInstances s g * (fxMembers s g).length
  setGroup s3 g { x with
    rxA := rxA, rxB := rxB, rxC := f.c % 2, caIn := f.ca
    ca := f.cr && (List.range slots).all fun j => (tfind asked j).isSome }

/-- FLEXE_OH_FRAME: an overhead frame position of instance n of member i (R317, R320, R321). -/
def execFlexeOhFrame (i n : Nat) (f : OhFrame) (s : State) : Host.Outcome State Fault Refusal :=
  let g := i / 8
  if ¬ fxOn s g ∨ fnStopped s (.flexe g) ∨ ¬ linkUp s (phyKey i) ∨ fxInstances s g ≤ n then .next s
  else
    let was := memberLocked s i
    let (l, d) := lockStep (ohLock s (8 * i + n)) f
    let s1 := setLock s (8 * i + n) l
    let s2 := match d with
      | some b => setDefect i b true s1
      | none => s1
    let s3 := if l.state = 4 ∧ !was then setMember s2 i { member s2 i with arrival := some f.arrival } else s2
    let s4 := if 2 ≤ l.state ∧ f.start ∧ f.crc then ohContent i n (l.state == 4) f s3 else s3
    .next (fxReview g (lockChanged i was s4))

/-- FLEXE_REALIGN: the skew of a group changed, or a pseudo-channel of its region is lost; arrivals are measured
anew (R326). -/
def execFlexeRealign (g : Nat) (arrivals : List (Nat × Nat)) (s : State) : Host.Outcome State Fault Refusal :=
  if ¬ fxOn s g ∨ fnStopped s (.flexe g) then .next s
  else
    let s1 := (arrivals.filter fun r => memberLocked s r.1 && r.1 / 8 == g).foldl (fun t r =>
      setMember t r.1 { member t r.1 with arrival := some r.2 }) s
    .next (deskew g true s1)

/-- A member leaves UP (Table 11-2, last row). -/
def phyLost (i : Nat) (s : State) : State :=
  let g := i / 8
  let was := (List.range (fxInstances s g)).all fun n => (ohLock s (8 * i + n)).state == 4
  let s1 := (List.range 4).foldl (fun t n => setLock t (8 * i + n) lockReset) s
  let s2 := setDefect i 0 true s1
  fxReview g (lockChanged i was s2)

/-- A member is UP again: defect LINK clears. (DEDUCED, log entry 85) -/
def phyGained (i : Nat) (s : State) : State := fxReview (i / 8) (setDefect i 0 false s)

/-! ### Calendars (11.2) -/

/-- The client IDs of fx.group[g].cal. -/
def calOf (s : State) (g : Nat) : List Nat :=
  let b := cfgB s (oa 0x2800 g 4)
  (List.range 640).map fun j => leNat (slice b (2 * j) 2)

/-- A commit or live write changes a group's calendar (R316): it goes into the calendar not in use, and CR follows.
(DESIGN CHOICE, log entry 87) -/
def calChange (g : Nat) (s : State) : State :=
  if ¬ fxOn s g then s
  else
    let x := fxGroup s g
    let c := calOf s g
    let y := if x.inUse = 0 then { x with calB := c } else { x with calA := c }
    setGroup s g { y with calState := 1, expired := false, crHold := if x.cr then 2 else 0 }

/-- FLEXE_CA_TIMEOUT: fx.group[g].ca_timeout has expired since CR was set (R316). -/
def execFlexeCaTimeout (g : Nat) (s : State) : Host.Outcome State Fault Refusal :=
  let x := fxGroup s g
  if x.calState = 1 ∧ x.cr ∧ x.crSince + cyc (cfgN s 0x2800 g 5) ≤ raw s then .next (setGroup s g { x with expired := true })
  else .next s

/-- The calendar part of a multiframe boundary: CR is set or cleared, or the calendar switches (R316). Answers
whether it switched. (DESIGN CHOICE, log entry 87) -/
def calBoundary (g : Nat) (s : State) : Bool × State :=
  let x := fxGroup s g
  if x.calState = 0 then (false, s)
  else if x.crHold = 2 then (false, setGroup s g { x with cr := false, crHold := 1 })
  else if !x.cr then
    (false, setGroup s g { x with cr := true, crHold := 0, crSince := raw s, caIn := false, expired := false })
  else if x.caIn || x.expired then
    let u := 1 - x.inUse
    (true, raise 0x0204 [g, u, if x.caIn then 1 else 2]
      (setGroup s g { x with inUse := u, calState := 0, cr := false, expired := false, caIn := false }))
  else (false, s)

/-- Slots of the receive calendar that name an unconfigured client ID are discarded and counted (R317).
(DESIGN CHOICE, log entry 87) -/
def unknownSlots (g : Nat) (s : State) : State :=
  let ids := (groupClients s g).map fun q => cfgN s 0x2802 q 1
  ((rxCal (fxGroup s g)).filter fun r => r.2 != 0 && !ids.contains r.2).foldl (fun t r =>
    raiseLimited 0x0205 g (fun n => [g, r.2, n]) (count 0x2800 g 0xA t)) s

/-- A current bin's counter k that reaches its non-zero threshold raises event 0x0209 once (R338). -/
def pmTca (e k : Nat) (day : Bool) (s : State) : State :=
  let v := ctrGet s (oa 0x2830 e (32 * b2n day + k))
  let lim := cfgN s 0x2824 k (b2n day)
  let x := pmEntity s e
  let key := 16 * b2n day + k
  if lim ≠ 0 ∧ lim ≤ v ∧ ¬ x.told.contains key then
    raise 0x0209 [e, k, b2n day, v] (setPm s e { x with told := x.told ++ [key] })
  else s

/-- Count idle blocks inserted and removed for a client (R318, Table 11-9). -/
def idleCount (q ins rem : Nat) (s : State) : State :=
  let s1 := countN 0x2802 q 6 rem (countN 0x2802 q 5 ins s)
  if cfgOn s 0x2820 0 0 then
    [(10, ins), (11, rem)].foldl (fun t r => [false, true].foldl (fun z day =>
      pmTca (512 + q) r.1 day (countN 0x2830 (512 + q) (32 * b2n day + r.1) r.2 z)) t) s1
  else s1

/-- FLEXE_MULTIFRAME: a multiframe boundary of a group (R316 to R318, R329, R330). bips: own BIP-8 values of the
window that ended, by entity; lost: frames that the shim held for a client whose slots change at a switch; idles:
blocks inserted and removed, by port. -/
def execFlexeMultiframe (g : Nat) (bips lost : List (Nat × Nat)) (idles : List (Nat × Nat × Nat)) (s : State) :
    Host.Outcome State Fault Refusal :=
  if ¬ fxOn s g ∨ fnStopped s (.flexe g) then .next s
  else
    let x := fxGroup s g
    let s1 := setGroup s g { x with mfSeq := x.mfSeq + 1 }
    let slots := fun (t : State) (q : Nat) => txSlots (fxGroup t g) (cfgN t 0x2802 q 1)
    let (switched, s2) := calBoundary g s1
    let mine := groupClients s g
    let s3 := if switched then
        (lost.filter fun r => mine.contains r.1 && slots s r.1 != slots s2 r.1).foldl (fun t r => stat r.1 0x26 r.2 t) s2
      else s2
    let s4 := unknownSlots g (fxReview g s3)
    let s5 := (idles.filter fun r => mine.contains r.1).foldl (fun t r => idleCount r.1 r.2.1 r.2.2 t) s4
    let y := fxGroup s5 g
    if y.seam = 1 then .next (seamHello g (setGroup s5 g { y with helloAge := y.helloAge + 1 }))
    else if y.seam = 2 then
      .next ((lockedMembers s5 g).foldl (fun t i =>
        let m := member t i
        setMember t i { m with reportAge := m.reportAge + 1, seamSent := seamReport t i bips }) s5)
    else .next s5

/-! ### Performance monitoring (11.7) -/

/-- Entities monitored: members of enabled groups and clients (R335). -/
def pmEntities (s : State) : List Nat :=
  (fxGroupsOn s).flatMap fun g => fxMembers s g ++ (groupClients s g).map (512 + ·)

/-- The group of an entity. -/
def pmGroup (s : State) (e : Nat) : Nat := if e < 512 then e / 8 else (clientGroup s (e - 512)).getD 0

/-- The availability decision of one end with one more second (second, ES, SES, BBE): whether it is unavailable, the
seconds not yet decided, and the seconds decided, each with its unavailability (R335). -/
def availStep (unav : Bool) (held : List (Nat × Nat × Nat × Nat)) (x : Nat × Nat × Nat × Nat) :
    Bool × List (Nat × Nat × Nat × Nat) × List (Bool × Nat × Nat × Nat × Nat) :=
  let all := held ++ [x]
  if (x.2.2.1 != 0) = unav then (unav, [], all.map fun y => (unav, y))
  else if all.length = 10 then (!unav, [], all.map fun y => (!unav, y)) else (unav, all, [])

/-- Seconds of a bin: 900 for a 15-minute bin, 86,400 for a 24-hour bin; its phase. -/
def binLen (day : Bool) : Nat := if day then 86400 else 900

/-- The start of the bin that holds a second (R336). -/
def binStart (s : State) (day : Bool) (t : Nat) : Nat :=
  let off := if day then cfgN s 0x2821 0 0 else 0
  let x := t + binLen day - off
  t - x % binLen day

/-- Add to PM counter k of an entity for a second, in its bins; ended is the second that the bins in progress hold. -/
def pmAdd (e k n second ended : Nat) (s : State) : State :=
  if n = 0 then s
  else [false, true].foldl (fun t day =>
    let cur := decide (binStart t day ended ≤ second)
    let t1 := countN 0x2830 e (16 * (2 * b2n day + b2n !cur) + k) n t
    if cur then pmTca e k day t1 else t1) s

/-- Add the decided seconds of one end, with k counting from base: 0 near, 5 far. (DESIGN CHOICE, log entry 89) -/
def pmDecided (e base ended : Nat) (l : List (Bool × Nat × Nat × Nat × Nat)) (s : State) : State :=
  l.foldl (fun t y =>
    let u := y.1
    let sec := y.2.1
    if u then pmAdd e (base + 3) 1 sec ended t
    else pmAdd e (base + 4) y.2.2.2.2 sec ended (pmAdd e (base + 2) y.2.2.2.1 sec ended (pmAdd e (base + 1) y.2.2.1 sec ended t))) s

/-- The second of one end: errored, severely errored, errored blocks that are not in an SES. -/
def secondOf (s : State) (t blocks : Nat) (defect : Bool) : Nat × Nat × Nat × Nat :=
  let ses := defect || decide (cfgN s 0x2822 0 0 ≤ blocks)
  (t, b2n (defect || blocks != 0), b2n ses, if ses then 0 else blocks)

/-- The marks of an entity's current bins: no_seam and suspect (Table 11-11). (DESIGN CHOICE, log entry 89) -/
def pmMarks (e : Nat) (s : State) : State :=
  let x := pmEntity s e
  ctrSet (ctrSet s (oa 0x2830 e 15) (2 * b2n x.noSeam.1 + b2n x.suspect.1)) (oa 0x2830 e 47)
    (2 * b2n x.noSeam.2 + b2n x.suspect.2)

/-- Roll a bin at its end: the current bin becomes the previous one (R336). (DESIGN CHOICE, log entry 89) -/
def pmRoll (e : Nat) (day : Bool) (s : State) : State :=
  let x := pmEntity s e
  let b := 32 * b2n day
  let a := fun (n : Nat) => oa 0x2830 e n
  let s1 := (List.range 13).foldl (fun t k => ctrSet (ctrSet t (a (b + 16 + k)) (ctrGet t (a (b + k)))) (a (b + k)) 0) s
  let mark := if day then 2 * b2n x.noSeam.2 + b2n x.suspect.2 else 2 * b2n x.noSeam.1 + b2n x.suspect.1
  let s2 := ctrSet (ctrSet s1 (a (b + 31)) mark) (a (b + 15)) 0
  setPm s2 e { x with
    told := x.told.filter fun k => decide (16 ≤ k) != day
    suspect := if day then (x.suspect.1, false) else (false, x.suspect.2)
    noSeam := if day then (x.noSeam.1, false) else (false, x.noSeam.2)
    ending := if day then (x.ending.1, true) else (true, x.ending.2) }

/-- The defects SD and SF of an entity for a second with n errored blocks (R332). (DESIGN CHOICE, log entry 89) -/
def degrade (e n : Nat) (s : State) : State :=
  let x := pmEntity s e
  let g := pmGroup s e
  let isSf := decide (cfgN s 0x2822 0 0 ≤ n)
  let isSd := isSf || decide (cfgN s 0x2810 g 6 ≤ n)
  let sd := if isSd then x.sd + 1 else 0
  let below := if isSd then 0 else x.belowSd + 1
  let belowF := if isSf then 0 else x.belowSf + 1
  let c := fxClient s (e - 512)
  let old := if e < 512 then (bit (member s e).defects 7, bit (member s e).defects 8) else (c.psd, c.psf)
  let new_ := (decide (10 ≤ sd) || (old.1 && decide (below < 10)), isSf || (old.2 && decide (belowF < 10)))
  let s1 := setPm s e { x with sd := min sd 10, belowSd := min below 10, belowSf := min belowF 10 }
  let s2 := if e < 512 then setDefect e 8 new_.2 (setDefect e 7 new_.1 s1)
    else setClient s1 (e - 512) { c with psd := new_.1, psf := new_.2 }
  let s3 := if old.1 = new_.1 then s2 else raise 0x0208 [e, 1, b2n new_.1] s2
  if old.2 = new_.2 then s3 else raise 0x0208 [e, 2, b2n new_.2] s3

/-- An entity's second ends (R332, R335, R336). ended: the second. -/
def pmSecondOf (ended : Nat) (stepped : Bool) (s : State) (e : Nat) : State :=
  let s1 := degrade e (pmEntity s e).blocks.1 s
  let x := pmEntity s1 e
  let g := pmGroup s1 e
  let now := entityDefects s1 e
  let clear := fun (y : PmEntity) => { y with bip := (0, 0), blocks := (0, 0), defect := now }
  if ¬ cfgOn s1 0x2820 0 0 then setPm s1 e { clear x with on := false, suspect := (true, true), held := ([], []) }
  else
    let seam := (fxGroup s1 g).seam == 2 && (fxGroup s1 g).version == 2
    let late := !x.on || stepped
    let near := availStep x.unavail.1 x.held.1 (secondOf s1 ended x.blocks.1 x.defect.1)
    let far := availStep x.unavail.2 x.held.2 (secondOf s1 ended x.blocks.2 x.defect.2.1)
    let y := { clear x with
      on := true, unavail := (near.1, far.1), held := (near.2.1, far.2.1)
      suspect := (x.suspect.1 || late, x.suspect.2 || late), noSeam := (x.noSeam.1 || !seam, x.noSeam.2 || !seam) }
    let s2 := pmDecided e 5 ended far.2.2 (pmDecided e 0 ended near.2.2 (setPm s1 e y))
    let s3 := pmAdd e 5 x.bip.2 ended ended (pmAdd e 0 x.bip.1 ended ended s2)
    let s4 := pmMarks e (if e < 512 then pmAdd e 12 (b2n x.defect.2.2) ended ended s3 else s3)
    [false, true].foldl (fun t day => if binStart t day (ended + 1) = ended + 1 then pmRoll e day t else t) s4

/-- PM_SECOND: a device second has ended (R332, R335). -/
def execPmSecond (s : State) : Host.Outcome State Fault Refusal :=
  let t := devSeconds s
  if t = s.fx.pmLast then .next s
  else
    let s1 := (pmEntities s).foldl (pmSecondOf (t - 1) s.time.stepped) s
    let s2 := (fxGroupsOn s1).foldl (fun z g => fxReview g z) s1
    let s3 := setFx s2 { s2.fx with pmLast := t }
    .next { s3 with time := { s3.time with stepped := false } }

/-- The history record of a closed 15-minute bin (Table 11-10). (DESIGN CHOICE, log entry 89) -/
def historyRecord (s : State) (e start : Nat) : Bytes :=
  let v := fun (n : Nat) => ctrGet s (oa 0x2830 e n)
  let counts := (List.range 13).foldl (fun a k => a + v (16 + k) % 2 ^ 32 * 2 ^ (416 - 32 * k)) 0
  leBytes 64 (start * 2 ^ 480 + v 31 % 8 * 2 ^ 448 + counts)

/-- PM_BIN_CLOSE: 10 s after its end the bins of an entity close; a 15-minute bin is written as a history record
(R336, R337). -/
def execPmBinClose (e : Nat) (s : State) : Host.Outcome State Fault Refusal :=
  let t := devSeconds s
  let valid := fun (n : Nat) (z : State) => ctrSet z (oa 0x2830 e n) (ctrGet z (oa 0x2830 e n) % 4 + 4)
  let x := pmEntity s e
  let due := fun (day : Bool) => decide (10 ≤ t - binStart s day t)
  let s1 := if x.ending.2 ∧ due true then setPm (valid 63 s) e { x with ending := (x.ending.1, false) } else s
  if x.ending.1 ∧ due false then
    let y := pmEntity s1 e
    let s2 := setPm (valid 31 s1) e { y with ending := (false, y.ending.2), closed := y.closed + 1 }
    let a := partAddr s2 4 (cfgN s2 0x2823 0 0 + (96 * e + x.closed % 96) * 64)
    .next (hbmWrite s2 a (historyRecord s2 e (binStart s2 false t - 900)))
  else .next s1

/-! ### Start, stop and objects -/

/-- A group stops: it is disabled or lasted (R316, R325, R329). -/
def groupDown (g : Nat) (s : State) : State :=
  let s1 := (List.range 64).foldl (fun t k => setLock t (64 * g + k) lockReset) s
  let x := fxGroup s1 g
  let s2 := setGroup s1 g { x with
    region := (0, 0), calState := 0, cr := false, crHold := 0, expired := false, rxA := [], rxB := [], ca := false
    seam := 0, version := 0, peer := none, helloAge := 0 }
  fxReview g s2

/-- A group starts on its configured calendar; its deskew region is allocated (R316, R325).
(DESIGN CHOICE, log entry 87) -/
def groupStart (g : Nat) (s : State) : State :=
  let s0 := (List.range 8).foldl (fun t m => setMember t (8 * g + m) memberReset) s
  if ¬ fxOn s g then groupDown g s0
  else
    let c := calOf s g
    let none_ := setGroup s0 g { groupReset with mfSeq := (fxGroup s g).mfSeq }
    let n := regionBytes s g
    let s1 := setGroup none_ g { fxGroup none_ g with
      calA := c, region := if n = 0 then (0, 0) else (regionPlace none_ n, n) }
    let s2 := (fxMembers s1 g).foldl (fun t i => setDefect i 0 (linkDefect t i) t) s1
    fxReview g s2

/-- Bytes of the deskew regions that all groups need (R313). -/
def deskewNeed (s : State) : Nat := (fxGroupsOn s).foldl (fun a g => a + regionBytes s g) 0

/-- Device-set objects of Table 11-11. -/
def shimObj (a : Nat) (s : State) : Option Bytes :=
  let n := oaInst a
  let x := fxGroup s n
  match oaIndex a, oaSub a with
  | 0x2800, 6 => some (leBytes 4 x.inUse)
  | 0x2800, 7 => some (leBytes 4 x.calState)
  | 0x2800, 8 => some (leBytes 4 (blocksNs ((fxMembers s n).foldl (fun d i => max d (member s i).delay) 0)))
  | 0x2800, 9 => some (leBytes 8 x.region.2)
  | 0x2801, 5 => some (leBytes 4 (link s (phyKey n)).state)
  | 0x2801, 6 => some (leBytes 2 (member s n).defects.toNat)
  | 0x2801, 7 => some (leBytes 4 (blocksNs (member s n).delay))
  | 0x2802, 2 => some (leBytes 1 (clientDefects s n))
  | 0x2802, 3 => some (leBytes 2 ((clientGroup s n).elim 0 fun g => (txSlots (fxGroup s g) (cfgN s 0x2802 n 1)).length))
  | 0x2802, 4 => some (leBytes 2 ((clientGroup s n).elim 0 fun g => (rxSlots (fxGroup s g) (cfgN s 0x2802 n 1)).length))
  | 0x2810, 2 => some (leBytes 4 x.seam)
  | 0x2810, 3 => some (leBytes 1 (if x.seam = 2 then x.version else 0))
  | 0x200C, _ => (clientGroup s n).map fun _ => leBytes 4 (if clientUp s n then 2 else 1)
  | _, _ => none

end Sys2Proof.Machine
end

