-- ==== Sys2Proof/Machine/LinkHooks.lean ====
section
/-! DEFINITION. What a change of a link means to the queues, the traffic manager and the FlexE shim. -/
namespace Sys2Proof.Machine

/-- A link left UP: a native port's queues are discarded (R244), a PHY's group loses the member (Table 11-2). -/
def linkLost (k : Nat) (s : State) : State := if k < 1024 then portDiscard k s else phyLost (k - phyKey 0) s

/-- A link came up: the shapers' buckets of a native port are full (R278); a PHY's defect LINK clears.
(DEDUCED, log entry 83) -/
def linkGained (k : Nat) (s : State) : State := if k < 1024 then bucketsFull k s else phyGained (k - phyKey 0) s

/-- Nothing waits on the port (R304). -/
def portQueuesEmpty (q : Nat) (s : State) : Bool := portIdle s q

/-- A queue of the port holds an eligible frame (R304). -/
def portHasEligible (q : Nat) (s : State) : Bool := (List.range 10).any fun sel => selEligible s q sel

end Sys2Proof.Machine
end

