-- ==== Sys2Proof/Machine/Links.lean ====
section
/-! DEFINITION. Link bring-up and loss, FEC degradation, LPI and the recovered clocks (10.2, 10.3, 10.4.4,
14.6). -/
namespace Sys2Proof.Machine

/-! ### Recovered clocks (R421) -/

/-- The state that recovered-clock output i has now: 0 OFF, 1 ACTIVE, 2 SQUELCHED. -/
def recclkNow (s : State) (i : Nat) : Nat :=
  if !cfgOn s 0x7040 i 0 then 0
  else
    let l := cfgN s 0x7040 i 1
    let up := match laneOwner s l with
      | some k => linkUp s k
      | none => false
    if up && !s.time.los.contains l && s.safe.outputsStarted then 1 else 2

/-- Recompute the recovered-clock outputs; each squelch and unsquelch raises event 0x0B06. -/
def recclkReview (s : State) : State :=
  [0, 1, 2, 3].foldl (fun t i =>
    let old := tget 0 t.time.recclk i
    let new_ := recclkNow t i
    if old = new_ then t
    else
      let t1 : State := { t with time := { t.time with recclk := tset 0 t.time.recclk i new_ } }
      if new_ = 0 ∨ (old = 0 ∧ new_ = 1) then t1 else raise 0x0B06 [i, cfgN t 0x7040 i 1, b2n (new_ == 2)] t1) s

/-! ### Bring-up (R294, R295) -/

/-- Begin an attempt. -/
def linkAttempt (k : Nat) (s : State) : State :=
  setLink s k { link s k with state := 1, attempt := raw s, lpi := 0 }

/-- LPI of both directions ends with the link: the time spent in it counts (Table 10-6). (DEDUCED, log entry 82) -/
def lpiEnds (k : Nat) (s : State) : State :=
  let l := link s k
  let s1 := if l.lpi = 1 ∧ k < 1024 then stat k 0x32 ((raw s - l.lpiSince) / 800) s else s
  if l.rxLpi ∧ k < 1024 then stat k 0x34 ((raw s - l.rxLpiSince) / 800) s1 else s1

/-- The link leaves UP or REMOTE_FAULT for a state in which it is down. -/
def linkDown (k cause next : Nat) (s : State) : State :=
  let l := link s k
  let s1 := setLink (lpiEnds k s) k { l with state := next, lastDown := cause, lpi := 0, rxLpi := false }
  let s2 := if l.state = 2 ∧ k < 1024 then stat k 0x44 1 s1 else s1
  let ps := [linkName k, cause]
  let s3 := if cause = 5 ∨ cause = 7 then raise 0x0101 ps s2 else detect 14 0x0101 ps s2
  recclkReview (linkLost k s3)

/-- BRINGUP_SUCCESS: every lane of a link has trained and the PCS has locked within 500 ms. Under
auto-negotiation the partner's modes, FEC request and EEE ability resolve the link (R293, R294). -/
def execBringupSuccess (k partner : Nat) (partnerFec partnerEee : Bool) (s : State) : Host.Outcome State Fault Refusal :=
  let l := link s k
  if l.state ≠ 1 ∨ s.safe.safeStop ∨ l.attempt + cyc 500000000 < raw s then .next s
  else
    let an := decide (linkMedium s k = 0)
    let mode := if an ∧ k < 1024 then resolveMode (advertised s k) partner else some (linkMode s k)
    match mode with
    | none => .next s
    | some m =>
      let f := resolveFec s k m (an && partnerFec)
      let ms := (raw s - l.attempt) / 800000
      let s1 := setLink s k { l with
        state := 2, upSince := raw s, fails := 0, resolved := m, fec := f, localFault := false,
        eee := an && partnerEee, lastTx := raw s }
      .next (recclkReview (linkGained k (raise 0x0102 [linkName k, m, f, ms] s1)))

/-- BRINGUP_TIMEOUT: an attempt has not succeeded after 500 ms; lane and stage name the failure (R294). -/
def execBringupTimeout (k lane stage : Nat) (s : State) : Host.Outcome State Fault Refusal :=
  let l := link s k
  if l.state = 1 ∧ l.attempt + cyc 500000000 ≤ raw s then
    .next (raise 0x0103 [linkName k, lane, stage, l.wait]
      (setLink s k { l with state := 4, timer := raw s, fails := l.fails + 1 }))
  else .next s

/-- RETRY_TIMER: the FAIL_WAIT timer expires; w doubles up to 30 s (R295). -/
def execRetryTimer (k : Nat) (s : State) : Host.Outcome State Fault Refusal :=
  let l := link s k
  if l.state = 4 ∧ l.timer + l.wait * cycSecond ≤ raw s then
    .next (linkAttempt k (setLink s k { l with wait := min (2 * l.wait) 30 }))
  else .next s

/-- UP_STABLE: 30 s in UP return w to 1 s (R295). -/
def execUpStable (k : Nat) (s : State) : Host.Outcome State Fault Refusal :=
  let l := link s k
  if l.state = 2 ∧ l.upSince + 30 * cycSecond ≤ raw s then .next (setLink s k { l with wait := 1 }) else .next s

/-- A local fault with a cause: from UP and from REMOTE_FAULT a new attempt begins at once (Table 10-3).
(DEDUCED, log entry 83) -/
def localFault (k cause : Nat) (s : State) : State :=
  let l := link s k
  if l.state = 2 then
    let s1 := linkDown k cause 1 s
    linkAttempt k (setLink s1 k { link s1 k with localFault := true })
  else if l.state = 3 then linkAttempt k (setLink s k { l with localFault := true })
  else setLink s k { l with localFault := true }

/-- LOCAL_FAULT: cause 1 loss of signal, 2 lock lost, 3 hi_ber, 4 local fault received, 6 FEC degraded; los
lists the lanes that have lost their signal (R296, R421). -/
def execLocalFault (k cause : Nat) (los : List Nat) (s : State) : Host.Outcome State Fault Refusal :=
  if cause ∉ [1, 2, 3, 4, 6] then .next s
  else .next (recclkReview (localFault k cause { s with time := { s.time with los := los } }))

/-- REMOTE_FAULT: a remote fault is received in UP (Table 10-3). -/
def execRemoteFault (k : Nat) (s : State) : Host.Outcome State Fault Refusal :=
  if (link s k).state = 2 then .next (linkDown k 5 3 s) else .next s

/-- REMOTE_FAULT_CLEAR: the remote fault has been clear for ns nanoseconds; 10 ms return the link to UP.
The event's bring-up time is free: no attempt was made. (DESIGN CHOICE, log entry 24) -/
def execRemoteFaultClear (k ns : Nat) (s : State) : Host.Outcome State Fault Refusal :=
  let l := link s k
  if l.state = 3 ∧ 10000000 ≤ ns then
    let (ms, s1) := fresh 32 s
    .next (recclkReview (linkGained k (raise 0x0102 [linkName k, l.resolved, l.fec, ms.toNat]
      (setLink s1 k { l with state := 2, upSince := raw s }))))
  else .next s

/-- Disable a link: enable set to 0, or a commit lasts the port (Table 10-3). -/
def linkDisable (k : Nat) (s : State) : State :=
  let l := link s k
  let s1 := if l.state = 2 ∨ l.state = 3 then linkDown k 7 0 s else setLink s k { l with state := 0 }
  setLink s1 k { link s1 k with state := 0, wait := 1 }

/-- Every SerDes quad of a link's lanes is awake (R457). -/
def quadsAwake (s : State) (k : Nat) : Bool :=
  (linkLanes s k (linkMode s k)).all fun l => tget 0 s.safe.domains (29 + l / 4) == 0

/-- Start a link that the active pattern has enabled (Table 10-3), once its quads are awake (R457).
(DEDUCED, log entry 83) -/
def linkStart (k : Nat) (s : State) : State :=
  if (link s k).state = 0 ∧ linkOn s k ∧ quadsAwake s k ∧ s.safe.outputsStarted ∧ !s.safe.safeStop then linkAttempt k s else s

/-- What a new value of px.port[q].enable does (Table 10-3). -/
def portEnable (q : Nat) (on : Bool) (s : State) : State := if on then linkStart q s else linkDisable q s

/-- PORT_ENABLE_WRITE: a live write of px.port[q].enable (R295), refused during a commit (R61). -/
def execPortEnableWrite (q : Nat) (on : Bool) (s : State) : Host.Outcome State Fault Refusal :=
  if 1024 ≤ q ∨ s.ctl.commit.isSome then .next s
  else .next (portEnable q on (liveSet (oa 0x2005 q 0) (leBytes 1 (b2n on)) s))

/-! ### FEC (R299, R306, R309) -/

/-- FEC_DEGRADE_WINDOW: the 1 ms window of a link ends with these counts: corrected codewords,
uncorrectable codewords, errored 64B/66B blocks of modes without FEC, and corrected symbols by lane. -/
def execFecDegradeWindow (k corrected bad blocks : Nat) (syms : List (Nat × Nat)) (s : State) :
    Host.Outcome State Fault Refusal :=
  let l := link s k
  let total := syms.foldl (fun n p => n + p.2) 0
  let s1 := if k < 1024 then stat k 0x43 blocks (stat k 0x42 total (stat k 0x41 bad (stat k 0x40 corrected s))) else s
  let s2 := syms.foldl (fun t p => ctrAdd (oa 0x2010 p.1 4) p.2 t) s1
  let ws := (l.windows.filter fun w => decide (raw s < w.1 + cycSecond)) ++ [(raw s, bad, total)]
  let s3 := setLink s2 k { link s2 k with windows := ws }
  if k < 1024 ∧ cfgN s 0x200B k 0 ≤ bad then
    let worst := ws.foldl (fun m w => max m w.2.1) 0
    let sum := ws.foldl (fun n w => n + w.2.2) 0
    let s4 := raiseLimited 0x0104 k (fun _ => [k, worst, sum]) s3
    .next (if cfgOn s 0x200B k 1 then localFault k 6 s4 else s4)
  else .next s3

/-! ### Low-power idle (R304, R305) -/

/-- The port may use LPI (R304). (DESIGN CHOICE, log entry 24; DEDUCED, log entry 82) -/
def lpiAllowed (s : State) (q : Nat) : Bool :=
  let l := link s q
  decide (q < 1024) && modeLpi l.resolved && linkMedium s q != 2 && cfgOn s 0x200A q 0 &&
  (linkMedium s q != 0 || l.eee)

/-- LPI_ENTER: nothing sent for lpi.idle and every queue empty (R304). -/
def execLpiEnter (q : Nat) (s : State) : Host.Outcome State Fault Refusal :=
  let l := link s q
  if linkUp s q ∧ lpiAllowed s q ∧ l.lpi ≠ 1 ∧ l.lastTx + cyc (cfgN s 0x200A q 1) ≤ raw s ∧ portQueuesEmpty q s then
    .next (stat q 0x31 1 (setLink s q { l with lpi := 1, lpiSince := raw s }))
  else .next s

/-- The transmitter in LPI begins to wake. -/
def lpiWake (q : Nat) (s : State) : State :=
  let l := link s q
  stat q 0x32 ((raw s - l.lpiSince) / 800) (setLink s q { l with lpi := 2, lpiSince := raw s })

/-- LPI_WAKE: a frame that becomes eligible wakes the transmitter (R304). -/
def execLpiWake (q : Nat) (s : State) : Host.Outcome State Fault Refusal :=
  if (link s q).lpi = 1 ∧ portHasEligible q s then .next (lpiWake q s) else .next s

/-- What a new value of px.port[q].lpi.enable does: a port in LPI wakes when it may use it no longer (R304).
(DEDUCED, log entry 82) -/
def lpiEnable (q : Nat) (on : Bool) (s : State) : State := if (link s q).lpi = 1 ∧ !on then lpiWake q s else s

/-- RX_LPI: the partner enters or leaves LPI (R304, Table 10-6). (DEDUCED, log entry 82) -/
def execRxLpi (q : Nat) (enter : Bool) (s : State) : Host.Outcome State Fault Refusal :=
  let l := link s q
  if l.rxLpi = enter ∨ 1024 ≤ q then .next s
  else
    let s1 := setLink s q { l with rxLpi := enter, rxLpiSince := raw s }
    .next (if enter then stat q 0x33 1 s1 else stat q 0x34 ((raw s - l.rxLpiSince) / 800) s1)

end Sys2Proof.Machine
end

