-- ==== Sys2Proof/Machine/Pipeline.lean ====
section
/-! DEFINITION. The packet path outside the flow engine: reception, parsing and rule stages, retirement,
recirculation and transmission (Table 1-3). -/
namespace Sys2Proof.Machine

/-! ### Reception (R239, R300 to R302) -/

/-- A frame's receive timestamp: the counter less the port's delay (R411). -/
def rxStamp (s : State) (q : Nat) : BitVec 48 := stampNow s - BitVec.ofInt 48 (psFrac (cfgI s 0x7010 q 0))

/-- A transmit timestamp: the counter plus the port's delay (R411). -/
def txStamp (s : State) (q : Nat) : BitVec 48 := stampNow s + BitVec.ofInt 48 (psFrac (cfgI s 0x7010 q 1))

/-- The MAC accepts a frame into a half (R239). -/
def halfAccepts (s : State) (h : Nat) : Bool :=
  decide (64 ≤ halfFree s h) &&
    (decide (halfPending s h < cfgN s 0x5000 0 0 / 2) || decide (sharedUsed s < sharedSize s))

/-- The packet that a frame on port q becomes, before its first cell is charged. -/
def newPacket (s : State) (q : Nat) (bytes : Bytes) (symbolErr : Bool) : Packet :=
  let n := bytes.length
  let maxRx := cfgN s 0x2006 q 0
  let frame := bytes.take (n - 4)
  { noPacket with
    pipe := q / 64, port := q, data := if maxRx < n then bytes.take maxRx else frame, rxLen := n,
    fcsOk := leNat (bytes.drop (n - 4)) == crc32 frame && !symbolErr, symbolErr := symbolErr, half := q / 512,
    cells := frameCells (min n maxRx), place := 0, ended := false, ts := rxStamp s q,
    born := s.time.raw.setWidth 32, router := routerMac s q frame }

/-- FRAME_RECEIVE: the first byte of a frame reaches the MAC of port q; bytes is the whole frame as it will have
come, FCS included, and symbolErr says whether the PCS meets errors in it. The half judges its first byte (R239); a runt, a
MAC control frame and one that finds the header FIFO full are dropped whole too. -/
def execFrameReceive (q : Nat) (bytes : Bytes) (symbolErr : Bool) (s : State) : Host.Outcome State Fault Refusal :=
  if 1024 ≤ q ∨ !portUp s q then .next s
  else
    let pid := s.path.nextPid
    let p := newPacket s q bytes symbolErr
    let s1 := setPath s { s.path with nextPid := pid + 1 }
    let gone := fun (t : State) => Host.Outcome.next (setPkt pid { p with place := 3, cells := 0 } t)
    let s2 := if isMacControl bytes then stat q 0x0C 1 s1 else s1
    if !halfAccepts s p.half then gone (count 0x5015 q 0 s2)
    else if bytes.length < 64 ∨ isMacControl bytes then gone s2
    else if hdrFull s1 p.pipe then gone (ingressOverrun p.pipe s1)
    else .next (setHdr (chargePending 1 pid (setPkt pid p s1)) p.pipe (hdrFifo s1 p.pipe ++ [pid]))

/-! ### Parsing (R76, R92, R95) -/

/-- Parse a packet and run its stages: parse result, actions, zone and flow key. (DESIGN CHOICE, log entry 30) -/
def clickerRun (s : State) (b : Banked) (p : Packet) : Parse × List StageAct × Nat × Option (BitVec 384) :=
  let g := groupOf p.pipe
  let zone := if p.pass = 0 then cfgN s 0x3002 p.port 0 else p.zone
  let w := parseFrame s p.data p.router p.ring.isSome (decide (0 < p.pass))
  let a0 := stageRun b g 0 p.port zone p.metadata.toNat p.pass w p.data
  let w1 := if aKeyLevel a0.word then settleKey w true else w
  let zone1 := if aSetZone a0.word then aZone a0.word else zone
  let m1 := if aSetMeta a0.word then aMeta a0.word else p.metadata
  let rest := stagesRun b g p.port zone1 p.pass w1 p.data [1, 2, 3] m1 (aFinal a0.word)
  (w1, a0 :: rest, zone1, if bit w1.word fMalformed then none else w1.keyPair.map fun k => pairKey k zone1)

/-- The action of stage 0. -/
def stageZero (l : List StageAct) : BitVec 128 := match l with
  | [] => 0
  | a :: _ => a.word

/-- Stage 0 drops the packet or traps it: no flow request (R95). -/
def zeroSuppresses (w : BitVec 128) : Bool := aVerdict w == 2 || aTrap w

/-- The frame ended, or will end, MALFORMED or dropped by stage 0 (R118). (DEDUCED, log entry 36) -/
def learnBarred (s : State) (p : Packet) : Bool :=
  let r := match p.parse with
    | some w => (w, p.acts)
    | none => let x := clickerRun s (bankOf s s.ctl.epoch) p; (x.1, x.2.1)
  bit r.1.word fMalformed || aVerdict (stageZero r.2) == 2

/-- Lookups that wait at a slice, and the queue with one more. -/
def sliceReqs (s : State) (n : Nat) : List Nat := tget [] s.flow.reqs n
def setReqs (s : State) (n : Nat) (l : List Nat) : State := { s with flow := { s.flow with reqs := tset [] s.flow.reqs n l } }

/-- A packet's flow request: sent to its home slice, or counted why it is not (R84, R86, R95). -/
def flowRequest (pid : Nat) (s : State) : State :=
  let p := pkt s pid
  let w0 := stageZero p.acts
  let pw := (p.parse.map (·.word)).getD 0
  if !aLookup w0 || zeroSuppresses w0 || bit pw fMalformed then s
  else if bit pw fFrag then count 0x3030 p.pipe 3 s
  else match p.key with
    | none => count 0x3030 p.pipe 2 s
    | some k =>
      let n := homeSlice s k
      let s1 := setPath s { s.path with turns := s.path.turns + 1 }
      setReqs (modPkt pid (fun x => { x with flow := 1, turn := s.path.turns + 1 }) s1) n (sliceReqs s1 n ++ [pid])

/-- The header served next by a Clicker: round-robin between the FIFO and the recirculation queue (R22).
Answer: the packet, and the state without it in its queue. (DESIGN CHOICE, log entry 32) -/
def nextHeader (s : State) (p : Nat) : Option (Nat × State) :=
  let turn := fun (k : Nat) (t : State) => setPath t { t.path with hdrTurn := tset 0 t.path.hdrTurn p k }
  match hdrFifo s p, reHdr s p with
  | [], [] => none
  | a :: r, [] => some (a, turn 0 (setHdr s p r))
  | [], b :: r => some (b, turn 1 (setReHdr s p r))
  | a :: r, b :: t => if tget 0 s.path.hdrTurn p = 0 then some (b, turn 1 (setReHdr s p t)) else some (a, turn 0 (setHdr s p r))

/-- CLICKER_PARSE: the Clicker of pipeline p takes its next header (steps 3 and 4 of Table 1-3). In its stop, or in
that of its group's tables, it takes none (Table 2-12). -/
def execClickerParse (p : Nat) (s : State) : Host.Outcome State Fault Refusal :=
  if fnStopped s (.pipeline p) || fnStopped s (.tables (groupOf p)) then .next s
  else match nextHeader s p with
    | none => .next s
    | some (pid, s1) =>
      if isExpired s1 pid then .next (dropPkt pid s1)
      else
        let s2 := pinEpoch pid s1
        let r := clickerRun s2 (pktBank s2 pid) (pkt s2 pid)
        let s3 := modPkt pid (fun x => { x with parse := some r.1, acts := r.2.1, zone := r.2.2.1, key := r.2.2.2 }) s2
        let s4 := if bit r.1.word fTrunc then count 0x3030 p 1 s3 else s3
        let s5 := flowRequest pid s4
        .next (setRetire s5 p (retireQ s5 p ++ [pid]))

/-! ### Retirement (R18 to R20) -/

/-- CLICKER_RETIRE: the packet at the head of pipeline p's retire stage leaves it once its flow answer and its
colour have come: held on its chain, or through step 6. It waits for an earlier frame of its flow that another pipeline
has still to retire (R31). -/
def execClickerRetire (p : Nat) (s : State) : Host.Outcome State Fault Refusal :=
  match retireQ s p with
  | [] => .next s
  | pid :: rest =>
    let s1 := setRetire s p rest
    let x := pkt s pid
    if isExpired s pid then .next (unpark (dropPkt pid s1))
    else if x.flow = 1 ∨ x.colour = 1 then .next s
    else if x.flow = 3 then .next s1
    else match ruleMeter x with
      | some m =>
        if bit ((x.parse.map (·.word)).getD 0) fMalformed then .next (unpark (stepSix pid s1)) else .next (meterAsk pid m s)
      | none => if retireWaits s p then .next s else .next (unpark (stepSix pid s1))

/-- RECIRCULATE: the oldest edited packet that waits at pipeline p's recirculation path re-enters step 3, or is
dropped: at its fifth pass, or when the path's queue is full (R21, R22, R101). -/
def execRecirculate (p : Nat) (full : Bool) (s : State) : Host.Outcome State Fault Refusal :=
  match recircQ s p with
  | [] => .next s
  | pid :: rest =>
    let x := pkt s pid
    let s1 := setRecirc s p rest
    if !x.ended then .next s
    else if 3 ≤ x.pass ∨ full then
      .next (dropPkt pid (raiseLimited 0x0303 p (fun n => [p, n]) (count 0x3030 p 5 s1)))
    else
      let s2 := modPkt pid (fun y => { y with
        pass := y.pass + 1, key := none, acts := [], parse := none, flow := 0, answer := none, colour := 0, meter := 0,
        lb := none, release := none, fall := none, failRing := 0, turn := 0 }) s1
      .next (setReHdr s2 p (reHdr s2 p ++ [pid]))

/-! ### The end of a frame (R118, R242, R261) -/

/-- Offer a frame's source to its group's learning (R118). (DEDUCED, log entry 36) -/
def offerLearn (pid : Nat) (s : State) : State :=
  let p := pkt s pid
  let mac := beNat (slice p.data 6 6)
  let g := groupOf p.pipe
  if !cfgOn s 0x3812 p.port 0 || mac == 0 || bit (p.data.getD 6 0) 0 || p.pass != 0 || p.ring.isSome || learnBarred s p then s
  else
    let q := tget [] s.fwd.learnQ g
    if 4096 ≤ q.length then count 0x3816 g 7 s
    else setFwd s { s.fwd with learnQ := tset [] s.fwd.learnQ g (q ++ [{ vid := bridgeVid s p, mac := mac, port := p.port, pid := pid }]) }

/-- A frame's tail is lost (R242). -/
def tailLost (pid : Nat) (s : State) : State :=
  let h := (pkt s pid).half
  raiseLimited 0x0701 h (fun k => [h, k]) (count 0x5010 h 3 (modPkt pid (fun x => { x with err := 3 }) s))

/-- Write the cells of a frame that are still to be written; without a free cell its tail is lost (R242). Those of a frame
that is leaving already pass through one free cell each. (DESIGN CHOICE, log entry 41) -/
def writeTail (pid : Nat) (s : State) : State :=
  let p := pkt s pid
  let rem := p.cells - p.written
  let n := min rem (halfFree s p.half)
  if p.place = 3 then
    if inFlight s pid ∧ 2 ≤ p.cells ∧ halfFree s p.half = 0 then tailLost pid s else s
  else
    let s1 := if p.place = 0 then chargePending n pid s else setPkt pid { p with written := p.written + n } s
    if n = rem then s1 else tailLost pid s1

/-- FRAME_END: the last byte of frame pid has come: its cells are complete, its FCS and length are judged, and
it is offered for learning. -/
def execFrameEnd (pid : Nat) (s : State) : Host.Outcome State Fault Refusal :=
  match tfind s.path.pkts pid with
  | none => .next s
  | some p =>
    if p.ended then .next s
    else
      let maxRx := cfgN s 0x2006 p.port 0
      let bad := !p.fcsOk || decide (p.rxLen < 64) || decide (maxRx < p.rxLen)
      let s1 := rxStats (stat p.port) p.data p.rxLen maxRx p.fcsOk p.symbolErr s
      let s2 := bwCredit p.port p.rxLen 0 s1
      let s3 := writeTail pid s2
      let taken := p.cells ≠ 0
      let s4 := modPkt pid (fun x => { x with ended := true, err := if bad && x.err == 0 then 1 else x.err }) s3
      let s5 := if taken ∧ !bad then offerLearn pid s4 else s4
      .next (settle pid s5)

/-! ### Transmission (R261, R262, R411 to R415) -/

/-- A PTP message that the transmit MAC recognises (R412): its offset, the offset of its UDP header if any, and
whether it is carried over IPv6. -/
def ptpFind (f : Bytes) : Option (Nat × Option Nat × Bool) :=
  let rd := fun (o n : Nat) => beNat (padTo n (slice f o n))
  let tagAt := fun (o : Nat) => rd o 2 == 0x8100 || rd o 2 == 0x88A8
  let o := if tagAt 12 && tagAt 16 then 20 else if tagAt 12 then 16 else 12
  let ip := o + 2
  if rd o 2 = 0x88F7 then some (ip, none, false)
  else if rd o 2 = 0x0800 ∧ rd ip 1 = 0x45 ∧ rd (ip + 9) 1 = 17 ∧ rd (ip + 22) 2 = 319 then some (ip + 28, some (ip + 20), false)
  else if rd o 2 = 0x86DD ∧ rd (ip + 6) 1 = 17 ∧ rd (ip + 42) 2 = 319 then some (ip + 48, some (ip + 40), true)
  else none

/-- messageType, sequenceId, twoStepFlag and messageLength of a PTP message at o. -/
def ptpType (f : Bytes) (o : Nat) : Nat := (f.getD o 0).toNat % 16
def ptpSeq (f : Bytes) (o : Nat) : Nat := beNat (slice f (o + 30) 2)
def ptpTwoStep (f : Bytes) (o : Nat) : Bool := bit (f.getD (o + 6) 0) 1
def ptpLen (f : Bytes) (o : Nat) : Nat := beNat (slice f (o + 2) 2)

/-- An event message: types 0 to 3. (DESIGN CHOICE, log entry 42) -/
def ptpEvent (f : Bytes) (o : Nat) : Bool := decide (ptpType f o < 4)

/-- The two bytes that the host appended after the PTP message within the UDP payload (R414).
(DESIGN CHOICE, log entry 42) -/
def ptpSpare (f : Bytes) (o u : Nat) : Option Nat :=
  let e := o + ptpLen f o
  if e + 2 ≤ u + beNat (slice f (u + 4) 2) ∧ e + 2 ≤ f.length then some e else none

/-- A changed PTP message with its checksum handled by encapsulation (R414); none: the bytes that IPv6 needs are
missing. -/
def ptpCsum (old new : Bytes) (o : Nat) (udp : Option Nat) (v6 : Bool) : Option Bytes :=
  match udp with
  | none => some new
  | some u =>
    if !v6 then some (patch new (u + 6) [0, 0])
    else match ptpSpare old o u with
      | none => none
      | some e =>
        let body := fun (f : Bytes) => slice f u (e + 2 - u)
        let zero := patch new e [0, 0]
        let diff := onesFold (onesFold (sum16 (body old)) + (65535 - onesFold (sum16 (body zero))))
        let w := if (e - u) % 2 = 0 then diff else diff % 256 * 256 + diff / 256
        some (patch new e (beBytes 2 w))

/-- The event of a two-step frame (R413). -/
def ptpStamped (q : Nat) (t : TxFrame) (o : Nat) (ts : BitVec 48) (s : State) : State :=
  let ns := ts.toNat / 65536
  let d := todAt s ns
  raise 0x0B01 ([q, t.ring.getD 0, ptpType t.frame o, ptpSeq t.frame o] ++ words32 2 d.1 ++ [d.2, ns, ts.toNat % 65536])
    (count 0x7012 0 0 s)

/-- The ptp field of a transmit descriptor (R412 to R414): the frame as sent. -/
def ptpStamp (q : Nat) (t : TxFrame) (s : State) : Bytes × State :=
  if t.ptp = 0 ∨ 2 < t.ptp then (t.frame, s)
  else match (ptpFind t.frame).filter fun x => ptpEvent t.frame x.1 with
    | none => (t.frame, count 0x7012 0 2 s)
    | some (o, udp, v6) =>
      let ts := txStamp s q
      if t.ptp = 1 ∨ ptpType t.frame o ≠ 0 then (t.frame, ptpStamped q t o ts s)
      else if !s.time.todValid then (t.frame, ptpStamped q t o ts (count 0x7012 0 4 s))
      else
        let d := todAt s (ts.toNat / 65536)
        match ptpCsum t.frame (patch t.frame (o + 34) (beBytes 6 d.1 ++ beBytes 4 d.2)) o udp v6 with
        | none => (t.frame, ptpStamped q t o ts (count 0x7012 0 2 s))
        | some f => (f, count 0x7012 0 1 s)

/-- The residence time that TC_CORR asked for (R415): the frame as sent. (DESIGN CHOICE, log entry 42) -/
def ptpCorrect (q : Nat) (t : TxFrame) (f : Bytes) (s : State) : Bytes × State :=
  match t.corr with
  | none => (f, s)
  | some c =>
    let o := c - 8
    let sync := ptpType f o == 0
    if sync && ptpTwoStep f o then (f, count 0x7012 0 3 s)
    else
      let res := (txStamp s q - t.ts).toNat
      let link := if cfgOn s 0x7011 0 0 && sync then cfgN s 0x7010 t.inPort 2 * 65536 else 0
      let new := patch f c (beBytes 8 ((beNat (slice f c 8) + res + link) % 2 ^ 64))
      let enc := (ptpFind f).filter fun x => x.1 == o
      match enc with
      | none => (new, count 0x7012 0 5 s)
      | some (_, udp, v6) => match ptpCsum f new o udp v6 with
        | none => (f, count 0x7012 0 2 s)
        | some g => (g, count 0x7012 0 5 s)

/-- A frame leaves port q with its FCS (R17, R306). (DESIGN CHOICE, log entry 43) -/
def sendFrame (q : Nat) (f : Bytes) (fcs : Nat) (s : State) : State :=
  let s1 := txStats (stat q) f (f.length + 4) s
  let s2 := bwCredit q 0 (f.length + 4) s1
  let s3 := setPath s2 { s2.path with sent := tput s2.path.sent q (f ++ leBytes 4 fcs) }
  if q < 1024 then setLink s3 q { link s3 q with lastTx := raw s3 } else s3

/-- A frame whose first byte has left ends stomped at the byte reached (R261). (DESIGN CHOICE, log entry 43) -/
def stompFrame (q reached : Nat) (t : TxFrame) (s : State) : State :=
  let f := padTo (max 60 (t.frame.take reached).length) (t.frame.take reached)
  stat q 0x26 1 (sendFrame q f (crc32 f ^^^ 0xFFFFFFFF) (count 0x5014 q 6 s))

/-- A frame whose first byte has left when the link goes down: it counts as sent with the bytes reached (R306).
(DESIGN CHOICE, log entry 43) -/
def sentPart (q reached : Nat) (t : TxFrame) (s : State) : State :=
  let f := padTo (max 64 (t.frame.take reached).length) (t.frame.take reached)
  bwCredit q 0 f.length (txStats (stat q) f f.length s)

/-- The rest of the frames at an egress MAC, with the head's packet settled. (DESIGN CHOICE, log entry 43) -/
def txDone (q pid : Nat) (rest : List TxFrame) (s : State) : State :=
  settle pid (setPath s { s.path with tx := tset [] s.path.tx q rest })

/-- The head frame of port q ends errored: stomped at the byte reached when its first byte has left, else dropped and
counted for its queue (R261). -/
def txErrored (q reached : Nat) (t : TxFrame) (rest : List TxFrame) (s : State) : State :=
  txDone q t.pid rest (if t.started then stompFrame q reached t s
    else queueDrop q t.sel (if (pkt s t.pid).err = 2 then 8 else 7) s)

/-- FRAME_TRANSMIT: the egress MAC of port q sends its head frame. A frame whose last byte has not come begins to
leave and waits, or underruns at byte reached; an errored one is dropped before its first byte, and stomped at byte
reached after it, as is one of which a cell of a bank reads uncorrectable. With the link down the
frame is lost; one whose first byte had left counts as sent. -/
def execFrameTransmit (q reached : Nat) (cut : TxCut) (s : State) : Host.Outcome State Fault Refusal :=
  match tget [] s.path.tx q with
  | [] => .next s
  | t :: rest =>
    let p := pkt s t.pid
    let ended := p.ended
    if !portUp s q then .next (txDone q t.pid rest (if t.started then sentPart q reached t s else s))
    else if let .badCell bank := cut then
      let s1 := detectLimited 2 0x0709 q (fun n => [p.half, bank, q, n]) (modPkt t.pid (fun x => { x with err := 2 }) s)
      .next (txErrored q reached t rest s1)
    else if !ended && cut ≠ .underrun then
      .next (setPath s { s.path with tx := tset [] s.path.tx q ({ t with started := true } :: rest) })
    else if !ended then
      .next (txDone q t.pid rest (count 0x5014 q 12 (stompFrame q reached t (modPkt t.pid (fun x => { x with err := 3 }) s))))
    else if p.err ≠ 0 then .next (txErrored q reached t rest s)
    else
      let r := ptpStamp q t s
      let c := ptpCorrect q t r.1 r.2
      .next (txDone q t.pid rest (sendFrame q c.1 (crc32 c.1) c.2))

end Sys2Proof.Machine
end

