-- ==== Sys2Proof/Machine/Items.lean ====
section
/-! DEFINITION. Task items: the routine catalogue, ready classes, domains and the admission of items (7.5, 7.6). -/
namespace Sys2Proof.Machine

/-- Replace the awl part of the state. -/
def setAw (s : State) (c : Cluster) : State := { s with aw := c }

/-- Class, domain basis and mode of the routines of Table 7-5; other numbers: class of a setup, no domain.
(DESIGN CHOICE, log entry 71) -/
def routineShape (n : Nat) : Nat × Nat × Nat :=
  [(1, 0, 0), (1, 2, 2), (1, 2, 2), (1, 2, 2), (1, 2, 2), (1, 0, 0), (1, 4, 1), (2, 4, 1), (4, 0, 0), (5, 4, 1), (3, 5, 1),
   (3, 5, 1), (6, 0, 0), (6, 0, 0), (7, 2, 2), (0, 0, 0), (0, 0, 0)].getD n (1, 0, 0)

/-! ### Observables (Table 7-10) -/

def readyItems (s : State) (k : Nat) : List Item := tget [] s.aw.ready k
def frontItems (s : State) (k : Nat) : List (Item × Option Ctx) := tget [] s.aw.front k

/-- Items that wait in a class. -/
def classDepth (s : State) (k : Nat) : Nat := (readyItems s k).length + (frontItems s k).length

/-- The figures that a window begins with: the largest depth of a class is at least its present depth. -/
def obsBegin (s : State) : Tbl Nat := (List.range 8).foldl (fun t k => tset 0 t (oa 0x4811 k 1) (classDepth s k)) []

/-- The observation window in force now: a window that has ended gives its figures over. -/
def obsRoll (s : State) : State :=
  let w := raw s / max 1 (cyc (cfgN s 0x4832 0 0))
  if w = s.aw.obsWin then s
  else setAw s { s.aw with
    obsWin := w, obsLast := if w = s.aw.obsWin + 1 then s.aw.obsNow else obsBegin s, obsNow := obsBegin s }

/-- Note a largest value, or add to a figure, of the window in progress. -/
def obsMax (a v : Nat) (s0 : State) : State :=
  let s := obsRoll s0
  setAw s { s.aw with obsNow := tset 0 s.aw.obsNow a (max v (tget 0 s.aw.obsNow a)) }
def obsAdd (a v : Nat) (s0 : State) : State :=
  let s := obsRoll s0
  setAw s { s.aw with obsNow := tset 0 s.aw.obsNow a (v + tget 0 s.aw.obsNow a) }

/-- A figure of the last complete window. -/
def obsGet (s0 : State) (a : Nat) : Nat := tget 0 (obsRoll s0).aw.obsLast a

/-! ### Classes and domains -/

/-- Note the depth of a class: its largest of the window (Table 7-10). -/
def depthNote (k : Nat) (s : State) : State := obsMax (oa 0x4811 k 1) (classDepth s k) s

/-- Replace what waits in a class. -/
def setReady (s : State) (k : Nat) (l : List Item) : State :=
  let r := obsRoll s
  depthNote k (setAw r { r.aw with ready := tset [] r.aw.ready k l })
def setFront (s : State) (k : Nat) (l : List (Item × Option Ctx)) : State :=
  let r := obsRoll s
  depthNote k (setAw r { r.aw with front := tset [] r.aw.front k l })

/-- Items that wait in all classes. -/
def itemsWaiting (s : State) : Nat := (List.range 8).foldl (fun n k => n + classDepth s k) 0

/-- The domain-table entry that stands for a domain ID (R225). -/
def domainKey (basis id : Nat) : Nat := basis * 65536 + ((id % 65536) ^^^ (id / 65536 % 65536))

def domainReset : Domain := { issue := 0, release := 0, out := 0, lastAwl := 0, gone := [] }
def domainOf (s : State) (i : Item) : Domain := tget domainReset s.aw.domains (domainKey i.basis i.domain)
def setDomain (s : State) (i : Item) (d : Domain) : State :=
  setAw s { s.aw with domains := tset domainReset s.aw.domains (domainKey i.basis i.domain) d }

/-- The item bytes of Table 7-7. -/
def itemWord (i : Item) : Nat :=
  let f := fun (v lo w : Nat) => v % 2 ^ w * 2 ^ lo
  f i.routine 248 8 + f i.param 240 8 + f i.cls 237 3 + f i.basis 234 3 + f i.mode 232 2 + f i.epoch 230 2 +
  f i.slice 226 4 + f i.source 222 4 + f i.domain 188 32 + f i.dseq 164 24 + f i.record 135 29 + f i.desc 103 32 +
  f i.created 71 32 + f i.dispatches 68 3 + f i.data 0 68

/-- An item of a routine, from a source, before it is admitted. -/
def newItem (s : State) (routine source domain : Nat) : Item :=
  let c := routineShape routine
  { routine := routine, param := 0, cls := c.1, basis := c.2.1, mode := c.2.2, epoch := s.ctl.epoch, slice := 0,
    source := source, domain := domain, dseq := 0, record := 0, desc := 0, created := 0, dispatches := 0, data := 0,
    bytes := [], avoid := 0, since := raw s }

/-- A class refuses an item (R224). (DESIGN CHOICE, log entry 71) -/
def classRefuses (s : State) (k : Nat) : Bool :=
  decide (cfgN s 0x4810 k 2 ≤ classDepth s k) || decide (262144 ≤ itemsWaiting s)

/-- Note a refused item (R224). -/
def itemRefused (k : Nat) (s : State) : State := raiseLimited 0x0604 k (fun n => [k, n]) (count 0x4811 k 3 s)

/-- Hand an item to the task scheduler: whether it is admitted, and the state (R223 to R225).
(DESIGN CHOICE, log entry 71) -/
def submitItem (i : Item) (s : State) : Bool × State :=
  if classRefuses s i.cls then (false, itemRefused i.cls s)
  else
    let d := domainOf s i
    let j := { i with dseq := if i.basis = 0 then 0 else d.issue, created := counterNs s % 2 ^ 32, since := raw s }
    let s1 := if i.basis = 0 then s else setDomain s i { d with issue := (d.issue + 1) % 2 ^ 24 }
    (true, count 0x4811 i.cls 2 (setReady s1 i.cls (readyItems s1 i.cls ++ [j])))

/-- An item is no longer dispatched or parked. (DESIGN CHOICE, log entry 70) -/
def leaveOut (i : Item) (s : State) : State :=
  if i.basis = 0 then s
  else
    let d := domainOf s i
    setDomain s i { d with out := d.out - 1 }

/-- An item of a domain leaves: its sequence counts as released (R230). -/
def domainReleased (i : Item) (s : State) : State :=
  if i.basis = 0 then s
  else
    let d := domainOf s i
    let gone := (i.dseq :: d.gone)
    let run := ((List.range gone.length).find? fun m => !gone.contains ((d.release + m) % 2 ^ 24)).getD gone.length
    setDomain s i { d with
      release := (d.release + run) % 2 ^ 24
      gone := gone.filter fun q => !((List.range run).any fun m => (d.release + m) % 2 ^ 24 == q) }

/-- The interface version of a routine: the patch's, else 1.3 for those of the ROM (R212, R216). -/
def routineVersion (s : State) (n : Nat) : Nat :=
  (tfind s.aw.versions n).getD (if 1 ≤ n ∧ n ≤ 16 then 0x0103 else 0)

end Sys2Proof.Machine
end

