-- ==== Sys2Proof/Machine/FlowBase.lean ====
section
/-! DEFINITION. The flow store: keys, records, the index, free chains, hot lines, writeback buffers and hold entries
(chapter 5, R172 to R175). -/
namespace Sys2Proof.Machine

def setFlow (s : State) (f : Flow) : State := { s with flow := f }

/-- The slices pause request service (Table 2-12). -/
def flowHalted (s : State) : Bool := fnStopped s .flowEngine

/-- A request to a slice pair that is not awake waits (R456). -/
def sliceAsleep (s : State) (n : Nat) : Bool := tget 0 s.safe.domains (20 + n / 2) != 0

/-- Note that a slice serves a request now. -/
def sliceServes (n : Nat) (s : State) : State := { s with flow := { s.flow with served := tset 0 s.flow.served n (raw s) } }

/-! ### Keys (Table 3-6) and reverse keys (R175) -/

def kFam (k : BitVec 384) : Nat := bf k 383 383
def kSwap (k : BitVec 384) : Bool := bit k 382
def kZone (k : BitVec 384) : Nat := bf k 375 360
def kProto (k : BitVec 384) : Nat := bf k 359 352
def kSport (k : BitVec 384) : Nat := bf k 351 336
def kDport (k : BitVec 384) : Nat := bf k 335 320
def kSrc (k : BitVec 384) : Nat := bf k 319 192
def kDst (k : BitVec 384) : Nat := bf k 191 64
def kTid (k : BitVec 384) : Nat := bf k 63 40

/-- A key of ICMP or ICMPv6: its port fields are no endpoints (R88). -/
def kIcmp (k : BitVec 384) : Bool := kProto k == 1 || kProto k == 58

/-- Endpoints in forward orientation: source address and port, destination address and port. -/
def kForward (k : BitVec 384) : Nat × Nat × Nat × Nat :=
  if !kSwap k then (kSrc k, kSport k, kDst k, kDport k)
  else if kIcmp k then (kDst k, kSport k, kSrc k, kDport k)
  else (kDst k, kDport k, kSrc k, kSport k)

/-- The endpoint that a translation leaves, in the family of the translated address. (DEDUCED, log entry 56) -/
def natPeer (s : State) (k : BitVec 384) (a nat : Nat) : Nat :=
  if kFam k = 1 ∧ addrFam nat = 0 then mapped (extract64 (cfgN s 0x3004 0 0) a) else a

/-- The reverse key of a translated record (R175). (DEDUCED, log entry 56) -/
def reverseKey (s : State) (k : BitVec 384) (xlateDst : Bool) (nat port : Nat) : BitVec 384 :=
  let e := kForward k
  let mk := fun (src sport dst dport : Nat) =>
    if kIcmp k then normKey (addrFam nat) 0 (kZone k) (kProto k) port (kDport k) src dst (kTid k)
    else normKey (addrFam nat) 0 (kZone k) (kProto k) sport dport src dst (kTid k)
  if xlateDst then mk nat port (natPeer s k e.1 nat) e.2.1
  else mk (natPeer s k e.2.2.1 nat) e.2.2.2 nat port

/-! ### Records (Tables 5-2 to 5-4) -/

def stFwd (w : BitVec 128) : Nat := bf w 123 120
def stRev (w : BitVec 128) : Nat := bf w 119 116
def stClass (w : BitVec 128) : Nat := bf w 115 112
def stReborn (w : BitVec 128) : Bool := bit w 111
def stTrans (w : BitVec 128) : Bool := bit w 110
def stDrop (w : BitVec 128) : Bool := bit w 109
def stPinned (w : BitVec 128) : Bool := bit w 108
def stRevSeen (w : BitVec 128) : Bool := bit w 107
def stXlateDst (w : BitVec 128) : Bool := bit w 106
def stTemplate (w : BitVec 128) : Nat := bf w 103 96

def cnFirst (w : BitVec 256) : Nat := bf w 79 48
def cnLast (w : BitVec 256) : Nat := bf w 47 16
def cnTelemetry (w : BitVec 256) : Nat := bf w 15 12
def cnMirror (w : BitVec 256) : Nat := bf w 11 8
def cnClass (w : BitVec 256) : Nat := bf w 7 4

def acNhFwd (w : BitVec 256) : Nat := bf w 255 232
def acNhRev (w : BitVec 256) : Nat := bf w 231 208
def acEditFwd (w : BitVec 256) : Nat := bf w 207 196
def acEditRev (w : BitVec 256) : Nat := bf w 195 184
def acMeter (w : BitVec 256) : Nat := bf w 183 164
def acNatIndex (w : BitVec 256) : Nat := bf w 163 144
def acNatPort (w : BitVec 256) : Nat := bf w 143 128
def acNatAddr (w : BitVec 256) : Nat := bf w 127 0

/-- The reverse key of a record, when it is translated. -/
def recReverse (s : State) (r : FlowRec) : Option (BitVec 384) :=
  if stTrans r.st then some (reverseKey s r.key (stXlateDst r.st) (acNatAddr r.act) (acNatPort r.act)) else none

/-- The 128 bytes of a record and a record of 128 bytes (R135). (DESIGN CHOICE, log entry 10) -/
def recBytes (r : FlowRec) : Bytes :=
  beBytes 48 r.key.toNat ++ leBytes 16 r.st.toNat ++ leBytes 32 r.cnt.toNat ++ leBytes 32 r.act.toNat
def recOfBytes (b : Bytes) : FlowRec :=
  { key := BitVec.ofNat 384 (beNat (slice b 0 48)), st := BitVec.ofNat 128 (leNat (slice b 48 16)),
    cnt := BitVec.ofNat 256 (leNat (slice b 64 32)), act := BitVec.ofNat 256 (leNat (slice b 96 32)) }

/-- A record in use. -/
def flowRec (s : State) (r : Nat) : Option FlowRec := tfind s.flow.records r

/-- The pseudo-channel of a record (R343, R344); a record that restriping has moved lies in the new layout. -/
def recPc (s : State) (r : Nat) : Nat :=
  let by_ := fun (l : List Nat) => if l.isEmpty then r % 128 else l.getD (r % l.length) 0
  match s.flow.resize with
  | some z => if z.part = 0 ∧ r < z.next then by_ z.lay else by_ ((tfind s.hbm.layouts 0).getD [])
  | none => by_ ((tfind s.hbm.layouts 0).getD [])

/-- The record is unreachable: its pseudo-channel is retired (Table 12-4). -/
def recGone (s : State) (r : Nat) : Bool := pcRetired s (recPc s r)

/-- The HBM address of a record. -/
def recAddr (s : State) (r : Nat) : Nat := partBase s 0 + 128 * r

/-- Write a record; a write to a retired pseudo-channel is dropped and counted. -/
def putRec (r : Nat) (x : FlowRec) (s : State) : State :=
  if recGone s r then count 0x6031 (recPc s r) 4 s
  else setFlow s { s.flow with records := tput s.flow.records r x }

/-! ### Hashes (Table 5-1) -/

/-- The cache set of a key: H1[17:4]. -/
def hashSet (seeds : List Nat) (k : BitVec 384) : Nat := seededCrc (seeds.getD 0 0) (keyBytes k) / 16 % 16384

/-- The fingerprint F of a key. -/
def fingerprint (seeds : List Nat) (k : BitVec 384) : BitVec 96 :=
  let h := fun (i : Nat) => seededCrc (seeds.getD i 0) (keyBytes k)
  BitVec.ofNat 96 (h 2 * 2 ^ 64 + h 3 * 2 ^ 32 + h 4)

/-- The five seeds in force. -/
def seedsNow (s : State) : List Nat := [1, 2, 3, 4, 5].map (flowSeed s)

/-- The seeds under which a slice keeps a key's line: those before REHASH's switch while the slice is the key's old
home and no longer its home (R191). -/
def seedsAt (s : State) (n : Nat) (k : BitVec 384) : List Nat :=
  match s.flow.rehash with
  | some r => if r.phase = 2 ∧ homeSlice s k ≠ n then r.oldSeeds else seedsNow s
  | none => seedsNow s

/-! ### The index (R137 to R139) -/

/-- An index layout: its seeds, buckets, pseudo-channels, and whether it is the one that REHASH builds. -/
structure IdxLay where
  seeds : List Nat
  nb : Nat
  base : Nat
  pcs : List Nat
  building : Bool

/-- The layout in force. -/
def layNow (s : State) : IdxLay :=
  let cur : IdxLay :=
    { seeds := seedsNow s, nb := partSize s 1 / 64, base := partBase s 1, pcs := (tfind s.hbm.layouts 1).getD [],
      building := false }
  match s.flow.rehash with
  | some r => if r.phase = 2 then { cur with nb := r.nb, base := r.region, pcs := r.lay } else cur
  | none => cur

/-- The layouts searched: the new one first while REHASH copies (R154). -/
def layouts (s : State) : List IdxLay :=
  match s.flow.rehash with
  | some r => if r.phase = 2 then [layNow s]
    else [{ seeds := r.seeds, nb := r.nb, base := r.region, pcs := r.lay, building := true }, layNow s]
  | none => [layNow s]

/-- Bucket A, and bucket B where it differs. -/
def layBuckets (l : IdxLay) (k : BitVec 384) : List Nat :=
  let h := fun (i : Nat) => seededCrc (l.seeds.getD i 0) (keyBytes k) % max 1 l.nb
  if h 0 = h 1 then [h 0] else [h 0, h 1]

/-- The signature of a key: F[95:64]. -/
def laySig (l : IdxLay) (k : BitVec 384) : Nat := seededCrc (l.seeds.getD 2 0) (keyBytes k)

/-- The pseudo-channel of a bucket, and whether it is retired. -/
def bucketPc (l : IdxLay) (b : Nat) : Nat := if l.pcs.isEmpty then b % 128 else l.pcs.getD (b % l.pcs.length) 0
def bucketGone (s : State) (l : IdxLay) (b : Nat) : Bool := pcRetired s (bucketPc l b)

def idxTable (s : State) (l : IdxLay) : Tbl (BitVec 64) := if l.building then s.flow.index2 else s.flow.index

/-- A slot by 8 × bucket + slot number. -/
def idxGet (s : State) (l : IdxLay) (x : Nat) : BitVec 64 := tget 0 (idxTable s l) x

/-- Write a slot; a write to a retired pseudo-channel is dropped and counted. -/
def idxPut (l : IdxLay) (x : Nat) (v : BitVec 64) (s : State) : State :=
  if bucketGone s l (x / 8) then count 0x6031 (bucketPc l (x / 8)) 4 s
  else if l.building then setFlow s { s.flow with index2 := tset 0 s.flow.index2 x v }
  else setFlow s { s.flow with index := tset 0 s.flow.index x v }

def slSig (v : BitVec 64) : Nat := bf v 63 32
def slRec (v : BitVec 64) : Nat := bf v 31 3
def slValid (v : BitVec 64) : Bool := bit v 2
def slDir (v : BitVec 64) : Nat := bf v 1 1
def slAlt (v : BitVec 64) : Bool := bit v 0

/-- An index slot (Table 5-5). -/
def mkSlot (sig record dir : Nat) (alt : Bool) : BitVec 64 :=
  BitVec.ofNat 64 (sig % 2 ^ 32 * 2 ^ 32 + record % 2 ^ 29 * 8 + 4 + dir % 2 * 2 + b2n alt)

/-- The eight slots of a bucket. -/
def bucketSlots (b : Nat) : List Nat := (List.range 8).map (8 * b + ·)

/-- The key of a slot: its record's key, or the reverse key that the record gives (R138). -/
def slotKey (s : State) (record dir : Nat) : Option (BitVec 384) :=
  match flowRec s record with
  | none => none
  | some r => if dir = 0 then some r.key else recReverse s r

/-- Records that match a key's signature in a bucket, lowest slot first: 2 record + dir (R138). -/
def bucketMatches (s : State) (l : IdxLay) (b : Nat) (k : BitVec 384) : List Nat :=
  (bucketSlots b).filterMap fun x =>
    let v := idxGet s l x
    if slValid v ∧ slSig v = laySig l k ∧ slRec v < s.flow.nr then some (2 * slRec v + slDir v) else none

/-- A slot's record has the key. -/
def keyIs (s : State) (c : Nat) (k : BitVec 384) : Bool :=
  match slotKey s (c / 2) (c % 2) with
  | some x => bareKey x == bareKey k
  | none => false

/-- Search the index for a key (R138, R154): 2 record + dir. -/
def idxFind (s : State) (k : BitVec 384) : Option Nat :=
  ((layouts s).flatMap fun l => (layBuckets l k).flatMap fun b => if bucketGone s l b then [] else bucketMatches s l b k).find?
    fun c => !recGone s (c / 2) && keyIs s c k

/-- The free slot of a bucket. -/
def freeSlot (s : State) (l : IdxLay) (b : Nat) : Option Nat := (bucketSlots b).find? fun x => !slValid (idxGet s l x)

/-- The displacements of R139 from number d on, with the entry in hand, into a full bucket. None: no slot is found. -/
def displace (l : IdxLay) : Nat → Nat → Nat → BitVec 64 → State → Option State
  | 0, _, _, _, _ => none
  | n + 1, d, b, hand, s =>
    let x := 8 * b + d % 8
    let o := idxGet s l x
    match slotKey s (slRec o) (slDir o) with
    | none => none
    | some k =>
      let bs := layBuckets l k
      let other := if slAlt o then bs.headD 0 else bs.getD 1 (bs.headD 0)
      let o' := mkSlot (slSig o) (slRec o) (slDir o) (!slAlt o && bs.length == 2)
      let s1 := idxPut l x hand s
      if recGone s (slRec o) ∨ bucketGone s l other then none
      else match freeSlot s l other with
        | some y => some (idxPut l y o' s1)
        | none => displace l n (d + 1) other o' s1

/-- Insert an entry into a layout (R139): the new state, or the insertion-failure cause (Table 6-7). -/
def idxInsert (l : IdxLay) (k : BitVec 384) (record dir : Nat) (s : State) : Nat ⊕ State :=
  let bs := layBuckets l k
  let entry := fun (alt : Bool) => mkSlot (laySig l k) record dir alt
  let live := bs.filter fun b => !bucketGone s l b
  match live with
  | [] => .inl 6
  | _ =>
    match live.findSome? fun b => (freeSlot s l b).map fun x => (b, x) with
    | some (b, x) => .inr (idxPut l x (entry (b != bs.headD 0)) s)
    | none =>
      let b := bs.headD 0
      if bucketGone s l b then .inl 1
      else match displace l 16 0 b (entry false) s with
        | some t => .inr t
        | none => .inl 1

/-- Insert an entry: while REHASH copies, into the new layout, and into the old one when that has room (R190). -/
def idxAdd (k : BitVec 384) (record dir : Nat) (s : State) : Nat ⊕ State :=
  match layouts s with
  | [l] => idxInsert l k record dir s
  | new :: old :: _ =>
    match idxInsert new k record dir s with
    | .inl c => .inl c
    | .inr t => match idxInsert old k record dir t with
      | .inr u => .inr u
      | .inl _ =>
        .inr (setFlow t { t.flow with rehash := t.flow.rehash.map fun r =>
          { r with newOnly := r.newOnly.filter (· != record) ++ [record] } })
  | [] => .inl 1

/-- Clear a record's entries for one of its keys, in every layout. -/
def idxClear (k : BitVec 384) (record dir : Nat) (s : State) : State :=
  (layouts s).foldl (fun t l => ((layBuckets l k).flatMap bucketSlots).foldl (fun u x =>
    let v := idxGet u l x
    if slValid v ∧ slRec v = record ∧ slDir v = dir then idxPut l x 0 u else u) t) s

/-! ### Free chains and drawn indexes (R172) -/

/-- Records of chain k below nr. -/
def chainSize (nr k : Nat) : Nat := (nr + 15 - k) / 16

/-- Records on the free chains (flow.records.free). -/
def recordsFree (s : State) : Nat :=
  (List.range 16).foldl (fun n k => n + (chainSize s.flow.nr k - tget 0 s.flow.taken k) + (tget [] s.flow.chains k).length) 0

/-- Indexes that may be drawn: all, and while the partition shrinks those below the new nr (R193). -/
def drawLimit (s : State) : Nat :=
  match s.flow.resize with
  | some z => if z.part = 0 then min s.flow.nr (z.size * 2 ^ 23) else s.flow.nr
  | none => s.flow.nr

/-- Take the first index of a chain that may be drawn. -/
def chainPop (k : Nat) (s : State) : Option (Nat × State) :=
  match (tget [] s.flow.chains k).find? (· < drawLimit s) with
  | some r => some (r, setFlow s { s.flow with chains := tset [] s.flow.chains k ((tget [] s.flow.chains k).erase r) })
  | none =>
    let n := tget 0 s.flow.taken k
    if n < chainSize (drawLimit s) k then some (k + 16 * n, setFlow s { s.flow with taken := tput s.flow.taken k (n + 1) }) else none

/-- Push a freed record onto the chain of its index. -/
def chainPush (r : Nat) (s : State) : State :=
  setFlow s { s.flow with chains := tset [] s.flow.chains (r % 16) (r :: tget [] s.flow.chains (r % 16)) }

/-- Event 0x050D while the free count is below its mark, at most once per minute. (DESIGN CHOICE, log entry 65) -/
def recordsLow (s : State) : State :=
  let f := recordsFree s
  let low := cfgN s 0x4036 0 0
  if f < low ∧ (s.flow.lowTold = 0 ∨ s.flow.lowTold - 1 + 60 * cycSecond ≤ raw s) then
    raise 0x050D [f, low] (setFlow s { s.flow with lowTold := raw s + 1 })
  else s

/-- Draw up to 64 indexes for a slice, one from each chain in turn, beginning with chain k; a chain that is empty is
passed, and idle counts those passed in a row (R172). (DESIGN CHOICE, log entry 65) -/
def refill : Nat → Nat → Nat → List Nat → State → List Nat × State
  | 0, _, _, got, s => (got, s)
  | m + 1, k, idle, got, s =>
    if 16 ≤ idle ∨ 64 ≤ got.length then (got, s)
    else match chainPop (k % 16) s with
      | some (r, t) => refill m (k + 1) 0 (got ++ [r]) t
      | none => refill m (k + 1) (idle + 1) got s

/-- Draw a record index for slice n; one on a retired pseudo-channel is discarded and the next drawn (Table 12-4).
(DESIGN CHOICE, log entry 65) -/
def drawRecord (n : Nat) : Nat → State → Option (Nat × State)
  | 0, _ => none
  | m + 1, s =>
    match tget [] s.flow.drawn n with
    | r :: t =>
      let s1 := setFlow s { s.flow with drawn := tset [] s.flow.drawn n t }
      if drawLimit s ≤ r ∨ recGone s r then drawRecord n m s1 else some (r, s1)
    | [] =>
      let g := refill 1024 n 0 [] s
      if g.1.isEmpty then none
      else drawRecord n m (recordsLow (setFlow g.2 { g.2.flow with drawn := tset [] g.2.flow.drawn n g.1 }))

/-- Draws that a setup makes at most: each record, and each refill, once. -/
def drawFuel (s : State) : Nat := 2 * s.flow.nr + 2

/-! ### Hot lines (R140 to R147, R157) -/

def lineKey (n set way : Nat) : Nat := 131072 * n + 8 * set + way

/-- The bank of a line's set s: s[13:10] (R140). -/
def lineBank (x : Nat) : Nat := x / 8 % 16384 / 1024
def lineAt (s : State) (x : Nat) : Option Line := tfind s.flow.lines x
def setLine (x : Nat) (l : Line) (s : State) : State := setFlow s { s.flow with lines := tput s.flow.lines x l }
def dropLine (x : Nat) (s : State) : State := setFlow s { s.flow with lines := tdel s.flow.lines x }

/-- Note a use of a line (R157). -/
def touch (x : Nat) (s : State) : State :=
  match lineAt s x with
  | some l => setLine x { l with used := s.flow.lru + 1 } (setFlow s { s.flow with lru := s.flow.lru + 1 })
  | none => s

/-- The line of a key in a slice: fingerprint, or the whole key of a line of the verified form (R147, R148). -/
def lineFind (s : State) (n : Nat) (k : BitVec 384) : Option Nat :=
  let seeds := seedsAt s n k
  let set := hashSet seeds k
  ((List.range 8).map (lineKey n set)).find? fun x => match lineAt s x with
    | some l => if l.wide then bareKey l.key == bareKey k else l.fp == fingerprint seeds k
    | none => false

/-- The primary line of a record, and every line of it. -/
def primaryOf (s : State) (r : Nat) : Option Nat := (s.flow.lines.find? fun x => x.2.record == r && !x.2.link).map (·.1)
def linesOf (s : State) (r : Nat) : List Nat := (s.flow.lines.filter fun x => x.2.record == r).map (·.1)

/-- Contexts of the awl cluster: in the slots, in the context store and at the heads of the classes. -/
def allContexts (s : State) : List Ctx :=
  s.aw.awls.flatMap (fun r => r.2.l0.toList ++ r.2.l1.toList) ++ s.aw.parked ++
    s.aw.front.flatMap fun r => r.2.filterMap (·.2)

/-- Records that awls are reading: their SLICE READs are outstanding (R161). -/
def awlReads (s : State) : List Nat :=
  (allContexts s).flatMap fun c => c.busy.filterMap fun o =>
    if o.2.mop = 5 ∧ o.2.args.what = 0 then some o.2.args.target else none

/-- A key is one of a record's index keys. -/
def recHasKey (s : State) (r : Nat) (k : BitVec 384) : Bool :=
  match flowRec s r with
  | some x => bareKey x.key == bareKey k || (recReverse s x).any fun j => bareKey j == bareKey k
  | none => false

def wbOf (s : State) (n : Nat) : List WbEntry := tget [] s.flow.wb n
def setWb (s : State) (n : Nat) (l : List WbEntry) : State := setFlow s { s.flow with wb := tset [] s.flow.wb n l }

/-- A record's counters with a line's deltas added (R156). -/
def addDeltas (c : BitVec 256) (l : Line) : BitVec 256 :=
  putBf (putBf (putBf (putBf c 255 216 (bf c 255 216 + l.dpf)) 215 168 (bf c 215 168 + l.dbf))
    167 128 (bf c 167 128 + l.dpr)) 127 80 (bf c 127 80 + l.dbr)

/-- A record as a writeback of a line leaves it: deltas added, last_seen and state replaced, aclass as tclass. -/
def mergeLine (r : FlowRec) (l : Line) : FlowRec :=
  { r with
    st := putBf l.st 127 124 (bf r.st 127 124)
    cnt := putBf (putBf (addDeltas r.cnt l) 47 16 l.last) 7 4 (stClass l.st) }

/-- Write one line back to its record (R156). -/
def writeback (n : Nat) (l : Line) (s : State) : State :=
  match flowRec s l.record with
  | none => s
  | some r =>
    let a := recAddr s l.record + 48
    let s1 := hbmRequest 3 a 48 true (hbmRequest 3 a 80 false s)
    putRec l.record (mergeLine r l) (count 0x4020 n 7 s1)

/-- Entries of a record in the writeback buffers, oldest first. -/
def wbEntries (s : State) (r : Nat) : List Line :=
  s.flow.wb.flatMap fun w => (w.2.filter fun e => e.line.record == r).map (·.line)

/-- The fetches that wait for the writebacks of a record issue their reads of it once none is pending (R158). -/
def issueReads (r : Nat) (s : State) : State :=
  if !(wbEntries s r).isEmpty then s
  else (s.flow.holds.filter fun h => h.2.readWaits && (h.2.cands.head?.map (· / 2)) == some r).foldl (fun t h =>
    hbmRequest 1 (recAddr t r) 128 false (setFlow t { t.flow with holds := tput t.flow.holds h.1 { h.2 with readWaits := false } })) s

/-- The entry of a slice's buffer that is written back next: the oldest whose record no awl is reading (R158, R161).
-/
def wbNext (s : State) (n : Nat) : Option WbEntry :=
  let busy := awlReads s
  (wbOf s n).find? fun e => !busy.contains e.line.record

/-- Write back an entry of a slice's buffer. -/
def wbOut (n : Nat) (e : WbEntry) (s : State) : State :=
  issueReads e.line.record (writeback n e.line (setWb s n ((wbOf s n).erase e)))

/-- Put an entry into a slice's buffer; with the buffer full it first waits for an entry to be written back, and the
wait is counted (R158). (DESIGN CHOICE, log entry 57) -/
def wbPush (n : Nat) (e : WbEntry) (s : State) : State :=
  let s1 := if 1024 ≤ (wbOf s n).length then
      (match (wbNext s n).or (wbOf s n).head? with
        | some o => wbOut n o
        | none => id) (count 0x4020 n 9 s)
    else s
  setWb s1 n (wbOf s1 n ++ [e])

/-- A line without deltas, clean. -/
def cleared (l : Line) : Line := { l with dpf := 0, dbf := 0, dpr := 0, dbr := 0, dirty := false }

/-- Fold a line (R159): its deltas, last_seen and state move into a fold entry. (DESIGN CHOICE, log entry 57) -/
def foldLine (n x : Nat) (s : State) : State :=
  match lineAt s x with
  | none => s
  | some l => setLine x (cleared l) (wbPush n { line := l, fold := true } (count 0x4020 n 8 s))

/-- A periodic fold of a line (R160): with the buffer full the line stays dirty until an entry frees, and the wait is
counted (R158). -/
def foldPeriodic (n x : Nat) (s : State) : State :=
  if 1024 ≤ (wbOf s n).length then
    let s1 := count 0x4020 n 9 s
    setFlow s1 { s1.flow with foldWait := tset [] s1.flow.foldWait n (tget [] s1.flow.foldWait n ++ [x]) }
  else foldLine n x s

/-- Entries of slice n's buffer have gone: the periodic folds that waited take them (R158); a line that is no longer a
dirty primary line is passed. -/
def foldsGoOn (n : Nat) (s : State) : State :=
  (tget [] s.flow.foldWait n).foldl (fun t x =>
    if 1024 ≤ (wbOf t n).length then t
    else
      let u := setFlow t { t.flow with foldWait := tset [] t.flow.foldWait n ((tget [] t.flow.foldWait n).erase x) }
      if ((lineAt u x).map fun l => l.dirty && !l.link).getD false then foldLine n x u else u) s

/-- Write back the next entry of a slice's buffer. (DESIGN CHOICE, log entry 57) -/
def wbDrain (n : Nat) (s : State) : State :=
  match wbNext s n with
  | none => s
  | some e => foldsGoOn n (wbOut n e s)

/-- Evict a line (R157): a dirty primary line moves to the writeback buffer, another is dropped.
(DESIGN CHOICE, log entry 57) -/
def evict (n x : Nat) (s : State) : State :=
  match lineAt s x with
  | none => s
  | some l =>
    let s1 := dropLine x (count 0x4020 n 6 s)
    if l.dirty && !l.link then wbPush n { line := l, fold := false } s1 else s1

/-- Fold a line and evict it (R148, R191). -/
def foldEvict (x : Nat) (s : State) : State :=
  let n := x / 131072
  evict n x (if ((lineAt s x).map fun l => l.dirty && !l.link).getD false then foldLine n x s else s)

/-- Fold and evict the lines of a test. -/
def evictLines (gone : Nat → Line → Bool) (s : State) : State :=
  (s.flow.lines.filter fun r => gone r.1 r.2).foldl (fun t r => foldEvict r.1 t) s

/-- A way is taken: its unit holds a line, or the line of the verified form beside it. -/
def wayTaken (s : State) (n set w : Nat) : Bool :=
  (lineAt s (lineKey n set w)).isSome ||
    (w % 2 == 1 && ((lineAt s (lineKey n set (w - 1))).map (·.wide)).getD false)

/-- When a way was last used. -/
def wayUsed (s : State) (n set w : Nat) : Nat :=
  let own := ((lineAt s (lineKey n set w)).map (·.used)).getD 0
  if w % 2 = 1 then max own (((lineAt s (lineKey n set (w - 1))).bind fun l => if l.wide then some l.used else none).getD 0)
  else own

/-- The least of a list by a measure, the first among equals. -/
def leastBy (f : Nat → Nat) : List Nat → Nat
  | [] => 0
  | a :: t => t.foldl (fun b x => if f x < f b then x else b) a

/-- Install a line in a set of slice n; answer where it stands. -/
def install (n set : Nat) (l : Line) (s : State) : Nat × State :=
  let at_ := fun (w : Nat) => lineKey n set w
  let put := fun (w : Nat) (t : State) =>
    (at_ w, setLine (at_ w) { l with used := t.flow.lru + 1 } (setFlow t { t.flow with lru := t.flow.lru + 1 }))
  let pairOut := fun (w : Nat) (t : State) => evict n (at_ (w / 2 * 2 + 1)) (evict n (at_ (w / 2 * 2)) t)
  if l.wide then
    let pairs := [0, 2, 4, 6]
    match pairs.find? fun w => !wayTaken s n set w && !wayTaken s n set (w + 1) with
    | some w => put w s
    | none =>
      let w := leastBy (fun w => max (wayUsed s n set w) (wayUsed s n set (w + 1))) pairs
      put w (pairOut w s)
  else
    match (List.range 8).find? fun w => !wayTaken s n set w with
    | some w => put w s
    | none =>
      let w := leastBy (wayUsed s n set) (List.range 8)
      if ((lineAt s (at_ (w / 2 * 2))).map (·.wide)).getD false then put w (pairOut w s) else put w (evict n (at_ w) s)

/-- A line of the present form for a key and record, before it has a place. -/
def newLine (s : State) (n record : Nat) (k : BitVec 384) (x : FlowRec) : Line :=
  let wide := cfgOn s 0x4003 0 0
  { fp := fingerprint (seedsAt s n k) k, wide := wide, key := if wide then k else 0, record := record, link := false, dirty := false,
    orient := kSwap x.key, st := x.st, act := putBf x.act 127 0 0, telemetry := cnTelemetry x.cnt, mirror := cnMirror x.cnt,
    dpf := 0, dbf := 0, dpr := 0, dbr := 0, last := cnLast x.cnt, home := 0, oAddr := 0, oPort := 0, used := 0 }

/-- Install a record's primary line unless one is present (R145, Table 5-9); answer where it stands. -/
def installPrimary (n record : Nat) (x : FlowRec) (s : State) : Nat × State :=
  match primaryOf s record with
  | some y => (y, s)
  | none => install n (hashSet (seedsAt s n x.key) x.key) (newLine s n record x.key x) s

/-- The original address and port of a translated record (R144). -/
def originalOf (x : FlowRec) : Nat × Nat :=
  let src := stXlateDst x.st == kSwap x.key
  (if src then kSrc x.key else kDst x.key, if kIcmp x.key then kSport x.key else if src then kSport x.key else kDport x.key)

/-- Install a record's link line beside its primary line (R144, R145). -/
def installLink (n record home : Nat) (x : FlowRec) (rk : BitVec 384) (s : State) : State :=
  match lineFind s n rk with
  | some _ => s
  | none =>
    let o := originalOf x
    let l := { newLine s n record rk x with
      link := true, orient := false, st := 0, act := 0, telemetry := 0, mirror := 0, last := 0,
      home := home, oAddr := o.1, oPort := o.2 }
    (install n (hashSet (seedsAt s n rk) rk) l s).2

/-- A link line serves: the unit it names holds a primary line of its record (R144). -/
def linkServes (s : State) (l : Line) : Bool :=
  match lineAt s l.home with
  | some p => !p.link && p.record == l.record
  | none => false

/-! ### Merged records (R161) -/

/-- The record as a writeback at this instant would leave it. -/
def mergedRec (s : State) (r : Nat) : Option FlowRec :=
  (flowRec s r).map fun x =>
    let y := (wbEntries s r).foldl mergeLine x
    match (primaryOf s r).bind (lineAt s) with
    | some l => mergeLine y l
    | none => y

/-! ### Hold entries (R151) -/

def holdKey (n number : Nat) : Nat := 65536 * n + number
def holdAt (s : State) (h : Nat) : Option Hold := tfind s.flow.holds h
def setHold (h : Nat) (x : Hold) (s : State) : State := setFlow s { s.flow with holds := tput s.flow.holds h x }
def sliceOfHold (h : Nat) : Nat := h / 65536

/-- Hold entries of a slice. -/
def holdsOf (s : State) (n : Nat) : Tbl Hold := s.flow.holds.filter fun r => r.1 / 65536 == n

/-- The hold entry of a key in a slice. -/
def holdFor (s : State) (n : Nat) (k : BitVec 384) : Option Nat :=
  ((holdsOf s n).find? fun r => bareKey r.2.key == bareKey k).map (·.1)

/-- The lowest number not in a rising list. -/
def lowestGap : Nat → List Nat → Nat
  | i, [] => i
  | i, k :: t => if k = i then lowestGap (i + 1) t else i

/-- A free entry of a slice's hold table. -/
def freeHold (s : State) (n : Nat) : Option Nat :=
  let l := (holdsOf s n).map (·.1)
  if 65536 ≤ l.length then none else some (lowestGap (holdKey n 0) l)

/-- Remove a hold entry, with its fetch in the miss queues and its surrender request. -/
def delHold (h : Nat) (s : State) : State :=
  setFlow s { s.flow with
    holds := tdel s.flow.holds h
    missQ := (s.flow.missQ.map fun r => (r.1, r.2.filter (· != h))).filter fun r => !r.2.isEmpty
    surrender := s.flow.surrender.filter fun r => r.2 != h }

/-- A hold entry of a key, empty. -/
def emptyHold (k : BitVec 384) (state : Nat) : Hold :=
  { key := bareKey k, state := state, pipe := 0, template := 0, epoch := 0, chain := [], since := 0, buckets := [], inB := false,
    cands := [], setup := none, other := none, reverse := false, record := 0, readWaits := false }

end Sys2Proof.Machine
end

