-- ==== Sys2Proof/Machine/Inject.lean ====
section
/-! DEFINITION. Injection of frames by the device: transmit rings (R388 to R390) and frames of its own. -/
namespace Sys2Proof.Machine

/-- The DWRR turn among the transmit rings (R389): the ring served last keeps it while its deficit is above 0. -/
def txTurnKey : Nat := 64

/-- Pad a frame to 60 bytes (R388). (DESIGN CHOICE, log entry 77) -/
def padFrame (f : Bytes) : Bytes := if f.length < 60 then padTo 60 f else f

/-- The packet of an injected frame: whole, FCS to be appended, at a port; its timestamp is the instant of injection
(R415). -/
def injected (s : State) (q : Nat) (ring : Option Nat) (f : Bytes) : Packet :=
  let d := padFrame f
  { noPacket with
    pipe := q / 64, port := q, ring := ring, data := d, rxLen := d.length + 4, fcsOk := true, half := q / 512,
    cells := frameCells (d.length + 4), written := frameCells (d.length + 4), place := 0, ended := true, ts := stampNow s,
    born := s.time.raw.setWidth 32, router := routerMac s q d }

/-- The half has room for an injected frame (R239). -/
def injectRoom (s : State) (p : Packet) : Bool := halfAccepts s p.half && decide (p.cells ≤ halfFree s p.half)

/-- Take an injected frame into the buffer under the next packet number. -/
def injectPacket (p : Packet) (s : State) : Nat × State :=
  let pid := s.path.nextPid
  (pid, chargePending p.cells pid (setPkt pid p (setPath s { s.path with nextPid := pid + 1 })))

/-- Queue an injected frame directly on a unicast queue, with its edit program in the active epoch (R389). -/
def injectDirect (p : Packet) (q cls edit ptp : Nat) (nh : Option Nat) (s : State) : State :=
  let r := injectPacket p s
  admitFrame q { pid := r.1, edit := edit, cls := cls, nh := nh, ecn := false, dscp := none, cut := false, ptp := ptp }
    (pinEpoch r.1 r.2)

/-! ### Transmit rings -/

def tdAddr (w : BitVec 256) : Nat := bf w 255 192
def tdLen (w : BitVec 256) : Nat := bf w 191 178
def tdMore (w : BitVec 256) : Bool := bit w 177
def tdMode (w : BitVec 256) : Nat := bf w 176 175
def tdPort (w : BitVec 256) : Nat := bf w 174 165
def tdGroup (w : BitVec 256) : Nat := bf w 164 149
def tdClass (w : BitVec 256) : Nat := bf w 148 146
def tdEdit (w : BitVec 256) : Nat := bf w 145 134
def tdPtp (w : BitVec 256) : Nat := bf w 133 132
def tdHbm (w : BitVec 256) : Bool := bit w 131

/-- A segment as host memory holds it at the time, or as the model's HBM holds it. -/
def txSegment (s : State) (d : BitVec 256 × Bytes) : Bytes :=
  if tdHbm d.1 then hbmRead s (tdAddr d.1) (tdLen d.1) else padTo (tdLen d.1) d.2

/-- The descriptors of the frame at the head of a list: up to the first without more. -/
def txFrameDescs : List (BitVec 256 × Bytes) → List (BitVec 256 × Bytes)
  | [] => []
  | d :: t => if tdMore d.1 then d :: txFrameDescs t else [d]

/-- The frame is malformed: more than 8 descriptors, or fewer than 14 or more than 15,996 bytes (R388). -/
def txBad (ds : List (BitVec 256 × Bytes)) : Bool :=
  let n := ds.foldl (fun n d => n + tdLen d.1) 0
  decide (8 < ds.length) || decide (n < 14) || decide (15996 < n)

/-- Rings that wait to inject: live, with descriptors. -/
def txWaiting (s : State) : List Nat :=
  (List.range 64).filter fun r => ringLive s (txKey r) && decide (ringFill (ring s (txKey r)) ≠ 0)

def txDef (s : State) (r : Nat) : Int := tget 0 s.host.txDeficit r
def setTxDef (r : Nat) (v : Int) (s : State) : State := setHost s { s.host with txDeficit := tset 0 s.host.txDeficit r v }

/-- The ring that injects next among some: the one served last while it has deficit, else the next with deficit.
(DESIGN CHOICE, log entry 77) -/
def txPick (s : State) (rs : List Nat) : Option Nat :=
  let last := (txDef s txTurnKey).toNat
  ((List.range 64).map fun i => (last + i) % 64).find? fun r => rs.contains r && decide (0 < txDef s r)

/-- Give every waiting ring its quantum until one has deficit above 0 (R389). (DESIGN CHOICE, log entry 77) -/
def txRefill (rs : List Nat) : Nat → State → State
  | 0, s => s
  | n + 1, s =>
    if rs.isEmpty || (txPick s rs).isSome then s
    else txRefill rs n (rs.foldl (fun t r => setTxDef r (txDef t r + 1024 * cfgN t 0x6822 r 0) t) s)

/-- A ring has injected a frame of len bytes, or stopped. (DESIGN CHOICE, log entry 77) -/
def txCharge (r len : Nat) (rs : List Nat) (s : State) : State :=
  let s1 := setTxDef txTurnKey r (setTxDef r (txDef s r - len) s)
  if (txWaiting s1).contains r then s1 else if rs.contains r then setTxDef r (min 0 (txDef s1 r)) s1 else s1

/-- Transmit ring r injects its head frame along one path. ds: the descriptors at its head with their host-memory
segments; held: rings whose head frame R239 or a full FIFO refuses, which wait. mode: the path of the row.
(DESIGN CHOICE, log entry 77) -/
def txInject (mode r : Nat) (ds : List (BitVec 256 × Bytes)) (held : List Nat)
    (go : Bytes → BitVec 256 → State → Option State) (s : State) : State :=
  let k := txKey r
  let fr := txFrameDescs ds
  let first := (fr.headD (0, [])).1
  let rs := (txWaiting s).filter fun x => x == r || !held.contains x
  let s0 := txRefill rs 64 s
  let whole := decide (fr.length ≤ ringFill (ring s k)) && !fr.isEmpty &&
    (decide (8 < fr.length) || !tdMore (fr.getLastD (0, [])).1)
  if 64 ≤ r ∨ !(txWaiting s).contains r ∨ tdMode first ≠ mode ∨ !whole ∨ txPick s0 rs ≠ some r then s
  else if txBad fr then ringFail k 1 (ring s k).cons s0
  else
    let f := fr.flatMap (txSegment s)
    match go f first s0 with
    | none => satAdd 0x6823 r 2 1 s
    | some s1 =>
      let n := f.length
      txCharge r n rs (satAdd 0x6823 r 1 n (satAdd 0x6823 r 0 1 (ringConsume k fr.length s1)))

/-- The ptp field of a descriptor is ignored outside mode DIRECT, and counted (R412). -/
def ptpIgnored (d : BitVec 256) (s : State) : State := if tdPtp d = 0 then s else count 0x7012 0 3 s

/-- TX_PIPELINE: a frame enters its port's header FIFO with FROM_HOST set (R389). -/
def execTxPipeline (r : Nat) (ds : List (BitVec 256 × Bytes)) (held : List Nat) (s : State) : Host.Outcome State Fault Refusal :=
  .next (txInject 0 r ds held (fun f d t =>
    let p := injected t (tdPort d) (some r) f
    if !injectRoom t p || hdrFull t p.pipe then none
    else
      let x := injectPacket p t
      some (ptpIgnored d (setHdr x.2 p.pipe (hdrFifo x.2 p.pipe ++ [x.1])))) s)

/-- TX_DIRECT: a frame is queued on unicast queue 8 × port + class, with its own edit program (R389). -/
def execTxDirect (r : Nat) (ds : List (BitVec 256 × Bytes)) (held : List Nat) (s : State) : Host.Outcome State Fault Refusal :=
  .next (txInject 1 r ds held (fun f d t =>
    let p := injected t (tdPort d) (some r) f
    if !injectRoom t p then none else some (injectDirect p (tdPort d) (tdClass d) (tdEdit d) (tdPtp d) none t)) s)

/-- TX_GROUP: a frame is replicated to its group's targets, each copy in the multicast class of its class (R389). -/
def execTxGroup (r : Nat) (ds : List (BitVec 256 × Bytes)) (held : List Nat) (s : State) : Host.Outcome State Fault Refusal :=
  .next (txInject 2 r ds held (fun f d t =>
    let p := injected t (tdPort d) (some r) f
    if !injectRoom t p then none
    else
      let x := injectPacket p t
      some (ptpIgnored d (multicast (tdGroup d) x.1 (tdClass d) (tdEdit d) none false (pinEpoch x.1 x.2)))) s)

end Sys2Proof.Machine
end

