-- ==== Sys2Proof/Machine/Ipfix.lean ====
section
/-! DEFINITION. IPFIX export: flow, log and statistics records, streams and their transport (15.5). -/
namespace Sys2Proof.Machine

/-! ### Templates (Tables 15-3, 15-4) -/

/-- Fields of a template: information element, bytes, whether it is a reverse element (enterprise 29305). -/
def ipfixFields (t : Nat) : List (Nat × Nat × Bool) :=
  let v6 := t == 257 || t == 259
  let full := t == 256 || t == 257
  let log := fun (src : Nat × Nat × Bool) => [(323, 8, false), (230, 1, false), src, (225, 4, false), (361, 2, false), (362, 2, false)]
  match t with
  | 264 => log (8, 4, false)
  | 265 => log (27, 16, false)
  | 266 => [(149, 4, false), (166, 8, false), (323, 8, false)]
  | _ =>
    [(148, 8, false), (152, 8, false)] ++ (if full then [(153, 8, false)] else []) ++
    (if v6 then [(27, 16, false), (28, 16, false)] else [(8, 4, false), (12, 4, false)]) ++
    [(7, 2, false), (11, 2, false), (4, 1, false), (234, 4, false)] ++
    (if full then [(86, 8, false), (85, 8, false), (86, 8, true), (85, 8, true)] else []) ++
    [(225, 4, false), (226, 4, false), (227, 2, false), (228, 2, false)] ++ (if full then [(136, 1, false)] else [])

/-- A field specifier (RFC 7011). -/
def fieldSpec (f : Nat × Nat × Bool) : Bytes :=
  if f.2.2 then beBytes 2 (32768 + f.1) ++ beBytes 2 f.2.1 ++ beBytes 4 29305 else beBytes 2 f.1 ++ beBytes 2 f.2.1

/-- A set of a message: its ID, its length, its content. -/
def ipfixSet (id : Nat) (body : Bytes) : Bytes := beBytes 2 id ++ beBytes 2 (body.length + 4) ++ body

/-- The template sets that a stream exports: 256 to 259, 264 and 265 as templates, 266 as an options template (R438).
(DESIGN CHOICE, log entry 95) -/
def templateSets : Bytes :=
  ipfixSet 2 ([256, 257, 258, 259, 264, 265].flatMap fun t =>
    beBytes 2 t ++ beBytes 2 (ipfixFields t).length ++ (ipfixFields t).flatMap fieldSpec) ++
  ipfixSet 3 (beBytes 2 266 ++ beBytes 2 3 ++ beBytes 2 1 ++ (ipfixFields 266).flatMap fieldSpec)

/-! ### Streams (R439 to R442) -/

def streamDest (s : State) (st : Nat) : Nat := cfgN s 0x7840 st 0
def streamMtu (s : State) (st : Nat) : Nat := cfgN s 0x7840 st 2
def streamQueue (s : State) (st : Nat) : List Bytes := tget [] s.cnt.streamQ st

/-- Note a loss of a stream: 0 records, 1 messages, 2 triggers; event 0x0C03 at most once per second (R441).
(DESIGN CHOICE, log entry 95) -/
def streamLoss (st kind : Nat) (s : State) : State :=
  let inst := fun (k : Nat) => 16 + 16 * k + st
  let s1 := noteLately 0x0C03 (inst kind) s
  raiseLimited 0x0C03 st (fun _ => st :: [0, 1, 2].map fun k => seenLately 0x0C03 (inst k) s1) s1

/-- Add to a stream's notSentFlowTotalCount. -/
def notSent (st n : Nat) (s : State) : State := setCnt s { s.cnt with notSent := tput s.cnt.notSent st (tget 0 s.cnt.notSent st + n) }

/-- The stream of flow records. -/
def flowStream (s : State) : Nat := cfgN s 0x7830 0 0

/-- A trigger is lost (R437, R441). (DESIGN CHOICE, log entry 95) -/
def triggerLost (s : State) : State := streamLoss (flowStream s) 2 (notSent (flowStream s) 1 (count 0x7850 0 2 s))

/-- A discarded end notice counts in the flow stream's notSentFlowTotalCount (R441). (DESIGN CHOICE, log entry 95) -/
def noticeLost (s : State) : State := streamLoss (flowStream s) 2 (notSent (flowStream s) 1 s)

/-- The message of a stream from its sets; the sequence number counts the data records of all earlier ones.
(DESIGN CHOICE, log entry 95) -/
def ipfixMessage (s : State) (st : Nat) (body : Bytes) : Bytes :=
  beBytes 2 10 ++ beBytes 2 (body.length + 16) ++ beBytes 4 (tod s).1 ++ beBytes 4 (tget 0 s.cnt.streamSeq st) ++
    beBytes 4 (cfgN s 0x7840 st 1) ++ body

/-- Data sets of records: neighbours of one template share a set. -/
def dataSets : List Bytes → Option (Nat × Bytes) → Bytes
  | [], none => []
  | [], some (t, b) => ipfixSet t b
  | r :: rest, open_ =>
    let t := beNat (r.take 2)
    match open_ with
    | some (u, b) => if u = t then dataSets rest (some (t, b ++ r.drop 2)) else ipfixSet u b ++ dataSets rest (some (t, r.drop 2))
    | none => dataSets rest (some (t, r.drop 2))

/-- The number of records at the head of a queue that fit in one message of at most m bytes, at least one.
(DESIGN CHOICE, log entry 95) -/
def messageFill (m : Nat) (q : List Bytes) : Nat :=
  (List.range q.length).foldl (fun n i => if (dataSets (q.take (i + 1)) none).length + 16 ≤ m then i + 1 else n) 1

/-- An Ethernet, IP and UDP frame of a stream with zero MACs (R440); identification, fragment flag and flow label are
free values. R440 gives only udp.dst's rule for the family: of a udp.src of the other family an IPv4 frame carries the
low 32 bits, an IPv6 frame all 128 bits. (DESIGN CHOICE, log entry 95) -/
def streamFrame (s : State) (st : Nat) (msg : Bytes) : Bytes × State :=
  let src := cfgB s (oa 0x7840 st 10)
  let dst := cfgB s (oa 0x7840 st 11)
  let n := msg.length + 8
  let udp0 := beBytes 2 (cfgN s 0x7840 st 12) ++ beBytes 2 (cfgN s 0x7840 st 13) ++ beBytes 2 n
  let v4 := beNat (dst.take 12) == 0xFFFF
  let a := if v4 then src.drop 12 else src
  let b := if v4 then dst.drop 12 else dst
  let c := inetChecksum (sum16 (a ++ b) + 17 + n) (udp0 ++ [0, 0] ++ msg)
  let udp := udp0 ++ beBytes 2 (if c = 0 then 65535 else c) ++ msg
  let dscp := cfgN s 0x7840 st 14
  let f1 := fresh 17 s
  let f2 := fresh 20 s
  if v4 then
    let hd := [(0x45 : Byte), BitVec.ofNat 8 (dscp * 4)] ++ beBytes 2 (n + 20) ++ beBytes 2 (f1.1.toNat / 2) ++
      beBytes 2 (f1.1.toNat % 2 * 16384) ++ [64, 17]
    let k := inetChecksum 0 (hd ++ a ++ b)
    (List.replicate 12 0 ++ beBytes 2 0x0800 ++ hd ++ beBytes 2 k ++ a ++ b ++ udp, f1.2)
  else
    (List.replicate 12 0 ++ beBytes 2 0x86DD ++ beBytes 4 (6 * 2 ^ 28 + dscp * 2 ^ 22 + f2.1.toNat) ++ beBytes 2 n ++
      [17, 64] ++ a ++ b ++ udp, f2.2)

/-- The number that stands for the device itself as source of a DIRECT injection: no transmit ring.
(DESIGN CHOICE, log entry 95) -/
def ownRing : Nat := 64

/-- Send a message of n data records over UDP (R440): a next hop of another kind drops it, event 0x0C04. -/
def streamUdp (st n : Nat) (msg : Bytes) (s : State) : State :=
  let nh := cfgN s 0x7840 st 8
  let e := nhEntry s nh
  if nhKind e ≠ 1 then raiseLimited 0x0C04 st (fun m => [st, nh, m]) s
  else
    let f := streamFrame s st msg
    let p := injected f.2 (nhPort e) (some ownRing) f.1
    if !injectRoom f.2 p then streamLoss st 1 (count 0x7841 st 2 f.2)
    else countN 0x7841 st 0 n (injectDirect p (nhPort e) (cfgN s 0x7840 st 15) (cfgN s 0x7840 st 9) 0 (some nh) f.2)

/-- Deliver a message of n data records to the stream's destination (R440, R441); a full ring drops it whole. -/
def streamDeliver (st n : Nat) (msg : Bytes) (s0 : State) : State :=
  let s := setCnt s0 { s0.cnt with streamSeq := tput s0.cnt.streamSeq st ((tget 0 s0.cnt.streamSeq st + n) % 2 ^ 32) }
  match streamDest s st with
  | 0 => s
  | 3 => streamUdp st n msg s
  | d =>
    let slots := max 1 (cfgN s 0x7840 st 5)
    let k := tget 0 s.cnt.streamProduced st
    if (k + 2 ^ 32 - cfgN s 0x7840 st 7) % 2 ^ 32 = slots then streamLoss st 1 (count 0x7841 st 2 s)
    else
      let a := cfgN s 0x7840 st 4 + k % slots * ((streamMtu s st + 63) / 64 * 64)
      let s1 := if d = 1 then hostWrite s a msg else hbmWrite s a msg
      countN 0x7841 st 0 n (setCnt s1 { s1.cnt with streamProduced := tput s1.cnt.streamProduced st ((k + 1) % 2 ^ 32) })

/-- Send one message from a stream's queue. -/
def streamSend (st : Nat) (s : State) : State :=
  let q := streamQueue s st
  if q.isEmpty then s
  else
    let n := messageFill (streamMtu s st) q
    let msg := ipfixMessage s st (dataSets (q.take n) none)
    let rest := q.drop n
    streamDeliver st n msg (setCnt s { s.cnt with
      streamQ := tset [] s.cnt.streamQ st rest
      streamFirst := tset 0 s.cnt.streamFirst st (if rest.isEmpty then 0 else raw s + 1) })

/-- A stream holds its queue: telemetry is in its lasting stop (R442). -/
def streamHeld (s : State) : Bool := fnStopped s .telemetry

/-- The message at the head of a queue is full: a record waits behind it, or no byte is left. -/
def messageFull (s : State) (st : Nat) : Bool :=
  let q := streamQueue s st
  let n := messageFill (streamMtu s st) q
  decide (n < q.length) || decide (streamMtu s st ≤ (dataSets q none).length + 16)

/-- Queue a data record of a template on a stream; the message goes when it is full (R439). -/
def queueRecord (st template : Nat) (data : Bytes) (s : State) : State :=
  let q := streamQueue s st
  if streamDest s st = 0 then s
  else if cfgN s 0x7840 st 18 ≤ q.length then streamLoss st 0 (notSent st 1 (count 0x7841 st 1 s))
  else
    let s1 := setCnt s { s.cnt with
      streamQ := tput s.cnt.streamQ st (q ++ [beBytes 2 template ++ data])
      streamFirst := if q.isEmpty then tput s.cnt.streamFirst st (raw s + 1) else s.cnt.streamFirst }
    if !streamHeld s && messageFull s1 st then streamSend st s1 else s1

/-- IPFIX_FLUSH: stream st sends its message, being full or flush after its first record (R439). -/
def execIpfixFlush (st : Nat) (s : State) : Host.Outcome State Fault Refusal :=
  let due := decide (tget 0 s.cnt.streamFirst st - 1 + cyc (cfgN s 0x7840 st 3) ≤ raw s) || messageFull s st
  if streamHeld s ∨ streamDest s st = 0 ∨ (streamQueue s st).isEmpty ∨ !due then .next s else .next (streamSend st s)

/-- TEMPLATE_REFRESH: stream st sends its template sets, at its start and every template_refresh after that (R439). -/
def execTemplateRefresh (st : Nat) (s : State) : Host.Outcome State Fault Refusal :=
  let last := tget 0 s.cnt.streamTemplate st
  if streamHeld s ∨ streamDest s st = 0 ∨ (last ≠ 0 ∧ raw s < last - 1 + cfgN s 0x7840 st 16 * cycSecond) then .next s
  else
    let s1 := setCnt s { s.cnt with streamTemplate := tput s.cnt.streamTemplate st (raw s + 1) }
    .next (streamDeliver st 0 (ipfixMessage s st templateSets) s1)

/-- Milliseconds of TOD now. -/
def todMs (s : State) : Nat := (tod s).1 * 1000 + (tod s).2 / 1000000

/-- STATS_INTERVAL: stream st sends a loss-statistics record every stats_interval (R441). -/
def execStatsInterval (st : Nat) (s : State) : Host.Outcome State Fault Refusal :=
  if streamDest s st = 0 ∨ raw s < tget 0 s.cnt.streamStats st + cfgN s 0x7840 st 17 * cycSecond then .next s
  else
    let d := beBytes 4 (cfgN s 0x7840 st 1) ++ beBytes 8 (tget 0 s.cnt.notSent st) ++ beBytes 8 (todMs s)
    .next (queueRecord st 266 d (setCnt s { s.cnt with streamStats := tput s.cnt.streamStats st (raw s) }))

/-- Send every queued record of a stream, as it does under its old settings before a change of destination or domain
takes force (R442). -/
def streamDrain (st : Nat) : Nat → State → State
  | 0, s => s
  | n + 1, s => if (streamQueue s st).isEmpty then s else streamDrain st n (streamSend st s)

/-- A stream starts anew: sequence number 0, templates due. -/
def streamAnew (st : Nat) (s : State) : State :=
  setCnt s { s.cnt with
    streamSeq := tset 0 s.cnt.streamSeq st 0
    streamTemplate := tset 0 s.cnt.streamTemplate st 0
    streamStats := tset 0 s.cnt.streamStats st (raw s) }

/-! ### Flow records (Table 15-3) -/

/-- Device milliseconds converted to TOD milliseconds through tu.ms.anchor. -/
def msToTod (s : State) (ms : Nat) : Nat :=
  let a := s.time.msAnchor
  ((a.2.1 * 1000 + a.2.2 / 1000000 : Nat) + signed32 ((ms + 2 ^ 32 - a.1 % 2 ^ 32) % 2 ^ 32)).toNat

/-- flowEndReason of an end reason (Tables 6-6, 15-3); 0 stands for a periodic record. -/
def endReason (r : Nat) : Nat := [2, 1, 3, 4, 4, 5, 5].getD r 5

/-- The template of a record: full with the end fields and totals, or a start record. -/
def flowTemplate (full : Bool) (x : FlowRec) : Nat := (if full then 256 else 258) + kFam x.key

/-- The data record of a flow record under its template. -/
def flowData (s : State) (full : Bool) (index reason : Nat) (x : FlowRec) : Bytes :=
  let v6 := kFam x.key == 1
  let e := kForward x.key
  let addr := fun (a : Nat) => if v6 then beBytes 16 a else beBytes 4 a
  let tr := stTrans x.st
  let nat := acNatAddr x.act
  let src := if stXlateDst x.st then natPeer s x.key e.1 nat else nat
  let dst := if stXlateDst x.st then nat else natPeer s x.key e.2.2.1 nat
  let sp := if stXlateDst x.st then e.2.1 else acNatPort x.act
  let dp := if stXlateDst x.st then acNatPort x.act else e.2.2.2
  let z := fun (n v : Nat) => beBytes n (if tr then v else 0)
  beBytes 8 index ++ beBytes 8 (msToTod s (cnFirst x.cnt)) ++ (if full then beBytes 8 (msToTod s (cnLast x.cnt)) else []) ++
    addr e.1 ++ addr e.2.2.1 ++ beBytes 2 e.2.1 ++ beBytes 2 e.2.2.2 ++ beBytes 1 (kProto x.key) ++ beBytes 4 (kZone x.key) ++
    (if full then beBytes 8 (bf x.cnt 255 216) ++ beBytes 8 (bf x.cnt 215 168) ++ beBytes 8 (bf x.cnt 167 128) ++
      beBytes 8 (bf x.cnt 127 80) else []) ++
    z 4 src ++ z 4 dst ++ z 2 sp ++ z 2 dp ++ (if full then beBytes 1 (endReason reason) else [])

/-- The flow is exported: SAMPLED takes only record indexes that sample_n divides (R436). -/
def sampledOut (s : State) (index : Nat) (x : FlowRec) : Bool :=
  (cnTelemetry x.cnt).testBit 3 && decide (index % max 1 (cfgN s 0x7832 0 0) ≠ 0)

/-! ### Objects (Table 15-5) -/

/-- Device-set objects of chapter 15. -/
def telemetryObj (a : Nat) (s : State) : Option Bytes :=
  let i := oaInst a
  let ix := oaIndex a
  let d := [0x7817, 0x7818].idxOf ix
  if ix = 0x7801 then
    let v := cfgN s 0x7800 i 0
    some (if v.testBit 31 then leBytes 16 (ctrGet s (ctrCell (0xF100 + i)) * 2 ^ 48 + ctrGet s (ctrAddr (v % 65536)))
      else leBytes 16 0)
  else if d = 0 then some (leBytes 4 (dumpSlotBytes s))
  else if d = 1 then some (leBytes 4 s.cnt.produced.toNat)
  else if ix = 0x7821 then some (bwBytes (bwOf s i))
  else if ix = 0x7840 ∧ oaSub a = 6 then some (leBytes 4 (tget 0 s.cnt.streamProduced i))
  else if 0x7880 ≤ ix ∧ ix < 0x7890 then some (leBytes 8 (ctrGet s (ctrAddr ((ix - 0x7880) * 4096 + i))))
  else none

end Sys2Proof.Machine
end

