-- ==== Sys2Proof/Machine/FlowServe.lean ====
section
/-! DEFINITION. The flow engine's service of packets: hits, TCP state, misses and their overflow, the miss budget
(5.4 to 5.6, 6.3, R219). -/
namespace Sys2Proof.Machine

/-! ### Templates (Table 6-1) -/

def tpValid (w : BitVec 512) : Bool := bit w 255
def tpKind (w : BitVec 512) : Nat := if tpValid w then bf w 254 252 else 0
def tpRoutine (w : BitVec 512) : Nat := bf w 251 244
def tpParam (w : BitVec 512) : Nat := bf w 243 236
def tpClassNew (w : BitVec 512) : Nat := bf w 235 232
def tpClassEst (w : BitVec 512) : Nat := bf w 231 228
def tpTcpCheck (w : BitVec 512) : Nat := bf w 227 226
def tpPickup (w : BitVec 512) : Bool := bit w 225
def tpPinned (w : BitVec 512) : Bool := bit w 224
def tpFail (w : BitVec 512) : Nat := if tpValid w then bf w 223 222 else 0
def tpFailRing (w : BitVec 512) : Nat := bf w 221 216
def tpDrop (w : BitVec 512) : Bool := bit w 215
def tpMirror (w : BitVec 512) : Nat := bf w 214 211
def tpTelemetry (w : BitVec 512) : Nat := bf w 210 207
def tpMeter (w : BitVec 512) : Nat := bf w 206 187
def tpService (w : BitVec 512) : Nat := bf w 186 171
def tpNhFwd (w : BitVec 512) : Nat := bf w 170 147
def tpNhRev (w : BitVec 512) : Nat := bf w 146 123
def tpEditFwd (w : BitVec 512) : Nat := bf w 122 111
def tpEditRev (w : BitVec 512) : Nat := bf w 110 99
def tpNatBase (w : BitVec 512) : Nat := bf w 98 79
def tpNatCm1 (w : BitVec 512) : Nat := bf w 78 59
def tpPortLo (w : BitVec 512) : Nat := bf w 58 43
def tpPortHi (w : BitVec 512) : Nat := bf w 42 27

/-- A template that nothing has written: the defaults of Table 6-1. -/
def tplReset : BitVec 512 := BitVec.ofNat 512 (2 ^ 228 + 1024 * 2 ^ 43 + 65535 * 2 ^ 27)

/-- A template in the bank of an epoch. -/
def template (s : State) (epoch n : Nat) : BitVec 512 := tget tplReset (bankOf s epoch).templates n

/-- A parameter set in the bank of an epoch. -/
def paramSet (s : State) (epoch n : Nat) : BitVec 512 := tget 0 (bankOf s epoch).params n

/-- The epoch pinned to a packet. -/
def pktEpoch (s : State) (pid : Nat) : Nat := (pkt s pid).epoch.getD s.ctl.epoch

/-! ### Overflow and fail_action (R164, R187) -/

/-- A packet takes its miss-overflow action: stateless forward or drop (R164). -/
def overflow (pid : Nat) (s : State) : State :=
  let p := pkt s pid
  let d := aOvfDrop (stageZero p.acts)
  let s1 := noteLately 0x0501 (if d then 48 + p.pipe else 32 + p.pipe)
    (count 0x4011 p.pipe (if d then 4 else 3) (modPkt pid (fun x => { x with flow := if d then 5 else 4 }) s))
  let depth := (tget [] s1.flow.missQ p.pipe).length
  raiseLimited 0x0501 p.pipe
    (fun _ => [p.pipe, seenLately 0x0501 (32 + p.pipe) s1, seenLately 0x0501 (48 + p.pipe) s1, depth]) s1

/-- A packet takes a template's fail_action (R187). -/
def failOne (n : Nat) (t : BitVec 512) (pid : Nat) (s : State) : State :=
  let p := pkt s pid
  match tpFail t with
  | 1 => count 0x4011 p.pipe 4 (modPkt pid (fun x => { x with flow := 5 }) s)
  | 2 => count 0x4040 n 0x0D (modPkt pid (fun x => { x with flow := 7, failRing := tpFailRing t }) s)
  | _ => count 0x4011 p.pipe 3 (modPkt pid (fun x => { x with flow := 4 }) s)

/-- Release the packets of a chain in order after a treatment of each (R153). -/
def releaseAll (f : Nat → State → State) (chain : List Nat) (s : State) : State :=
  chain.foldl (fun t pid => if isExpired t pid then dropPkt pid t else releasePkt pid (f pid t)) s

/-- A whole chain takes a template's fail_action. -/
def failChain (n : Nat) (t : BitVec 512) (chain : List Nat) (s : State) : State := releaseAll (failOne n t) chain s

/-! ### TCP (R178 to R180, Table 6-4) -/

/-- A TCP segment: its flags, sequence number, acknowledgement number, window and payload length. -/
structure Segment where
  flags : Nat
  seq : Nat
  ack : Nat
  win : Nat
  len : Nat

def Segment.fin (g : Segment) : Bool := g.flags.testBit 0
def Segment.syn (g : Segment) : Bool := g.flags.testBit 1
def Segment.rst (g : Segment) : Bool := g.flags.testBit 2
def Segment.acks (g : Segment) : Bool := g.flags.testBit 4

/-- The segment of a packet at its key level; none without a TCP header of its own, or with one cut off (R149).
(DEDUCED, log entry 55) -/
def segmentOf (p : Packet) : Option Segment :=
  match p.parse.bind (·.keyPair) with
  | none => none
  | some k =>
    if k.proto ≠ 6 ∨ k.quoted then none
    else match k.tcpFlags, k.l4 with
      | some f, some o => some
          { flags := f, seq := k.tcp.1, ack := k.tcp.2.1, win := k.tcp.2.2.1, len := k.stop - (o + k.tcp.2.2.2) }
      | _, _ => none

/-- Difference modulo 2^32 as a signed value. -/
def sdiff (a b : Nat) : Int := signed32 ((a + 2 ^ 32 - b % 2 ^ 32) % 2 ^ 32)

/-- TCP fields of a direction: state, sequence window end, window. -/
def tcpDir (w : BitVec 128) (rev : Bool) : Nat × Nat × Nat :=
  if rev then (stRev w, bf w 47 16, bf w 15 0) else (stFwd w, bf w 95 64, bf w 63 48)

/-- Replace the TCP state of a direction. -/
def setTcp (w : BitVec 128) (rev : Bool) (v : Nat) : BitVec 128 := if rev then putBf w 119 116 v else putBf w 123 120 v

/-- Replace the window fields of a direction. -/
def setWindow (w : BitVec 128) (rev : Bool) (e win : Nat) : BitVec 128 :=
  if rev then putBf (putBf w 47 16 e) 15 0 win else putBf (putBf w 95 64 e) 63 48 win

/-- The window check of R179. (DEDUCED, log entry 55) -/
def tcpPasses (scale : Nat) (w : BitVec 128) (rev : Bool) (g : Segment) : Bool :=
  let d := tcpDir w rev
  let o := tcpDir w (!rev)
  let l : Int := max (o.2.2 * 2 ^ scale) 65535
  let open_ := fun (x : Nat × Nat × Nat) => x.1 == 0 || (x.2.1 == 0 && x.2.2 == 0)
  (open_ d || (decide (sdiff (g.seq + g.len) d.2.1 ≤ l) && decide (sdiff d.2.1 g.seq ≤ 2 ^ 30))) &&
    (!g.acks || open_ o || (decide (sdiff g.ack o.2.1 ≤ 0) && decide (sdiff o.2.1 g.ack < 2 ^ 30)))

/-- The transition of Table 6-4 for a segment of direction d: the states of d and of the other direction, the class
that it sets, and whether it counts in tcp_syn_est. (DEDUCED, log entry 55) -/
def tcpMove (t : BitVec 512) (d o eo : Nat) (g : Segment) : Nat × Nat × Option Nat × Bool :=
  let acked := g.acks && g.ack == eo
  if g.rst then (5, o, some 15, false)
  else if d = 2 ∧ o = 0 then (d, o, none, false)
  else if (d = 1 ∨ d = 2) ∧ g.syn ∧ o = 2 then (d, o, none, true)
  else
    let a : Nat × Nat × Option Nat :=
      if d = 0 ∧ o = 0 then
        if g.syn && !g.acks then (1, o, some (tpClassNew t))
        else if tpPickup t then (2, o, some (tpClassNew t)) else (d, o, none)
      else if d = 0 ∧ o = 1 then if g.syn && acked then (1, o, none) else (d, o, none)
      else if d = 1 ∧ o = 1 then if acked then (2, 2, some (tpClassEst t)) else (d, o, none)
      else if d = 0 ∧ o = 2 then if g.syn then (d, o, none) else (2, o, some (tpClassEst t))
      else (d, o, none)
    let b : Nat × Nat × Option Nat := if g.fin ∧ (d = 1 ∨ d = 2) then (3, a.2.1, some 14) else a
    if o = 3 ∧ acked then (b.1, 4, some (if b.1 = 4 then 15 else 14), false) else (b.1, b.2.1, b.2.2, false)

/-- A segment at a record: the new state word, whether the answer drops it, and the state with its counts (R179).
(DEDUCED, log entry 55) -/
def tcpSegment (n : Nat) (t : BitVec 512) (w : BitVec 128) (rev : Bool) (g : Segment) (s : State) : BitVec 128 × Bool × State :=
  if tpTcpCheck t ≠ 0 ∧ !tcpPasses (cfgN s 0x4033 0 0) w rev g then (w, tpTcpCheck t == 2, count 0x4040 n 9 s)
  else
    let d := tcpDir w rev
    let e := (g.seq + g.len + b2n g.syn + b2n g.fin) % 2 ^ 32
    let e' := if d.1 = 0 ∨ 0 < sdiff e d.2.1 then e else d.2.1
    let w1 := setWindow w rev e' g.win
    let o := tcpDir w1 (!rev)
    let m := tcpMove t d.1 o.1 o.2.1 g
    let w2 := setTcp (setTcp w1 rev m.1) (!rev) m.2.1
    (match m.2.2.1 with
      | some c => putBf w2 115 112 c
      | none => w2, false, if m.2.2.2 then count 0x4040 n 0x0A s else s)

/-! ### A hit (R146, R150, R159) -/

/-- The direction of a packet served by line x (R146): true for reverse. -/
def lineReverse (s : State) (x : Nat) (k : BitVec 384) : Bool :=
  match lineAt s x with
  | some l => l.link || (!stTrans l.st && kSwap k != l.orient)
  | none => false

/-- Add a packet to the deltas of a direction. -/
def addPacket (l : Line) (rev : Bool) (len : Nat) : Line :=
  if rev then { l with dpr := l.dpr + 1, dbr := l.dbr + len } else { l with dpf := l.dpf + 1, dbf := l.dbf + len }

/-- One more packet would overflow a delta field (R159). -/
def deltaFull (l : Line) (rev : Bool) (len : Nat) : Bool :=
  if rev then decide (2 ^ 20 ≤ l.dpr + 1) || decide (2 ^ 28 ≤ l.dbr + len)
  else decide (2 ^ 20 ≤ l.dpf + 1) || decide (2 ^ 28 ≤ l.dbf + len)

/-- The answer for a packet (R150): the action of its direction. -/
def answerOf (l : Line) (link : Option Line) (rev drop : Bool) : FlowAnswer :=
  { record := l.record, nh := if rev then acNhRev l.act else acNhFwd l.act,
    edit := if rev then acEditRev l.act else acEditFwd l.act, mirror := l.mirror, telemetry := l.telemetry,
    drop := stDrop l.st || drop, meter := acMeter l.act,
    nat := if !stTrans l.st then none
      else match link with
        | some k => some (false, k.oAddr, k.oPort)
        | none => some (true, acNatIndex l.act, acNatPort l.act) }

/-- Serve a packet as a hit of line x of slice n, with flow as the mark it leaves on the packet (R150).
(DESIGN CHOICE, log entry 54) -/
def serveHit (n x pid flow : Nat) (s : State) : State :=
  match lineAt s x, (pkt s pid).key with
  | some l0, some k =>
    let px := if l0.link then l0.home else x
    let rev := lineReverse s x k
    let len := (pkt s pid).rxLen
    let s1 := touch px (if l0.link then touch x s else s)
    let s2 := match lineAt s1 px with
      | some l => if deltaFull l rev len then foldLine n px s1 else s1
      | none => s1
    match lineAt s2 px with
    | none => s
    | some l =>
      let t := template s2 (pktEpoch s2 pid) (stTemplate l.st)
      let first := rev && !stRevSeen l.st
      let st1 := if rev then putBf l.st 107 107 1 else l.st
      let st2 := if first ∧ kProto k ≠ 6 then putBf st1 115 112 (tpClassEst t) else st1
      let g := match segmentOf (pkt s2 pid) with
        | some g => tcpSegment n t st2 rev g s2
        | none => (st2, false, s2)
      let l' := { addPacket l rev len with st := g.1, last := devMs s2, dirty := true }
      let ans := answerOf l' (if l0.link then some l0 else none) rev g.2.1
      modPkt pid (fun p => { p with flow := flow, answer := some ans }) (setLine px l' g.2.2)
  | _, _ => s

/-- Serve a packet of a chain for its release: its record's meter is asked then (R150, R153, R280). -/
def serveRelease (n x flow : Nat) (pid : Nat) (s : State) : State :=
  let s1 := serveHit n x pid flow s
  match (pkt s1 pid).answer with
  | some a => if a.meter ≠ 0 then meterAsk pid a.meter s1 else s1
  | none => s1

/-- The line by which a record serves a key now: installed first where it is missing. -/
def lineToServe (n record : Nat) (k : BitVec 384) (s : State) : Option Nat × State :=
  match flowRec s record with
  | none => (none, s)
  | some r =>
    let p := installPrimary n record r s
    match recReverse p.2 r with
    | some rk =>
      if bareKey rk = bareKey k then
        let t := installLink n record p.1 r rk p.2
        (lineFind t n rk, t)
      else (some p.1, p.2)
    | none => (some p.1, p.2)

/-! ### Exceptions (R219) -/

/-- The routine that a hit is handed to: 7 ICMP_XLATE, 6 TCP_REUSE. (DESIGN CHOICE, log entry 58) -/
def exceptionOf (s : State) (x pid : Nat) : Option Nat :=
  let p := pkt s pid
  match lineAt s x, p.key with
  | some l0, some k =>
    match lineAt s (if l0.link then l0.home else x) with
    | none => none
    | some l =>
      let pw := (p.parse.map (·.word)).getD 0
      let rk := (flowRec s l.record).map (·.key) |>.getD k
      let nat := ((flowRec s l.record).map fun r => acNatAddr r.act).getD 0
      let t := template s (pktEpoch s pid) (stTemplate l.st)
      let closed := (stFwd l.st == 4 && stRev l.st == 4) || stFwd l.st == 5 || stRev l.st == 5
      let reuse := (paramSet s (pktEpoch s pid) (tpParam t)).toNat.testBit (13 * 8 + 3)
      if stTrans l.st ∧ (bit pw fIcmpErr ∨ (kIcmp k ∧ addrFam nat ≠ kFam rk)) then some 7
      else match segmentOf p with
        | some g => if g.syn ∧ !g.acks ∧ closed ∧ tpKind t = 4 ∧ reuse then some 6 else none
        | none => none
  | _, _ => none

/-- Hand a hit of line x to an exception routine under a hold entry, whose chain is the packet and those behind it
(R219): whether that was done. Without room for the entry or its item it was not (R224).
(DESIGN CHOICE, log entry 58) -/
def handOff (n x pid routine : Nat) (behind : List Nat) (s : State) : Bool × State :=
  let k := ((pkt s pid).key).getD 0
  let record := ((lineAt s x).map (·.record)).getD 0
  match freeHold s n with
  | none => (false, s)
  | some h =>
    let i := { newItem s routine 2 record with
      slice := n, epoch := pktEpoch s pid, record := record, desc := pid, data := h % 65536 }
    let r := submitItem i s
    if r.1 then
      (true, setHold h { emptyHold k 5 with
        pipe := (pkt s pid).pipe, epoch := pktEpoch s pid, chain := pid :: behind, since := raw s, record := record,
        template := ((lineAt s x).map fun l => stTemplate l.st).getD 0 }
        (modPkt pid (fun p => { p with flow := 3 }) r.2))
    else r

/-- Serve a chain as hits of a record and release it in order. A hit that an exception routine takes goes to it with the
packets behind it, but for a chain that is served against the existing record, flow 6 (R153, R219). -/
def serveChain (n record flow : Nat) (k : BitVec 384) : List Nat → State → State
  | [], s => s
  | pid :: rest, s =>
    if isExpired s pid then serveChain n record flow k rest (dropPkt pid s)
    else
      let r := lineToServe n record k s
      match r.1 with
      | none => serveChain n record flow k rest (releasePkt pid (overflow pid r.2))
      | some x =>
        let s1 := count 0x4020 n 0 r.2
        let h := match exceptionOf s1 x pid with
          | some e => if flow = 6 then (false, s1) else handOff n x pid e rest s1
          | none => (false, s1)
        if h.1 then h.2
        else
          let mark := if (exceptionOf s1 x pid).isSome then 6 else flow
          serveChain n record flow k rest (releasePkt pid (serveRelease n x mark pid h.2))

/-! ### LOOKUP (R149 to R151) -/

/-- Ask the record's meter for an answered packet (R150). -/
def askMeter (pid : Nat) (s : State) : State :=
  match (pkt s pid).answer with
  | some a => if a.meter ≠ 0 then meterAsk pid a.meter s else s
  | none => s

/-- Serve a lookup by line x: as a hit, or by an exception routine. -/
def lookupHit (n x pid : Nat) (s : State) : State :=
  let s1 := count 0x4020 n 0 s
  match exceptionOf s1 x pid with
  | some r =>
    let h := handOff n x pid r [] s1
    if h.1 then h.2 else askMeter pid (serveHit n x pid 6 h.2)
  | none => askMeter pid (serveHit n x pid 2 s1)

/-- A hot line reads with an uncorrectable error (R162): invalidated, its deltas reported as far as readable.
(DESIGN CHOICE, log entry 61) -/
def loseLine (n x : Nat) (readable : Bool) (s : State) : State :=
  match lineAt s x with
  | none => s
  | some l =>
    let f1 := fresh 20 s
    let f2 := fresh 28 f1.2
    let d := if readable then (l.dpf + l.dpr, l.dbf + l.dbr, s) else (f1.1.toNat, f2.1.toNat, f2.2)
    detect 2 0x0505 [n, l.record, d.1, d.2.1] (count 0x4020 n 0x0C (dropLine x d.2.2))

/-- A lookup joins a hold entry's chain, or finds it full (Table 5-8). (DESIGN CHOICE, log entry 59) -/
def joinChain (h pid : Nat) (x : Hold) (s : State) : State :=
  if cfgN s 0x4006 0 0 ≤ x.chain.length then overflow pid (count 0x4011 (pkt s pid).pipe 5 s)
  else setHold h { x with chain := x.chain ++ [pid] } (modPkt pid (fun p => { p with flow := 3 }) s)

/-- The hold table of a slice is full: counted, event 0x0502 (Table 5-8). (DESIGN CHOICE, log entry 58) -/
def holdFull (n : Nat) (s : State) : State := raiseLimited 0x0502 n (fun c => [n, c]) (count 0x4020 n 0x0A s)

/-- The old home slice of a key during the changeover, when the key's place changed (R191). -/
def oldHome (s : State) (k : BitVec 384) : Option Nat :=
  match s.flow.rehash with
  | some r =>
    if r.phase = 2 ∧ [0, 2, 3, 4].any (fun i => r.oldSeeds.getD i 0 != r.seeds.getD i 0)
    then some (seededCrc (r.oldSeeds.getD 0 0) (keyBytes k) % 16) else none
  | none => none

/-- A fetch joins its pipeline's miss queue. (DESIGN CHOICE, log entry 58) -/
def queueFetch (p h : Nat) (s : State) : State :=
  setFlow s { s.flow with missQ := tset [] s.flow.missQ p (tget [] s.flow.missQ p ++ [h]) }

/-- A lookup that finds neither line nor buffered line nor hold entry (Table 5-8, R164, R191). -/
def lookupMiss (n pid : Nat) (k : BitVec 384) (s : State) : State :=
  let p := (pkt s pid).pipe
  match freeHold s n with
  | none => overflow pid (holdFull n s)
  | some h =>
    if cfgN s 0x4010 p 1 ≤ (tget [] s.flow.missQ p).length then overflow pid s
    else
      let x := { emptyHold k 1 with
        pipe := p, epoch := pktEpoch s pid, chain := [pid], template := aTemplate (stageZero (pkt s pid).acts) }
      let s1 := setHold h x (modPkt pid (fun y => { y with flow := 3 }) s)
      match oldHome s1 k with
      | some _ => setFlow s1 { s1.flow with surrender := s1.flow.surrender ++ [(bareKey k, h)] }
      | none => queueFetch p h s1

/-- A buffered primary line in the form and under the seeds in force (R148). -/
def toForm (s : State) (n : Nat) (k : BitVec 384) (l : Line) : Line :=
  let own := ((flowRec s l.record).map (·.key)).getD k
  let wide := cfgOn s 0x4003 0 0
  { l with wide := wide, key := if wide then own else 0, fp := fingerprint (seedsAt s n k) own }

/-- Bring a buffered line back with its deltas and withdraw its writeback (R151, R158); it is installed in the form in
force (R148). -/
def reinstall (n i : Nat) (k : BitVec 384) (s : State) : Option (Nat × State) :=
  match (wbOf s n)[i]? with
  | none => none
  | some e =>
    let s1 := foldsGoOn n (issueReads e.line.record (setWb s n ((wbOf s n).eraseIdx i)))
    some (install n (hashSet (seedsAt s n k) k) { toForm s n k e.line with dirty := true } s1)

/-- The newest buffered line that matches a key, by its place in the buffer. -/
def wbMatch (s : State) (n : Nat) (k : BitVec 384) : Option Nat :=
  let l := wbOf s n
  let fp := fingerprint (seedsAt s n k) k
  (List.range l.length).reverse.find? fun i => match l[i]? with
    | some e => if e.line.wide then bareKey e.line.key == bareKey k else e.line.fp == fp
    | none => false

/-- Serve one lookup of slice n. (DESIGN CHOICE, log entry 54) -/
def lookupOne (n pid lost : Nat) (k : BitVec 384) (s : State) : State :=
  match holdFor s n k with
  | some h =>
    match holdAt s h with
    | some x => joinChain h pid x (if x.state = 5 then s else count 0x4011 (pkt s pid).pipe 0 s)
    | none => s
  | none =>
    let found := lineFind s n k
    let s1 := match found with
      | some x =>
        if lost ≠ 0 then loseLine n x (lost == 1) s
        else match lineAt s x with
          | some l => if l.link && !linkServes s l then dropLine x s else s
          | none => s
      | none => s
    match lineFind s1 n k with
    | some x => lookupHit n x pid s1
    | none =>
      match (wbMatch s1 n k).bind fun i => reinstall n i k s1 with
      | some (x, t) => lookupHit n x pid (count 0x4020 n 5 t)
      | none => lookupMiss n pid k (count 0x4011 (pkt s1 pid).pipe 0 s1)

/-- A lookup waits behind an earlier request of another kind for its record: an ageing decision that reached the slice
before it, or an awl's read of the record (R149). -/
def lookupWaits (s : State) (n pid : Nat) : Bool :=
  match (pkt s pid).key with
  | none => false
  | some k => (tget [] s.flow.ageQ n).any (fun a => decide (a.2 < (pkt s pid).turn) && recHasKey s a.1 k) ||
      (awlReads s).any fun r => recHasKey s r k

/-- The lookup that slice n serves next: its oldest that waits behind no other request (R149). -/
def lookupReady (s : State) (n : Nat) : Option Nat := (sliceReqs s n).find? fun pid => !lookupWaits s n pid

/-- Serve a lookup that waits at slice n. -/
def lookupServe (n lost pid : Nat) (s : State) : State :=
  let s1 := sliceServes n (setReqs s n ((sliceReqs s n).erase pid))
  match (pkt s pid).key with
  | none => s1
  | some k => if isExpired s pid then modPkt pid (fun p => { p with flow := 2 }) s1 else lookupOne n pid lost k s1

/-- LOOKUP: slice n serves its next lookup. lost: the hot line reads uncorrectable, 1 with its deltas readable,
2 without; 0 it reads well (R162). (DESIGN CHOICE, log entry 54) -/
def execLookup (n lost : Nat) (s : State) : Host.Outcome State Fault Refusal :=
  if flowHalted s ∨ sliceAsleep s n then .next s
  else match lookupReady s n with
    | none => .next s
    | some pid => .next (lookupServe n lost pid s)

/-! ### The miss budget (R163) -/

/-- Fill the reserved buckets and the pool bucket up to now. -/
def tokensFill (s : State) : State :=
  let dt := raw s - s.flow.filled
  let r := fun (p : Nat) => cfgN s 0x4010 p 0
  let tok := fun (p : Nat) => tget 0 s.flow.tokens p + r p * dt
  let excess := (List.range 16).foldl (fun n p => n + (tok p - 1600 * r p)) 0
  let sum := (List.range 16).foldl (fun n p => n + r p) 0
  setFlow s { s.flow with
    tokens := (List.range 16).foldl (fun t p => tset 0 t p (min (tok p) (1600 * r p))) s.flow.tokens
    pool := min (s.flow.pool + excess + (8000 - sum) * dt) 6400000
    filled := raw s }

/-- The pipeline that takes the next pool token: round-robin among those with an empty reserved bucket and a fetch. -/
def poolNext (s : State) : Option Nat :=
  ((List.range 16).map fun i => (s.flow.poolTurn + 1 + i) % 16).find? fun p =>
    decide (tget 0 s.flow.tokens p < 800) && !(tget [] s.flow.missQ p).isEmpty

/-- A token for pipeline p: from its reserved bucket, else from the pool in its turn. -/
def takeToken (p : Nat) (s : State) : Option State :=
  if 800 ≤ tget 0 s.flow.tokens p then
    some (count 0x4011 p 1 (setFlow s { s.flow with tokens := tset 0 s.flow.tokens p (tget 0 s.flow.tokens p - 800) }))
  else if 800 ≤ s.flow.pool ∧ poolNext s = some p then
    some (count 0x4011 p 2 (setFlow s { s.flow with pool := s.flow.pool - 800, poolTurn := p }))
  else none

/-- Buckets of a key to read, in search order: 2^40 layout + bucket, layout 1 the one in force (R138, R154). -/
def searchList (s : State) (k : BitVec 384) : List Nat :=
  (layouts s).flatMap fun l => (layBuckets l k).map fun b => (if l.building then 0 else 2 ^ 40) + b

/-- The layout and bucket of a search entry. (DESIGN CHOICE, log entry 54) -/
def searchAt (s : State) (c : Nat) : IdxLay × Nat :=
  (((layouts s).find? fun l => l.building == decide (c < 2 ^ 40)).getD (layNow s), c % 2 ^ 40)

/-- A fetch meets a retired pseudo-channel: its chain takes the miss-overflow action (Table 5-8). -/
def fetchRetired (h ch : Nat) (x : Hold) (s : State) : State :=
  let n := sliceOfHold h
  let s1 := raiseLimited 0x0506 ch (fun c => [ch, c]) (count 0x4020 n 0x0B (delHold h s))
  releaseAll overflow x.chain s1

/-- Issue the read of the first bucket on a fetch's list. -/
def readBucket (h : Nat) (x : Hold) (s : State) : State :=
  match x.buckets with
  | [] => s
  | c :: _ =>
    let b := searchAt s c
    if bucketGone s b.1 b.2 then fetchRetired h (bucketPc b.1 b.2) x s
    else hbmRequest 1 (b.1.base + 64 * b.2) 64 false
      (setHold h { x with cands := [], inB := b.2 != (layBuckets b.1 x.key).headD 0 } s)

/-- TOKEN_GRANTED: the fetch at the head of pipeline p's miss queue takes a token and starts (Table 5-9, step 1). -/
def execTokenGranted (p : Nat) (s : State) : Host.Outcome State Fault Refusal :=
  if flowHalted s then .next s
  else
    let s0 := tokensFill s
    match tget [] s0.flow.missQ p with
    | [] => .next s0
    | h :: rest =>
      match takeToken p s0, holdAt s0 h with
      | some s1, some x =>
        let s2 := setFlow s1 { s1.flow with missQ := tset [] s1.flow.missQ p rest }
        let x' := { x with state := 2, buckets := searchList s2 x.key }
        .next (readBucket h x' (count 0x4020 (sliceOfHold h) 1 (setHold h x' s2)))
      | _, _ => .next s0

end Sys2Proof.Machine
end

