-- ==== Sys2Proof/Machine/FlowSetup.lean ====
section
/-! DEFINITION. Fetches, setups, insertion failures, removal and ageing of flows (5.4, 6.1, 6.4, 6.5). -/
namespace Sys2Proof.Machine

/-! ### Insertion failure (R187) -/

/-- Failures of the last second by cause, of a slice. -/
def failsLately (n : Nat) (s : State) : List Nat :=
  [1, 2, 3, 4, 5, 6, 7].map fun c => seenLately 0x0508 (256 + 8 * n + c) s

/-- Count an insertion failure and report it (R187, Table 6-13). -/
def noteFailure (n cause : Nat) (s : State) : State :=
  let s1 := noteLately 0x0508 (256 + 8 * n + cause) (count 0x4041 n cause s)
  raiseLimited 0x0508 n (fun _ => n :: failsLately n s1) s1

/-- The chain of a hold entry and that of the entry of the flow's other key, forward chain first. -/
def bothChains (h : Nat) (s : State) : List Nat :=
  match holdAt s h with
  | none => []
  | some x => x.chain ++ ((x.other.bind (holdAt s)).map (·.chain)).getD []

/-- Remove a hold entry and the entry of the flow's other key. -/
def delBoth (h : Nat) (s : State) : State :=
  match (holdAt s h).bind (·.other) with
  | some o => delHold o (delHold h s)
  | none => delHold h s

/-- A setup fails (R187): its index returns to its chain, its chains take fail_action. -/
def insertFail (h cause : Nat) (s : State) : State :=
  match holdAt s h with
  | none => s
  | some x =>
    let n := sliceOfHold h
    let t := template s x.epoch x.template
    let chain := bothChains h s
    let s1 := match x.setup with
      | some u => chainPush u.record s
      | none => s
    failChain n t chain (noteFailure n cause (delBoth h s1))

/-! ### Setup (R168 to R171, Table 6-2) -/

/-- An age-out of the key less than 1,000 ms old stands in the reborn table (R185). -/
def isReborn (s : State) (n : Nat) (k : BitVec 384) : Bool :=
  (tget [] s.flow.reborn n).any fun r =>
    r.1 == fingerprint (seedsNow s) k && decide ((devMs s + 2 ^ 32 - r.2) % 2 ^ 32 < 1000)

/-- The record of a new flow (Table 6-2, step 1). -/
def newRecord (s : State) (n tn : Nat) (t : BitVec 512) (k : BitVec 384) : FlowRec :=
  let ms := if devMs s = 0 then 1 else devMs s
  let f := fun (v lo w : Nat) => v % 2 ^ w * 2 ^ lo
  { key := k
    st := BitVec.ofNat 128 (f 2 124 4 + f (tpClassNew t) 112 4 + f (b2n (isReborn s n k)) 111 1 + f (b2n (tpDrop t)) 109 1 +
      f (b2n (tpPinned t)) 108 1 + f tn 96 8)
    cnt := BitVec.ofNat 256 (f ms 48 32 + f ms 16 32 + f (tpTelemetry t) 12 4 + f (tpMirror t) 8 4 + f (tpClassNew t) 4 4)
    act := BitVec.ofNat 256 (f (tpNhFwd t) 232 24 + f (tpNhRev t) 208 24 + f (tpEditFwd t) 196 12 + f (tpEditRev t) 184 12 +
      f (tpMeter t) 164 20) }

/-- An SNAT record with its address and port (R170). -/
def snatRecord (x : FlowRec) (index addr port : Nat) : FlowRec :=
  { x with
    st := putBf x.st 110 110 1
    act := putBf (putBf (putBf x.act 163 144 index) 143 128 port) 127 0 addr }

/-- What the search for an SNAT port comes to. -/
inductive SnatPick where
  | none
  | gone
  | port (p : Nat) (rk : BitVec 384)

/-- The search of R170: left candidates to step through, reads left for those that share the slice.
(DESIGN CHOICE, log entry 60) -/
def snatSearch (s : State) (n : Nat) (k : BitVec 384) (addr lo size h2 : Nat) : Nat → Nat → Nat → SnatPick
  | 0, _, _ => .none
  | m + 1, i, reads =>
    let p := lo + (h2 % 65536 + i) % max 1 size
    let rk := reverseKey s k false addr p
    if homeSlice s rk ≠ n then snatSearch s n k addr lo size h2 m (i + 1) reads
    else match reads with
      | 0 => .none
      | j + 1 =>
        if (layouts s).any fun l => (layBuckets l rk).any (bucketGone s l) then .gone
        else if (idxFind s rk).isSome || (holdFor s n rk).isSome then snatSearch s n k addr lo size h2 m (i + 1) j
        else .port p rk

/-- The forward source of a key. -/
def fwdSource (k : BitVec 384) : Nat := (kForward k).1

/-- The SNAT choice of a template for a key: address table entry, address and port (R170).
(DESIGN CHOICE, log entry 60) -/
def snatPick (s : State) (n : Nat) (t : BitVec 512) (k : BitVec 384) : Nat × Nat × SnatPick :=
  let a := (tpNatBase t + seededCrc (flowSeed s 2) (beBytes 16 (fwdSource k)) % (tpNatCm1 t + 1)) % 2 ^ 20
  let addr := (tget (0 : BitVec 128) s.fwd.natab a).toNat
  (a, addr, snatSearch s n k addr (tpPortLo t) (tpPortHi t - tpPortLo t + 1) (keyHash s 2 k) 256 0 4)

/-- The domain ID of an item (R225). -/
def domainId (s : State) (basis service record ring : Nat) (k : BitVec 384) : Nat :=
  match basis with
  | 1 => keyHash s 1 k
  | 2 => seededCrc (flowSeed s 2) (beBytes 16 (fwdSource k))
  | 3 => service
  | 4 => record
  | 5 => ring
  | _ => 0

/-- Hand a setup to its template's routine (R171); a refused item ends the setup with cause ROUTINE (R224). -/
def setupRoutine (h : Nat) (t : BitVec 512) (k : BitVec 384) (pid epoch : Nat) (s : State) : State :=
  let n := sliceOfHold h
  let i0 := newItem s (tpRoutine t) 1 0
  let i := { i0 with
    param := tpParam t, epoch := epoch, slice := n, desc := pid, data := h % 65536,
    domain := domainId s i0.basis (tpService t) 0 0 k }
  let r := submitItem i s
  if r.1 then r.2 else insertFail h 5 r.2

/-- Release a chain whose service has no backend by the service's fallback (Table 6-2, step 2).
(DESIGN CHOICE, log entry 60) -/
def fallBack (h fall : Nat) (s : State) : State :=
  releaseAll (fun pid t => modPkt pid (fun p => { p with flow := 2, fall := some fall }) t) (bothChains h s) (delBoth h s)

/-- The setup engine takes a hold entry (Table 6-2, steps 1 to 3). (DESIGN CHOICE, log entry 60) -/
def setupHardware (h tn : Nat) (t : BitVec 512) (k : BitVec 384) (pid : Nat) (s : State) : State :=
  let n := sliceOfHold h
  match drawRecord n (drawFuel s) s, holdAt s h with
  | some (r, s1), some x =>
    let rec_ := newRecord s1 n tn t k
    let keep := fun (img : FlowRec) (rk : Option (BitVec 384)) (z : State) =>
      setHold h { x with setup := some { record := r, image := img, rkey := rk, written := false } } z
    match tpKind t with
    | 2 =>
      let e := svEntry s1 (tpService t)
      let back := if svValid e then lbSearch s1 (svTable e) true 8 (keyHash s1 2 k % 65537) else none
      match back with
      | some nh => keep { rec_ with act := putBf rec_.act 255 232 nh } none s1
      | none =>
        let s2 := if svValid e then noBackend (groupOf (pkt s1 pid).pipe) (tpService t) s1 else s1
        fallBack h (svFallback e) (chainPush r s2)
    | 3 =>
      let c := snatPick s1 n t k
      match c.2.2 with
      | .none => insertFail h 3 (keep rec_ none s1)
      | .gone => insertFail h 6 (keep rec_ none s1)
      | .port p rk =>
        let img := snatRecord rec_ c.1 c.2.1 p
        match freeHold s1 n with
        | none => insertFail h 7 (keep rec_ none (holdFull n s1))
        | some o =>
          let y := { emptyHold rk 3 with
            pipe := x.pipe, template := x.template, epoch := x.epoch, since := raw s1, reverse := true, other := some h }
          setHold o y (setHold h { x with
            setup := some { record := r, image := img, rkey := some rk, written := false }, other := some o } s1)
    | _ => keep rec_ none s1
  | _, _ => insertFail h 2 s

/-- A hold entry enters SETUP under the template of its first packet (R168). -/
def enterSetup (h : Nat) (s : State) : State :=
  match holdAt s h with
  | none => s
  | some x =>
    match x.chain with
    | [] => delHold h s
    | pid :: _ =>
      let n := sliceOfHold h
      let p := pkt s pid
      let k := p.key.getD x.key
      let tn := aTemplate (stageZero p.acts)
      let e := pktEpoch s pid
      let t := template s e tn
      let s1 := setHold h { x with
        state := 3, since := raw s, pipe := p.pipe, template := tn, epoch := e, buckets := [], cands := [], setup := none } s
      let syn := match segmentOf p with
        | some g => g.syn && !g.acks
        | none => false
      if kProto k = 6 ∧ !syn ∧ !tpPickup t then failChain n t x.chain (count 0x4040 n 3 (delHold h s1))
      else match tpKind t with
        | 1 => setupHardware h tn t k pid s1
        | 2 => setupHardware h tn t k pid s1
        | 3 => setupHardware h tn t k pid s1
        | 4 => setupRoutine h t k pid e s1
        | _ => failChain n t x.chain (count 0x4040 n 2 (delHold h s1))

/-! ### Fetches (Table 5-9) -/

/-- The search of a fetch ends without a match, or goes on with its next bucket. -/
def nextBucket (h : Nat) (x : Hold) (s : State) : State :=
  match x.buckets with
  | _ :: c :: rest => readBucket h { x with buckets := c :: rest, cands := [] } s
  | _ => enterSetup h (count 0x4020 (sliceOfHold h) 4 s)

/-- Read the record of a fetch's first candidate, or go on when there is none. While a writeback of the record is
pending the read is not issued (R158). -/
def readRecord (h : Nat) (x : Hold) (s : State) : State :=
  match x.cands with
  | [] => nextBucket h x s
  | c :: _ =>
    if recGone s (c / 2) then fetchRetired h (recPc s (c / 2)) x s
    else issueReads (c / 2) (setHold h { x with readWaits := true } s)

/-- A read of a fetch fails uncorrectably: its chain takes fail_action with cause FAULT (Table 6-7). -/
def fetchFault (h : Nat) (x : Hold) (s : State) : State :=
  match x.chain with
  | [] => delHold h s
  | pid :: _ =>
    insertFail h 6 (setHold h { x with template := aTemplate (stageZero (pkt s pid).acts), epoch := pktEpoch s pid, setup := none } s)

/-- BUCKET_ARRIVAL: the bucket that hold entry h waits for arrives; bad: its read is uncorrectable (R152). -/
def execBucketArrival (h : Nat) (bad : Bool) (s : State) : Host.Outcome State Fault Refusal :=
  match holdAt s h with
  | none => .next s
  | some x =>
    match x.buckets with
    | [] => .next s
    | c :: _ =>
      if flowHalted s ∨ x.state ≠ 2 ∨ !x.cands.isEmpty then .next s
      else if bad then .next (fetchFault h x s)
      else
        let b := searchAt s c
        .next (readRecord h { x with cands := bucketMatches s b.1 b.2 x.key } s)

/-- A fetch finds its record: the lines are installed and the chain is released as hits (Table 5-9, step 5). -/
def fetchFound (h c : Nat) (x : Hold) (s : State) : State :=
  let n := sliceOfHold h
  let s1 := delHold h (count 0x4020 n (if x.inB then 3 else 2) s)
  serveChain n (c / 2) 2 x.key x.chain (lineToServe n (c / 2) x.key s1).2

/-- RECORD_ARRIVAL: the record that hold entry h waits for arrives. One whose record has a writeback pending by then is
read anew once that is written (R158). -/
def execRecordArrival (h : Nat) (bad : Bool) (s : State) : Host.Outcome State Fault Refusal :=
  match holdAt s h with
  | none => .next s
  | some x =>
    match x.cands with
    | [] => .next s
    | c :: rest =>
      if flowHalted s ∨ x.state ≠ 2 ∨ x.readWaits then .next s
      else if !(wbEntries s (c / 2)).isEmpty then .next (setHold h { x with readWaits := true } s)
      else if bad then .next (fetchFault h x s)
      else if keyIs s c x.key then .next (fetchFound h c x s)
      else .next (readRecord h { x with cands := rest } s)

/-! ### The end of a setup (Table 6-2, steps 4 to 6) -/

/-- Write a flow's index entries: the reverse entry first (R139, R169); a failure clears what was written. -/
def writeIndex (record : Nat) (k : BitVec 384) (rk : Option (BitVec 384)) (s : State) : Nat ⊕ State :=
  let rev : Nat ⊕ State := match rk with
    | none => .inr s
    | some r => idxAdd r record 1 s
  match rev with
  | .inl c => .inl c
  | .inr t => match idxAdd k record 0 t with
    | .inl c => .inl c
    | .inr u => .inr u

/-- Install the lines of a committed record (Table 6-2, step 4). -/
def installLines (n record : Nat) (x : FlowRec) (rk : Option (BitVec 384)) (s : State) : State :=
  let p := installPrimary n record x s
  match rk with
  | some r => installLink n record p.1 x r p.2
  | none => p.2

/-- A start record is triggered for a committed flow (R437). -/
def startTrigger (n record : Nat) (x : FlowRec) (s : State) : State :=
  if (cnTelemetry x.cnt).testBit 1 then
    let r := submitItem { newItem s 9 4 record with slice := n, record := record, data := 1 } s
    if r.1 then r.2 else triggerLost r.2
  else s

/-- SETUP_READS_COMPLETE: the reads of hold entry h's setup are in: the record and its entries are written and its
lines installed; bad: a read was uncorrectable. -/
def execSetupReadsComplete (h : Nat) (bad : Bool) (s : State) : Host.Outcome State Fault Refusal :=
  match holdAt s h with
  | none => .next s
  | some x =>
    match x.setup with
    | none => .next s
    | some u =>
      if flowHalted s ∨ x.state ≠ 3 ∨ u.written then .next s
      else if bad ∨ recGone s u.record then .next (insertFail h 6 s)
      else
        let n := sliceOfHold h
        let s1 := putRec u.record u.image (hbmRequest 3 (recAddr s u.record) 128 true s)
        match writeIndex u.record u.image.key u.rkey s1 with
        | .inl c => .next (insertFail h c s)
        | .inr s2 =>
          let s3 := installLines n u.record u.image u.rkey s2
          let s4 := if stReborn u.image.st then count 0x4040 n 7 s3 else s3
          .next (setHold h { x with setup := some { u with written := true } } s4)

/-- Serve and release the chains of a written setup, the forward chain first (Table 6-2, step 5). -/
def setupRelease (h counter : Nat) (s : State) : State :=
  match holdAt s h with
  | none => s
  | some x =>
    match x.setup with
    | none => s
    | some u =>
      let n := sliceOfHold h
      let rev := (x.other.bind (holdAt s)).map (·.chain) |>.getD []
      let s1 := delBoth h s
      let s2 := serveChain n u.record 2 u.image.key x.chain s1
      let s3 := match u.rkey with
        | some rk => serveChain n u.record 2 rk rev s2
        | none => s2
      startTrigger n u.record u.image (count 0x4040 n counter s3)

/-- SETUP_WRITES_ACKNOWLEDGED: the writes of hold entry h's setup are acknowledged. -/
def execSetupWritesAcknowledged (h : Nat) (s : State) : Host.Outcome State Fault Refusal :=
  match (holdAt s h).bind (·.setup) with
  | some u => if u.written && !flowHalted s then .next (setupRelease h 0 s) else .next s
  | none => .next s

/-! ### Items of a hold entry (R230) -/

/-- Remove the item of a hold entry that is not yet dispatched; one that a fault brought back to its class has been
dispatched before, and leaves its domain's count too (R225, R230, R231). -/
def dropHoldItem (h : Nat) (s : State) : State :=
  let mine := fun (i : Item) => (i.source == 1 || i.source == 2) && i.slice == sliceOfHold h && i.data % 65536 == h % 65536
  (List.range 8).foldl (fun t k =>
    match (readyItems t k).find? mine with
    | some i => domainReleased i (setReady t k ((readyItems t k).filter fun j => !mine j))
    | none => match (frontItems t k).find? fun j => mine j.1 && j.2.isNone with
      | some j => domainReleased j.1 (leaveOut j.1 (setFront t k ((frontItems t k).filter fun z => !(mine z.1 && z.2.isNone))))
      | none => t) s

/-- The chain of an exception is served against the existing record (R219). (DESIGN CHOICE, log entry 58) -/
def exceptionServe (h : Nat) (s : State) : State :=
  match holdAt s h with
  | none => s
  | some x => serveChain (sliceOfHold h) x.record 6 x.key x.chain (delHold h s)

/-- SETUP_TIMEOUT: hold entry h has stayed in SETUP for flow.setup.timeout (R171). -/
def execSetupTimeout (h : Nat) (s : State) : Host.Outcome State Fault Refusal :=
  match holdAt s h with
  | none => .next s
  | some x =>
    let due := decide (x.since + cyc (cfgN s 0x4032 0 0) ≤ raw s)
    let written := (x.setup.map (·.written)).getD false
    if flowHalted s ∨ !due ∨ written ∨ x.reverse ∨ (x.state ≠ 3 ∧ x.state ≠ 5) then .next s
    else
      let n := sliceOfHold h
      let t := template s x.epoch x.template
      let s1 := noteLately 0x0509 n s
      let s2 := raise 0x0509 [n, x.template, tpRoutine t, seenLately 0x0509 n s1] (dropHoldItem h s1)
      .next (if x.state = 5 then exceptionServe h s2 else insertFail h 4 s2)

/-! ### Removal (R184 to R186) -/

/-- The end notice of a removed flow: its final image and trailer (Table 6-6). -/
def endNotice (s : State) (n record reason : Nat) (img : FlowRec) : Bytes :=
  recBytes img ++ leBytes 16 (devMs s * 2 ^ 96 + record % 2 ^ 29 * 2 ^ 67 + n % 16 * 2 ^ 63 + reason % 256 * 2 ^ 48)

/-- Pass an end notice to export (R186, R224). -/
def exportEnd (n record reason : Nat) (img : FlowRec) (s : State) : State :=
  if (cfgN s 0x4034 0 0).testBit (reason - 1) then
    let r := submitItem { newItem s 8 3 0 with slice := n, record := record, bytes := endNotice s n record reason img } s
    if r.1 then r.2 else noticeLost (raiseLimited 0x050B n (fun c => [n, c]) (count 0x4040 n 0x0B r.2))
  else s

/-- Note an aged key in the reborn table (R185). -/
def noteReborn (n : Nat) (k : BitVec 384) (s : State) : State :=
  let t := tget [] s.flow.reborn n
  let full := decide (8192 ≤ t.length)
  let t' := (if full then t.drop 1 else t) ++ [(fingerprint (seedsNow s) k, devMs s)]
  let s1 := setFlow s { s.flow with reborn := tput s.flow.reborn n t' }
  if full then count 0x4040 n 8 s1 else s1

/-- A RETIRING entry for a key, when the key has no entry and the table has room. (DESIGN CHOICE, log entry 59) -/
def retireKey (n : Nat) (k : BitVec 384) (s : State) : State :=
  match holdFor s n k, freeHold s n with
  | none, some h => setHold h (emptyHold k 4) s
  | _, _ => s

/-- End a flow (R184): its lines, entries and record go, with an end notice of an image where there is one. -/
def flowEnd (record reason : Nat) (image : Option FlowRec) (s : State) : State :=
  match flowRec s record with
  | some r =>
    let n := homeSlice s r.key
    let rk := recReverse s r
    let s1 := (linesOf s record).foldl (fun t x => dropLine x t) s
    let s2 := setFlow s1 { s1.flow with
      wb := (s1.flow.wb.map fun w => (w.1, w.2.filter fun e => e.line.record != record)).filter fun w => !w.2.isEmpty
      visits := tdel s1.flow.visits record
      ageQ := (s1.flow.ageQ.map fun w => (w.1, w.2.filter (·.1 != record))).filter fun w => !w.2.isEmpty
      nominated := s1.flow.nominated.filter (· != record)
      rehash := s1.flow.rehash.map fun z => { z with newOnly := z.newOnly.filter (· != record) } }
    let s3 := retireKey n r.key (foldsGoOn n (issueReads record s2))
    let s4 := match rk with
      | some k => idxClear k record 1 (retireKey n k s3)
      | none => s3
    let s4a := idxClear r.key record 0 s4
    let s5 := match image with
      | some img => exportEnd n record reason img s4a
      | none => s4a
    let s6 := setFlow s5 { s5.flow with records := tdel s5.flow.records record }
    let s7 := if record < s6.flow.nr then chainPush record s6 else s6
    let s8 := if reason = 1 then count 0x4040 n 5 s7 else if reason = 2 then count 0x4040 n 6 s7 else s7
    if reason = 1 ∨ reason = 2 then noteReborn n r.key s8 else s8
  | none => s

/-- Remove a flow with the final image of its record (R184). -/
def flowRemove (record reason : Nat) (s : State) : State := flowEnd record reason (mergedRec s record) s

/-- What a primary line alone gives of its record. (DESIGN CHOICE, log entry 61) -/
def lineImage (l : Line) : FlowRec :=
  mergeLine { key := l.key, st := 2 <<< 124, cnt := putBf (putBf 0 15 12 l.telemetry) 11 8 l.mirror, act := l.act } l

/-- End a flow whose record or entry lies on a retired pseudo-channel (R190): its primary line is exported where it
has one. (DESIGN CHOICE, log entry 61) -/
def flowFault (record : Nat) (s : State) : State :=
  match flowRec s record with
  | none => s
  | some r =>
    let img := ((primaryOf s record).bind (lineAt s)).map lineImage
    count 0x4040 (homeSlice s r.key) 0x0C (flowEnd record 6 img s)

/-- The RETIRING entries of a slice end: empty ones go, the others move to SETUP (R184).
(DESIGN CHOICE, log entry 59) -/
def removalEnd (n : Nat) (s : State) : State :=
  ((holdsOf s n).filter fun r => r.2.state == 4).foldl (fun t r => enterSetup r.1 t) s

/-- REMOVAL_COMPLETE: the removals of slice n complete. -/
def execRemovalComplete (n : Nat) (s : State) : Host.Outcome State Fault Refusal :=
  if flowHalted s then .next s else .next (removalEnd n s)

/-! ### Writeback, fold and ageing -/

/-- WRITEBACK: slice n writes back the oldest line of its buffer (R156, R158). -/
def execWriteback (n : Nat) (s : State) : Host.Outcome State Fault Refusal :=
  if flowHalted s then .next s else .next (wbDrain n s)


/-- Milliseconds since a last_seen (R181). -/
def idleMs (s : State) (last : Nat) : Nat := (devMs s + 2 ^ 32 - last) % 2 ^ 32

/-- The timeout of a class in ms. -/
def classTimeout (s : State) (c : Nat) : Nat := cfgN s 0x4030 c 0 * 1000

/-- The scanner's periodic export at a visit of a record (R437). -/
def nominate (r : Nat) (x : FlowRec) (s : State) : State :=
  if !(cnTelemetry x.cnt).testBit 2 then s
  else
    let a := max 1 (cfgN s 0x7831 0 0 * 1000)
    let q := idleMs s (cnFirst x.cnt) / a
    let s1 := setFlow s { s.flow with visits := tset 0 s.flow.visits r q }
    if tget 0 s.flow.visits r < q ∧ idleMs s (cnLast x.cnt) ≤ a then
      setFlow s1 { s1.flow with nominated := s1.flow.nominated.filter (· != r) ++ [r] }
    else s1

/-- AGE_SCAN: the scanner visits record r (R182, R437). -/
def execAgeScan (r : Nat) (s : State) : Host.Outcome State Fault Refusal :=
  if flowHalted s ∨ !cfgOn s 0x4031 0 0 ∨ recGone s r then .next s
  else match flowRec s r with
    | none => .next s
    | some x =>
      let s1 := nominate r x s
      if idleMs s (cnLast x.cnt) < classTimeout s (cnClass x.cnt) ∨ stPinned x.st then .next s1
      else
        let n := homeSlice s x.key
        let q := tget [] s1.flow.ageQ n
        .next (setFlow s1 { s1.flow with ageQ := tput s1.flow.ageQ n (q ++ [(r, s1.path.turns)]) })

/-- The setup of a record lies between its writes and its release: requests for the record wait (R169). -/
def inWrites (s : State) (record : Nat) : Option Nat :=
  (s.flow.holds.find? fun r => match r.2.setup with
    | some u => u.written && u.record == record
    | none => false).map (·.1)

/-- The reason of an age-out: TCP_CLOSED or AGED (R186). -/
def ageReason (r : FlowRec) : Nat :=
  let f := stFwd r.st
  let v := stRev r.st
  if stClass r.st = 15 ∧ kProto r.key = 6 ∧ ((f = 4 ∧ v = 4) ∨ f = 5 ∨ v = 5) then 2 else 1

/-- Slice n decides its oldest ageing request against the newest copy (R183); a written setup or an awl's read of the
record goes first (R149, R169). -/
def ageServe (n : Nat) (s : State) : State :=
  match tget [] s.flow.ageQ n with
  | [] => s
  | (r, _) :: rest =>
    if (inWrites s r).isSome || (awlReads s).contains r then s
    else
      let s1 := sliceServes n (setFlow s { s.flow with ageQ := tset [] s.flow.ageQ n rest })
      match mergedRec s r with
      | none => s1
      | some x =>
        if idleMs s (cnLast x.cnt) < classTimeout s (stClass x.st) then s1 else flowRemove r (ageReason x) s1

/-- AGE_DECIDE: slice n decides its oldest ageing request, once no lookup is ready to be served (R27, R149). -/
def execAgeDecide (n : Nat) (s : State) : Host.Outcome State Fault Refusal :=
  if flowHalted s ∨ sliceAsleep s n ∨ (lookupReady s n).isSome then .next s else .next (ageServe n s)

/-- Serve the requests that wait at slice n: lookups, then ageing decisions, up to a number (R27, R149). -/
def drainSlice (n : Nat) : Nat → State → State
  | 0, s => s
  | m + 1, s => match lookupReady s n with
    | some pid => drainSlice n m (lookupServe n 0 pid s)
    | none =>
      let t := ageServe n s
      if (tget [] t.flow.ageQ n).length = (tget [] s.flow.ageQ n).length then s else drainSlice n m t

/-- What reached slice n before a request of a lower priority, or for the same record, is served first (R27, R149).
-/
def sliceDrain (n : Nat) (s : State) : State :=
  if flowHalted s then s else drainSlice n ((sliceReqs s n).length + (tget [] s.flow.ageQ n).length) s

/-- FOLD_PERIOD: once flow.fold.period has passed since its last, slice n folds every dirty primary line without evicting
it, after the requests that wait (R27, R158, R160). -/
def execFoldPeriod (n : Nat) (s : State) : Host.Outcome State Fault Refusal :=
  if flowHalted s ∨ raw s < tget 0 s.flow.folded n + cyc (cfgN s 0x4005 0 0) then .next s
  else
    let s1 := sliceDrain n (setFlow s { s.flow with folded := tset 0 s.flow.folded n (raw s), foldWait := tset [] s.flow.foldWait n [] })
    .next ((s1.flow.lines.filter fun r => r.1 / 131072 == n && r.2.dirty && !r.2.link).foldl (fun t r => foldPeriodic n r.1 t) s1)

end Sys2Proof.Machine
end

