-- ==== Sys2Proof/Machine/OpSlots.lean ====
section
/-! DEFINITION. Long-operation slots: their records, progress and end (2.9). -/
namespace Sys2Proof.Machine

/-- Replace a long-operation slot. -/
def setOp (s : State) (n : Nat) (o : LongOp) : State := setCtl s { s.ctl with ops := tput s.ctl.ops n o }

/-- Packets of the old epoch that are still in the device. -/
def oldEpochLeft (s : State) : Nat :=
  match s.ctl.drain with
  | some d => tget 0 s.ctl.epochCount d.old
  | none => 0

/-- A PATTERN_COMMIT that has not begun: its progress follows the drain it waits for (R71). -/
def opAwaitsDrain (o : LongOp) : Bool := o.kind == 10 && (o.state == 1 || o.state == 3)

/-- An operation with its progress as it stands now: of a PATTERN_COMMIT that waits, the old-epoch packets still in the
device and those drained since it was created (R71). Its total field holds their sum. -/
def opProgressed (s : State) (o : LongOp) : LongOp :=
  if opAwaitsDrain o then { o with done := o.total - oldEpochLeft s, total := oldEpochLeft s } else o

/-- Enter a final state: 5 DONE, 6 FAILED, 7 CANCELLED; event 0x0D08 (R69). -/
def opFinish (n final result : Nat) (s : State) : State :=
  match tfind s.ctl.ops n with
  | none => s
  | some o0 =>
    let o := opProgressed s o0
    let k := s.ctl.opFinished + 1
    let s1 := setOp s n { o with state := final, result := result, finished := k, suspendAsked := false }
    raise 0x0D08 [n, o.kind, final, result] (setCtl s1 { s1.ctl with opFinished := k })

/-- An operation that works: RUNNING, or on its way to its suspend point. -/
def opWorks (o : LongOp) : Bool := o.state == 2 || (o.state == 3 && o.suspendAsked)

/-- The operation in a slot, while it works. -/
def workingOp (s : State) (n : Nat) : Option LongOp := (tfind s.ctl.ops n).filter opWorks

/-- Note the units done; at one of the type's suspend points a pending SUSPEND takes hold (R69). -/
def opProgress (n done : Nat) (point : Bool) (s : State) : State :=
  match tfind s.ctl.ops n with
  | none => s
  | some o => setOp s n { o with done := done, suspendAsked := o.suspendAsked && !point }

end Sys2Proof.Machine
end

