-- ==== Sys2Proof/Machine/FlowHost.lean ====
section
/-! DEFINITION. Host access to flows: insert, delete, read and modify, version 1 records, walks and loads, banks of the
slices, and the objects of the flow engine (6.8 to 6.10, R141 to R148). -/
namespace Sys2Proof.Machine

/-! ### Host requests at the home slice (R174, R194 to R196) -/

/-- Requests for a key wait behind what reached its slice before, a written setup and a removal of it: finish these first
(R149, R169, R184). -/
def finishKey (k : BitVec 384) (s0 : State) : State :=
  let n := homeSlice s0 k
  let s := sliceDrain n s0
  match holdFor s n k with
  | none => s
  | some h => match holdAt s h with
    | none => s
    | some x =>
      let own := if x.reverse then x.other.getD h else h
      let written := (((holdAt s own).bind (·.setup)).map (·.written)).getD false
      if written then setupRelease own 0 s else if x.state = 4 then enterSetup h s else s

/-- Requests for a record wait behind what reached its slice before and its written setup (R149, R169). -/
def finishRecord (r : Nat) (s0 : State) : State :=
  let s := match flowRec s0 r with
    | some x => sliceDrain (homeSlice s0 x.key) s0
    | none => s0
  match inWrites s r with
  | some h => setupRelease h 0 s
  | none => s

/-- The entry of the other key of a discarded setup: its chain is fetched anew, an empty entry goes. -/
def refetch (h : Nat) (s : State) : State :=
  match holdAt s h with
  | none => s
  | some x =>
    if x.chain.isEmpty then delHold h s
    else queueFetch x.pipe h (setHold h { x with state := 1, setup := none, other := none, reverse := false } s)

/-- A host insert resolves the hold entry of one of its keys as record found; a setup in progress is discarded and
counted (R174). -/
def preempt (record : Nat) (k : BitVec 384) (s : State) : State :=
  let n := homeSlice s k
  match holdFor s n k with
  | none => s
  | some h => match holdAt s h with
    | none => s
    | some x =>
      let own := if x.reverse then x.other.getD h else h
      if x.state = 5 then s
      else
        let s1 := if x.state = 3 then count 0x4040 n 4 (dropHoldItem own s) else s
        let s2 := match (holdAt s1 own).bind (·.setup) with
          | some u => chainPush u.record s1
          | none => s1
        let s3 := delHold h s2
        serveChain n record 2 k x.chain (match x.other with
          | some o => refetch o s3
          | none => s3)

/-- A record image as it is stored: reserved fields 0, first_seen not 0, aclass as tclass (R10, R136, Table 6-9). -/
def storedImage (x : FlowRec) : FlowRec :=
  { key := putBf (putBf x.key 379 376 0) 39 0 0
    st := putBf x.st 105 104 0
    cnt := putBf (putBf (if cnFirst x.cnt = 0 then putBf x.cnt 79 48 1 else x.cnt) 7 4 (stClass x.st)) 3 0 0
    act := x.act }

/-- Serve a host insert (R194, R196): status, detail, record index. (DESIGN CHOICE, log entry 62) -/
def hostInsert (img : FlowRec) (s0 : State) : Nat × Nat × Nat × State :=
  let x := storedImage img
  let rk := recReverse s0 x
  let s := match rk with
    | some k => finishKey k (finishKey x.key s0)
    | none => finishKey x.key s0
  let n := homeSlice s x.key
  if bf x.st 127 124 ≠ 2 then (2, 0x0503, 0, s0)
  else if (idxFind s x.key).isSome || (rk.map fun k => (idxFind s k).isSome).getD false then (2, 0x0501, 0, s)
  else if (rk.map fun k => homeSlice s k != n).getD false then (2, 0x0502, 0, s)
  else match drawRecord n (drawFuel s) s with
    | none => (5, 2, 0, count 0x4041 n 2 s)
    | some (r, s1) =>
      match writeIndex r x.key rk (putRec r x s1) with
      | .inl c => (5, c, 0, count 0x4041 n c (chainPush r s1))
      | .inr s2 =>
        let s3 := preempt r x.key s2
        (0, 0, r, match rk with
          | some k => preempt r k s3
          | none => s3)

/-- The record that a command names, by its index or by a key (R194). (DESIGN CHOICE, log entry 62) -/
def hostLocate (index : Option Nat) (k : BitVec 384) (s : State) : Option Nat :=
  match index with
  | some r => if (flowRec s r).isSome ∧ !recGone s r then some r else none
  | none => (idxFind s k).map (· / 2)

/-- The state in which a command on a record or key is served, and the record. -/
def hostReach (index : Option Nat) (k : BitVec 384) (s : State) : Option Nat × State :=
  let s1 := match index with
    | some r => finishRecord r s
    | none => finishKey k s
  (hostLocate index k s1, s1)

/-- Serve a DELETE (reason HOST_DELETE), a READ and a MODIFY; status 4 NOT_FOUND. -/
def hostDelete (index : Option Nat) (k : BitVec 384) (s : State) : Nat × State :=
  match hostReach index k s with
  | (some r, s1) => (0, flowRemove r 3 s1)
  | (none, s1) => (4, s1)

def hostRead (index : Option Nat) (k : BitVec 384) (s : State) : Option Bytes × State :=
  match hostReach index k s with
  | (some r, s1) => ((mergedRec s1 r).map recBytes, hbmRequest 3 (recAddr s1 r) 128 false s1)
  | (none, s1) => (none, s1)

/-- The selected fields of a MODIFY in a state word, an action word and the counters word (Table 6-10). -/
def modState (sel st : Nat) (w : BitVec 128) : BitVec 128 :=
  let w1 := if sel.testBit 7 then putBf w 115 112 (fld st 3 0) else w
  let w2 := if sel.testBit 8 then putBf w1 108 108 (fld st 4 4) else w1
  if sel.testBit 9 then putBf w2 109 109 (fld st 5 5) else w2

def modAction (sel : Nat) (a w : BitVec 256) : BitVec 256 :=
  let w1 := if sel.testBit 0 then putBf w 255 232 (acNhFwd a) else w
  let w2 := if sel.testBit 1 then putBf w1 231 208 (acNhRev a) else w1
  let w3 := if sel.testBit 2 then putBf w2 207 196 (acEditFwd a) else w2
  let w4 := if sel.testBit 3 then putBf w3 195 184 (acEditRev a) else w3
  if sel.testBit 4 then putBf w4 183 164 (acMeter a) else w4

def modCounters (sel st : Nat) (w : BitVec 256) : BitVec 256 :=
  let w1 := if sel.testBit 5 then putBf w 11 8 (fld st 11 8) else w
  let w2 := if sel.testBit 6 then putBf w1 15 12 (fld st 15 12) else w1
  if sel.testBit 7 then putBf w2 7 4 (fld st 3 0) else w2

/-- A MODIFY at a line. -/
def modLine (sel st : Nat) (a : BitVec 256) (l : Line) : Line :=
  if l.link then l
  else { l with
    st := modState sel st l.st, act := modAction sel a l.act,
    mirror := if sel.testBit 5 then fld st 11 8 else l.mirror,
    telemetry := if sel.testBit 6 then fld st 15 12 else l.telemetry }

/-- Serve a MODIFY entry of 96 bytes (R195): the line, buffered lines and the record change at one instant.
(DESIGN CHOICE, log entry 62) -/
def hostModify (index : Option Nat) (e : Bytes) (s : State) : Nat × State :=
  let sel := leNat (slice e 48 8) % 2 ^ 10
  let st := leNat (slice e 56 8)
  let a := BitVec.ofNat 256 (leNat (slice e 64 32))
  match hostReach index (BitVec.ofNat 384 (beNat (slice e 0 48))) s with
  | (none, s1) => (4, s1)
  | (some r, s1) =>
    match flowRec s1 r with
    | none => (4, s1)
    | some x =>
      let y := { x with st := modState sel st x.st, act := modAction sel a x.act, cnt := modCounters sel st x.cnt }
      let mine := fun (l : Line) => if l.record = r then modLine sel st a l else l
      let s2 := putRec r y s1
      (0, setFlow s2 { s2.flow with
        lines := s2.flow.lines.map fun q => (q.1, mine q.2)
        wb := s2.flow.wb.map fun q => (q.1, q.2.map fun w => { w with line := mine w.line }) })

/-! ### Version 1 records (R201, R202) -/

/-- The version 2 record of a version 1 record, or the refusal's detail. -/
def fromV1 (b : Bytes) (s : State) : Nat ⊕ FlowRec :=
  let key := beNat (slice b 0 40)
  let st := leNat (slice b 40 8)
  let cn := leNat (slice b 48 24)
  let ac := leNat (slice b 72 24)
  let nat := mapped (fld ac 115 84)
  let entry := (s.fwd.natab.find? fun r => r.2.toNat == nat).map (·.1)
  let f := fun (v lo w : Nat) => v % 2 ^ w * 2 ^ lo
  if 5 < fld st 59 56 ∨ 5 < fld st 55 52 then .inl 0x0504
  else if st.testBit 48 ∧ entry.isNone then .inl 0x0505
  else .inr {
    key := mkKey (fld key 319 319) 0 (fld key 311 296) (fld key 295 288) (fld key 287 272) (fld key 271 256) (fld key 255 128)
      (fld key 127 0) 0 (key.testBit 318)
    st := BitVec.ofNat 128 (f 2 124 4 + f (fld st 59 56) 120 4 + f (fld st 55 52) 116 4 + f (fld st 51 49) 112 4 +
      f (fld st 48 48) 110 1 + f (fld st 47 47) 109 1 + f (fld st 46 46) 108 1 + f (fld st 45 45) 106 1 + f (fld st 44 37) 96 8)
    cnt := BitVec.ofNat 256 (f (fld cn 191 160) 216 40 + f (fld cn 159 120) 168 48 + f (fld cn 119 88) 128 40 +
      f (fld cn 87 48) 80 48 + f (devMs s) 48 32 + f (devMs s) 16 32 + f (fld ac 63 60) 12 4 + f (fld ac 67 64) 8 4 +
      f (fld st 51 49) 4 4)
    act := BitVec.ofNat 256 (f (fld ac 191 172) 232 24 + f (fld ac 171 152) 208 24 + f (fld ac 151 142) 196 12 +
      f (fld ac 141 132) 184 12 + f (fld ac 131 116) 164 20 + f (entry.getD 0) 144 20 + f (fld ac 83 68) 128 16 + nat) }

/-! ### TABLE_LOAD, TABLE_DUMP and FLOW_FLUSH of flows (R197 to R200) -/

/-- A flow matches a 128-byte filter (R197). -/
def walkMatches (s : State) (flt : Bytes) (x : FlowRec) : Bool :=
  let b := fun (i : Nat) => (flt.getD i 0).toNat
  let mask := beNat (slice flt 48 48)
  decide (x.key.toNat &&& mask = beNat (slice flt 0 48) &&& mask) &&
    decide (stTemplate x.st &&& b 97 = b 96 &&& b 97) && (!(b 98).testBit 0 || stTrans x.st) &&
    (leNat (slice flt 100 4) == 0 || decide (leNat (slice flt 100 4) ≤ idleMs s (cnLast x.cnt)))

/-- Where a walk stands: next record, bytes written. -/
def walkAt (s : State) (n : Nat) : Nat × Nat := tget (0, 0) s.flow.walks n
def setWalk (n : Nat) (w : Nat × Nat) (s : State) : State := setFlow s { s.flow with walks := tput s.flow.walks n w }

/-- A dump writes one record to its destination; none: its byte limit is reached (R198). -/
def dumpOne (n : Nat) (o : LongOp) (x : FlowRec) (s : State) : Option State :=
  let b := Config.dumpBlock o.params
  let w := walkAt s n
  if b.2.2.2 < w.2 + 128 then none
  else
    let a := b.2.2.1 + w.2
    let s1 := if b.2.1 then hbmWrite s a (recBytes x) else hostWrite s a (recBytes x)
    some (setWalk n (w.1, w.2 + 128) s1)

/-- One record of a walk (R198, R199); none: the operation's limit is reached. -/
def walkOne (n : Nat) (o : LongOp) (r : Nat) (s : State) : Option State :=
  let s1 := finishRecord r s
  match mergedRec s1 r with
  | none => some s1
  | some x =>
    if recGone s1 r then some s1
    else if o.kind = 4 then
      if walkMatches s1 (Config.dumpBlock o.params).1 x then dumpOne n o x s1 else some s1
    else if walkMatches s1 o.params x ∧ (!stPinned x.st ∨ (o.params.getD 98 0).toNat.testBit 1) then
      some (flowRemove r 4 s1)
    else some s1

/-- The records of a walk from one on, in ascending order. -/
def walkList (n : Nat) (o : LongOp) : List Nat → State → Bool × State
  | [], s => (true, s)
  | r :: t, s => match walkOne n o r s with
    | none => (false, s)
    | some u => walkList n o t u

/-- The bytes that a dump has written stand with its operation (R198). -/
def noteWritten (n bytes : Nat) (s : State) : State :=
  match tfind s.ctl.ops n with
  | some o => setOp s n { o with written := bytes }
  | none => s

/-- The operation walks the flow records: a TABLE_DUMP of flows, or FLOW_FLUSH (R198, R199). -/
def walksFlows (o : LongOp) : Bool := o.kind == 5 || (o.kind == 4 && Config.opTable 4 o.params == 0x10)

/-- A walk advances by up to cnt records, not past a suspend point that a SUSPEND waits for. -/
def flowWalk (n cnt : Nat) (s : State) : State :=
  match workingOp s n with
  | none => s
  | some o =>
    if !walksFlows o ∨ flowHalted s then s
    else
      let start := (walkAt s n).1
      let stop := min s.flow.nr (start + cnt)
      let stop' := if o.suspendAsked then min stop (start / 65536 * 65536 + 65536) else stop
      let rs := (s.flow.records.filter fun r => decide (start ≤ r.1) && decide (r.1 < stop')).map (·.1)
      let w := walkList n o rs s
      let s1 := noteWritten n (walkAt w.2 n).2 w.2
      if w.1 then opProgress n stop' (stop' % 65536 == 0 || stop' == s.flow.nr) (setWalk n (stop', (walkAt w.2 n).2) s1)
      else opFinish n 6 5 s1

/-- FLOW_WALK: the walk of operation slot n visits its next cnt records. -/
def execFlowWalk (n cnt : Nat) (s : State) : Host.Outcome State Fault Refusal := .next (flowWalk n cnt s)

/-- The most frequent refusal detail of an operation's last second (Table 6-13). -/
def topDetail (n : Nat) (s : State) : Nat :=
  let ds := [0x0501, 0x0502, 0x0503, 0x0504, 0x0505, 1, 2, 3, 4, 5, 6, 7]
  let c := fun (d : Nat) => seenLately 0x050C (64 + 16 * n + d % 256 + (if d < 0x0500 then 8 else 0)) s
  ds.foldl (fun b d => if c b < c d then d else b) 0x0501

/-- A refused record of a load: counted by its reason, event 0x050C (R200). -/
def loadRefused (n st detail : Nat) (s : State) : State :=
  let sub := if st = 5 then 6 else detail % 256
  let inst := 64 + 16 * n + detail % 256 + (if detail < 0x0500 then 8 else 0)
  let s1 := noteLately 0x050C inst (count 0x4042 0 sub s)
  raiseLimited 0x050C n (fun c => [n, c, topDetail n s1]) s1

/-- TABLE_LOAD takes its next record, data as its host-memory source holds it; a window source is read from HBM. A
version 1 record goes to LOAD_V1, and waits while its class refuses it; with a SUSPEND pending no record past the next
suspend point is taken (R200, R220, R224). -/
def loadRecord (n : Nat) (data : Bytes) (s : State) : State :=
  match workingOp s n with
  | none => s
  | some o =>
    let b := Config.loadBlock o.params
    let i := (walkAt s n).1
    let v1 := b.2.2.2 == 1
    let size := if v1 then 96 else 128
    if o.kind ≠ 3 ∨ Config.opTable 3 o.params ≠ 0x10 ∨ b.2.2.1 ≤ i ∨ flowHalted s ∨
        (o.suspendAsked ∧ i % 4096 = 0 ∧ o.done < i) then s
    else
      let bytes := padTo size (if b.1 then hbmRead s (b.2.1 + size * i) size else data)
      let s0 := setWalk n (i + 1, 0) s
      if v1 then
        if classRefuses s 3 then s
        else (submitItem { newItem s0 11 5 1 with data := n + 16 * o.order, bytes := bytes } s0).2
      else
        let r := hostInsert (recOfBytes bytes) s0
        opProgress n (i + 1) ((i + 1) % 4096 == 0 || i + 1 == b.2.2.1)
          (if r.1 = 0 then r.2.2.2 else loadRefused n r.1 r.2.1 r.2.2.2)

/-- LOAD_RECORD: the load of operation slot n takes its next record. -/
def execLoadRecord (n : Nat) (data : Bytes) (s : State) : Host.Outcome State Fault Refusal := .next (loadRecord n data s)

/-! ### Banks and the cache form (R141, R142, R148) -/

def setSpare (n : Nat) (v : Nat × Nat) (s : State) : State :=
  setFlow s { s.flow with spare := tset (0, 0) s.flow.spare n v }

/-- A bank of slice n meets a cause of R141: it is mapped to the spare, a test of another bank ending first; with the
spare mapped the further fault is reported. (DESIGN CHOICE, log entry 48) -/
def sliceBankFault (n bank cause : Nat) (s : State) : State :=
  if (tget (0, 0) s.flow.spare n).1 = 2 then
    if (tget (0, 0) s.flow.spare n).2 = bank then s else detect 7 0x0504 [n, bank] s
  else detect 7 0x0503 [n, bank, cause] (setSpare n (2, bank) s)

/-- A scrub pass ends with hits corrected errors in a bank of slice n: at flow.bank.threshold the bank is mapped out with
cause 2 (R141). Each is a corrected error of class 1 (R466). -/
def sliceBankHits (n bank hits : Nat) (s : State) : State :=
  let s1 := (List.range hits).foldl (fun t _ => noteFault 1 t) s
  if 0 < hits ∧ cfgN s 0x4007 0 0 ≤ hits then sliceBankFault n bank 2 s1 else s1

/-- SLICE_BANK_SPARE: a bank of slice n fails its online BIST (hits 0), or a scrub pass has found hits corrected errors in
it (R141). (DESIGN CHOICE, log entry 48) -/
def execSliceBankSpare (n bank hits : Nat) (s : State) : Host.Outcome State Fault Refusal :=
  .next (if hits = 0 then sliceBankFault n bank 1 s else sliceBankHits n bank hits s)

/-- SLICE_ONLINE_BIST: slice n begins the test of a bank through its spare, or ends the test under way: the bank is
copied back, or mapped out when it failed. (DESIGN CHOICE, log entry 48) -/
def execSliceOnlineBist (n bank : Nat) (pass : Bool) (s : State) : Host.Outcome State Fault Refusal :=
  match tget (0, 0) s.flow.spare n with
  | (0, _) => .next (setSpare n (1, bank) s)
  | (1, b) => if pass then .next (setSpare n (0, 0) s) else .next (detect 7 0x0503 [n, b, 1] (setSpare n (2, b) s))
  | _ => .next s

/-- Write back and drop lines and buffered lines. -/
def flushLines (gone : Nat → Line → Bool) (s : State) : State :=
  let s1 := s.flow.wb.foldl (fun t w => w.2.foldl (fun u e => if gone (131072 * w.1) e.line then writeback w.1 e.line u else u) t) s
  let s2 := setFlow s1 { s1.flow with
    wb := (s1.flow.wb.map fun w => (w.1, w.2.filter fun e => !gone (131072 * w.1) e.line)).filter fun w => !w.2.isEmpty }
  let s3 := (s2.flow.lines.filter fun r => gone r.1 r.2).foldl (fun t r =>
    dropLine r.1 (if r.2.dirty && !r.2.link then writeback (r.1 / 131072) r.2 t else t)) s2
  let recs := (s.flow.wb.flatMap fun w => w.2.map (·.line.record)).eraseDups
  (List.range 16).foldl (fun t n => foldsGoOn n t) (recs.foldl (fun t r => issueReads r t) s3)

/-- The flow engine restarts after a commit's stop: a change of flow.cache.verified begins a conversion (R148). -/
def flowRestart (s : State) : State :=
  match s.ctl.commit with
  | none => s
  | some c =>
    let v := fun (x : Slot) => leNat ((tfind x.objs (oa 0x4003 0 0)).getD [0])
    if v c.oldSlot = v c.newSlot then s else setFlow s { s.flow with converting := raw s + 1 }

/-- CACHE_MODE_SETTLED: every line of the old form has been folded and evicted (R148). -/
def execCacheModeSettled (s : State) : Host.Outcome State Fault Refusal :=
  if s.flow.converting = 0 ∨ flowHalted s then .next s
  else
    let mode := cfgOn s 0x4003 0 0
    let s1 := evictLines (fun _ l => l.wide != mode) s
    let ms := (raw s - (s.flow.converting - 1)) / 800000
    .next (raise 0x0507 [b2n mode, ms] (setFlow s1 { s1.flow with converting := 0 }))

end Sys2Proof.Machine
end

