-- ==== Sys2Proof/Machine/FlowMove.lean ====
section
/-! DEFINITION. REHASH and RESIZE_PARTITION, and the objects of the flow engine (6.6, 6.7, R346, Tables 5-10 and 6-12). -/
namespace Sys2Proof.Machine

/-- Write an object into the active, staged and previous slots together (R133, R345). -/
def setThree (a : Nat) (v : Bytes) (s : State) : State :=
  [0, 1, 2].foldl (fun t n =>
    let x := { slotOf t n with objs := tput (slotOf t n).objs a v, signature := [] }
    setSlot t n { x with crc := BitVec.ofNat 32 (imageCrc x (slotTables t n)) }) s

/-- The layout of a region placed now: the pseudo-channels in service, empty for all 128 (R344). -/
def placeNow (s : State) : List Nat := if retiredCount s = 0 then [] else pcsInService s

/-- Bytes of a region become zero. -/
def zeroRegion (base size : Nat) (s : State) : State :=
  setHbm s { s.hbm with
    mem := s.hbm.mem.filter fun c => !(decide (base ≤ c.1) && decide (c.1 < base + size)),
    poison := s.hbm.poison.filter fun a => !(decide (base ≤ a) && decide (a < base + size)) }

/-- A region overlaps a partition other than the host window, but for one partition (R188). -/
def overlaps (s : State) (base size but : Nat) : Bool :=
  decide (hbmBytes < base + size) ||
    [0, 1, 2, 3, 4, 5].any fun k => k != but && decide (base < partBase s k + partSize s k) && decide (partBase s k < base + size)

/-! ### REHASH (R188 to R192) -/

/-- Fields of a REHASH block (Table 6-8). -/
def rhSeed (p i : Nat) : Nat := fld p (255 - 32 * (i - 1)) (224 - 32 * (i - 1))
def rhKeep (p i : Nat) : Bool := p.testBit (91 + (i - 1))
def rhSize (p : Nat) : Nat := fld p 84 80
def rhRegion (p : Nat) : Nat := fld p 63 0

/-- A START of REHASH is refused: status, detail (R188). (DESIGN CHOICE, log entry 63) -/
def rehashRefused (params : Bytes) (s : State) : Option (Nat × Nat) :=
  let p := leNat params
  let size := if rhSize p = 0 then partSize s 1 else rhSize p * gb
  if params.length ≠ 32 then some (2, params.length)
  else if 12 < rhSize p then some (6, 0)
  else if rhRegion p % gb ≠ 0 ∨ overlaps s (rhRegion p) size 6 then some (2, 0)
  else none

/-- REHASH begins: the new region is zeroed and the copier starts (R173, R190). -/
def rehashBegin (n : Nat) (o : LongOp) (s : State) : State :=
  let p := leNat o.params
  let size := if rhSize p = 0 then partSize s 1 else rhSize p * gb
  let old := seedsNow s
  let seeds := [1, 2, 3, 4, 5].map fun i => if rhKeep p i then old.getD (i - 1) 0 else rhSeed p i
  let s1 := setOp s n { o with total := partSize s 1 / 64 }
  let s2 := zeroRegion (rhRegion p) size s1
  setFlow s2 { s2.flow with
    index2 := [],
    rehash := some { op := n, seeds := seeds, nb := size / 64, region := rhRegion p, lay := placeNow s, next := 0, phase := 0,
                     since := 0, oldSeeds := old, newOnly := [] } }

/-- The fetches under way start their searches anew: the layouts have changed. -/
def restartFetches (s : State) : State :=
  setFlow s { s.flow with holds := s.flow.holds.map fun r =>
    if r.2.state = 2 then (r.1, { r.2 with buckets := searchList s r.2.key, cands := [] }) else r }

/-- Copy one entry of the old index (R190): none when the new layout has no room. -/
def copyEntry (x : Nat) (s : State) : Option State :=
  let old := layNow s
  match (layouts s).find? (·.building) with
  | none => some s
  | some new =>
    let v := idxGet s old x
    if !slValid v then some s
    else if bucketGone s old (x / 8) || recGone s (slRec v) then some (flowFault (slRec v) s)
    else match slotKey s (slRec v) (slDir v) with
      | none => some s
      | some k =>
        let there := (layBuckets new k).any fun b => (bucketSlots b).any fun y =>
          let w := idxGet s new y
          slValid w && slRec w == slRec v && slDir w == slDir v
        if there then some s
        else match idxInsert new k (slRec v) (slDir v) s with
          | .inr t => some t
          | .inl _ => none

/-- Copy entries in order. -/
def copyList : List Nat → State → Bool × State
  | [], s => (true, s)
  | x :: t, s => match copyEntry x s with
    | none => (false, s)
    | some u => copyList t u

/-- Discard the new layout: flows entered there alone end with INSERT_CANCELLED (R192). -/
def rehashCancel (s : State) : State :=
  match s.flow.rehash with
  | none => s
  | some r =>
    let s1 := r.newOnly.foldl (fun t x => flowRemove x 5 t) s
    restartFetches (setFlow s1 { s1.flow with index2 := [], rehash := none })

/-- REHASH_COPY: the copier walks the next cnt old buckets (R190, R192). (DESIGN CHOICE, log entry 63) -/
def rehashCopy (cnt : Nat) (s : State) : State :=
  match s.flow.rehash with
  | none => s
  | some r => match workingOp s r.op with
    | none => s
    | some o =>
      let nb := (layNow s).nb
      if r.phase ≠ 0 ∨ flowHalted s then s
      else
        let stop := min nb (r.next + cnt)
        let stop' := if o.suspendAsked then min stop (r.next / 65536 * 65536 + 65536) else stop
        let xs := (s.flow.index.filter fun e => decide (8 * r.next ≤ e.1) && decide (e.1 < 8 * stop')).map (·.1)
        let c := copyList xs s
        if c.1 then
          opProgress r.op stop' (stop' % 65536 == 0 || stop' == nb)
            (setFlow c.2 { c.2.flow with rehash := c.2.flow.rehash.map fun z =>
              { z with next := stop', phase := if stop' = nb then 1 else 0 } })
        else rehashCancel (opFinish r.op 6 5 c.2)

/-- The seeds on which a key's place and fingerprint rest change (R191). (DESIGN CHOICE, log entry 63) -/
def seedsMove (r : Rehash) : Bool := [0, 2, 3, 4].any fun i => r.oldSeeds.getD i 0 != r.seeds.getD i 0

/-- Requests that wait at the slices go to the home slices that the seeds in force name.
(DESIGN CHOICE, log entry 63) -/
def rehome (s : State) : State :=
  let pids := s.flow.reqs.flatMap (·.2)
  let recs := s.flow.ageQ.flatMap (·.2)
  let s1 := setFlow s { s.flow with reqs := [], ageQ := [] }
  let s2 := pids.foldl (fun t p => match (pkt t p).key with
    | some k => setReqs t (homeSlice t k) (sliceReqs t (homeSlice t k) ++ [p])
    | none => t) s1
  recs.foldl (fun t r => match flowRec t r.1 with
    | some x =>
      let n := homeSlice t x.key
      setFlow t { t.flow with ageQ := tput t.flow.ageQ n (tget [] t.flow.ageQ n ++ [r]) }
    | none => t) s2

/-- REHASH_SWITCH: the copy is done: the old layout is searched no more, and the new seeds are taken; where they move
keys or fingerprints, the flow engine enters its stop (R191). -/
def execRehashSwitch (s : State) : Host.Outcome State Fault Refusal :=
  match s.flow.rehash with
  | none => .next s
  | some r => match workingOp s r.op with
    | none => .next s
    | some _ =>
      if r.phase ≠ 1 ∨ flowHalted s then .next s
      else
        let s1 := setFlow s { s.flow with
          index := s.flow.index2, index2 := [], rehash := some { r with phase := 2, since := raw s, newOnly := [] } }
        let s2 := restartFetches (rehome s1)
        .next (if seedsMove r then setCtl s2 { s2.ctl with stopped := s2.ctl.stopped ++ [(Fn.flowEngine, raw s)] } else s2)

/-- Write back and invalidate every line of a record. -/
def flushRecord (r : Nat) (s : State) : State := flushLines (fun _ l => l.record == r) s

/-- SURRENDER_REQUEST: old home slice n serves a waiting surrender request: the key's lines are written back and
invalidated, and once no other hold entry of the key stands there the new home may fetch (R191). -/
def execSurrenderRequest (n : Nat) (s : State) : Host.Outcome State Fault Refusal :=
  let ready := fun (q : BitVec 384 × Nat) => oldHome s q.1 == some n &&
    !((holdsOf s n).any fun h => h.1 != q.2 && bareKey h.2.key == q.1)
  match s.flow.surrender.find? ready with
  | none => .next s
  | some q =>
    if flowHalted s then .next s
    else
      let s1 := match idxFind s q.1 with
        | some c => flushRecord (c / 2) s
        | none => s
      let s2 := setFlow s1 { s1.flow with surrender := s1.flow.surrender.filter (· != q) }
      match holdAt s2 q.2 with
      | some x => .next (queueFetch x.pipe q.2 s2)
      | none => .next s2

/-- A line stands where the seeds in force put it, under their fingerprint. -/
def lineCurrent (s : State) (x : Nat) (l : Line) : Bool :=
  match slotKey s l.record (if l.link then 1 else 0) with
  | none => true
  | some k =>
    let seeds := seedsNow s
    x / 131072 == homeSlice s k && x / 8 % 16384 == hashSet seeds k && l.fp == fingerprint seeds k

/-- A buffered line carries the fingerprint of the seeds in force. -/
def buffered (s : State) (l : Line) : Bool :=
  match slotKey s l.record 0 with
  | none => true
  | some k => l.fp == fingerprint (seedsNow s) k

/-- The changeover is over: lines of the old seeds are folded and evicted, buffered ones are written back, and the new seeds, size and base stand in the
slots (R189, R191). (DESIGN CHOICE, log entry 63) -/
def changeoverEnd (r : Rehash) (s : State) : State :=
  let s0 := evictLines (fun x l => !lineCurrent s x l) s
  let here := fun (x : Nat) (l : Line) => lineAt s0 x == some l
  let s1 := flushLines (fun x l => !here x l && !buffered s l) s0
  let s2 := setFlow s1 { s1.flow with rehash := none, surrender := [] }
  let s3 := setHbm s2 { s2.hbm with
    bases := tput s2.hbm.bases 1 r.region,
    layouts := if r.lay.isEmpty then tdel s2.hbm.layouts 1 else tput s2.hbm.layouts 1 r.lay }
  let s4 := [1, 2, 3, 4, 5].foldl (fun t i => setThree (oa 0x4000 i 0) (leBytes 4 (r.seeds.getD (i - 1) 0)) t) s3
  setThree (oa 0x6000 1 0) (leBytes 2 (r.nb * 64 / gb)) s4

/-- REHASH_CHANGEOVER_END: the changeover ends, event 0x050A reports it, and the operation is DONE. -/
def execRehashChangeoverEnd (s : State) : Host.Outcome State Fault Refusal :=
  match s.flow.rehash with
  | none => .next s
  | some r =>
    if r.phase ≠ 2 ∨ flowHalted s ∨ !s.flow.surrender.isEmpty then .next s
    else .next (opFinish r.op 5 0 (raise 0x050A [r.op, (raw s - r.since) / 800000] (changeoverEnd r s)))

/-- REHASH_COPY. -/
def execRehashCopy (cnt : Nat) (s : State) : Host.Outcome State Fault Refusal := .next (rehashCopy cnt s)

/-! ### RESIZE_PARTITION (R193, R346) -/

/-- Fields of a RESIZE_PARTITION block (Table 12-2). -/
def rsPart (p : Nat) : Nat := fld p 127 120
def rsSize (p : Nat) : Nat := fld p 119 112
def rsRegion (p : Nat) : Nat := fld p 63 0

/-- Size range of a partition in GB (Table 12-1). -/
def partRange (k : Nat) : Nat × Nat := [(1, 64), (1, 12), (2, 2), (8, 8), (4, 4), (1, 32)].getD k (0, 0)

/-- A START of RESIZE_PARTITION is refused (R346). (DESIGN CHOICE, log entry 64) -/
def resizeRefused (params : Bytes) (s : State) : Option (Nat × Nat) :=
  let p := leNat params
  let k := rsPart p
  let size := rsSize p * gb
  let base := if rsRegion p = 0 then partBase s k else rsRegion p
  if params.length ≠ 16 then some (2, params.length)
  else if k = 1 ∨ 5 < k then some (2, 0)
  else if rsSize p < (partRange k).1 ∨ (partRange k).2 < rsSize p ∨ (2 ≤ k ∧ k ≤ 4 ∧ size ≠ partSize s k) then some (6, 0)
  else if rsRegion p % gb ≠ 0 ∨ overlaps s base size k then some (2, 0)
  else none

/-- Whether a resize of the records grows, shrinks or restripes them. -/
def resizeGrows (s : State) (z : Resize) : Bool := decide (partSize s z.part < z.size * gb)
def resizeShrinks (s : State) (z : Resize) : Bool := decide (z.size * gb < partSize s z.part)

/-- Units of a resize: records for the record partition, MB for the others. -/
def resizeTotal (s : State) (z : Resize) : Nat :=
  let old := partSize s z.part
  let new := z.size * gb
  let d := if old = new then old else if old < new then new - old else old - new
  if z.part = 0 then d / 128 else d / 2 ^ 20

/-- A setup that has drawn an index above a smaller nr draws another below it; with none it fails (R187, R193).
-/
def redrawSetup (h : Nat) (s : State) : State :=
  match holdAt s h with
  | none => s
  | some x => match x.setup with
    | none => s
    | some u => match drawRecord (sliceOfHold h) (drawFuel s) s with
      | none => insertFail h 2 s
      | some (r, s1) => setHold h { x with setup := some { u with record := r } } (chainPush u.record s1)

/-- RESIZE_PARTITION begins; drawn indexes above a smaller nr go back to their chains, and the setups that hold one draw
another. -/
def resizeBegin (n : Nat) (o : LongOp) (s : State) : State :=
  let p := leNat o.params
  let k := rsPart p
  let z : Resize := {
    op := n, part := k, size := rsSize p, base := if rsRegion p = 0 then partBase s k else rsRegion p, lay := placeNow s, next := 0 }
  let s1 := setFlow (setOp s n { o with total := resizeTotal s z }) { s.flow with resize := some z }
  if k ≠ 0 ∨ !resizeShrinks s z then s1
  else
    let nr := z.size * 2 ^ 23
    let back := s.flow.drawn.flatMap fun r => r.2.filter (nr ≤ ·)
    let s2 := back.foldl (fun t r => chainPush r t)
      (setFlow s1 { s1.flow with drawn := (s1.flow.drawn.map fun r => (r.1, r.2.filter (· < nr))).filter fun r => !r.2.isEmpty })
    (s2.flow.holds.filter fun h => (h.2.setup.map fun u => !u.written && decide (nr ≤ u.record)).getD false).foldl
      (fun t h => redrawSetup h.1 t) s2

/-- Move a record to another index as one operation (R193): none when no index is left below. -/
def moveRecord (r : Nat) (s : State) : Option State :=
  match flowRec s r with
  | none => some s
  | some x =>
    match drawRecord (homeSlice s x.key) (drawFuel s) s with
    | none => none
    | some (q, s1) =>
      let entry := fun (v : BitVec 64) => if slValid v && slRec v == r then putBf v 31 3 q else v
      let line := fun (l : Line) => if l.record = r then { l with record := q } else l
      let key := fun (c : Nat) => if c / 2 = r then 2 * q + c % 2 else c
      let at_ := fun (t : Tbl (BitVec 64)) => t.map fun e => (e.1, entry e.2)
      let s2 := putRec q x s1
      let s3 := setFlow s2 { s2.flow with
        records := tdel s2.flow.records r, index := at_ s2.flow.index, index2 := at_ s2.flow.index2,
        lines := s2.flow.lines.map fun e => (e.1, line e.2),
        wb := s2.flow.wb.map fun w => (w.1, w.2.map fun e => { e with line := line e.line }),
        holds := s2.flow.holds.map fun h => (h.1, { h.2 with
          cands := h.2.cands.map key, record := if h.2.record = r then q else h.2.record }),
        ageQ := s2.flow.ageQ.map fun w => (w.1, w.2.map fun e => if e.1 = r then (q, e.2) else e),
        nominated := s2.flow.nominated.map fun e => if e = r then q else e }
      some (hbmRequest 3 (recAddr s3 q) 128 true (chainPush r s3))

/-- Move records in order. -/
def moveList : List Nat → State → Bool × State
  | [], s => (true, s)
  | r :: t, s => match moveRecord r (finishRecord r s) with
    | none => (false, s)
    | some u => moveList t u

/-- Note the progress of a resize. -/
def resizeTo (z : Resize) (next : Nat) (point : Bool) (s : State) : State :=
  opProgress z.op next point (setFlow s { s.flow with resize := some { z with next := next } })

/-- One heel page of queue u comes back on chip, or its frames are lost with it: it holds a poisoned word, or lies on a
retired pseudo-channel where it may be unreadable (R250). (DESIGN CHOICE, log entry 45) -/
def pageBack (u : Nat) (s : State) (h : HeelPage) : State :=
  let x := uq s u
  let s1 := hbmRequest 2 h.addr heelPageBytes false s
  let f := fresh 1 s1
  let retired := pcRetired s (pcOf s h.addr)
  let s2 := if retired then f.2 else s1
  if rangePoisoned s h.addr heelPageBytes ∨ (retired ∧ f.1 = 1) then
    heelReview u (heelLost u h true (setUq s2 u { x with pages := x.pages.filter (· != h) }))
  else pageIn (u / 8) h (setUq s2 u { x with pages := x.pages.filter (· != h), back := x.back ++ [h] })

/-- Heel pages above an end come back on chip (R251). -/
def heelBack (limit : Nat) (s : State) : State :=
  s.path.uq.foldl (fun t r => ((uq t r.1).pages.filter fun h => decide (limit ≤ h.addr)).foldl (pageBack r.1) t) s

/-- Move 1 MB of a region to its new place: bytes on retired pseudo-channels are not copied (R346). -/
def moveMb (src dst : Nat) (s : State) : State :=
  let cells := s.hbm.mem.filter fun c => decide (src ≤ c.1) && decide (c.1 < src + 2 ^ 20) && !pcRetired s (pcOf s c.1)
  let s1 := zeroRegion dst (2 ^ 20) (zeroRegion src (2 ^ 20) s)
  setHbm s1 { s1.hbm with mem := cells.foldl (fun m c => writeByte m (c.1 - src + dst) c.2) s1.hbm.mem }

/-- One step of a resize: a GB of growth, 65,536 records to move or restripe, a GB of the heel, or a MB to copy.
(DESIGN CHOICE, log entry 64) -/
def resizeStep (s : State) : State :=
  match s.flow.resize with
  | none => s
  | some z => match workingOp s z.op with
    | none => s
    | some o =>
      if flowHalted s ∨ o.total ≤ z.next then s
      else if z.part = 0 then
        if resizeGrows s z then
          let nr := s.flow.nr + 2 ^ 23
          let s1 := zeroRegion (z.base + partSize s 0) gb s
          let s2 := setHbm s1 { s1.hbm with sizes := tput s1.hbm.sizes 0 (partSize s 0 / gb + 1) }
          resizeTo z (z.next + 2 ^ 23) true (setFlow s2 { s2.flow with nr := nr })
        else if resizeShrinks s z then
          let lo := z.size * 2 ^ 23 + z.next
          let rs := (s.flow.records.filter fun r => decide (lo ≤ r.1) && decide (r.1 < lo + 65536)).map (·.1)
          let m := moveList rs s
          if m.1 then resizeTo z (z.next + 65536) true m.2
          else
            let s1 := opFinish z.op 6 5 m.2
            setFlow s1 { s1.flow with resize := none }
        else
          let rs := (s.flow.records.filter fun r => decide (z.next ≤ r.1) && decide (r.1 < z.next + 65536)).map (·.1)
          let s1 := rs.foldl (fun t r => if recGone t r then flowFault r t else t) s
          resizeTo z (z.next + 65536) true s1
      else if z.part = 5 ∧ resizeGrows s z then
        resizeTo z (z.next + 1024) true (setHbm s { s.hbm with sizes := tput s.hbm.sizes 5 (partSize s 5 / gb + 1) })
      else if z.part = 5 ∧ resizeShrinks s z then
        let stop := partBase s 5 + partSize s 5 - gb
        let s1 := heelBack stop s
        resizeTo z (z.next + 1024) true (setHbm s1 { s1.hbm with sizes := tput s1.hbm.sizes 5 (partSize s 5 / gb - 1) })
      else
        let s1 := moveMb (partBase s z.part + z.next * 2 ^ 20) (z.base + z.next * 2 ^ 20) s
        resizeTo z (z.next + 1) ((z.next + 1) % 1024 == 0) s1

/-- RESIZE_STEP. -/
def execResizeStep (s : State) : Host.Outcome State Fault Refusal := .next (resizeStep s)

/-- The resize is done: size, base and layout take force (R193, R345). -/
def resizeDone (z : Resize) (s : State) : State :=
  let old := partBase s z.part
  let move := fun (a : Nat) => if old ≤ a ∧ a < old + partSize s z.part then a - old + z.base else a
  let placed := z.base ≠ old ∨ partSize s z.part = cfgN s 0x6000 z.part 0 * gb
  let s1 := setHbm s { s.hbm with
    bases := tput s.hbm.bases z.part z.base, sizes := tdel s.hbm.sizes z.part,
    layouts := if !placed then s.hbm.layouts
      else if z.lay.isEmpty then tdel s.hbm.layouts z.part else tput s.hbm.layouts z.part z.lay }
  let s2 := setThree (oa 0x6000 z.part 0) (leBytes 2 z.size) s1
  let nr := z.size * 2 ^ 23
  let s3 := if z.part ≠ 0 then s2 else setFlow s2 { s2.flow with
    nr := nr, chains := (s2.flow.chains.map fun r => (r.1, r.2.filter (· < nr))).filter fun r => !r.2.isEmpty,
    taken := s2.flow.taken.map fun r => (r.1, min r.2 (chainSize nr r.1)) }
  let s4 := if z.part = 5 then setPath s3 { s3.path with uq := s3.path.uq.map fun r =>
      (r.1, { r.2 with pages := r.2.pages.map fun h => { h with addr := move h.addr } }) } else s3
  let s5 := if z.part = 2 then { s4 with fx := { s4.fx with groups := s4.fx.groups.map fun r =>
      (r.1, { r.2 with region := (move r.2.region.1, r.2.region.2) }) } } else s4
  setFlow s5 { s5.flow with resize := none }

/-- A resize ends otherwise: steps done stand (R193, R346). (DESIGN CHOICE, log entry 64) -/
def resizeStop (z : Resize) (s : State) : State :=
  let now := partSize s z.part / gb
  let s1 := setFlow s { s.flow with resize := none }
  if z.part = 0 ∨ z.part = 5 then
    setThree (oa 0x6000 z.part 0) (leBytes 2 now) (setHbm s1 { s1.hbm with sizes := tdel s1.hbm.sizes z.part })
  else s1

/-! ### Hooks of the long operations on flows -/

def flowOpRefused (kind : Nat) (params : Bytes) (s : State) : Option (Nat × Nat) :=
  match kind with
  | 1 => rehashRefused params s
  | 2 => resizeRefused params s
  | 5 => if params.length = 128 then none else some (2, params.length)
  | _ => none

def flowOpBegin (n : Nat) (o : LongOp) (s : State) : State :=
  match o.kind with
  | 1 => rehashBegin n o s
  | 2 => resizeBegin n o s
  | 3 => setWalk n (0, 0) (setOp s n { o with total := (Config.loadBlock o.params).2.2.1 })
  | 4 => setWalk n (0, 0) (setOp s n { o with total := s.flow.nr })
  | 5 => setWalk n (0, 0) (setOp s n { o with total := s.flow.nr })
  | _ => s

/-- The work of an operation is complete; REHASH ends with its changeover. -/
def flowOpDone (o : LongOp) (_s : State) : Bool := o.kind != 1 && decide (o.total ≤ o.done)

/-- CANCEL of a REHASH after its switch is denied (R192). -/
def flowCancelDenied (o : LongOp) (s : State) : Bool :=
  o.kind == 1 && ((s.flow.rehash.map fun r => r.phase == 2).getD false)

def flowOpEnd (_n : Nat) (o : LongOp) (final : Nat) (s : State) : State :=
  match o.kind with
  | 1 => match s.flow.rehash with
    | some r => if r.phase = 2 then changeoverEnd r s else rehashCancel s
    | none => s
  | 2 => match s.flow.resize with
    | some z => if final = 5 then resizeDone z s else resizeStop z s
    | none => s
  | _ => s

/-! ### Objects -/

/-- Device-set objects of the flow engine. Before the partitions are prepared (R173) the record counts read
their reset values. (DESIGN CHOICE, log entry 63) -/
def flowObj (a : Nat) (s : State) : Option Bytes :=
  let n := oaInst a
  let base := fun (k : Nat) => leBytes 8 (if s.safe.patternActive then partBase s k else 0)
  match oaIndex a, oaSub a with
  | 0x4001, _ => if s.flow.nr = 0 then none else some (leBytes 4 s.flow.nr)
  | 0x4002, _ => some (leBytes 4 (partSize s 1 / 64))
  | 0x4004, _ => some (leBytes 4 (b2n (s.flow.converting != 0)))
  | 0x4021, 0 => some (leBytes 4 (tget (0, 0) s.flow.spare n).1)
  | 0x4021, 1 => some (leBytes 1 (tget (0, 0) s.flow.spare n).2)
  | 0x4022, _ => some (leBytes 4 (holdsOf s n).length)
  | 0x4035, _ => if s.flow.nr = 0 then none else some (leBytes 4 (recordsFree s))
  | 0x4039, _ => some (base 1)
  | 0x403A, _ => some (base 0)
  | _, _ => none

/-- The flow partitions are prepared (R173): every record is threaded onto its free chain. -/
def prepareFlows (s : State) : State :=
  setFlow s { s.flow with nr := partSize s 0 / 128, chains := [], taken := [], drawn := [], records := [], index := [], index2 := [] }

end Sys2Proof.Machine
end

