-- ==== Sys2Proof/Machine/Guarantee.lean ====
section
/-! DEFINITION. The conditions of the fault guarantee (R460). -/
namespace Sys2Proof.Machine

/-- Some flow-slice or buffer spare is mapped, or an HBM pin pair is erased. -/
def sparesUsed (s : State) : Bool :=
  s.flow.spare.any (fun r => r.2.1 == 2) || s.path.spare.any (fun r => r.2.1 == 2) ||
    s.hbm.pcs.any (fun r => r.2.state == 1)

/-- The conditions that have lapsed now (R460); hm.scrub.period has no slower value than its default. -/
def guaranteeNow (s : State) : Nat :=
  b2n (!s.safe.env.isEmpty || s.hbm.temps.any fun r => decide (cfgI s 0x6026 0 0 ≤ r.2)) +
  2 * b2n (decide (120 < cfgN s 0x6020 0 0) || s.hbm.stackSt.any fun r => r.2 == 1) +
  4 * b2n (!cfgOn s 0x1304 0 0) +
  8 * b2n (!cfgOn s 0x3830 0 0 || !s.fwd.stale.isEmpty) +
  16 * b2n (s.aw.patchState != 1 || s.safe.bootState != 0) +
  32 * b2n (sparesUsed s)

/-- Each change of sf.guarantee raises event 0x0E04 (R460); the conditions are watched from the end of the start-up of the firmware on. -/
def reviewGuarantee (s : State) : State :=
  let g := guaranteeNow s
  if g = s.safe.guarantee.toNat ∨ !(s.safe.cobblerReady || s.safe.patternActive) then s
  else raise 0x0E04 [g, s.safe.guarantee.toNat]
    { s with safe := { s.safe with guarantee := BitVec.ofNat 8 g } }

end Sys2Proof.Machine
end

