-- ==== Sys2Proof/Machine/Safe.lean ====
section
/-! DEFINITION. Pending faults, the fuses, and the device-set objects of chapter 16 (16.2, 16.7). -/
namespace Sys2Proof.Machine

/-- Replace the safety part of the state. -/
def setSafe (s : State) (f : Safety) : State := { s with safe := f }

/-! ### Reset (R445) -/

/-- What reset leaves: every field at its reset value but the fuses, what flash holds, the levels of the input pins, the
host's memory, and the model's own queue and draws. (DESIGN CHOICE, log entry 98) -/
def resetState (s : State) : State :=
  { State.reset with
    pending := s.pending
    free := s.free
    host := { State.reset.host with mem := s.host.mem }
    ctl := { State.reset.ctl with keys := s.ctl.keys, bootImage := s.ctl.bootImage, bootMarker := s.ctl.bootMarker }
    safe := { State.reset.safe with
      powered := s.safe.powered, pwrOk := s.safe.pwrOk, resetN := s.safe.resetN, perstN := s.safe.perstN
      rollback := s.safe.rollback, ownerHash := s.safe.ownerHash, revoked := s.safe.revoked, patchKey := s.safe.patchKey
      flashA := s.safe.flashA, flashB := s.safe.flashB, ownerKey := s.safe.ownerKey, boardMgmt := s.safe.boardMgmt } }

/-- The device boots from step 1 of Table 16-1, RESET_N being high (R446, R454). (DESIGN CHOICE, log entry 98) -/
def bootFromStep1 (s : State) : State :=
  let s1 := resetState s
  setSafe s1 { s1.safe with resetN := true, bootDone := [1] }

/-- A write of sf.fault.ack clears the bits that are 1 (R469). -/
def faultAck (v : Nat) (s : State) : State :=
  setSafe s { s.safe with faults := s.safe.faults &&& ~~~ BitVec.ofNat 16 v }

/-! ### Fuses (R452, R453) -/

/-- sf.owner.mode: 0 OPEN, 1 SIGNED (R453). -/
def ownerMode (s : State) : Nat := b2n s.safe.signedMode

/-- Raise event 0x0E17 with a reason (Table 16-7). (DESIGN CHOICE, log entry 26) -/
def bootEvent (reason : Nat) (s : State) : State :=
  raise 0x0E17 [s.safe.bootState, s.safe.bootSlot, s.safe.fwSecurity, s.safe.rollback, ownerMode s, reason] s

/-- A value of sf.rollback.advance is accepted (R452). -/
def rollbackAccepts (v : Nat) (s : State) : Bool := decide (s.safe.rollback ≤ v) && decide (v ≤ s.safe.fwSecurity)

/-- Raise the fused rollback count to v (R452). -/
def rollbackAdvance (v : Nat) (s : State) : State := bootEvent 3 (setSafe s { s.safe with rollback := v })

/-- Fuse the owner key hash, once (R453). -/
def ownerFuse (h : Bytes) (s : State) : State :=
  match s.safe.ownerHash with
  | some _ => s
  | none => setSafe s { s.safe with ownerHash := some h }

/-! ### Objects -/

/-- Device-set objects of chapter 16. -/
def safetyObj (a : Nat) (s : State) : Option Bytes :=
  let i := oaInst a
  let f := s.safe
  match oaIndex a, oaSub a with
  | 0x1301, _ => some (leBytes 2 f.faults.toNat)
  | 0x1303, _ => some (leBytes 1 f.guarantee.toNat)
  | 0x1307, _ => some (leBytes 4 (unsigned32 (tget 0 f.temps i)))
  | 0x1308, _ => some (leBytes 1 f.safeCause)
  | 0x1310, _ => some (leBytes 4 f.bootState)
  | 0x1311, _ => some (leBytes 1 f.bootSlot)
  | 0x1312, _ => some (leBytes 4 f.bootTime)
  | 0x1313, _ => some (leBytes 4 f.fwVersion.toNat)
  | 0x1314, _ => some (leBytes 1 f.fwSecurity)
  | 0x1315, _ => some (leBytes 1 f.rollback)
  | 0x1317, _ => some (leBytes 4 (ownerMode s))
  | 0x1319, _ => some (leBytes 1 f.revoked.toNat)
  | 0x1400, 1 => some (leBytes 4 (tget 0 f.domains i))
  | 0x1404, _ => some (leBytes 1 f.wakes.length)
  | _, _ => none

end Sys2Proof.Machine
end

