-- ==== Sys2Proof/Machine/Limits.lean ====
section
/-! DEFINITION. Rules between object values, which a live write must keep and a pattern must keep to be VALID (R28,
R243, R275, R293, R302, R429, R469, 16.6). -/
namespace Sys2Proof.Machine

/-- The state in which a slot's values and tables are the active ones: what rules between its values are judged in. -/
def asActive (x : Slot) (s : State) : State := setCtl s { s.ctl with active := x }

/-- Instances of an object index that a slot lists a value for. -/
def listed (x : Slot) (index sub : Nat) : List Nat :=
  x.objs.filterMap fun r => if oaIndex r.1 = index ∧ oaSub r.1 = sub then some (oaInst r.1) else none

/-- Ports whose queue limits a slot sets or rests on (R243). -/
def limitPorts (x : Slot) : List Nat :=
  (listed x 0x5002 0 ++ listed x 0x5007 0 ++ ((listed x 0x5003 0 ++ listed x 0x5008 0).map (· / 8))).eraseDups

/-- A port's limits break R243. (DESIGN CHOICE, log entry 101) -/
def portLimitsBad (s : State) (q : Nat) : Bool :=
  let heel := cfgOn s 0x5007 q 0
  (List.range 8).any fun c =>
    let u := 8 * q + c
    decide (cfgN s 0x5002 q 0 < cfgN s 0x5003 u 0) ||
      (heel && decide (cfgN s 0x5003 u 0 < cfgN s 0x5008 u 0 + 16 * (cfgN s 0x5009 0 0 + 1)))

/-- Reserve and port minimums exceed the buffer (R243): 1,024 ports, those listed at their values. -/
def reserveBad (s : State) : Bool :=
  let l := (listed s.ctl.active 0x5001 0).eraseDups
  let dflt := leNat (objDflt [] (oa 0x5001 0 0))
  decide (655360 < cfgN s 0x5000 0 0 + (1024 - l.length) * dflt + l.foldl (fun a q => a + cfgN s 0x5001 q 0) 0) ||
    cfgN s 0x5000 0 0 % 2 == 1

/-- The miss reservations exceed 8,000 M/s (R28, R163). -/
def reservationsBad (s : State) : Bool :=
  decide (8000 < (List.range 16).foldl (fun a p => a + cfgN s 0x4010 p 0) 0)

/-- A port's shapers break R275. -/
def portShapersBad (s : State) (q : Nat) : Bool :=
  s.ctl.active.objs.any fun r => oaIndex r.1 == 0x5820 && oaInst r.1 == q && shaperBad (leNat r.2) (portRate s q)

/-- Reactions that Table 16-5 allows for a class: 0 LOG, 1 NOTIFY, 2 ISOLATE, 3 SAFE_STOP. -/
def reactionsAllowed (k : Nat) : List Nat :=
  match k with
  | 1 => [255]
  | 8 => [1, 2, 3]
  | 13 => [1, 2, 3]
  | 9 => [3]
  | 16 => [3]
  | 11 => [1, 3]
  | 2 => [0, 1, 3]
  | 3 => [0, 1, 3]
  | 7 => [0, 1, 3]
  | 15 => [0, 1, 3]
  | _ => [0, 1]

/-- A value that its object never takes, beyond the object's own limits: reactions (R469), station entries (R302),
advertised modes (R293), chain entries (R429). -/
def valueBad (a : Nat) (v : Bytes) (s : State) : Bool :=
  let n := leNat v
  match oaIndex a with
  | 0x1300 => oaSub a == 0 && !(reactionsAllowed (oaInst a)).contains n
  | 0x2004 => n != 0 && advertiseBad (cfgN s 0x2000 (oaInst a) 0) (cfgN s 0x2001 (oaInst a) 0) n
  | 0x2008 => stationBad n
  | 0x2009 => stationBad n
  | 0x7003 => decide (1000000000 ≤ fld n 79 48) || fld n 47 0 != 0
  | 0x7800 => chainRefused s (oaInst a) (BitVec.ofNat 32 n)
  | _ => false

/-- A pool's base is misaligned, or the enabled pools hold too many buffers (R399). (DESIGN CHOICE, log entry 101) -/
def poolBad (s : State) (k : Nat) : Bool :=
  cfgN s 0x6840 k 3 % max 4096 (poolSize s k) != 0 ||
  decide (1048576 < (List.range 16).foldl (fun a j => if poolOn s j then a + cfgN s 0x6840 j 1 else a) 0)

/-- A live write that a conflict refuses with BUSY: a pool in use (R399), the division of the DMA channels (13.6). -/
def writeBusy (a : Nat) (v : Bytes) (s : State) : Bool :=
  match oaIndex a with
  | 0x6840 => decide (oaSub a < 4) && (poolOn s (oaInst a) || decide (poolOut s (oaInst a) ≠ 0))
  | 0x6830 => (List.range 32).any fun c => decide (leNat v ≤ c) && !(ring s (dmaKey c)).stopped
  | _ => false

/-- A rule between objects that a live write would break: it is refused with RANGE. -/
def liveBad (a : Nat) (v : Bytes) (s : State) : Bool :=
  let t := setCtl s { s.ctl with active := { s.ctl.active with objs := tput s.ctl.active.objs a v } }
  match oaIndex a with
  | 0x4010 => oaSub a == 0 && reservationsBad t
  | 0x5002 => portLimitsBad t (oaInst a)
  | 0x5003 => portLimitsBad t (oaInst a / 8)
  | 0x5007 => oaSub a == 0 && portLimitsBad t (oaInst a)
  | 0x5008 => oaSub a == 0 && portLimitsBad t (oaInst a / 8)
  | 0x5009 => (listed t.ctl.active 0x5007 0).any fun q => portLimitsBad t q
  | 0x5820 => shaperBad (leNat v) (portRate t (oaInst a))
  | 0x1316 => !rollbackAccepts (leNat v) s
  | 0x6840 => poolBad t (oaInst a)
  | _ => false

/-- A value refused with RANGE by a rule of its own; a staged one is judged beside the staged values.
(DESIGN CHOICE, log entry 101) -/
def ruleRefuses (a : Nat) (v : Bytes) (staged : Bool) (s : State) : Bool :=
  valueBad a v (if staged then asActive s.ctl.staged s else s) || (!staged && liveBad a v s)

end Sys2Proof.Machine
end

