-- ==== Sys2Proof/Machine/Audit.lean ====
section
/-! DEFINITION. The audit against the host shadow (4.8) and the end of a layer-2 rebuild (R121). -/
namespace Sys2Proof.Machine

/-! ### Images of the audit targets (R124, Table 4-11) -/

/-- The active bank. -/
def activeBank (s : State) : Banked := bankOf s s.ctl.epoch

/-- A target is banked. -/
def auditBanked (t : Nat) : Bool := (decide (0x10 ≤ t) && decide (t < 0x20)) || t == 0x20 || t == 0x21

/-- Bytes of an entry of a target, and entries of its image. -/
def auditShape (s : State) (t : Nat) : Nat × Nat :=
  let b := activeBank s
  match t with
  | 0x01 => (32, 2097152)
  | 0x02 => (64, 16777216)
  | 0x03 => (4, 1048576)
  | 0x04 => (8, 65536)
  | 0x05 => (32, 1048576)
  | 0x06 => (4, 66560 * cfgN s 0x3802 0 0)
  | 0x07 => (16, 16384)
  | 0x20 => (128, 4096)
  | 0x21 => (72, 1024)
  | _ => if 0x10 ≤ t ∧ t < 0x20 then
      let g := (t - 0x10) / 4
      let st := t % 4
      (profBytes (stageN b 0x3010 g st), stageEntries b g st)
    else (4, 0)

/-- Blocks of a target. (DESIGN CHOICE, log entry 37) -/
def auditBlocks (s : State) (t : Nat) : Nat :=
  let x := auditShape s t
  (x.1 * x.2 + 4095) / 4096

/-- A word as it stands in an image: all zeros unless it is valid. -/
def imageWord {w : Nat} (valid : Bool) (e : BitVec w) : Nat := if valid then e.toNat else 0

/-- Entry i of a target's image, as a number; an absent or invalid entry is 0. A hit bit and learned_at of a
static layer-2 entry are no part of it. -/
def auditEntry (s : State) (t i : Nat) : Nat :=
  let b := activeBank s
  match t with
  | 0x01 => let e := tget 0 s.fwd.lpm i; imageWord (lpValid e) e
  | 0x02 => let e := nhEntry s i; imageWord (nhKind e != 0) e
  | 0x03 => (tget (0 : BitVec 32) s.fwd.ecmp i).toNat
  | 0x04 => let e := svEntry s i; imageWord (svValid e) e
  | 0x05 => (beEntry s i).toNat
  | 0x06 =>
    let e := lbSlotEntry s (i / 66560) (i % 66560)
    imageWord (bit e 31 && decide (i % 66560 < 65537)) e
  | 0x07 => (tget (0 : BitVec 128) s.fwd.l2static i).toNat
  | 0x20 => (tget (0 : BitVec 1024) b.edits i).toNat
  | 0x21 => (tget (0 : BitVec 576) b.headers i).toNat
  | _ => (tget (0 : BitVec 2176) b.rules (ruleKey ((t - 0x10) / 4) (t % 4) i)).toNat

/-- The bytes of entries i, i + 1, … of a target. -/
def auditBytes (s : State) (t : Nat) : Nat → Nat → Bytes
  | _, 0 => []
  | i, n + 1 =>
    let x := auditShape s t
    (if i < x.2 then leBytes x.1 (auditEntry s t i) else []) ++ auditBytes s t (i + 1) n

/-- A 4 KB block of a target's image, the last one padded with zeros (R124). -/
def auditBlock (s : State) (t blk : Nat) : Bytes :=
  let e := (auditShape s t).1
  let first := 4096 * blk / e
  let last := (4096 * blk + 4095) / e
  padTo 4096 ((auditBytes s t first (last + 1 - first)).drop (4096 * blk - first * e))

/-! ### References (R125) -/

/-- The directory entry of a target in a bank (Table 4-12). -/
def auditDir (s : State) (t bank : Nat) : Nat := leNat (hbmRead s (cfgN s 0x3832 0 0 + 16 * (t + 64 * bank)) 16)

/-- The bank whose references a target is compared with: that of the active epoch, or 0. -/
def auditBank (s : State) (t : Nat) : Nat := if auditBanked t then s.ctl.epoch % 2 else 0

/-- The reference of a block. -/
def auditRef (s : State) (t bank blk : Nat) : Nat :=
  leNat (hbmRead s (cfgN s 0x3832 0 0 + fld (auditDir s t bank) 63 0 + 4 * blk) 4)

/-- The targets of Table 4-11. -/
def auditTargets : List Nat := [1, 2, 3, 4, 5, 6, 7] ++ (List.range 16).map (· + 0x10) ++ [0x20, 0x21]

/-- A target is audited: its directory entry names blocks (R125). -/
def auditActive (s : State) (t : Nat) : Bool := fld (auditDir s t (auditBank s t)) 95 64 != 0

/-- Copies of a block of a target: four where the groups hold identical copies (Table 4-1). -/
def auditCopies (t blk : Nat) : Nat :=
  if t = 1 ∨ t = 3 ∨ t = 4 ∨ t = 7 ∨ (t = 2 ∧ blk < 4096) then 4 else 1

/-- What the hardware finds wrong in one copy of a table: target, copy, block, CRC of the damaged block.
(DESIGN CHOICE, log entry 37) -/
abbrev Damage := Nat × Nat × Nat × Nat

/-- The CRC that a copy of a block reads with: that of its image, or of the damage. -/
def auditCrc (s : State) (bad : List Damage) (t copy blk : Nat) : Nat :=
  match bad.find? fun d => d.1 == t && d.2.1 == copy && d.2.2.1 == blk with
  | some d => d.2.2.2 % 2 ^ 32
  | none => crc32c (auditBlock s t blk)

/-- A copy of a block mismatches its reference. -/
def auditDiffers (s : State) (bad : List Damage) (t copy blk : Nat) : Bool :=
  auditCrc s bad t copy blk != auditRef s t (auditBank s t) blk

/-- Mismatches of one block, one recheck per copy; pass is the AUDIT_PASS that compares it, 0 the periodic audit. -/
def auditBlockRun (bad : List Damage) (t blk pass : Nat) (s : State) : State :=
  let l := (List.range (auditCopies t blk)).filter fun c => auditDiffers s bad t c blk
  let r : List Recheck := l.map fun c => { target := t, bank := auditBank s t, copy := c, block := blk, since := raw s, pass := pass }
  setFwd s { s.fwd with rechecks := s.fwd.rechecks ++ r }

/-- Compare the blocks of a target, from block i on. (DESIGN CHOICE, log entry 37) -/
def auditRun (bad : List Damage) (t : Nat) : Nat → Nat → State → State
  | _, 0, s => s
  | i, n + 1, s => auditRun bad t (i + 1) n (auditBlockRun bad t i 0 s)

/-- A target is not compared while it is STALE (R127). -/
def auditIsStale (s : State) (t : Nat) : Bool := s.fwd.stale.contains (t + 64 * auditBank s t)

/-- The start of a period for one target: STALE when its refreshed field stands as at the last period (R127). -/
def auditFresh (t : Nat) (s : State) : State :=
  let k := t + 64 * auditBank s t
  let r := fld (auditDir s t (auditBank s t)) 127 96
  let same := tfind s.fwd.refreshed k == some r
  if !auditActive s t then setFwd s { s.fwd with stale := s.fwd.stale.filter (· != k) }
  else if !same then setFwd s { s.fwd with stale := s.fwd.stale.filter (· != k) }
  else if s.fwd.stale.contains k then s
  else raise 0x0405 [t, auditBank s t] (setFwd s { s.fwd with stale := s.fwd.stale ++ [k] })

/-- Note the refreshed field of every directory entry. -/
def auditNote (s : State) : State :=
  setFwd s { s.fwd with refreshed := (List.range 128).map fun k => (k, fld (auditDir s (k % 64) (k / 64)) 127 96) }

/-- A complete comparison of a target (R127). (DESIGN CHOICE, log entry 37) -/
def auditTarget (bad : List Damage) (t : Nat) (s : State) : State :=
  ctrSet (auditRun bad t 0 (auditBlocks s t) s) (oa 0x3835 t 0) (devSeconds s)

/-- ft.audit.period has passed since the last period's start (R127). -/
def auditDue (s : State) : Bool :=
  cfgOn s 0x3830 0 0 && (s.fwd.auditAt == 0 || decide (s.fwd.auditAt - 1 + cycSecond * cfgN s 0x3831 0 0 ≤ raw s))

/-- An AUDIT_PASS compares a target: it is active, and not STALE (R125, R127). -/
def auditCompared (s : State) (t : Nat) : Bool := auditTargets.contains t && auditActive s t && !auditIsStale s t

/-- AUDIT_PERIOD: every block of every active target that is not STALE is compared; bad is what the hardware
finds damaged (R127). -/
def execAuditPeriod (bad : List Damage) (s : State) : Host.Outcome State Fault Refusal :=
  if !auditDue s then .next s
  else
    let s0 := setFwd s { s.fwd with auditAt := raw s + 1 }
    let s1 := auditNote (auditTargets.foldl (fun t x => auditFresh x t) s0)
    let go := auditTargets.filter fun t => auditActive s1 t && !auditIsStale s1 t
    .next (reviewGuarantee (go.foldl (fun z t => auditTarget bad t z) s1))

/-- AUDIT_RECHECK: 250 ms after a mismatch its block and reference are read again; a mismatch that persists is
a fault of class TABLE_CONTENT (R127). -/
def execAuditRecheck (bad : List Damage) (s : State) : Host.Outcome State Fault Refusal :=
  match s.fwd.rechecks with
  | [] => .next s
  | r :: rest =>
    if raw s < r.since + cyc 250000000 then .next s
    else
      let s1 := setFwd s { s.fwd with rechecks := rest }
      if (auditBanked r.target && r.bank != s.ctl.epoch % 2) || !auditDiffers s1 bad r.target r.copy r.block then .next s1
      else .next (detect 12 0x0404
        [r.target, r.bank, r.copy, r.block, auditRef s1 r.target r.bank r.block, auditCrc s1 bad r.target r.copy r.block]
        (count 0x3833 0 0 s1))

/-- Device-set audit objects (Table 4-13). -/
def auditObj (a : Nat) (s : State) : Option Bytes :=
  match oaIndex a with
  | 0x3834 =>
    let t := oaInst a
    some (leBytes 4 (if !cfgOn s 0x3830 0 0 || !auditTargets.contains t || !auditActive s t then 0
      else if auditIsStale s t then 2 else 1))
  | _ => none

end Sys2Proof.Machine
end

