-- ==== Sys2Proof/Machine/HostFlow.lean ====
section
/-! DEFINITION. HOST_FLOW and LOAD_V1: the commands of table codes 0x10 and 0x11 and the version 1 records that pass
through the awl cluster (R194, R200, R202, R216, R220). -/
namespace Sys2Proof.Machine

/-! ### Applying the entries of a command (R106) -/

/-- How a command ends, and the state. -/
structure TblEnd where
  status : Nat
  detail : Nat
  done : Nat
  result : Nat
  reply : Bytes
  st : State

/-- Keys carry the command's entries (R194). -/
def tblKeyed (c : TblCmd) : Bool := c.index == 0xFFFFFFFF

/-- The record index or the key of a flow entry. (DESIGN CHOICE, log entry 62) -/
def flowAt (c : TblCmd) (k : Nat) : Option Nat := if tblKeyed c then none else some (c.index + k)
def flowKeyAt (c : TblCmd) (size k : Nat) : BitVec 384 := BitVec.ofNat 384 (beNat (slice c.payload (size * k) 48))

/-- Apply entry k of a command on flows: status, detail, result bytes, state. -/
def flowEntry (c : TblCmd) (k : Nat) (s : State) : Nat × Nat × Bytes × State :=
  match c.op with
  | 1 => match hostInsert (recOfBytes (slice c.payload (128 * k) 128)) s with
    | (st, d, r, t) => (st, d, if st = 0 then leBytes 4 r else [], t)
  | 2 => match hostDelete (flowAt c k) (flowKeyAt c 64 k) s with
    | (st, t) => (st, if st = 0 then 0 else k, [], t)
  | 3 => match hostRead (flowAt c k) (flowKeyAt c 64 k) s with
    | (some b, t) => (0, 0, b, t)
    | (none, t) => (4, k, [], t)
  | _ => match hostModify (flowAt c k) (slice c.payload (96 * k) 96) s with
    | (st, t) => (st, if st = 0 then 0 else k, [], t)

/-- Apply entry k of a command on the NAT address table (R176). -/
def natEntry (c : TblCmd) (k : Nat) (s : State) : Nat × Nat × Bytes × State :=
  let i := c.index + k
  let put := fun (v : Nat) => setFwd s { s.fwd with natab := tset 0 s.fwd.natab i (BitVec.ofNat 128 v) }
  match c.op with
  | 1 => (0, 0, [], put (leNat (slice c.payload (16 * k) 16)))
  | 2 => (0, 0, [], put 0)
  | _ => (0, 0, leBytes 16 (tget (0 : BitVec 128) s.fwd.natab i).toNat, s)

/-- Apply entries k, k + 1, … in ascending order until one is refused. -/
def runEntries (c : TblCmd) (entry : Nat → State → Nat × Nat × Bytes × State) : Nat → Nat → Bytes → State → TblEnd
  | _, 0, acc, s => { status := 0, detail := 0, done := c.count, result := 0, reply := acc, st := s }
  | k, n + 1, acc, s =>
    match entry k s with
    | (0, _, out, t) => runEntries c entry (k + 1) n (acc ++ out) t
    | (st, d, _, t) => { status := st, detail := d, done := k, result := 0, reply := acc, st := t }

/-- Bytes that a READ of flows or of the NAT address table answers. -/
def hostReadBytes (c : TblCmd) : Nat := if c.op = 3 then c.count * (if c.table = 0x10 then 128 else 16) else 0

/-- Execute a command of table code 0x10 or 0x11, after checks 1 to 7 (R494). -/
def hostExec (c : TblCmd) (s : State) : TblEnd :=
  if c.limit < hostReadBytes c then { status := 5, detail := 0, done := 0, result := 0, reply := [], st := s }
  else
    let r := runEntries c (if c.table = 0x10 then flowEntry c else natEntry c) 0 c.count [] s
    let flowWrite := c.table == 0x10 && c.op == 1
    { r with
      result := if flowWrite ∧ r.done ≠ 0 then leNat (r.reply.take 4) else 0
      reply := if c.op = 3 ∧ r.status ≠ 0 then [] else r.reply }

/-! ### Commands in flight (R220, R379, R380) -/

/-- A command came from the command ring. -/
def hostFromRing (c : HostCmd) : Bool := match c.src with
  | .ring _ => true
  | .msg _ => false

/-- Commands of the command ring in flight. -/
def ringFlights (s : State) : Nat := (s.aw.hostCmds.filter hostFromRing).length

/-- The ring of a command for the RING domain: 0 the command ring, 1 the message path (R380). -/
def hostRing (c : HostCmd) : Nat := if hostFromRing c then 0 else 1

/-- Replace the commands in flight. -/
def setHostCmds (s : State) (l : List HostCmd) : State := setAw s { s.aw with hostCmds := l }

/-- Hand a command to HOST_FLOW: whether its class admits the item, and the state (R220, R224). -/
def hostSubmit (c : HostCmd) (s : State) : Bool × State :=
  let r := submitItem { newItem s 10 5 (hostRing c) with data := c.tag } s
  if r.1 then (true, setHostCmds r.2 (r.2.aw.hostCmds ++ [c])) else r

/-- Note how the command of a HOST_FLOW item ended. -/
def hostEnds (tag : Nat) (e : HostEnd) (s : State) : State :=
  setHostCmds s (s.aw.hostCmds.map fun c => if c.tag = tag ∧ c.ended.isNone then { c with ended := some e } else c)

/-- HOST_FLOW's entries reach their home slices and its completion is ready (R220). The entries act when the item's set is
applied. (DESIGN CHOICE, log entry 115) -/
def hostServe (tag : Nat) (s : State) : State :=
  match s.aw.hostCmds.find? fun c => c.tag == tag && c.ended.isNone with
  | none => s
  | some c =>
    let x := hostExec c.cmd s
    hostEnds tag { status := x.status, detail := x.detail, done := x.done, result := x.result, reply := x.reply } x.st

/-! ### LOAD_V1 (R200, R202) -/

/-- The load that a LOAD_V1 item belongs to: its slot and its place in the START order. -/
def loadTag (n : Nat) (o : LongOp) : Nat := n + 16 * o.order

/-- The operation of a LOAD_V1 item, while it is unfinished. -/
def loadOf (tag : Nat) (s : State) : Option (Nat × LongOp) :=
  (tfind s.ctl.ops (tag % 16)).bind fun o =>
    if o.kind = 3 ∧ o.order = tag / 16 ∧ 1 ≤ o.state ∧ o.state ≤ 4 then some (tag % 16, o) else none

/-- One record of a load is done with. -/
def loadDone (n : Nat) (o : LongOp) (s : State) : State :=
  opProgress n (o.done + 1) ((o.done + 1) % 4096 == 0 || o.done + 1 == o.total) s

/-- LOAD_V1 converts a version 1 record and inserts it as a host WRITE (R202). A record of a load that has ended is
dropped. (DESIGN CHOICE, log entry 115) -/
def loadServe (tag : Nat) (b : Bytes) (s : State) : State :=
  match loadOf tag s with
  | none => s
  | some (n, o) =>
    loadDone n o (match fromV1 b s with
      | .inl d => loadRefused n 2 d s
      | .inr x =>
        let r := hostInsert x s
        if r.1 = 0 then r.2.2.2 else loadRefused n r.1 r.2.1 r.2.2.2)

/-- An item of HOST_FLOW or LOAD_V1 ends as a decline: its command ends FAULTED with event 0x0603, its record is passed.
(DESIGN CHOICE, log entry 115) -/
def hostDeclined (i : Item) (s : State) : State :=
  if i.routine = 10 then hostEnds i.data { status := 12, detail := 0x0603, done := 0, result := 0, reply := [] } s
  else if i.routine = 11 then match loadOf i.data s with
    | some (n, o) => loadDone n o s
    | none => s
  else s

end Sys2Proof.Machine
end

