-- ==== Sys2Proof/Machine/AwlBase.lean ====
section
/-! DEFINITION. Awls and their local slots: the regions of a slot, the microword, the scheduler's choice of an awl,
the end of items (7.1, 7.2, 7.6, 7.8). -/
namespace Sys2Proof.Machine

/-! ### Awls and slots (R205, R206, Table 7-1) -/

def awlReset : Awl := { l0 := none, l1 := none, run := 0, retired := false, quiet := false, lastRun := 0 }
def awl (s : State) (a : Nat) : Awl := tget awlReset s.aw.awls a
def setAwl (a : Nat) (x : Awl) (s : State) : State := setAw s { s.aw with awls := tset awlReset s.aw.awls a x }

/-- The context in a slot, and a slot replaced. -/
def slotCtx (x : Awl) (l : Nat) : Option Ctx := if l = 0 then x.l0 else x.l1
def withSlot (x : Awl) (l : Nat) (c : Option Ctx) : Awl := if l = 0 then { x with l0 := c } else { x with l1 := c }
def setSlotCtx (a l : Nat) (c : Option Ctx) (s : State) : State := setAwl a (withSlot (awl s a) l c) s

/-- First bytes of the regions of a local slot. -/
def rgItem : Nat := 0
def rgKey : Nat := 32
def rgRecord : Nat := 80
def rgHeader : Nat := 208
def rgParam : Nat := 464
def rgRegs : Nat := 528
def rgStaged : Nat := 1040
def rgScratch : Nat := 2064
def slotBytes : Nat := 4096

/-- A register. -/
def regOf (c : Ctx) (i : Nat) : BitVec 64 := BitVec.ofNat 64 (leNat (readBytes c.mem (rgRegs + 8 * i) 8))

/-- Write bytes of a slot; bytes beyond its end are lost. -/
def putSlot (o : Nat) (bs : Bytes) (c : Ctx) : Ctx := { c with mem := writeBytes c.mem o (bs.take (slotBytes - o)) }
def setReg (i : Nat) (v : BitVec 64) (c : Ctx) : Ctx := putSlot (rgRegs + 8 * i) (leBytes 8 v.toNat) c

/-- The slot that runs: the present one while it holds a ready item, else the other (R206). While an urgent item that
took the present slot is still prefetched, the awl waits for it (R214). (DESIGN CHOICE, log entry 69) -/
def runSlot (x : Awl) : Option (Nat × Ctx) :=
  let at_ := fun (l : Nat) => (slotCtx x l).bind fun c => if c.ready then some (l, c) else none
  let urgent := match slotCtx x x.run with
    | some c => c.item.cls == 0 && !c.ready
    | none => false
  if urgent then none else (at_ x.run).or (at_ (1 - x.run % 2))

/-- The routine that awl a runs: the awl is neither retired nor stopped by lasting. -/
def running (s : State) (a : Nat) : Option (Nat × Ctx) :=
  let x := awl s a
  if 64 ≤ a ∨ x.retired ∨ x.quiet then none else runSlot x

/-! ### The microword (Tables 7-2, 7-3) -/

def mwSeq (w : BitVec 192) : Nat := bf w 191 189
def mwYield (w : BitVec 192) : Bool := bit w 188
def mwCond (w : BitVec 192) : Nat := bf w 187 183
def mwTspace (w : BitVec 192) : Bool := bit w 182
def mwTarget (w : BitVec 192) : Nat := bf w 181 166
def mwAlu0 (w : BitVec 192) : BitVec 32 := BitVec.ofNat 32 (bf w 159 128)
def mwAlu1 (w : BitVec 192) : BitVec 32 := BitVec.ofNat 32 (bf w 127 96)
def mwMop (w : BitVec 192) : Nat := bf w 95 92
def mwTag (w : BitVec 192) : Nat := bf w 91 88
def mwAreg (w : BitVec 192) : Nat := bf w 87 82
def mwDreg (w : BitVec 192) : Nat := bf w 81 76
def mwReq (w : BitVec 192) : Nat := bf w 75 72
def mwImm (w : BitVec 192) : BitVec 64 := BitVec.ofNat 64 (bf w 63 0)

/-- The address that a target names: patch RAM or ROM. -/
def targetOf (w : BitVec 192) : Bool × Nat := if mwTspace w then (true, mwTarget w % 2048) else (false, mwTarget w)

/-- The following address in the same space. -/
def following (p : Bool × Nat) : Bool × Nat := (p.1, (p.2 + 1) % (if p.1 then 2048 else 65536))

/-- A match register: valid, patch address, ROM address (Table 7-10). -/
def mrValid (v : BitVec 32) : Bool := bit v 31
def mrPatch (v : BitVec 32) : Nat := bf v 26 16
def mrRom (v : BitVec 32) : Nat := bf v 15 0

/-- Where a word is taken from: a ROM address that a valid match register holds is redirected (R209). -/
def fetchAt (s : State) (p : Bool × Nat) : Bool × Nat :=
  if p.1 then p
  else match s.aw.matchReg.find? fun r => decide (r.1 < 64) && mrValid r.2 && mrRom r.2 == p.2 with
    | some r => (true, mrPatch r.2)
    | none => p

/-- The word at an address of the control store. -/
def storeWord (s : State) (p : Bool × Nat) : BitVec 192 := if p.1 then tget 0 s.aw.patchRam p.2 else Config.rom p.2

/-- The word that a context is at. -/
def wordOf (s : State) (c : Ctx) : BitVec 192 := storeWord s (fetchAt s (c.patch, c.pc))

/-- What an ALU slot gives: its destination with the result, and the flags (R207). -/
def aluSlot (c : Ctx) (f : BitVec 32) (imm : BitVec 64) : Option (Nat × BitVec 64) × BitVec 8 :=
  let r := Config.alu f (regOf c (bf f 19 14)) (regOf c (bf f 13 8)) imm
  (r.1.map fun v => (bf f 25 20, v), r.2)

/-- Write an ALU result. -/
def putResult (r : Option (Nat × BitVec 64)) (c : Ctx) : Ctx :=
  match r with
  | some (d, v) => setReg d v c
  | none => c

/-- The ALU slots and the local accesses of a word take effect: both slots read the registers as they stood, alu1's
result stands, alu0 sets the flags (R207). -/
def finishWord (w : BitVec 192) (c : Ctx) : Ctx :=
  let r0 := aluSlot c (mwAlu0 w) (mwImm w)
  let r1 := aluSlot c (mwAlu1 w) (mwImm w)
  let c1 := putResult r1.1 (putResult r0.1 c)
  let c2 := c.late.foldl (fun d x => putSlot x.1 x.2 d) c1
  { c2 with flags := r0.2, late := [], issued := false, atYield := mwYield w }

/-- The word has a memory operation of Table 7-4. -/
def hasMop (w : BitVec 192) : Bool := decide (1 ≤ mwMop w) && decide (mwMop w ≤ 11)

/-- Tags of a mask. -/
def maskTags (m : Nat) : List Nat := (List.range 16).filter fun t => m.testBit t

/-- Every tag of a mask is complete: none is outstanding. -/
def tagsDone (c : Ctx) (m : Nat) : Bool := (maskTags m).all fun t => (tfind c.busy t).isNone

/-- The completion of tags is observed (R208). -/
def observe (ts : List Nat) (c : Ctx) : Ctx := { c with done := c.done.filter fun t => !ts.contains t }

/-! ### The scheduler's choice of an awl (R226, R233) -/

/-- The awl cluster is in its lasting stop (R232). -/
def awlsHalted (s : State) : Bool := fnStopped s .awls

/-- The quadrant of an awl is awake. -/
def quadAwake (s : State) (a : Nat) : Bool := tget 0 s.safe.domains (16 + a / 16) == 0

/-- An awl takes a dispatch: awake, not retired, with a free slot. -/
def awlTakes (s : State) (a : Nat) : Bool :=
  let x := awl s a
  decide (a < 64) && quadAwake s a && !x.retired && !x.quiet && (x.l0.isNone || x.l1.isNone)

/-- An awl is idle: no item in either slot. -/
def awlIdle (s : State) (a : Nat) : Bool := (awl s a).l0.isNone && (awl s a).l1.isNone

/-- An awl takes an urgent item now: it is idle, or its routine has just ended or parked and no word of its other slot
has run since (R214, R226). (DESIGN CHOICE, log entry 69) -/
def awlBreaks (s : State) (a : Nat) : Bool := (slotCtx (awl s a) (awl s a).run).isNone

/-- Busy cycles of an awl in the last window: the words it executed. -/
def busyCycles (s : State) (a : Nat) : Nat := obsGet s (oa 0x4820 a 3)

/-- The awl with the fewest busy cycles among some; of equal ones one on the core die of the item's slice.
(DESIGN CHOICE, log entry 69) -/
def leastBusy (s : State) (slice : Nat) (l : List Nat) : Option Nat :=
  let m := fun (a : Nat) => 2 * busyCycles s a + (if a / 32 = slice / 8 then 0 else 1)
  match l with
  | [] => none
  | a :: t => some (t.foldl (fun b x => if m x < m b then x else b) a)

/-- Time that an item has waited, in ns, by the raw cycle count (R406). -/
def itemWait (s : State) (i : Item) : Nat := (raw s - i.since) * 5 / 4

/-- The awl that an item of class k is given to now, if any (R226, R231). (DESIGN CHOICE, log entry 69) -/
def awlFor (s : State) (k : Nat) (i : Item) : Option Nat :=
  let free := (List.range 64).filter (awlTakes s)
  let last := (domainOf s i).lastAwl
  let others := free.filter fun a => a + 1 != i.avoid
  if k = 0 then (leastBusy s i.slice (others.filter (awlIdle s))).or (leastBusy s i.slice (others.filter (awlBreaks s)))
  else if i.avoid ≠ 0 then leastBusy s i.slice others
  else if i.basis ≠ 0 ∧ last ≠ 0 ∧ awlTakes s (last - 1) then some (last - 1)
  else if cfgN s 0x4830 0 0 ≤ itemWait s i then leastBusy s i.slice free
  else none

/-! ### Items that leave (R230, R231) -/

/-- Eight words of an item as events carry it. -/
def itemWords (i : Item) : List Nat := words32 8 (itemWord i)

/-- The hold entry of a setup or exception item, while it is still that item's. (DESIGN CHOICE, log entry 74) -/
def itemHold (s : State) (i : Item) : Option (Nat × Hold) :=
  let h := holdKey i.slice (i.data % 65536)
  match holdAt s h with
  | some x =>
    if x.chain.head? = some i.desc ∧ (x.state = 3 ∨ x.state = 5) ∧ x.setup.isNone ∧ !x.reverse then some (h, x) else none
  | none => none

/-- An item ends as a decline: a setup with cause ROUTINE, an exception by service against the existing record. -/
def declineItem (i : Item) (s : State) : State :=
  let s1 := count 0x4835 i.routine 2 s
  let s2 := match itemHold s1 i with
    | some (h, _) => if i.source = 1 then insertFail h 5 s1 else if i.source = 2 then exceptionServe h s1 else s1
    | none => s1
  domainReleased i (leaveOut i (hostDeclined i s2))

/-- The buffers that POOL_GET gave an item are freed. -/
def freeGrants (c : Ctx) (s : State) : State := c.grants.foldl (fun t g => poolOp .free g.1 g.2 false false t) s

/-- A fault of the item that awl a runs: it is re-dispatched from its first word, or ends as a decline after two
re-dispatches (R231). cause: 1 mismatch, 2 local-slot error, 3 stack, 4 tag misuse, 5 staged set overflow. -/
def itemFault (a l : Nat) (c : Ctx) (cause : Nat) (s : State) : State :=
  let i := c.item
  let s1 := count 0x4835 i.routine 3 (setSlotCtx a l none (freeGrants c s))
  if 2 ≤ i.dispatches then declineItem i (raise 0x0603 (itemWords i ++ [cause]) s1 true)
  else setFront s1 i.cls
    (({ i with dispatches := i.dispatches + 1, avoid := a + 1, since := raw s }, none) :: frontItems s1 i.cls)

/-! ### The context store (R215) -/

/-- Contexts in the store: parked, or ready and not yet dispatched. -/
def ctxUsed (s : State) : Nat :=
  s.aw.parked.length + (List.range 8).foldl (fun n k => n + ((frontItems s k).filter fun r => r.2.isSome).length) 0

def ctxFull (s : State) : Bool := decide (4096 ≤ ctxUsed s)

/-- A routine that becomes ready or is displaced enters its class at the head, behind those already there (R223). -/
def toFront (c : Ctx) (s : State) : State :=
  let i := { c.item with since := raw s }
  setFront s i.cls (frontItems s i.cls ++ [(i, some { c with item := i })])

/-! ### Dispatch (R223, R226, R227) -/

/-- The item names a record; its source gives it a packet. -/
def namesRecord (i : Item) : Bool := i.basis == 4 || i.source == 2 || i.source == 4
def namesPacket (i : Item) : Bool := i.source == 1 || i.source == 2

/-- Put an item or a resumed context into slot l of awl a; its prefetch begins. -/
def dispatchInto (a l : Nat) (i : Item) (r : Option Ctx) (s : State) : State :=
  let c : Ctx := match r with
    | some c => { c with ready := false, atYield := false }
    | none =>
      { id := s.aw.nextCtx, item := { i with avoid := 0 }, mem := [], ready := false, begun := false, patch := false,
        pc := Config.routineEntry i.routine % 65536, stack := [], flags := 0, issued := false, late := [], atYield := false,
        busy := [], done := [], staged := [], grants := [], mask := 0 }
  let d := domainOf s i
  let s1 := if i.basis = 0 then s else setDomain s i { d with lastAwl := a + 1 }
  let s2 := setSlotCtx a l (some c) (setAw s1 { s1.aw with
    nextCtx := s1.aw.nextCtx + 1
    timers := if i.source = 7 then s1.aw.timers.filter (· != i.data) else s1.aw.timers })
  let s3 := obsAdd (oa 0x4820 a 2) 1 (obsMax (oa 0x4811 i.cls 5) (itemWait s i) (obsAdd (oa 0x4811 i.cls 6) 1
    (obsAdd (oa 0x4811 i.cls 4) (itemWait s i) s2)))
  if namesRecord i then hbmRequest 3 (recAddr s3 i.record) 128 false s3 else s3

/-- Put an item or a resumed context into a free slot of awl a. -/
def dispatchTo (a : Nat) (i : Item) (r : Option Ctx) (s : State) : State :=
  dispatchInto a (if (awl s a).l0.isNone then 0 else 1) i r s

/-- What the scheduler looks at in a class: resumed and displaced work first, then new items, at most 16. -/
def classView (s : State) (k : Nat) : List (Item × Option Ctx × Bool) :=
  ((frontItems s k).map (fun (r : Item × Option Ctx) => (r.1, r.2, true)) ++
    (readyItems s k).map (fun i => (i, none, false))).take 16

/-- The place in a class's view of its first item that may be dispatched, and the awl for it (R226).
(DESIGN CHOICE, log entry 70) -/
def classPick (s : State) (k : Nat) : Option (Nat × Nat) :=
  let v := classView s k
  (List.range v.length).findSome? fun n =>
    match v[n]? with
    | some (i, _, head) =>
      if !head && i.mode == 2 && decide (0 < (domainOf s i).out) then none else (awlFor s k i).map fun a => (n, a)
    | none => none

/-- Dispatch item n of a class's view to awl a. (DESIGN CHOICE, log entry 70) -/
def dispatchItem (k n a : Nat) (s : State) : State :=
  match (classView s k)[n]? with
  | some (i, r, true) => dispatchTo a i r (setFront s k ((frontItems s k).eraseIdx n))
  | some (i, r, false) =>
    let d := domainOf s i
    let s1 := setReady s k ((readyItems s k).eraseIdx (n - (frontItems s k).length))
    dispatchTo a i r (if i.basis = 0 then s1 else setDomain s1 i { d with out := d.out + 1 })
  | none => s

def classStrict (s : State) (k : Nat) : Bool := cfgN s 0x4810 k 0 == 0
def credit (s : State) (k : Nat) : Nat := tget 0 s.aw.credit k

/-- The weighted class that is served next: the lowest dispatchable one with credit, all waiting classes taking their
weight when none has any (R223). (DESIGN CHOICE, log entry 70) -/
def weightedPick (s : State) : Option (Nat × Nat × Nat × State) :=
  let ks := (List.range 8).filter fun k => !classStrict s k
  let can := ks.filterMap fun k => (classPick s k).map fun p => (k, p.1, p.2)
  match can.find? fun c => decide (0 < credit s c.1) with
  | some c => some (c.1, c.2.1, c.2.2, s)
  | none =>
    let waiting := ks.filter fun k => decide (0 < classDepth s k)
    let cr := waiting.foldl (fun t k => tset 0 t k (tget 0 t k + max 1 (cfgN s 0x4810 k 1))) s.aw.credit
    can.head?.map fun c => (c.1, c.2.1, c.2.2, setAw s { s.aw with credit := cr })

/-- The strict class that is served next: the lowest number with a dispatchable item. -/
def strictPick (s : State) : Option (Nat × Nat × Nat) :=
  ((List.range 8).filter (classStrict s)).findSome? fun k => (classPick s k).map fun p => (k, p.1, p.2)

/-- An item of a weighted class waits, and the next dispatch is the one of aw.weighted.floor that goes to such a class
(R223). -/
def weightedWaits (s : State) : Bool := (List.range 8).any fun k => !classStrict s k && decide (0 < classDepth s k)
def weightedDue (s : State) : Bool := weightedWaits s && decide (cfgN s 0x4831 0 0 ≤ s.aw.strictRun + 1)

/-- A dispatch from a strict class is counted while an item of a weighted class waits (R223). -/
def strictRan (s0 s : State) : State :=
  setAw s { s.aw with strictRun := if weightedWaits s0 then s0.aw.strictRun + 1 else 0 }

/-- Dispatch from a weighted class. -/
def dispatchWeighted (c : Nat × Nat × Nat × State) : State :=
  let s := c.2.2.2
  let s1 := dispatchItem c.1 c.2.1 c.2.2.1 s
  setAw s1 { s1.aw with credit := tset 0 s1.aw.credit c.1 (credit s1 c.1 - 1), strictRun := 0 }

/-- ITEM_DISPATCH: the scheduler gives the next eligible item to an awl's free slot (R222 to R226). -/
def execItemDispatch (s : State) : Host.Outcome State Fault Refusal :=
  if awlsHalted s then .next s
  else
    match weightedPick s, strictPick s with
    | none, none => .next s
    | some c, none => .next (dispatchWeighted c)
    | none, some p => .next (strictRan s (dispatchItem p.1 p.2.1 p.2.2 s))
    | some c, some p =>
      if weightedDue s then .next (dispatchWeighted c) else .next (strictRan s (dispatchItem p.1 p.2.1 p.2.2 s))

/-- The record that a setup's template gives, which the routine completes (R217). -/
def templateRecord (s : State) (i : Item) : FlowRec :=
  let p := pkt s i.desc
  let tn := aTemplate (stageZero p.acts)
  newRecord s i.slice tn (template s i.epoch tn) (p.key.getD 0)

/-- The regions that prefetch fills: item, key, record, header, parameter set (R227). An end notice is handed over
with its item: its image in the record region, its trailer at the start of scratch. A setup finds there the record that
its template gives (R217). (DESIGN CHOICE, log entry 67) -/
def prefetch (s : State) (c : Ctx) : Ctx :=
  let i := c.item
  let p := pkt s i.desc
  let img : Bytes := if i.source = 3 then i.bytes.take 128
    else if i.source = 1 then recBytes (templateRecord s i)
    else if namesRecord i then ((mergedRec s i.record).map recBytes).getD [] else []
  let key := if namesPacket i then p.key else if img.isEmpty then none else some (recOfBytes img).key
  let set := if i.routine = 6 then tpParam (template s i.epoch (stTemplate (recOfBytes img).st)) else i.param
  let put := fun (o : Nat) (b : Bytes) (d : Ctx) => putSlot o b d
  let c1 := put rgItem (leBytes 32 (itemWord i)) c
  let c2 := match key with
    | some k => put rgKey (beBytes 48 k.toNat) c1
    | none => c1
  let c3 := if img.isEmpty then c2 else put rgRecord img c2
  let c4 := if namesPacket i then put rgHeader (p.data.take 256) c3 else c3
  let c5 := put rgParam (leBytes 64 (paramSet s i.epoch set).toNat) c4
  let c6 := if i.source = 3 ∧ !c.begun then put rgScratch (i.bytes.drop 128) c5 else c5
  { c6 with ready := true, begun := true }

/-- PREFETCH_COMPLETE: the prefetch of slot l of awl a completes, and its item may run (R227). What the spec does not
say the slot holds is free: all of it at the start of a routine; at a resume what the context store does not keep
(Table 7-1, R215). (DESIGN CHOICE, log entry 67) -/
def execPrefetchComplete (a l : Nat) (s : State) : Host.Outcome State Fault Refusal :=
  match slotCtx (awl s a) l with
  | none => .next s
  | some c =>
    if c.ready ∨ 64 ≤ a ∨ 2 ≤ l ∨ (namesRecord c.item ∧ flowHalted s) then .next s
    else
      let f := fresh 32768 s
      let b := leBytes slotBytes f.1.toNat
      let c1 := if c.begun then putSlot (rgScratch + 480) (slice b (rgScratch + 480) 1552) (putSlot rgKey (slice b rgKey 496) c)
        else putSlot 0 b c
      .next (setSlotCtx a l (some (prefetch f.2 c1)) f.2)

/-- CLASS_AGE_ALARM: an item of class k has waited for its class's age alarm (R223). -/
def execClassAgeAlarm (k : Nat) (s : State) : Host.Outcome State Fault Refusal :=
  let ws := (frontItems s k).map (fun r => itemWait s r.1) ++ (readyItems s k).map (itemWait s)
  let w := ws.foldl max 0
  if ws.isEmpty ∨ w < cfgN s 0x4810 k 3 then .next s
  else .next (raiseLimited 0x0606 k (fun _ => [k, w, classDepth s k]) s)

/-- A timer's number among timers: TIMER_TICK or POOL_RECLAIM. (DESIGN CHOICE, log entry 71) -/
def timerKey (reclaim : Bool) (n : Nat) : Nat := n % 256 + (if reclaim then 256 else 0)

/-- AWL_TIMER: timer n creates a TIMER_TICK item, or a POOL_RECLAIM item for the subscriber whose domain is given,
unless an item of its own waits already (R216, R224). -/
def execAwlTimer (reclaim : Bool) (n domain : Nat) (s : State) : Host.Outcome State Fault Refusal :=
  let k := timerKey reclaim n
  if s.aw.timers.contains k then .next s
  else
    let r := submitItem { newItem s (if reclaim then 14 else 12) 7 (if reclaim then domain else 0) with data := k } s
    .next (if r.1 then setAw r.2 { r.2.aw with timers := r.2.aw.timers ++ [k] } else r.2)

end Sys2Proof.Machine
end

