-- ==== Sys2Proof/Machine/AwlWord.lean ====
section
/-! DEFINITION. Execution of microwords: sequencing, yield points, pair mismatches and item faults (7.2, 7.4, 7.8). -/
namespace Sys2Proof.Machine

/-- Where a word leads: on to an address, the same word again, a park that resumes at an address, the end of the
routine, or a fault of the item. (DESIGN CHOICE, log entry 72) -/
inductive WordNext where
  | go (p : Bool × Nat) (c : Ctx)
  | again
  | park (p : Bool × Nat)
  | finish
  | fault (cause : Nat)

/-- Count an executed word, which costs one cycle (R205). -/
def countWord (a : Nat) (c : Ctx) (s : State) : State :=
  let s1 := obsAdd (oa 0x4820 a 3) 1 (count 0x4835 c.item.routine 1 s)
  setAwl a { awl s1 a with lastRun := raw s1 } s1

/-- A WAIT cycle: the word is executed again. -/
def waitCycle (a : Nat) (s : State) : State := obsAdd (oa 0x4820 a 5) 1 s

/-- The context store is full: event 0x0608, at most once per second (R215). -/
def storeFull (s : State) : State := if ctxFull s then raiseLimited 0x0608 0 (fun _ => [ctxUsed s, seenLately 0x0608 1 s]) s else s

/-- The routine parks: its context goes to the context store (R215); in a lasting stop the awl stops there (R214).
(DEDUCED, log entry 68) -/
def parkCtx (a l : Nat) (c : Ctx) (s : State) : State :=
  let s1 := obsAdd (oa 0x4820 a 4) 1 (setSlotCtx a l none s)
  let s2 := storeFull (setAw s1 { s1.aw with parked := s1.aw.parked ++ [{ c with ready := false }] })
  if awlsHalted s2 then setAwl a { awl s2 a with quiet := true } s2 else s2

/-- A set waits only for lower sequences of its own ORDERED domain (R228, R230). -/
def setMayApply (s : State) (c : CommitSet) : Bool :=
  c.item.mode != 1 || c.item.basis == 0 || c.item.dseq == (domainOf s c.item).release

/-- Sets that wait for predecessors (aw.closer.held). -/
def closerHeld (s : State) : Nat := (s.aw.closer.filter fun c => !setMayApply s c).length

/-- The Closer is full (R230). -/
def closerFull (s : State) : Bool := decide (4096 ≤ closerHeld s)

/-- The Closer is full: event 0x0607, at most once per second (R230). -/
def closerAlarm (s : State) : State := if closerFull s then raiseLimited 0x0607 0 (fun _ => [closerHeld s, seenLately 0x0607 1 s]) s else s

/-- A cycle in which END waits for the Closer. -/
def closerStall (s : State) : State := closerAlarm (noteLately 0x0607 1 (count 0x4839 0 0 s))

/-- A cycle in which PARK waits for the context store: it acts as a WAIT (R215). -/
def storeStall (a : Nat) (s : State) : State := storeFull (noteLately 0x0608 1 (count 0x4837 0 0 (waitCycle a s)))

/-- What the routine hands over beside its staged operations: PTP_OFFSET its servo offset (Table 7-5).
(DESIGN CHOICE, log entry 75) -/
def handedOver (a : Nat) (c : Ctx) : List MemOp :=
  if c.item.routine = 15 then
    [{ mop := 16, args := default, reg := 0, awl := a, data := leBytes 4 (unsigned32 (Config.servoOffset (readBytes c.mem rgRegs 512))) }]
  else []

/-- END: the staged set goes to the Closer; in a lasting stop the awl stops there (R213, R232). -/
def endItem (a l : Nat) (c : Ctx) (s : State) : State :=
  let s1 := setSlotCtx a l none (count 0x4835 c.item.routine 0 s)
  let s2 := closerAlarm (setAw s1 { s1.aw with closer := s1.aw.closer ++ [{ item := c.item, staged := c.staged ++ handedOver a c }] })
  if awlsHalted s2 then setAwl a { awl s2 a with quiet := true } s2 else s2

/-- Awl a executes its current word when that is of kind seq and its memory operation, if it has one, is issued.
(DESIGN CHOICE, log entry 72) -/
def execWord (seq a : Nat) (next : State → BitVec 192 → Bool × Nat → Ctx → WordNext) (s : State) : State :=
  match running s a with
  | none => s
  | some (l, c) =>
    let w := wordOf s c
    if mwSeq w ≠ seq ∨ (hasMop w ∧ !c.issued) then s
    else
      let s1 := countWord a c (setAwl a { awl s a with run := l } s)
      let e := following (fetchAt s (c.patch, c.pc))
      let fin := fun (d : Ctx) => finishWord w d
      match next s w e c with
      | .go p d => setSlotCtx a l (some { fin d with patch := p.1, pc := p.2 }) s1
      | .again => waitCycle a (setSlotCtx a l (some { fin c with atYield := false }) s1)
      | .park p =>
        if ctxFull s then storeStall a (setSlotCtx a l (some { fin c with atYield := false }) s1)
        else parkCtx a l { fin c with patch := p.1, pc := p.2, mask := BitVec.ofNat 16 (mwTarget w) } s1
      | .finish =>
        if closerFull s then closerStall (setSlotCtx a l (some { fin c with atYield := false }) s1)
        else endItem a l (fin c) s1
      | .fault cause => itemFault a l c cause s1

/-- NEXT: the word proceeds to the following address (R207). -/
def execNext (a : Nat) (s : State) : Host.Outcome State Fault Refusal := .next (execWord 0 a (fun _ _ e c => .go e c) s)

/-- JUMP: to target. -/
def execJump (a : Nat) (s : State) : Host.Outcome State Fault Refusal :=
  .next (execWord 1 a (fun _ w _ c => .go (targetOf w) c) s)

/-- A BRANCH condition holds in a context. -/
def condHolds (c : Ctx) (cond : Nat) : Bool :=
  match Config.condTag cond with
  | some t => (tfind c.busy (t % 16)).isNone
  | none => Config.condFlags cond c.flags

/-- BRANCH: to target when cond holds, else to the following address; a completion that it tests is observed (R207, R208). -/
def execBranch (a : Nat) (s : State) : Host.Outcome State Fault Refusal :=
  .next (execWord 2 a (fun _ w e c =>
    let yes := condHolds c (mwCond w)
    let d := match Config.condTag (mwCond w) with
      | some t => if yes then observe [t % 16] c else c
      | none => c
    .go (if yes then targetOf w else e) d) s)

/-- CALL: pushes the following address and goes to target; a ninth nested CALL faults the item (R207). -/
def execCall (a : Nat) (s : State) : Host.Outcome State Fault Refusal :=
  .next (execWord 3 a (fun _ w e c => if 8 ≤ c.stack.length then .fault 3 else .go (targetOf w) { c with stack := e :: c.stack }) s)

/-- RETURN: pops the return address; an empty stack faults the item (R207). -/
def execRet (a : Nat) (s : State) : Host.Outcome State Fault Refusal :=
  .next (execWord 4 a (fun _ _ _ c => match c.stack with
    | [] => .fault 3
    | p :: t => .go p { c with stack := t }) s)

/-- WAIT: the following address once every tag in the mask is complete; otherwise the same word again (Table 7-3). -/
def execWait (a : Nat) (s : State) : Host.Outcome State Fault Refusal :=
  .next (execWord 5 a (fun _ w e c =>
    if tagsDone c (mwTarget w) then .go e (observe (maskTags (mwTarget w)) c) else .again) s)

/-- PARK: the following address once every tag in the mask is complete; otherwise the routine parks (R215). -/
def execPark (a : Nat) (s : State) : Host.Outcome State Fault Refusal :=
  .next (execWord 6 a (fun _ w e c =>
    if tagsDone c (mwTarget w) then .go e (observe (maskTags (mwTarget w)) c) else .park e) s)

/-- END: the routine ends and its staged set goes to the Closer (R213, R230). -/
def execFinish (a : Nat) (s : State) : Host.Outcome State Fault Refusal := .next (execWord 7 a (fun _ _ _ _ => .finish) s)

/-! ### Interrupts (R214, R232, R233) -/

/-- A quiesce is asked of awl a: a lasting stop of the cluster, or its quadrant enters sleep. -/
def quiesceAsked (s : State) (a : Nat) : Bool := awlsHalted s || tget 0 s.safe.domains (16 + a / 16) == 3

/-- An urgent item waits and no awl that is idle takes it (R226). (DESIGN CHOICE, log entry 69) -/
def urgentWaits (s : State) : Bool :=
  decide (0 < classDepth s 0) && !((List.range 64).any fun a => awlTakes s a && awlIdle s a)

/-- An item waits at the head of class 0 that awl a may run: an urgent item of a fault in this awl avoids it (R231). -/
def urgentHead (s : State) : Option Item := ((frontItems s 0).map (·.1) ++ readyItems s 0).head?
def urgentFor (s : State) (a : Nat) : Bool := urgentWaits s && (urgentHead s).any fun i => i.avoid != a + 1

/-- The dispatch of an urgent item at a yield point counts as one of its class (R223): not when the next dispatch is due
to a weighted class. -/
def urgentDue (s : State) : Bool := classStrict s 0 && weightedDue s
def urgentRan (s0 s : State) : State :=
  if classStrict s0 0 then strictRan s0 s
  else setAw s { s.aw with credit := tset 0 s.aw.credit 0 (credit s 0 - 1), strictRun := 0 }

/-- YIELD_POINT: at a yield point with an interrupt pending, awl a parks its routine, which re-enters its class at the
head, and takes the interrupt: an urgent item runs in the freed slot, or lasting stops the awl (R214).
(DEDUCED, log entry 68) -/
def execYieldPoint (a : Nat) (s : State) : Host.Outcome State Fault Refusal :=
  match running s a with
  | none => .next s
  | some (l, c) =>
    if !c.atYield ∨ c.issued ∨ ctxFull s ∨ !(quiesceAsked s a || (urgentFor s a && !urgentDue s)) then .next s
    else
      let s1 := toFront { c with ready := false, mask := 0 } (obsAdd (oa 0x4820 a 4) 1
        (setAwl a { withSlot (awl s a) l none with run := l } s))
      if quiesceAsked s a then .next (if awlsHalted s then setAwl a { awl s1 a with quiet := true } s1 else s1)
      else match frontItems s 0, readyItems s 0 with
        | r :: _, _ => .next (urgentRan s (dispatchInto a l r.1 r.2 (setFront s1 0 ((frontItems s1 0).drop 1))))
        | [], i :: t => .next (urgentRan s (dispatchInto a l i none (setReady s1 0 t)))
        | [], [] => .next s1

/-! ### Faults of a pair and of an item (R231) -/

/-- Retired pairs. -/
def awlsRetired (s : State) : Nat := (s.aw.awls.filter fun r => r.2.retired).length

/-- Quadrants with a retired pair, as bits. -/
def quadsRetired (s : State) : Nat :=
  (List.range 4).foldl (fun n q => n + (if s.aw.awls.any fun r => r.2.retired && r.1 / 16 == q then 2 ^ q else 0)) 0

/-- AWL_PAIR_MISMATCH: the comparator of awl a finds a mismatch: the pair is retired until the next reset, its running
item is re-dispatched, the item of its other slot returns to the head of its class (R231). -/
def execAwlPairMismatch (a : Nat) (s : State) : Host.Outcome State Fault Refusal :=
  let x := awl s a
  if 64 ≤ a ∨ x.retired then .next s
  else
    let run := running s a
    let c := run.map (·.2)
    let at_ := (c.map fun d => fetchAt s (d.patch, d.pc)).getD (false, 0)
    let ws := (c.map fun d => itemWords d.item).getD (List.replicate 8 0)
    let s1 := setAwl a { x with retired := true } (detect 5 0x0601 (a :: (at_.2 + 65536 * b2n at_.1) :: ws) s)
    let s2 := match run with
      | some (l, d) =>
        let t := itemFault a l d 1 s1
        if awlsRetired t = cfgN t 0x4833 0 0 then raise 0x0602 [awlsRetired t, quadsRetired t] t true else t
      | none => if awlsRetired s1 = cfgN s1 0x4833 0 0 then raise 0x0602 [awlsRetired s1, quadsRetired s1] s1 true else s1
    let back := fun (t : State) (l : Nat) => match slotCtx (awl t a) l with
      | none => t
      | some d =>
        let i := { d.item with since := raw t }
        let e : Item × Option Ctx := (i, if d.begun then some { d with ready := false, item := i } else none)
        setFront (setSlotCtx a l none t) i.cls (e :: frontItems t i.cls)
    .next ([0, 1].foldl back s2)

/-- ITEM_FAULT: the item that awl a runs meets an uncorrectable local-slot error (R231, cause 2). The faults of a word
itself (stack, tags, staged set) arise in the word. (DESIGN CHOICE, log entry 76) -/
def execItemFault (a : Nat) (s : State) : Host.Outcome State Fault Refusal :=
  match running s a with
  | some (l, c) => .next (itemFault a l c 2 s)
  | none => .next s

end Sys2Proof.Machine
end

