-- ==== Sys2Proof/Machine/AwlMem.lean ====
section
/-! DEFINITION. The memory operations of microwords (R208, Table 7-4, R213, R218). -/
namespace Sys2Proof.Machine

/-- The arguments of the memory operation of a word in a context. -/
def argsOf (w : BitVec 192) (c : Ctx) : MemArgs :=
  Config.memArgs (mwMop w) (mwReq w) (regOf c (mwAreg w)) (regOf c (mwDreg w)) (mwImm w)

/-- Bytes of the slot that an operation takes along. -/
def slotData (c : Ctx) (o n : Nat) : Bytes := readBytes c.mem (o % slotBytes) n

/-- Awl a issues the memory operation of its current word when that is operation mop; go is what the operation does:
the context after it and the state, or a fault of the item. (DESIGN CHOICE, log entry 72) -/
def issueOp (mop a : Nat) (go : BitVec 192 → MemArgs → Ctx → State → Nat ⊕ (Ctx × State)) (s : State) : State :=
  match running s a with
  | none => s
  | some (l, c) =>
    let w := wordOf s c
    if mwMop w ≠ mop ∨ c.issued then s
    else
      match go w (argsOf w c) c (setAwl a { awl s a with run := l } s) with
      | .inl cause => itemFault a l c cause s
      | .inr (d, t) => setSlotCtx a l (some { d with issued := true }) t

/-- The operation of a word. -/
def opOf (a : Nat) (w : BitVec 192) (g : MemArgs) (data : Bytes) : MemOp :=
  { mop := mwMop w, args := g, reg := mwDreg w, awl := a, data := data }

/-- Put an operation under the word's tag; a tag that is outstanding or not yet observed faults the item (R208).
(DESIGN CHOICE, log entry 72) -/
def underTag (a : Nat) (w : BitVec 192) (g : MemArgs) (data : Bytes) (c : Ctx) (s : State) : Nat ⊕ (Ctx × State) :=
  let t := mwTag w
  if (tfind c.busy t).isSome ∨ c.done.contains t then .inl 4
  else .inr ({ c with busy := tput c.busy t (opOf a w g data) }, s)

/-- Bytes of a staged set. -/
def stagedBytes (l : List MemOp) : Nat := l.foldl (fun n o => n + o.args.staged) 0

/-- Stage an operation; a staged set above 1,024 B faults the item. The routine reads its staged writes in the staged
region, operations in order, each with its data first; what else an operation puts there is free (R213).
(DESIGN CHOICE, log entry 67) -/
def stageOp (a : Nat) (w : BitVec 192) (g : MemArgs) (data : Bytes) (c : Ctx) (s : State) : Nat ⊕ (Ctx × State) :=
  let f := fresh 8192 s
  let o := stagedBytes c.staged
  let bs := ((data ++ (leBytes 1024 f.1.toNat).drop data.length)).take g.staged
  if 1024 < o + g.staged then .inl 5
  else .inr (putSlot (rgStaged + o) bs { c with staged := c.staged ++ [opOf a w g data] }, f.2)

/-- A 64-byte unit of the awl-data partition by its offset, which wraps in the partition, and its address. -/
def awlDataOff (s : State) (off : Nat) : Nat := off / 64 * 64 % max 64 (partSize s 3)
def awlDataAddr (s : State) (off : Nat) : Nat := partAddr s 3 (awlDataOff s off)

/-- LOCAL_RD: local slot to register, by the next word. -/
def execLocalRd (a : Nat) (s : State) : Host.Outcome State Fault Refusal :=
  .next (issueOp 1 a (fun w g c t =>
    .inr ({ c with late := c.late ++ [(rgRegs + 8 * mwDreg w, padTo 8 (slotData c g.offset (min 8 g.len)))] }, t)) s)

/-- LOCAL_WR: register to local slot, by the next word. -/
def execLocalWr (a : Nat) (s : State) : Host.Outcome State Fault Refusal :=
  .next (issueOp 2 a (fun w g c t =>
    .inr ({ c with late := c.late ++ [(g.offset % slotBytes, (leBytes 8 (regOf c (mwDreg w)).toNat).take (min 8 g.len))] }, t)) s)

/-- AD_READ: 64 B of awl data to scratch under a tag, in HBM class awl data. -/
def execAdRead (a : Nat) (s : State) : Host.Outcome State Fault Refusal :=
  .next (issueOp 3 a (fun w g c t => underTag a w g [] c (hbmRequest 4 (awlDataAddr t g.target) 64 false t)) s)

/-- AD_WRITE: 64 B to awl data, staged. -/
def execAdWrite (a : Nat) (s : State) : Host.Outcome State Fault Refusal :=
  .next (issueOp 4 a (fun w g c t => stageOp a w g (slotData c g.offset 64) c t) s)

/-- An awl's request reaches the home slice of a record or a key: what waits there is served first (R27, R149). -/
def reachRecord (r : Nat) (s : State) : State :=
  match flowRec s r with
  | some x => sliceDrain (homeSlice s x.key) s
  | none => s

/-- SLICE: READ of a merged record or PROBE of a key under a tag; WRITE staged (AWL_ACCESS of Table 5-7a).
(DESIGN CHOICE, log entry 73) -/
def execSlice (a : Nat) (s : State) : Host.Outcome State Fault Refusal :=
  .next (issueOp 5 a (fun w g c t =>
    match g.what with
    | 0 => underTag a w g [] c (hbmRequest 3 (recAddr t g.target) 128 false (reachRecord g.target t))
    | 1 =>
      let key := slotData c g.offset 48
      underTag a w g key c (sliceDrain (homeSlice t (BitVec.ofNat 384 (beNat key))) t)
    | 2 => stageOp a w g (slotData c g.offset 128) c t
    | _ => stageOp a w g (slotData c g.offset 48) c t) s)

/-- HASH: CRC-32C(seed, data) over up to 48 B of the slot, to a register. (DESIGN CHOICE, log entry 73) -/
def execHash (a : Nat) (s : State) : Host.Outcome State Fault Refusal :=
  .next (issueOp 6 a (fun w g c t => underTag a w g (slotData c g.offset (min 48 g.len)) c t) s)

/-- POOL_GET: one buffer from the pool manager. (DESIGN CHOICE, log entry 73) -/
def execPoolGet (a : Nat) (s : State) : Host.Outcome State Fault Refusal :=
  .next (issueOp 7 a (fun w g c t => underTag a w g [] c t) s)

/-- POOL_PUT: free of a buffer, staged. -/
def execPoolPut (a : Nat) (s : State) : Host.Outcome State Fault Refusal := .next (issueOp 8 a (fun w g c t => stageOp a w g [] c t) s)

/-- RELEASE: packet release or decision, with output, edit program and rewritten header, staged. -/
def execRelease (a : Nat) (s : State) : Host.Outcome State Fault Refusal :=
  .next (issueOp 9 a (fun w g c t => stageOp a w g (slotData c g.offset (min 256 g.len)) c t) s)

/-- COUNT: add to an event counter or record counter, staged. -/
def execCount (a : Nat) (s : State) : Host.Outcome State Fault Refusal := .next (issueOp 10 a (fun w g c t => stageOp a w g [] c t) s)

/-- The flow image in a slot's record region. -/
def slotRecord (c : Ctx) : FlowRec := recOfBytes (readBytes c.mem rgRecord 128)

/-- The reason of an end notice in a slot (Table 6-6). -/
def noticeReason (c : Ctx) : Nat := leNat (readBytes c.mem rgScratch 16) / 2 ^ 48 % 256

/-- The record of an end notice. -/
def noticeIndex (c : Ctx) : Nat := leNat (readBytes c.mem rgScratch 16) / 2 ^ 67 % 2 ^ 29

/-- What EMIT stages: AGE_EXPORT and IPFIX_BUILD the flow's export record (R437, Table 15-3), with its template before
it; another routine bytes of its slot. A start record is one that a setup triggered (source data 1).
(DESIGN CHOICE, log entry 75) -/
def emitData (s : State) (g : MemArgs) (c : Ctx) : Bytes :=
  let x := slotRecord c
  match c.item.routine with
  | 8 => beBytes 2 (flowTemplate true x) ++ flowData s true (noticeIndex c) (noticeReason c) x
  | 9 =>
    let full := c.item.data != 1
    beBytes 2 (flowTemplate full x) ++ flowData s full c.item.record 0 x
  | _ => slotData c g.offset g.len

/-- EMIT: bytes to an export stream, a log stream or an event queue, staged. -/
def execEmit (a : Nat) (s : State) : Host.Outcome State Fault Refusal :=
  .next (issueOp 11 a (fun w g c t => stageOp a w g (emitData t g c) c t) s)

/-! ### Completion -/

/-- Where a context is: a slot of an awl, the context store, or the head of a class. -/
inductive CtxPlace where
  | slot (a l : Nat)
  | store
  | front (k : Nat)
  deriving DecidableEq

/-- Find a context by its number. -/
def findCtx (s : State) (id : Nat) : Option (CtxPlace × Ctx) :=
  let inSlot := s.aw.awls.findSome? fun r => [0, 1].findSome? fun l => match slotCtx r.2 l with
    | some c => if c.id = id then some (CtxPlace.slot r.1 l, c) else none
    | none => none
  let inStore := (s.aw.parked.find? fun c => c.id == id).map fun c => (CtxPlace.store, c)
  let inFront := (List.range 8).findSome? fun k => (frontItems s k).findSome? fun r => match r.2 with
    | some c => if c.id = id then some (CtxPlace.front k, c) else none
    | none => none
  (inSlot.or inStore).or inFront

/-- A parked routine whose tags are all complete becomes ready at the head of its class (R215). -/
def parkReady (c : Ctx) (s : State) : State :=
  let s1 := setAw s { s.aw with parked := s.aw.parked.filter fun d => d.id != c.id }
  if tagsDone c c.mask.toNat then toFront (observe (maskTags c.mask.toNat) c) s1
  else setAw s1 { s1.aw with parked := s.aw.parked.map fun d => if d.id = c.id then c else d }

/-- Put a context back where it is. -/
def putCtx (p : CtxPlace) (c : Ctx) (s : State) : State :=
  match p with
  | .slot a l => setSlotCtx a l (some c) s
  | .store => parkReady c s
  | .front k => setFront s k ((frontItems s k).map fun r => match r.2 with
    | some d => if d.id = c.id then (r.1, some c) else r
    | none => r)

/-- PROBE of a key at its home slice: found, or absent and then reserved for the item's hold entry as a reverse key in
state SETUP (R218). A key that another hold entry stands for, or no room for the reservation, counts as used.
(DESIGN CHOICE, log entry 73) -/
def probeKey (i : Item) (k : BitVec 384) (s : State) : Option Nat × State :=
  let n := homeSlice s k
  match idxFind s k with
  | some r => (some r, s)
  | none =>
    if (holdFor s n k).isSome then (some 0, s)
    else match itemHold s i, freeHold s n with
      | some (h, x), some o =>
        let s1 := match x.other with
          | some p => refetch p s
          | none => s
        let y := { emptyHold k 3 with
          pipe := x.pipe, template := x.template, epoch := x.epoch, since := raw s, reverse := true, other := some h }
        (none, setHold o y (setHold h { x with other := some o } s1))
      | some _, none => (some 0, holdFull n s)
      | none, _ => (none, s)

/-- Where an AD_READ's 64 bytes go: into scratch (Table 7-4). -/
def scratchAt (g : MemArgs) : Nat := rgScratch + g.offset % (slotBytes - rgScratch - 63)

/-- The result of a completed operation in its context. What a read of poisoned units or of a record not in use gives is
free (R356). (DESIGN CHOICE, log entry 73) -/
def completeOp (o : MemOp) (c : Ctx) (s : State) : Ctx × State :=
  let g := o.args
  match o.mop, g.what with
  | 3, _ =>
    let ad := awlDataAddr s g.target
    let f := fresh 512 s
    if rangePoisoned s ad 64 then (putSlot (scratchAt g) (leBytes 64 f.1.toNat) c, f.2)
    else (putSlot (scratchAt g) (awlUnit s (awlDataOff s g.target)) c, s)
  | 5, 0 =>
    let f := fresh 1024 s
    match mergedRec s g.target with
    | some x => (putSlot (g.offset % slotBytes) (recBytes x) c, s)
    | none => (putSlot (g.offset % slotBytes) (leBytes 128 f.1.toNat) c, f.2)
  | 5, _ =>
    let r := probeKey c.item (BitVec.ofNat 384 (beNat o.data)) s
    (setReg o.reg (Config.probeResult r.1) c, r.2)
  | 6, _ => (setReg o.reg (BitVec.ofNat 64 (seededCrc g.seed o.data)) c, s)
  | 7, _ =>
    let r := poolGet o.awl g.len g.target s
    ({ setReg o.reg (BitVec.ofNat 64 r.1) c with
       grants := if r.1 = 0 then c.grants else c.grants ++ [(o.awl, bufAddr r.2 (r.1 - 1))] }, r.2)
  | _, _ => (c, s)

/-- MEM_OP_COMPLETE: the operation of context id under a tag completes; a parked routine whose tags are all complete
becomes ready (R208, R215). While the slices pause they complete nothing. -/
def execMemOpComplete (id tag : Nat) (s : State) : Host.Outcome State Fault Refusal :=
  match findCtx s id with
  | none => .next s
  | some (p, c) => match tfind c.busy tag with
    | none => .next s
    | some o =>
      if o.mop = 5 ∧ flowHalted s then .next s
      else
        let r := completeOp o { c with busy := tdel c.busy tag, done := c.done ++ [tag] } s
        .next (putCtx p r.1 r.2)

end Sys2Proof.Machine
end

