-- ==== Sys2Proof/Machine/NatPool.lean ====
section
/-! DEFINITION. The NAT pools of routines 1 to 3 and POOL_RECLAIM: port blocks, endpoint-independent mappings and the
search for a port (R217, R218, Table 7-6). -/
namespace Sys2Proof.Machine

/-- n bytes of a parameter set from byte lo on, little-endian. -/
def psField (w : BitVec 512) (lo n : Nat) : Nat := bf w (8 * (lo + n) - 1) (8 * lo)

def psNatBase (w : BitVec 512) : Nat := psField w 0 3 % 2 ^ 20
def psNatCm1 (w : BitVec 512) : Nat := psField w 3 3 % 2 ^ 20
def psPortLo (w : BitVec 512) : Nat := psField w 6 2
def psPortHi (w : BitVec 512) : Nat := psField w 8 2
def psBlock (w : BitVec 512) : Nat := psField w 10 2
def psMaxBlocks (w : BitVec 512) : Nat := psField w 12 1
def psFlag (w : BitVec 512) (b : Nat) : Bool := (psField w 13 1).testBit b
def psBlockHold (w : BitVec 512) : Nat := psField w 14 4
def psLogStream (w : BitVec 512) : Nat := psField w 18 1 % 16

/-- The blocks that a subscriber holds, newest first. -/
def subBlocks (s : State) (src : Nat) : List NatBlock := tget [] s.aw.subs src
def setBlocks (src : Nat) (l : List NatBlock) (s : State) : State := setAw s { s.aw with subs := tset [] s.aw.subs src l }

/-- An address of the NAT address table. -/
def natEntryAddr (s : State) (i : Nat) : Nat := (tget (0 : BitVec 128) s.fwd.natab i).toNat

/-- A reverse key may be taken at its home slice: it shares the slice and is absent, or reserved for the item itself
(R218). (DESIGN CHOICE, log entry 116) -/
def natOpen (s : State) (n : Nat) (own : Option Nat) (rk : BitVec 384) : Bool :=
  homeSlice s rk == n && (idxFind s rk).isNone && ((holdFor s n rk).isNone || holdFor s n rk == own)

/-- The search of a block from candidate i on: the port and its reverse key (R218). -/
def blockPort (s : State) (n : Nat) (k : BitVec 384) (own : Option Nat) (b : NatBlock) : Nat → Nat → Option (Nat × BitVec 384)
  | 0, _ => none
  | m + 1, i =>
    let p := b.first + (keyHash s 2 k % 65536 + i) % max 1 b.size
    let rk := reverseKey s k false (natEntryAddr s b.natIndex) p
    if natOpen s n own rk then some (p, rk) else blockPort s n k own b m (i + 1)

/-- The search of a subscriber's blocks: address table entry, port, reverse key. -/
def blocksPort (s : State) (n : Nat) (k : BitVec 384) (own : Option Nat) (l : List NatBlock) : Option (Nat × Nat × BitVec 384) :=
  l.findSome? fun b => (blockPort s n k own b b.size 0).map fun r => (b.natIndex, r.1, r.2)

/-- A block overlaps one that a subscriber holds. -/
def blockTaken (s : State) (i first size : Nat) : Bool :=
  s.aw.subs.any fun r => r.2.any fun b =>
    b.natIndex == i && decide (first < b.first + b.size) && decide (b.first < first + size)

/-- A new block of the pool of a parameter set: of those that no subscriber holds, which one is free; with paired pooling
one at the address of the subscriber's first block (R218). (DESIGN CHOICE, log entry 116) -/
def blockAlloc (w : BitVec 512) (l : List NatBlock) (s : State) : Option NatBlock × State :=
  let size := max 1 (psBlock w)
  let per := (psPortHi w + 1 - psPortLo w) / size
  let paired := psFlag w 1 && !l.isEmpty
  let base := if paired then (l.getLast?.map (·.natIndex)).getD 0 else psNatBase w
  let total := if paired then per else (psNatCm1 w + 1) * per
  let tries := s.aw.subs.foldl (fun n r => r.2.foldl (fun m b => m + b.size / size + 2) n) 1
  let f := fresh 40 s
  let at_ := fun (j : Nat) => ((base + j / max 1 per) % 2 ^ 20, psPortLo w + j % max 1 per * size)
  ((List.range (min total tries)).findSome? fun j =>
    let c := at_ ((f.1.toNat + j) % max 1 total)
    if blockTaken s c.1 c.2 size then none
    else some { natIndex := c.1, first := c.2, size := size, hold := psBlockHold w, last := raw s,
                log := if psFlag w 0 then some (psLogStream w) else none }, f.2)

/-- A block holds a port of an address. -/
def blockHas (b : NatBlock) (i p : Nat) : Bool := b.natIndex == i && decide (b.first ≤ p) && decide (p < b.first + b.size)

/-- The log record of a block: event 16 allocated, 17 freed (Table 15-4). -/
def blockLog (event src : Nat) (b : NatBlock) (s : State) : State :=
  match b.log with
  | none => s
  | some st =>
    let v6 := addrFam src == 1
    queueRecord st (if v6 then 265 else 264) (beBytes 8 (todMs s) ++ leBytes 1 event ++ (if v6 then beBytes 16 src else beBytes 4 src) ++
      beBytes 4 (natEntryAddr s b.natIndex) ++ beBytes 2 b.first ++ beBytes 2 (b.first + b.size - 1)) s

/-- The mapping of a source endpoint, where NAT44_EIM may reuse it (R218). -/
def eimPick (s : State) (n : Nat) (k : BitVec 384) (own : Option Nat) : Option (Nat × Nat × BitVec 384) :=
  let e := kForward k
  (tfind s.aw.eim (65536 * e.1 + e.2.1)).bind fun m =>
    let rk := reverseKey s k false (natEntryAddr s m.1) m.2
    if natOpen s n own rk then some (m.1, m.2, rk) else none

/-- What routines 1 to 3 choose for a setup: address table entry, port and reverse key, none being a decline; the blocks
of the subscriber after it, and a newly allocated one (R218). (DESIGN CHOICE, log entry 116) -/
def natPick (routine n : Nat) (w : BitVec 512) (k : BitVec 384) (own : Option Nat) (s : State) :
    Option (Nat × Nat × BitVec 384) × Option NatBlock × State :=
  let l := subBlocks s (fwdSource k)
  match (if routine = 2 then eimPick s n k own else none).or (blocksPort s n k own l) with
  | some c => (some c, none, s)
  | none =>
    if psMaxBlocks w ≤ l.length then (none, none, s)
    else
      let a := blockAlloc w l s
      match a.1 with
      | none => (none, none, a.2)
      | some b => match blocksPort s n k own [b] with
        | some c => (some c, some b, a.2)
        | none => (none, none, a.2)

/-- The subscriber entry, the mapping and the block log that a chosen port leaves (R218). -/
def natKeep (routine : Nat) (w : BitVec 512) (k : BitVec 384) (c : Nat × Nat) (b : Option NatBlock) (s : State) : State :=
  let src := fwdSource k
  let l := (b.toList ++ subBlocks s src).map fun x =>
    if blockHas x c.1 c.2 then { x with last := raw s, hold := psBlockHold w } else x
  let s1 := setBlocks src l s
  let s2 := if routine = 2 then
      setAw s1 { s1.aw with eim := tput s1.aw.eim (65536 * src + (kForward k).2.1) c }
    else s1
  match b with
  | some x => blockLog 16 src x s2
  | none => s2

/-- POOL_RECLAIM frees the blocks of the subscribers of a domain whose block_hold has passed since their last setup, with
the mappings in them (R218). (DESIGN CHOICE, log entry 116) -/
def poolReclaim (domain : Nat) (s : State) : State :=
  let mine := s.aw.subs.filter fun r => seededCrc (flowSeed s 2) (beBytes 16 r.1) == domain
  let due := fun (b : NatBlock) => decide (b.last + b.hold * cycSecond ≤ raw s)
  mine.foldl (fun t r =>
    let gone := r.2.filter due
    let t1 := setBlocks r.1 (r.2.filter fun b => !due b) t
    let t2 := setAw t1 { t1.aw with eim := t1.aw.eim.filter fun e =>
      !(e.1 / 65536 == r.1 && gone.any fun b => blockHas b e.2.1 e.2.2) }
    gone.foldl (fun u b => blockLog 17 r.1 b u) t2) s

end Sys2Proof.Machine
end

