-- ==== Sys2Proof/Machine/Closer.lean ====
section
/-! DEFINITION. The Closer: commit sets and what the routines of Table 7-5 leave (7.7, R171, R219, R437). -/
namespace Sys2Proof.Machine

/-! ### The parts of a set (R229) -/

/-- Part 1: awl-data writes and pool frees. -/
def closePartOne (o : MemOp) (s : State) : State :=
  match o.mop with
  | 4 =>
    let ad := awlDataAddr s o.args.target
    awlUnitPut (awlDataOff s o.args.target) o.data (hbmRequest 4 ad 64 true s)
  | 8 => poolOp .free o.awl o.args.target false false s
  | _ => s

/-- Add to a counter of a record: forward packets and bytes, reverse packets and bytes. (DESIGN CHOICE, log entry 75) -/
def recordAdd (r k n : Nat) (s : State) : State :=
  match flowRec s r with
  | none => s
  | some x =>
    let f := [(255, 216), (215, 168), (167, 128), (127, 80)].getD (k % 4) (255, 216)
    putRec r { x with cnt := putBf x.cnt f.1 f.2 (bf x.cnt f.1 f.2 + n) } s

/-- The flow of an export record asks for it: its flags, and SAMPLED by its index (R436).
(DESIGN CHOICE, log entry 75) -/
def exportWanted (s : State) (i : Item) (o : MemOp) : Bool :=
  match i.routine with
  | 8 =>
    let x := recOfBytes (i.bytes.take 128)
    !sampledOut s (leNat (i.bytes.drop 128) / 2 ^ 67 % 2 ^ 29) x && decide (o.args.what < 2)
  | 9 => match flowRec s i.record with
    | some x => !sampledOut s i.record x && decide (o.args.what < 2)
    | none => true
  | _ => true

/-- Part 3: counter adds, EMITs and completions. (DESIGN CHOICE, log entry 75) -/
def closePartThree (i : Item) (o : MemOp) (s : State) : State :=
  match o.mop with
  | 10 =>
    if o.args.what = 0 then ctrAdd (ctrAddr (o.args.target % 65536)) o.args.value s
    else recordAdd o.args.target o.args.value o.args.seed s
  | 11 =>
    if i.routine = 8 ∨ i.routine = 9 then
      if exportWanted s i o then queueRecord (flowStream s) (beNat (o.data.take 2)) (o.data.drop 2) s else s
    else if o.args.what < 2 then queueRecord (o.args.target % 16) o.args.value o.data s
    else raise (o.args.target % 65536) (words32 10 (leNat o.data)) s
  | 16 => servoWrite (signed32 (leNat o.data)) s
  | _ => s

/-- The record that a set writes, and the release that it holds. -/
def setRecord (l : List MemOp) : Option FlowRec :=
  ((l.filter fun o => o.mop == 5 && o.args.what == 2).getLast?).map fun o => recOfBytes o.data
def setRelease (l : List MemOp) : Option MemOp := (l.filter fun o => o.mop == 9).getLast?

/-! ### The slice part (R171, R219) -/

/-- The fields that a routine takes from its template (R217). -/
def fromTemplate (tn : Nat) (t : BitVec 512) (x : FlowRec) : FlowRec :=
  { key := x.key
    st := putBf (putBf (putBf (putBf x.st 115 112 (tpClassNew t)) 109 109 (b2n (tpDrop t))) 108 108 (b2n (tpPinned t))) 103 96 tn
    cnt := putBf (putBf x.cnt 15 12 (tpTelemetry t)) 11 8 (tpMirror t)
    act := putBf (putBf (putBf x.act 207 196 (tpEditFwd t)) 195 184 (tpEditRev t)) 183 164 (tpMeter t) }

/-- Write a routine's record for hold entry h: record, index entries and lines (Table 6-2, step 4). -/
def commitRecord (h : Nat) (x : Hold) (img0 : FlowRec) (s : State) : State :=
  let n := sliceOfHold h
  match drawRecord n (drawFuel s) s with
  | none => insertFail h 2 s
  | some (r, s1) =>
    let img1 := storedImage (fromTemplate x.template (template s x.epoch x.template) img0)
    let img := { img1 with st := putBf img1.st 111 111 (b2n (isReborn s n img1.key)) }
    let rk := recReverse s1 img
    let u : Setup := { record := r, image := img, rkey := rk, written := true }
    let keep := setHold h { x with setup := some { u with written := false } } s1
    if recGone s1 r then insertFail h 6 keep
    else match writeIndex r img.key rk (putRec r img (hbmRequest 3 (recAddr s1 r) 128 true s1)) with
      | .inl c => insertFail h c keep
      | .inr s2 =>
        let s3 := installLines n r img rk s2
        setHold h { x with setup := some u } (if stReborn img.st then count 0x4040 n 7 s3 else s3)

/-- A setup's set: its record with its lines and the release of the chains; a set without one declines (R171).
(DESIGN CHOICE, log entry 74) -/
def closeSetup (h : Nat) (x : Hold) (l : List MemOp) (s : State) : State :=
  match setRecord l with
  | none => insertFail h 5 s
  | some img => setupRelease h 1 (commitRecord h x img s)

/-- A routine has a word that a match register redirects. -/
def routinePatched (s : State) (n : Nat) : Bool := s.aw.matchReg.any fun r => mrValid r.2 && Config.routineAt (mrRom r.2) == n

/-- A setup by one of the NAT routines of the ROM: what it chooses is R218's, not its words'.
(DESIGN CHOICE, log entry 116) -/
def natRoutine (s : State) (i : Item) : Bool :=
  i.source == 1 && decide (1 ≤ i.routine) && decide (i.routine ≤ 3) && !routinePatched s i.routine

/-- The set of a NAT routine: the record with the translation that R218 gives, or a decline. A reservation of another
reverse key ends. (DESIGN CHOICE, log entry 116) -/
def closeNat (i : Item) (h : Nat) (x : Hold) (s : State) : State :=
  let n := sliceOfHold h
  let k := ((pkt s i.desc).key).getD x.key
  let w := paramSet s i.epoch i.param
  let r := natPick i.routine n w k x.other s
  match r.1 with
  | none => insertFail h 5 (count 0x4835 i.routine 2 r.2.2)
  | some (a, p, rk) =>
    let s1 := natKeep i.routine w k (a, p) r.2.1 r.2.2
    let keeps := (x.other.bind (holdAt s1)).any fun y => y.key == bareKey rk
    let s2 := if keeps then s1 else match x.other with
      | some o => refetch o s1
      | none => s1
    let img := snatRecord (newRecord s2 n x.template (template s2 x.epoch x.template) k) a (natEntryAddr s2 a) p
    setupRelease h 1 (commitRecord h (if keeps then x else { x with other := none }) img s2)

/-- TCP_REUSE: the old flow ends with reason TCP_CLOSED, the new record takes its place, and the chain is released
against it (Table 7-5, R219). (DESIGN CHOICE, log entry 74) -/
def closeReuse (h : Nat) (x : Hold) (l : List MemOp) (s : State) : State :=
  match setRecord l with
  | none => exceptionServe h s
  | some img => setupRelease h 1 (commitRecord h { x with state := 3 } img (flowRemove x.record 2 s))

/-- ICMP_XLATE: the packet's header is the rewritten one and it is released with edit program 0; the rest of the chain
is served against the record (R219). (DESIGN CHOICE, log entry 74) -/
def closeIcmp (h : Nat) (x : Hold) (l : List MemOp) (s : State) : State :=
  match setRelease l, x.chain with
  | some o, pid :: _ =>
    let s1 := modPkt pid (fun p => { p with
      data := o.data ++ p.data.drop 256, flow := 6, release := some (o.args.target, 0) }) (delHold h s)
    let s2 := if isExpired s1 pid then dropPkt pid s1 else releasePkt pid s1
    serveChain (sliceOfHold h) x.record 2 x.key (x.chain.drop 1) s2
  | _, _ => exceptionServe h s

/-- A line of a record that a routine writes anew: its deltas have gone into the image. -/
def lineWritten (x : FlowRec) (l : Line) : Line :=
  if l.link then l
  else { cleared l with
    st := x.st, act := putBf x.act 127 0 0, telemetry := cnTelemetry x.cnt, mirror := cnMirror x.cnt, last := cnLast x.cnt }

/-- A routine writes a record that is in use at its home slice (Table 7-4): the record, its line and its buffered lines
change at one instant. (DESIGN CHOICE, log entry 73) -/
def writeRecord (r : Nat) (img : FlowRec) (s : State) : State :=
  match flowRec s r with
  | none => s
  | some y =>
    let x := { storedImage img with key := y.key }
    let s1 := setFlow s { s.flow with
      lines := s.flow.lines.map fun q => (q.1, if q.2.record = r then lineWritten x q.2 else q.2)
      wb := (s.flow.wb.map fun w => (w.1, w.2.filter fun e => e.line.record != r)).filter fun w => !w.2.isEmpty }
    issueReads r (putRec r x (hbmRequest 3 (recAddr s1 r) 128 true s1))

/-- The SLICE WRITEs of a set that belongs to no hold entry: records, and index entries of a key for a record and
direction that the index lacks (Table 7-4). (DESIGN CHOICE, log entry 73) -/
def sliceWrite (o : MemOp) (s : State) : State :=
  if o.mop ≠ 5 then s
  else if o.args.what = 2 then writeRecord o.args.target (recOfBytes o.data) (reachRecord o.args.target s)
  else
    let k := BitVec.ofNat 384 (beNat o.data)
    match flowRec s o.args.target with
    | none => s
    | some _ =>
      let t := sliceDrain (homeSlice s k) s
      if (idxFind t k).isSome then t
      else match idxAdd k o.args.target (o.args.value % 2) t with
        | .inl c => noteFailure (homeSlice t k) c t
        | .inr u => u

/-- The item's set has a slice part that belongs to a hold entry. -/
def hasSlicePart (i : Item) : Bool := i.source == 1 || i.source == 2

/-- The set acts on the flow engine: it waits while the slices pause. -/
def setNeedsSlice (c : CommitSet) : Bool :=
  hasSlicePart c.item || c.item.routine == 10 || c.item.routine == 11 || c.staged.any fun o => o.mop == 5

/-- The slice part of an item's set: done, or refused when the hold entry is no longer the item's.
(DESIGN CHOICE, log entry 74) -/
def closeSlice (i : Item) (l : List MemOp) (s0 : State) : Option State :=
  let s := if hasSlicePart i then sliceDrain i.slice s0 else s0
  if !hasSlicePart i then some (l.foldl (fun t o => sliceWrite o t) s)
  else match itemHold s i with
    | none => none
    | some (h, x) => some (
      if natRoutine s i then closeNat i h x s
      else if i.source = 1 then closeSetup h x l s
      else if i.routine = 6 then closeReuse h x l s
      else closeIcmp h x l s)

/-- The item's set is a decline: a setup or reuse without a record, a translation without a release.
(DESIGN CHOICE, log entry 74) -/
def setDeclines (s : State) (i : Item) (l : List MemOp) : Bool :=
  (i.source == 1 && !natRoutine s i && (setRecord l).isNone) || (i.source == 2 && i.routine == 6 && (setRecord l).isNone) ||
    (i.source == 2 && i.routine != 6 && (setRelease l).isNone)

/-- TIMER_TICK creates one IPFIX_BUILD item for each nominated record; a refused one is lost (R437).
(DESIGN CHOICE, log entry 75) -/
def nominations (s : State) : State :=
  s.flow.nominated.foldl (fun t r =>
    let n := ((flowRec t r).map fun x => homeSlice t x.key).getD 0
    let q := submitItem { newItem t 9 4 r with slice := n, record := r, data := 2 } t
    if q.1 then q.2 else triggerLost q.2) (setFlow s { s.flow with nominated := [] })

/-- What a routine does beside its staged operations when its set is applied: AGE_EXPORT discards the notice of a flow
without END, HOST_FLOW's command is executed, LOAD_V1's record inserted, TIMER_TICK hands on the nominations, POOL_RECLAIM
frees blocks (R218, R220, R437). (DESIGN CHOICE, log entry 75) -/
def routineEnd (i : Item) (s : State) : State :=
  match i.routine with
  | 8 => if (cnTelemetry (recOfBytes (i.bytes.take 128)).cnt).testBit 0 then s else count 0x7850 0 3 s
  | 10 => hostServe i.data s
  | 11 => loadServe i.data i.bytes s
  | 12 => nominations s
  | 14 => poolReclaim i.domain s
  | _ => s

/-- AGE_EXPORT builds an end record only when END is set (R437). (DESIGN CHOICE, log entry 75) -/
def emitsWanted (i : Item) (o : MemOp) : Bool :=
  !(i.routine == 8 && o.mop == 11 && !(cnTelemetry (recOfBytes (i.bytes.take 128)).cnt).testBit 0)

/-- Apply a commit set (R229). -/
def applySet (c : CommitSet) (s : State) : State :=
  let i := c.item
  let s1 := leaveOut i (c.staged.foldl (fun t o => closePartOne o t) s)
  let s2 := match closeSlice i c.staged s1 with
    | none => raiseLimited 0x0609 0 (fun n => [i.slice, i.routine, n]) s1
    | some t =>
      let t1 := if setDeclines s i c.staged then count 0x4835 i.routine 2 t else t
      routineEnd i ((c.staged.filter (emitsWanted i)).foldl (fun u o => closePartThree i o u) t1)
  domainReleased i s2

/-- The Closer applies the oldest commit set that waits for no predecessor, whole and in order, or discards its slice
part and what follows when the slice refuses it (R228 to R230). -/
def closeNext (s : State) : State :=
  match s.aw.closer.find? fun c => setMayApply s c && !(setNeedsSlice c && flowHalted s) with
  | none => s
  | some c => applySet c (setAw s { s.aw with closer := s.aw.closer.erase c })

/-! ### Objects, stops and power (Table 7-10, R232, R233) -/

/-- The awl cluster stops: an awl that runs no routine stops at once, each other at its next END or yield point (R232).
-/
def awlsStop (s : State) : State :=
  setAw s { s.aw with awls := s.aw.awls.map fun r => (r.1, if (running s r.1).isNone then { r.2 with quiet := true } else r.2) }

/-- The awl cluster restarts: its awls go on (R232). (DEDUCED, log entry 68) -/
def awlsRestart (s : State) : State :=
  setAw s { s.aw with awls := (s.aw.awls.map fun r => (r.1, { r.2 with quiet := false })).filter fun r => decide (r.2 ≠ awlReset) }

/-- A quadrant's awls hold no item. -/
def quadEmpty (s : State) (q : Nat) : Bool := s.aw.awls.all fun r => r.1 / 16 != q || (r.2.l0.isNone && r.2.l1.isNone)

/-- The sleep condition of awl quadrant q: none of its awls has run an item for pw.awl.idle, and another quadrant is
awake (Table 16-4). -/
def quadIdle (s : State) (q : Nat) : Bool :=
  quadEmpty s q && (s.aw.awls.all fun r => r.1 / 16 != q || decide (r.2.lastRun + cyc (cfgN s 0x1403 0 0) ≤ raw s)) &&
    ((List.range 4).any fun p => p != q && tget 0 s.safe.domains (16 + p) == 0)

/-- A quadrant is wanted: an item of a strict class has waited 10 µs or one of a weighted class 1 ms, and no awake awl
has a free slot (R456). -/
def quadWanted (s : State) : Bool :=
  !((List.range 64).any (awlTakes s)) && (List.range 8).any fun k =>
    let lim := if classStrict s k then 10000 else 1000000
    (frontItems s k).any (fun r => decide (lim ≤ itemWait s r.1)) || (readyItems s k).any (fun i => decide (lim ≤ itemWait s i))

/-- Typical words of the routines, fixed part (Table 7-5). -/
def routineWords (n : Nat) : Nat := [0, 200, 230, 220, 180, 150, 160, 140, 90, 120, 60, 110, 40, 30, 120, 80, 50].getD n 0

/-- Cycles of MCLK in an observation window. -/
def windowCycles (s : State) : Nat := max 1 (cfgN s 0x4832 0 0 * 6 / 5)

/-- State of an awl: 0 IDLE, 1 RUNNING, 2 ASLEEP, 3 RETIRED. -/
def awlState (s : State) (a : Nat) : Nat :=
  if (awl s a).retired then 3
  else if tget 0 s.safe.domains (16 + a / 16) = 4 then 2
  else if (running s a).isSome then 1 else 0

/-- Device-set objects of the awl cluster. -/
def awlObj (a : Nat) (s : State) : Option Bytes :=
  let i := oaInst a
  let u := oaSub a
  match oaIndex a with
  | 0x4800 => some (match u with
    | 0 => leBytes 2 (routineVersion s i)
    | 1 => leBytes 2 (routineWords i)
    | _ => leBytes 1 (b2n (routinePatched s i)))
  | 0x4801 => some (leBytes 4 s.aw.patchState)
  | 0x4802 => some (leBytes 4 s.aw.patchLevel.toNat)
  | 0x4803 => some (leBytes 4 (tget 0 s.aw.matchReg i).toNat)
  | 0x4811 => match u with
    | 0 => some (leBytes 8 (classDepth s i))
    | 1 => some (leBytes 8 (obsGet s a))
    | 4 => some (leBytes 8 (obsGet s a / max 1 (obsGet s (oa 0x4811 i 6))))
    | 5 => some (leBytes 8 (obsGet s a))
    | _ => none
  | 0x4820 => some (match u with
    | 0 => leBytes 4 (awlState s i)
    | 1 => leBytes 8 (obsGet s (oa 0x4820 i 3) * 1000000 / windowCycles s)
    | _ => leBytes 8 (obsGet s a))
  | 0x4834 => some (leBytes 1 (awlsRetired s))
  | 0x4836 => some (leBytes 2 (ctxUsed s))
  | 0x4838 => some (leBytes 2 (closerHeld s))
  | _ => none

end Sys2Proof.Machine
end

