-- ==== Sys2Proof/Machine/Objects.lean ====
section
/-! DEFINITION. The device-set objects of every subsystem, and what a READ clears (R36, 15.1). -/
namespace Sys2Proof.Machine

/-- The lowest address of the host window (R342). -/
def windowLow (s : State) : Nat :=
  ((0 :: [0, 1, 2, 3, 4, 5].map fun k => partBase s k + partSize s k).filter fun a => partOf s a == 6).foldl min hbmBytes

/-- Device-set objects of the HBM (Table 12-10). -/
def hbmObj (a : Nat) (s : State) : Option Bytes :=
  let i := oaInst a
  match oaIndex a, oaSub a with
  | 0x6001, _ => some (leBytes 8 (if i = 6 then windowLow s else partBase s i))
  | 0x6002, _ => some (leBytes 1 ((tfind s.hbm.layouts i).map (·.length) |>.getD 128))
  | 0x6030, 0 => some (leBytes 4 (pc s i).state)
  | 0x6030, 1 => some (leBytes 1 (pc s i).erased)
  | 0x6030, 2 => some (leBytes 1 (pc s i).cause)
  | 0x6040, 0 => some (leBytes 4 (unsigned32 (tget 0 s.hbm.temps i)))
  | 0x6040, 1 => some (leBytes 4 (tget 0 s.hbm.stackSt i))
  | 0x6041, _ => some (leBytes 1 (retiredCount s))
  | 0x6042, _ => some (leBytes 4 s.hbm.lastPass)
  | _, _ => none

/-- Device-set objects of the host interface (Table 13-13). -/
def hostObj (a : Nat) (s : State) : Option Bytes :=
  match oaIndex a, oaSub a with
  | 0x6800, 0 => some (leBytes 4 s.host.rate)
  | 0x6800, 1 => some (leBytes 1 s.host.width)
  | 0x6831, 0 => some (leBytes 1 (ring s (dmaKey (oaInst a))).error.toNat)
  | 0x6841, 0 => some (leBytes 8 (poolFree s (oaInst a)))
  | _, _ => none

/-- The time snapshot (Table 14-2). -/
def timeNow (s : State) : Bytes :=
  let t := tod s
  leBytes 24 (t.1 * 2 ^ 144 + t.2 * 2 ^ 112 + counterNs s % 2 ^ 32 * 2 ^ 80 + s.time.counter.toNat / 2 ^ 32 % 65536 * 2 ^ 64 +
    raw s)

/-- Device-set objects of the time unit (Table 14-5). -/
def timeObj (a : Nat) (s : State) : Option Bytes :=
  let t := s.time
  match oaIndex a, oaSub a with
  | 0x7000, _ => some (timeNow s)
  | 0x7001, _ => some (leBytes 4 (devMs s))
  | 0x7002, _ => some (leBytes 16 (t.msAnchor.1 * 2 ^ 96 + t.msAnchor.2.1 * 2 ^ 48 + t.msAnchor.2.2 * 2 ^ 16))
  | 0x7004, _ => some (leBytes 1 (b2n t.todValid))
  | 0x702A, _ => some (leBytes 4 t.servo.state)
  | 0x702B, 0 => some (leBytes 4 (unsigned32 t.servo.freq))
  | 0x702B, 1 => some (leBytes 4 (unsigned32 t.servo.integral))
  | 0x702B, 2 => some (leBytes 4 (unsigned32 t.servo.lastOffset))
  | 0x7030, 5 => some (leBytes 16 (t.ppsTs.1 * 2 ^ 96 + t.ppsTs.2.1 * 2 ^ 80 + t.ppsTs.2.2.1 * 2 ^ 32 + t.ppsTs.2.2.2))
  | 0x7040, 3 => some (leBytes 4 (tget 0 t.recclk (oaInst a)))
  | _, _ => none

/-- The grade of the part (Table 0-5). -/
def gradeObj (a : Nat) (_ : State) : Option Bytes := if oaIndex a = 0x1003 then some (leBytes 4 (b2n Config.sample)) else none

/-- Value of a device-set object that its subsystem computes from its state. -/
def subsystemObj (a : Nat) (s : State) : Option Bytes :=
  [shimObj, portObj, switchObj, tmObj, forwardObj, auditObj, flowObj, awlObj, telemetryObj, hbmObj, hostObj, timeObj,
    safetyObj, gradeObj].findSome? fun f => f a s

/-- What a READ of an object clears: the management statistics and the counters of the packet rings (R308, 13.5). -/
def readEffect (a : Nat) (s : State) : State :=
  match oaIndex a with
  | 0x2080 => mgmtStatClear (oaSub a) s
  | 0x6821 => ctrSet s a 0
  | 0x6823 => ctrSet s a 0
  | _ => s

end Sys2Proof.Machine
end

