-- ==== Sys2Proof/Machine/Domains.lean ====
section
/-! DEFINITION. What the power domains rest on: sleep conditions, work that wakes them, what sleep and wake do
(R455, R456, Table 16-4). -/
namespace Sys2Proof.Machine

/-- Links of a pipeline: its native ports, and the PHYs whose lanes it holds. -/
def pipeLinks (s : State) (p : Nat) : List Nat :=
  (List.range 64).map (64 * p + ·) ++
  (s.ctl.active.objs.filterMap fun r =>
    if oaIndex r.1 = 0x2801 ∧ oaSub r.1 = 0 ∧ cfgN s 0x2801 (oaInst r.1) 1 = p then some (phyKey (oaInst r.1)) else none)

/-- A native port, a PHY or a client of the pipeline is enabled. -/
def pipeEnabled (s : State) (p : Nat) : Bool :=
  (pipeLinks s p).any (linkOn s) ||
  s.ctl.active.objs.any fun r => oaIndex r.1 == 0x2802 && oaSub r.1 == 0 && oaInst r.1 / 64 == p &&
    (match clientGroup s (oaInst r.1) with
     | some g => fxOn s g
     | none => false)

/-- Nothing waits in a pipeline: its header queues, its editor, and the queues of its ports. -/
def pipeEmpty (s : State) (p : Nat) : Bool :=
  (hdrFifo s p).isEmpty && (reHdr s p).isEmpty && (retireQ s p).isEmpty && (recircQ s p).isEmpty && (editJobs s p).isEmpty &&
  ((List.range 64).all fun i => portIdle s (64 * p + i))

/-- A stack of pseudo-channels has a request waiting or in flight. -/
def stackBusy (s : State) (st : Nat) : Bool :=
  s.hbm.pcs.any fun r => stackOf r.1 == st && (!r.2.queue.isEmpty || !r.2.flight.isEmpty)

/-- The enabled owner of some lane of a SerDes quad, or a recovered-clock output that names one. -/
def quadUsed (s : State) (i : Nat) : Bool :=
  (List.range 4).any fun j =>
    (match laneOwner s (4 * i + j) with
     | some k => linkOn s k
     | none => false) ||
    [0, 1, 2, 3].any fun r => cfgOn s 0x7040 r 0 && cfgN s 0x7040 r 1 == 4 * i + j

/-- A request waits at one of a slice pair. -/
def sliceWork (s : State) (n : Nat) : Bool := !(sliceReqs s n).isEmpty || !(tget [] s.flow.ageQ n).isEmpty

/-- A pair of slices is idle (Table 16-4). -/
def slicesIdle (s : State) (n : Nat) : Bool :=
  [n, n + 1].all fun m => !sliceWork s m && (holdsOf s m).isEmpty &&
    decide (tget 0 s.flow.served m + cyc 100000000 ≤ raw s)

/-- The sleep condition of a domain holds (Table 16-4). (DESIGN CHOICE, log entry 99) -/
def domainIdle (d : Nat) (s : State) : Bool :=
  if d < 16 then !pipeEnabled s d && pipeEmpty s d
  else if d < 20 then quadIdle s (d - 16)
  else if d < 28 then slicesIdle s (2 * d - 40)
  else if d = 28 then (fxGroupsOn s).isEmpty
  else if d < 93 then !quadUsed s (d - 29)
  else !stackBusy s (d - 93) && tget 0 s.hbm.stackSt (d - 93) != 2 && decide (tget 0 s.hbm.touched (d - 93) + cyc 10000000 ≤ raw s)

/-- Work has arrived for a domain, or its sleep condition has ended (R456). (DESIGN CHOICE, log entry 99) -/
def domainWanted (d : Nat) (s : State) : Bool :=
  if d < 16 then pipeEnabled s d || !pipeEmpty s d
  else if d < 20 then quadWanted s
  else if d < 28 then sliceWork s (2 * d - 40) || sliceWork s (2 * d - 39)
  else if d = 28 then !(fxGroupsOn s).isEmpty
  else if d < 93 then quadUsed s (d - 29)
  else stackBusy s (d - 93)

/-- A domain in ENTERING_SLEEP may end its work: an awl quadrant waits until its awls hold no item (R233). -/
def domainQuiet (d : Nat) (s : State) : Bool := if 16 ≤ d ∧ d < 20 then quadEmpty s (d - 16) else true

/-- What a domain does as it falls asleep: slices fold and evict their lines, an HBM stack enters self-refresh. -/
def domainSlept (d : Nat) (s : State) : State :=
  if 20 ≤ d ∧ d < 28 then
    let n := 2 * (d - 20)
    [n, n + 1].foldl (fun t m => (List.range (wbOf t m).length).foldl (fun u _ => wbDrain m u) t)
      (evictLines (fun x _ => x / 131072 / 2 == d - 20) s)
  else if 93 ≤ d then setHbm s { s.hbm with stackSt := tset 0 s.hbm.stackSt (d - 93) 1 }
  else s

/-- What a domain does once awake: a stack leaves self-refresh, links whose quads are all awake start (R457). -/
def domainWoke (d : Nat) (s : State) : State :=
  if 93 ≤ d then setHbm s { s.hbm with stackSt := tset 0 s.hbm.stackSt (d - 93) 0 }
  else if 29 ≤ d then
    ([0, 1, 2, 3].filterMap fun j => laneOwner s (4 * (d - 29) + j)).eraseDups.foldl (fun t k => linkStart k t) s
  else s

end Sys2Proof.Machine
end

