-- ==== Sys2Proof/Machine/OpHooks.lean ====
section
/-! DEFINITION. The work of each type of long operation: its refusals at START, its begin, its units and its end
(Table 2-15, R72, R128, R355, R367). -/
namespace Sys2Proof.Machine

/-- What the parameter blocks hold that the spec does not lay out: the stack of an HBM_RETRAIN_FULL; the function of a
BIST_FUNCTION and whether it is the online test of a slice or buffer bank; whether a FIRMWARE_STAGE writes a boot pattern
and its length in bytes. (DESIGN CHOICE, log entry 20) -/
opaque Config.retrainStack : Bytes → Nat
opaque Config.bistTarget : Bytes → Option (Fn × Bool)
opaque Config.stageTarget : Bytes → Bool × Nat

/-- The parameter block of a TABLE_DUMP of table 0x07: the group, and the address in the HBM host window (R122).
(DESIGN CHOICE, log entry 20) -/
opaque Config.l2Dump : Bytes → Nat × Nat

/-- The table code that a TABLE_LOAD, TABLE_DUMP or AUDIT_PASS names. -/
def opTable (o : LongOp) : Nat := Config.opTable o.kind o.params

/-- The function that a BIST_FUNCTION names. -/
def bistTarget (params : Bytes) : Option (Fn × Bool) := Config.bistTarget params

/-- Sectors of a FIRMWARE_STAGE (R72). (DESIGN CHOICE, log entry 21) -/
def stageSectors (params : Bytes) : Nat := ((Config.stageTarget params).2 + 4095) / 4096

/-- A START is refused by its type: status and detail. -/
def opRefused (kind : Nat) (params : Bytes) (s : State) : Option (Nat × Nat) :=
  match kind with
  | 7 =>
    if params.length ≠ 8 then some (2, 8 + min 8 params.length)
    else
      let p := (params.headD 0).toNat
      if 6 < p ∧ p ≠ 255 then some (6, 0) else none
  | _ => flowOpRefused kind params s

/-- MB of a SCRUB_PASS: its partition's, or all of HBM's (R367). -/
def scrubTotal (s : State) (params : Bytes) : Nat :=
  let p := (params.headD 0).toNat
  if p < 6 then partSize s p / 2 ^ 20
  else if p = 6 then (hbmBytes - (List.range 6).foldl (fun a k => a + partSize s k) 0) / 2 ^ 20
  else hbmBytes / 2 ^ 20

/-- The stack of an HBM_RETRAIN_FULL, and its i-th pseudo-channel (R341, R355). -/
def retrainStack (params : Bytes) : Nat := Config.retrainStack params % 4
def retrainPc (params : Bytes) (i : Nat) : Nat := retrainStack params + 4 * i

/-- Set the state of a stack: 0 ACTIVE, 1 SELF_REFRESH, 2 TRAINING. (DESIGN CHOICE, log entry 91) -/
def setStackSt (st x : Nat) (s : State) : State := setHbm s { s.hbm with stackSt := tset 0 s.hbm.stackSt st x }

/-- Train a pseudo-channel anew; a retired one stays retired until the next reset (R357).
(DESIGN CHOICE, log entry 91) -/
def retrainOne (n : Nat) (pairs : List Nat) (ca : Bool) (s : State) : State :=
  if pcRetired s n then s else trainPc n pairs ca s

/-- Buckets that a TABLE_DUMP of table 0x07 visits: those of both layouts of a group (R117, R121). -/
def l2DumpUnits : Nat := 65536

/-- One unit of a TABLE_DUMP of table 0x07: the entries of the next bucket of the group go to the destination, one after
another; a destination outside the HBM host window ends it with RANGE (R122). -/
def l2DumpUnit (n : Nat) (o : LongOp) (s : State) : State :=
  let d := Config.l2Dump o.params
  let k := 2 ^ 20 * (d.1 % 4) + 2 ^ 18 * (o.done / 32768) + 8 * (o.done % 32768)
  let es := ((List.range 8).map fun j => l2Entry s (k + j)).filter l2Valid
  let bs := es.flatMap fun e => leBytes 16 e.toNat
  let a := d.2 + o.written
  if l2DumpUnits ≤ o.done then s
  else if !bs.isEmpty && (decide (hbmBytes < a + bs.length) || partOf s a != 6 || partOf s (a + bs.length - 1) != 6) then
    opFinish n 6 6 s
  else setOp (if bs.isEmpty then s else hbmWrite s a bs) n
    { o with done := o.done + 1, written := o.written + bs.length, suspendAsked := false }

/-- An operation begins to run: its total, and what its type prepares. A TABLE_LOAD or TABLE_DUMP of a table for which no
chapter describes one has no work. -/
def opBegin (n : Nat) (o : LongOp) (s : State) : State :=
  match o.kind with
  | 3 => if opTable o = 0x10 then flowOpBegin n o s else setOp s n { o with total := 0 }
  | 4 =>
    if opTable o = 0x10 then flowOpBegin n o s
    else setOp s n { o with total := if opTable o = 7 then l2DumpUnits else 0 }
  | 6 => setOp s n { o with total := if auditCompared s (opTable o) then auditBlocks s (opTable o) else 0 }
  | 7 => setOp s n { o with total := scrubTotal s o.params }
  | 9 => setStackSt (retrainStack o.params) 2 (setOp s n { o with total := 32 })
  | 11 =>
    let s1 := setSafe (setOp s n { o with total := stageSectors o.params }) { s.safe with stageBytes := [] }
    if (Config.stageTarget o.params).1 then setCtl s1 { s1.ctl with bootMarker := false, boot := emptySlot } else s1
  | _ => flowOpBegin n o s

/-- Bytes of the firmware slot that the running firmware did not boot from (R449). -/
def otherSlot (s : State) : Bytes := if s.safe.bootSlot = 0 then s.safe.flashB else s.safe.flashA

/-- Replace that slot. -/
def setOtherSlot (s : State) (b : Bytes) : State :=
  setSafe s (if s.safe.bootSlot = 0 then { s.safe with flashB := b } else { s.safe with flashA := b })

/-- A sector of a FIRMWARE_STAGE reaches flash: the header of a firmware slot and the completion marker of a boot pattern
are written last, so until then the slot is not valid (R67, R72, R449). (DESIGN CHOICE, log entry 21) -/
def stageSector (o : LongOp) (data : Bytes) (s : State) : State :=
  let got := s.safe.stageBytes ++ data.take 4096
  let s1 := setSafe s { s.safe with stageBytes := got }
  if (Config.stageTarget o.params).1 then
    setCtl s1 { s1.ctl with bootImage := got }
  else setOtherSlot s1 (List.replicate 128 0xFF ++ got.drop 128)

/-- A FIRMWARE_STAGE has written everything: the marker, or the header with a sequence one above the running slot's.
(DESIGN CHOICE, log entry 21) -/
def stageDone (o : LongOp) (s : State) : State :=
  let len := (Config.stageTarget o.params).2
  let got := s.safe.stageBytes.take len
  if (Config.stageTarget o.params).1 then
    setCtl s { s.ctl with
      bootImage := got, bootMarker := true, boot := { (parseImage got).1 with tables := (parseImage got).2 } }
  else
    let h := leNat (got.take 128)
    setOtherSlot s (leBytes 128 (putFld h 959 896 (s.safe.fwSequence + 1)) ++ got.drop 128)

/-- The work of one unit of an operation that has no steps of its own. -/
def unitWork (o : LongOp) (u : OpUnit) (s : State) : State :=
  match o.kind, u with
  | 6, .audited bad => if auditCompared s (opTable o) then auditBlockRun bad (opTable o) o.done (o.order + 1) s else s
  | 6, _ => if auditCompared s (opTable o) then auditBlockRun [] (opTable o) o.done (o.order + 1) s else s
  | 7, .scrubbed ws =>
    ws.foldl (fun t w => if hbmBytes ≤ w.1 ∨ pcRetired t (pcOf t w.1) then t else scrubWord w.1 w.2 false t) s
  | 9, .trained pairs ca => retrainOne (retrainPc o.params o.done) pairs ca s
  | 9, _ => retrainOne (retrainPc o.params o.done) [] false s
  | 11, .sector data => stageSector o data s
  | _, _ => s

/-- One unit of an operation completes: its work, and a pending SUSPEND takes hold there. Operations of the flow engine
take the step that their chapter gives them, with its own suspend points (R190, R193, R198 to R200). -/
def opUnit (n : Nat) (o : LongOp) (u : OpUnit) (s : State) : State :=
  match o.kind with
  | 1 => rehashCopy 1 s
  | 2 => resizeStep s
  | 3 => match u with
    | .sector data => loadRecord n data s
    | _ => s
  | 4 => if opTable o = 7 then l2DumpUnit n o s else flowWalk n 1 s
  | 5 => flowWalk n 1 s
  | _ => unitWork o u (setOp s n { o with done := o.done + 1, suspendAsked := false })

/-- An operation ends: 5 DONE, 6 FAILED, 7 CANCELLED. -/
def opEnd (n : Nat) (o : LongOp) (final : Nat) (s : State) : State :=
  match o.kind with
  | 6 =>
    if final = 5 then (if o.total = 0 then s else ctrSet s (oa 0x3835 (opTable o) 0) (devSeconds s))
    else if final = 7 then setFwd s { s.fwd with rechecks := s.fwd.rechecks.filter fun r => r.pass != o.order + 1 }
    else s
  | 9 => setStackSt (retrainStack o.params) 0 s
  | 11 => setSafe (if final = 5 then stageDone o s else s) { (if final = 5 then stageDone o s else s).safe with stageBytes := [] }
  | _ => flowOpEnd n o final s

/-- An operation's work is complete. BIST_FUNCTION has no units that the spec names. -/
def opWorkDone (o : LongOp) (s : State) : Bool :=
  if o.kind = 8 then true else if o.kind ≤ 5 then flowOpDone o s else decide (o.total ≤ o.done)

/-- A CANCEL is denied by the operation's phase. -/
def opCancelDenied (o : LongOp) (s : State) : Bool := flowCancelDenied o s

end Sys2Proof.Machine
end

