-- ==== Sys2Proof/Machine/Effects.lean ====
section
/-! DEFINITION. What writes of objects do, and what the stop and restart of a function do (R37, Table 2-12). -/
namespace Sys2Proof.Machine

/-- Whether a LOAD segment carries banked tables, given the bytes held before it and its own: the image's layout is not
stated. (DESIGN CHOICE, log entry 102) -/
opaque Config.carriesTables : Bytes → Bytes → Bool

/-! ### Functions (Table 2-12) -/

/-- Pipelines. -/
def allPipelines : List Fn := (List.range 16).map .pipeline

/-- The functions that own a STOP object (R61, Table 2-12). -/
def fnsOf (a : Nat) (s : State) : List Fn :=
  let q := oaInst a
  match oaIndex a with
  | 0x2000 => [.port q]
  | 0x2001 => [.port q]
  | 0x2002 => [.port q]
  | 0x2003 => [.port q]
  | 0x2004 => [.port q]
  | 0x2010 => match laneOwner s q with
    | some k => [if k < 1024 then .port k else .flexe ((k - 1024) / 8)]
    | none => []
  | 0x2800 => [.flexe q]
  | 0x2801 => [.flexe (q / 8)]
  | 0x3000 => allPipelines
  | 0x3001 => allPipelines
  | 0x3002 => allPipelines
  | 0x3003 => allPipelines
  | 0x3004 => allPipelines
  | 0x3010 => [.tables q]
  | 0x3011 => [.tables q]
  | 0x3012 => [.tables q]
  | 0x3020 => allPipelines
  | 0x3802 => [.hbmMap]
  | 0x3813 => [.tables (q / 256)]
  | 0x4000 => [.flowEngine]
  | 0x4003 => [.flowEngine]
  | 0x4810 => [.awls]
  | 0x5000 => [.switchCore]
  | 0x5001 => [.switchCore]
  | 0x6000 => [.hbmMap]
  | i =>
    if 0x5810 ≤ i ∧ i ≤ 0x5815 then [.tm (q / 64)]
    else if 0x7000 ≤ i ∧ i < 0x7800 then [.timeUnit]
    else if 0x7800 ≤ i ∧ i < 0x8000 then [.telemetry]
    else []

/-- The commit in progress changes an object. -/
def commitChanges (s : State) (a : Nat) : Bool :=
  match s.ctl.commit with
  | some c => c.begun && (tfind c.oldSlot.objs a).getD (objDflt s.safe.boardMgmt a) != (tfind c.newSlot.objs a).getD (objDflt s.safe.boardMgmt a)
  | none => false

/-- A PHY whose own settings, or whose group's enable, the commit changes: it retrains (Table 2-12). -/
def phyChanges (s : State) (i : Nat) : Bool :=
  ([0, 1, 2, 4].any fun u => commitChanges s (oa 0x2801 i u)) || commitChanges s (oa 0x2800 (i / 8) 0) ||
  (linkLanes s (phyKey i) (linkMode s (phyKey i))).any fun l => [0, 1, 2].any fun u => commitChanges s (oa 0x2010 l u)

/-- Members of a group by number. -/
def groupPhys (g : Nat) : List Nat := (List.range 8).map (8 * g + ·)

/-- Streams whose destination or domain the commit changes (R442). -/
def streamsChanged (s : State) : List Nat :=
  (List.range 16).filter fun st =>
    [0, 1, 4, 5, 8, 10, 11, 12, 13].any fun u => commitChanges s (oa 0x7840 st u)

/-- The commit changes a dump object marked STOP: a new ring starts (R434). -/
def dumpChanged (s : State) : Bool := [0x7811, 0x7812, 0x7813, 0x7814, 0x7815, 0x7816].any fun i => commitChanges s (oa i 0 0)

/-- A function enters its stop (Table 2-12). Most only pause: their commands test the stop. -/
def fnStop (f : Fn) (s : State) : State :=
  match f with
  | .port q => linkDisable q s
  | .flexe g => groupDown g (((groupPhys g).filter (phyChanges s)).foldl (fun t i => linkDisable (phyKey i) t) s)
  | .telemetry => (streamsChanged s).foldl (fun t st => streamDrain st (streamQueue t st).length t) s
  | .hbmMap => setPath s { s.path with heelPaused := true }
  | .awls => awlsStop s
  | _ => s

/-- A function restarts with its new values (Table 2-12). (DESIGN CHOICE, log entry 17) -/
def fnRestart (f : Fn) (s : State) : State :=
  match f with
  | .port q => linkStart q s
  | .flexe g => groupStart g ((groupPhys g).foldl (fun t i => linkStart (phyKey i) t) s)
  | .flowEngine => flowRestart s
  | .awls => awlsRestart s
  | .timeUnit => recclkReview (servoResume s)
  | .telemetry =>
    let s1 := (streamsChanged s).foldl (fun t st => streamAnew st t) s
    if dumpChanged s then { s1 with cnt := { s1.cnt with produced := 0 } } else s1
  | .hbmMap =>
    let s1 := setHbm s { s.hbm with sizes := [] }
    let s2 := heelBack (partBase s1 5 + partSize s1 5) s1
    setPath s2 { s2.path with heelPaused := false }
  | _ => s

/-- The TCLK time from t0 to the start of the clocks in ms, which sf.boot.time counts too.
(DESIGN CHOICE, log entry 105) -/
opaque Config.clockStartMs : Nat

/-- The outputs start (Table 16-1, step 9): enabled ports and PHYs leave idle, groups start, PPS_OUT and the recovered
clocks are driven as configured. -/
def startOutputs (s : State) : State :=
  let s1 := setSafe s { s.safe with outputsStarted := true, bootTime := (devMs s + Config.clockStartMs) % 2 ^ 32 }
  let ports := (listed s.ctl.active 0x2000 0).eraseDups
  let phys := (listed s.ctl.active 0x2801 0).eraseDups
  let s2 := ports.foldl (fun t q => linkStart q t) s1
  let s3 := phys.foldl (fun t i => linkStart (phyKey i) t) s2
  recclkReview ((fxGroupsOn s).eraseDups.foldl (fun t g => groupStart g t) s3)

/-! ### Epochs (R63, R65) -/

/-- Descriptors in a pipeline's hold FIFO, which is its header FIFO (R63). -/
def holdFifo (p : Nat) (s : State) : Nat := (hdrFifo s p).length

/-- A packet of an expired epoch leaves the hold chains, the editor and the MACs whose frame has not begun; elsewhere it
is dropped where it is met next (R65). (DESIGN CHOICE, log entry 51) -/
def expirePkt (pid : Nat) (s : State) : State :=
  let held := s.flow.holds.any fun r => r.2.chain.contains pid
  let s1 : State := { s with
    flow := { s.flow with holds := s.flow.holds.map fun r => (r.1, { r.2 with chain := r.2.chain.filter (· != pid) }) }
    path := { s.path with
      edits := (s.path.edits.map fun r => (r.1, r.2.filter fun j => j.pid != pid)).filter fun r => !r.2.isEmpty
      tx := (s.path.tx.map fun r => (r.1, r.2.filter fun t => t.pid != pid || t.started)).filter fun r => !r.2.isEmpty } }
  let s2 := leaveEpoch pid s1
  if held then dropPkt pid s2 else settle pid s2

/-- Drop the packets of an epoch that are still in the device (R65). (DESIGN CHOICE, log entry 51) -/
def expireEpoch (e : Nat) (s : State) : State :=
  let l := (s.path.pkts.filter fun r => r.2.epoch == some e).map (·.1)
  let s1 := l.foldl (fun t pid => expirePkt pid t) (setCtl s { s.ctl with expired := s.ctl.expired ++ l })
  setCtl s1 { s1.ctl with epochCount := tdel s1.ctl.epochCount e }

/-! ### Writes with an effect of their own (R37) -/

/-- What the new value of a live object does: a is its address, old and v its values before and after.
(DESIGN CHOICE, log entry 17) -/
def writeEffect (a : Nat) (old v : Bytes) (s : State) : State :=
  let i := oaInst a
  let n := leNat v
  match oaIndex a, oaSub a with
  | 0x1302, _ => faultAck n s
  | 0x1316, _ => rollbackAdvance n s
  | 0x1318, _ => ownerFuse v s
  | 0x2005, _ => portEnable i (n != 0) s
  | 0x200A, 0 => lpiEnable i (n != 0) s
  | 0x2070, _ => if old = v || !s.ports.mgmtUp then s
    else raise 0x0106 [0, n] (setPorts s { s.ports with mgmtUp := false })
  | 0x2800, 4 => if old = v then s else calChange i s
  | 0x2802, _ => fxReviewPort i s
  | 0x2810, 0 => seamEnable i (n != 0) s
  | 0x2810, 5 => fxReview i s
  | 0x4010, 0 =>
    let was := setCtl s { s.ctl with active := { s.ctl.active with objs := tput s.ctl.active.objs a old } }
    setFlow s (tokensFill was).flow
  | 0x5007, 0 => if n = 0 then (List.range 8).foldl (fun t c => heelReview (8 * i + c) t) s else s
  | 0x5820, u => shaperChanged i u (leNat old) s
  | 0x7003, _ => todSet (fld n 127 80) (fld n 79 48) s
  | 0x7021, _ => servoWrite (signed32 n) s
  | 0x7028, _ => if n = 0 then s else servoHold s
  | 0x7029, _ => if n = 0 then s else servoReset s
  | 0x7800, _ => if old = v then s else chainEffect i s
  | 0x7820, _ => if old = v then s else bwDiscard i s
  | 0x781A, _ => if n = 0 then s else takeSnapshot true 0 s
  | _, _ => s

end Sys2Proof.Machine
end

