-- ==== Sys2Proof/Machine/Message.lean ====
section
/-! DEFINITION. Messages (2.2 to 2.5): framing, the mailbox, Psindo sessions, and the requests READ,
WRITE, DESCRIBE, LIST, HELLO and BYE. -/
namespace Sys2Proof.Machine

/-! ### Requests and answers -/

/-- Status codes of Table 2-3. -/
def stOk : Nat := 0
def stBusy : Nat := 1
def stInvalid : Nat := 2
def stDenied : Nat := 3
def stNotFound : Nat := 4
def stNoSpace : Nat := 5
def stRange : Nat := 6
def stType : Nat := 7
def stVersion : Nat := 8
def stStopRequired : Nat := 9
def stDraining : Nat := 10
def stCancelled : Nat := 11
def stFaulted : Nat := 12
def stAuth : Nat := 13

/-- A request as the Cobbler executes it (R40, R41). -/
structure Req where
  /-- 0 the mailbox, 1 to 8 a Psindo session -/
  who : Nat
  /-- 0 READ, 1 OPERATOR, 2 ADMIN (R48, R52) -/
  role : Nat
  /-- the session runs Psindo 1.x (R54) -/
  v1 : Bool
  /-- body limit of the path (R41) -/
  limit : Nat
  /-- type byte, header, body -/
  msg : Bytes
  deriving DecidableEq, Repr

/-- An answer (R39, Table 2-4). A whole answer has last set. -/
structure Answer where
  status : Nat
  detail : Nat := 0
  body : Bytes := []
  last : Bool := true
  deriving DecidableEq, Repr

/-- The type byte of a message. -/
def msgType (m : Bytes) : Nat := (m.headD 0).toNat
/-- The header of a message as a number (Table 2-4). -/
def msgHdr (m : Bytes) : Nat := leNat (slice m 1 16)
def msgSub (m : Bytes) : Nat := fld (msgHdr m) 11 8
def msgLen (m : Bytes) : Nat := fld (msgHdr m) 31 16
def msgSeq (m : Bytes) : Nat := fld (msgHdr m) 63 32
def msgStaged (m : Bytes) : Bool := (msgHdr m).testBit 0
def msgLast (m : Bytes) : Bool := (msgHdr m).testBit 1
def msgWait (m : Bytes) : Bool := (msgHdr m).testBit 2
/-- The body of a message: as many bytes as its header states. -/
def msgBody (m : Bytes) : Bytes := slice m 17 (msgLen m)

/-- The answer message to a request: type, header with status, detail, seq and sub, body (R39, R41, R47).
(DESIGN CHOICE, log entry 12) -/
def answerMsg (m : Bytes) (a : Answer) : Bytes :=
  m.take 1 ++ leBytes 16 (a.detail % 2 ^ 16 * 2 ^ 80 + a.status * 2 ^ 64 + msgSeq m * 2 ^ 32 +
    a.body.length % 2 ^ 16 * 2 ^ 16 + msgSub m * 2 ^ 8 + 2 * b2n a.last) ++ a.body

/-- A refusal with the offset or entry number as detail. -/
def refuse (status detail : Nat) : Answer := { status := status, detail := detail }

/-- A body that is not n bytes long: INVALID at the first byte found wrong (R42). (DESIGN CHOICE, log entry 12) -/
def lengthBad (n : Nat) (body : Bytes) : Option Answer :=
  if body.length = n then none else some (refuse stInvalid (min n body.length))

/-- The row of a message, (type, sub): an unknown subcommand belongs to sub 0 of its type and an
unknown type to READ, which answer INVALID. -/
def msgRow (m : Bytes) : Nat × Nat :=
  let t := msgType m
  let u := msgSub m
  if t = 0x20 then (t, if u ≤ 5 then u else 0)
  else if t = 0x30 then (t, if u ≤ 4 then u else 0)
  else if [0x01, 0x02, 0x10, 0x11, 0x12, 0x13, 0x40].contains t then (t, 0)
  else (0x10, 0)

/-- Type and subcommand are those of Table 2-5. -/
def msgKnown (m : Bytes) : Bool :=
  let t := msgType m
  let u := msgSub m
  if t = 0x20 then u ≤ 5 else if t = 0x30 then u ≤ 4
  else [0x01, 0x02, 0x10, 0x11, 0x12, 0x13, 0x40].contains t && u == 0

/-! ### Roles and version subsets (R52, R54) -/

/-- Objects that a 1.x session reaches (R54). (DESIGN CHOICE, log entry 15) -/
def v1Object (a : Nat) : Bool :=
  let i := oaIndex a
  decide (0x1000 ≤ i ∧ i ≤ 0x10FF) || decide (0x2000 ≤ i ∧ i ≤ 0x27FF) ||
  decide (0x3800 ≤ i ∧ i ≤ 0x3FFF) || decide (0x7800 ≤ i ∧ i ≤ 0x7FFF)

/-- Objects that only the mailbox and ADMIN sessions reach (Table 2-15, R452, R453). (DESIGN CHOICE, log entry 15) -/
def adminObject (a : Nat) : Bool :=
  oaIndex a == 0x1020 || oaIndex a == 0x1316 || oaIndex a == 0x1318

/-- The firmware is in RECOVERY (R454). -/
def inRecovery (s : State) : Bool := s.safe.bootState == 2

/-- Requests that RECOVERY serves: READ of the 0x1000 range and of sf.boot.state, LONGOP of
FIRMWARE_STAGE, and QUERY (R454). (DESIGN CHOICE, log entry 12) -/
def recoveryServes (s : State) (m : Bytes) : Bool :=
  let body := msgBody m
  let slotKind := (tfind s.ctl.ops ((body.headD 0).toNat)).map (·.kind)
  match msgRow m with
  | (0x10, _) => (List.range (body.length / 8)).all fun i =>
      let a := fld (leNat (slice body (8 * i) 8)) 35 0
      decide (0x1000 ≤ oaIndex a ∧ oaIndex a ≤ 0x10FF) || a == oa 0x1310 0 0
  | (0x30, 0) => body.headD 0 == 11
  | (0x30, 4) => true
  | (0x30, _) => slotKind == some 11
  | _ => false

/-- What refuses a request before its type's own checks. (DESIGN CHOICE, log entry 12) -/
def refuseFirst (r : Req) (s : State) : Option Answer :=
  let t := msgType r.msg
  let room := min r.limit (r.msg.length - 17)
  if room < msgLen r.msg then some (refuse stInvalid room)
  else if r.who ≠ 0 ∧ 17 + msgLen r.msg < r.msg.length then some (refuse stInvalid (msgLen r.msg))
  else if !msgKnown r.msg then some (refuse stInvalid 0)
  else if inRecovery s && !recoveryServes s r.msg then some (refuse stVersion 0)
  else if r.v1 && [0x12, 0x13, 0x20, 0x30].contains t then some (refuse stVersion 0)
  else if r.role = 0 ∧ !([0x02, 0x10, 0x12, 0x13].contains t || msgRow r.msg == (0x30, 4) || t == 0x11) then
    some (refuse stDenied 0)
  else none

/-! ### The dictionary's values -/

/-- Valid UTF-8 so far: bytes still due, value and least value of the character in progress. -/
def utf8Step (st : Option (Nat × Nat × Nat)) (b : Byte) : Option (Nat × Nat × Nat) :=
  let v := b.toNat
  match st with
  | none => none
  | some (0, _, _) =>
    if v < 0x80 then some (0, 0, 0)
    else if 0xC2 ≤ v ∧ v ≤ 0xDF then some (1, v % 32, 0x80)
    else if 0xE0 ≤ v ∧ v ≤ 0xEF then some (2, v % 16, 0x800)
    else if 0xF0 ≤ v ∧ v ≤ 0xF4 then some (3, v % 8, 0x10000)
    else none
  | some (n + 1, acc, low) =>
    let x := acc * 64 + v % 64
    if v / 64 ≠ 2 then none
    else if n = 0 ∧ (x < low ∨ 0x10FFFF < x ∨ x / 0x800 = 0x1B) then none
    else some (n, x, low)

/-- Bytes are valid UTF-8 (Table 2-1, STRING). -/
def utf8Ok (bs : Bytes) : Bool :=
  match bs.foldl utf8Step (some (0, 0, 0)) with
  | some (0, _, _) => true
  | _ => false

/-- Check 4 of R40: type code, length and form of a value. -/
def typeOk (r : ObjRow) (ty : Nat) (v : Bytes) : Bool :=
  ty == r.ty && match ty with
    | 0x00 => v == [0] || v == [1]
    | 0x0C => decide (v.length ≤ r.size) && utf8Ok v
    | _ => v.length == r.size

/-- Check 5 of R40: the limits and ENUM set of an object. -/
def limitsOk (r : ObjRow) (v : Bytes) : Bool :=
  let n := leNat v
  let x : Int := if r.ty = 5 then signed32 n else n
  match r.lim with
  | .none => true
  | .range lo hi => decide (lo ≤ x) && decide (x ≤ hi)
  | .ranges l => l.any fun p => decide (p.1 ≤ n) && decide (n ≤ p.2)
  | .multiple m lo hi => n % max 1 m == 0 && decide (lo ≤ n) && decide (n ≤ hi)
  | .pow2 lo hi => decide (lo ≤ n) && decide (n ≤ hi) && n == 2 ^ Nat.log2 n
  | .enum l => l.contains n

/-- Objects of chapter 2 that the device sets (Table 2-15). -/
def controlObj (a : Nat) (s : State) : Option Bytes :=
  let c := s.ctl
  let i := oaIndex a
  let n := oaInst a
  let u := oaSub a
  if i = 0x1022 then some (leBytes 1 (c.sessions.filter fun r => r.1 < 9).length)
  else if i = 0x1100 then
    let x := slotOf s n
    some (match u with
      | 0 => leBytes 4 x.state
      | 1 => leBytes 4 x.version.toNat
      | 2 => leBytes 4 x.crc.toNat
      | _ => leBytes 2 x.format.toNat)
  else if i = 0x1101 then some (leBytes 4 c.generation.toNat)
  else if i = 0x1102 then some (leBytes 1 c.epoch)
  else if i = 0x1103 then some (leBytes 1 (b2n c.drain.isSome))
  else if i = 0x1104 then some (leBytes 8 (match c.drain with
    | some d => tget 0 c.epochCount d.old
    | none => 0))
  else if i = 0x1106 then some (leBytes 2 c.lastReject)
  else if i = 0x1107 then some (leBytes 4 c.liveEdits.toNat)
  else if i = 0x1108 then some (leBytes 8 c.lastStop)
  else if i = 0x1200 then
    let o := (tfind c.ops n).map (opProgressed s)
    let f := fun (g : LongOp → Nat) => (o.map g).getD 0
    some (match u with
      | 0 => leBytes 4 (f (·.kind))
      | 1 => leBytes 4 (f (·.state))
      | 2 => leBytes 8 (f (·.done))
      | 3 => leBytes 8 (f (·.total))
      | 4 => leBytes 2 (f (·.result))
      | 5 => leBytes 4 (f (·.started))
      | _ => leBytes 1 (f (·.requester)))
  else if i = 0x1201 then
    some (leBytes 1 (c.ops.filter fun r => decide (1 ≤ r.2.state) && decide (r.2.state ≤ 4)).length)
  else none

/-- The value of an object as a READ of the live device returns it (R36, R40). -/
def objValue (a : Nat) (s : State) : Bytes :=
  match controlObj a s with
  | some b => b
  | none => match subsystemObj a s with
    | some b => b
    | none => match objRow a with
      | none => []
      | some r =>
        if r.access = 0 then
          match ctrId a with
          | some id => leBytes r.size (ctrGet s (ctrAddr id))
          | none => match tfind s.cnt.ctr a with
            | some n => leBytes r.size n
            | none => rowDflt r a
        else if r.access = 4 then rowDflt r a
        else cfgB s a

/-- The value of an object as a staged READ returns it: a configuration object from the staged pattern. -/
def stagedValue (a : Nat) (s : State) : Bytes :=
  match objRow a with
  | some r => if r.access = 1 ∨ r.access = 2 then stagedB s a else objValue a s
  | none => []

/-! ### READ (R40, R43, R44) -/

/-- An entry word (2.3): length, type, segment flag, address. -/
def entryWord (len ty : Nat) (seg : Bool) (a : Nat) : Bytes :=
  leBytes 8 (len * 2 ^ 48 + ty * 2 ^ 40 + b2n seg * 2 ^ 39 + a)

/-- Checks 1 and 2 of R40 for a READ entry. -/
def readRefused (r : Req) (a : Nat) : Nat :=
  match objRow a with
  | none => stNotFound
  | some row =>
    if row.access = 3 ∨ (r.v1 && !v1Object a) ∨ (r.role ≠ 2 ∧ oaIndex a = 0x1020) then stDenied else stOk

/-- Read entries in order: the values that fit, then the first that fails or does not fit. -/
def readEntries (r : Req) (staged : Bool) (s : State) : List Nat → Nat → Bytes → List Nat → Answer × List Nat
  | [], _, out, done => ({ status := stOk, body := out }, done)
  | a :: t, i, out, done =>
    let st := readRefused r a
    if st ≠ stOk then (refuse st i, [])
    else
      let v := if staged then stagedValue a s else objValue a s
      let e := entryWord v.length ((objRow a).map (·.ty) |>.getD 0) false a ++ padMul 8 v
      if r.limit < out.length + e.length then ({ status := stNoSpace, detail := i, body := out }, done)
      else readEntries r staged s t (i + 1) (out ++ e) (done ++ [a])

/-- The work kept for a requester. -/
def workOf (s : State) (who : Nat) : Requester :=
  tget { segWrite := none, segRead := none, snapshot := none } s.ctl.requesters who

/-- Replace the work kept for a requester. -/
def setWork (s : State) (who : Nat) (w : Requester) : State :=
  setCtl s { s.ctl with
    requesters := tset { segWrite := none, segRead := none, snapshot := none } s.ctl.requesters who w }

/-- Bytes of a full segment: the body limit less the entry and segment words, in whole units of the padding (R43).
-/
def segmentRoom (r : Req) : Nat := (r.limit - 16) / 8 * 8

/-- A segmented READ (R43): the value is taken at offset 0 and later segments come from that copy.
(DESIGN CHOICE, log entry 16) -/
def readSegment (r : Req) (a off : Nat) (s : State) : Answer × State :=
  let st := readRefused r a
  if st ≠ stOk then (refuse st 0, s)
  else
    let v := if msgStaged r.msg then stagedValue a s else objValue a s
    let s1 := if off = 0 then setWork s r.who { workOf s r.who with segRead := some (a, v) } else s
    match (workOf s1 r.who).segRead with
    | none => (refuse stInvalid 8, s)
    | some (b, w) =>
      if b ≠ a ∨ w.length < off then (refuse stInvalid 8, s)
      else
        let seg := slice w off (segmentRoom r)
        ({ status := stOk, last := decide (off + seg.length = w.length),
           body := entryWord seg.length ((objRow a).map (·.ty) |>.getD 0) true a ++
             leBytes 8 (w.length * 2 ^ 32 + off) ++ padMul 8 seg }, s1)

/-- The READ request (R40, Table 2-5a). -/
def readReq (r : Req) (s : State) : Answer × State :=
  let body := msgBody r.msg
  let n := body.length / 8
  let w := fun i => leNat (slice body (8 * i) 8)
  if body.length % 8 ≠ 0 then (refuse stInvalid (8 * n), s)
  else if n = 0 then (refuse stInvalid 0, s)
  else if (w 0).testBit 39 then
    if n ≠ 2 then (refuse stInvalid (min 16 (8 * n)), s)
    else if fld (w 0) 63 48 ≠ 0 then (refuse stInvalid 6, s)
    else if fld (w 1) 63 32 ≠ 0 then (refuse stInvalid 12, s)
    else readSegment r (fld (w 0) 35 0) (fld (w 1) 31 0) s
  else if 64 < n then (refuse stInvalid 512, s)
  else match (List.range n).find? fun i => fld (w i) 63 48 != 0 || (w i).testBit 39 with
    | some i => (refuse stInvalid (8 * i + if fld (w i) 63 48 ≠ 0 then 6 else 4), s)
    | none =>
      let (ans, done) := readEntries r (msgStaged r.msg) s ((List.range n).map fun i => fld (w i) 35 0) 0 [] []
      (ans, done.foldl (fun t a => readEffect a t) s)

/-! ### WRITE (R40, R43, R57, R58) -/

/-- Checks 1 to 3 of R40 for a WRITE entry. -/
def writeBarred (r : Req) (staged : Bool) (a : Nat) (s : State) : Nat :=
  match objRow a with
  | none => stNotFound
  | some row =>
    if row.access = 0 ∨ row.access = 4 ∨ r.role = 0 ∨ (r.role = 1 ∧ 0x1000 ≤ oaIndex a ∧ oaIndex a ≤ 0x10FF) ∨
       (r.role ≠ 2 ∧ adminObject a) ∨ (r.v1 && (!v1Object a || staged || row.stop)) ∨
       (oaIndex a = 0x1318 ∧ s.safe.ownerHash.isSome) then stDenied
    else if !staged ∧ row.access = 2 then stStopRequired
    else stOk

/-- Checks 1 to 5 of R40 for a WRITE entry. -/
def writeRefused (r : Req) (staged : Bool) (a ty : Nat) (v : Bytes) (s : State) : Nat :=
  let st := writeBarred r staged a s
  match objRow a with
  | none => st
  | some row =>
    if st ≠ stOk then st
    else if !typeOk row ty v then stType
    else if !limitsOk row v || ruleRefuses a v staged s then stRange
    else if !staged && writeBusy a v s then stBusy
    else stOk

/-- Write one object, live or staged, with the effect its chapter gives it. -/
def writeObj (staged : Bool) (a : Nat) (v0 : Bytes) (s : State) : State :=
  let v := objClean a v0
  if staged then stagedSet a v s
  else
    let old := objValue a s
    let s1 := match objRow a with
      | some row => if row.access = 3 ∧ oaIndex a ≠ 0x1020 then
          setCtl s { s.ctl with liveEdits := s.ctl.liveEdits + 1 } else liveSet a v s
      | none => s
    writeEffect a old v s1

/-- Write entries in order; answer the first refusal, or the state with all of them written.
(DESIGN CHOICE, log entry 16) -/
def writeEntries (r : Req) (staged : Bool) : List (Nat × Nat × Bytes) → Nat → State → Answer × Option State
  | [], _, s => ({ status := stOk }, some s)
  | (a, ty, v) :: t, i, s =>
    let st := writeRefused r staged a ty v s
    if st ≠ stOk then (refuse st i, none)
    else writeEntries r staged t (i + 1) (writeObj staged a v s)

/-- Write all or none (R40). A staged write advances the generation (R58). (DESIGN CHOICE, log entry 16) -/
def writeAll (r : Req) (staged : Bool) (es : List (Nat × Nat × Bytes)) (s : State) : Answer × State :=
  match writeEntries r staged es 0 s with
  | (ans, some t) => (ans, reviewGuarantee (if staged then stagedEdit t else t))
  | (ans, none) => (ans, s)

/-- Split a WRITE body into entries; none with the offset where it breaks. -/
def parseEntries : Nat → Nat → Bytes → List (Nat × Nat × Bytes) → Option (List (Nat × Nat × Bytes)) × Nat
  | 0, off, bs, acc => if bs.isEmpty then (some acc, off) else (none, off)
  | n + 1, off, bs, acc =>
    if bs.isEmpty then (some acc, off)
    else
      let w := leNat (bs.take 8)
      let len := fld w 63 48
      let full := 8 + (len + 7) / 8 * 8
      if bs.length < full ∨ w.testBit 39 then (none, off)
      else parseEntries n (off + full) (bs.drop full) (acc ++ [(fld w 35 0, fld w 47 40, slice bs 8 len)])

/-- A segment of a WRITE (R43): checks 1 to 3 of R40 judge every segment, and all of them the whole value. -/
def writeSegment (r : Req) (body : Bytes) (s : State) : Answer × State :=
  let w := leNat (body.take 8)
  let g := leNat (slice body 8 8)
  let len := fld w 63 48
  let a := fld w 35 0
  let seg := slice body 16 len
  let k := workOf s r.who
  let dropped := setWork s r.who { k with segWrite := none }
  if body.length ≠ 16 + (len + 7) / 8 * 8 then (refuse stInvalid (min body.length (16 + (len + 7) / 8 * 8)), dropped)
  else
    let held : Option SegWrite := match k.segWrite with
      | none => if fld g 31 0 = 0 then some { addr := a, total := fld g 63 32, staged := msgStaged r.msg, data := [] } else none
      | some h => if h.addr = a ∧ h.total = fld g 63 32 ∧ h.staged = msgStaged r.msg ∧ h.data.length = fld g 31 0
        then some h else none
    match held with
    | none => (refuse stInvalid 8, dropped)
    | some h =>
      let data := h.data ++ seg
      if h.total < data.length ∨ (msgLast r.msg && data.length != h.total) then (refuse stInvalid 8, dropped)
      else if s.ctl.commit.isSome then (refuse stBusy 1, s)
      else if writeBarred r h.staged a s ≠ stOk then (refuse (writeBarred r h.staged a s) 0, dropped)
      else if !msgLast r.msg then ({ status := stOk }, setWork s r.who { k with segWrite := some { h with data := data } })
      else writeAll r h.staged [(a, fld w 47 40, data)] dropped

/-- The WRITE request (R40, R61, Table 2-5a): a malformed message or a segment between those held is INVALID, and a
well-formed WRITE is refused during a commit. -/
def writeReq (r : Req) (s : State) : Answer × State :=
  let body := msgBody r.msg
  let k := workOf s r.who
  let seg := decide (8 ≤ body.length) && (leNat (body.take 8)).testBit 39
  if seg then writeSegment r body s
  else if k.segWrite.isSome then (refuse stInvalid 0, setWork s r.who { k with segWrite := none })
  else match parseEntries 64 0 body [] with
    | (none, off) => (refuse stInvalid off, s)
    | (some [], _) => (refuse stInvalid 0, s)
    | (some es, _) => if s.ctl.commit.isSome then (refuse stBusy 1, s) else writeAll r (msgStaged r.msg) es s

/-! ### DESCRIBE and LIST (Table 2-5a) -/

/-- A number as U64, sign-extended for I32. -/
def limitBytes (x : Int) : Bytes := leBytes 8 (x % 2 ^ 64).toNat

/-- Minimum and maximum of an object's limits. -/
def limitPair (r : ObjRow) : Option (Int × Int) :=
  match r.lim with
  | .none => none
  | .range lo hi => some (lo, hi)
  | .ranges l => some ((l.map fun p => (p.1 : Int)).foldl min (l.headD (0, 0)).1, (l.map fun p => (p.2 : Int)).foldl max 0)
  | .multiple _ lo hi => some (lo, hi)
  | .pow2 lo hi => some (lo, hi)
  | .enum _ => none

/-- The DESCRIBE request. -/
def describeReq (r : Req) (s : State) : Answer × State :=
  let body := msgBody r.msg
  match lengthBad 8 body with
  | some e => (e, s)
  | none =>
    let w := leNat body
    let a := fld w 35 0
    if fld w 63 48 ≠ 0 then (refuse stInvalid 6, s)
    else match objRow a with
      | none => (refuse stNotFound 0, s)
      | some row =>
        if r.role ≠ 2 ∧ oaIndex a = 0x1020 then (refuse stDenied 0, s)
        else
          let d := objDflt s.safe.boardMgmt a
          let name := charBytes (objName row (oaInst a) (oaSub a))
          let es := match row.lim with
            | .enum l => l
            | _ => []
          let lim := limitPair row
          ({ status := stOk, body :=
              leBytes 1 row.ty ++ leBytes 1 row.access ++ leBytes 1 (b2n row.stop) ++ leBytes 1 (b2n lim.isSome) ++
              leBytes 4 row.size ++ limitBytes ((lim.map (·.1)).getD 0) ++ limitBytes ((lim.map (·.2)).getD 0) ++
              leBytes 2 d.length ++ leBytes 2 name.length ++ leBytes 4 es.length ++
              padMul 8 (d.take 256) ++ padMul 8 name ++ es.flatMap (leBytes 4) }, s)

/-- The lowest address of a dictionary row at or above a. -/
def rowNext (r : ObjRow) (a : Nat) : Option Nat :=
  if a ≤ oa r.index r.inst0 r.sub0 then some (oa r.index r.inst0 r.sub0)
  else if oaIndex a ≠ r.index then none
  else
    let (i, u) := if oaInst a < r.inst0 then (r.inst0, r.sub0)
      else if oaSub a ≤ r.sub1 then (oaInst a, max (oaSub a) r.sub0) else (oaInst a + 1, r.sub0)
    if i ≤ r.inst1 then some (oa r.index i u) else none

/-- The lowest object address at or above a. Gaps of the sub-indices are passed; n bounds them. -/
def objNext : Nat → Nat → Option Nat
  | 0, _ => none
  | n + 1, a =>
    let m := dictionary.foldl (fun (b : Option Nat) r => match rowNext r a, b with
      | some x, some y => some (min x y)
      | some x, none => some x
      | none, y => y) none
    match m with
    | none => none
    | some x => if objGap x then objNext n (x + 1) else some x

/-- Up to n object addresses from a to last. -/
def objList : Nat → Nat → Nat → List Nat
  | 0, _, _ => []
  | n + 1, a, last =>
    match objNext 256 a with
    | some x => if x ≤ last then x :: objList n (x + 1) last else []
    | none => []

/-- The LIST request. -/
def listReq (r : Req) (s : State) : Answer × State :=
  let body := msgBody r.msg
  match lengthBad 16 body with
  | some e => (e, s)
  | none =>
    let l := objList 129 (fld (leNat (body.take 8)) 35 0) (fld (leNat (body.drop 8)) 35 0)
    let got := l.take 128
    ({ status := stOk, body := leBytes 4 got.length ++ leBytes 4 (b2n (l.length == 129)) ++ got.flatMap (leBytes 8) }, s)

/-! ### The paths: mailbox (R46, R47) and Psindo (R49 to R53) -/

/-- A completion of the mailbox's request: answer, done, tag, and vector 0 under irq_en. -/
def mbxFinish (msg : Bytes) (s : State) : State :=
  let m := s.ctl.mbx
  let s1 := setCtl s { s.ctl with mbx := { m with answer := msg, statusTag := m.goTag, done := true, busy := false } }
  if m.irqEn then raiseVector 0 s1 else s1

/-- The session of a number. (DESIGN CHOICE, log entry 13) -/
def sessionOf (s : State) (n : Nat) : Option Session := tfind s.ctl.sessions n

/-- Replace a session. -/
def setSession (s : State) (n : Nat) (x : Session) : State :=
  setCtl s { s.ctl with sessions := tput s.ctl.sessions n x }

/-- The Psindo header (Table 2-7). -/
def psindoHeader (counter session keyId minor major : Nat) : Bytes :=
  leBytes 16 (counter % 2 ^ 64 * 2 ^ 64 + session * 2 ^ 32 + keyId * 2 ^ 16 + minor * 2 ^ 8 + major)

/-- Send an answer message in a session: the next counter, and the tag under the session key. -/
def psindoSend (n : Nat) (msg : Bytes) (s : State) : State :=
  match sessionOf s n with
  | none => s
  | some x =>
    let c := x.txCounter + 1
    let h := psindoHeader c.toNat x.id.toNat x.keyId.toNat x.minor x.major
    let s1 := setSession s n { x with txCounter := c }
    setCtl s1 { s1.ctl with datagram := h ++ msg ++ hmacSha256 x.key (h ++ msg) }

/-- Send an answer to a requester: the mailbox, or a session, which keeps it (R51). -/
def answerTo (who : Nat) (req : Bytes) (a : Answer) (s : State) : State :=
  let msg := answerMsg req a
  if who = 0 then mbxFinish msg s
  else match sessionOf s who with
    | none => s
    | some x => psindoSend who msg (setSession s who { x with answers := ((msgSeq req, msg) :: x.answers).take 16 })

/-- The enabled access key with a key ID: its number. -/
def keyOf (s : State) (keyId : Nat) : Option Nat :=
  (List.range 8).find? fun k => cfgOn s 0x1020 k 3 && cfgN s 0x1020 k 0 == keyId

/-- A datagram that does not authenticate: dropped, counted and reported (R50). -/
def authFail (src keyId : Nat) (s : State) : State :=
  raiseLimited 0x0D09 0 (fun n => words32 4 src ++ [keyId, n]) (count 0x1023 0 0 s)

/-- The bytes of the message inside a datagram. -/
def dgramMsg (d : Bytes) : Bytes := slice d 16 (d.length - 48)

/-- The tag of a datagram under a key is right. (PRESUMED, log entry 14) -/
def tagOk (key d : Bytes) : Bool :=
  decide (65 ≤ d.length) && hmacSha256 key (d.take (d.length - 32)) == d.drop (d.length - 32)

/-- The number of the session, open or retained, that a session ID names. -/
def sessionById (s : State) (id : Nat) : Option Nat :=
  (s.ctl.sessions.find? fun r => r.2.id.toNat == id).map (·.1)

/-- The counter of a datagram is accepted in a session (R51). -/
def counterOk (x : Session) (c : Nat) : Bool :=
  decide (x.highest.toNat < c) ||
  (decide (c < x.highest.toNat) && decide (x.highest.toNat - c ≤ 64) && !x.seen.contains c)

/-- Note an accepted counter (R51). -/
def noteCounter (x : Session) (c : Nat) : Session :=
  let h := max x.highest.toNat c
  { x with highest := BitVec.ofNat 64 h, seen := (c :: x.seen).filter fun k => decide (h ≤ k + 64) }

/-- The role of the access key of a session (R52). (DESIGN CHOICE, log entry 15) -/
def sessionRole (s : State) (x : Session) : Nat :=
  match keyOf s x.keyId.toNat with
  | some k => cfgN s 0x1020 k 2
  | none => 0

/-- A request handler; no answer means that the answer comes at a later step. -/
abbrev Handler := Req → State → Option Answer × State

/-- Execute a request: what refuses it before its own checks, then its handler (R40). -/
def execReq (h : Handler) (r : Req) (s : State) : Option Answer × State :=
  match refuseFirst r s with
  | some a => (some a, s)
  | none => h r s

/-- An authenticated datagram in an open session (R51). -/
def psindoServe (h : Handler) (n : Nat) (x : Session) (d : Bytes) (s : State) : State :=
  let msg := dgramMsg d
  let c := leNat (slice d 8 8)
  let s0 := setSession s n { x with since := raw s }
  if !counterOk x c then psindoSend n (answerMsg msg (refuse stAuth 0)) s0
  else
    let s1 := setSession s0 n { noteCounter x c with since := raw s }
    match x.answers.find? fun p => p.1 == msgSeq msg with
    | some p => psindoSend n p.2 s1
    | none =>
      let r : Req := { who := n, role := sessionRole s x, v1 := x.major == 1, limit := 1167, msg := msg }
      match execReq h r s1 with
      | (some a, t) => answerTo n msg a t
      | (none, t) => t

/-- A datagram other than a HELLO arrives (R50, R52). -/
def psindoReceive (h : Handler) (src : Nat) (d : Bytes) (s : State) : State :=
  let keyId := leNat (slice d 2 2)
  match sessionById s (leNat (slice d 4 4)) with
  | none => authFail src keyId s
  | some n => match sessionOf s n with
    | none => authFail src keyId s
    | some x =>
      if (keyOf s keyId).isNone || !tagOk x.key d then authFail src keyId s
      else if 9 ≤ n then psindoSend n (answerMsg (dgramMsg d) (refuse stAuth 0)) s
      else psindoServe h n x d s

/-- The mailbox's request buffer as a message (R46). -/
def mbxMsg (s : State) : Bytes := readBytes s.ctl.mbx.request 0 4096

/-- Psindo is in service: firmware runs, outside RECOVERY (Table 16-1, R454). -/
def psindoUp (s : State) : Bool := s.safe.cobblerReady && !inRecovery s

/-- The mailbox's request has been executed and waits for its answer (R46): a commit, a RESEED or a command of HOST_FLOW. -/
def mbxPending (s : State) : Bool :=
  let mine := fun (x : CmdSrc) => match x with
    | .msg a => a.who == 0
    | .ring _ => false
  (s.ctl.commit.any fun c => c.asker.who == 0) || (s.fwd.reseeds.any fun r => mine r.src) || s.aw.hostCmds.any fun c => mine c.src

/-- A request arrives by a path and is executed, if it is one that want names; else nothing happens. -/
def serve (want : Bytes → Bool) (h : Handler) (via : Via) (s : State) : State :=
  match via with
  | .mailbox =>
    let msg := mbxMsg s
    if s.ctl.mbx.busy && !mbxPending s && s.safe.cobblerReady && want msg then
      match execReq h { who := 0, role := 2, v1 := false, limit := 4079, msg := msg } s with
      | (some a, t) => answerTo 0 msg a t
      | (none, t) => t
    else s
  | .psindo src d =>
    if psindoUp s && want (dgramMsg d) && msgType (dgramMsg d) != 1 then psindoReceive h src d s else s

/-- A handler that answers at once. -/
def atOnce (f : Req → State → Answer × State) : Handler := fun r s =>
  match f r s with
  | (a, t) => (some a, t)

/-- The message belongs to a row of the table. -/
def isRow (t u : Nat) (m : Bytes) : Bool := msgRow m == (t, u)

/-- READ (R36, R39, R40 to R44, R54). -/
def execRead (via : Via) (s : State) : Host.Outcome State Fault Refusal :=
  .next (serve (isRow 0x10 0) (atOnce readReq) via s)

/-- WRITE (R36, R37, R39, R40 to R43, R54, R57, R58). -/
def execWrite (via : Via) (s : State) : Host.Outcome State Fault Refusal :=
  .next (serve (isRow 0x11 0) (atOnce writeReq) via s)

/-- DESCRIBE (R42, R54). -/
def execDescribe (via : Via) (s : State) : Host.Outcome State Fault Refusal :=
  .next (serve (isRow 0x12 0) (atOnce describeReq) via s)

/-- LIST (R42). -/
def execList (via : Via) (s : State) : Host.Outcome State Fault Refusal :=
  .next (serve (isRow 0x13 0) (atOnce listReq) via s)

/-! ### Sessions (R50 to R53) -/

/-- The version chosen for a client's range (R53). -/
def chooseVersion (minMaj minMin maxMaj maxMin : Nat) : Option (Nat × Nat) :=
  ([(2, 1), (1, 2)].findSome? fun (p : Nat × Nat) =>
    if minMaj ≤ p.1 ∧ p.1 ≤ maxMaj then
      let top := if p.1 = maxMaj then min p.2 maxMin else p.2
      let low := if p.1 = minMaj then minMin else 0
      if low ≤ top then some (p.1, top) else none
    else none)

/-- Event PSINDO_SESSION (Table 2-16). (DESIGN CHOICE, log entry 117) -/
def sessionEvent (x : Session) (opened : Nat) (s : State) : State :=
  raise 0x0D0A [x.id.toNat, x.keyId.toNat, x.major * 256 + x.minor, opened] s

/-- A session ID not 0 and not in use, from a free value upward. (DESIGN CHOICE, log entry 13) -/
def freshId (s : State) (v : Nat) : Nat :=
  ((List.range (s.ctl.sessions.length + 2)).map fun i => (v + i) % 2 ^ 32).find? (fun i => i != 0 && (sessionById s i).isNone) |>.getD 1

/-- The lowest free session number. -/
def freeSession (s : State) : Option Nat := [1, 2, 3, 4, 5, 6, 7, 8].find? fun n => (sessionOf s n).isNone

/-- A HELLO answer outside a session: its tag is under the access key, its counter is free.
(DESIGN CHOICE, log entry 13; DESIGN CHOICE, log entry 117) -/
def helloFail (key req : Bytes) (keyId : Nat) (a : Answer) (s : State) : State :=
  let msg := answerMsg req a
  let (c, s1) := fresh 64 s
  let h := psindoHeader c.toNat 0 keyId (leNat (slice req 1 1)) 0
  setCtl s1 { s1.ctl with datagram := h ++ msg ++ hmacSha256 key (h ++ msg) }

/-- A HELLO datagram whose tag is right (R52, R53). (DESIGN CHOICE, log entry 13) -/
def helloServe (secret : Bytes) (keyId : Nat) (d : Bytes) (s : State) : State :=
  let msg := dgramMsg d
  let b := msgBody msg
  let g := fun i => (b.getD i 0).toNat
  if b.length ≠ 20 ∨ msgSub msg ≠ 0 ∨ msgLen msg ≠ 20 ∨ msg.length ≠ 37 then
    helloFail secret msg keyId (refuse stInvalid (min 20 b.length)) s
  else match chooseVersion (g 0) (g 1) (g 2) (g 3) with
    | none => helloFail secret msg keyId { status := stVersion, body := [1, 0, 1, 2, 2, 0, 2, 1] } s
    | some (major, minor) => match freeSession s with
      | none => helloFail secret msg keyId (refuse stBusy 4) s
      | some n =>
        let (idv, s1) := fresh 32 s
        let (nonce, s2) := fresh 128 s1
        let (tx, s3) := fresh 63 s2
        let id := freshId s idv.toNat
        let dn := leBytes 16 nonce.toNat
        let sk := hmacSha256 secret (strBytes "psindo-session" ++ slice b 4 16 ++ dn)
        let x : Session := {
          id := BitVec.ofNat 32 id, keyId := BitVec.ofNat 16 keyId, key := sk, major := major, minor := minor,
          highest := BitVec.ofNat 64 (leNat (slice d 8 8)), seen := [], txCounter := BitVec.ofNat 64 tx.toNat,
          answers := [], since := raw s }
        let s4 := setWork s3 n { segWrite := none, segRead := none, snapshot := none }
        let body := [BitVec.ofNat 8 major, BitVec.ofNat 8 minor, 0, 0] ++ leBytes 4 id ++ dn
        answerTo n msg { status := stOk, body := body } (sessionEvent x 1 (setSession s4 n x))

/-- HELLO (R50, R52, R53). The mailbox uses no session (R48): there it answers INVALID. -/
def execHello (via : Via) (s : State) : Host.Outcome State Fault Refusal :=
  match via with
  | .mailbox => .next (serve (isRow 0x01 0) (atOnce fun _ t => (refuse stInvalid 0, t)) .mailbox s)
  | .psindo src d =>
    if psindoUp s && isRow 0x01 0 (dgramMsg d) then
      let keyId := leNat (slice d 2 2)
      .next (match keyOf s keyId with
        | none => authFail src keyId s
        | some k =>
          let secret := cfgB s (oa 0x1020 k 1)
          if tagOk secret d then helloServe secret keyId d s else authFail src keyId s)
    else .next s

/-- Forget a session and what is kept for it. -/
def dropSession (n : Nat) (s : State) : State :=
  setCtl s { s.ctl with sessions := tdel s.ctl.sessions n, requesters := tdel s.ctl.requesters n }

/-- The BYE request: the session closes once its answer is sent (R52). -/
def byeReq (r : Req) (s : State) : Option Answer × State :=
  match lengthBad 0 (msgBody r.msg) with
  | some e => (some e, s)
  | none => match sessionOf s r.who with
    | none => (some (refuse stInvalid 0), s)
    | some x =>
      let s1 := answerTo r.who r.msg { status := stOk } s
      (none, dropSession r.who (sessionEvent x 0 s1))

/-- BYE (R52). -/
def execBye (via : Via) (s : State) : Host.Outcome State Fault Refusal :=
  .next (serve (isRow 0x02 0) byeReq via s)

/-- The idle limit of a session in raw cycles (R52). -/
def idleCycles (s : State) : Nat := cfgN s 0x1021 0 0 * cycSecond

/-- The lowest number for a retained session. -/
def retainNumber (s : State) : Nat := s.ctl.sessions.foldl (fun m r => max m (r.1 + 1)) 9

/-- SESSION_IDLE_TIMEOUT: session n closes and its key is retained (R52). -/
def execSessionIdleTimeout (n : Nat) (s : State) : Host.Outcome State Fault Refusal :=
  match sessionOf s n with
  | none => .next s
  | some x =>
    if n < 9 ∧ x.since + idleCycles s ≤ raw s then
      let s1 := dropSession n (sessionEvent x 0 s)
      .next (setSession s1 (retainNumber s) { x with since := raw s, answers := [] })
    else .next s

/-- SESSION_RETENTION_EXPIRY: a retained key is discarded (R52). -/
def execSessionRetentionExpiry (n : Nat) (s : State) : Host.Outcome State Fault Refusal :=
  match sessionOf s n with
  | none => .next s
  | some x => if 9 ≤ n ∧ x.since + idleCycles s ≤ raw s then .next (dropSession n s) else .next s

end Sys2Proof.Machine
end

