-- ==== Sys2Proof/Machine/LongOps.lean ====
section
/-! DEFINITION. Long operations (2.9): slots, states, conflicts, START and the controls. -/
namespace Sys2Proof.Machine

/-- An operation is unfinished: QUEUED, RUNNING, SUSPENDED or CANCELLING (R68). -/
def opUnfinished (o : LongOp) : Bool := decide (1 ≤ o.state) && decide (o.state ≤ 4)

/-- The unfinished operations. -/
def unfinished (s : State) : List (Nat × LongOp) := s.ctl.ops.filter fun r => opUnfinished r.2

/-- The operation holds what it holds: it has run, or its cancel work runs. -/
def opHolds (o : LongOp) : Bool := o.state == 2 || o.state == 4 || (o.state == 3 && o.ran)

/-! ### Change sets (R60, R61) -/

/-- The addresses listed in two value tables. (DESIGN CHOICE, log entry 15) -/
def bothKeys (x y : Tbl Bytes) : List Nat :=
  x.map (·.1) ++ (y.map (·.1)).filter fun a => (tfind x a).isNone

/-- The objects whose values differ between two slots. -/
def changedObjs (x y : Slot) (s : State) : List Nat :=
  (bothKeys x.objs y.objs).filter fun a =>
    (tfind x.objs a).getD (objDflt s.safe.boardMgmt a) != (tfind y.objs a).getD (objDflt s.safe.boardMgmt a)

/-- An object of commit class STOP. -/
def isStop (a : Nat) : Bool :=
  match objRow a with
  | some r => r.stop
  | none => false

/-- Rule entries of pipeline group g. -/
def groupRules (b : Banked) (g : Nat) : Tbl (BitVec 2176) := b.rules.filter fun r => r.1 / 2 ^ 22 == g

/-- The tables functions whose banked tables differ (R64): a group's own for its rules, every group's for
edit programs and header templates. -/
def changedTables (x y : Banked) : List Fn :=
  if x.edits != y.edits || x.headers != y.headers then [.tables 0, .tables 1, .tables 2, .tables 3]
  else ((List.range 4).filter fun g => groupRules x g != groupRules y g).map .tables

/-- A banked table or stage object differs, so that the epoch advances (R64). -/
def bankChanged (x y : Banked) (objs : List Nat) : Bool :=
  x.rules != y.rules || x.edits != y.edits || x.headers != y.headers || x.templates != y.templates ||
  x.params != y.params || objs.any isStageObj

/-- The functions of the change set between the active slot and another (R61). (DESIGN CHOICE, log entry 17) -/
def changeSet (x : Slot) (t : Banked) (s : State) : List Fn :=
  let objs := changedObjs s.ctl.active x s
  ((objs.filter isStop).flatMap fun a => fnsOf a s) ++ changedTables (bankOf s s.ctl.epoch) t |>.eraseDups

/-! ### Conflicts (R70) -/

/-- Operations on flows: TABLE_LOAD, TABLE_DUMP and AUDIT_PASS name a table (Table 2-14). -/
def opFlows (o : LongOp) : Bool := opTable o == 0x10

/-- The table code (Table 13-6) of an audit target (Table 4-11). -/
def auditTable (t : Nat) : Nat := if 0x10 ≤ t then t + 0x10 else t

/-- The functions that hold a table: the groups' rule stages and copies of the forwarding tables, the flow engine for
the tables of flows, the TMs for the meters. (DESIGN CHOICE, log entry 109) -/
def tableFns (t : Nat) : List Fn :=
  if 0x20 ≤ t ∧ t < 0x30 then [.tables ((t - 0x20) / 4)]
  else if 0x10 ≤ t ∧ t ≤ 0x13 then [.flowEngine]
  else if t = 0x14 ∨ t = 0x15 then (List.range 16).map .tm
  else if t = 0x08 ∨ t = 0x09 then [.switchCore]
  else [.tables 0, .tables 1, .tables 2, .tables 3]

/-- The functions that an operation uses, against which BIST_FUNCTION conflicts; a PATTERN_COMMIT uses those of the
staged slot's change set. (DESIGN CHOICE, log entry 109) -/
def opUses (s : State) (o : LongOp) : List Fn :=
  match o.kind with
  | 1 => [.flowEngine]
  | 2 => [.flowEngine, .hbmMap]
  | 3 => tableFns (opTable o)
  | 4 => tableFns (opTable o)
  | 5 => [.flowEngine]
  | 6 => tableFns (auditTable (opTable o))
  | 7 => [.hbmMap]
  | 8 => ((bistTarget o.params).map fun p => p.1).toList
  | 9 => [.hbmMap]
  | 10 => changeSet s.ctl.staged (freeBank s) s
  | _ => []

/-- One direction of Table 2-14. -/
def conflictsOne (s : State) (a b : LongOp) : Bool :=
  let load := b.kind == 3 && opFlows b
  match a.kind with
  | 1 => b.kind == 1 || b.kind == 2 || load || b.kind == 5
  | 2 => b.kind == 1 || b.kind == 2 || load || (b.kind == 4 && opFlows b) || b.kind == 5 || b.kind == 9 || b.kind == 10
  | 3 => ((b.kind == 3 || b.kind == 4) && opTable a == opTable b) || (b.kind == 6 && opTable a == auditTable (opTable b))
  | 5 => b.kind == 1 || b.kind == 2 || load || b.kind == 5
  | 6 => b.kind == 6 && opTable a == opTable b
  | 7 => b.kind == 7 && (a.params.headD 0 == b.params.headD 0 || a.params.headD 0 == 255 || b.params.headD 0 == 255)
  | 8 => (opUses s a).any fun f => (opUses s b).contains f
  | 9 => (b.kind == 9 && retrainStack a.params == retrainStack b.params) || b.kind == 7
  | 10 => b.kind == 10
  | 11 => b.kind == 11
  | _ => false

/-- Two operations conflict (Table 2-14); the relation is symmetric (R70). -/
def opsConflict (s : State) (a b : LongOp) : Bool := conflictsOne s a b || conflictsOne s b a

/-- A change set conflicts with an operation (R70). -/
def changeConflicts (fns : List Fn) (o : LongOp) : Bool :=
  (o.kind == 8 && (((bistTarget o.params).map fun p => fns.contains p.1).getD false)) ||
  (fns.contains .flowEngine && (o.kind == 1 || o.kind == 2 || (o.kind == 3 && opFlows o) || o.kind == 5)) ||
  (fns.contains .hbmMap && (o.kind == 2 || o.kind == 9))

/-- The conflicts of an operation in slot n have cleared: no unfinished operation that holds, or that
was started before it, conflicts with it, and no commit in progress does. -/
def opClear (n : Nat) (o : LongOp) (s : State) : Bool :=
  !((unfinished s).any fun r => r.1 != n && opsConflict s o r.2 && (opHolds r.2 || decide (r.2.order < o.order))) &&
  match s.ctl.commit with
  | some c => !changeConflicts c.fns o && !(o.kind == 2)
  | none => true

/-- An operation begins to run and takes its holds (Table 2-13). -/
def opRun (n : Nat) (o : LongOp) (s : State) : State :=
  let o' := { o with state := 2, ran := true }
  opBegin n o' (setOp s n o')

/-- The slot that a START takes: one never used, else the finished slot that finished earliest (R68).
(DESIGN CHOICE, log entry 19) -/
def opSlot (s : State) : Option Nat :=
  match (List.range 16).find? fun n => (tfind s.ctl.ops n).isNone with
  | some n => some n
  | none =>
    (s.ctl.ops.filter fun r => !opUnfinished r.2).foldl (fun (m : Option Nat) r => match m with
      | none => some r.1
      | some k => if r.2.finished < ((tfind s.ctl.ops k).map (·.finished)).getD 0 then some r.1 else some k) none

/-- Create an operation, QUEUED, in a free slot. (DESIGN CHOICE, log entry 19) -/
def opCreate (kind who : Nat) (params : Bytes) (gen total : Nat) (s : State) : Option (Nat × LongOp × State) :=
  if 16 ≤ (unfinished s).length then none
  else match opSlot s with
    | none => none
    | some n =>
      let o : LongOp := {
        kind := kind, state := 1, done := 0, total := total, result := 0, started := devSeconds s,
        requester := who, ran := false, suspendAsked := false, order := s.ctl.opOrder, finished := 0,
        params := params, generation := gen, written := 0 }
      let s1 := setOp s n o
      some (n, o, setCtl s1 { s1.ctl with opOrder := s1.ctl.opOrder + 1 })

/-- The function that BIST_FUNCTION names is running (R70): the pattern runs and the function is not
in a stop; the online tests of slices and buffer are excepted. -/
def bistBusy (params : Bytes) (s : State) : Bool :=
  match bistTarget params with
  | some (f, online) => !online && s.safe.patternActive && !fnStopped s f &&
      (match f with
       | .pipeline p => tget 0 s.safe.domains p != 4
       | .tm p => tget 0 s.safe.domains p != 4
       | _ => true)
  | none => false

/-- The types that START takes (Table 2-15): PATTERN_COMMIT is created by COMMIT alone. -/
def startKinds : List Nat := [1, 2, 3, 4, 5, 6, 7, 8, 9, 11]

/-- The LONGOP START request (R68 to R70, Table 2-5a). -/
def startReq (r : Req) (s : State) : Answer × State :=
  let body := msgBody r.msg
  let kind := (body.headD 0).toNat
  if body.length < 8 then (refuse stInvalid body.length, s)
  else match lengthBad (8 + leNat (slice body 4 4)) body with
    | some e => (e, s)
    | none =>
      let params := body.drop 8
      if !startKinds.contains kind then (refuse stInvalid 0, s)
      else if kind = 8 ∧ bistBusy params s then (refuse stBusy 0, s)
      else match opRefused kind params s with
        | some (st, d) => (refuse st d, s)
        | none => match opCreate kind r.who params 0 0 s with
          | none => (refuse stNoSpace 0, s)
          | some (n, o, s1) =>
            ({ status := stOk, body := leBytes 1 n }, if opClear n o s1 then opRun n o s1 else s1)

/-- A START message of one type; a type that START does not take belongs to REHASH's row. -/
def isStart (kind : Nat) (m : Bytes) : Bool :=
  let k := ((msgBody m).headD 0).toNat
  isRow 0x30 0 m && (k == kind || (kind == 1 && !startKinds.contains k))

/-- START of an operation by a path. (DESIGN CHOICE, log entry 19) -/
def start (kind : Nat) (via : Via) (s : State) : Host.Outcome State Fault Refusal :=
  .next (serve (isStart kind) (atOnce startReq) via s)

/-- REHASH: START (R188). -/
def execRehash (via : Via) (s : State) : Host.Outcome State Fault Refusal := start 1 via s
/-- RESIZE_PARTITION: START (R193, R346). -/
def execResizePartition (via : Via) (s : State) : Host.Outcome State Fault Refusal := start 2 via s
/-- TABLE_LOAD: START (R200). -/
def execTableLoad (via : Via) (s : State) : Host.Outcome State Fault Refusal := start 3 via s
/-- TABLE_DUMP: START (R198). -/
def execTableDump (via : Via) (s : State) : Host.Outcome State Fault Refusal := start 4 via s
/-- FLOW_FLUSH: START (R199). -/
def execFlowFlush (via : Via) (s : State) : Host.Outcome State Fault Refusal := start 5 via s
/-- AUDIT_PASS: START (R128). -/
def execAuditPass (via : Via) (s : State) : Host.Outcome State Fault Refusal := start 6 via s
/-- SCRUB_PASS: START (R367). -/
def execScrubPass (via : Via) (s : State) : Host.Outcome State Fault Refusal := start 7 via s
/-- BIST_FUNCTION: START (R70). -/
def execBistFunction (via : Via) (s : State) : Host.Outcome State Fault Refusal := start 8 via s
/-- HBM_RETRAIN_FULL: START (R355). -/
def execHbmRetrainFull (via : Via) (s : State) : Host.Outcome State Fault Refusal := start 9 via s
/-- FIRMWARE_STAGE: START (R72, R449). -/
def execFirmwareStage (via : Via) (s : State) : Host.Outcome State Fault Refusal := start 11 via s

/-! ### Controls (R68, R69) -/

/-- The operation that a control names, or the refusal. -/
def opNamed (r : Req) (s : State) : Answer ⊕ (Nat × LongOp) :=
  let body := msgBody r.msg
  match lengthBad 1 body with
  | some e => .inl e
  | none =>
    let n := (body.headD 0).toNat
    match tfind s.ctl.ops n with
    | none => .inl (refuse stNotFound 0)
    | some o => .inr (n, o)

/-- The answer of a control: slot and state after it. (DESIGN CHOICE, log entry 19) -/
def opAnswer (n st : Nat) : Answer := { status := stOk, body := leBytes 1 n ++ leBytes 1 st }

/-- The type may be suspended while RUNNING: each chapter says so but for BIST_FUNCTION and PATTERN_COMMIT (R71). -/
def opSuspends (o : LongOp) : Bool := o.kind != 8 && o.kind != 10

/-- The type may be cancelled while RUNNING. -/
def opCancels (o : LongOp) (s : State) : Bool := o.kind != 8 && o.kind != 10 && !opCancelDenied o s

/-- LONGOP SUSPEND (Table 2-13): a running operation stops at its suspend point. (DESIGN CHOICE, log entry 19) -/
def suspendReq (r : Req) (s : State) : Answer × State :=
  match opNamed r s with
  | .inl e => (e, s)
  | .inr (n, o) =>
    if o.state = 1 then (opAnswer n 3, setOp s n { o with state := 3 })
    else if o.state = 2 then
      if opSuspends o then (opAnswer n 3, setOp s n { o with state := 3, suspendAsked := true })
      else (refuse stDenied 0, s)
    else (refuse stInvalid 0, s)

/-- LONGOP RESUME (Table 2-13). -/
def resumeReq (r : Req) (s : State) : Answer × State :=
  match opNamed r s with
  | .inl e => (e, s)
  | .inr (n, o) =>
    if o.state ≠ 3 then (refuse stInvalid 0, s)
    else if o.ran then (opAnswer n 2, setOp s n { o with state := 2, suspendAsked := false })
    else (opAnswer n 1, setOp s n { o with state := 1 })

/-- LONGOP CANCEL (Table 2-13). (DESIGN CHOICE, log entry 19) -/
def cancelReq (r : Req) (s : State) : Answer × State :=
  match opNamed r s with
  | .inl e => (e, s)
  | .inr (n, o) =>
    if o.state = 1 then (opAnswer n 7, opFinish n 7 stCancelled s)
    else if o.state = 2 ∨ o.state = 3 then
      if opCancels o s then (opAnswer n 4, setOp s n { o with state := 4, suspendAsked := false })
      else if o.state = 2 ∨ flowCancelDenied o s then (refuse stDenied 0, s) else (refuse stInvalid 0, s)
    else (refuse stInvalid 0, s)

/-- LONGOP QUERY (Table 2-5a). -/
def queryReq (r : Req) (s : State) : Answer × State :=
  match opNamed r s with
  | .inl e => (e, s)
  | .inr (n, o) =>
    let g := fun u => objValue (oa 0x1200 n u) s
    ({ status := stOk, body := leBytes 1 o.kind ++ leBytes 1 o.state ++ leBytes 2 o.result ++
        leBytes 4 o.requester ++ g 2 ++ g 3 ++ leBytes 4 o.started }, s)

/-- LONGOP_SUSPEND (R69). -/
def execLongopSuspend (via : Via) (s : State) : Host.Outcome State Fault Refusal :=
  .next (serve (isRow 0x30 1) (atOnce suspendReq) via s)
/-- LONGOP_RESUME (R69). -/
def execLongopResume (via : Via) (s : State) : Host.Outcome State Fault Refusal :=
  .next (serve (isRow 0x30 2) (atOnce resumeReq) via s)
/-- LONGOP_CANCEL (R69). -/
def execLongopCancel (via : Via) (s : State) : Host.Outcome State Fault Refusal :=
  .next (serve (isRow 0x30 3) (atOnce cancelReq) via s)
/-- LONGOP_QUERY (R68). -/
def execLongopQuery (via : Via) (s : State) : Host.Outcome State Fault Refusal :=
  .next (serve (isRow 0x30 4) (atOnce queryReq) via s)

/-! ### Progress (R69) -/

/-- LONGOP_CONFLICTS_CLEAR: a QUEUED operation whose conflicts have cleared runs, in START order. -/
def execLongopConflictsClear (n : Nat) (s : State) : Host.Outcome State Fault Refusal :=
  match tfind s.ctl.ops n with
  | none => .next s
  | some o => if o.state = 1 ∧ o.kind ≠ 10 ∧ opClear n o s then .next (opRun n o s) else .next s

/-- LONGOP_UNIT_DONE: one unit of work is complete; a pending SUSPEND stops the operation there. -/
def execLongopUnitDone (n : Nat) (u : OpUnit) (s : State) : Host.Outcome State Fault Refusal :=
  match tfind s.ctl.ops n with
  | none => .next s
  | some o =>
    if o.state = 2 ∨ (o.state = 3 ∧ o.suspendAsked) then
      .next (opUnit n o u s)
    else .next s

/-- LONGOP_WORK_COMPLETE: the operation ends DONE with result OK. In RECOVERY a FIRMWARE_STAGE that ends so boots the
device anew from step 1 (R454). -/
def execLongopWorkComplete (n : Nat) (s : State) : Host.Outcome State Fault Refusal :=
  match tfind s.ctl.ops n with
  | none => .next s
  | some o =>
    if o.state = 2 ∧ opWorkDone o s then
      let s1 := opEnd n o 5 (opFinish n 5 stOk s)
      .next (if o.kind = 11 ∧ inRecovery s then bootFromStep1 s1 else s1)
    else .next s

/-- LONGOP_FAILED: a fault or a refusal ends the operation with its status. -/
def execLongopFailed (n status : Nat) (s : State) : Host.Outcome State Fault Refusal :=
  match tfind s.ctl.ops n with
  | none => .next s
  | some o => if o.state = 2 then .next (opEnd n o 6 (opFinish n 6 status s)) else .next s

/-- CANCEL_WORK_COMPLETE: a CANCELLING operation ends CANCELLED. -/
def execCancelWorkComplete (n : Nat) (s : State) : Host.Outcome State Fault Refusal :=
  match tfind s.ctl.ops n with
  | none => .next s
  | some o => if o.state = 4 then .next (opEnd n o 7 (opFinish n 7 stCancelled s)) else .next s

end Sys2Proof.Machine
end

