-- ==== Sys2Proof/Machine/Validate.lean ====
section
/-! DEFINITION. Validation of a pattern (R59, Table 2-10): one predicate per check, each judged with the slot's values
in force. -/
namespace Sys2Proof.Machine

/-- The interface version that a pattern's image declares for a routine (R212); the spec does not lay it out.
(DESIGN CHOICE, log entry 105) -/
opaque Config.declaredVersion : Tbl Bytes → Nat → Nat

/-- Some value occurs twice. -/
def repeats (l : List Nat) : Bool := decide (l.eraseDups.length ≠ l.length)

/-- 0x0101: the format version is neither 2.0 nor 2.1. -/
def formatBad (x : Slot) : Bool := x.format.toNat != 0x0200 && x.format.toNat != 0x0201

/-- The type code of a value as its object states it. -/
def objType (a : Nat) : Nat := ((objRow a).map (·.ty)).getD 0

/-- 0x0103: a value outside its type, limits or ENUM set, the rule units of a group (R90), or a dump section that
leaves the counter space (Table 15-5). -/
def valuesBad (x : Slot) (s : State) : Bool :=
  x.objs.any (fun r => match objRow r.1 with
    | none => true
    | some row => !typeOk row row.ty r.2 || !limitsOk row r.2 || valueBad r.1 r.2 s) ||
  (List.range 4).any (fun g =>
    decide (262144 < (List.range 4).foldl (fun a k => a + cfgN s 0x3011 g k) 0)) ||
  decide (65536 < cfgN s 0x7811 0 0 + cfgN s 0x7812 0 0)

/-- 0x0104: a value given to an RO or CONST object that differs from the device's. -/
def fixedBad (x : Slot) (s : State) : Bool :=
  x.objs.any fun r => match objRow r.1 with
    | some row => (row.access == 0 || row.access == 4) && r.2 != objValue r.1 s
    | none => false

/-- Native ports. -/
def nativePorts (s : State) : List Nat := (listed s.ctl.active 0x2000 0).filter fun q => cfgN s 0x2000 q 0 != 0

/-- FlexE PHYs with a mode. -/
def phyMembers (s : State) : List Nat := (listed s.ctl.active 0x2801 0).filter fun i => cfgN s 0x2801 i 0 != 0

/-- The lanes of a link break R291: its first lane is no multiple of their number. -/
def laneBad (s : State) (k : Nat) : Bool :=
  let n := modeLanes (linkMode s k)
  n == 0 || linkLane s k % 16 % max 1 n != 0

/-- 0x0105: lanes, ports per pipeline, lane counts and rates. -/
def lanesBad (s : State) : Bool :=
  let ports := nativePorts s
  let links := ports ++ (phyMembers s).map phyKey
  ports.any (laneBad s) ||
  repeats (links.flatMap fun k => linkLanes s k (linkMode s k)) ||
  (List.range 16).any (fun p => decide (16 < (ports.filter fun q => q / 64 == p).length)) ||
  ports.any (fun q => cfgN s 0x2003 q 0 != 3 && !(modeFecs (linkMode s q)).contains (cfgN s 0x2003 q 0))

/-- Modes of a PHY type (Table 10-2). -/
def phyModes (ty : Nat) : List Nat := [[5, 6, 7], [8, 9, 10], [11, 12, 13]].getD ty []

/-- Slots that a group's calendar gives a client. -/
def calSlots (s : State) (g q : Nat) : Nat := ((calOf s g).filter fun id => id == cfgN s 0x2802 q 1).length

/-- The rate in Mb/s that a pattern gives a port: its mode's, or 5 Gb/s per slot of its client (R315).
(DESIGN CHOICE, log entry 101) -/
def patternRate (s : State) (q : Nat) : Nat :=
  if cfgN s 0x2000 q 0 != 0 then modeRate (cfgN s 0x2000 q 0)
  else match clientGroup s q with
    | some g => 5000 * calSlots s g q
    | none => 0

/-- A group breaks R313. (DESIGN CHOICE, log entry 101) -/
def groupBad (s : State) (g : Nat) : Bool :=
  let ms := fxMembers s g
  let cs := (groupClients s g).eraseDups
  let cal := calOf s g
  let room := 20 * fxInstances s g * ms.length
  let ids := cs.map fun q => cfgN s 0x2802 q 1
  let num := cfgN s 0x2800 g 1
  num == 0 || decide (0xFFFFE < num) || ms.isEmpty ||
  ms.any (fun i => cfgN s 0x2801 i 1 / 8 != g / 32 || !(phyModes (cfgN s 0x2800 g 2)).contains (cfgN s 0x2801 i 0) ||
    cfgN s 0x2801 i 3 == 0 || decide (254 < cfgN s 0x2801 i 3) || laneBad s (phyKey i)) ||
  repeats (ms.map fun i => cfgN s 0x2801 i 3) ||
  cal.any (fun id => id != 0 && !ids.contains id) || (cal.drop room).any (fun id => id != 0) ||
  cs.any (fun q => cfgN s 0x2000 q 0 != 0 || q / 512 != g / 32) ||
  ids.any (fun id => id == 0 || decide (0xFFFE < id)) || repeats ids || decide (128 < cs.length)

/-- 0x0106: the FlexE rules of R313. -/
def flexeBad (s : State) : Bool :=
  let gs := (fxGroupsOn s).eraseDups
  let ports := (nativePorts s ++ gs.flatMap fun g => groupClients s g).eraseDups
  gs.any (groupBad s) || repeats (gs.map fun g => cfgN s 0x2800 g 1) ||
  (!gs.isEmpty && (List.range 16).any fun p =>
    decide (3200000 < (ports.filter fun q => q / 64 == p).foldl (fun a q => a + patternRate s q) 0)) ||
  decide (2 * gb < deskewNeed s)

/-- 0x0107: partition ranges, the space of the pseudo-channels not retired, and the heel where it is placed (R342, R344). -/
def partitionsBad (s : State) : Bool :=
  let size := fun k => cfgN s 0x6000 k 0
  (List.range 6).any (fun k => decide (size k < (partRange k).1) || decide ((partRange k).2 < size k)) ||
  decide (128 - retiredCount s < (List.range 6).foldl (fun a k => a + size k) 0) ||
  overlaps s (partBase s 5) (size 5 * gb) 5

/-- 0x0108: flow seeds and flow partition sizes differ from those of the active slot; an EMPTY active slot, as before
the first commit (R55, R67), holds none. -/
def flowFixedBad (t s : State) : Bool :=
  s.ctl.active.state != 0 && ([1, 2, 3, 4, 5].any (fun i => cfgN t 0x4000 i 0 != cfgN s 0x4000 i 0) ||
  [0, 1].any (fun k => cfgN t 0x6000 k 0 != cfgN s 0x6000 k 0))

/-- 0x010A: static buffer limits and the reserve (R243). -/
def buffersBad (s : State) : Bool :=
  let heel := if (listed s.ctl.active 0x5009 0).isEmpty then [] else (listed s.ctl.active 0x5007 0).eraseDups
  reserveBad s || (limitPorts s.ctl.active ++ heel).any (portLimitsBad s)

/-- 0x010B: a rule's action word or a stage default holds a reserved value, or names what does not exist. -/
def actionsBad (t : Banked) (s : State) : Bool :=
  t.rules.any (fun r => actionBad (entryAction (cfgN s 0x3010 (r.1 / 2 ^ 22) (r.1 / 2 ^ 20 % 4)) r.2)) ||
  (List.range 4).any fun g => (List.range 4).any fun k => actionBad (BitVec.ofNat 128 (cfgN s 0x3013 g k))

/-- A valid template breaks R167 as Table 2-10 states it, its parameter set R217, or its routine R212.
(DESIGN CHOICE, log entry 101) -/
def templateBad (objs : Tbl Bytes) (t : Banked) (e : BitVec 512) (s : State) : Bool :=
  let n := bf e 251 244
  let set := tget 0 t.params (bf e 243 236)
  let have_ := routineVersion s n
  let want := Config.declaredVersion objs n
  bit e 255 && (decide (4 < bf e 254 252) || bf e 223 222 == 3 ||
    decide (bf e 42 27 < bf e 58 43) ||
    (bf e 254 252 == 4 && (have_ == 0 || have_ / 256 != want / 256 || decide (have_ % 256 < want % 256) ||
      (decide (1 ≤ n) && decide (n ≤ 3) && decide (bf set 79 64 < bf set 63 48)))))

/-- 0x010C: edit programs, header templates, new-flow templates, parameter sets and routines. -/
def programsBad (objs : Tbl Bytes) (t : Banked) (s : State) : Bool :=
  t.edits.any (fun r => (progWords t r.1).any editReserved) ||
  t.headers.any (fun r => bf r.2 7 0 == 0 || decide (64 < bf r.2 7 0)) ||
  t.templates.any fun r => templateBad objs t r.2 s

/-- 0x010D: a shaper beyond the rate of its port (R275). -/
def shapersBad (s : State) : Bool :=
  s.ctl.active.objs.any fun r => oaIndex r.1 == 0x5820 && shaperBad (leNat r.2) (patternRate s (oaInst r.1))

/-- A ring of n bytes from a base lies within the telemetry partition. -/
def inTelemetry (s : State) (base n : Nat) : Bool :=
  decide (partBase s 4 ≤ base) && decide (base + n ≤ partBase s 4 + partSize s 4)

/-- 0x010E: a dump ring or an IPFIX ring in HBM outside the telemetry partition. -/
def ringsBad (s : State) : Bool :=
  (cfgN s 0x7814 0 0 == 0 && cfgN s 0x7815 0 0 != 0 &&
    !inTelemetry s (cfgN s 0x7815 0 0) (cfgN s 0x7816 0 0 * dumpSlotBytes s)) ||
  (List.range 16).any fun n => cfgN s 0x7840 n 0 == 2 &&
    !inTelemetry s (cfgN s 0x7840 n 4) (cfgN s 0x7840 n 5 * ((cfgN s 0x7840 n 2 + 63) / 64 * 64))

/-- The code of the first failing check of Table 2-10 for a slot with its tables; 0: none fails. -/
def validateCode (x : Slot) (t : Banked) (s : State) : Nat :=
  let a := asActive x s
  let checks : List (Nat × Bool) := [
    (0x0101, formatBad x),
    (0x0102, x.device != 0x9516 || !x.consistent),
    (0x0103, valuesBad x a),
    (0x0104, fixedBad x s),
    (0x0105, lanesBad a),
    (0x0106, flexeBad a),
    (0x0107, partitionsBad a),
    (0x0108, flowFixedBad a s),
    (0x0109, reservationsBad a),
    (0x010A, buffersBad a),
    (0x010B, actionsBad t a),
    (0x010C, programsBad x.objs t a),
    (0x010D, shapersBad a),
    (0x010E, ringsBad a)]
  ((checks.find? (·.2)).map (·.1)).getD 0

end Sys2Proof.Machine
end

