-- ==== Sys2Proof/Machine/Patterns.lean ====
section
/-! DEFINITION. Patterns, commit and lasting, epochs and drain (2.6 to 2.8). -/
namespace Sys2Proof.Machine

/-- Replace the staged slot. -/
def setStaged (s : State) (x : Slot) : State := setCtl s { s.ctl with staged := x }

/-! ### LOAD, VALIDATE, COPY, READ_IMAGE (R45, R58, R59) -/

/-- A segment joins those held; the last one makes the staged slot (R58). -/
def loadSegment (held seg : Bytes) (last : Bool) (s : State) : State :=
  let img := held ++ seg
  let s1 := stagedEdit (setCtl s { s.ctl with loading := img, loadOpen := true })
  if last then
    let (x, t) := parseImage img
    let s3 := setStaged (setCtl s1 { s1.ctl with loading := [], loadOpen := false }) x
    if s.ctl.drain.isSome then s3 else setFreeBank s3 t
  else setStaged s1 { emptySlot with state := 1 }

/-- The LOAD request (R58): segments in ascending order from offset 0. -/
def loadReq (r : Req) (s : State) : Answer × State :=
  let body := msgBody r.msg
  let off := leNat (body.take 4)
  let seg := body.drop 8
  let held := if off = 0 then [] else s.ctl.loading
  if body.length < 8 then (refuse stInvalid body.length, s)
  else if s.ctl.commit.isSome then (refuse stBusy 1, s)
  else if s.ctl.drain.isSome && Config.carriesTables held seg then (refuse stDraining 0, s)
  else if off ≠ 0 ∧ (!s.ctl.loadOpen || off != s.ctl.loading.length) then
    (refuse stInvalid 0, setCtl s { s.ctl with loading := [], loadOpen := false })
  else if off = 0 ∧ seg.length < 32 then (refuse stInvalid (8 + seg.length), s)
  else
    let img := held ++ seg
    let s2 := loadSegment held seg (msgLast r.msg) s
    ({ status := stOk, body := leBytes 4 img.length ++ leBytes 4 s2.ctl.generation.toNat }, s2)

/-- LOAD (R5, R56, R58). -/
def execLoad (via : Via) (s : State) : Host.Outcome State Fault Refusal :=
  .next (serve (isRow 0x20 0) (atOnce loadReq) via s)

/-- Check the staged slot and set its state: the code of the first failing check, 0 when VALID (R59). -/
def validateStaged (s : State) : Nat × State :=
  let code := if s.ctl.loadOpen then 0x0102 else validateCode s.ctl.staged (freeBank s) s
  if code = 0 then (0, setStaged s { s.ctl.staged with state := 2 })
  else
    let s1 := setStaged s { s.ctl.staged with state := 3 }
    (code, raise 0x0D03 [code, s.ctl.generation.toNat] (setCtl s1 { s1.ctl with lastReject := code }))

/-- The VALIDATE request (R59): a format failure answers VERSION, whose detail is 0 (Table 2-3). -/
def validateReq (r : Req) (s : State) : Answer × State :=
  match lengthBad 0 (msgBody r.msg) with
  | some e => (e, s)
  | none =>
    let (code, t) := validateStaged s
    if code = 0 then
      ({ status := stOk, body := leBytes 4 s.ctl.generation.toNat ++ [2, 0] ++ leBytes 2 0 }, t)
    else (if code = 0x0101 then refuse stVersion 0 else refuse stInvalid code, t)

/-- VALIDATE (R59, Table 2-10). -/
def execValidate (via : Via) (s : State) : Host.Outcome State Fault Refusal :=
  .next (serve (isRow 0x20 1) (atOnce validateReq) via s)

/-- The COPY request (R58): the staged slot takes the active slot's objects and banked tables. -/
def copyReq (r : Req) (s : State) : Answer × State :=
  match lengthBad 0 (msgBody r.msg) with
  | some e => (e, s)
  | none =>
    if s.ctl.commit.isSome then (refuse stBusy 1, s)
    else if s.ctl.drain.isSome then (refuse stDraining 0, s)
    else
      let s1 := stagedEdit (setStaged (setFreeBank s (bankOf s s.ctl.epoch)) s.ctl.active)
      let s2 := setCtl s1 { s1.ctl with loading := [], loadOpen := false }
      ({ status := stOk, body := leBytes 4 s2.ctl.generation.toNat }, s2)

/-- PATTERN_COPY (R58). -/
def execPatternCopy (via : Via) (s : State) : Host.Outcome State Fault Refusal :=
  .next (serve (isRow 0x20 4) (atOnce copyReq) via s)

/-- The image of a slot now. The staged slot's tables are those of the free bank, so during a drain they are not those of
its signed image (R45, R61). -/
def imageNow (n : Nat) (s : State) : Bytes :=
  if n = 3 ∧ !s.ctl.bootImage.isEmpty then s.ctl.bootImage
  else
    let x := slotOf s n
    slotImage (if n = 1 ∧ s.ctl.drain.isSome then { x with signature := [] } else x) (slotTables s n)

/-- The READ_IMAGE request (R45): segments of a snapshot taken at offset 0. -/
def readImageReq (r : Req) (s : State) : Answer × State :=
  let body := msgBody r.msg
  match lengthBad 8 body with
  | some e => (e, s)
  | none =>
    let n := (body.headD 0).toNat
    let off := leNat (body.drop 4)
    if 3 < n ∨ (slotOf s n).state = 0 then (refuse stNotFound 0, s)
    else
      let s1 := if off = 0 then setWork s r.who { workOf s r.who with snapshot := some (n, imageNow n s) } else s
      match (workOf s1 r.who).snapshot with
      | none => (refuse stRange 0, s)
      | some (k, w) =>
        if k ≠ n ∨ w.length < off then (refuse stRange 0, s)
        else
          let seg := slice w off (r.limit - 8)
          ({ status := stOk, last := decide (off + seg.length = w.length),
             body := leBytes 4 w.length ++ leBytes 4 off ++ seg }, s1)

/-- READ_IMAGE (R45). -/
def execReadImage (via : Via) (s : State) : Host.Outcome State Fault Refusal :=
  .next (serve (isRow 0x20 5) (atOnce readImageReq) via s)

/-! ### Functions of a change set -/

/-- The functions whose stop ends within 4 µs (Table 2-11, step 4). (DESIGN CHOICE, log entry 17) -/
def fastFn : Fn → Bool
  | .hbmMap => false
  | .telemetry => false
  | .port _ => false
  | .flexe _ => false
  | _ => true

/-- Ports and FlexE groups, which are taken down at step 6. -/
def linkFn : Fn → Bool
  | .port _ => true
  | .flexe _ => true
  | _ => false

/-- The pipelines that a change set stops (Table 2-12). -/
def fnPipelines : Fn → List Nat
  | .pipeline p => [p]
  | .tables g => [4 * g, 4 * g + 1, 4 * g + 2, 4 * g + 3]
  | _ => []

/-! ### COMMIT and REVERT (R60, R66, R71) -/

/-- Accept a commit or a REVERT (Table 2-11, step 1). (DESIGN CHOICE, log entry 18) -/
def commitBegin (revert : Bool) (op : Option Nat) (asker : Asker) (s : State) : State :=
  let x := if revert then s.ctl.previous else s.ctl.staged
  let t := if revert then s.ctl.previous.tables else freeBank s
  let boot := !s.safe.patternActive
  setCtl s { s.ctl with commit := some {
    revert := revert, boot := boot, op := op, asker := asker, begun := false, announced := false,
    fns := changeSet x t s,
    advance := !boot && bankChanged (bankOf s s.ctl.epoch) t (changedObjs s.ctl.active x s),
    oldSlot := s.ctl.active, newSlot := x, newTables := t, liveDone := false, t0 := 0, longest := 0,
    accepted := raw s } }

/-- A long operation that a change set conflicts with: running, queued or suspended (R60, R70). -/
def commitConflict (fns : List Fn) (s : State) : Bool := (unfinished s).any fun r => changeConflicts fns r.2

/-- An operation that a PATTERN_COMMIT in slot n waits for: it conflicts, and it holds or was started earlier (R69 to
R71). -/
def queuedConflict (fns : List Fn) (n : Nat) (o : LongOp) (s : State) : Bool :=
  (unfinished s).any fun r => r.1 != n && (changeConflicts fns r.2 || opsConflict s o r.2) &&
    (opHolds r.2 || decide (r.2.order < o.order))

/-- Queue a PATTERN_COMMIT for a generation (R60, R71). -/
def queueCommit (r : Req) (s : State) : Answer × State :=
  match opCreate 10 r.who [] s.ctl.generation.toNat (oldEpochLeft s) s with
  | none => (refuse stNoSpace 0, s)
  | some (n, _, s1) => ({ status := stOk, body := leBytes 4 0 ++ [0, 1, BitVec.ofNat 8 n, 0] ++ leBytes 8 0 }, s1)

/-- The COMMIT request (R60): an accepted commit answers at step 6 of Table 2-11. -/
def commitReq : Handler := fun r s =>
  let body := msgBody r.msg
  match lengthBad 4 body with
  | some e => (some e, s)
  | none =>
    let later := fun (a : Answer) => if msgWait r.msg then
      (match queueCommit r s with
       | (q, t) => (some q, t)) else (some a, s)
    if s.ctl.staged.state ≠ 2 ∨ leNat body ≠ s.ctl.generation.toNat then (some (refuse stInvalid 0), s)
    else if s.ctl.commit.isSome then (some (refuse stBusy 1), s)
    else if s.ctl.drain.isSome then later (refuse stDraining 0)
    else if commitConflict (changeSet s.ctl.staged (freeBank s) s) s then later (refuse stBusy 2)
    else (none, commitBegin false none { who := r.who, msg := r.msg } s)

/-- COMMIT (R60, R61, R67). -/
def execCommit (via : Via) (s : State) : Host.Outcome State Fault Refusal :=
  .next (serve (isRow 0x20 2) commitReq via s)

/-- The REVERT request (R66). -/
def revertReq : Handler := fun r s =>
  match lengthBad 0 (msgBody r.msg) with
  | some e => (some e, s)
  | none =>
    if s.ctl.previous.state ≠ 2 then (some (refuse stInvalid 0), s)
    else if s.ctl.commit.isSome then (some (refuse stBusy 1), s)
    else if s.ctl.drain.isSome then (some (refuse stDraining 0), s)
    else if commitConflict (changeSet s.ctl.previous s.ctl.previous.tables s) s then (some (refuse stBusy 2), s)
    else (none, commitBegin true none { who := r.who, msg := r.msg } s)

/-- REVERT (R66). -/
def execRevert (via : Via) (s : State) : Host.Outcome State Fault Refusal :=
  .next (serve (isRow 0x20 3) revertReq via s)

/-- PATTERN_COMMIT: the queued operation in slot n performs its commit, once the drain has ended and its
conflicts have cleared (R71). -/
def execPatternCommit (n : Nat) (s : State) : Host.Outcome State Fault Refusal :=
  match tfind s.ctl.ops n with
  | none => .next s
  | some o =>
    if o.kind ≠ 10 ∨ o.state ≠ 1 ∨ s.ctl.commit.isSome ∨ s.ctl.drain.isSome then .next s
    else if queuedConflict (changeSet s.ctl.staged (freeBank s) s) n o s then .next s
    else if o.generation ≠ s.ctl.generation.toNat ∨ s.ctl.staged.state ≠ 2 then .next (opFinish n 6 stInvalid s)
    else
      let s1 := setOp s n { opProgressed s o with state := 2, ran := true }
      .next (commitBegin false (some n) { who := 9, msg := [] } s1)

/-! ### The commit sequence (Table 2-11) -/

/-- The values of the stage objects in a slot's objects. -/
def stageOf (x : Slot) : Tbl Bytes := x.objs.filter fun r => isStageObj r.1

/-- The pipelines of a change set whose hold FIFO holds more than 8,192 descriptors (Table 2-11, step 2). -/
def commitBacklog (c : Commit) (s : State) : Bool := (c.fns.flatMap fnPipelines).any fun p => decide (8192 < holdFifo p s)

/-- The free bank takes the tables that T0 puts in force (R61, R66). -/
def commitTables (c : Commit) (s : State) : State :=
  if c.advance ∨ c.boot then setFreeBank s { c.newTables with stage := stageOf c.newSlot } else s

/-- COMMIT_BACKLOG_READY: every changed pipeline's hold FIFO holds at most 8,192 descriptors; T0 is
announced at least 2 µs ahead (R61). -/
def execCommitBacklogReady (t0 : Nat) (s : State) : Host.Outcome State Fault Refusal :=
  match s.ctl.commit with
  | none => .next s
  | some c =>
    if c.announced ∨ !s.safe.cobblerReady ∨ t0 < raw s + cyc 2000 ∨ commitBacklog c s then .next s
    else .next (setCtl s { s.ctl with commit := some { c with announced := true, t0 := t0 } })

/-- End a commit without effect, with a status (R61, R71, R73). -/
def commitDrop (status detail : Nat) (s : State) : State :=
  match s.ctl.commit with
  | none => s
  | some c =>
    let s1 := setCtl s { s.ctl with commit := none }
    match c.op with
    | some n => opFinish n 6 status s1
    | none => if c.asker.who < 9 then answerTo c.asker.who c.asker.msg (refuse status detail) s1 else s1

/-- COMMIT_BACKLOG_TIMEOUT: the wait of step 2 for a pipeline of the change set reached 2 ms: BUSY, detail 3 (R61). -/
def execCommitBacklogTimeout (s : State) : Host.Outcome State Fault Refusal :=
  match s.ctl.commit with
  | none => .next s
  | some c =>
    if !c.announced ∧ commitBacklog c s ∧ c.accepted + cyc 2000000 ≤ raw s then .next (commitDrop stBusy 3 s) else .next s

/-- The partition sizes in force, in GB, by code. -/
def sizesNow (s : State) : Tbl Nat := (List.range 7).map fun k => (k, cfgN s 0x6000 k 0)

/-- A drain begins at T0: the PATTERN_COMMITs that wait see its packets (R71). -/
def opsSeeDrain (n : Nat) (s : State) : State :=
  setCtl s { s.ctl with ops := s.ctl.ops.map fun r =>
    (r.1, if opAwaitsDrain r.2 then { r.2 with total := r.2.total + n } else r.2) }

/-- T0: the Clickers pin the new epoch, and every function of the change set but ports and FlexE groups enters its stop
(Table 2-11, step 3; R62, R64). -/
def commitStop (c : Commit) (s : State) : State :=
  let old := s.ctl.epoch
  let stops := c.fns.filter fun f => !linkFn f
  let oldSlot := { s.ctl.active with tables := bankOf s old }
  let s1 := setCtl s { s.ctl with
    commit := some { c with begun := true, oldSlot := oldSlot },
    epoch := if c.advance then (old + 1) % 4 else old,
    drain := if c.advance then some { old := old, since := raw s } else s.ctl.drain,
    stopped := s.ctl.stopped ++ stops.map fun f => (f, raw s) }
  let s2 := if c.boot then setBank s1 old (bankOf s1 (old + 1)) else s1
  let s3 := if stops.contains .hbmMap then setHbm s2 { s2.hbm with sizes := sizesNow s2 } else s2
  let s4 := if c.advance then opsSeeDrain (tget 0 s.ctl.epochCount old) s3 else s3
  stops.foldl (fun t f => fnStop f t) s4

/-- COMMIT_STOP_INSTANT: T0. The tables that it puts in force stand in the free bank by then (R61, R66). -/
def execCommitStopInstant (s : State) : Host.Outcome State Fault Refusal :=
  match s.ctl.commit with
  | none => .next s
  | some c =>
    if !c.announced ∨ c.begun ∨ raw s < c.t0 then .next s
    else .next (commitStop c (commitTables c s))

/-- Give an object of the active slot its value in the new slot, with the effect of a write. -/
def commitObj (c : Commit) (a : Nat) (s : State) : State :=
  let old := objValue a s
  let v := (tfind c.newSlot.objs a).getD (objDflt s.safe.boardMgmt a)
  let s1 := setCtl s { s.ctl with active := { s.ctl.active with objs := tput s.ctl.active.objs a v } }
  if isStop a then s1 else writeEffect a old v s1

/-- A stopped function takes its new STOP values of a commit and restarts (Table 2-11, step 4).
(DESIGN CHOICE, log entry 17) -/
def fnTake (c : Commit) (f : Fn) (s : State) : State :=
  let as := (changedObjs c.oldSlot c.newSlot s).filter fun a => isStop a && (fnsOf a s).contains f
  fnRestart f (as.foldl (fun t a => commitObj c a t) s)

/-- Apply the LIVE changes of a commit (Table 2-11, step 5). -/
def commitLive (s : State) : State :=
  match s.ctl.commit with
  | none => s
  | some c =>
    if c.liveDone then s
    else
      let as := (changedObjs c.oldSlot c.newSlot s).filter fun a => !isStop a
      let s1 := as.foldl (fun t a => commitObj c a t) s
      setCtl s1 { s1.ctl with commit := some { c with liveDone := true } }

/-- Some fast function of the change set is still in its stop. -/
def fastLeft (s : State) : Bool := s.ctl.stopped.any fun x => fastFn x.1

/-- LASTING_RESTART: a stopped function takes its new STOP values and restarts; once every fast
function has restarted the LIVE changes are applied (Table 2-11, steps 4 and 5). A function that
ISOLATE stopped restarts with its control state rewritten (R470). -/
def execLastingRestart (f : Fn) (s : State) : Host.Outcome State Fault Refusal :=
  match s.ctl.stopped.find? fun x => x.1 == f with
  | none => .next s
  | some (_, since) =>
    let s1 := setCtl s { s.ctl with stopped := s.ctl.stopped.filter fun x => x.1 != f }
    match s.ctl.commit with
    | some c =>
      if c.begun ∧ c.fns.contains f then
        let ns := (raw s - since) * 5 / 4
        let s4 := fnTake c f (setCtl s1 { s1.ctl with commit := some { c with longest := max c.longest ns } })
        .next (if fastLeft s4 then s4 else commitLive s4)
      else .next (fnRestart f s1)
    | none => .next (fnRestart f s1)

/-- Rotate the slots at step 6 (Table 2-11, R66). (DESIGN CHOICE, log entry 18) -/
def rotateSlots (c : Commit) (s : State) : State :=
  let new_ := { c.newSlot with tables := emptyBank }
  if c.revert then
    setCtl s { s.ctl with
      active := new_, previous := c.oldSlot,
      staged := { s.ctl.staged with state := 1, signature := if c.advance then [] else s.ctl.staged.signature } }
  else
    setCtl s { s.ctl with active := new_, previous := if c.boot then emptySlot else c.oldSlot, staged := new_, generation := 0 }

/-- Prepare the flow partitions unless this boot has prepared them (R173). -/
def prepareOnce (s : State) : State := if s.flow.nr = 0 then prepareFlows s else s

/-- After the first commit of a pattern, at boot or after a bad boot pattern (R67, R446): the flow partitions are
prepared where the boot has not done so, pattern_active is set and the outputs start. A commit writes every section anew, so no content stays
damaged. (DESIGN CHOICE, log entry 26) -/
def bootOutputs (boot : Bool) (s : State) : State :=
  let s1 := setSafe s { s.safe with damaged := [] }
  if boot then startOutputs (prepareOnce (setSafe s1 { s1.safe with patternActive := true })) else s1

/-- Step 6 and 7 of Table 2-11. Links and groups of the change set go down, the slots rotate, the answer and event
0x0D01 or 0x0D04 are sent and writes are accepted again; then ports and groups retrain. (DESIGN CHOICE, log entry 18) -/
def commitFinish (c0 : Commit) (s : State) : State :=
  let s0 := commitLive s
  let links := c0.fns.filter linkFn
  let s1 := links.foldl (fun t f => fnStop f t) s0
  let s2 := rotateSlots c0 s1
  let s3 := recrcActive (setCtl s2 { s2.ctl with commit := none, liveEdits := 0, lastStop := c0.longest })
  let v := s3.ctl.active.version.toNat
  let s4 := links.foldl (fun t f => fnRestart f t) s3
  let ans : Answer := { status := stOk, body := leBytes 4 v ++ [BitVec.ofNat 8 s.ctl.epoch, 0, 0, 0] ++ leBytes 8 c0.longest }
  let s5 := match c0.op with
    | some n => opFinish n 5 stOk s4
    | none => if c0.asker.who < 9 then answerTo c0.asker.who c0.asker.msg ans s4 else s4
  let s6 := if c0.revert then raise 0x0D04 [v, s.ctl.epoch] s5 else raise 0x0D01 [v, s.ctl.epoch, c0.longest] s5
  bootOutputs c0.boot s6

/-- COMMIT_ANSWER: step 6, once every fast function has restarted. -/
def execCommitAnswer (s : State) : Host.Outcome State Fault Refusal :=
  match s.ctl.commit with
  | none => .next s
  | some c0 => if !c0.begun ∨ fastLeft s ∨ !s.safe.cobblerReady then .next s else .next (commitFinish c0 s)

/-! ### Drain (R65) -/

/-- Zero the stages of a bank whose profile or units the staged pattern has changed (R90).
(DESIGN CHOICE, log entry 108) -/
def zeroChanged (s : State) (b : Banked) : Banked :=
  (List.range 16).foldl (fun t i =>
    let differs := fun (index : Nat) => stagedB s (oa index (i / 4) (i % 4)) != stageB b (oa index (i / 4) (i % 4))
    if differs 0x3010 || differs 0x3011 then zeroStage (i / 4) (i % 4) t else t) b

/-- The drain ends: the old bank is free and takes the active tables as the staged slot's (R65), but for the stages whose
profile or units the staged pattern changes (R90). (DESIGN CHOICE, log entry 18) -/
def drainEnd (s : State) : State :=
  match s.ctl.drain with
  | none => s
  | some d =>
    let t := setBank s d.old (zeroChanged s (bankOf s s.ctl.epoch))
    recrcStaged (setCtl t { t.ctl with drain := none })

/-- EPOCH_DRAIN_END: no packet of the old epoch is left (R65). (DESIGN CHOICE, log entry 117) -/
def execEpochDrainEnd (s : State) : Host.Outcome State Fault Refusal :=
  match s.ctl.drain with
  | none => .next s
  | some d =>
    if tget 0 s.ctl.epochCount d.old = 0 then
      .next (raise 0x0D02 [d.old, (raw s - d.since) / 800] (drainEnd s))
    else .next s

/-- EPOCH_DRAIN_TIMEOUT: the packets of the old epoch still in the device are dropped (R65). -/
def execEpochDrainTimeout (s : State) : Host.Outcome State Fault Refusal :=
  match s.ctl.drain with
  | none => .next s
  | some d =>
    if d.since + cyc (cfgN s 0x1105 0 0) ≤ raw s then
      let s1 := raise 0x0D07 [d.old, tget 0 s.ctl.epochCount d.old] (expireEpoch d.old s)
      .next (raise 0x0D02 [d.old, (raw s - d.since) / 800] (drainEnd s1))
    else .next s

end Sys2Proof.Machine
end

