-- ==== Sys2Proof/Machine/Dma.lean ====
section
/-! DEFINITION. DMA channels (13.6). -/
namespace Sys2Proof.Machine

/-! ### Descriptors (Table 13-10) -/

def ddSrc (d : BitVec 512) : Nat := bf d 511 448
def ddDst (d : BitVec 512) : Nat := bf d 447 384
def ddLen (d : BitVec 512) : Nat := bf d 383 352
def ddSrcSpace (d : BitVec 512) : Nat := bf d 351 348
def ddDstSpace (d : BitVec 512) : Nat := bf d 347 344
def ddSrcTarget (d : BitVec 512) : Nat := bf d 343 336
def ddDstTarget (d : BitVec 512) : Nat := bf d 335 328
def ddFence (d : BitVec 512) : Bool := bit d 327
def ddNotify (d : BitVec 512) : Nat := bf d 326 324
def ddTag (d : BitVec 512) : Nat := bf d 319 288

/-- A descriptor that no channel can take: no bytes, or a space or notification that the table does not list.
(DESIGN CHOICE, log entry 81) -/
def ddMalformed (d : BitVec 512) : Bool := ddLen d == 0 || decide (3 < ddSrcSpace d) || decide (3 < ddDstSpace d) || decide (3 < ddNotify d)

/-- Descriptors of a channel in flight, oldest first. -/
def dmaFlights (s : State) (c : Nat) : List DmaFlight := tget [] s.host.dma c
def setFlight (s : State) (c : Nat) (l : List DmaFlight) : State := setHost s { s.host with dma := tset [] s.host.dma c l }

/-- A channel belongs to the host (R398). -/
def dmaHost (s : State) (c : Nat) : Bool := decide (c < cfgN s 0x6830 0 0) && decide (c < 32)

/-! ### Spaces (R392) -/

/-- The range lies in the HBM host window, or for a read in the telemetry partition. (DESIGN CHOICE, log entry 81) -/
def hbmAllowed (s : State) (a n : Nat) (write : Bool) : Bool :=
  let ok := fun (x : Nat) => partOf s x == 6 || (!write && partOf s x == 4)
  decide (a + n ≤ hbmBytes) && ok a && ok (a + n - 1) &&
    (List.range ((a + n - 1) / gb - a / gb)).all fun i => ok ((a / gb + i + 1) * gb)

/-- Bytes of entries first to first + n - 1 of a banked target in the free bank. -/
def freeEntry (s : State) (t i : Nat) : Nat :=
  let b := freeBank s
  match t with
  | 0x20 => (tget (0 : BitVec 1024) b.edits i).toNat
  | 0x21 => (tget (0 : BitVec 576) b.headers i).toNat
  | _ => (tget (0 : BitVec 2176) b.rules (ruleKey ((t - 0x10) / 4) (t % 4) i)).toNat

/-- Write an entry of a banked target in the free bank. -/
def putFreeEntry (t i v : Nat) (s : State) : State :=
  let b := freeBank s
  setFreeBank s (match t with
    | 0x20 => { b with edits := tset 0 b.edits i (BitVec.ofNat 1024 v) }
    | 0x21 => { b with headers := tset 0 b.headers i (BitVec.ofNat 576 v) }
    | _ => { b with rules := tset 0 b.rules (ruleKey ((t - 0x10) / 4) (t % 4) i) (BitVec.ofNat 2176 v) })

/-- Bytes of an entry of a banked target, and its entries, as the staged pattern shapes them. -/
def freeShape (s : State) (t : Nat) : Nat × Nat :=
  if t = 0x20 ∨ t = 0x21 then auditShape s t
  else
    let g := (t - 0x10) / 4
    let n := fun (index : Nat) => leNat (stagedB s (oa index g (t % 4)))
    let b : Banked := { freeBank s with stage := [(oa 0x3010 g (t % 4), leBytes 4 (n 0x3010)), (oa 0x3011 g (t % 4), leBytes 4 (n 0x3011))] }
    (profBytes (stageN b 0x3010 g (t % 4)), stageEntries b g (t % 4))

/-- Write bytes at an offset of the free bank's image of a banked target. -/
def writeFreeImage (t off : Nat) (data : Bytes) (s : State) : State :=
  let e := (freeShape s t).1
  let first := off / e
  let n := (off + data.length - 1) / e + 1 - first
  let old := (List.range n).flatMap fun i => leBytes e (freeEntry s t (first + i))
  let new_ := patch old (off - first * e) data
  (List.range n).foldl (fun z i => putFreeEntry t (first + i) (leNat (slice new_ (i * e) e)) z) s

/-- Bytes of a target's image in the active bank. -/
def readImage (s : State) (t off n : Nat) : Bytes :=
  let e := (auditShape s t).1
  slice (auditBytes s t (off / e) ((off + n - 1) / e + 1 - off / e)) (off % e) n

/-- What a descriptor reads: the error, or the bytes (R392, R393). host: what host memory holds there.
(DESIGN CHOICE, log entry 81) -/
def dmaRead (d : BitVec 512) (host : Bytes) (s : State) : Nat ⊕ Bytes :=
  let n := ddLen d
  let a := ddSrc d
  match ddSrcSpace d with
  | 0 => if host.length < n then .inl 2 else .inr (host.take n)
  | 1 =>
    if !hbmAllowed s a n false then .inl 7
    else if rangePoisoned s a n then .inl 5 else .inr (hbmRead s a n)
  | 2 =>
    let x := auditShape s (ddSrcTarget d)
    if !auditTargets.contains (ddSrcTarget d) || decide (x.1 * x.2 < a + n) then .inl 7
    else .inr (readImage s (ddSrcTarget d) a n)
  | _ =>
    let img := slotImage s.ctl.staged (freeBank s)
    if img.length < a + n then .inl 7 else .inr (slice img a n)

/-- The LOAD segment that a write to the staged image is (R392, R58). The segment that completes the length of the
image's header, and of its signature if it is signed, is the last one. (DESIGN CHOICE, log entry 81) -/
def dmaLoad (off : Nat) (data : Bytes) (s : State) : Nat × State :=
  let held := if off = 0 then [] else s.ctl.loading
  if s.ctl.commit.isSome || (s.ctl.drain.isSome && Config.carriesTables held data) then (7, s)
  else if off ≠ 0 ∧ (!s.ctl.loadOpen || off != s.ctl.loading.length) then
    (7, setCtl s { s.ctl with loading := [], loadOpen := false })
  else
    let img := held ++ data
    let h := leNat (img.take 32)
    let whole := decide (32 ≤ img.length) && decide (fld h 95 64 + 96 * fld h 128 128 ≤ img.length)
    (0, loadSegment held data whole s)

/-- What a descriptor writes: the error, and the state (R392). (DESIGN CHOICE, log entry 81) -/
def dmaWrite (d : BitVec 512) (data : Bytes) (s : State) : Nat × State :=
  let a := ddDst d
  match ddDstSpace d with
  | 0 => (0, hostWrite s a data)
  | 1 => if hbmAllowed s a data.length true then (0, hbmWrite s a data) else (7, s)
  | 2 =>
    let t := ddDstTarget d
    let x := freeShape s t
    if !auditTargets.contains t || !auditBanked t || s.ctl.drain.isSome || s.ctl.commit.isSome ||
      decide (x.1 * x.2 < a + data.length) then (7, s)
    else (0, stagedEdit (writeFreeImage t a data s))
  | _ => dmaLoad a data s

/-- A channel can take its next descriptor (R391, R394, R395). -/
def dmaReady (s : State) (c : Nat) : Bool :=
  let r := ring s (dmaKey c)
  dmaHost s c && ringLive s (dmaKey c) && !s.safe.safeStop && decide ((dmaFlights s c).length < ringFill r) &&
    (tfind s.host.dmaNote c).isNone

/-- Stop a channel with an error at a descriptor (R396). -/
def dmaStop (c err : Nat) (idx : BitVec 32) (s : State) : State :=
  ringFail (dmaKey c) err idx s

/-- DMA_DESCRIPTOR: channel c takes its next descriptor, which reads as desc, and moves its bytes (R391 to R394).
host: what host memory holds at its source; fail: 2 the descriptor or the source could not be read, 3 a host write
failed. -/
def execDmaDescriptor (c : Nat) (desc host : Bytes) (fail : Nat) (s : State) : Host.Outcome State Fault Refusal :=
  let d : BitVec 512 := BitVec.ofNat 512 (leNat (desc.take 64))
  let idx := (ring s (dmaKey c)).cons + BitVec.ofNat 32 (dmaFlights s c).length
  if !dmaReady s c || (ddFence d && !(dmaFlights s c).isEmpty) then .next s
  else if fail = 2 ∨ desc.length < 64 then .next (dmaStop c 2 idx s)
  else if ddMalformed d then .next (dmaStop c 1 idx s)
  else match dmaRead d host s with
    | .inl e => .next (dmaStop c e idx s)
    | .inr data =>
      if fail = 3 ∧ ddDstSpace d = 0 then .next (dmaStop c 3 idx s)
      else
        let (e, s1) := dmaWrite d data s
        if e ≠ 0 then .next (dmaStop c e idx s1)
        else
          .next (countN 0x6831 c 1 data.length (setFlight s1 c (dmaFlights s1 c ++
            [{ index := idx, notify := ddNotify d, tag := BitVec.ofNat 32 (ddTag d), desc := d }])))

/-- The DMA_NOTE item of a descriptor (Table 7-5, R395). (DESIGN CHOICE, log entry 81) -/
def dmaItem (s : State) (c idx tag : Nat) : Item :=
  { newItem s 13 6 0 with data := c * 2 ^ 32 + idx, desc := idx, bytes := leBytes 4 tag }

/-- Hand over DMA_NOTE items of a channel, oldest first, until one is refused: it and those behind it wait at the channel
(R224, R395). -/
def dmaOffer (c : Nat) : List (Nat × Nat) → State → State
  | [], s => setHost s { s.host with dmaNote := tdel s.host.dmaNote c }
  | n :: rest, s =>
    let r := submitItem (dmaItem s c n.1 n.2) s
    if r.1 then dmaOffer c rest r.2 else setHost r.2 { r.2.host with dmaNote := tput r.2.host.dmaNote c (n :: rest) }

/-- A DMA_NOTE item joins those that wait at its channel. -/
def dmaNotify (c idx tag : Nat) (s : State) : State := dmaOffer c (tget [] s.host.dmaNote c ++ [(idx, tag)]) s

/-- A channel whose enable is clear, or that a safe stop stops, stops when nothing is in flight (R396).
(DESIGN CHOICE, log entry 81) -/
def dmaSettle (c : Nat) (s : State) : State :=
  let r := ring s (dmaKey c)
  if (dmaFlights s c).isEmpty && (!r.enable || s.safe.safeStop) then setRing s (dmaKey c) { r with stopped := true } else s

/-- DMA_COMPLETE: the oldest descriptor in flight on channel c has completed: CONS advances and notify is acted on
(R395). With nothing in flight, a DMA_NOTE item that waits at the channel is offered again (R224). -/
def execDmaComplete (c : Nat) (s : State) : Host.Outcome State Fault Refusal :=
  match dmaFlights s c with
  | [] => match tget [] s.host.dmaNote c with
    | [] => .next s
    | l => .next (dmaOffer c l s)
  | f :: rest =>
    let s1 := dmaSettle c (ringConsume (dmaKey c) 1 (setFlight s c rest))
    match f.notify with
    | 1 => .next (dmaNotify c f.index.toNat f.tag.toNat s1)
    | 2 => .next (validateStaged s1).2
    | 3 => .next (takeSnapshot true f.tag.toNat s1)
    | _ => .next s1

/-! ### Power (R397, R458) -/

/-- Some byte of a range lies on a stack. -/
def onStack (s : State) (st a n : Nat) : Bool :=
  (List.range (min ((n + 127) / 64) 32768)).any fun i => stackOf (pcOf s (a + 64 * i)) == st

/-- The pipelines that hold a copy of an audit target. -/
def targetPipelines (t : Nat) : List Nat :=
  if 0x10 ≤ t ∧ t < 0x20 then (List.range 4).map (4 * ((t - 0x10) / 4) + ·) else List.range 16

/-- A range of a descriptor in flight lies in a power domain. -/
def rangeInDomain (s : State) (d space a n t : Nat) : Bool :=
  if space = 1 then decide (93 ≤ d) && decide (d < 97) && onStack s (d - 93) a n
  else if space = 2 then (targetPipelines t).contains d
  else false

/-- Channels with a descriptor in flight that holds a domain (R397). -/
def dmaHolds (d : Nat) (s : State) : List Nat :=
  (List.range 32).filter fun c => (dmaFlights s c).any fun f =>
    rangeInDomain s d (ddSrcSpace f.desc) (ddSrc f.desc) (ddLen f.desc) (ddSrcTarget f.desc) ||
      rangeInDomain s d (ddDstSpace f.desc) (ddDst f.desc) (ddLen f.desc) (ddDstTarget f.desc)

/-- Abort a channel for a power-down: error 6 (R397). -/
def dmaAbort (c : Nat) (s : State) : State :=
  let idx := ((dmaFlights s c).head?.map (·.index)).getD (ring s (dmaKey c)).cons
  dmaStop c 6 idx (setFlight s c [])

end Sys2Proof.Machine
end

