-- ==== Sys2Proof/Machine/Faultman.lean ====
section
/-! DEFINITION. The fault manager (16.4 to 16.7): heartbeat, clock and environment monitors, scrub,
recheck, die-to-die links, reactions, safe stop, fuses and the Cobbler's own faults. -/
namespace Sys2Proof.Machine

/-! ### Class 8: control state (R463, R470) -/

/-- Functions of class 8 by key: 0 Clicker p, 1 editor p, 2 TM p, 3 flow slice i, 4 miss engine i,
5 switch core, 6 replication engine i; key = 16 × kind + index. The number that an event record names a
function by is not stated. (DESIGN CHOICE, log entry 23) -/
opaque Config.functionCode : Nat → Nat

/-- The lasting function of a class-8 function (Table 2-12, R470). -/
def classFn (key : Nat) : Fn :=
  match key / 16 with
  | 0 => .pipeline (key % 16)
  | 1 => .pipeline (key % 16)
  | 2 => .tm (key % 16)
  | 3 => .flowEngine
  | 4 => .flowEngine
  | _ => .switchCore

/-- The class-8 functions. -/
def classKeys : List Nat := (List.range 80) ++ [80] ++ (List.range 16).map fun i => 96 + i

/-- The power domain of a class-8 function that has one (Table 16-4). -/
def classDomain (key : Nat) : Option Nat :=
  match key / 16 with
  | 0 => some (key % 16)
  | 1 => some (key % 16)
  | 2 => some (key % 16)
  | 3 => some (20 + key % 16 / 2)
  | 4 => some (20 + key % 16 / 2)
  | _ => none

/-- The function is awake. -/
def classAwake (s : State) (key : Nat) : Bool :=
  match classDomain key with
  | some d => tget 0 s.safe.domains d == 0
  | none => true

/-- ISOLATE: the function enters a lasting stop; the packets it drops are counted (R470).
(DESIGN CHOICE, log entry 25) -/
def isolate (f : Fn) (drops : Nat) (s : State) : State :=
  let s1 := countN 0x1309 0 0 drops s
  if fnStopped s1 f then s1
  else fnStop f (setCtl s1 { s1.ctl with stopped := s1.ctl.stopped ++ [(f, raw s1)] })

/-- Detect a fault of class 8 or 13 in a function, with ISOLATE when that is the class's reaction. -/
def detectIn (k code : Nat) (ps : List Nat) (f : Fn) (drops : Nat) (s : State) : State :=
  let s1 := detect k code ps s
  if reaction s k = 2 then isolate f drops s1 else s1

/-- HEARTBEAT: tokens that came back are taken in, control-register parity errors that stages found
are reported (function, register group, packets dropped), and every 4 µs a token is issued to each awake
function of class 8 (R463). -/
def execHeartbeat (back : List Nat) (parity : List (Nat × Nat × Nat)) (s : State) : Host.Outcome State Fault Refusal :=
  if !cfgOn s 0x1304 0 0 then .next s
  else
    let t1 := s.safe.tokens.filter fun r => !back.contains r.1
    let t2 := if raw s % cyc 4000 = 0 then
        (classKeys.filter fun k => classAwake s k && (tfind t1 k).isNone).foldl (fun t k => tput t k (raw s)) t1
      else t1
    .next (parity.foldl (fun t p => detectIn 8 0x0E12 [Config.functionCode p.1, 1, p.2.1] (classFn p.1) p.2.2 t)
      (setSafe s { s.safe with tokens := t2 }))

/-- HEARTBEAT_TIMEOUT: the token of a function has not returned 46 µs after its issue (R463). The event's
register group is free: a stall names none. (DESIGN CHOICE, log entry 23) -/
def execHeartbeatTimeout (key : Nat) (s : State) : Host.Outcome State Fault Refusal :=
  match tfind s.safe.tokens key with
  | none => .next s
  | some t =>
    if t + cyc 46000 ≤ raw s then
      let (g, s1) := fresh 32 s
      .next (detectIn 8 0x0E12 [Config.functionCode key, 2, g.toNat] (classFn key) 0
        (setSafe s1 { s1.safe with tokens := tdel s1.safe.tokens key }))
    else .next s

/-! ### Clocks (R464, R468) -/

/-- CLOCK_FAULT: clock 0 REFCLK to 5 SCLK; cause 1 loss, 2 frequency, 3 loss of lock (R464). While REFCLK
is lost the records wait (R468). TCLK comes from the root PLL (Table 1-4), so with the root PLL or TCLK lost
no TCLK cycle passes until a reset (R23). -/
def execClockFault (clock cause : Nat) (s : State) : Host.Outcome State Fault Refusal :=
  if !s.safe.clocks then .next s
  else
    let s1 := if clock = 0 ∧ cause = 1 then setSafe s { s.safe with refclkLost := true } else s
    let s2 := if (clock = 1 ∨ clock = 4) ∧ cause = 1 then setSafe s1 { s1.safe with tclkLost := true } else s1
    .next (detect 9 0x0E10 [clock, cause] s2)

/-- REFCLK_RETURN: the records that waited are written (R468). -/
def execRefclkReturn (s : State) : Host.Outcome State Fault Refusal :=
  if !s.safe.refclkLost then .next s
  else
    let s1 : State := setSafe { s with host := { s.host with evWait := [] } } { s.safe with refclkLost := false }
    .next (s.host.evWait.foldl (fun t e => putEvent e.1 e.2.1 e.2.2.1 e.2.2.2 t) s1)

/-! ### Supplies and temperatures (R465, R475) -/

/-- Nominal voltages in µV and recommended ranges ± 3 % (Table 17-1). -/
def railNominal : List Int := [750000, 750000, 750000, 1200000, 1100000, 400000, 1800000, 750000, 1800000]

/-- A sample lies beyond the limit of a condition: kind 1 supply (µV), 2 sensor (°C); level 1 warning,
2 critical. -/
def envBeyondLimit (s : State) (kind n level : Nat) (v : Int) : Bool :=
  if kind = 1 then
    let nom := railNominal.getD n 0
    let m := nom * (if level = 1 then 3 else 6) / 100
    decide (v < nom - m) || decide (nom + m < v)
  else decide (cfgI s (if level = 1 then 0x1305 else 0x1306) 0 0 ≤ v)

/-- A sample lies within the limit less 2 °C or 1 % of nominal (R465). -/
def envWithinLimit (s : State) (kind n level : Nat) (v : Int) : Bool :=
  if kind = 1 then
    let nom := railNominal.getD n 0
    let m := nom * (if level = 1 then 2 else 5) / 100
    decide (nom - m ≤ v) && decide (v ≤ nom + m)
  else decide (v ≤ cfgI s (if level = 1 then 0x1305 else 0x1306) 0 0 - 2)

/-- One condition takes a sample: it sets after two samples beyond its limit in a row and clears after
100 within the clearing limit (R465). (DESIGN CHOICE, log entry 104) -/
def envTake (kind n level : Nat) (v : Int) (s : State) : State :=
  let key := (kind * 256 + n) * 4 + level
  let on := s.safe.env.contains (kind, n, level)
  let b := if envBeyondLimit s kind n level v then tget 0 s.safe.envBeyond key + 1 else 0
  let w := if envWithinLimit s kind n level v then tget 0 s.safe.envWithin key + 1 else 0
  let s1 := setSafe s { s.safe with
    envBeyond := tset 0 s.safe.envBeyond key (min b 2), envWithin := tset 0 s.safe.envWithin key (min w 100) }
  let shown := unsigned32 (if kind = 1 then v / 1000 else v)
  if !on && decide (2 ≤ b) then
    detect (if level = 1 then 10 else 11) 0x0E11 [kind, n, shown, level, 1]
      (setSafe s1 { s1.safe with env := s1.safe.env ++ [(kind, n, level)] })
  else if on && decide (100 ≤ w) then
    raise 0x0E11 [kind, n, shown, level, 0]
      (setSafe s1 { s1.safe with env := s1.safe.env.filter fun e => e != (kind, n, level) }) true
  else s1

/-- ENV_SAMPLE: one sample of rail n in µV (kind 1) or of sensor n in °C (kind 2) (R465). -/
def execEnvSample (kind n : Nat) (v : Int) (s : State) : Host.Outcome State Fault Refusal :=
  if !s.safe.powered ∨ ¬ ((kind = 1 ∧ n < 9) ∨ (kind = 2 ∧ n < 28)) then .next s
  else
    let s1 := if kind = 2 then setSafe s { s.safe with temps := tset 0 s.safe.temps n v } else s
    .next (reviewGuarantee (envTake kind n 2 v (envTake kind n 1 v s1)))

/-! ### Scrub, recheck and die-to-die links (R15, R466, R467) -/

/-- The line that occupies a unit of slice n: its own, or the one of the verified form beside it (R147). -/
def lineOver (s : State) (n u : Nat) : Option Nat :=
  let x := 131072 * n + u
  if (lineAt s x).isSome then some x
  else if u % 2 = 1 ∧ ((lineAt s (x - 1)).map (·.wide)).getD false then some (x - 1) else none

/-- An uncorrectable word in a memory: in a unit that holds a hot line the line is lost (R162), else it is reported as such.
-/
def wordLost (mem a : Nat) (s : State) : State :=
  match if mem < 16 ∧ a < 131072 then lineOver s mem a else none with
  | some x => loseLine mem x true s
  | none => detect 2 0x0E13 [mem, a, 1] s

/-- Corrected words of a scrub pass by bank of slice n. -/
def bankHits (errs : List (Nat × Bool)) (bank : Nat) : Nat :=
  (errs.filter fun e => !e.2 && decide (e.1 < 131072) && lineBank e.1 == bank).length

/-- SRAM_SCRUB: one pass over an on-chip memory found these words in error: address, uncorrectable (R466). A correctable
word is masked, written back and counted; memories 0 to 15 are the flow slices, by unit of their line storage, whose
corrected errors count per bank (R141). -/
def execSramScrub (mem : Nat) (errs : List (Nat × Bool)) (s : State) : Host.Outcome State Fault Refusal :=
  let s1 := (errs.filter (·.2)).foldl (fun t e => wordLost mem e.1 t) s
  if mem < 16 then .next ((List.range 16).foldl (fun t b => sliceBankHits mem b (bankHits errs b) t) s1)
  else .next ((errs.filter fun e => !e.2).foldl (fun t _ => noteFault 1 t) s1)

/-- PATTERN_RECHECK: the sections of the active pattern found damaged: section, and the function whose
working copy it is, none for the pattern store's own copy (R466, R470). -/
def execPatternRecheck (bad : List (Nat × Option Fn)) (s : State) : Host.Outcome State Fault Refusal :=
  if !s.safe.cobblerReady then .next s
  else .next (bad.foldl (fun t b => match b.2 with
    | some f => detectIn 13 0x0D06 [0, b.1] f 0 t
    | none =>
      let t1 := setSafe t { t.safe with damaged := if t.safe.damaged.contains (0, b.1) then t.safe.damaged
        else t.safe.damaged ++ [(0, b.1)] }
      detect 13 0x0D06 [0, b.1] t1) s)

/-- D2D_CRC_ERROR: a word on a die-to-die link has a CRC error; again: it is a replay of the word that
failed before. The eighth failed replay in a row is a fault of class 16 (R15, R467). -/
def execD2dCrcError (link : Nat) (again : Bool) (s : State) : Host.Outcome State Fault Refusal :=
  let row := if again then tget 0 s.safe.replayRow link + 1 else 0
  let l := recent s (tget [] s.safe.replays link) ++ [raw s]
  let s1 := noteFault 4 (setSafe s { s.safe with
    replays := tput s.safe.replays link l, replayRow := tset 0 s.safe.replayRow link row })
  let (due, _, s2) := if 1000 < l.length then limit 0x0E15 link s1 else (false, 0, s1)
  let s3 := if due then react 4 (raise 0x0E15 [link, 1, l.length] s2 true) else s2
  .next (if row = 8 then detect 16 0x0E15 [link, 2, l.length] s3 else s3)

/-! ### Reports and reactions (R461, R468 to R472) -/

/-- The events of a class (Table 16-5). (DESIGN CHOICE, log entry 22) -/
def classEvents (k : Nat) : List Nat :=
  match k with
  | 2 => [0x0E13, 0x0505, 0x0709, 0x0804]
  | 3 => [0x0902]
  | 4 => [0x0E15]
  | 5 => [0x0601, 0x0602, 0x0603]
  | 6 => [0x0E14]
  | 7 => [0x0503, 0x0504, 0x0705, 0x0706]
  | 8 => [0x0E12]
  | 9 => [0x0E10]
  | 10 => [0x0E11, 0x0907]
  | 11 => [0x0E11]
  | 12 => [0x0404]
  | 13 => [0x0D06]
  | 14 => [0x0101]
  | 15 => [0x0903]
  | 16 => [0x0E15]
  | _ => []

/-- A hot line is lost at a read by another request than a lookup: of the record and slice that event 0x0505 names, with
its deltas readable when the third parameter is not 0 (R162). -/
def recordLost (ps : List Nat) (s : State) : State :=
  match primaryOf s (ps.getD 1 0) with
  | some x => if x / 131072 = ps.headD 0 then loseLine (ps.headD 0) x (ps.getD 2 0 != 0) s else s
  | none => s

/-- FAULT_DETECTED: the mechanism of class k observes a fault, with its class's event and parameters; a
fault of class 8 or 13 names its function and the packets that its isolation drops (R461, R468 to R470). With event
0x0505 a hot line is lost. -/
def execFaultDetected (k code : Nat) (ps : List Nat) (f : Option Fn) (drops : Nat) (s : State) :
    Host.Outcome State Fault Refusal :=
  if k = 1 then .next (noteFault 1 s)
  else if k = 2 ∧ code = 0x0505 then .next (recordLost ps s)
  else if (classEvents k).contains code then
    match f with
    | some g => if k = 8 ∨ k = 13 then .next (detectIn k code ps g drops s) else .next (detect k code ps s)
    | none => .next (detect k code ps s)
  else .next s

/-- FAULT_N_PULSE_END: the 1 µs pulse of LOG ends (R469). -/
def execFaultNPulseEnd (s : State) : Host.Outcome State Fault Refusal :=
  .next (setSafe s { s.safe with pulse := false })

/-- FAULT_ACK (R469). -/
def execFaultAck (v : BitVec 16) (s : State) : Host.Outcome State Fault Refusal := .next (faultAck v.toNat s)

/-- SAFE_STOP_INPUT: SAFE_STOP_N is held low from outside for ns nanoseconds: from 100 ns the device
stops with cause 17, below 10 ns never, and between nothing is promised (R472). (DESIGN CHOICE, log entry 100) -/
def execSafeStopInput (ns : Nat) (s : State) : Host.Outcome State Fault Refusal :=
  if ns < 10 then .next s
  else if 100 ≤ ns then .next (safeStop 17 s)
  else
    let (b, s1) := fresh 1 s
    .next (if b = 1 then safeStop 17 s1 else s1)

/-! ### Fuses (R452, R453) -/

/-- ROLLBACK_ADVANCE: a write of sf.rollback.advance, refused with RANGE outside the count to the running
slot's security version (R452). -/
def execRollbackAdvance (v : Nat) (s : State) : Host.Outcome State Fault Refusal :=
  if rollbackAccepts v s then .next (rollbackAdvance v s) else .next s

/-- OWNER_FUSE: a write of 48 bytes to sf.owner.fuse (R453). -/
def execOwnerFuse (h : Bytes) (s : State) : Host.Outcome State Fault Refusal :=
  if h.length = 48 then .next (ownerFuse h s) else .next s

/-! ### The Cobbler (R73, R462) -/

/-- Close every Psindo session (R73). -/
def closeSessions (s : State) : State :=
  let s1 := (s.ctl.sessions.filter fun r => r.1 < 9).foldl (fun t r => sessionEvent r.2 0 t) s
  setCtl s1 { s1.ctl with sessions := [], requesters := [] }

/-- End every unfinished operation FAILED with FAULTED, leaving its work as a cancel would (R73). -/
def failOps (s : State) : State :=
  (unfinished s).foldl (fun t r => opEnd r.1 r.2 7 (opFinish r.1 6 stFaulted t)) s

/-- The Cobbler resets with a cause, 1 mismatch or 2 watchdog (R73, R462). The restart time that event
0x0E14 reports is a free value of at most 5 ms. (DESIGN CHOICE, log entry 98) -/
def cobblerFail (cause : Nat) (s : State) : State :=
  let (ms, s0) := fresh 32 s
  let s1 := setSafe s0 { s0.safe with
    cobblerReset := true, cobblerReady := false, cobblerSince := raw s, cobblerCause := cause }
  let s2 := match s1.ctl.commit with
    | some c => if c.begun then setCtl s1 { s1.ctl with commit := some { c with op := none, asker := { who := 9, msg := [] } } }
                else setCtl s1 { s1.ctl with commit := none }
    | none => s1
  let s3 := failOps s2
  let s4 := if s3.ctl.mbx.busy then answerTo 0 (mbxMsg s3) (refuse stFaulted 0x0E14) s3 else s3
  detect 6 0x0E14 [cause, ms.toNat % 6] (closeSessions s4)

/-- COBBLER_MISMATCH (R462). -/
def execCobblerMismatch (s : State) : Host.Outcome State Fault Refusal :=
  if s.safe.cobblerReady then .next (cobblerFail 1 s) else .next s

/-- COBBLER_WATCHDOG (R462). -/
def execCobblerWatchdog (s : State) : Host.Outcome State Fault Refusal :=
  if s.safe.cobblerReady then .next (cobblerFail 2 s) else .next s

/-- COBBLER_RESTARTED: the firmware runs again from its on-chip copy (R73, R462). (DESIGN CHOICE, log entry 98) -/
def execCobblerRestarted (s : State) : Host.Outcome State Fault Refusal :=
  if s.safe.cobblerReset then .next (setSafe s { s.safe with cobblerReset := false, cobblerReady := true })
  else .next s

end Sys2Proof.Machine
end

