-- ==== Sys2Proof/Machine/Power.lean ====
section
/-! DEFINITION. Power domains and the wake budget (16.3). -/
namespace Sys2Proof.Machine

/-- Current step of a domain in A (Table 16-4). -/
def domainAmps (d : Nat) : Nat :=
  if d < 16 then 8 else if d < 20 then 6 else if d < 28 then 10 else if d = 28 then 3
  else if d < 93 then 4 else 6

/-- Wake time of a domain in ns, the maximum of Table 16-4. -/
def domainWakeNs (d : Nat) : Nat :=
  if d < 16 then 10000 else if d < 20 then 5000 else if d < 28 then 20000 else if d = 28 then 10000
  else if d < 93 then 50000 else 2000

/-- State of a domain (Table 16-6). -/
def domainState (s : State) (d : Nat) : Nat := tget 0 s.safe.domains d

/-- A domain changes its state; event 0x0E02. (DESIGN CHOICE, log entry 99) -/
def domainGo (d st : Nat) (s : State) : State :=
  raise 0x0E02 [d, st] (setSafe s { s.safe with domains := tset 0 s.safe.domains d st })

/-- DOMAIN_SLEEP: an AUTO domain whose sleep condition holds enters sleep; once no DMA descriptor in
flight holds it and its clock has fallen for 20 µs, it is asleep (R397, R455, R457, R458). -/
def execDomainSleep (d : Nat) (s : State) : Host.Outcome State Fault Refusal :=
  if 97 ≤ d ∨ cfgN s 0x1400 d 0 ≠ 1 then .next s
  else if domainState s d = 0 then
    if domainIdle d s then
      .next (domainGo d 3 (setSafe s { s.safe with sleepSince := tput s.safe.sleepSince d (raw s) }))
    else .next s
  else if domainState s d = 3 ∧ domainQuiet d s ∧ (dmaHolds d s).isEmpty ∧ tget 0 s.safe.sleepSince d + cyc 20000 ≤ raw s then
    .next (reviewGuarantee (domainSlept d (domainGo d 4 (setSafe s { s.safe with sleepSince := tdel s.safe.sleepSince d }))))
  else .next s

/-- DOMAIN_WAKE: work arrives for a domain that sleeps or enters sleep, or its sleep condition has ended:
its wake joins the queue (R456, R457). -/
def execDomainWake (d : Nat) (s : State) : Host.Outcome State Fault Refusal :=
  if (domainState s d = 3 ∨ domainState s d = 4) ∧ (domainWanted d s ∨ cfgN s 0x1400 d 0 ≠ 1) then
    .next (domainGo d 1 (setSafe s { s.safe with
      wakes := s.safe.wakes ++ [(d, raw s, false)], sleepSince := tdel s.safe.sleepSince d }))
  else .next s

/-- The steps in A of the wakes admitted within the window (R457). -/
def windowAmps (s : State) : Nat :=
  ((s.safe.admitted.filter fun r => decide (raw s < r.2 + cyc (cfgN s 0x1402 0 0))).map fun r => domainAmps r.1).foldl (· + ·) 0

/-- WAKE_ADMIT: the wake at the head of the queue is admitted when the budget of the window allows its
step (R457). -/
def execWakeAdmit (s : State) : Host.Outcome State Fault Refusal :=
  match s.safe.wakes with
  | [] => .next s
  | (d, _, _) :: rest =>
    if windowAmps s + domainAmps d ≤ cfgN s 0x1401 0 0 then
      .next (domainGo d 2 (count 0x1405 0 0 (setSafe s { s.safe with
        wakes := rest, admitted := s.safe.admitted ++ [(d, raw s)] })))
    else .next s

/-- WAKE_DELAYED: a wake has waited 1 ms: counted, and event 0x0E01 at most once per second (R457). -/
def execWakeDelayed (d : Nat) (s : State) : Host.Outcome State Fault Refusal :=
  match s.safe.wakes.find? fun w => w.1 == d && !w.2.2 && decide (w.2.1 + cyc 1000000 ≤ raw s) with
  | none => .next s
  | some w =>
    let s1 := setSafe s { s.safe with wakes := s.safe.wakes.map fun x => if x.1 = d then (x.1, x.2.1, true) else x }
    .next (raiseLimited 0x0E01 0 (fun _ => [d, (raw s - w.2.1) / 800, s.safe.wakes.length]) (count 0x1405 0 1 s1))

/-- POWER_DMA_ABORT: channel c has held the power-down of domain d for 100 µs: it is aborted with error 6,
counted and reported (R397, R458). -/
def execPowerDmaAbort (c d : Nat) (s : State) : Host.Outcome State Fault Refusal :=
  match tfind s.safe.sleepSince d with
  | none => .next s
  | some t =>
    if t + cyc 100000 ≤ raw s ∧ (dmaHolds d s).contains c then
      let idx := ((tget [] s.host.dma c).head?.map fun f => f.index.toNat).getD 0
      .next (raise 0x0E03 [c, idx, d] (count 0x1405 0 2 (dmaAbort c s)))
    else .next s

/-- Domains whose wake time has passed are awake; admissions older than the window are forgotten.
(DESIGN CHOICE, log entry 1; DESIGN CHOICE, log entry 99) -/
def powerSettle (s : State) : State :=
  let up := s.safe.admitted.filter fun r => domainState s r.1 == 2 && decide (r.2 + cyc (domainWakeNs r.1) ≤ raw s)
  if up.isEmpty then s
  else
    let s1 := up.foldl (fun t r => domainWoke r.1 (domainGo r.1 0 t)) s
    let left := s1.safe.admitted.filter fun r =>
      domainState s1 r.1 == 2 || decide (raw s1 < r.2 + cyc (cfgN s1 0x1402 0 0))
    setSafe s1 { s1.safe with admitted := left }

/-- One TCLK cycle passes (R405), with the wakes that end in it. -/
def idle (s : State) : State := powerSettle (tick s)

end Sys2Proof.Machine
end

