-- ==== Sys2Proof/Machine/Boot.lean ====
section
/-! DEFINITION. Power-up, reset and the boot sequence (16.1, 16.2), and plain register writes (R10). -/
namespace Sys2Proof.Machine

/-- Sorroth public key k as a slot's firmware carries it, and the SHA-384 of Sorroth key k in the ROM (R450).
(DESIGN CHOICE, log entry 96) -/
opaque Config.fwKey : Bytes → Nat → Bytes
opaque Config.sorrothKeyHash : Nat → Bytes

/-- What a decrypted patch image holds (R210): patch RAM, match registers, the interface versions that it changes. Its
layout is not stated. (DESIGN CHOICE, log entry 96) -/
opaque Config.patchContent : Bytes → Tbl (BitVec 192) × Tbl (BitVec 32) × Tbl Nat

/-! ### Pins and supplies (R445, R476, R477) -/

/-- POWER_UP: the board has raised the rails and asserted PWR_OK; RESET_N is still low (R476, Table 17-2).
(DESIGN CHOICE, log entry 3; DESIGN CHOICE, log entry 104) -/
def execPowerUp (s : State) : Host.Outcome State Fault Refusal :=
  let s1 := resetState s
  .next (setSafe s1 { s1.safe with powered := true, pwrOk := true, resetN := false })

/-- RESET_N_FALL: the device is held in reset, its outputs idle (R445). -/
def execResetNFall (s : State) : Host.Outcome State Fault Refusal :=
  let s1 := resetState s
  .next (setSafe s1 { s1.safe with resetN := false })

/-- PWR_OK_FALL acts as RESET_N low (R445). -/
def execPwrOkFall (s : State) : Host.Outcome State Fault Refusal :=
  let s1 := resetState s
  .next (setSafe s1 { s1.safe with pwrOk := false })

/-- What a board programmer wrote to the flash while RESET_N was low (R488). -/
def programFlash (f : FlashImage) (s : State) : State :=
  let canon := fun (t : Tbl Bytes) => t.foldl (fun m r => tput m r.1 r.2) ([] : Tbl Bytes)
  let s1 := setSafe s { s.safe with
    flashA := f.slotA, flashB := f.slotB, ownerKey := f.ownerKey, boardMgmt := canon f.mgmt }
  setCtl s1 { s1.ctl with bootImage := f.boot, bootMarker := f.marker, keys := canon f.keys }

/-- RESET_N_RISE: the boot sequence starts at t0 (R446, step 1). The board has PWR_OK asserted by then (R445).
(DESIGN CHOICE, log entry 3) -/
def execResetNRise (flash : Option FlashImage) (s : State) : Host.Outcome State Fault Refusal :=
  if !s.safe.powered ∨ s.safe.resetN then .next s
  else
    let s1 := match flash with
      | some f => programFlash f s
      | none => s
    .next (bootFromStep1 (setSafe s1 { s1.safe with pwrOk := true }))

/-! ### Steps 2 and 3 (Table 16-1) -/

/-- A boot step of Table 16-1 has completed. -/
def bootDid (n : Nat) (s : State) : Bool := s.safe.bootDone.contains n

/-- Note that a boot step has completed. (DESIGN CHOICE, log entry 3) -/
def bootStep (n : Nat) (s : State) : State := setSafe s { s.safe with bootDone := s.safe.bootDone ++ [n] }

/-- PLL_LOCKED: CCLK, MCLK, TCLK and SCLK start (step 2). -/
def execPllLocked (s : State) : Host.Outcome State Fault Refusal :=
  if !bootDid 1 s ∨ bootDid 2 s then .next s
  else .next (bootStep 2 (setSafe s { s.safe with clocks := true }))

/-- ROM_START_COMPLETE: steps 4, 6 and 7 start, and the PCIe endpoint trains when PERST_N is high (step 3, R447). -/
def execRomStartComplete (s : State) : Host.Outcome State Fault Refusal :=
  if !bootDid 2 s ∨ bootDid 3 s then .next s
  else .next (bootStep 3 { s with host := { s.host with training := s.safe.perstN } })

/-! ### Firmware slots and the patch (R449 to R452, Table 16-3) -/

/-- Header of a firmware slot, 1,024 bits. -/
def fwHeader (b : Bytes) : Nat := leNat (b.take 128)
def fwLength (b : Bytes) : Nat := fld (fwHeader b) 863 832
def patchLength (b : Bytes) : Nat := fld (fwHeader b) 831 800
def fwSequenceOf (b : Bytes) : Nat := fld (fwHeader b) 959 896

/-- Firmware and patch ciphertext of a slot (R450). -/
def fwBody (b : Bytes) : Bytes := slice b 224 (fwLength b)
def patchBody (b : Bytes) : Bytes := slice b (224 + fwLength b) (patchLength b)

/-- The slot has a header of this device and format (R449). -/
def fwHeaderOk (b : Bytes) : Bool :=
  let h := fwHeader b
  decide (224 + fwLength b + patchLength b ≤ b.length) &&
  fld h 1023 992 == 0x43524E39 && fld h 991 976 == 0x9516 && fld h 975 968 == 1

/-- The slot's signature verifies under its Sorroth key, whose SHA-384 the ROM holds (R450). -/
def fwSigned (b : Bytes) : Bool :=
  let k := fld (fwHeader b) 967 966
  let key := Config.fwKey (fwBody b) k
  sha384 key == Config.sorrothKeyHash k &&
  ecdsaVerify key (sha384 (b.take 128 ++ fwBody b ++ patchBody b)) (slice b 128 96)

/-- A firmware slot is valid (R449). -/
def fwValid (b : Bytes) (s : State) : Bool :=
  fwHeaderOk b && fwSigned b && !s.safe.revoked.getLsbD (fld (fwHeader b) 967 966) &&
  decide (s.safe.rollback ≤ fld (fwHeader b) 895 888)

/-- The slot that step 5 takes, 0 A or 1 B: the valid one with the higher sequence, A when they are equal (R449).
(DESIGN CHOICE, log entry 96) -/
def fwChoice (s : State) : Option Nat :=
  let a := s.safe.flashA
  let b := s.safe.flashB
  match fwValid a s, fwValid b s with
  | true, true => some (if fwSequenceOf a < fwSequenceOf b then 1 else 0)
  | true, false => some 0
  | false, true => some 1
  | false, false => none

/-- The patch key of a patch level (R451). -/
def patchKeyOf (level : Nat) (s : State) : Bytes :=
  kdf108 s.safe.patchKey ("CRN9516 awl patch".toList.map fun c => BitVec.ofNat 8 c.toNat) (leBytes 4 level)

/-- The patch plaintext of a slot; none when patch_tag does not verify (R451). (DESIGN CHOICE, log entry 96) -/
def patchPlain (b : Bytes) (s : State) : Option Bytes :=
  gcmOpen (patchKeyOf (fld (fwHeader b) 575 544) s) (slice b 88 12) (b.take 128) (patchBody b) (slice b 72 16)

/-- Record how a slot's patch fared, with what patch RAM and the match registers then hold: aw.patch.state 0 NONE,
1 LOADED, 2 BAD_SIGNATURE, 3 BAD_DECRYPT, 4 ROLLBACK; event 0x0605 (R210, R211). -/
def patchPut (st : Nat) (b : Bytes) (c : Tbl (BitVec 192) × Tbl (BitVec 32) × Tbl Nat) (s : State) : State :=
  let level := fld (fwHeader b) 575 544
  raise 0x0605 [st, level] { s with aw := { s.aw with
    patchState := st, patchLevel := BitVec.ofNat 32 level, patchRam := c.1, matchReg := c.2.1, versions := c.2.2 } }

/-- Load patch RAM and the match registers, or clear them (R210, R211); 0x0E17 for a bad patch (R448).
(DESIGN CHOICE, log entry 96) -/
def patchLoad (b : Bytes) (s : State) : State :=
  if patchLength b = 0 then patchPut 0 b ([], [], []) s
  else match patchPlain b s with
    | some p => patchPut 1 b (Config.patchContent p) s
    | none => bootEvent 0 (patchPut 3 b ([], [], []) s)

/-- With no valid slot the patch image is absent, or fails with its slot: the slot with a proper header and the higher
sequence, A when they are equal, tells how (R211). (DESIGN CHOICE, log entry 96) -/
def patchRefuse (s : State) : State :=
  let a := s.safe.flashA
  let b := s.safe.flashB
  let b' := if fwHeaderOk b && (!fwHeaderOk a || decide (fwSequenceOf a < fwSequenceOf b)) then b else a
  let st := if !fwHeaderOk b' || patchLength b' == 0 then 0
    else if !fwSigned b' || s.safe.revoked.getLsbD (fld (fwHeader b') 967 966) then 2 else 4
  patchPut st (if fwHeaderOk b' then b' else []) ([], [], []) s

/-- The firmware of slot n starts (step 5): 0 A, 1 B. It is a FALLBACK when the other slot has the higher sequence. -/
def fwStart (n : Nat) (s : State) : State :=
  let b := if n = 0 then s.safe.flashA else s.safe.flashB
  let o := if n = 0 then s.safe.flashB else s.safe.flashA
  let h := fwHeader b
  let s1 := setSafe s { s.safe with
    bootState := b2n (fwHeaderOk o && decide (fwSequenceOf b < fwSequenceOf o)), bootSlot := n
    fwVersion := BitVec.ofNat 32 (fld h 543 512), fwSecurity := fld h 895 888, fwSequence := fwSequenceOf b
    fwCopy := fwBody b, cobblerReady := true }
  bootStep 5 (patchLoad b s1)

/-- BOOT_IMAGE_READ: steps 4 and 5. With no valid slot the device enters RECOVERY, whose mailbox serves as R454
states. (DESIGN CHOICE, log entry 97) -/
def execBootImageRead (s : State) : Host.Outcome State Fault Refusal :=
  if !bootDid 3 s ∨ bootDid 4 s then .next s
  else
    let s1 := bootStep 4 (setSafe s { s.safe with signedMode := s.safe.ownerHash.isSome })
    match fwChoice s1 with
    | some n => .next (reviewGuarantee (fwStart n s1))
    | none =>
      let s2 := patchRefuse (setSafe s1 { s1.safe with bootState := 2, cobblerReady := true })
      .next (bootEvent 1 s2)

/-! ### Step 6 -/

/-- A failing SRAM bank that BIST found: kind 0 a flow slice's bank, 1 a buffer half's bank, else another SRAM; unit and
bank. Answer whether a spare takes it. -/
def spareTakes (b : Nat × Nat × Nat) (s : State) : Bool :=
  match b with
  | (0, n, _) => (tget (0, 0) s.flow.spare n).1 != 2
  | (1, h, _) => (halfSpare s h).1 != 2
  | _ => false

/-- Map a failing bank to its spare (R141, R263), or end the boot in safe stop with cause 18 (R448).
(DESIGN CHOICE, log entry 97) -/
def spareBank (b : Nat × Nat × Nat) (s : State) : State :=
  if spareTakes b s then
    match b with
    | (0, n, k) => sliceBankFault n k 1 s
    | (_, h, k) => bankFault h k 1 s
  else if s.safe.safeStop then s
  else safeStop 18 (bootEvent 2 s)

/-- SRAM_INITIALISED: every SRAM has been zeroed and tested; the failing banks are listed (step 6). -/
def execSramInitialised (failing : List (Nat × Nat × Nat)) (s : State) : Host.Outcome State Fault Refusal :=
  if !bootDid 3 s ∨ bootDid 6 s then .next s
  else
    let s1 := failing.foldl (fun t b => spareBank b t) s
    .next (reviewGuarantee (if s1.safe.safeStop then s1 else bootStep 6 s1))

/-! ### Steps 8 and 9 -/

/-- The boot pattern's signature passes (R67, R453): in OPEN mode always; else the pattern is signed, the board's owner
key has the fused hash, and the signature verifies under it. (PRESUMED, log entry 14) -/
def bootSignatureOk (s : State) : Bool :=
  let img := s.ctl.bootImage
  let sig := (parseImage img).1.signature
  !s.safe.signedMode ||
  (!sig.isEmpty && s.safe.ownerHash == some (sha384 s.safe.ownerKey) &&
   ecdsaVerify s.safe.ownerKey (sha384 (img.take (img.length - sig.length))) sig)

/-- The CRC in the header of an image matches (R56). -/
def imageCrcOk (img : Bytes) : Bool :=
  let h := leNat (img.take 32)
  crc32c (leBytes 32 (putFld h 127 96 0) ++ slice img 32 (fld h 95 64 - 32)) == fld h 127 96

/-- Why the boot pattern is bad: the parameters of event 0x0D05, none when every check passes (R67).
(DESIGN CHOICE, log entry 97) -/
def bootPatternBad (s : State) : Option (List Nat) :=
  let img := s.ctl.bootImage
  let (x, t) := parseImage img
  let code := validateCode x t s
  if img.isEmpty then some [1]
  else if !s.ctl.bootMarker then some [2]
  else if !imageCrcOk img then some [3]
  else if !bootSignatureOk s then some [4]
  else if code ≠ 0 then some [5, code]
  else none

/-- BOOT_PATTERN_CHECK: step 8. A good boot pattern enters its slot and the flow partitions are prepared; with a bad one
the device waits for a host pattern, its lanes idle (R67, R173, R448). -/
def execBootPatternCheck (s : State) : Host.Outcome State Fault Refusal :=
  if !bootDid 5 s ∨ !bootDid 6 s ∨ !bootDid 7 s ∨ bootDid 8 s ∨ s.safe.bootPatternBad then .next s
  else
    let (x, t) := parseImage s.ctl.bootImage
    match bootPatternBad s with
    | some ps =>
      let s1 := setCtl s { s.ctl with
        boot := if s.ctl.bootImage.isEmpty then emptySlot else { x with state := 3, tables := t }
        lastReject := (ps.drop 1).headD s.ctl.lastReject }
      .next (bootEvent 0 (raise 0x0D05 ps (setSafe s1 { s1.safe with bootPatternBad := true })))
    | none =>
      let s1 := setCtl s { s.ctl with boot := { x with state := 2, tables := t } }
      .next (bootStep 8 (setFlow s1 (prepareFlows (asActive x s1)).flow))

/-- The commit of the boot pattern (step 9). (DESIGN CHOICE, log entry 26; DESIGN CHOICE, log entry 97) -/
def bootCommitOf (s : State) : Commit :=
  let x := { s.ctl.boot with tables := emptyBank }
  { revert := false, boot := true, op := none, asker := { who := 9, msg := [] }, begun := true, announced := true,
    fns := changeSet x s.ctl.boot.tables s, oldSlot := s.ctl.active, newSlot := x, newTables := s.ctl.boot.tables,
    liveDone := false, advance := false, t0 := raw s, longest := 0, accepted := raw s }

/-- BOOT_COMMIT: the boot pattern is committed in epoch 0, pattern_active is set and the outputs start (step 9). -/
def execBootCommit (s : State) : Host.Outcome State Fault Refusal :=
  if !bootDid 8 s ∨ s.safe.patternActive ∨ s.ctl.commit.isSome then .next s
  else
    let c := bootCommitOf s
    let s1 := setCtl s { s.ctl with
      bank0 := { c.newTables with stage := stageOf c.newSlot }, bank1 := c.newTables, commit := some c, epoch := 0 }
    let s2 := (c.fns.filter fun f => !linkFn f).foldl (fun t f => fnTake c f t) s1
    .next (reviewGuarantee (bootStep 9 (commitFinish c s2)))

/-! ### Register writes (R10) -/

/-- REGISTER_WRITE: a write to BAR0, or of a dictionary object live, with the host's rights; a refused object write
changes nothing, and so does one during a commit (R61). The device does not answer on PCIe while it is held in reset (R445).
(DESIGN CHOICE, log entry 80) -/
def execRegisterWrite (target : RegTarget) (s : State) : Host.Outcome State Fault Refusal :=
  match target with
  | .bar0 off data => if !s.safe.resetN ∨ !s.safe.pwrOk then .next s else .next (bar0Write off data s)
  | .object a v =>
    match objRow a with
    | none => .next s
    | some row =>
      if !s.safe.cobblerReady ∨ inRecovery s ∨ s.ctl.commit.isSome ∨
         writeRefused { who := 0, role := 2, v1 := false, limit := 0, msg := [] } false a row.ty v s ≠ stOk then .next s
      else .next (reviewGuarantee (writeObj false a v s))

end Sys2Proof.Machine
end

