-- ==== Sys2Proof/Machine/Tables.lean ====
section
/-! DEFINITION. Table commands: the command ring and TABLE_CMD (13.3, 4.7, 6.8), and the completions that the Closer
writes. -/
namespace Sys2Proof.Machine

/-! ### Commands (Tables 4-9, 13-5, 13-6) -/

/-- A command of a header, its staged field, payload and limit (Table 4-9). -/
def tblCmd (h : Nat) (staged : Bool) (payload : Bytes) (limit : Nat) : TblCmd :=
  { op := fld h 63 56, table := fld h 55 48, groups := fld h 47 44, count := fld h 43 32, index := fld h 31 0,
    staged := staged, payload := payload, limit := limit }

/-- The staged tables (Table 13-6). -/
def tblStaged (t : Nat) : Bool := t == 0x12 || t == 0x13 || (decide (0x20 ≤ t) && decide (t ≤ 0x31))

def tblKnown (t : Nat) : Bool :=
  tblStaged t || (decide (1 ≤ t) && decide (t ≤ 9)) || t == 0x10 || t == 0x11 || t == 0x14 || t == 0x15

/-- The row of the command table that a command belongs to: 1 WRITE, 2 DELETE, 3 READ, 4 L2_FLUSH, 5 RESEED, 6 flow
WRITE, 7 flow DELETE, 8 flow READ, 9 MODIFY. A reserved op belongs to WRITE. -/
def tblRow (c : TblCmd) : Nat :=
  if c.table = 0x10 then (match c.op with
    | 2 => 7
    | 3 => 8
    | 6 => 9
    | _ => 6)
  else if 2 ≤ c.op ∧ c.op ≤ 5 then c.op else 1

/-- Audit target whose layout a staged rule, edit or header table has. -/
def tblTarget (t : Nat) : Nat := t - 0x10

/-- Bytes of an entry and entries of a table, for the bank that a command addresses. -/
def tblShape (s : State) (staged : Bool) (t : Nat) : Nat × Nat :=
  match t with
  | 0x01 => (32, 2097152)
  | 0x02 => (64, 16777216)
  | 0x03 => (4, 1048576)
  | 0x04 => (8, 65536)
  | 0x05 => (32, 1048576)
  | 0x06 => (4, 2 ^ 17 * cfgN s 0x3802 0 0)
  | 0x07 => (16, 16384)
  | 0x08 => (8, 65536)
  | 0x09 => (4, 1048576)
  | 0x10 => (128, s.flow.nr)
  | 0x11 => (16, 1048576)
  | 0x12 => (32, 256)
  | 0x13 => (64, 256)
  | 0x14 => (16, 1048576)
  | 0x15 => (32, 4096)
  | _ => if staged then freeShape s (tblTarget t) else auditShape s (tblTarget t)

/-- The payload that a command's header calls for (R122, R378, Table 6-9). -/
def tblPayload (s : State) (c : TblCmd) : Nat :=
  match c.op with
  | 1 => c.count * (tblShape s c.staged c.table).1
  | 4 => 16
  | 5 => 8
  | 6 => c.count * 96
  | _ => if c.table = 0x10 ∧ tblKeyed c then c.count * 64 else 0

/-- Checks 1 to 5 of R494: status and detail. -/
def tblHeadRefused (c : TblCmd) (s : State) : Option (Nat × Nat) :=
  let opOk := (1 ≤ c.op && c.op ≤ 3) || ((c.op == 4 || c.op == 5) && c.table == 7) || (c.op == 6 && c.table == 0x10)
  let groupsOk := c.groups == 0xF || c.op == 4 || c.op == 5
  let countOk := match c.op with
    | 4 => c.count == 0
    | 5 => c.count == 1
    | _ => decide (1 ≤ c.count) && decide (c.count ≤ if c.table = 0x10 then 16 else 256)
  let rows := (tblShape s c.staged c.table).2
  let rangeOk :=
    if c.op = 4 ∨ c.op = 5 ∨ (c.table = 0x10 ∧ (tblKeyed c ∨ c.op = 1)) then true
    else if c.table = 6 then
      decide (c.index / 2 ^ 17 < cfgN s 0x3802 0 0) && decide (c.index % 2 ^ 17 + c.count ≤ 65537)
    else decide (c.index + c.count ≤ rows)
  if !tblKnown c.table || !opOk || !groupsOk then some (2, 0)
  else if c.staged && !tblStaged c.table then some (2, 0)
  else if !c.staged && tblStaged c.table && c.op != 3 then some (9, 0)
  else if c.staged && s.ctl.commit.isSome then some (1, 1)
  else if c.staged && s.ctl.drain.isSome then some (10, 0)
  else if !countOk then some (2, 0)
  else if !rangeOk then some (if 0x20 ≤ c.table ∧ c.table < 0x30 then 5 else 6, 0)
  else none

/-- Check 6 of R494: the payload has not the length of the command's entries. -/
def tblLengthBad (c : TblCmd) (s : State) : Bool := decide (c.payload.length ≠ tblPayload s c)

/-- Checks 1 to 6 of R494: status and detail. (DESIGN CHOICE, log entry 38) -/
def tblRefused (c : TblCmd) (s : State) : Option (Nat × Nat) :=
  match tblHeadRefused c s with
  | some e => some e
  | none => if tblLengthBad c s then some (2, 0) else none

/-! ### Static layer-2 entries (R117, R120) -/

/-- Remove a handle's key from every group. -/
def l2Unset (h : Nat) (s : State) : State :=
  let e := tget 0 s.fwd.l2static h
  let gone := (List.range 4).foldl (fun t g => match l2Find t g (l2Vid e) (l2Mac e) with
    | some k => if l2Static (l2Entry t k) then setL2 t k 0 else t
    | none => t) s
  if l2Valid e then setFwd gone { gone.fwd with l2static := tdel gone.fwd.l2static h } else s

/-- Put a static entry into one group, over an entry of its key; none: its buckets are full. -/
def l2SetGroup (e : BitVec 128) (s : Option State) (g : Nat) : Option State :=
  s.bind fun t => match l2Find t g (l2Vid e) (l2Mac e) with
    | some k => some (setL2 t k e)
    | none => (l2Room t g (l2Vid e) (l2Mac e)).map fun k => setL2 t k e

/-- Write a static entry under a handle in all four groups; none: a group has no room for it. -/
def l2Set (h : Nat) (w : BitVec 128) (s : State) : Option State :=
  let s1 := l2Unset h s
  let e := putBf (putBf (putBf (putBf w 127 127 1) 124 124 0) 53 32 0) 31 0 (devUs s)
  ((List.range 4).foldl (l2SetGroup e) (some s1)).map fun t =>
    setFwd t { t.fwd with l2static := tput t.fwd.l2static h (putBf e 31 0 0) }

/-! ### Entries -/

/-- The bank of a staged table that a command addresses: the free bank, or for a READ without staged the active one
(R381). -/
def tblBank (staged : Bool) (s : State) : Banked := if staged then freeBank s else activeBank s

/-- An entry of a table as a number. -/
def tblGet (s : State) (staged : Bool) (t i : Nat) : Nat :=
  let b := tblBank staged s
  match t with
  | 0x01 => (tget 0 s.fwd.lpm i).toNat
  | 0x02 => (nhEntry s i).toNat
  | 0x03 => (tget (0 : BitVec 32) s.fwd.ecmp i).toNat
  | 0x04 => (svEntry s i).toNat
  | 0x05 => (beEntry s i).toNat
  | 0x06 => (tget (0 : BitVec 32) s.fwd.lbSlot i).toNat
  | 0x07 =>
    let e := tget 0 s.fwd.l2static i
    if l2Valid e then (match l2Find s 0 (l2Vid e) (l2Mac e) with
      | some k => (l2Entry s k).toNat
      | none => e.toNat) else 0
  | 0x08 => (mcGroup s i).toNat
  | 0x09 => (mcTarget s i).toNat
  | 0x11 => (tget (0 : BitVec 128) s.fwd.natab i).toNat
  | 0x12 => (tget tplReset b.templates i).toNat
  | 0x13 => (tget (0 : BitVec 512) b.params i).toNat
  | 0x14 => (meterEntry s i).toNat
  | 0x15 => (meterProf s i).toNat
  | 0x30 => (tget (0 : BitVec 1024) b.edits i).toNat
  | 0x31 => (tget (0 : BitVec 576) b.headers i).toNat
  | _ => (tget (0 : BitVec 2176) b.rules (ruleKey ((t - 0x20) / 4) (t % 4) i)).toNat

/-- Clear bits hi to lo of a number: a reserved field (R10). -/
def clearBits (v hi lo : Nat) : Nat := putFld v hi lo 0

/-- An entry of a prefix is refused (R116): status and detail; otherwise none. (DESIGN CHOICE, log entry 38) -/
def lpmRefused (h k : Nat) (e : BitVec 256) (s : State) : Option (Nat × Nat) :=
  let same := s.fwd.lpm.any fun r => r.1 != h && lpValid r.2 && lpZone r.2 == lpZone e && lpFam r.2 == lpFam e &&
    lpLen r.2 == lpLen e && lpPrefix r.2 == lpPrefix e
  let units := fun (x : BitVec 256) => if lpValid x then 1 + lpFam x else 0
  let w := famBits (lpFam e)
  if w < lpLen e then some (6, k)
  else if lpValid e && same then some (2, 0x0401)
  else if 2097152 < lpmUnits s - units (tget 0 s.fwd.lpm h) + units e then some (5, 0)
  else if 2 ^ w ≤ lpPrefix e ∨ lpPrefix e % 2 ^ (w - lpLen e) ≠ 0 then some (2, 0x0402)
  else none

/-- What refuses entry k of a WRITE, at index i, beyond its reserved fields: status and detail (check 8 of R494).
(DESIGN CHOICE, log entry 38) -/
def entryRefused (t i k v : Nat) (s : State) : Option (Nat × Nat) :=
  let range := fun (bad : Bool) => if bad then some (6, k) else none
  match t with
  | 0x01 => lpmRefused i k (BitVec.ofNat 256 v) s
  | 0x02 => range (decide (4 < fld v 511 509))
  | 0x04 => range (decide (cfgN s 0x3802 0 0 ≤ fld v 62 49))
  | 0x05 => range (fld v 255 254 == 3)
  | 0x07 => if v.testBit 126 then none else some (2, 0)
  | 0x08 =>
    let n := fld v 42 32
    range (decide (1048576 < fld v 62 43 + n) || decide (1024 < n) || (v.testBit 63 && n == 0))
  | 0x12 => range (decide (4 < fld v 254 252) || fld v 227 226 == 3 || fld v 223 222 == 3)
  | 0x14 => range (i == 0)
  | 0x15 => range (decide (1 < fld v 255 254) || fld v 246 245 == 3 || fld v 238 237 == 3)
  | 0x30 => range ((List.range 16).any fun j => editReserved (fld v (64 * j + 63) (64 * j)))
  | _ =>
    if 0x20 ≤ t ∧ t < 0x30 then
      range (actionBad (entryAction (leNat (stagedB s (oa 0x3010 ((t - 0x20) / 4) (t % 4)))) (BitVec.ofNat 2176 v)))
    else none

/-- Store an entry, its reserved fields 0 (R10); none: it finds no room. -/
def tblPut (t i v : Nat) (s : State) : Option State :=
  let f := s.fwd
  let b := freeBank s
  match t with
  | 0x01 => some (setFwd s { f with lpm := tset 0 f.lpm i (BitVec.ofNat 256 (clearBits v 205 128)) })
  | 0x02 => some (setFwd s { f with nh := tset 0 f.nh i (BitVec.ofNat 512 (clearBits v 91 0)) })
  | 0x03 => some (setFwd s { f with ecmp := tset 0 f.ecmp i (BitVec.ofNat 32 (v % 2 ^ 24)) })
  | 0x04 => some (setFwd s { f with lbService := tset 0 f.lbService i (BitVec.ofNat 64 (clearBits v 24 0)) })
  | 0x05 => some (setFwd s { f with lbBackend := tset 0 f.lbBackend i (BitVec.ofNat 256 (clearBits v 69 0)) })
  | 0x06 => some (setFwd s { f with lbSlot := tset 0 f.lbSlot i (BitVec.ofNat 32 (clearBits v 30 20)) })
  | 0x07 => l2Set i (BitVec.ofNat 128 v) s
  | 0x08 => some (setFwd s { f with mcGroup := tset 0 f.mcGroup i (BitVec.ofNat 64 (clearBits v 31 0)) })
  | 0x09 => some (setFwd s { f with mcTarget := tset 0 f.mcTarget i (BitVec.ofNat 32 (clearBits v 17 10)) })
  | 0x11 => some (setFwd s { f with natab := tset 0 f.natab i (BitVec.ofNat 128 v) })
  | 0x12 => some (setFreeBank s { b with templates := tset tplReset b.templates i (BitVec.ofNat 512 (clearBits v 26 0)) })
  | 0x13 => some (setFreeBank s { b with params := tset 0 b.params i (BitVec.ofNat 512 v) })
  | 0x14 => some (meterWrite i (BitVec.ofNat 128 v) s)
  | 0x15 => some (setTm s { s.tm with
      profiles := tset profReset s.tm.profiles i (BitVec.ofNat 256 (clearBits (clearBits v 230 192) 79 0)) })
  | 0x31 => some (putFreeEntry 0x21 i (clearBits v 63 25) s)
  | _ => some (putFreeEntry (tblTarget t) i v s)

/-- Delete an entry: a live one becomes absent, a staged one all zeros (R381). -/
def tblDelete (t i : Nat) (s : State) : State :=
  match t with
  | 0x07 => l2Unset i s
  | 0x15 => setTm s { s.tm with profiles := tset profReset s.tm.profiles i profReset }
  | _ => (tblPut t i 0 s).getD s

/-- Apply entry k of a command of the table hardware (R106): status, detail, result bytes, state. -/
def tblEntry (c : TblCmd) (k : Nat) (s : State) : Nat × Nat × Bytes × State :=
  let size := (tblShape s c.staged c.table).1
  let i := c.index + k
  match c.op with
  | 1 =>
    let v := leNat (slice c.payload (size * k) size)
    match entryRefused c.table i k v s with
    | some e => (e.1, e.2, [], s)
    | none => match tblPut c.table i v s with
      | some t => (0, 0, [], t)
      | none => (5, 0, [], s)
  | 2 => if c.table = 0x14 ∧ i = 0 then (6, k, [], s) else (0, 0, [], tblDelete c.table i s)
  | _ => (0, 0, leBytes size (tblGet s c.staged c.table i), s)

/-- L2_FLUSH (Table 4-9): the dynamic entries of the selected groups that match the filter go. -/
def l2Flush (c : TblCmd) (s : State) : State :=
  let f := leNat c.payload
  (List.range 4).foldl (fun t g =>
    if !c.groups.testBit g then t
    else (l2Group t g).foldl (fun z r =>
      let e := r.2
      if !l2Static e && (f.testBit 127 || l2Port e == fld f 63 54) && (f.testBit 126 || l2Vid e == fld f 123 112) then
        setL2 z r.1 0
      else z) t) s

/-- Bytes that a READ would answer. -/
def tblReadBytes (s : State) (c : TblCmd) : Nat := if c.op = 3 then c.count * (tblShape s c.staged c.table).1 else 0

/-- A command that passes to HOST_FLOW (R220). -/
def hostTable (c : TblCmd) : Bool := c.table == 0x10 || c.table == 0x11

/-- An end without an entry applied. -/
def noneDone (st d : Nat) : HostEnd := { status := st, detail := d, done := 0, result := 0, reply := [] }

/-- Serve a command of the table hardware but RESEED, after checks 1 to 6 (R494): how it ends, and the state. -/
def tblServe (c : TblCmd) (s : State) : HostEnd × State :=
  if c.limit < tblReadBytes s c then (noneDone 5 0, s)
  else if c.op = 4 then (noneDone 0 0, l2Flush c s)
  else
    let r := runEntries c (tblEntry c) 0 c.count [] s
    let wrote := tblStaged c.table && c.op != 3 && r.done != 0
    ({ status := r.status, detail := r.detail, done := r.done, result := 0
       reply := if c.op = 3 ∧ r.status ≠ 0 then [] else r.reply },
      if wrote then stagedEdit r.st else r.st)

/-- A group that a RESEED selects is being rebuilt already. (DESIGN CHOICE, log entry 38) -/
def reseedBusy (c : TblCmd) (s : State) : Bool := (List.range 4).any fun g => c.groups.testBit g && (tfind s.fwd.rebuild g).isSome

/-- RESEED begins a rebuild in every selected group (R121); it is answered when the last of them ends. -/
def reseedBegin (c : TblCmd) (src : CmdSrc) (s : State) : State :=
  let v := leNat c.payload
  let gs := (List.range 4).filter fun g => c.groups.testBit g
  let r : L2Rebuild := { seedA := fld v 31 0, seedB := fld v 63 32 }
  let f := s.fwd
  setFwd s { f with rebuild := gs.foldl (fun t g => tput t g r) f.rebuild,
                    reseeds := f.reseeds ++ [{ src := src, groups := gs, failed := false }] }

/-! ### The command ring (R378, R379) -/

/-- Address of a slot of the command ring. -/
def slotAddrOf (s : State) (idx : Nat) : Nat := (ring s cmdKey).base.toNat + 64 * (idx % ringSize (ring s cmdKey))

/-- The command ring stops with an error at a slot (R376). -/
def cmdStop (err idx : Nat) (s : State) : State := ringFail cmdKey err (BitVec.ofNat 32 idx) s

/-- Write a completion into its slot and advance CONS (Table 13-5, R379). -/
def slotComplete (idx status detail done result : Nat) (s : State) : State :=
  ringConsume cmdKey 1 (hostWrite s (slotAddrOf s idx)
    (leBytes 16 (status * 2 ^ 112 + detail % 2 ^ 16 * 2 ^ 96 + done * 2 ^ 64 + result % 2 ^ 32 * 2 ^ 32 + 1)))

/-- The ring takes no slot yet (R379): a RESEED of its own still rebuilds, a command of the table hardware runs alone,
64 commands of HOST_FLOW are in flight, or a slot that stops the ring waits for those before it. -/
def ringBlocked (c : TblCmd) (s : State) : Bool :=
  (s.fwd.reseeds.any fun r => match r.src with
    | .ring _ => true
    | .msg _ => false) ||
  (decide (0 < ringFlights s) && !hostTable c) || decide (64 ≤ ringFlights s) ||
  s.aw.hostCmds.any fun x => hostFromRing x && (x.fail == 2 || x.fail == 5)

/-- Write reply bytes to host memory or the HBM host window; none: the window does not hold them. -/
def replyWrite (hbm : Bool) (a : Nat) (bs : Bytes) (s : State) : Option State :=
  if bs.isEmpty then some s
  else if !hbm then some (hostWrite s a bs)
  else if hbmAllowed s a bs.length true then some (hbmWrite s a bs) else none

/-- The command of a slot, its payload as host memory or the host window holds it; or the error that stops the ring.
(DESIGN CHOICE, log entry 62) -/
def slotCmd (slot host : Bytes) (fail : Nat) (s : State) : Nat ⊕ TblCmd :=
  let v := leNat (slot.take 64)
  let n := fld v 383 352
  let a := fld v 447 384
  let mk := fun (p : Bytes) => (.inr (tblCmd (fld v 511 448) (v.testBit 255) p (fld v 287 256)) : Nat ⊕ TblCmd)
  if fail = 2 ∨ slot.length < 64 then .inl 2
  else if n = 0 then mk []
  else if v.testBit 254 then
    if !hbmAllowed s a n false then .inl 2 else if rangePoisoned s a n then .inl 5 else mk (hbmRead s a n)
  else if host.length < n then .inl 2 else mk (host.take n)

/-- A slot's command with what its completion needs (Table 13-5). -/
def slotHost (v idx fail : Nat) (c : TblCmd) : HostCmd :=
  { tag := idx, src := .ring idx, cmd := c, replyHbm := v.testBit 253, replyAt := fld v 351 288, replyLimit := fld v 287 256,
    fail := fail, ended := none }

/-- Finish a slot: its reply and its completion are written, or the ring stops with an error and lets go of the commands
after it (R376, R378, R379). (DESIGN CHOICE, log entry 115) -/
def ringFinish (c : HostCmd) (idx : Nat) (e : HostEnd) (s : State) : State :=
  let stop := fun (err : Nat) (t : State) =>
    let u := cmdStop err idx t
    setHostCmds u (u.aw.hostCmds.filter fun x => !hostFromRing x)
  let out := if c.cmd.op = 3 ∨ (c.cmd.op = 1 ∧ e.reply.length ≤ c.replyLimit) then e.reply else []
  if c.fail = 2 ∨ c.fail = 5 then stop c.fail s
  else match (if c.fail = 3 ∧ !c.replyHbm then some s else replyWrite c.replyHbm c.replyAt out s) with
    | some t => if c.fail = 3 then stop 3 t else slotComplete idx e.status e.detail e.done e.result t
    | none => stop 3 s

/-- A slot ends at once: it is finished, in ring order behind the commands in flight (R379). -/
def ringEnd (c : HostCmd) (idx : Nat) (e : HostEnd) (s : State) : State :=
  if ringFlights s = 0 then ringFinish c idx e s
  else setHostCmds s (s.aw.hostCmds ++ [{ c with ended := some e }])

/-- Index of the slot that the ring takes next: behind the commands in flight (R379). -/
def ringNext (s : State) : Nat := ((ring s cmdKey).cons.toNat + ringFlights s) % 2 ^ 32

/-- Serve the next slot of the command ring, if it is one of a row. -/
def ringServe (row : Nat) (slot host : Bytes) (fail : Nat) (s : State) : State :=
  let idx := ringNext s
  let v := leNat (slot.take 64)
  let h := tblCmd (fld v 511 448) false [] 0
  if !ringLive s cmdKey || decide (ringFill (ring s cmdKey) ≤ ringFlights s) || ringBlocked h s || tblRow h != row then s
  else match slotCmd slot host fail s with
    | .inl e => ringEnd (slotHost v idx e h) idx (noneDone 0 0) s
    | .inr c =>
      let hc := slotHost v idx (if fail = 3 then 3 else 0) c
      match tblRefused c s with
      | some e => ringEnd hc idx (noneDone e.1 e.2) s
      | none =>
        if c.op = 5 then
          if reseedBusy c s then ringEnd hc idx (noneDone 1 0) s else reseedBegin c (.ring idx) s
        else if hostTable c then match hostSubmit hc s with
          | (true, t) => t
          | (false, t) => ringEnd hc idx (noneDone 1 0) t
        else match tblServe c s with
          | (e, t) => ringEnd hc idx e t

/-! ### TABLE_CMD (R380, Table 2-5a) -/

/-- The command of a TABLE_CMD message. -/
def msgCmd (m : Bytes) (limit : Nat) : TblCmd :=
  let b := msgBody m
  tblCmd (leNat (b.take 8)) (msgStaged m) (b.drop 8) (limit - 8)

/-- What refuses a TABLE_CMD message: a wrong length with the offset of its first wrong byte (R42). -/
def msgTblRefused (c : TblCmd) (s : State) : Option (Nat × Nat) :=
  match tblHeadRefused c s with
  | some e => some e
  | none => if tblLengthBad c s then some (2, 8 + min c.payload.length (tblPayload s c)) else none

/-- The answer of a TABLE_CMD (R380). -/
def tblAnswer (c : TblCmd) (e : HostEnd) : Answer :=
  let body := leBytes 4 e.done ++ leBytes 4 e.result ++ (if c.op = 3 then e.reply else [])
  { status := e.status, detail := e.detail, body := if e.status = 0 then body else [] }

/-- The number that a message's command for HOST_FLOW takes: ring 1 and its place. (DESIGN CHOICE, log entry 115) -/
def msgTag (s : State) : Nat := 2 ^ 32 + s.aw.hostNext % 2 ^ 32

/-- Hand a message's command to HOST_FLOW; it is answered when it completes, or BUSY when its class refuses it (R224). -/
def msgSubmit (c : TblCmd) (a : Asker) (s : State) : Option Answer × State :=
  match hostSubmit { tag := msgTag s, src := .msg a, cmd := c, replyHbm := false, replyAt := 0, replyLimit := 0, fail := 0,
                     ended := none } s with
  | (true, t) => (none, setAw t { t.aw with hostNext := t.aw.hostNext + 1 })
  | (false, t) => (some (refuse stBusy 0), t)

/-- The TABLE_CMD request. -/
def tableReq : Handler := fun r s =>
  let c := msgCmd r.msg r.limit
  let v1Reach := (decide (1 ≤ c.table) && decide (c.table ≤ 7)) || c.table == 0x10 || c.table == 0x11
  if (msgBody r.msg).length < 8 then (some (refuse stInvalid (msgBody r.msg).length), s)
  else if r.v1 && !v1Reach then (some (refuse stDenied 0), s)
  else match msgTblRefused c s with
    | some e => (some (refuse e.1 e.2), s)
    | none =>
      if c.op = 5 then
        if reseedBusy c s then (some (refuse stBusy 0), s)
        else (none, reseedBegin c (.msg { who := r.who, msg := r.msg }) s)
      else if hostTable c then msgSubmit c { who := r.who, msg := r.msg } s
      else match tblServe c s with
        | (e, t) => (some (tblAnswer c e), t)

/-- A message is a TABLE_CMD of a row. -/
def isTblRow (row : Nat) (m : Bytes) : Bool := isRow 0x40 0 m && tblRow (msgCmd m 8) == row

/-- Serve a table command of a row by its path. -/
def tblRun (row : Nat) (via : CmdVia) (s : State) : State :=
  match via with
  | .ring slot host fail => ringServe row slot host fail s
  | .message v => serve (isTblRow row) tableReq v s

/-- TABLE_WRITE (R122, R123, R378 to R381, R494). -/
def execTableWrite (via : CmdVia) (s : State) : Host.Outcome State Fault Refusal := .next (tblRun 1 via s)

/-- TABLE_DELETE (R122, R381). -/
def execTableDelete (via : CmdVia) (s : State) : Host.Outcome State Fault Refusal := .next (tblRun 2 via s)

/-- TABLE_READ (R122, R381). -/
def execTableRead (via : CmdVia) (s : State) : Host.Outcome State Fault Refusal := .next (tblRun 3 via s)

/-- L2_FLUSH (R122). -/
def execL2Flush (via : CmdVia) (s : State) : Host.Outcome State Fault Refusal := .next (tblRun 4 via s)

/-- RESEED (R121). -/
def execReseed (via : CmdVia) (s : State) : Host.Outcome State Fault Refusal := .next (tblRun 5 via s)

/-- FLOW_WRITE (R194, R196). -/
def execFlowWrite (via : CmdVia) (s : State) : Host.Outcome State Fault Refusal := .next (tblRun 6 via s)

/-- FLOW_DELETE (R184, R194). -/
def execFlowDelete (via : CmdVia) (s : State) : Host.Outcome State Fault Refusal := .next (tblRun 7 via s)

/-- FLOW_READ (R161, R194). -/
def execFlowRead (via : CmdVia) (s : State) : Host.Outcome State Fault Refusal := .next (tblRun 8 via s)

/-- MODIFY (R195). -/
def execModify (via : CmdVia) (s : State) : Host.Outcome State Fault Refusal := .next (tblRun 9 via s)

/-! ### Completions of HOST_FLOW (R220, R229, R379) -/

/-- Write the completion of a command that has left the queue. -/
def hostFinish (c : HostCmd) (e : HostEnd) (s : State) : State :=
  match c.src with
  | .ring idx => ringFinish c idx e s
  | .msg a => answerTo a.who a.msg (tblAnswer c.cmd e) s

/-- Completions of one ring leave in its order: those before the first command that has not ended. -/
def flushRing : List HostCmd → State → State
  | [], s => s
  | c :: l, s => match c.ended with
    | none => s
    | some e =>
      if s.aw.hostCmds.contains c then flushRing l (hostFinish c e (setHostCmds s (s.aw.hostCmds.erase c))) else s

/-- A disabled command ring stops once the commands that it has begun are finished (R376). -/
def ringDrained (s : State) : State :=
  let r := ring s cmdKey
  if r.enable || r.stopped || ringFlights s != 0 then s else setRing s cmdKey { r with stopped := true }

/-- Write the completions that are due, of the command ring and of the message path. -/
def hostFlush (s : State) : State :=
  let s1 := flushRing (s.aw.hostCmds.filter hostFromRing) s
  ringDrained (flushRing (s1.aw.hostCmds.filter fun c => !hostFromRing c) s1)

/-- CLOSER_APPLY: the Closer applies the oldest commit set that waits for no predecessor, and writes the completions of
HOST_FLOW that are due in ring order (R228 to R230, R220). (DESIGN CHOICE, log entry 115) -/
def execCloserApply (s : State) : Host.Outcome State Fault Refusal :=
  if awlsHalted s then .next s else .next (hostFlush (closeNext s))

/-- A RESEED whose last group has ended is answered: OK, or NO_SPACE when a group kept its old layout (R121). -/
def reseedAnswer (r : Reseed) (s : State) : State :=
  let st := if r.failed then stNoSpace else stOk
  let n := if r.failed then 0 else 1
  match r.src with
  | .ring idx => slotComplete idx st 0 n 0 s
  | .msg a => answerTo a.who a.msg { status := st, body := if r.failed then [] else leBytes 4 n ++ leBytes 4 0 } s

/-- L2_REBUILD_DONE: the rebuild of group g ends (R121). -/
def execL2RebuildDone (g : Nat) (s : State) : Host.Outcome State Fault Refusal :=
  if (tfind s.fwd.rebuild g).isNone then .next s
  else
    let r := l2Rebuilt g s
    let left := r.2.fwd.reseeds.map fun (x : Reseed) =>
      if x.groups.contains g then { x with groups := x.groups.filter (· != g), failed := x.failed || !r.1 } else x
    let s1 := setFwd r.2 { r.2.fwd with reseeds := left.filter fun x => !x.groups.isEmpty }
    .next ((left.filter fun x => x.groups.isEmpty).foldl (fun t x => reseedAnswer x t) s1)

end Sys2Proof.Machine
end

