-- ==== Sys2Proof/Machine/Dispatch.lean ====
section
/-! DEFINITION. exec: one arm per command, each a direct call of the command's meaning. -/
namespace Sys2Proof.Machine

def exec (i : Instr) (s : State) : Host.Outcome State Fault Refusal :=
  match i with
  | .pwrOkFall => Sys2Proof.Machine.execPwrOkFall s
  | .resetNFall => Sys2Proof.Machine.execResetNFall s
  | .resetNRise flash => Sys2Proof.Machine.execResetNRise flash s
  | .pllLocked => Sys2Proof.Machine.execPllLocked s
  | .romStartComplete => Sys2Proof.Machine.execRomStartComplete s
  | .bootImageRead => Sys2Proof.Machine.execBootImageRead s
  | .sramInitialised failing => Sys2Proof.Machine.execSramInitialised failing s
  | .hbmTrained ms bad => Sys2Proof.Machine.execHbmTrained ms bad s
  | .bootPatternCheck => Sys2Proof.Machine.execBootPatternCheck s
  | .bootCommit => Sys2Proof.Machine.execBootCommit s
  | .pciePerstNRise => Sys2Proof.Machine.execPciePerstNRise s
  | .pciePerstNFall => Sys2Proof.Machine.execPciePerstNFall s
  | .pcieLinkChange up rate width cause => Sys2Proof.Machine.execPcieLinkChange up rate width cause s
  | .hello via => Sys2Proof.Machine.execHello via s
  | .bye via => Sys2Proof.Machine.execBye via s
  | .read via => Sys2Proof.Machine.execRead via s
  | .write via => Sys2Proof.Machine.execWrite via s
  | .describe via => Sys2Proof.Machine.execDescribe via s
  | .list via => Sys2Proof.Machine.execList via s
  | .load via => Sys2Proof.Machine.execLoad via s
  | .validate via => Sys2Proof.Machine.execValidate via s
  | .commit via => Sys2Proof.Machine.execCommit via s
  | .revert via => Sys2Proof.Machine.execRevert via s
  | .patternCopy via => Sys2Proof.Machine.execPatternCopy via s
  | .readImage via => Sys2Proof.Machine.execReadImage via s
  | .longopSuspend via => Sys2Proof.Machine.execLongopSuspend via s
  | .longopResume via => Sys2Proof.Machine.execLongopResume via s
  | .longopCancel via => Sys2Proof.Machine.execLongopCancel via s
  | .longopQuery via => Sys2Proof.Machine.execLongopQuery via s
  | .rehash via => Sys2Proof.Machine.execRehash via s
  | .resizePartition via => Sys2Proof.Machine.execResizePartition via s
  | .tableLoad via => Sys2Proof.Machine.execTableLoad via s
  | .tableDump via => Sys2Proof.Machine.execTableDump via s
  | .flowFlush via => Sys2Proof.Machine.execFlowFlush via s
  | .auditPass via => Sys2Proof.Machine.execAuditPass via s
  | .scrubPass via => Sys2Proof.Machine.execScrubPass via s
  | .bistFunction via => Sys2Proof.Machine.execBistFunction via s
  | .hbmRetrainFull via => Sys2Proof.Machine.execHbmRetrainFull via s
  | .firmwareStage via => Sys2Proof.Machine.execFirmwareStage via s
  | .patternCommit n => Sys2Proof.Machine.execPatternCommit n s
  | .longopConflictsClear n => Sys2Proof.Machine.execLongopConflictsClear n s
  | .longopWorkComplete n => Sys2Proof.Machine.execLongopWorkComplete n s
  | .longopFailed n status => Sys2Proof.Machine.execLongopFailed n status s
  | .cancelWorkComplete n => Sys2Proof.Machine.execCancelWorkComplete n s
  | .commitBacklogReady t0 => Sys2Proof.Machine.execCommitBacklogReady t0 s
  | .commitBacklogTimeout => Sys2Proof.Machine.execCommitBacklogTimeout s
  | .commitStopInstant => Sys2Proof.Machine.execCommitStopInstant s
  | .lastingRestart f => Sys2Proof.Machine.execLastingRestart f s
  | .commitAnswer => Sys2Proof.Machine.execCommitAnswer s
  | .epochDrainEnd => Sys2Proof.Machine.execEpochDrainEnd s
  | .epochDrainTimeout => Sys2Proof.Machine.execEpochDrainTimeout s
  | .sessionIdleTimeout n => Sys2Proof.Machine.execSessionIdleTimeout n s
  | .sessionRetentionExpiry n => Sys2Proof.Machine.execSessionRetentionExpiry n s
  | .cobblerMismatch => Sys2Proof.Machine.execCobblerMismatch s
  | .cobblerWatchdog => Sys2Proof.Machine.execCobblerWatchdog s
  | .cobblerRestarted => Sys2Proof.Machine.execCobblerRestarted s
  | .registerWrite target => Sys2Proof.Machine.execRegisterWrite target s
  | .bar2Read o n => Sys2Proof.Machine.execBar2Read o n s
  | .bar2Write o data => Sys2Proof.Machine.execBar2Write o data s
  | .ringEnable k on => Sys2Proof.Machine.execRingEnable k on s
  | .ringConsWrite k v => Sys2Proof.Machine.execRingConsWrite k v s
  | .msixModerationExpiry k => Sys2Proof.Machine.execMsixModerationExpiry k s
  | .tableWrite via => Sys2Proof.Machine.execTableWrite via s
  | .tableDelete via => Sys2Proof.Machine.execTableDelete via s
  | .tableRead via => Sys2Proof.Machine.execTableRead via s
  | .l2Flush via => Sys2Proof.Machine.execL2Flush via s
  | .reseed via => Sys2Proof.Machine.execReseed via s
  | .l2RebuildDone g => Sys2Proof.Machine.execL2RebuildDone g s
  | .flowWrite via => Sys2Proof.Machine.execFlowWrite via s
  | .flowDelete via => Sys2Proof.Machine.execFlowDelete via s
  | .flowRead via => Sys2Proof.Machine.execFlowRead via s
  | .modify via => Sys2Proof.Machine.execModify via s
  | .frameReceive q bytes symbolErr => Sys2Proof.Machine.execFrameReceive q bytes symbolErr s
  | .frameEnd pid => Sys2Proof.Machine.execFrameEnd pid s
  | .clickerParse p => Sys2Proof.Machine.execClickerParse p s
  | .clickerRetire p => Sys2Proof.Machine.execClickerRetire p s
  | .recirculate p full => Sys2Proof.Machine.execRecirculate p full s
  | .nhLineArrival g key => Sys2Proof.Machine.execNhLineArrival g key s
  | .l2Learn g => Sys2Proof.Machine.execL2Learn g s
  | .l2AgeScan g => Sys2Proof.Machine.execL2AgeScan g s
  | .auditPeriod bad => Sys2Proof.Machine.execAuditPeriod bad s
  | .auditRecheck bad => Sys2Proof.Machine.execAuditRecheck bad s
  | .lookup n lost => Sys2Proof.Machine.execLookup n lost s
  | .tokenGranted p => Sys2Proof.Machine.execTokenGranted p s
  | .bucketArrival h bad => Sys2Proof.Machine.execBucketArrival h bad s
  | .recordArrival h bad => Sys2Proof.Machine.execRecordArrival h bad s
  | .setupReadsComplete h bad => Sys2Proof.Machine.execSetupReadsComplete h bad s
  | .setupWritesAcknowledged h => Sys2Proof.Machine.execSetupWritesAcknowledged h s
  | .setupTimeout h => Sys2Proof.Machine.execSetupTimeout h s
  | .writeback n => Sys2Proof.Machine.execWriteback n s
  | .foldPeriod n => Sys2Proof.Machine.execFoldPeriod n s
  | .ageScan r => Sys2Proof.Machine.execAgeScan r s
  | .ageDecide n => Sys2Proof.Machine.execAgeDecide n s
  | .removalComplete n => Sys2Proof.Machine.execRemovalComplete n s
  | .rehashCopy cnt => Sys2Proof.Machine.execRehashCopy cnt s
  | .rehashSwitch => Sys2Proof.Machine.execRehashSwitch s
  | .surrenderRequest n => Sys2Proof.Machine.execSurrenderRequest n s
  | .rehashChangeoverEnd => Sys2Proof.Machine.execRehashChangeoverEnd s
  | .resizeStep => Sys2Proof.Machine.execResizeStep s
  | .flowWalk n cnt => Sys2Proof.Machine.execFlowWalk n cnt s
  | .loadRecord n data => Sys2Proof.Machine.execLoadRecord n data s
  | .sliceBankSpare n bank hits => Sys2Proof.Machine.execSliceBankSpare n bank hits s
  | .sliceOnlineBist n bank pass => Sys2Proof.Machine.execSliceOnlineBist n bank pass s
  | .cacheModeSettled => Sys2Proof.Machine.execCacheModeSettled s
  | .itemDispatch => Sys2Proof.Machine.execItemDispatch s
  | .prefetchComplete a l => Sys2Proof.Machine.execPrefetchComplete a l s
  | .next a => Sys2Proof.Machine.execNext a s
  | .jump a => Sys2Proof.Machine.execJump a s
  | .branch a => Sys2Proof.Machine.execBranch a s
  | .call a => Sys2Proof.Machine.execCall a s
  | .ret a => Sys2Proof.Machine.execRet a s
  | .wait a => Sys2Proof.Machine.execWait a s
  | .park a => Sys2Proof.Machine.execPark a s
  | .finish a => Sys2Proof.Machine.execFinish a s
  | .localRd a => Sys2Proof.Machine.execLocalRd a s
  | .localWr a => Sys2Proof.Machine.execLocalWr a s
  | .adRead a => Sys2Proof.Machine.execAdRead a s
  | .adWrite a => Sys2Proof.Machine.execAdWrite a s
  | .slice a => Sys2Proof.Machine.execSlice a s
  | .hash a => Sys2Proof.Machine.execHash a s
  | .poolGet a => Sys2Proof.Machine.execPoolGet a s
  | .poolPut a => Sys2Proof.Machine.execPoolPut a s
  | .release a => Sys2Proof.Machine.execRelease a s
  | .count a => Sys2Proof.Machine.execCount a s
  | .emit a => Sys2Proof.Machine.execEmit a s
  | .memOpComplete id tag => Sys2Proof.Machine.execMemOpComplete id tag s
  | .yieldPoint a => Sys2Proof.Machine.execYieldPoint a s
  | .awlPairMismatch a => Sys2Proof.Machine.execAwlPairMismatch a s
  | .itemFault a => Sys2Proof.Machine.execItemFault a s
  | .closerApply => Sys2Proof.Machine.execCloserApply s
  | .classAgeAlarm k => Sys2Proof.Machine.execClassAgeAlarm k s
  | .awlTimer reclaim n domain => Sys2Proof.Machine.execAwlTimer reclaim n domain s
  | .heelPageWrite u => Sys2Proof.Machine.execHeelPageWrite u s
  | .heelPageRead u bad => Sys2Proof.Machine.execHeelPageRead u bad s
  | .dequeue e full bad => Sys2Proof.Machine.execDequeue e full bad s
  | .xbarArbitrate e => Sys2Proof.Machine.execXbarArbitrate e s
  | .xbarWeightUpdate e => Sys2Proof.Machine.execXbarWeightUpdate e s
  | .editor p => Sys2Proof.Machine.execEditor p s
  | .editEnd p => Sys2Proof.Machine.execEditEnd p s
  | .set p => Sys2Proof.Machine.execSet p s
  | .add p => Sys2Proof.Machine.execAdd p s
  | .decTtl p => Sys2Proof.Machine.execDecTtl p s
  | .push p => Sys2Proof.Machine.execPush p s
  | .pop p => Sys2Proof.Machine.execPop p s
  | .copy p => Sys2Proof.Machine.execCopy p s
  | .fixlen p => Sys2Proof.Machine.execFixlen p s
  | .xlate p => Sys2Proof.Machine.execXlate p s
  | .tcCorr p => Sys2Proof.Machine.execTcCorr p s
  | .frameTransmit q reached cut => Sys2Proof.Machine.execFrameTransmit q reached cut s
  | .mcReplicate d => Sys2Proof.Machine.execMcReplicate d s
  | .mcResidueRetry d => Sys2Proof.Machine.execMcResidueRetry d s
  | .mcResidueExpiry d => Sys2Proof.Machine.execMcResidueExpiry d s
  | .bufferScrub h hits => Sys2Proof.Machine.execBufferScrub h hits s
  | .bufferOnlineBist h failed => Sys2Proof.Machine.execBufferOnlineBist h failed s
  | .meterRequest b lost => Sys2Proof.Machine.execMeterRequest b lost s
  | .meterBacklogAlarm b => Sys2Proof.Machine.execMeterBacklogAlarm b s
  | .bucketRefresh => Sys2Proof.Machine.execBucketRefresh s
  | .queueSample e => Sys2Proof.Machine.execQueueSample e s
  | .bringupSuccess k partner partnerFec partnerEee => Sys2Proof.Machine.execBringupSuccess k partner partnerFec partnerEee s
  | .bringupTimeout k lane stage => Sys2Proof.Machine.execBringupTimeout k lane stage s
  | .retryTimer k => Sys2Proof.Machine.execRetryTimer k s
  | .upStable k => Sys2Proof.Machine.execUpStable k s
  | .localFault k cause los => Sys2Proof.Machine.execLocalFault k cause los s
  | .remoteFault k => Sys2Proof.Machine.execRemoteFault k s
  | .remoteFaultClear k ns => Sys2Proof.Machine.execRemoteFaultClear k ns s
  | .portEnableWrite q on => Sys2Proof.Machine.execPortEnableWrite q on s
  | .fecDegradeWindow k corrected bad blocks syms => Sys2Proof.Machine.execFecDegradeWindow k corrected bad blocks syms s
  | .lpiEnter q => Sys2Proof.Machine.execLpiEnter q s
  | .lpiWake q => Sys2Proof.Machine.execLpiWake q s
  | .mgmtFrameReceive bytes => Sys2Proof.Machine.execMgmtFrameReceive bytes s
  | .mgmtStatRead sub => Sys2Proof.Machine.execMgmtStatRead sub s
  | .flexeOhFrame m n f => Sys2Proof.Machine.execFlexeOhFrame m n f s
  | .flexeMultiframe g bips lost idles => Sys2Proof.Machine.execFlexeMultiframe g bips lost idles s
  | .flexeCaTimeout g => Sys2Proof.Machine.execFlexeCaTimeout g s
  | .flexeRealign g arrivals => Sys2Proof.Machine.execFlexeRealign g arrivals s
  | .seamHelloReceived u m => Sys2Proof.Machine.execSeamHelloReceived u m s
  | .seamReportReceived u m own => Sys2Proof.Machine.execSeamReportReceived u m own s
  | .seamNegotiateTimeout g => Sys2Proof.Machine.execSeamNegotiateTimeout g s
  | .seamReportTimeout g => Sys2Proof.Machine.execSeamReportTimeout g s
  | .seamRetry g => Sys2Proof.Machine.execSeamRetry g s
  | .pmSecond => Sys2Proof.Machine.execPmSecond s
  | .pmBinClose e => Sys2Proof.Machine.execPmBinClose e s
  | .hbmRequestIssue n hit parity => Sys2Proof.Machine.execHbmRequestIssue n hit parity s
  | .hbmAgePromotion n => Sys2Proof.Machine.execHbmAgePromotion n s
  | .hbmReadComplete n words => Sys2Proof.Machine.execHbmReadComplete n words s
  | .hbmRefresh n bank => Sys2Proof.Machine.execHbmRefresh n bank s
  | .hbmRetrain pass => Sys2Proof.Machine.execHbmRetrain pass s
  | .hbmReadTimeout n => Sys2Proof.Machine.execHbmReadTimeout n s
  | .patrolScrub a w overtaken last => Sys2Proof.Machine.execPatrolScrub a w overtaken last s
  | .hbmStackTemperature st t => Sys2Proof.Machine.execHbmStackTemperature st t s
  | .rxDeliver r => Sys2Proof.Machine.execRxDeliver r s
  | .rxBufferRetry r => Sys2Proof.Machine.execRxBufferRetry r s
  | .rxNobufTimeout r => Sys2Proof.Machine.execRxNobufTimeout r s
  | .txPipeline r ds held => Sys2Proof.Machine.execTxPipeline r ds held s
  | .txDirect r ds held => Sys2Proof.Machine.execTxDirect r ds held s
  | .txGroup r ds held => Sys2Proof.Machine.execTxGroup r ds held s
  | .dmaDescriptor c desc host fail => Sys2Proof.Machine.execDmaDescriptor c desc host fail s
  | .dmaComplete c => Sys2Proof.Machine.execDmaComplete c s
  | .get requester len mask => Sys2Proof.Machine.execGet requester len mask s
  | .share requester a sharer => Sys2Proof.Machine.execShare requester a sharer s
  | .bufferRelease requester a => Sys2Proof.Machine.execBufferRelease requester a s
  | .handover requester a owner => Sys2Proof.Machine.execHandover requester a owner s
  | .free requester a => Sys2Proof.Machine.execFree requester a s
  | .todAnchor => Sys2Proof.Machine.execTodAnchor s
  | .todStale => Sys2Proof.Machine.execTodStale s
  | .todSet sec ns => Sys2Proof.Machine.execTodSet sec ns s
  | .servoOffsetWrite theta => Sys2Proof.Machine.execServoOffsetWrite theta s
  | .ppsInEdge => Sys2Proof.Machine.execPpsInEdge s
  | .ppsInLost => Sys2Proof.Machine.execPpsInLost s
  | .servoHoldover => Sys2Proof.Machine.execServoHoldover s
  | .servoReset => Sys2Proof.Machine.execServoReset s
  | .ppsOutRise => Sys2Proof.Machine.execPpsOutRise s
  | .ppsOutFall => Sys2Proof.Machine.execPpsOutFall s
  | .chainWrite c v => Sys2Proof.Machine.execChainWrite c v s
  | .counterRestart id => Sys2Proof.Machine.execCounterRestart id s
  | .dumpSnapshot => Sys2Proof.Machine.execDumpSnapshot s
  | .dumpNow => Sys2Proof.Machine.execDumpNow s
  | .dumpWrite => Sys2Proof.Machine.execDumpWrite s
  | .bwWindow q => Sys2Proof.Machine.execBwWindow q s
  | .ipfixFlush st => Sys2Proof.Machine.execIpfixFlush st s
  | .templateRefresh st => Sys2Proof.Machine.execTemplateRefresh st s
  | .statsInterval st => Sys2Proof.Machine.execStatsInterval st s
  | .domainSleep d => Sys2Proof.Machine.execDomainSleep d s
  | .domainWake d => Sys2Proof.Machine.execDomainWake d s
  | .wakeAdmit => Sys2Proof.Machine.execWakeAdmit s
  | .wakeDelayed d => Sys2Proof.Machine.execWakeDelayed d s
  | .powerDmaAbort c d => Sys2Proof.Machine.execPowerDmaAbort c d s
  | .heartbeat back parity => Sys2Proof.Machine.execHeartbeat back parity s
  | .heartbeatTimeout key => Sys2Proof.Machine.execHeartbeatTimeout key s
  | .clockFault clock cause => Sys2Proof.Machine.execClockFault clock cause s
  | .envSample kind n v => Sys2Proof.Machine.execEnvSample kind n v s
  | .sramScrub mem errs => Sys2Proof.Machine.execSramScrub mem errs s
  | .patternRecheck bad => Sys2Proof.Machine.execPatternRecheck bad s
  | .d2dCrcError link again => Sys2Proof.Machine.execD2dCrcError link again s
  | .faultDetected k code ps f drops => Sys2Proof.Machine.execFaultDetected k code ps f drops s
  | .faultNPulseEnd => Sys2Proof.Machine.execFaultNPulseEnd s
  | .faultAck v => Sys2Proof.Machine.execFaultAck v s
  | .safeStopInput ns => Sys2Proof.Machine.execSafeStopInput ns s
  | .rollbackAdvance v => Sys2Proof.Machine.execRollbackAdvance v s
  | .ownerFuse h => Sys2Proof.Machine.execOwnerFuse h s
  | .mgmtLink up => Sys2Proof.Machine.execMgmtLink up s
  | .refclkReturn => Sys2Proof.Machine.execRefclkReturn s
  | .powerUp => Sys2Proof.Machine.execPowerUp s
  | .rxLpi q enter => Sys2Proof.Machine.execRxLpi q enter s
  | .longopUnitDone n u => Sys2Proof.Machine.execLongopUnitDone n u s

end Sys2Proof.Machine
end

