-- ==== Sys2Proof/Machine/Step.lean ====
section
/-! DEFINITION. A step takes the command at the front of the queue; on an empty queue one TCLK cycle passes. -/
namespace Sys2Proof.Machine

/-- One step. An empty queue lets one TCLK cycle pass (R405), with the wakes that end in it.
(DESIGN CHOICE, log entry 1; DESIGN CHOICE, log entry 103) -/
def step (s : State) : Host.Outcome State Fault Refusal :=
  match s.pending with
  | [] => .next (reviewGuarantee (idle s))
  | c :: rest => exec c { s with pending := rest }

/-- The state with the command that a word spells at the front of its queue. (DEDUCED, log entry 7) -/
def State.withFetchWord (s : State) (nbits w : Nat) : State :=
  match decodeTableWord nbits w with
  | some c => { s with pending := c :: s.pending }
  | none => s

end Sys2Proof.Machine
end

