-- ==== Sys2Proof/Safety.lean ====
section
/-! DEFINITION. The terms in which statements speak of states: what a report of an event leaves, the device held in
reset, what survives a reset, and the invariants of the machine. -/
namespace Sys2Proof.Machine

/-- t holds the host interface and the counters that raising the event on s leaves (R382 to R384). -/
def Reports (code : Nat) (ps : List Nat) (fault : Bool) (s t : State) : Prop :=
  t.host = (raise code ps s fault).host ∧ t.cnt = (raise code ps s fault).cnt

/-- What R445 says of the device while RESET_N or PWR_OK is low. -/
structure HeldInReset (t : State) : Prop where
  transmitters : ∀ k, (link t k).state = 0
  pps : t.time.ppsOut = false
  recovered : ∀ i, tget 0 t.time.recclk i = 0
  fault : faultN t = false
  safeStop : t.safe.safeStop = false
  pcie : t.host.rate = 0 ∧ t.host.training = false
  cobbler : t.safe.cobblerReady = false
  outputs : t.safe.outputsStarted = false ∧ t.safe.patternActive = false

/-- The fuses, what flash holds, host memory, and the model's own queue and draws are those of s. -/
structure KeepsNonvolatile (s t : State) : Prop where
  fuses : t.safe.rollback = s.safe.rollback ∧ t.safe.ownerHash = s.safe.ownerHash ∧
    t.safe.revoked = s.safe.revoked ∧ t.safe.patchKey = s.safe.patchKey
  firmware : t.safe.flashA = s.safe.flashA ∧ t.safe.flashB = s.safe.flashB
  board : t.safe.ownerKey = s.safe.ownerKey ∧ t.safe.boardMgmt = s.safe.boardMgmt
  keys : t.ctl.keys = s.ctl.keys
  bootArea : t.ctl.bootImage = s.ctl.bootImage ∧ t.ctl.bootMarker = s.ctl.bootMarker
  hostMemory : t.host.mem = s.host.mem
  queue : t.pending = s.pending ∧ t.free = s.free

/-- The fuses of t are those of s, but that the rollback count may have been raised and a blank owner hash fused
(R451 to R453). -/
structure FusesOnlyBurn (s t : State) : Prop where
  rollback : s.safe.rollback ≤ t.safe.rollback
  owner : ∀ h, s.safe.ownerHash = some h → t.safe.ownerHash = some h
  revoked : t.safe.revoked = s.safe.revoked
  patchKey : t.safe.patchKey = s.safe.patchKey

/-- The mailbox holds a request of the given type, subcommand, staged bit and body that waits to be executed and is not
under way already, the firmware runs, and the request is whole (R41, R46). -/
abbrev MailboxRequest (s : State) (ty sub : Nat) (staged : Bool) (body : Bytes) : Prop :=
  s.ctl.mbx.busy = true ∧ mbxPending s = false ∧ s.safe.cobblerReady = true ∧ s.safe.bootState ≠ 2 ∧ msgType (mbxMsg s) = ty ∧
  msgSub (mbxMsg s) = sub ∧ msgStaged (mbxMsg s) = staged ∧ msgLen (mbxMsg s) ≤ 4079 ∧ msgBody (mbxMsg s) = body

/-- The mailbox has given the answer a to the request of s: done is set, busy is clear, and the tag is the host's
(R46, R47). -/
def MailboxAnswered (s t : State) (a : Answer) : Prop :=
  t.ctl.mbx = { s.ctl.mbx with
    answer := answerMsg (mbxMsg s) a, statusTag := s.ctl.mbx.goTag, done := true, busy := false }

/-- Outside the mailbox and the host interface (an MSI-X message may be sent), t is u. -/
def AnswerOnly (t u : State) : Prop := t = { u with ctl := { u.ctl with mbx := t.ctl.mbx }, host := t.host }

/-- j' is the edit job j after an instruction that wrote v into the field of wd bits at byte pos, bit bo: no byte
outside the field's bytes changes but the checksums that the editor maintains (R96, R98). -/
structure FieldWritten (j j' : EditJob) (pos bo wd v : Nat) : Prop where
  only : j' = { j with frame := j'.frame, pc := j.pc + 1, done := decide (15 ≤ j.pc) }
  length : j'.frame.length = j.frame.length
  field : (∀ c ∈ j.csums, c.at_ + 2 ≤ pos ∨ pos + fieldBytes bo wd ≤ c.at_) →
    readField j' pos bo wd = some (v % 2 ^ wd) ∧ readField j' pos 0 bo = readField j pos 0 bo ∧
    readField j' pos (bo + wd) (8 * fieldBytes bo wd - bo - wd) = readField j pos (bo + wd) (8 * fieldBytes bo wd - bo - wd)
  others : ∀ k, k < pos ∨ pos + fieldBytes bo wd ≤ k → (∀ c ∈ j.csums, k ≠ c.at_ ∧ k ≠ c.at_ + 1) →
    j'.frame.getD k 0 = j.frame.getD k 0

/-- Packet pid heads pipeline p's retire stage and waits for no other; its answer and colour are in, and its stages neither drop, trap, mirror,
meter nor recirculate it, so that step 6 forwards it (R95, R107). -/
abbrev ReadyToForward (s : State) (p pid : Nat) (rest : List Nat) : Prop :=
  retireQ s p = pid :: rest ∧ isExpired s pid = false ∧ retireWaits s p = false ∧ s.path.parked = [] ∧
  (pkt s pid).barred = false ∧
  ((pkt s pid).parse.map fun w => bit w.word fMalformed).getD false = false ∧
  (pkt s pid).flow = 0 ∧ (pkt s pid).colour = 0 ∧ (pkt s pid).answer = none ∧ (pkt s pid).release = none ∧
  (pkt s pid).fall = none ∧ (merged (pkt s pid)).trap = false ∧ (merged (pkt s pid)).verdict ≠ 2 ∧
  (merged (pkt s pid)).recirc = false ∧ (merged (pkt s pid)).mirror = 0 ∧ (merged (pkt s pid)).meter = 0 ∧
  tsorted s.path.pkts = true

/-- The mailbox holds a whole TABLE_CMD request of a header and a payload (R122, R380). -/
abbrev TableRequest (s : State) (h : Nat) (staged : Bool) (payload : Bytes) : Prop :=
  h < 2 ^ 64 ∧ MailboxRequest s 0x40 0 staged (leBytes 8 h ++ payload)

/-- The live tables of 32-bit to 512-bit entries in the forwarding part, each with its reserved field (Tables 4-2 to 4-6,
8-3, 8-4). -/
def liveTables : List (Nat × Nat × Nat) :=
  [(1, 205, 128), (2, 91, 0), (3, 31, 24), (4, 24, 0), (5, 69, 0), (6, 30, 20), (8, 31, 0), (9, 17, 10)]

/-- The live forwarding tables list each key once and no default entry. -/
def LiveTablesCanonical (f : Forward) : Prop :=
  tcanon 0 f.lpm = true ∧ tcanon 0 f.nh = true ∧ tcanon 0 f.ecmp = true ∧ tcanon 0 f.lbService = true ∧
  tcanon 0 f.lbBackend = true ∧ tcanon 0 f.lbSlot = true ∧ tcanon 0 f.mcGroup = true ∧ tcanon 0 f.mcTarget = true

/-- Packet pid stands first in slice n's lookups, with key k, no earlier request for its record is under way, and nothing
keeps the slice from serving it. -/
abbrev LookupNext (s : State) (n pid : Nat) (k : BitVec 384) (rest : List Nat) : Prop :=
  flowHalted s = false ∧ sliceAsleep s n = false ∧ sliceReqs s n = pid :: rest ∧ lookupReady s n = some pid ∧ (pkt s pid).key = some k ∧
  isExpired s pid = false ∧ n < 16 ∧ (pkt s pid).pipe < 16

/-- Packet pid has not retired: a release leaves it to take its turn in its pipeline's retire stage (R18). -/
abbrev Unretired (s : State) (pid : Nat) : Prop :=
  isExpired s pid = false ∧ (pkt s pid).place ≠ 3 ∧ (retireQ s (pkt s pid).pipe).contains pid = true ∧ (pkt s pid).pipe < 16

/-- Awl a runs context c in its slot l, at the word w, whose memory operation, if it has one, is issued. -/
abbrev AtWord (s : State) (a l : Nat) (c : Ctx) (w : BitVec 192) : Prop :=
  running s a = some (l, c) ∧ wordOf s c = w ∧ (hasMop w = false ∨ c.issued = true) ∧ c.item.routine < 256 ∧
  tsorted s.aw.awls = true

/-- t differs from s only in the cluster, in slot l of awl a and in what counts words, waits and parks. -/
abbrev OnlySlot (s t : State) (a l : Nat) : Prop :=
  t = { s with free := t.free, aw := t.aw, cnt := { s.cnt with ctr := t.cnt.ctr } } ∧ (∀ b, b ≠ a → awl t b = awl s b) ∧
  slotCtx (awl t a) (1 - l) = slotCtx (awl s a) (1 - l) ∧ t.aw.ready = s.aw.ready ∧ t.aw.front = s.aw.front ∧
  t.aw.domains = s.aw.domains ∧ t.aw.patchRam = s.aw.patchRam ∧ t.aw.matchReg = s.aw.matchReg

end Sys2Proof.Machine
end

