-- ==== Sys2Proof/Certificates/Slice0/Obligations.lean ====
section
/-! DEFINITION. The statements for the provers. -/

open Sys2Proof Sys2Proof.Machine

/-- For every command c and every state whose queue has c at its front, a step is exec of c on the state with the
queue's rest. The queue is the model's own (log entry 1). -/
def Obligations.StepRunsFront : Prop :=
  ∀ (s : State) (c : Instr) (rest : List Instr),
    s.pending = c :: rest → step s = exec c { s with pending := rest }

/-- On an empty queue, with the clocks running, neither REFCLK nor TCLK lost, no wake under way, and sf.guarantee up
to date, a step answers the state one TCLK cycle later: the raw cycle count is one higher, the nanosecond
counter is inc higher, the millisecond counter is one higher after every 800,000 cycles, and nothing else
changes. That an empty queue is a tick is the model's choice (log entry 1); the advance is R405's. -/
def Obligations.EmptyQueueTicks : Prop :=
  ∀ s : State, s.pending = [] → s.safe.clocks = true → s.safe.refclkLost = false → s.safe.tclkLost = false →
    s.safe.admitted = [] → guaranteeNow s = s.safe.guarantee.toNat →
    ∃ t, step s = .next t ∧ t.time.raw = s.time.raw + 1 ∧ t.time.counter = s.time.counter + BitVec.ofNat 80 s.time.inc ∧
      t.time.ms = (if (s.time.raw + 1).toNat % 800000 = 0 then s.time.ms + 1 else s.time.ms) ∧
      t = { s with time := { s.time with raw := t.time.raw, counter := t.time.counter, ms := t.time.ms } }

/-- Raising an event while REFCLK is present: only the host interface and counter values change, and the sequence
number of the event's queue advances by one, modulo 2^32. A queue that is enabled, not stopped and not full,
with the link up, gets the 64-byte record: PROD advances by one and the count of lost records is cleared; with
the shadow off and the vector masked, host memory changes by the record at the producer's slot alone. Any other
queue gets nothing: its lost count and its discarded counter grow by one. -/
def Obligations.EventRecordOrDiscard : Prop :=
  ∀ (c : Nat) (ps : List Nat) (f : Bool) (s : State), s.safe.refclkLost = false →
    let q := eventQueue s c f
    let r := ring s (evKey q)
    let t := raise c ps s f
    let rec_ := eventBytes c f (phaseOf r) (tget 0 s.host.evLost q) (tget 0 s.host.evSeq q) ((tod s).1 % 2 ^ 32) (tod s).2 ps
    t = { s with host := t.host, cnt := { s.cnt with ctr := t.cnt.ctr } } ∧
    t.host.evSeq = tset 0 s.host.evSeq q ((tget 0 s.host.evSeq q + 1) % 2 ^ 32) ∧
    ((r.enable = true ∧ r.stopped = false ∧ s.host.rate ≠ 0 ∧ ringFill r < ringSize r) →
      (ring t (evKey q)).prod = r.prod + 1 ∧ t.host.evLost = tset 0 s.host.evLost q 0 ∧ t.cnt = s.cnt ∧
      (r.shadowEn = false → bit (tget msixReset s.host.msix r.vector.toNat).ctrl 0 = true →
        t.host.mem = writeBytes s.host.mem (r.base.toNat + 64 * (r.prod.toNat % ringSize r)) rec_)) ∧
    (¬ (r.enable = true ∧ r.stopped = false ∧ s.host.rate ≠ 0 ∧ ringFill r < ringSize r) →
      t.host.evLost = tset 0 s.host.evLost q (tget 0 s.host.evLost q + 1) ∧
      t.cnt = (count 0x6812 q 0 s).cnt ∧ t.host.mem = s.host.mem ∧ t.host.rings = s.host.rings)

/-- A whole mailbox READ request that names one object that exists and is not write-only, whose answer fits, is
answered OK with the entry word (length, type, address) and the value padded to 8 bytes; done is set, busy
cleared, the tag returned; and outside the mailbox, the host interface and the effect that reading the object
has, nothing changes. A READ of an address that names no object answers NOT_FOUND with entry 0. -/
def Obligations.MailboxReadAnswersValue : Prop :=
  (∀ (s : State) (a : Nat) (row : ObjRow), a < 2 ^ 36 → MailboxRequest s 0x10 0 false (leBytes 8 a) → objRow a = some row →
      row.access ≠ 3 → 8 + (padMul 8 (objValue a s)).length ≤ 4079 →
    ∃ t, exec (.read .mailbox) s = .next t ∧
      MailboxAnswered s t
        { status := stOk, body := entryWord (objValue a s).length row.ty false a ++ padMul 8 (objValue a s) } ∧
      AnswerOnly t (readEffect a s)) ∧
  (∀ (s : State) (a : Nat), a < 2 ^ 36 → MailboxRequest s 0x10 0 false (leBytes 8 a) → objRow a = none →
    ∃ t, exec (.read .mailbox) s = .next t ∧ MailboxAnswered s t (refuse stNotFound 0) ∧ AnswerOnly t s)

/-- A whole mailbox WRITE request of one object that every check of R40 passes is answered OK. A value is stored
with its reserved fields 0. Live, a read-write object of the active slot other than an access key takes the
value, one live edit is counted, and the staged, previous and boot slots do not change; staged, the staged slot
takes the value and is EDITING, the generation advances, and the active, previous and boot slots do not change.
A WRITE that a check refuses answers the status of the first check that fails, and changes nothing outside the
mailbox and the host interface. A live write of an existing object of access RWS by an ADMIN over version 2 is
refused with STOP_REQUIRED, whatever the value. -/
def Obligations.MailboxWriteStoresOrRefuses : Prop :=
  (∀ (s : State) (a ty : Nat) (v : Bytes) (staged : Bool) (row : ObjRow), a < 2 ^ 36 → ty < 256 → v.length < 4000 →
       MailboxRequest s 0x11 0 staged (entryWord v.length ty false a ++ padMul 8 v) → s.ctl.commit = none →
       (workOf s 0).segWrite = none → objRow a = some row → oaIndex a ≠ 0x1020 →
     let r : Req := { who := 0, role := 2, v1 := false, limit := 4079, msg := mbxMsg s }
     ∃ t, exec (.write .mailbox) s = .next t ∧
       (writeRefused r staged a ty v s = stOk → MailboxAnswered s t { status := stOk } ∧
         t.ctl.previous = s.ctl.previous ∧ t.ctl.boot = s.ctl.boot ∧
         (staged = false → t.ctl.staged = s.ctl.staged ∧ t.ctl.generation = s.ctl.generation ∧
           t.ctl.liveEdits = s.ctl.liveEdits + 1 ∧ (row.access = 1 → tfind t.ctl.active.objs a = some (objClean a v))) ∧
         (staged = true → t.ctl.active = s.ctl.active ∧ t.ctl.generation = s.ctl.generation + 1 ∧ t.ctl.staged.state = 1 ∧
           tfind t.ctl.staged.objs a = some (objClean a v))) ∧
       (writeRefused r staged a ty v s ≠ stOk →
         MailboxAnswered s t (refuse (writeRefused r staged a ty v s) 0) ∧ AnswerOnly t s)) ∧
  (∀ (s : State) (r : Req) (a ty : Nat) (v : Bytes) (row : ObjRow), objRow a = some row → row.access = 2 → r.role = 2 →
     r.v1 = false → oaIndex a ≠ 0x1318 → writeRefused r false a ty v s = stStopRequired)

/-- A whole mailbox DESCRIBE of an existing object answers OK with its type, access, class and flags first; a LIST
answers OK with the count of the addresses it returns first, at most 128; a READ_IMAGE of the active slot, when
it is not EMPTY, at offset 0, answers OK with the image's length first and keeps the image as the mailbox's
snapshot. None of them changes the pattern slots, and the first two change nothing outside the mailbox and the
host interface. -/
def Obligations.DescribeListReadImageAnswer : Prop :=
  (∀ (s : State) (a : Nat) (row : ObjRow), a < 2 ^ 36 → MailboxRequest s 0x12 0 false (leBytes 8 a) → objRow a = some row →
    ∃ t rest, exec (.describe .mailbox) s = .next t ∧ AnswerOnly t s ∧
      (let b := leBytes 1 row.ty ++ leBytes 1 row.access ++ leBytes 1 (b2n row.stop) ++ leBytes 1 (b2n (limitPair row).isSome)
       MailboxAnswered s t { status := stOk, body := b ++ rest })) ∧
  (∀ (s : State) (a b : Nat), a < 2 ^ 36 → b < 2 ^ 36 → MailboxRequest s 0x13 0 false (leBytes 8 a ++ leBytes 8 b) →
    ∃ t n rest, n ≤ 128 ∧ exec (.list .mailbox) s = .next t ∧ AnswerOnly t s ∧
      MailboxAnswered s t { status := stOk, body := leBytes 4 n ++ rest }) ∧
  (∀ s : State, MailboxRequest s 0x20 5 false (List.replicate 8 0) → s.ctl.active.state ≠ 0 →
    let img := slotImage s.ctl.active (bankOf s s.ctl.epoch)
    ∃ t a, exec (.readImage .mailbox) s = .next t ∧ MailboxAnswered s t a ∧ a.status = stOk ∧
      a.body.take 4 = leBytes 4 img.length ∧ (workOf t 0).snapshot = some (0, img) ∧
      t.ctl.active = s.ctl.active ∧ t.ctl.staged = s.ctl.staged ∧ t.ctl.previous = s.ctl.previous ∧ t.ctl.boot = s.ctl.boot)

/-- With no commit and no drain: a first and last LOAD segment of at least 32 bytes makes the staged slot EDITING
with the version of the image's header and advances the generation; COPY gives the staged slot the active slot's
objects and the free bank the active bank's tables, EDITING, and advances the generation. VALIDATE, with no LOAD
in progress, makes the staged slot VALID when no check of Table 2-10 fails, and INVALID, with pat.last_reject
set to the code of the first that fails, otherwise. The active, previous and boot slots do not change. With no
commit, no drain and no unfinished operation: a COMMIT that names the staged generation of a VALID staged slot,
and a REVERT of a VALID previous slot, each begin a commit of that slot that has neither been announced nor
reached T0, and change nothing else: the mailbox stays busy until step 6. A COMMIT that names another
generation, or of a slot that is not VALID, answers INVALID and begins nothing. -/
def Obligations.PatternCommands : Prop :=
  ((∀ (s : State) (img : Bytes), MailboxRequest s 0x20 0 false (List.replicate 8 0 ++ img) → msgLast (mbxMsg s) = true →
       32 ≤ img.length → s.ctl.commit = none → s.ctl.drain = none →
     ∃ t, exec (.load .mailbox) s = .next t ∧ t.ctl.staged.state = 1 ∧
       t.ctl.staged.version = (parseImage img).1.version ∧ t.ctl.generation = s.ctl.generation + 1 ∧
       t.ctl.active = s.ctl.active ∧ t.ctl.previous = s.ctl.previous ∧ t.ctl.boot = s.ctl.boot) ∧
   (∀ s : State, MailboxRequest s 0x20 4 false [] → s.ctl.commit = none → s.ctl.drain = none →
     ∃ t, exec (.patternCopy .mailbox) s = .next t ∧ t.ctl.staged.state = 1 ∧ t.ctl.staged.objs = s.ctl.active.objs ∧
       freeBank t = bankOf s s.ctl.epoch ∧ t.ctl.generation = s.ctl.generation + 1 ∧
       t.ctl.active = s.ctl.active ∧ t.ctl.previous = s.ctl.previous ∧ t.ctl.boot = s.ctl.boot) ∧
   (∀ s : State, MailboxRequest s 0x20 1 false [] → s.ctl.loadOpen = false →
     let code := validateCode s.ctl.staged (freeBank s) s
     ∃ t, exec (.validate .mailbox) s = .next t ∧
       (code = 0 → t.ctl.staged = { s.ctl.staged with state := 2 } ∧ t.ctl.lastReject = s.ctl.lastReject) ∧
       (code ≠ 0 → t.ctl.staged = { s.ctl.staged with state := 3 } ∧ t.ctl.lastReject = code) ∧
       t.ctl.generation = s.ctl.generation ∧
       t.ctl.active = s.ctl.active ∧ t.ctl.previous = s.ctl.previous ∧ t.ctl.boot = s.ctl.boot)) ∧
  ((∀ s : State, MailboxRequest s 0x20 2 false (leBytes 4 s.ctl.generation.toNat) → s.ctl.staged.state = 2 →
       s.ctl.commit = none → s.ctl.drain = none → s.ctl.ops = [] →
     ∃ c, exec (.commit .mailbox) s = .next { s with ctl := { s.ctl with commit := some c } } ∧
       c.revert = false ∧ c.begun = false ∧ c.announced = false ∧ c.newSlot = s.ctl.staged ∧ c.newTables = freeBank s ∧
       c.accepted = raw s) ∧
   (∀ s : State, MailboxRequest s 0x20 3 false [] → s.ctl.previous.state = 2 →
       s.ctl.commit = none → s.ctl.drain = none → s.ctl.ops = [] →
     ∃ c, exec (.revert .mailbox) s = .next { s with ctl := { s.ctl with commit := some c } } ∧
       c.revert = true ∧ c.begun = false ∧ c.announced = false ∧ c.newSlot = s.ctl.previous ∧
       c.newTables = s.ctl.previous.tables) ∧
   (∀ (s : State) (g : Nat), g < 2 ^ 32 → MailboxRequest s 0x20 2 false (leBytes 4 g) →
       (s.ctl.staged.state ≠ 2 ∨ g ≠ s.ctl.generation.toNat) →
     ∃ t, exec (.commit .mailbox) s = .next t ∧ MailboxAnswered s t (refuse stInvalid 0) ∧ AnswerOnly t s))

/-- An accepted commit whose changed pipelines each hold at most 8,192 descriptors is announced for an instant at
least 2 us ahead, and nothing else changes. One with a changed pipeline that holds more for 2 ms ends with BUSY,
detail 3, and no commit is left. At T0 the epoch advances by one modulo 4 exactly when a banked table changes, a
drain of the old epoch then begins, the bank of the active epoch holds the committed tables where they change or
the commit is the boot's, every function of the change set but ports and FlexE groups enters its stop, and the
active slot's objects do not change yet. A stopped function that restarts outside a commit leaves the list of
stopped functions. -/
def Obligations.CommitReachesT0 : Prop :=
  (∀ (s : State) (c : Commit) (t0 : Nat), s.ctl.commit = some c → c.announced = false → s.safe.cobblerReady = true →
      raw s + cyc 2000 ≤ t0 → (∀ p ∈ c.fns.flatMap fnPipelines, (hdrFifo s p).length ≤ 8192) →
    exec (.commitBacklogReady t0) s =
      .next { s with ctl := { s.ctl with commit := some { c with announced := true, t0 := t0 } } }) ∧
  (∀ (s : State) (c : Commit), s.ctl.commit = some c → c.announced = false → c.op = none → c.asker.who = 0 →
      c.accepted + cyc 2000000 ≤ raw s → (∃ p ∈ c.fns.flatMap fnPipelines, 8192 < (hdrFifo s p).length) →
    ∃ t, exec .commitBacklogTimeout s = .next t ∧ t.ctl.commit = none ∧ t.ctl.mbx.busy = false ∧
      t.ctl.mbx.answer = answerMsg c.asker.msg (refuse stBusy 3) ∧ t.ctl.active = s.ctl.active ∧ t.ctl.epoch = s.ctl.epoch) ∧
  (∀ (s : State) (c : Commit), s.ctl.commit = some c → c.announced = true → c.begun = false → c.t0 ≤ raw s →
    ∃ t, exec .commitStopInstant s = .next t ∧ t.ctl.active = s.ctl.active ∧ t.ctl.staged = s.ctl.staged ∧
      t.ctl.epoch = (if c.advance then (s.ctl.epoch + 1) % 4 else s.ctl.epoch) ∧
      t.ctl.drain = (if c.advance then some { old := s.ctl.epoch, since := raw s } else s.ctl.drain) ∧
      (c.advance = true ∨ c.boot = true →
        bankOf t t.ctl.epoch = { c.newTables with stage := stageOf c.newSlot }) ∧
      (∀ f ∈ c.fns, linkFn f = false → (f, raw s) ∈ t.ctl.stopped) ∧
      (∃ d, t.ctl.commit = some d ∧ d.begun = true ∧ d.newSlot = c.newSlot)) ∧
  (∀ (s : State) (n : Nat), s.ctl.commit = none → s.ctl.stopped = [(.switchCore, n)] →
    exec (.lastingRestart .switchCore) s = .next { s with ctl := { s.ctl with stopped := [] } })

/-- Once every fast function of a commit past T0 has restarted and the Cobbler runs, COMMIT_ANSWER ends the commit:
the committed objects are active; for a commit the staged slot holds the same objects and the generation is 0,
for a REVERT the staged slot keeps its objects and is EDITING, and where the banked tables change it is the
signed image no more; the previous slot is the old active slot, or EMPTY after the first commit of a pattern;
the count of live edits is 0; pattern_active is as before, and set by a boot commit. A drain with no packet of
the old epoch left ends: the old bank takes the active bank's tables, but that the stages whose profile or units
the staged pattern changes hold zeros, and the epoch does not change. One that has lasted pat.drain.timeout ends
too, with no packet of the old epoch counted any more. While packets are left, EPOCH_DRAIN_END changes nothing. -/
def Obligations.CommitRotatesSlotsAndEpochDrains : Prop :=
  (∀ (s : State) (c : Commit), s.ctl.commit = some c → c.begun = true → fastLeft s = false → s.safe.cobblerReady = true →
     ∃ t, exec .commitAnswer s = .next t ∧ t.ctl.commit = none ∧ t.ctl.liveEdits = 0 ∧
       t.ctl.active.objs = c.newSlot.objs ∧ t.ctl.active.version = c.newSlot.version ∧
       (c.revert = false → t.ctl.staged.objs = c.newSlot.objs ∧ t.ctl.generation = 0 ∧
         t.ctl.previous = if c.boot then emptySlot else c.oldSlot) ∧
       (c.revert = true → t.ctl.staged = { s.ctl.staged with
           state := 1, signature := if c.advance then [] else s.ctl.staged.signature } ∧ t.ctl.previous = c.oldSlot) ∧
       t.safe.patternActive = (s.safe.patternActive || c.boot)) ∧
  ((∀ (s : State) (d : Drain), s.ctl.drain = some d → tget 0 s.ctl.epochCount d.old = 0 →
     ∃ t, exec .epochDrainEnd s = .next t ∧ t.ctl.drain = none ∧ bankOf t d.old = zeroChanged s (bankOf s s.ctl.epoch) ∧
       t.ctl.epoch = s.ctl.epoch ∧ t.ctl.active = s.ctl.active) ∧
   (∀ (s : State) (d : Drain), s.ctl.drain = some d → tget 0 s.ctl.epochCount d.old ≠ 0 → exec .epochDrainEnd s = .next s) ∧
   (∀ (s : State) (d : Drain), s.ctl.drain = some d → d.since + cyc (cfgN s 0x1105 0 0) ≤ raw s → s.path.pkts = [] →
     ∃ t, exec .epochDrainTimeout s = .next t ∧ t.ctl.drain = none ∧ t.ctl.epochCount = tdel s.ctl.epochCount d.old ∧
       bankOf t d.old = zeroChanged s (bankOf s s.ctl.epoch)))

/-- On a device with no long operation and no commit, a whole mailbox START of each type that START takes, which its
type does not refuse, is answered OK with slot 0, and slot 0 holds an operation of that type, with the parameter
block and requester 0 (the mailbox), that runs; a REHASH or RESIZE_PARTITION may already have ended for want of
space. -/
def Obligations.StartTakesSlot : Prop :=
  ∀ (s : State) (k : Nat) (c : Instr) (p : Bytes),
      (k, c) ∈ [(1, Instr.rehash .mailbox), (2, .resizePartition .mailbox), (3, .tableLoad .mailbox),
        (4, .tableDump .mailbox), (5, .flowFlush .mailbox), (6, .auditPass .mailbox), (7, .scrubPass .mailbox),
        (8, .bistFunction .mailbox), (9, .hbmRetrainFull .mailbox), (11, .firmwareStage .mailbox)] →
      MailboxRequest s 0x30 0 false ([BitVec.ofNat 8 k, 0, 0, 0] ++ leBytes 4 p.length ++ p) → s.ctl.ops = [] →
      s.ctl.commit = none → opRefused k p s = none → (k = 8 → bistBusy p s = false) →
    ∃ t o, exec c s = .next t ∧ MailboxAnswered s t { status := stOk, body := [0] } ∧ tfind t.ctl.ops 0 = some o ∧
      o.kind = k ∧ o.params = p ∧ o.requester = 0 ∧ o.state ≠ 0 ∧ (2 < k → o.state = 2)

/-- A mailbox control that names slot n of an existing operation: SUSPEND of a QUEUED one, and of a RUNNING one that
may be suspended, makes it SUSPENDED; RESUME of a SUSPENDED one makes it RUNNING when it had run, else QUEUED;
CANCEL of a QUEUED one makes it CANCELLED, and of a RUNNING one that may be cancelled CANCELLING; each answers
OK with the slot and the new state. QUERY answers OK with type and state first and changes nothing but the
mailbox. A QUEUED operation, not a PATTERN_COMMIT, whose conflicts have cleared runs. A sector that a running
FIRMWARE_STAGE has written counts as one done unit and its bytes join those staged. A running SCRUB_PASS that
has done all its units ends DONE with result OK; a running one that fails ends FAILED with its status; a
CANCELLING one that does not work on the flow engine ends CANCELLED, and a cancelled AUDIT_PASS leaves no
recheck of its own behind. A FIRMWARE_STAGE that begins has staged nothing, and one of the boot pattern takes
the completion marker away. A queued PATTERN_COMMIT whose generation is still staged and VALID, with no other
operation, commit or drain, begins its commit. -/
def Obligations.LongOpsProceed : Prop :=
  (∀ (s : State) (n : Nat) (o : LongOp), n < 16 → tfind s.ctl.ops n = some o →
     (MailboxRequest s 0x30 1 false [BitVec.ofNat 8 n] → (o.state = 1 ∨ (o.state = 2 ∧ opSuspends o = true)) →
       ∃ t u, exec (.longopSuspend .mailbox) s = .next t ∧ tfind t.ctl.ops n = some u ∧ u.state = 3 ∧
         u.suspendAsked = (o.suspendAsked || o.state == 2) ∧ MailboxAnswered s t (opAnswer n 3)) ∧
     (MailboxRequest s 0x30 2 false [BitVec.ofNat 8 n] → o.state = 3 →
       ∃ t u, exec (.longopResume .mailbox) s = .next t ∧ tfind t.ctl.ops n = some u ∧
         u.state = (if o.ran then 2 else 1) ∧ MailboxAnswered s t (opAnswer n (if o.ran then 2 else 1))) ∧
     (MailboxRequest s 0x30 3 false [BitVec.ofNat 8 n] → o.state = 1 →
       ∃ t u, exec (.longopCancel .mailbox) s = .next t ∧ tfind t.ctl.ops n = some u ∧ u.state = 7 ∧
         MailboxAnswered s t (opAnswer n 7)) ∧
     (MailboxRequest s 0x30 3 false [BitVec.ofNat 8 n] → o.state = 2 → opCancels o s = true →
       ∃ t u, exec (.longopCancel .mailbox) s = .next t ∧ tfind t.ctl.ops n = some u ∧ u.state = 4 ∧
         MailboxAnswered s t (opAnswer n 4)) ∧
     (MailboxRequest s 0x30 4 false [BitVec.ofNat 8 n] →
       ∃ t rest, exec (.longopQuery .mailbox) s = .next t ∧ AnswerOnly t s ∧
         MailboxAnswered s t { status := stOk, body := leBytes 1 o.kind ++ leBytes 1 o.state ++ rest })) ∧
  ((∀ (s : State) (n : Nat) (o : LongOp), tfind s.ctl.ops n = some o → o.state = 1 → o.kind ≠ 10 →
       opClear n o s = true → (o.kind = 2 → ∀ h ∈ s.flow.holds, h.2.setup = none) →
     ∃ t u, exec (.longopConflictsClear n) s = .next t ∧ tfind t.ctl.ops n = some u ∧ u.state = 2 ∧ u.kind = o.kind ∧ u.ran = true ∧
       (o.kind = 11 → t.safe.stageBytes = [] ∧ ((Config.stageTarget o.params).1 = true → t.ctl.bootMarker = false))) ∧
   (∀ (s : State) (n : Nat) (o : LongOp) (d : Bytes), tfind s.ctl.ops n = some o → o.state = 2 → o.kind = 11 →
     ∃ t u, exec (.longopUnitDone n (.sector d)) s = .next t ∧ tfind t.ctl.ops n = some u ∧ u.done = o.done + 1 ∧
       t.safe.stageBytes = s.safe.stageBytes ++ d.take 4096) ∧
   (∀ (s : State) (n : Nat) (o : LongOp), tfind s.ctl.ops n = some o → o.state = 2 → o.kind = 7 →
     (o.total ≤ o.done → ∃ t u, exec (.longopWorkComplete n) s = .next t ∧ tfind t.ctl.ops n = some u ∧ u.state = 5 ∧
       u.result = stOk) ∧
     (∀ st, ∃ t u, exec (.longopFailed n st) s = .next t ∧ tfind t.ctl.ops n = some u ∧ u.state = 6 ∧ u.result = st)) ∧
   (∀ (s : State) (n : Nat) (o : LongOp), tfind s.ctl.ops n = some o → o.state = 4 → 5 < o.kind →
     ∃ t u, exec (.cancelWorkComplete n) s = .next t ∧ tfind t.ctl.ops n = some u ∧ u.state = 7 ∧ u.result = stCancelled ∧
       (o.kind = 6 → t.fwd = { s.fwd with rechecks := s.fwd.rechecks.filter fun r => r.pass != o.order + 1 }) ∧
       (o.kind ≠ 6 → t.fwd = s.fwd)) ∧
   (∀ (s : State) (n : Nat) (o : LongOp), s.ctl.ops = [(n, o)] → o.kind = 10 → o.state = 1 → s.ctl.commit = none →
       s.ctl.drain = none → o.generation = s.ctl.generation.toNat → s.ctl.staged.state = 2 →
     ∃ t c, exec (.patternCommit n) s = .next t ∧ t.ctl.commit = some c ∧ c.op = some n ∧ c.newSlot = s.ctl.staged ∧
       c.revert = false))

/-- A datagram that names no session open or retained, and a HELLO under no enabled access key, each leave every
part of the state but the counters, the host interface and the time-limited event history unchanged: no answer
is sent. A HELLO over the mailbox answers INVALID. A session that has been idle for psindo.idle_timeout closes,
its key being retained without answers; a retained one past its retention is forgotten. A BYE over the mailbox,
which has no session, answers INVALID. -/
def Obligations.SessionsGuarded : Prop :=
  (∀ (s : State) (src : Nat) (d : Bytes), psindoUp s = true → msgRow (dgramMsg d) = (0x10, 0) →
      msgType (dgramMsg d) ≠ 1 → sessionById s (leNat (slice d 4 4)) = none →
    ∃ t, exec (.read (.psindo src d)) s = .next t ∧ t = { s with host := t.host, cnt := t.cnt }) ∧
  (∀ (s : State) (src : Nat) (d : Bytes), psindoUp s = true → msgRow (dgramMsg d) = (0x01, 0) →
      keyOf s (leNat (slice d 2 2)) = none →
    ∃ t, exec (.hello (.psindo src d)) s = .next t ∧ t = { s with host := t.host, cnt := t.cnt }) ∧
  (∀ (s : State) (b : Bytes), MailboxRequest s 0x01 0 false b →
    ∃ t, exec (.hello .mailbox) s = .next t ∧ MailboxAnswered s t (refuse stInvalid 0) ∧ AnswerOnly t s) ∧
  (∀ (s : State) (n : Nat) (x : Session), sessionOf s n = some x → n < 9 → x.since + idleCycles s ≤ raw s →
      tsorted s.ctl.sessions = true →
    ∃ t, exec (.sessionIdleTimeout n) s = .next t ∧ sessionOf t n = none ∧
      (∃ m, 9 ≤ m ∧ sessionOf t m = some { x with since := raw s, answers := [] })) ∧
  (∀ (s : State) (n : Nat) (x : Session), sessionOf s n = some x → 9 ≤ n → x.since + idleCycles s ≤ raw s →
      tsorted s.ctl.sessions = true →
    ∃ t, exec (.sessionRetentionExpiry n) s = .next t ∧ sessionOf t n = none)

/-- An authenticated HELLO whose version range has a version in common, with a session free, opens a session under
its access key at the version chosen, with a session ID that is not 0 and names no other session, and keeps its
answer; an authenticated BYE in an open session, with a fresh counter and a sequence number not answered before,
closes the session, after which its number names none. -/
def Obligations.HelloOpensByeCloses : Prop :=
  (∀ (s : State) (src k n : Nat) (d : Bytes) (v : Nat × Nat), psindoUp s = true → msgRow (dgramMsg d) = (0x01, 0) →
      keyOf s (leNat (slice d 2 2)) = some k → tagOk (cfgB s (oa 0x1020 k 1)) d = true →
      (msgBody (dgramMsg d)).length = 20 → msgSub (dgramMsg d) = 0 → msgLen (dgramMsg d) = 20 →
      (dgramMsg d).length = 37 →
      chooseVersion ((msgBody (dgramMsg d)).getD 0 0).toNat ((msgBody (dgramMsg d)).getD 1 0).toNat
        ((msgBody (dgramMsg d)).getD 2 0).toNat ((msgBody (dgramMsg d)).getD 3 0).toNat = some v →
      freeSession s = some n → s.ctl.sessions.length ≤ 1000 →
    ∃ t x, exec (.hello (.psindo src d)) s = .next t ∧ sessionOf t n = some x ∧ (x.major, x.minor) = v ∧ x.id ≠ 0 ∧
      sessionById s x.id.toNat = none ∧ x.keyId = BitVec.ofNat 16 (leNat (slice d 2 2)) ∧ x.answers.length = 1) ∧
  (∀ (s : State) (src n : Nat) (d : Bytes) (x : Session), psindoUp s = true → msgRow (dgramMsg d) = (0x02, 0) →
      msgKnown (dgramMsg d) = true → msgType (dgramMsg d) = 2 → tsorted s.ctl.sessions = true →
      msgBody (dgramMsg d) = [] → msgLen (dgramMsg d) = 0 → (dgramMsg d).length = 17 →
      sessionById s (leNat (slice d 4 4)) = some n → sessionOf s n = some x → n < 9 →
      (keyOf s (leNat (slice d 2 2))).isSome = true → tagOk x.key d = true → counterOk x (leNat (slice d 8 8)) = true →
      (x.answers.find? fun p => p.1 == msgSeq (dgramMsg d)) = none →
    ∃ t, exec (.bye (.psindo src d)) s = .next t ∧ sessionOf t n = none)

/-- A 4-byte write of 2 to MBX_STATUS clears done and changes nothing else; a write of MBX_CTRL with go, while the
mailbox is not busy and the Cobbler runs, takes the tag and irq_en, binds the tag to the request and sets busy;
while it is busy go is ignored. A write of an object changes nothing where there is none, without a running
Cobbler or during a commit; one of px.port[q].max_rx within its limits stores the value in the active slot and
no other object's, one beyond them nothing. While the device is held in reset a BAR0 write changes nothing. -/
def Obligations.RegisterWrites : Prop :=
  (∀ s : State, s.safe.resetN = true → s.safe.pwrOk = true →
    exec (.registerWrite (.bar0 0x12004 [2, 0, 0, 0])) s =
      .next { s with ctl := { s.ctl with mbx := { s.ctl.mbx with done := false } } }) ∧
  (∀ (s : State) (tag : BitVec 16) (irq : Bool), s.safe.resetN = true → s.safe.pwrOk = true →
    exec (.registerWrite (.bar0 0x12000 (leBytes 4 (tag.toNat * 2 ^ 16 + 2 * b2n irq + 1)))) s =
      .next { s with ctl := { s.ctl with mbx := { s.ctl.mbx with
        ctrlTag := tag, goTag := if s.ctl.mbx.busy || !s.safe.cobblerReady then s.ctl.mbx.goTag else tag, irqEn := irq,
        busy := s.ctl.mbx.busy || s.safe.cobblerReady } } }) ∧
  (∀ (s : State) (a : Nat) (v : Bytes), objRow a = none ∨ s.safe.cobblerReady = false ∨ s.ctl.commit.isSome = true →
    exec (.registerWrite (.object a v)) s = .next s) ∧
  (∀ (s : State) (q : Nat) (v : Bytes), q < 1024 → v.length = 2 → s.safe.cobblerReady = true → inRecovery s = false →
      s.ctl.commit = none →
    let a := oa 0x2006 q 0
    (1518 ≤ leNat v → leNat v ≤ 16000 → ∃ t, exec (.registerWrite (.object a v)) s = .next t ∧ cfgB t a = v ∧
      (∀ b, b ≠ a → cfgB t b = cfgB s b) ∧ t.ctl.staged = s.ctl.staged ∧
      t = { s with ctl := t.ctl, host := t.host, cnt := t.cnt, safe := { s.safe with guarantee := t.safe.guarantee } }) ∧
    (leNat v < 1518 ∨ 16000 < leNat v → exec (.registerWrite (.object a v)) s = .next s)) ∧
  (∀ (s : State) (off : Nat) (b : Bytes), s.safe.resetN = false ∨ s.safe.pwrOk = false →
    exec (.registerWrite (.bar0 off b)) s = .next s)

/-- Every parse result counts 1 to 12 headers, has PARSE_TRUNC set exactly with a trunc_cause and MALFORMED exactly
with a cause of 1 to 8, never both, TUNNEL exactly with a tunnel depth, FRAG_FIRST only with FRAG, TTL_EXPIRED
only with ROUTER_MAC, NO_KEY exactly without a key pair, and a key level within the tunnel depth. A Clicker of
which neither the pipeline nor its group's tables are in their stop takes its next header, from the FIFO and the
recirculation queue in turn: the packet pins the active epoch unless it has one, carries its parse result,
actions, zone and key, and joins the retire stage; it asks its home slice when stage 0 requests a lookup and
neither drops nor traps it, unless it is malformed, a fragment or without key, the latter two counted; lookups
are numbered in the order in which they reach the slices. The packet at the head of the retire stage waits for
its flow answer and colour, and for an earlier frame of its flow that another pipeline has still to retire; it
leaves the stage held, or asks a rule meter, or goes through step 6: a malformed one without a trap that names
MALFORMED is dropped and counted with its cause; a trap diverts the frame; a drop verdict ends it; a port action
sends it to the crossbar with the merged edit program and class; recirc sends it to the editor. A recirculated
packet re-enters the Clicker, a fifth pass or a full path drops it, counted. Other packets do not change. -/
def Obligations.ParseAndRetire : Prop :=
  (∀ (s : State) (d : Bytes) (router fh rc : Bool),
    let x := parseFrame s d router fh rc
    let w := x.word
    1 ≤ bf w 47 44 ∧ bf w 47 44 ≤ 12 ∧ bf w 41 40 ≤ bf w 43 42 ∧ bit w 0 = decide (bf w 39 38 ≠ 0) ∧
    bit w 1 = decide (bf w 37 34 ≠ 0) ∧ bf w 37 34 ≤ 8 ∧ (bit w 0 && bit w 1) = false ∧
    bit w 19 = decide (bf w 43 42 ≠ 0) ∧ (bit w 4 = true → bit w 3 = true) ∧ (bit w 8 = true → bit w 16 = true) ∧
    bit w 16 = router ∧ bit w 21 = rc ∧ bit w 22 = fh ∧ bit w 5 = x.keyPair.isNone) ∧
  (∀ (s : State) (p pid : Nat) (s1 : State), fnStopped s (.pipeline p) = false →
      fnStopped s (.tables (groupOf p)) = false → nextHeader s p = some (pid, s1) →
      isExpired s pid = false →
    let x := pkt s pid
    let e := x.epoch.getD s.ctl.epoch
    let r := clickerRun s (bankOf s e) x
    let w0 := stageZero r.2.1
    let asks := aLookup w0 && !zeroSuppresses w0 && !bit r.1.word fMalformed
    let c := if bit r.1.word fTrunc then count 0x3030 p 1 s else s
    ∃ t, exec (.clickerParse p) s = .next t ∧ retireQ t p = retireQ s p ++ [pid] ∧ t.path.hdr = s1.path.hdr ∧
      t.path.rehdr = s1.path.rehdr ∧ (pkt t pid).parse = some r.1 ∧ (pkt t pid).acts = r.2.1 ∧ (pkt t pid).zone = r.2.2.1 ∧
      (pkt t pid).key = r.2.2.2 ∧ (pkt t pid).epoch = some e ∧ (pkt t pid).data = x.data ∧ (pkt t pid).metadata = x.metadata ∧
      (bit r.1.word fMalformed = true → r.2.2.2 = none) ∧
      (asks = false → (pkt t pid).flow = x.flow ∧ t.flow = s.flow ∧ t.cnt = c.cnt) ∧
      (asks = true → bit r.1.word fFrag = true →
        (pkt t pid).flow = x.flow ∧ t.flow = s.flow ∧ t.cnt = (count 0x3030 x.pipe 3 c).cnt) ∧
      (asks = true → bit r.1.word fFrag = false → r.2.2.2 = none →
        (pkt t pid).flow = x.flow ∧ t.flow = s.flow ∧ t.cnt = (count 0x3030 x.pipe 2 c).cnt) ∧
      (∀ k, asks = true → bit r.1.word fFrag = false → r.2.2.2 = some k → (pkt t pid).flow = 1 ∧ t.cnt = c.cnt ∧
        (pkt t pid).turn = s.path.turns + 1 ∧ t.path.turns = s.path.turns + 1 ∧
        sliceReqs t (homeSlice s k) = sliceReqs s (homeSlice s k) ++ [pid]) ∧
      (∀ j, j ≠ pid → pkt t j = pkt s j) ∧ t.fwd = s.fwd ∧ t.host = s.host ∧ t.tm = s.tm ∧ t.ports = s.ports) ∧
  (∀ (s : State) (p a b : Nat) (l u : List Nat), hdrFifo s p = a :: l → reHdr s p = b :: u →
    (fnStopped s (.pipeline p) = true ∨ fnStopped s (.tables (groupOf p)) = true → exec (.clickerParse p) s = .next s) ∧
    (nextHeader s p).map (·.1) = some (if tget 0 s.path.hdrTurn p = 0 then b else a)) ∧
  (∀ (s : State) (p pid : Nat) (rest : List Nat), retireQ s p = pid :: rest → isExpired s pid = false →
      tsorted s.path.pkts = true →
    let x := pkt s pid
    let m := merged x
    let s1 := setRetire s p rest
    let w := (x.parse.map (·.word)).getD 0
    (x.flow = 1 ∨ x.colour = 1 → exec (.clickerRetire p) s = .next s) ∧
    (x.flow = 3 → x.colour ≠ 1 → exec (.clickerRetire p) s = .next s1) ∧
    (x.flow ∉ [1, 3] → x.colour ≠ 1 → ruleMeter x = none →
      (retireWaits s p = true → exec (.clickerRetire p) s = .next s) ∧
      (retireWaits s p = false → exec (.clickerRetire p) s = .next (unpark (stepSix pid s1)))) ∧
    (x.flow ∉ [1, 3] → x.colour ≠ 1 → x.barred = false → s.path.parked = [] → retireWaits s p = false →
      (∀ k, bit w fMalformed = false → ruleMeter x = some k → ∃ t, exec (.clickerRetire p) s = .next t ∧
        (pkt t pid).colour = 1 ∧ (pkt t pid).meter = k ∧ t.path.retire = s.path.retire ∧ t.cnt = s.cnt) ∧
      (bit w fMalformed = true → (m.trap && m.trapMalformed) = false → x.pipe < 16 →
        ∃ t, exec (.clickerRetire p) s = .next t ∧ (pkt t pid).place = 3 ∧ t.path.retire = s1.path.retire ∧
          (∀ k ∈ [0, 0x10 + bf w 37 34], ctrGet s (oa 0x3030 x.pipe k) + 1 < 2 ^ 48 →
            ctrGet t (oa 0x3030 x.pipe k) = ctrGet s (oa 0x3030 x.pipe k) + 1)) ∧
      (bit w fMalformed = false → ruleMeter x = none → x.answer = none → m.mirror = 0 → x.colour = 0 →
        (m.trap = true → ∃ t, exec (.clickerRetire p) s = .next t ∧ (pkt t pid).place = 3 ∧
          t.host = (toRing m.trapRing 1 pid 0 (modPkt pid (fun y => { y with metadata := mergedMeta x }) s1)).host) ∧
        (m.trap = false → m.verdict = 2 ∨ x.flow = 5 → ∃ t, exec (.clickerRetire p) s = .next t ∧ (pkt t pid).place = 3 ∧
          t.host = s.host ∧ t.cnt = s.cnt ∧ t.tm = s.tm ∧ t.path.edits = s.path.edits) ∧
        (m.trap = false → m.verdict ≠ 2 → x.flow ∉ [5, 7] → m.recirc = false → x.release = none → x.fall = none →
          m.nhKind = 2 → exec (.clickerRetire p) s = .next (xbarPut x.pipe (m.nhValue % 1024)
            { pid := pid, edit := m.edit, cls := m.cls, nh := none, ecn := false, dscp := none, cut := false, ptp := 0 }
            (modPkt pid (fun y => { y with metadata := mergedMeta x }) s1))) ∧
        (m.trap = false → m.verdict ≠ 2 → x.flow ∉ [5, 7] → m.recirc = true → x.release = none →
          ∃ t j, exec (.clickerRetire p) s = .next t ∧ editJobs t x.pipe = editJobs s x.pipe ++ [j] ∧ j.pid = pid ∧
            j.out = 1024 ∧ j.prog = m.edit ∧ j.frame = x.data ∧ j.metadata = mergedMeta x ∧ t.cnt = s.cnt)))) ∧
  (∀ (s : State) (p pid : Nat) (rest : List Nat) (full : Bool), recircQ s p = pid :: rest → (pkt s pid).ended = true →
      tsorted s.path.pkts = true →
    let x := pkt s pid
    (x.pass < 3 → full = false → ∃ t, exec (.recirculate p full) s = .next t ∧ reHdr t p = reHdr s p ++ [pid] ∧
      t.path.recirc = tset [] s.path.recirc p rest ∧ (pkt t pid).pass = x.pass + 1 ∧ (pkt t pid).data = x.data ∧
      (pkt t pid).port = x.port ∧ (pkt t pid).zone = x.zone ∧ (pkt t pid).metadata = x.metadata ∧
      (pkt t pid).ring = x.ring ∧ (pkt t pid).epoch = x.epoch ∧ (pkt t pid).parse = none ∧ (pkt t pid).key = none ∧
      (pkt t pid).flow = 0 ∧ (∀ j, j ≠ pid → pkt t j = pkt s j) ∧ t.cnt = s.cnt) ∧
    (3 ≤ x.pass ∨ full = true → p < 16 → ∃ t, exec (.recirculate p full) s = .next t ∧ (pkt t pid).place = 3 ∧
      t.path.recirc = tset [] s.path.recirc p rest ∧ t.path.rehdr = s.path.rehdr ∧
      (ctrGet s (oa 0x3030 p 5) + 1 < 2 ^ 48 → ctrGet t (oa 0x3030 p 5) = ctrGet s (oa 0x3030 p 5) + 1)))

/-- An editor of a pipeline that is not in its stop executes the word at its head packet's place when the word holds
the command's operation, and only then; in its stop it does nothing. SET, ADD and COPY write their field, at
most 128 bits within the first 320 bytes, and change no byte outside it but checksums; DEC_TTL lowers the TTL or
hop limit of the IP header at the anchor by 1 and drops the packet at 0 or 1, counted. An IPv4 header checksum
that was right stays right when SET changes its header. PUSH within the limits inserts the template's bytes and
moves the anchors behind it, or names the new outer level's anchors; POP within the limits removes bytes. FIXLEN
writes IPv4 total length and a right checksum (for an IHL below 5, where the spec states none, the free value of
log entry 39), IPv6 payload length, or UDP length with checksum 0. XLATE replaces the header by one of the other
family with the lengths, hop limit, protocol and addresses of R100; with a NAT_ADDR that is not of the new
family it drops the packet, counted in edit_fault. TC_CORR marks the correctionField. END ends the program. A
word whose anchor does not exist drops the packet, counted in edit_fault. A program that has run without a fault
hands the frame, padded to 64 bytes, to its port's MAC or to the recirculation path; a frame longer than the
port's MTU is dropped and counted in edit_fault. -/
def Obligations.EditPrograms : Prop :=
  (∀ (s : State) (p : Nat) (j : EditJob) (rest : List EditJob) (base : Nat), fnStopped s (.pipeline p) = false → editJobs s p = j :: rest →
      j.done = false →
    let w := editWord (bankOf s j.epoch) j.prog j.pc
    let imm := eImm w
    let pos := base + eOffset w
    let bo := eBitoff w
    let wd := eWidth w
    let fits := pos + fieldBytes bo wd ≤ editLimit j
    let v := ipVersion j (eAnchor w) base
    let rest' := tset [] s.path.edits p rest
    anchorAt j (eAnchor w) = some base →
    (∀ x, eOp w = 1 → fits → editSource s j (eSrc w) imm = some x →
      ∃ j', exec (.set p) s = .next (setEdits s p (j' :: rest)) ∧ FieldWritten j j' pos bo wd x ∧
        (∀ o n, j.csums = [{ at_ := o + 10, spans := [(o, n)], kind := 0 }] → n % 2 = 0 → 20 ≤ n → o + n ≤ editLimit j →
          (pos + fieldBytes bo wd ≤ o + 10 ∨ o + 12 ≤ pos) → onesFold (sum16 (slice j.frame o n)) = 0xFFFF →
          j'.frame.getD o 0 ≠ 0 → onesFold (sum16 (slice j'.frame o n)) = 0xFFFF)) ∧
    (∀ x, eOp w = 2 → readField j pos bo wd = some x →
      ∃ j', exec (.add p) s = .next (setEdits s p (j' :: rest)) ∧ FieldWritten j j' pos bo wd (x + imm)) ∧
    (∀ o x, eOp w = 6 → fits → anchorAt j (fld imm 31 28) = some o →
      readField j (o + fld imm 27 20) (fld imm 19 17) wd = some x →
      ∃ j', exec (.copy p) s = .next (setEdits s p (j' :: rest)) ∧ FieldWritten j j' pos bo wd x) ∧
    (eOp w = 3 → v ≠ 0 →
      let f := base + (if v = 4 then 8 else 7)
      let ttl := (j.frame.getD f 0).toNat
      f < editLimit j →
      (1 < ttl → ∃ j', exec (.decTtl p) s = .next (setEdits s p (j' :: rest)) ∧ FieldWritten j j' f 0 8 (ttl - 1)) ∧
      (ttl ≤ 1 → ∃ t, exec (.decTtl p) s = .next t ∧ t.path.edits = rest' ∧ t.path.tx = s.path.tx ∧
        t.cnt = (count 0x3030 p 7 s).cnt)) ∧
    (eOp w = 4 →
      let e := (tget 0 (bankOf s j.epoch).headers (imm % 1024)).toNat
      let n := min 64 (fld e 7 0)
      j.pushes < 2 → j.pushed + n ≤ 128 → pos ≤ editLimit j →
      ∃ j', exec (.push p) s = .next (setEdits s p (j' :: rest)) ∧
        j'.frame = j.frame.take pos ++ slice (leBytes 72 e) 8 n ++ j.frame.drop pos ∧ j'.pushes = j.pushes + 1 ∧
        j'.pushed = j.pushed + n ∧ j'.pc = j.pc + 1 ∧
        (eAnchor w = 0 ∧ eOffset w = 0 ∧ e.testBit 24 = true → anchorAt j' 5 = some n ∧
          (fld e 15 8 ≠ 0 → anchorAt j' 1 = some (fld e 15 8)) ∧ (fld e 23 16 ≠ 0 → anchorAt j' 2 = some (fld e 23 16))) ∧
        (¬ (eAnchor w = 0 ∧ eOffset w = 0 ∧ e.testBit 24 = true) → ∀ a, a ≠ 0 →
          anchorAt j' a = (anchorAt j a).map fun x => if pos ≤ x then x + n else x)) ∧
    (eOp w = 5 → imm.testBit 15 = false → j.removed + imm % 256 ≤ 192 → pos + imm % 256 ≤ editLimit j →
      ∃ j', exec (.pop p) s = .next (setEdits s p (j' :: rest)) ∧
        j'.frame = j.frame.take pos ++ j.frame.drop (pos + imm % 256) ∧ j'.removed = j.removed + imm % 256 ∧
        j'.pc = j.pc + 1 ∧
        (∀ a x, (j.anchors.map (·.1)).Nodup → a ≠ 0 → anchorAt j a = some x →
          (x < pos → anchorAt j' a = some x) ∧ (pos + imm % 256 ≤ x → anchorAt j' a = some (x - imm % 256)) ∧
          (pos ≤ x → x < pos + imm % 256 → anchorAt j' a = none))) ∧
    (eOp w = 7 →
      let n := j.frame.length - base
      let hl := ihlBytes j base
      (v = 4 → hl < 20 → base + 20 ≤ editLimit j → ∃ j', exec (.fixlen p) s =
          .next { setEdits s p (j' :: rest) with free := s.free + 1 } ∧
        beNat (slice j'.frame (base + 2) 2) = n % 65536 ∧ j'.frame.length = j.frame.length ∧
        (∀ k, k ∉ [base + 2, base + 3, base + 10, base + 11] → j'.frame.getD k 0 = j.frame.getD k 0)) ∧
      (v = 4 → 20 ≤ hl → base + hl ≤ editLimit j → ∃ j', exec (.fixlen p) s = .next (setEdits s p (j' :: rest)) ∧
        beNat (slice j'.frame (base + 2) 2) = n % 65536 ∧ onesFold (sum16 (slice j'.frame base hl)) = 0xFFFF ∧
        j'.frame.length = j.frame.length ∧
        (∀ k, k ∉ [base + 2, base + 3, base + 10, base + 11] → j'.frame.getD k 0 = j.frame.getD k 0)) ∧
      (v = 6 → base + 40 ≤ editLimit j → ∃ j', exec (.fixlen p) s = .next (setEdits s p (j' :: rest)) ∧
        beNat (slice j'.frame (base + 4) 2) = (n - 40) % 65536 ∧ j'.frame.length = j.frame.length ∧
        (∀ k, k ∉ [base + 4, base + 5] → j'.frame.getD k 0 = j.frame.getD k 0)) ∧
      (v = 0 → udpAt j (eAnchor w) = true → base + 8 ≤ editLimit j →
        ∃ j', exec (.fixlen p) s = .next (setEdits s p (j' :: rest)) ∧ beNat (slice j'.frame (base + 4) 2) = n % 65536 ∧
          slice j'.frame (base + 6) 2 = [0, 0] ∧ j'.frame.length = j.frame.length ∧
          (∀ k, k < base + 4 ∨ base + 8 ≤ k → j'.frame.getD k 0 = j.frame.getD k 0))) ∧
    (∀ o, eOp w = 9 → anchorAt j 6 = some o → o + 16 ≤ editLimit j → exec (.tcCorr p) s =
      .next (setEdits s p ({ j with corr := some (o + 8), pc := j.pc + 1, done := decide (15 ≤ j.pc) } :: rest)))) ∧
  (∀ (s : State) (p : Nat) (j : EditJob) (rest : List EditJob), fnStopped s (.pipeline p) = false → editJobs s p = j :: rest →
    let w := editWord (bankOf s j.epoch) j.prog j.pc
    let cmds : List (Nat × Instr) := [(0, .editEnd p), (1, .set p), (2, .add p), (3, .decTtl p), (4, .push p), (5, .pop p),
      (6, .copy p), (7, .fixlen p), (8, .xlate p), (9, .tcCorr p)]
    (∀ x ∈ cmds, j.done = true ∨ eOp w ≠ x.1 → exec x.2 s = .next s) ∧
    (j.done = false → eOp w = 0 → exec (.editEnd p) s = .next (setEdits s p ({ j with done := true } :: rest))) ∧
    (∀ x ∈ cmds, j.done = false → eOp w = x.1 → x.1 ∉ [0, 8] → anchorAt j (eAnchor w) = none → p < 16 →
      ctrGet s (oa 0x3030 p 4) + 1 < 2 ^ 48 → ∃ t, exec x.2 s = .next t ∧ t.path.edits = tset [] s.path.edits p rest ∧
        t.path.tx = s.path.tx ∧ ctrGet t (oa 0x3030 p 4) = ctrGet s (oa 0x3030 p 4) + 1)) ∧
  (∀ (s : State) (p : Nat) (j : EditJob) (rest : List EditJob) (pos l4 : Nat) (nat : Bool × Nat × Nat),
      fnStopped s (.pipeline p) = false → editJobs s p = j :: rest →
      j.done = false → anchorAt j 3 = some pos → anchorAt j 4 = some l4 → j.nat = some nat →
      l4 + 8 ≤ editLimit j →
    let w := editWord (bankOf s j.epoch) j.prog j.pc
    let plen := cfgN s 0x3004 0 0
    let pre := cfgNet s 0x3003 0 0
    let b := fun (k : Nat) => (j.frame.getD (pos + k) 0).toNat
    eOp w = 8 →
    (addrFam (natAddr s nat) ≠ b2n ((eImm w).testBit 0) → p < 16 → ctrGet s (oa 0x3030 p 4) + 1 < 2 ^ 48 →
      ∃ t, exec (.xlate p) s = .next t ∧ t.path.edits = tset [] s.path.edits p rest ∧ t.path.tx = s.path.tx ∧
        ctrGet t (oa 0x3030 p 4) = ctrGet s (oa 0x3030 p 4) + 1) ∧
    ((eImm w).testBit 0 = false → addrFam (natAddr s nat) = 0 → b 0 / 16 = 6 → l4 = pos + 40 → b 6 ∈ [6, 17] →
      let n := b 4 * 256 + b 5
      ∃ t j', exec (.xlate p) s = .next t ∧ t = { setEdits s p (j' :: rest) with free := s.free + 1 } ∧
        let g := j'.frame
        (g.getD pos 0).toNat = 0x45 ∧ beNat (slice g (pos + 2) 2) = (n + 20) % 65536 ∧ (g.getD (pos + 8) 0).toNat = b 7 ∧
        (g.getD (pos + 9) 0).toNat = b 6 ∧ onesFold (sum16 (slice g pos 20)) = 0xFFFF ∧
        beNat (slice g (pos + 12) 4) = natAddr s nat % 2 ^ 32 ∧
        beNat (slice g (pos + 16) 4) = extract64 plen (beNat (slice j.frame (pos + 24) 16)) % 2 ^ 32 ∧
        g.length = pos + 20 + min n (j.frame.length - (pos + 40))) ∧
    ((eImm w).testBit 0 = true → addrFam (natAddr s nat) = 1 → b 0 / 16 = 4 → l4 = pos + b 0 % 16 * 4 → b 9 ∈ [6, 17] →
      let n := b 2 * 256 + b 3 - b 0 % 16 * 4
      ∃ t j', exec (.xlate p) s = .next t ∧ t = { setEdits s p (j' :: rest) with free := s.free + 1 } ∧
        let g := j'.frame
        (g.getD pos 0).toNat / 16 = 6 ∧ beNat (slice g (pos + 4) 2) = n ∧ (g.getD (pos + 6) 0).toNat = b 9 ∧
        (g.getD (pos + 7) 0).toNat = b 8 ∧
        beNat (slice g (pos + 8) 16) = embed64 pre plen (beNat (slice j.frame (pos + 12) 4)) % 2 ^ 128 ∧
        beNat (slice g (pos + 24) 16) = natAddr s nat % 2 ^ 128 ∧
        g.length = pos + 40 + min n (j.frame.length - (pos + b 0 % 16 * 4)))) ∧
  (∀ (s : State) (p : Nat), editJobs s p = [] ∨ fnStopped s (.pipeline p) = true → ∀ c ∈ [Instr.editor p, .editEnd p, .set p,
    .add p, .decTtl p, .push p, .pop p, .copy p, .fixlen p, .xlate p, .tcCorr p], exec c s = .next s) ∧
  (∀ (s : State) (p : Nat) (j : EditJob) (rest : List EditJob), fnStopped s (.pipeline p) = false → editJobs s p = j :: rest →
    let g := (editRun s 16 j).1
    let f := g.frame ++ List.replicate (60 - g.frame.length) 0
    (editRun s 16 j).2 = 0 → g.ecn = false → g.dscp = none →
    (f.length + 4 ≤ 16000 → g.out < 1024 → f.length + 4 ≤ cfgN s 0x2007 g.out 0 →
      ∃ t x, exec (.editor p) s = .next t ∧ t.path.edits = tset [] s.path.edits p rest ∧
        tget [] t.path.tx g.out = tget [] s.path.tx g.out ++ [x] ∧ x.frame = f ∧ x.pid = g.pid ∧ x.corr = g.corr ∧
        t.cnt = s.cnt ∧ t.path.pkts = s.path.pkts) ∧
    (f.length + 4 ≤ 16000 → 1024 ≤ g.out →
      ∃ t, exec (.editor p) s = .next t ∧ t.path.edits = tset [] s.path.edits p rest ∧
        recircQ t p = recircQ s p ++ [g.pid] ∧ (pkt t g.pid).data = f ∧ t.path.tx = s.path.tx ∧ t.cnt = s.cnt) ∧
    (p < 16 → (16000 < f.length + 4 ∨ g.out < 1024 ∧ cfgN s 0x2007 g.out 0 < f.length + 4) →
      ctrGet s (oa 0x3030 p 4) + 1 < 2 ^ 48 → ∃ t, exec (.editor p) s = .next t ∧
        t.path.edits = tset [] s.path.edits p rest ∧ t.path.tx = s.path.tx ∧
        ctrGet t (oa 0x3030 p 4) = ctrGet s (oa 0x3030 p 4) + 1))

/-- A packet that step 6 forwards takes its output so: a next-hop index by its kind (PORT to the crossbar with that
entry's sources, ECMP by slot S[7:0] to a PORT member or counted as a fault, DROP and INVALID dropped and
counted, TRAP to its ring), waiting when its extended line is not in the resolution cache; without one, with
ROUTER_MAC, by the longest matching prefix, else the route-miss action, counted; without ROUTER_MAC by the
layer-2 entry of its VLAN and destination, dropped and counted when that is its own port or when flooding is
off. The prefix lookup's answer is an entry that matches and no matching entry is longer. A learn acts as Table
4-8 states: it inserts, counts a full pair of buckets, sets hit, contests, moves, or counts a violation; no
other entry changes. A scan, once half of ft.l2.age has passed since the group's last one, clears hit bits and
removes dynamic entries without one, in its group alone. A fetched line is installed and its fetch ends. An
audit period, once ft.audit.period has passed since the last one's start, marks exactly the active targets whose
refreshed field stands still as stale, and leaves a recheck for exactly the mismatching copies of the blocks of
the others; a recheck waits 250 ms, ends without persisting mismatch, and else is counted and reported as a
fault of class 12. -/
def Obligations.ForwardingAndLearning : Prop :=
  (∀ (s : State) (p pid : Nat) (rest : List Nat), ReadyToForward s p pid rest →
    let x := pkt s pid
    let m := merged x
    let g := groupOf x.pipe
    let s2 := modPkt pid (fun y => { y with metadata := mergedMeta x }) (setRetire s p rest)
    let put := fun (q : Nat) (nh : Option Nat) => xbarPut x.pipe q
      { pid := pid, edit := m.edit, cls := m.cls, nh := nh, ecn := false, dscp := none, cut := false, ptp := 0 } s2
    let dropped := fun (k : Nat) => ∃ t, exec (.clickerRetire p) s = .next t ∧ (pkt t pid).place = 3 ∧
      t.cnt = (count 0x3817 g k s).cnt ∧ t.tm = s.tm ∧ t.host = s.host
    (∀ i, m.nhKind = 1 → m.nhValue = i → i < 2 ^ 18 ∨ hasLine s g (lineNh i) = true →
      let e := nhEntry s i
      (nhKind e = 1 → exec (.clickerRetire p) s = .next (put (nhPort e) (some i))) ∧
      (nhKind e = 3 → dropped 2) ∧ (nhKind e = 0 → dropped 1) ∧
      (nhKind e = 4 → ∃ t, exec (.clickerRetire p) s = .next t ∧ (pkt t pid).place = 3 ∧
        t.host = (toRing (nhTrapRing e) 2 pid 0 s2).host) ∧
      (let k := (tget 0 s.fwd.ecmp (256 * nhEcmp e + selectHash s x % 256)).toNat % 2 ^ 24
       nhKind e = 2 → k < 2 ^ 18 ∨ hasLine s g (lineNh k) = true →
        (nhKind (nhEntry s k) = 1 → exec (.clickerRetire p) s = .next (put (nhPort (nhEntry s k)) (some k))) ∧
        (nhKind (nhEntry s k) ≠ 1 → dropped 3))) ∧
    (∀ i, m.nhKind = 1 → m.nhValue = i → 2 ^ 18 ≤ i → hasLine s g (lineNh i) = false → waiting s g < 65536 →
      (fetchesOf s g).length < 4096 → ∃ t, exec (.clickerRetire p) s = .next t ∧ (pkt t pid).place = x.place ∧
        (∃ f ∈ fetchesOf t g, f.line = lineNh i ∧ pid ∈ f.waiters) ∧ t.tm = s.tm ∧ t.host = s.host) ∧
    (∀ w, m.nhKind = 0 → x.parse = some w →
      (bit w.word fRouterMac = true → w.outer.bind (fun o => lpmLookup s x.zone o.fam o.dst) = none →
        (cfgN s 0x3800 0 0 = 0 → dropped 0) ∧
        (cfgN s 0x3800 0 0 = 1 → ∃ t, exec (.clickerRetire p) s = .next t ∧ (pkt t pid).place = 3 ∧
          t.host = (toRing (cfgN s 0x3801 0 0) 3 pid 0 (count 0x3817 g 0 s2)).host)) ∧
      (∀ i, bit w.word fRouterMac = true → w.outer.bind (fun o => lpmLookup s x.zone o.fam o.dst) = some i → i < 2 ^ 18 →
        nhKind (nhEntry s i) = 1 → exec (.clickerRetire p) s = .next (put (nhPort (nhEntry s i)) (some i))) ∧
      (bit w.word fRouterMac = false →
        let hit := l2Find s g (bridgeVid s x) (beNat (x.data.take 6))
        (∀ k, hit = some k → l2Port (l2Entry s k) = x.port → dropped 5) ∧
        (∀ k, hit = some k → l2Port (l2Entry s k) ≠ x.port →
          exec (.clickerRetire p) s = .next (put (l2Port (l2Entry s k)) none)) ∧
        (hit = none → cfgN s 0x3814 (bridgeVid s x) 0 = 0xFFFF → dropped 6)))) ∧
  (∀ (s : State) (zone fam dst : Nat),
    (∀ i, lpmLookup s zone fam dst = some i → ∃ r ∈ s.fwd.lpm, lpMatch r.2 zone fam dst = true ∧ lpNh r.2 = i ∧
      ∀ r' ∈ s.fwd.lpm, lpMatch r'.2 zone fam dst = true → lpLen r'.2 ≤ lpLen r.2) ∧
    (lpmLookup s zone fam dst = none → ∀ r ∈ s.fwd.lpm, lpMatch r.2 zone fam dst = false)) ∧
  (∀ (s : State) (g : Nat) (x : Learn) (rest : List Learn), tget [] s.fwd.learnQ g = x :: rest → g < 4 → x.vid < 4096 →
      x.mac < 2 ^ 48 → x.port < 1024 →
    let c := fun (k : Nat) => ctrGet s (oa 0x3816 g k)
    let out := fun (t : State) (k : Nat) => exec (.l2Learn g) s = .next t ∧ t.fwd.learnQ = tset [] s.fwd.learnQ g rest ∧
      (c k + 1 < 2 ^ 48 → ctrGet t (oa 0x3816 g k) = c k + 1)
    (∀ k, l2Find s g x.vid x.mac = none → l2Room s g x.vid x.mac = some k → ∃ t, out t 1 ∧
      (let e := l2Entry t k
       l2Valid e = true ∧ l2Static e = false ∧ l2Vid e = x.vid ∧ l2Mac e = x.mac ∧ l2Port e = x.port ∧ l2At e = devUs s) ∧
      (∀ j, j ≠ k → l2Entry t j = l2Entry s j)) ∧
    (l2Find s g x.vid x.mac = none → l2Room s g x.vid x.mac = none → ∃ t, out t 5 ∧ t.fwd.l2 = s.fwd.l2) ∧
    (∀ k, l2Find s g x.vid x.mac = some k →
      let e := l2Entry s k
      let age := (devUs s + 2 ^ 32 - l2At e) % 2 ^ 32
      (l2Port e = x.port → ∃ t, exec (.l2Learn g) s = .next t ∧ t.fwd.l2 = tset 0 s.fwd.l2 k (putBf e 124 124 1) ∧
        t.cnt = s.cnt ∧ t.path = s.path) ∧
      (l2Port e ≠ x.port → l2Static e = true → ∃ t, out t 4 ∧ t.fwd.l2 = s.fwd.l2 ∧
        (l2SvDrop e = true → (pkt s x.pid).place ≠ 3 → (pkt t x.pid).barred = true)) ∧
      (l2Port e ≠ x.port → l2Static e = false → age * 1000 < cfgN s 0x3811 0 0 → ∃ t, out t 3 ∧ t.fwd.l2 = s.fwd.l2) ∧
      (l2Port e ≠ x.port → l2Static e = false → cfgN s 0x3811 0 0 ≤ age * 1000 → ∃ t, out t 2 ∧
        (let e' := l2Entry t k
         l2Valid e' = l2Valid e ∧ l2Vid e' = l2Vid e ∧ l2Mac e' = l2Mac e ∧ l2Port e' = x.port ∧ l2At e' = devUs s ∧
           l2Hit e' = true) ∧
        (∀ j, j ≠ k → l2Entry t j = l2Entry s j)))) ∧
  (∀ (s : State) (g : Nat),
    let age := cfgN s 0x3810 0 0
    (age = 0 ∨ raw s < tget 0 s.fwd.scanned g + cycSecond * age / 2 → exec (.l2AgeScan g) s = .next s) ∧
    (age ≠ 0 → tget 0 s.fwd.scanned g + cycSecond * age / 2 ≤ raw s → tcanon 0 s.fwd.l2 = true →
      ∃ t, exec (.l2AgeScan g) s = .next t ∧
      t = { s with fwd := { s.fwd with l2 := t.fwd.l2, scanned := tset 0 s.fwd.scanned g (raw s) },
                   cnt := { s.cnt with ctr := t.cnt.ctr } } ∧
      ∀ k, l2Entry t k = if k / 2 ^ 20 = g ∧ l2Static (l2Entry s k) = false then
        (if l2Hit (l2Entry s k) = true then putBf (l2Entry s k) 124 124 0 else 0) else l2Entry s k)) ∧
  (∀ (s : State) (g key : Nat), ((fetchesOf s g).find? fun f => f.line == key) = none →
    exec (.nhLineArrival g key) s = .next s) ∧
  (∀ (s : State) (g key : Nat) (f : NhFetch), ((fetchesOf s g).find? fun f => f.line == key) = some f → f.waiters = [] →
    ∃ t, exec (.nhLineArrival g key) s = .next t ∧ hasLine t g key = true ∧
      t.fwd.fetches = tset [] s.fwd.fetches g ((fetchesOf s g).filter fun x => x.line != key) ∧
      (∀ j, j ≠ g → cacheLines t j = cacheLines s j) ∧
      (∀ k, (cacheLines s g).length < 32768 → hasLine s g k = true → hasLine t g k = true) ∧
      t.path = s.path ∧ t.tm = s.tm ∧ t.host = s.host ∧ t.cnt = s.cnt) ∧
  (∀ (s : State) (bad : List Damage),
    let due := s.fwd.auditAt = 0 ∨ s.fwd.auditAt + cycSecond * cfgN s 0x3831 0 0 ≤ raw s + 1
    (cfgOn s 0x3830 0 0 = false ∨ ¬ due → exec (.auditPeriod bad) s = .next s) ∧
    (cfgOn s 0x3830 0 0 = true → due → ∃ t, exec (.auditPeriod bad) s = .next t ∧
      (∀ x ∈ auditTargets, x + 64 * auditBank s x ∈ t.fwd.stale ↔ (auditActive s x = true ∧
        tfind s.fwd.refreshed (x + 64 * auditBank s x) = some (fld (auditDir s x (auditBank s x)) 127 96))) ∧
      (∀ r, r ∈ t.fwd.rechecks ↔ (r ∈ s.fwd.rechecks ∨
        (r.target ∈ auditTargets ∧ auditActive s r.target = true ∧ r.target + 64 * auditBank s r.target ∉ t.fwd.stale ∧
         r.bank = auditBank s r.target ∧ r.copy < auditCopies r.target r.block ∧ r.block < auditBlocks s r.target ∧
         r.since = raw s ∧ r.pass = 0 ∧ auditDiffers s bad r.target r.copy r.block = true))) ∧
      (∀ k, k < 128 → tfind t.fwd.refreshed k = some (fld (auditDir s (k % 64) (k / 64)) 127 96)) ∧
      t.fwd = { s.fwd with stale := t.fwd.stale, rechecks := t.fwd.rechecks, refreshed := t.fwd.refreshed,
                             auditAt := raw s + 1 } ∧
      t.ctl = s.ctl ∧ t.path = s.path ∧ t.hbm = s.hbm)) ∧
  (∀ (s : State) (bad : List Damage), (s.fwd.rechecks = [] → exec (.auditRecheck bad) s = .next s) ∧
    (∀ r rest, s.fwd.rechecks = r :: rest →
      let s1 := setFwd s { s.fwd with rechecks := rest }
      let gone := auditBanked r.target = true ∧ r.bank ≠ s.ctl.epoch % 2
      let differs := auditDiffers s bad r.target r.copy r.block
      (raw s < r.since + cyc 250000000 → exec (.auditRecheck bad) s = .next s) ∧
      (r.since + cyc 250000000 ≤ raw s → gone ∨ differs = false → exec (.auditRecheck bad) s = .next s1) ∧
      (r.since + cyc 250000000 ≤ raw s → ¬ gone → differs = true → exec (.auditRecheck bad) s = .next (detect 12 0x0404
        [r.target, r.bank, r.copy, r.block, auditRef s r.target r.bank r.block, auditCrc s bad r.target r.copy r.block]
        (count 0x3833 0 0 s1)))))

/-- A TABLE_CMD over the mailbox that a check of R494 refuses answers that status and detail (a payload of a wrong
length the offset of its first wrong byte) and changes nothing else; in particular a count of 0 or above 256, a
range beyond the table, and a payload of another length than the header calls for. Served: a WRITE of one entry
of a live forwarding table answers OK with count 1 and stores the entry with its reserved field 0, every other
entry of every such table reading as before; a refused entry answers its status and detail and stores nothing; a
DELETE of one entry makes it read 0; a READ answers the entries as they stand and changes nothing. A static
layer-2 WRITE leaves all four groups with the static entry, or answers NO_SPACE and changes nothing. L2_FLUSH
removes exactly the dynamic entries of the selected groups that its filter matches. RESEED notes the new seeds
for the selected groups and answers later, BUSY while one of them is being rebuilt. A rebuild's end switches the
group to the new layout and seeds with every static entry kept, or keeps layout, seeds and entries' statics when
one finds no room. A staged WRITE of one entry stores it in the free bank, makes the staged slot EDITING and
advances the generation; the active bank and slot do not change. On the command ring, with none of its commands
in flight, the same command completes its slot. -/
def Obligations.TableCommands : Prop :=
  (∀ (s : State) (h : Nat) (staged : Bool) (payload : Bytes), TableRequest s h staged payload →
    let c := tblCmd h staged payload 4071
    let cmds : List (Nat × Instr) := [(1, .tableWrite (.message .mailbox)), (2, .tableDelete (.message .mailbox)),
      (3, .tableRead (.message .mailbox)), (4, .l2Flush (.message .mailbox)), (5, .reseed (.message .mailbox)),
      (6, .flowWrite (.message .mailbox)), (7, .flowDelete (.message .mailbox)), (8, .flowRead (.message .mailbox)),
      (9, .modify (.message .mailbox))]
    ∀ x ∈ cmds, (tblRow c ≠ x.1 → exec x.2 s = .next s) ∧
      (∀ e, tblRow c = x.1 → msgTblRefused c s = some e →
        ∃ t, exec x.2 s = .next t ∧ MailboxAnswered s t (refuse e.1 e.2) ∧ AnswerOnly t s)) ∧
  (∀ (s : State) (c : TblCmd), c.op = 1 → c.table ∈ [1, 2, 3, 4, 5] → c.groups = 0xF → c.staged = false →
    let rows := (tblShape s false c.table).2
    (c.count = 0 ∨ 256 < c.count → tblRefused c s = some (2, 0)) ∧
    (1 ≤ c.count → c.count ≤ 256 → rows < c.index + c.count → tblRefused c s = some (6, 0)) ∧
    (1 ≤ c.count → c.count ≤ 256 → c.index + c.count ≤ rows →
      c.payload.length ≠ c.count * (tblShape s false c.table).1 → tblRefused c s = some (2, 0)) ∧
    (1 ≤ c.count → c.count ≤ 256 → c.index + c.count ≤ rows →
      c.payload.length = c.count * (tblShape s false c.table).1 → tblRefused c s = none)) ∧
  (∀ (s : State) (h : Nat) (payload : Bytes), TableRequest s h false payload → LiveTablesCanonical s.fwd →
    let c := tblCmd h false payload 4071
    let v := leNat payload
    ∀ r ∈ liveTables, c.table = r.1 → c.count = 1 → tblRefused c s = none →
      (c.op = 1 → entryRefused c.table c.index 0 v s = none →
        ∃ t u, exec (.tableWrite (.message .mailbox)) s = .next t ∧ AnswerOnly t u ∧ u = { s with fwd := u.fwd } ∧
          MailboxAnswered s t { status := 0, body := leBytes 4 1 ++ leBytes 4 0 } ∧
          tblGet u false c.table c.index = clearBits v r.2.1 r.2.2 ∧
          (∀ q ∈ liveTables, ∀ j, q.1 ≠ c.table ∨ j ≠ c.index → tblGet u false q.1 j = tblGet s false q.1 j) ∧
          u.fwd.l2 = s.fwd.l2 ∧ u.fwd.natab = s.fwd.natab) ∧
      (∀ e, c.op = 1 → entryRefused c.table c.index 0 v s = some e →
        ∃ t, exec (.tableWrite (.message .mailbox)) s = .next t ∧ AnswerOnly t s ∧
          MailboxAnswered s t { status := e.1, detail := e.2, body := [] }) ∧
      (c.op = 2 → ∃ t u, exec (.tableDelete (.message .mailbox)) s = .next t ∧ AnswerOnly t u ∧ u = { s with fwd := u.fwd } ∧
        MailboxAnswered s t { status := 0, body := leBytes 4 1 ++ leBytes 4 0 } ∧ tblGet u false c.table c.index = 0 ∧
        (∀ q ∈ liveTables, ∀ j, q.1 ≠ c.table ∨ j ≠ c.index → tblGet u false q.1 j = tblGet s false q.1 j))) ∧
  (∀ (s : State) (h : Nat) (staged : Bool) (payload : Bytes), TableRequest s h staged payload →
    let c := tblCmd h staged payload 4071
    let size := (tblShape s staged c.table).1
    c.op = 3 → tblRefused c s = none → c.table ∉ [0x10, 0x11] → c.count * size ≤ 4071 →
    ∃ t, exec (.tableRead (.message .mailbox)) s = .next t ∧ AnswerOnly t s ∧
      MailboxAnswered s t { status := 0, body := leBytes 4 c.count ++ leBytes 4 0 ++
        (List.range c.count).flatMap fun k => leBytes size (tblGet s staged c.table (c.index + k)) }) ∧
  (∀ (s : State) (h : Nat) (payload : Bytes), TableRequest s h false payload →
    let c := tblCmd h false payload 4071
    let v := leNat payload
    c.op = 1 → c.table = 7 → c.count = 1 → tblRefused c s = none → (∀ g, g < 4 → l2Layout s g < 2) →
    (v.testBit 126 = false → ∃ t, exec (.tableWrite (.message .mailbox)) s = .next t ∧ AnswerOnly t s ∧
      MailboxAnswered s t (refuse stInvalid 0)) ∧
    (v.testBit 126 = true → l2Set c.index (BitVec.ofNat 128 v) s = none →
      ∃ t, exec (.tableWrite (.message .mailbox)) s = .next t ∧ AnswerOnly t s ∧ MailboxAnswered s t (refuse stNoSpace 0)) ∧
    (∀ u, v.testBit 126 = true → l2Set c.index (BitVec.ofNat 128 v) s = some u →
      ∃ t, exec (.tableWrite (.message .mailbox)) s = .next t ∧ AnswerOnly t u ∧
        MailboxAnswered s t { status := 0, body := leBytes 4 1 ++ leBytes 4 0 } ∧
        (∀ g, g < 4 → ∃ k, l2Find t g (fld v 123 112) (fld v 111 64) = some k ∧ l2Static (l2Entry t k) = true ∧
          l2Port (l2Entry t k) = fld v 63 54 ∧ l2SvDrop (l2Entry t k) = v.testBit 125 ∧ l2Hit (l2Entry t k) = false))) ∧
  (∀ (s : State) (h : Nat) (payload : Bytes), TableRequest s h false payload → tcanon 0 s.fwd.l2 = true →
    let c := tblCmd h false payload 4071
    let f := leNat payload
    c.op = 4 → tblRefused c s = none →
    ∃ t u, exec (.l2Flush (.message .mailbox)) s = .next t ∧ AnswerOnly t u ∧ u = { s with fwd := { s.fwd with l2 := u.fwd.l2 } } ∧
      MailboxAnswered s t { status := 0, body := leBytes 4 0 ++ leBytes 4 0 } ∧
      ∀ k, l2Entry u k = if k / 2 ^ 20 < 4 ∧ c.groups.testBit (k / 2 ^ 20) = true ∧ l2Static (l2Entry s k) = false ∧
          (f.testBit 127 = true ∨ l2Port (l2Entry s k) = fld f 63 54) ∧
          (f.testBit 126 = true ∨ l2Vid (l2Entry s k) = fld f 123 112)
        then 0 else l2Entry s k) ∧
  (∀ (s : State) (h : Nat) (payload : Bytes), TableRequest s h false payload →
    let c := tblCmd h false payload 4071
    c.op = 5 → tblRefused c s = none →
    (reseedBusy c s = true → ∃ t, exec (.reseed (.message .mailbox)) s = .next t ∧ AnswerOnly t s ∧
      MailboxAnswered s t (refuse stBusy 0)) ∧
    (reseedBusy c s = false → ∃ t, exec (.reseed (.message .mailbox)) s = .next t ∧ t.ctl = s.ctl ∧
      (∀ g, g < 4 → c.groups.testBit g = true → tfind t.fwd.rebuild g =
        some { seedA := fld (leNat payload) 31 0, seedB := fld (leNat payload) 63 32 }) ∧
      t = { s with fwd := { s.fwd with rebuild := t.fwd.rebuild, reseeds := t.fwd.reseeds } })) ∧
  (∀ (s u : State) (h : Nat) (payload : Bytes), TableRequest s h true payload →
    let c := tblCmd h true payload 4071
    let v := leNat payload
    let b := freeBank s
    tsorted b.templates = true → tsorted b.params = true → tsorted b.edits = true → tsorted b.headers = true →
      tsorted b.rules = true → c.op = 1 → c.count = 1 → tblRefused c s = none → entryRefused c.table c.index 0 v s = none →
      tblPut c.table c.index v s = some u →
    ∃ t, exec (.tableWrite (.message .mailbox)) s = .next t ∧ AnswerOnly t (stagedEdit u) ∧
      MailboxAnswered s t { status := 0, body := leBytes 4 1 ++ leBytes 4 0 } ∧ freeBank t = freeBank u ∧
      (c.table = 0x12 → tget tplReset (freeBank t).templates c.index = BitVec.ofNat 512 (clearBits v 26 0)) ∧
      (c.table = 0x13 → tget 0 (freeBank t).params c.index = BitVec.ofNat 512 v) ∧
      (c.table = 0x30 → tget 0 (freeBank t).edits c.index = BitVec.ofNat 1024 v) ∧
      (c.table = 0x31 → tget 0 (freeBank t).headers c.index = BitVec.ofNat 576 (clearBits v 63 25)) ∧
      (0x20 ≤ c.table → c.table < 0x30 →
        tget 0 (freeBank t).rules (ruleKey ((c.table - 0x20) / 4) (c.table % 4) c.index) = BitVec.ofNat 2176 v) ∧
      t.ctl.staged.state = 1 ∧ t.ctl.generation = s.ctl.generation + 1 ∧ t.ctl.active = s.ctl.active ∧
      bankOf t t.ctl.epoch = bankOf s s.ctl.epoch) ∧
  (∀ (s : State) (g : Nat), tfind s.fwd.rebuild g = none → exec (.l2RebuildDone g) s = .next s) ∧
  (∀ (s : State) (g : Nat) (r : L2Rebuild), tfind s.fwd.rebuild g = some r → tsorted s.fwd.rebuild = true →
      tcanon 0 s.fwd.l2 = true → g < 4 → l2Layout s g < 2 →
    ∃ t, exec (.l2RebuildDone g) s = .next t ∧ tfind t.fwd.rebuild g = none ∧ t.fwd.lpm = s.fwd.lpm ∧ t.fwd.nh = s.fwd.nh ∧
      ((l2Rebuilt g s).1 = true → t.fwd.layout = tset 0 s.fwd.layout g (1 - l2Layout s g) ∧
        t.fwd.seeds = tset (0x11 + g, 0x91 + g) s.fwd.seeds g (r.seedA, r.seedB) ∧
        (∀ k, k / 2 ^ 20 = g → k / 2 ^ 18 % 4 = l2Layout s g → l2Valid (l2Entry s k) = true → l2Static (l2Entry s k) = true →
          ∃ k', l2Entry t k' = l2Entry s k)) ∧
      ((l2Rebuilt g s).1 = false → t.fwd.layout = s.fwd.layout ∧ t.fwd.seeds = s.fwd.seeds ∧
        (∀ k, k / 2 ^ 20 = g → k / 2 ^ 18 % 4 = l2Layout s g → l2Valid (l2Entry s k) = true →
          l2Entry t k = l2Entry s k))) ∧
  (∀ (s : State) (slot host : Bytes) (c : TblCmd), slotCmd slot host 0 s = .inr c → ringLive s cmdKey = true →
      0 < ringFill (ring s cmdKey) → ringBlocked c s = false → ringFlights s = 0 → tblRow c = 1 →
    let idx := (ring s cmdKey).cons.toNat
    (∀ e, tblRefused c s = some e → exec (.tableWrite (.ring slot host 0)) s = .next (slotComplete idx e.1 e.2 0 0 s)) ∧
    (∀ u, c.op = 1 → c.table ∈ liveTables.map (·.1) → c.count = 1 → tblRefused c s = none →
      entryRefused c.table c.index 0 (leNat c.payload) s = none → tblPut c.table c.index (leNat c.payload) s = some u →
      exec (.tableWrite (.ring slot host 0)) s = .next (slotComplete idx 0 0 1 0 u)))

/-- A slice serves its oldest lookup that waits behind no earlier request of another kind for its record, and none
when each waits. Served: on a hit of a primary line the packet is counted in its direction's deltas, last_seen,
rev_seen, class and TCP state follow, the line is dirty and newest in use, and the answer gives the direction's
action; on a hit of a link line the record's primary line counts a reverse packet and the answer gives the
original address and port; a buffered line comes back with its deltas. A miss creates a hold entry and queues a
fetch; a full table or queue gives the miss-overflow action; a key with a hold entry joins its chain, or
overflows when the chain is full. A segment out of window changes no TCP field and is counted; the others move
as Table 6-4 states. A fetch at the head of a miss queue takes a token of its reserved bucket, else of the pool
in its turn, and reads bucket A; a bucket's matches are read lowest slot first, the next bucket when there is
none; a mismatch goes to the next match; a match serves the chain as hits from the record's line; while a
writeback of the record is pending the read is not issued, and one that meets it is made anew. The oldest entry
of the writeback buffer whose record no awl is reading is written back: a writeback adds the four deltas modulo
their widths and replaces state and last_seen; once flow.fold.period has passed since the last, with no request
waiting, the fold period folds every dirty primary line of the slice without evicting it. Each command leaves
every other line, record and hold entry as it was. -/
def Obligations.FlowServesPackets : Prop :=
  (∀ (s : State) (n pid x : Nat) (k : BitVec 384) (rest : List Nat) (l : Line), LookupNext s n pid k rest →
      holdFor s n k = none → lineFind s n k = some x → lineAt s x = some l → l.link = false → exceptionOf s x pid = none →
      deltaFull l (lineReverse s x k) (pkt s pid).rxLen = false → acMeter l.act = 0 → segmentOf (pkt s pid) = none →
    let p := pkt s pid
    let rev := lineReverse s x k
    let st := if rev then putBf l.st 107 107 1 else l.st
    let est := tpClassEst (template s (pktEpoch s pid) (stTemplate l.st))
    (rev = true ↔ (stTrans l.st = false ∧ kSwap k ≠ l.orient)) ∧
    ∃ t, exec (.lookup n 0) s = .next t ∧
      lineAt t x = some { addPacket l rev p.rxLen with
        st := if rev && !stRevSeen l.st && kProto k != 6 then putBf st 115 112 est else st
        last := devMs s, dirty := true, used := s.flow.lru + 1 } ∧
      (∀ y, y ≠ x → lineAt t y = lineAt s y) ∧ (pkt t pid).flow = 2 ∧
      (pkt t pid).answer = some {
        record := l.record, nh := if rev then acNhRev l.act else acNhFwd l.act,
        edit := if rev then acEditRev l.act else acEditFwd l.act, mirror := l.mirror, telemetry := l.telemetry,
        drop := stDrop l.st, meter := 0, nat := if stTrans l.st then some (true, acNatIndex l.act, acNatPort l.act) else none } ∧
      t.flow = { s.flow with reqs := tset [] s.flow.reqs n rest, served := t.flow.served, lines := t.flow.lines, lru := s.flow.lru + 1 } ∧
      t.hbm = s.hbm ∧ t.tm = s.tm ∧ t.host = s.host ∧ t.fwd = s.fwd ∧
      (ctrGet s (oa 0x4020 n 0) + 1 < 2 ^ 48 → ctrGet t (oa 0x4020 n 0) = ctrGet s (oa 0x4020 n 0) + 1)) ∧
  (∀ (s : State) (n pid x : Nat) (k : BitVec 384) (rest : List Nat) (l p : Line), LookupNext s n pid k rest →
      holdFor s n k = none → lineFind s n k = some x → lineAt s x = some l → l.link = true → lineAt s l.home = some p →
      p.link = false → p.record = l.record → exceptionOf s x pid = none → deltaFull p true (pkt s pid).rxLen = false →
      acMeter p.act = 0 → stTrans p.st = true →
    ∃ t p' a, exec (.lookup n 0) s = .next t ∧ lineAt t l.home = some p' ∧ p'.dpr = p.dpr + 1 ∧
      p'.dbr = p.dbr + (pkt s pid).rxLen ∧ p'.dpf = p.dpf ∧ p'.dbf = p.dbf ∧ p'.last = devMs s ∧ p'.dirty = true ∧
      stRevSeen p'.st = true ∧ p'.act = p.act ∧ lineAt t x = some { l with used := s.flow.lru + 1 } ∧
      (∀ y, y ≠ x → y ≠ l.home → lineAt t y = lineAt s y) ∧ (pkt t pid).answer = some a ∧ a.nh = acNhRev p.act ∧
      a.edit = acEditRev p.act ∧ a.nat = some (false, l.oAddr, l.oPort) ∧ t.flow.records = s.flow.records ∧ t.flow.holds = s.flow.holds) ∧
  (∀ (s : State) (n pid i : Nat) (k : BitVec 384) (rest : List Nat) (e : WbEntry), LookupNext s n pid k rest →
      holdFor s n k = none → lineFind s n k = none → wbMatch s n k = some i → (wbOf s n)[i]? = some e → e.line.link = false →
      tget [] s.flow.foldWait n = [] → (∀ r ∈ s.flow.holds, r.2.readWaits = false) →
      stTrans e.line.st = false → segmentOf (pkt s pid) = none → (∀ b, deltaFull e.line b (pkt s pid).rxLen = false) → (wbOf s n).length ≤ 1022 →
    ∃ t y l, exec (.lookup n 0) s = .next t ∧ lineAt t y = some l ∧ l.record = e.line.record ∧
      l.dpf + l.dpr = e.line.dpf + e.line.dpr + 1 ∧ l.dbf + l.dbr = e.line.dbf + e.line.dbr + (pkt s pid).rxLen ∧ l.dirty = true ∧
      (pkt t pid).flow = 2 ∧ t.flow.holds = s.flow.holds ∧ t.flow.missQ = s.flow.missQ ∧ t.flow.records = s.flow.records ∧
      (ctrGet s (oa 0x4020 n 5) + 1 < 2 ^ 48 → ctrGet t (oa 0x4020 n 5) = ctrGet s (oa 0x4020 n 5) + 1)) ∧
  (∀ (s : State) (n pid : Nat) (k : BitVec 384) (rest : List Nat), LookupNext s n pid k rest → holdFor s n k = none →
      lineFind s n k = none → wbMatch s n k = none → oldHome s k = none →
    let p := pkt s pid
    let mark := if aOvfDrop (stageZero p.acts) then 5 else 4
    let c := fun (j : Nat) => ctrGet s (oa 0x4011 p.pipe j)
    let up := fun (t : State) (j : Nat) => c j + 1 < 2 ^ 48 → ctrGet t (oa 0x4011 p.pipe j) = c j + 1
    let frame := fun (t : State) => t.flow.lines = s.flow.lines ∧ t.flow.records = s.flow.records ∧ t.flow.index = s.flow.index ∧
      t.flow.wb = s.flow.wb ∧ t.flow.reqs = tset [] s.flow.reqs n rest ∧ t.hbm = s.hbm ∧ t.tm = s.tm ∧ t.fwd = s.fwd
    let full := ∃ t, exec (.lookup n 0) s = .next t ∧ (pkt t pid).flow = mark ∧ up t 0 ∧ up t (mark - 1) ∧
      t.flow.holds = s.flow.holds ∧ t.flow.missQ = s.flow.missQ ∧ frame t
    (∀ h, freeHold s n = some h → (tget [] s.flow.missQ p.pipe).length < cfgN s 0x4010 p.pipe 1 →
      ∃ t, exec (.lookup n 0) s = .next t ∧ (tsorted s.flow.holds = true → holdAt s h = none) ∧
        holdAt t h = some { emptyHold k 1 with
          pipe := p.pipe, epoch := pktEpoch s pid, chain := [pid], template := aTemplate (stageZero p.acts) } ∧
        (∀ j, j ≠ h → holdAt t j = holdAt s j) ∧
        t.flow.missQ = tset [] s.flow.missQ p.pipe (tget [] s.flow.missQ p.pipe ++ [h]) ∧ (pkt t pid).flow = 3 ∧ up t 0 ∧ frame t) ∧
    (freeHold s n = none → full) ∧ (cfgN s 0x4010 p.pipe 1 ≤ (tget [] s.flow.missQ p.pipe).length → full)) ∧
  (∀ (s : State) (n pid h : Nat) (k : BitVec 384) (rest : List Nat) (x : Hold), LookupNext s n pid k rest →
      holdFor s n k = some h → holdAt s h = some x →
    let c := ctrGet s (oa 0x4011 (pkt s pid).pipe 5)
    (x.chain.length < cfgN s 0x4006 0 0 → ∃ t, exec (.lookup n 0) s = .next t ∧
      holdAt t h = some { x with chain := x.chain ++ [pid] } ∧ (∀ j, j ≠ h → holdAt t j = holdAt s j) ∧ (pkt t pid).flow = 3 ∧
      t.flow.missQ = s.flow.missQ ∧ t.flow.lines = s.flow.lines ∧ t.flow.records = s.flow.records ∧ t.hbm = s.hbm) ∧
    (cfgN s 0x4006 0 0 ≤ x.chain.length → ∃ t, exec (.lookup n 0) s = .next t ∧ t.flow.holds = s.flow.holds ∧
      (pkt t pid).flow = (if aOvfDrop (stageZero (pkt s pid).acts) then 5 else 4) ∧
      (c + 1 < 2 ^ 48 → ctrGet t (oa 0x4011 (pkt s pid).pipe 5) = c + 1) ∧ t.flow.lines = s.flow.lines ∧ t.hbm = s.hbm)) ∧
  (∀ (n : Nat) (t : BitVec 512) (w : BitVec 128) (rev : Bool) (g : Segment) (s : State),
    let d := tcpDir w rev
    let pass := tcpPasses (cfgN s 0x4033 0 0) w rev g
    (tpTcpCheck t ≠ 0 → pass = false → tcpSegment n t w rev g s = (w, tpTcpCheck t == 2, count 0x4040 n 9 s)) ∧
    (tpTcpCheck t = 0 ∨ pass = true → (tcpSegment n t w rev g s).2.1 = false ∧
      tcpDir (tcpSegment n t w rev g s).1 rev = ((tcpMove t d.1 (tcpDir w (!rev)).1 (tcpDir w (!rev)).2.1 g).1 % 16,
        (let e := (g.seq + g.len + b2n g.syn + b2n g.fin) % 2 ^ 32
         if d.1 = 0 ∨ 0 < sdiff e d.2.1 then e else d.2.1), g.win % 2 ^ 16) ∧
      (tcpDir (tcpSegment n t w rev g s).1 (!rev)).2 = (tcpDir w (!rev)).2) ∧
    (g.seq = d.2.1 → g.len ≤ 65535 → g.acks = false → pass = true) ∧
    (d.1 ≠ 0 → d.2.1 ≠ 0 → 2 ^ 30 < sdiff d.2.1 g.seq → pass = false)) ∧
  (∀ (t : BitVec 512) (d o eo : Nat) (g : Segment),
    let m := tcpMove t d o eo g
    let acked := g.acks = true ∧ g.ack = eo
    (g.rst = true → m = (5, o, some 15, false)) ∧
    (g.rst = false →
      (d = 0 → o = 0 → g.syn = true → g.acks = false → m = (1, 0, some (tpClassNew t), false)) ∧
      (d = 0 → o = 0 → g.syn = false → tpPickup t = true → m = (2, 0, some (tpClassNew t), false)) ∧
      (d = 0 → o = 1 → g.syn = true → acked → m = (1, 1, none, false)) ∧
      (d = 1 → o = 1 → g.fin = false → acked → m = (2, 2, some (tpClassEst t), false)) ∧
      (d = 2 → o = 0 → m = (2, 0, none, false)) ∧
      (d = 0 → o = 2 → g.syn = false → m = (2, 2, some (tpClassEst t), false)) ∧
      (d = 1 ∨ d = 2 → o = 2 → g.syn = true → m = (d, 2, none, true)) ∧
      (d = 1 ∨ d = 2 → ¬ (d = 2 ∧ o = 0) → ¬ (o = 2 ∧ g.syn = true) → g.fin = true → o ≠ 3 → m.1 = 3 ∧ m.2.2 = (some 14, false)) ∧
      (o = 3 → acked → m.2.1 = 4 ∧ m.2.2 = (some (if m.1 = 4 then 15 else 14), false)))) ∧
  (∀ (s : State) (p h : Nat) (rest : List Nat) (x : Hold), flowHalted s = false → tget [] s.flow.missQ p = h :: rest →
      holdAt s h = some x → p < 16 → (∀ c ∈ searchList s x.key, bucketGone s (searchAt s c).1 (searchAt s c).2 = false) →
    let z := tokensFill s
    let runs := fun (t : State) (j : Nat) => exec (.tokenGranted p) s = .next t ∧
      (∃ b, holdAt t h = some { x with state := 2, buckets := searchList s x.key, cands := [], inB := b }) ∧
      (∀ i, i ≠ h → holdAt t i = holdAt s i) ∧ t.flow.missQ = tset [] s.flow.missQ p rest ∧ t.hbm.orders = s.hbm.orders + 1 ∧
      (ctrGet s (oa 0x4011 p j) + 1 < 2 ^ 48 → ctrGet t (oa 0x4011 p j) = ctrGet s (oa 0x4011 p j) + 1) ∧
      t.flow.lines = s.flow.lines ∧ t.flow.records = s.flow.records ∧ t.path = s.path ∧ t.tm = s.tm
    (800 ≤ tget 0 z.flow.tokens p → ∃ t, runs t 1 ∧ t.flow.tokens = tset 0 z.flow.tokens p (tget 0 z.flow.tokens p - 800) ∧
      t.flow.pool = z.flow.pool) ∧
    (tget 0 z.flow.tokens p < 800 → 800 ≤ z.flow.pool → poolNext z = some p → ∃ t, runs t 2 ∧ t.flow.tokens = z.flow.tokens ∧
      t.flow.pool = z.flow.pool - 800 ∧ t.flow.poolTurn = p) ∧
    (tget 0 z.flow.tokens p < 800 → z.flow.pool < 800 ∨ poolNext z ≠ some p → exec (.tokenGranted p) s = .next z)) ∧
  (∀ (s : State) (h c : Nat) (bs : List Nat) (x : Hold), holdAt s h = some x → flowHalted s = false → x.state = 2 → x.cands = [] →
      x.buckets = c :: bs →
    let m := bucketMatches s (searchAt s c).1 (searchAt s c).2 x.key
    let frame := fun (t : State) => (∀ i, i ≠ h → holdAt t i = holdAt s i) ∧ t.hbm.orders = s.hbm.orders + 1 ∧
      t.flow = { s.flow with holds := t.flow.holds } ∧ t.path = s.path ∧ t.tm = s.tm
    (∀ y ys, m = y :: ys → recGone s (y / 2) = false → wbEntries s (y / 2) ≠ [] →
      exec (.bucketArrival h false) s = .next (setHold h { x with cands := m, readWaits := true } s)) ∧
    (∀ y ys, m = y :: ys → recGone s (y / 2) = false → wbEntries s (y / 2) = [] → (∀ r ∈ s.flow.holds, r.2.readWaits = false) →
      ∃ t, exec (.bucketArrival h false) s = .next t ∧ holdAt t h = some { x with cands := m } ∧ frame t) ∧
    (∀ d ds, m = [] → bs = d :: ds → bucketGone s (searchAt s d).1 (searchAt s d).2 = false →
      ∃ t b, exec (.bucketArrival h false) s = .next t ∧ holdAt t h = some { x with buckets := bs, cands := [], inB := b } ∧ frame t)) ∧
  (∀ (s : State) (h c : Nat) (cs : List Nat) (x : Hold), holdAt s h = some x → flowHalted s = false → x.state = 2 →
      x.cands = c :: cs →
    (x.readWaits = true → exec (.recordArrival h false) s = .next s) ∧
    (x.readWaits = false → wbEntries s (c / 2) ≠ [] →
      exec (.recordArrival h false) s = .next (setHold h { x with readWaits := true } s)) ∧
    (wbEntries s (c / 2) = [] → keyIs s c x.key = false → ∀ d ds, cs = d :: ds → recGone s (d / 2) = false →
        wbEntries s (d / 2) = [] → (∀ r ∈ s.flow.holds, r.2.readWaits = false) →
      ∃ t, exec (.recordArrival h false) s = .next t ∧ holdAt t h = some { x with cands := cs } ∧
        t.flow = { s.flow with holds := t.flow.holds } ∧ t.path = s.path) ∧
    (∀ pid k r, x.readWaits = false → wbEntries s (c / 2) = [] → keyIs s c x.key = true → x.chain = [pid] → Unretired s pid →
        (pkt s pid).key = some k → segmentOf (pkt s pid) = none → flowRec s (c / 2) = some r → stTrans r.st = false →
        acMeter r.act = 0 → primaryOf s (c / 2) = none → (pkt s pid).rxLen < 2 ^ 28 → tsorted s.flow.holds = true →
        tsorted s.flow.lines = true → (wbOf s (sliceOfHold h)).length ≤ 1022 →
      ∃ t y l, exec (.recordArrival h false) s = .next t ∧ holdAt t h = none ∧ (∀ i, i ≠ h → holdAt t i = holdAt s i) ∧
        lineAt t y = some l ∧ l.record = c / 2 ∧ l.link = false ∧ l.dirty = true ∧ l.last = devMs s ∧ l.dpf + l.dpr = 1 ∧
        l.dbf + l.dbr = (pkt s pid).rxLen ∧ (l.dpr = 1 ↔ kSwap k ≠ kSwap r.key) ∧ (pkt t pid).flow = 2 ∧
        t.flow.records = s.flow.records ∧ t.flow.index = s.flow.index ∧ t.hbm = s.hbm)) ∧
  (∀ (s : State) (n : Nat) (e : WbEntry) (rest : List WbEntry) (r : FlowRec), flowHalted s = false → wbOf s n = e :: rest →
      flowRec s e.line.record = some r → recGone s e.line.record = false → (awlReads s).contains e.line.record = false →
      tget [] s.flow.foldWait n = [] → (∀ h ∈ s.flow.holds, h.2.readWaits = false) →
    let l := e.line
    ∃ t q, exec (.writeback n) s = .next t ∧ t.flow.wb = tset [] s.flow.wb n rest ∧ flowRec t l.record = some q ∧
      bf q.cnt 255 216 = (bf r.cnt 255 216 + l.dpf) % 2 ^ 40 ∧ bf q.cnt 215 168 = (bf r.cnt 215 168 + l.dbf) % 2 ^ 48 ∧
      bf q.cnt 167 128 = (bf r.cnt 167 128 + l.dpr) % 2 ^ 40 ∧ bf q.cnt 127 80 = (bf r.cnt 127 80 + l.dbr) % 2 ^ 48 ∧
      cnFirst q.cnt = cnFirst r.cnt ∧ cnLast q.cnt = l.last % 2 ^ 32 ∧ cnClass q.cnt = stClass q.st ∧
      bf q.st 123 0 = bf l.st 123 0 ∧ q.key = r.key ∧ q.act = r.act ∧
      (∀ j, j ≠ l.record → flowRec t j = flowRec s j) ∧ t.flow.lines = s.flow.lines ∧ t.flow.holds = s.flow.holds ∧
      t.flow.index = s.flow.index ∧ t.path = s.path) ∧
  (∀ (s : State) (n : Nat), (∀ e ∈ wbOf s n, (awlReads s).contains e.line.record = true) →
    exec (.writeback n) s = .next s) ∧
  (∀ (s : State) (n : Nat), lookupReady s n = none → ∀ c, exec (.lookup n c) s = .next s) ∧
  (∀ (s : State) (n : Nat), raw s < tget 0 s.flow.folded n + cyc (cfgN s 0x4005 0 0) → exec (.foldPeriod n) s = .next s) ∧
  (∀ (s : State) (n : Nat), flowHalted s = false → tget 0 s.flow.folded n + cyc (cfgN s 0x4005 0 0) ≤ raw s →
      sliceReqs s n = [] → tget [] s.flow.ageQ n = [] → tsorted s.flow.lines = true → (wbOf s n).length + s.flow.lines.length ≤ 1024 →
    ∃ t, exec (.foldPeriod n) s = .next t ∧
      (∀ x l, lineAt s x = some l → x / 131072 = n → l.dirty = true → l.link = false →
        lineAt t x = some { l with dpf := 0, dbf := 0, dpr := 0, dbr := 0, dirty := false } ∧
        { line := l, fold := true } ∈ wbOf t n) ∧
      (∀ x, (∀ l, lineAt s x = some l → ¬ (x / 131072 = n ∧ l.dirty = true ∧ l.link = false)) → lineAt t x = lineAt s x) ∧
      (∀ e ∈ wbOf s n, e ∈ wbOf t n) ∧ (∀ m, m ≠ n → wbOf t m = wbOf s m) ∧ t.flow.records = s.flow.records ∧
      t.flow.holds = s.flow.holds ∧ t.hbm = s.hbm ∧ t.path = s.path)

/-- When a fetch's search ends without a match its entry enters SETUP by the first packet's template: a TCP packet
that is no SYN without pickup, and kind NONE, release the chain by fail_action, counted; TRACK draws the record
index and builds the image the template gives, created now; LB takes the backend's next hop, or releases the
chain by the fallback and returns the index; SNAT takes an address and port whose reverse key shares the slice
and is unused, and enters that key; ROUTINE hands an item to the scheduler; with no record left the chain fails
with RECORDS_FULL. With its reads in, a setup's record and index entry are written and its line installed; an
uncorrectable read is an insertion failure that returns the index. With its writes acknowledged the chain is
served and released and the setup counted; a setup past flow.setup.timeout fails with TIMEOUT, and one before it
stands. -/
def Obligations.FlowSetups : Prop :=
  (∀ (s : State) (h c pid : Nat) (k : BitVec 384) (x : Hold), holdAt s h = some x → h < 2 ^ 20 → flowHalted s = false →
      x.state = 2 → x.cands = [] → x.buckets = [c] → bucketMatches s (searchAt s c).1 (searchAt s c).2 x.key = [] →
      x.chain = [pid] → x.other = none → Unretired s pid → (pkt s pid).key = some k → tsorted s.flow.holds = true →
    let p := pkt s pid
    let n := sliceOfHold h
    let e := pktEpoch s pid
    let tn := aTemplate (stageZero p.acts)
    let T := template s e tn
    let syn := (segmentOf p).any fun g => g.syn && !g.acks
    let barred := kProto k = 6 ∧ syn = false ∧ tpPickup T = false
    let up := fun (t : State) (i j : Nat) => ctrGet s (oa i n j) + 1 < 2 ^ 48 → ctrGet t (oa i n j) = ctrGet s (oa i n j) + 1
    let failed := fun (t : State) => exec (.bucketArrival h false) s = .next t ∧ holdAt t h = none ∧
      (∀ i, i ≠ h → holdAt t i = holdAt s i) ∧
      (pkt t pid).flow = (if tpFail T = 1 then 5 else if tpFail T = 2 then 7 else 4) ∧
      t.flow.records = s.flow.records ∧ t.flow.index = s.flow.index ∧ t.flow.lines = s.flow.lines ∧ t.hbm = s.hbm ∧ up t 0x4020 4
    let y : Hold := { x with state := 3, since := raw s, pipe := p.pipe, template := tn, epoch := e, buckets := [], cands := [] }
    let ms := if devMs s = 0 then 1 else devMs s
    let built := fun (t : State) (u : Setup) (r : Nat) => exec (.bucketArrival h false) s = .next t ∧ u.record = r ∧
      u.written = false ∧ u.image.key = k ∧ cnFirst u.image.cnt = ms ∧ cnLast u.image.cnt = ms ∧ bf u.image.st 127 124 = 2 ∧
      stFwd u.image.st = 0 ∧ stRev u.image.st = 0 ∧ stClass u.image.st = tpClassNew T ∧ cnClass u.image.cnt = tpClassNew T ∧
      stTemplate u.image.st = tn ∧ stDrop u.image.st = tpDrop T ∧ stPinned u.image.st = tpPinned T ∧
      stReborn u.image.st = isReborn s n k ∧ acNhRev u.image.act = tpNhRev T ∧ acEditFwd u.image.act = tpEditFwd T ∧
      acEditRev u.image.act = tpEditRev T ∧ acMeter u.image.act = tpMeter T ∧ cnMirror u.image.cnt = tpMirror T ∧
      cnTelemetry u.image.cnt = tpTelemetry T ∧ t.flow.records = s.flow.records ∧ t.flow.index = s.flow.index ∧
      t.flow.lines = s.flow.lines ∧ up t 0x4020 4
    (barred → ∃ t, failed t ∧ up t 0x4040 3) ∧
    (¬ barred → tpKind T ∉ [1, 2, 3, 4] → ∃ t, failed t ∧ up t 0x4040 2) ∧
    (¬ barred → tpKind T ∈ [1, 2, 3] → tget [] s.flow.drawn n = [] →
      (∀ j, j < 16 → tget [] s.flow.chains j = [] ∧ chainSize (drawLimit s) j ≤ tget 0 s.flow.taken j) → ∃ t, failed t ∧ up t 0x4041 2) ∧
    (∀ r rest, ¬ barred → tget [] s.flow.drawn n = r :: rest → r < drawLimit s → recGone s r = false →
      (tpKind T = 1 → ∃ t u, built t u r ∧ u.rkey = none ∧ acNhFwd u.image.act = tpNhFwd T ∧ stTrans u.image.st = false ∧
        holdAt t h = some { y with setup := some u } ∧ (∀ i, i ≠ h → holdAt t i = holdAt s i) ∧
        t.flow.drawn = tset [] s.flow.drawn n rest) ∧
      (∀ nh, tpKind T = 2 → svValid (svEntry s (tpService T)) = true →
        lbSearch s (svTable (svEntry s (tpService T))) true 8 (keyHash s 2 k % 65537) = some nh →
        ∃ t u, built t u r ∧ acNhFwd u.image.act = nh % 2 ^ 24 ∧ holdAt t h = some { y with setup := some u }) ∧
      (tpKind T = 2 → svValid (svEntry s (tpService T)) = true →
        lbSearch s (svTable (svEntry s (tpService T))) true 8 (keyHash s 2 k % 65537) = none →
        ∃ t, exec (.bucketArrival h false) s = .next t ∧ holdAt t h = none ∧ (pkt t pid).flow = 2 ∧
          (pkt t pid).fall = some (svFallback (svEntry s (tpService T))) ∧
          tget [] t.flow.chains (r % 16) = r :: tget [] s.flow.chains (r % 16)) ∧
      (∀ a addr q rk o, tpKind T = 3 → snatPick s n T k = (a, addr, .port q rk) → freeHold s n = some o → q < 2 ^ 16 →
        ∃ t u, built t u r ∧ u.rkey = some rk ∧ stTrans u.image.st = true ∧ stXlateDst u.image.st = false ∧
          acNatIndex u.image.act = a ∧ acNatPort u.image.act = q ∧ acNatAddr u.image.act = addr ∧
          holdAt t h = some { y with setup := some u, other := some o } ∧
          holdAt t o = some { emptyHold rk 3 with
            pipe := p.pipe, template := tn, epoch := e, since := raw s, reverse := true, other := some h })) ∧
    (¬ barred → tpKind T = 4 → classRefuses s (routineShape (tpRoutine T)).1 = false →
      ∃ t i, exec (.bucketArrival h false) s = .next t ∧ holdAt t h = some { y with setup := none } ∧
        i ∈ readyItems t (routineShape (tpRoutine T)).1 ∧ i.routine = tpRoutine T ∧ i.param = tpParam T ∧ i.slice = n ∧
        i.source = 1 ∧ i.desc = pid ∧ i.data = h % 65536 ∧ i.epoch = e)) ∧
  (∀ (s : State) (n addr lo size h2 m i reads q : Nat) (k rk : BitVec 384),
    snatSearch s n k addr lo size h2 m i reads = .port q rk →
    rk = reverseKey s k false addr q ∧ homeSlice s rk = n ∧ idxFind s rk = none ∧ holdFor s n rk = none ∧ lo ≤ q ∧
      q < lo + max 1 size) ∧
  (∀ (s : State) (h : Nat) (x : Hold) (u : Setup), holdAt s h = some x → h < 2 ^ 20 → flowHalted s = false → x.state = 3 →
      x.setup = some u → u.written = false → x.other = none → u.rkey = none → recGone s u.record = false →
    let n := sliceOfHold h
    let l := layNow s
    let b := (layBuckets l u.image.key).headD 0
    (∀ y, layouts s = [l] → bucketGone s l b = false → freeSlot s l b = some y → primaryOf s u.record = none →
        stTrans u.image.st = false → (wbOf s n).length ≤ 1022 → u.record < 2 ^ 29 →
      ∃ t z line, exec (.setupReadsComplete h false) s = .next t ∧ flowRec t u.record = some u.image ∧
        (∀ j, j ≠ u.record → flowRec t j = flowRec s j) ∧ tget 0 t.flow.index y = mkSlot (laySig l u.image.key) u.record 0 false ∧
        (∀ j, j ≠ y → tget 0 t.flow.index j = tget 0 s.flow.index j) ∧ lineAt t z = some line ∧ line.record = u.record ∧
        line.link = false ∧ line.dirty = false ∧ line.st = u.image.st ∧ line.dpf = 0 ∧ line.dbf = 0 ∧
        holdAt t h = some { x with setup := some { u with written := true } } ∧ (∀ i, i ≠ h → holdAt t i = holdAt s i) ∧
        t.path = s.path) ∧
    (∀ pid, x.chain = [pid] → Unretired s pid → tsorted s.flow.holds = true →
      ∃ t, exec (.setupReadsComplete h true) s = .next t ∧ holdAt t h = none ∧ (∀ i, i ≠ h → holdAt t i = holdAt s i) ∧
        tget [] t.flow.chains (u.record % 16) = u.record :: tget [] s.flow.chains (u.record % 16) ∧
        t.flow.records = s.flow.records ∧ t.flow.index = s.flow.index ∧
        (ctrGet s (oa 0x4041 n 6) + 1 < 2 ^ 48 → ctrGet t (oa 0x4041 n 6) = ctrGet s (oa 0x4041 n 6) + 1) ∧
        (pkt t pid).flow = (let f := tpFail (template s x.epoch x.template); if f = 1 then 5 else if f = 2 then 7 else 4)) ∧
    exec (.setupWritesAcknowledged h) s = .next s) ∧
  (∀ (s : State) (h pid y : Nat) (k : BitVec 384) (x : Hold) (u : Setup) (l : Line) (r : FlowRec), holdAt s h = some x →
      h < 2 ^ 20 → flowHalted s = false → x.setup = some u → u.written = true → x.other = none → u.rkey = none →
      x.chain = [pid] → Unretired s pid → (pkt s pid).key = some k → segmentOf (pkt s pid) = none →
      primaryOf s u.record = some y → lineAt s y = some l → flowRec s u.record = some r → stTrans r.st = false →
      stTrans l.st = false → acMeter l.act = 0 → (cnTelemetry u.image.cnt).testBit 1 = false →
      (∀ b, deltaFull l b (pkt s pid).rxLen = false) → tsorted s.flow.holds = true → tsorted s.flow.lines = true →
    let n := sliceOfHold h
    ∃ t l', exec (.setupWritesAcknowledged h) s = .next t ∧ holdAt t h = none ∧ (∀ i, i ≠ h → holdAt t i = holdAt s i) ∧
      lineAt t y = some l' ∧ l'.record = u.record ∧ l'.dpf + l'.dpr = l.dpf + l.dpr + 1 ∧
      l'.dbf + l'.dbr = l.dbf + l.dbr + (pkt s pid).rxLen ∧ l'.last = devMs s ∧ l'.dirty = true ∧
      (∀ z, z ≠ y → lineAt t z = lineAt s z) ∧ (pkt t pid).flow = 2 ∧ t.flow.records = s.flow.records ∧
      t.flow.index = s.flow.index ∧
      (ctrGet s (oa 0x4040 n 0) + 1 < 2 ^ 48 → ctrGet t (oa 0x4040 n 0) = ctrGet s (oa 0x4040 n 0) + 1)) ∧
  (∀ (s : State) (h pid : Nat) (x : Hold), holdAt s h = some x → h < 2 ^ 20 → flowHalted s = false → x.state = 3 →
      x.setup = none → x.other = none → x.reverse = false → x.chain = [pid] → Unretired s pid → tsorted s.flow.holds = true →
    let n := sliceOfHold h
    (raw s < x.since + cyc (cfgN s 0x4032 0 0) → exec (.setupTimeout h) s = .next s) ∧
    (x.since + cyc (cfgN s 0x4032 0 0) ≤ raw s → ∃ t, exec (.setupTimeout h) s = .next t ∧ holdAt t h = none ∧
      (∀ i, i ≠ h → holdAt t i = holdAt s i) ∧ t.flow.records = s.flow.records ∧ t.flow.lines = s.flow.lines ∧
      (ctrGet s (oa 0x4041 n 4) + 1 < 2 ^ 48 → ctrGet t (oa 0x4041 n 4) = ctrGet s (oa 0x4041 n 4) + 1) ∧
      (pkt t pid).flow = (let f := tpFail (template s x.epoch x.template); if f = 1 then 5 else if f = 2 then 7 else 4)))

/-- While ageing is enabled, a visit of a record past its class's timeout and not pinned sends an ageing request to
the key's home slice, and any other visit sends none. The home slice, with no lookup ready to be served, decides
on the newest copy: renewed, the request is dropped; past its timeout, the flow's record, lines and index entry
are gone, its index heads its free chain, its key stands RETIRING, it is noted in the reborn table and counted
as aged or TCP closed, and an end notice with the final image is handed on where its reason is exported. A
removal's end removes the RETIRING entries without a chain and no other. A command of table code 0x10 or 0x11
over the mailbox that no check refuses becomes a HOST_FLOW item at the end of its class and awaits its answer,
or is answered BUSY when the class refuses the item. The Closer applies that item's set by executing the
command, and writes its answer. Executed with no request waiting at the home slice: a WRITE of one untranslated
flow inserts it under a drawn index, answered with that index; one of another format, or of a key that has a
record, is refused and changes nothing; with no record left it fails with RECORDS_FULL, counted. A DELETE by
index removes that record alone, a READ answers the merged record, a MODIFY changes the selected fields alone;
each of an absent index is NOT_FOUND. -/
def Obligations.FlowRemovalAndHost : Prop :=
  (∀ (s : State) (r : Nat), (cfgOn s 0x4031 0 0 = false → exec (.ageScan r) s = .next s) ∧
    (flowRec s r = none → exec (.ageScan r) s = .next s) ∧
    (∀ x, flowRec s r = some x → flowHalted s = false → cfgOn s 0x4031 0 0 = true → recGone s r = false →
      let n := homeSlice s x.key
      let frame := fun (t : State) => exec (.ageScan r) s = .next t ∧ t = { s with flow := { s.flow with
          visits := t.flow.visits, nominated := t.flow.nominated, ageQ := t.flow.ageQ } } ∧
        ((cnTelemetry x.cnt).testBit 2 = false → t.flow.nominated = s.flow.nominated ∧ t.flow.visits = s.flow.visits)
      (classTimeout s (cnClass x.cnt) ≤ idleMs s (cnLast x.cnt) → stPinned x.st = false →
        ∃ t, frame t ∧ t.flow.ageQ = tput s.flow.ageQ n (tget [] s.flow.ageQ n ++ [(r, s.path.turns)])) ∧
      (idleMs s (cnLast x.cnt) < classTimeout s (cnClass x.cnt) ∨ stPinned x.st = true →
        ∃ t, frame t ∧ t.flow.ageQ = s.flow.ageQ))) ∧
  (∀ (s : State) (n r k : Nat) (rest : List (Nat × Nat)) (x m : FlowRec), tget [] s.flow.ageQ n = (r, k) :: rest →
      flowHalted s = false → lookupReady s n = none → (awlReads s).contains r = false → sliceAsleep s n = false → inWrites s r = none → flowRec s r = some x → mergedRec s r = some m →
    (idleMs s (cnLast m.cnt) < classTimeout s (stClass m.st) →
      ∃ t, exec (.ageDecide n) s = .next t ∧ t = { s with flow := { s.flow with
        ageQ := tset [] s.flow.ageQ n rest, served := t.flow.served } }) ∧
    (classTimeout s (stClass m.st) ≤ idleMs s (cnLast m.cnt) → tsorted s.flow.records = true → tsorted s.flow.lines = true →
        tsorted s.flow.index = true → tsorted s.flow.index2 = true → stTrans x.st = false →
        tget [] s.flow.foldWait (homeSlice s x.key) = [] → (∀ h ∈ s.flow.holds, h.2.readWaits = false) →
      let home := homeSlice s x.key
      let reason := ageReason m
      ∃ t, exec (.ageDecide n) s = .next t ∧ flowRec t r = none ∧ (∀ j, j ≠ r → flowRec t j = flowRec s j) ∧
        (∀ y l, lineAt t y = some l → l.record ≠ r) ∧ (∀ y l, lineAt s y = some l → l.record ≠ r → lineAt t y = some l) ∧
        (∀ l ∈ layouts s, ∀ b ∈ layBuckets l x.key, bucketGone s l b = false → ∀ y ∈ bucketSlots b,
          ¬ (slValid (idxGet t l y) = true ∧ slRec (idxGet t l y) = r ∧ slDir (idxGet t l y) = 0)) ∧
        (r < s.flow.nr → tget [] t.flow.chains (r % 16) = r :: tget [] s.flow.chains (r % 16)) ∧
        (∀ h, holdFor s home x.key = none → freeHold s home = some h → holdAt t h = some (emptyHold x.key 4)) ∧
        (tget [] t.flow.reborn home).getLast? = some (fingerprint (seedsNow s) x.key, devMs s) ∧
        (reason = 1 → ctrGet s (oa 0x4040 home 5) + 1 < 2 ^ 48 → ctrGet t (oa 0x4040 home 5) = ctrGet s (oa 0x4040 home 5) + 1) ∧
        (reason = 2 → ctrGet s (oa 0x4040 home 6) + 1 < 2 ^ 48 → ctrGet t (oa 0x4040 home 6) = ctrGet s (oa 0x4040 home 6) + 1) ∧
        ((cfgN s 0x4034 0 0).testBit (reason - 1) = true → classRefuses s 4 = false →
          ∃ i ∈ readyItems t 4, i.routine = 8 ∧ i.record = r ∧ i.bytes = endNotice s home r reason m) ∧
        t.path = s.path ∧ t.tm = s.tm ∧ t.fwd = s.fwd ∧ t.hbm = s.hbm)) ∧
  (∀ r : FlowRec, ageReason r = (if stClass r.st = 15 ∧ kProto r.key = 6 ∧
      ((stFwd r.st = 4 ∧ stRev r.st = 4) ∨ stFwd r.st = 5 ∨ stRev r.st = 5) then 2 else 1)) ∧
  (∀ (s : State) (n : Nat), flowHalted s = false → tsorted s.flow.holds = true →
      (∀ e ∈ holdsOf s n, e.2.state = 4 → e.2.chain = []) →
    ∃ t, exec (.removalComplete n) s = .next t ∧
      (∀ h, holdAt t h = if h / 65536 = n ∧ (holdAt s h).any (·.state == 4) = true then none else holdAt s h) ∧
      t.flow = { s.flow with holds := t.flow.holds, missQ := t.flow.missQ, surrender := t.flow.surrender } ∧ t.path = s.path ∧
      t.cnt = s.cnt) ∧
  (∀ (s : State) (h : Nat) (payload : Bytes), TableRequest s h false payload →
    let c := tblCmd h false payload 4071
    let cmds : List (Nat × Instr) := [(1, .tableWrite (.message .mailbox)), (2, .tableDelete (.message .mailbox)),
      (3, .tableRead (.message .mailbox)), (6, .flowWrite (.message .mailbox)), (7, .flowDelete (.message .mailbox)),
      (8, .flowRead (.message .mailbox)), (9, .modify (.message .mailbox))]
    c.table ∈ [0x10, 0x11] → tblRefused c s = none → ∀ q ∈ cmds, tblRow c = q.1 →
    (classRefuses s 3 = true → ∃ t, exec q.2 s = .next t ∧ AnswerOnly t (itemRefused 3 s) ∧ MailboxAnswered s t (refuse stBusy 0)) ∧
    (classRefuses s 3 = false → ∃ t i d, exec q.2 s = .next t ∧ t = { s with aw := t.aw, cnt := t.cnt } ∧
      readyItems t 3 = readyItems s 3 ++ [i] ∧ i.routine = 10 ∧ i.source = 5 ∧ i.data = d.tag ∧
      t.aw.hostCmds = s.aw.hostCmds ++ [d] ∧ d.cmd = c ∧ d.src = .msg { who := 0, msg := mbxMsg s } ∧ d.ended = none ∧
      t.aw.awls = s.aw.awls ∧ t.aw.closer = s.aw.closer ∧ t.aw.front = s.aw.front ∧ t.aw.parked = s.aw.parked)) ∧
  (∀ (s : State) (c : CommitSet), awlsHalted s = false → flowHalted s = false →
      (s.aw.closer.find? fun x => setMayApply s x) = some c → c.item.routine = 10 → c.item.source = 5 → c.staged = [] →
    exec .closerApply s = .next (hostFlush (domainReleased c.item (hostServe c.item.data
      (leaveOut c.item (setAw s { s.aw with closer := s.aw.closer.erase c })))))) ∧
  (∀ (s : State) (d : HostCmd), (s.aw.hostCmds.find? fun x => x.tag == d.tag && x.ended.isNone) = some d →
    let x := hostExec d.cmd s
    let e : HostEnd := { status := x.status, detail := x.detail, done := x.done, result := x.result, reply := x.reply }
    hostServe d.tag s = setHostCmds x.st (x.st.aw.hostCmds.map fun y =>
      if y.tag = d.tag ∧ y.ended = none then { y with ended := some e } else y)) ∧
  (∀ (s : State) (d : HostCmd) (e : HostEnd), s.aw.hostCmds = [d] → d.src = .msg { who := 0, msg := mbxMsg s } → d.ended = some e →
      ((ring s cmdKey).enable = true ∨ (ring s cmdKey).stopped = true) →
    MailboxAnswered s (hostFlush s) (tblAnswer d.cmd e) ∧ AnswerOnly (hostFlush s) (setHostCmds s [])) ∧
  (∀ (s : State) (c : TblCmd), c.table = 0x10 → c.op = 1 → c.count = 1 →
    let x := storedImage (recOfBytes (slice c.payload 0 128))
    let n := homeSlice s x.key
    let l := layNow s
    let b := (layBuckets l x.key).headD 0
    let fails := fun (st d : Nat) (u : State) =>
      hostExec c s = { status := st, detail := d, done := 0, result := 0, reply := [], st := u }
    holdFor s n x.key = none → stTrans x.st = false → sliceReqs s n = [] → tget [] s.flow.ageQ n = [] →
    (bf x.st 127 124 ≠ 2 → fails 2 0x0503 s) ∧
    (bf x.st 127 124 = 2 → (idxFind s x.key).isSome = true → fails 2 0x0501 s) ∧
    (bf x.st 127 124 = 2 → idxFind s x.key = none → tget [] s.flow.drawn n = [] →
      (∀ j, j < 16 → tget [] s.flow.chains j = [] ∧ chainSize (drawLimit s) j ≤ tget 0 s.flow.taken j) →
      fails 5 2 (count 0x4041 n 2 s)) ∧
    (∀ r rest y, bf x.st 127 124 = 2 → idxFind s x.key = none → tget [] s.flow.drawn n = r :: rest → r < drawLimit s →
        r < 2 ^ 29 → recGone s r = false → layouts s = [l] → bucketGone s l b = false → freeSlot s l b = some y →
      let z := hostExec c s
      let u := z.st
      z.status = 0 ∧ z.done = 1 ∧ z.result = r ∧ z.reply = leBytes 4 r ∧ flowRec u r = some x ∧
        (∀ j, j ≠ r → flowRec u j = flowRec s j) ∧ tget 0 u.flow.index y = mkSlot (laySig l x.key) r 0 false ∧
        (∀ j, j ≠ y → tget 0 u.flow.index j = tget 0 s.flow.index j) ∧ u.flow.drawn = tset [] s.flow.drawn n rest ∧
        u.flow.lines = s.flow.lines ∧ u.flow.holds = s.flow.holds ∧ u.path = s.path ∧ u.fwd = s.fwd ∧
        cnFirst x.cnt ≠ 0 ∧ cnClass x.cnt = stClass x.st)) ∧
  (∀ (s : State) (c : TblCmd), c.table = 0x10 → c.count = 1 → c.index ≠ 0xFFFFFFFF → inWrites s c.index = none →
      (c.op = 3 → 128 ≤ c.limit) →
    let r := c.index
    let z := hostExec c s
    let u := z.st
    (flowRec s r = none → c.op ∈ [2, 3, 6] → z = { status := 4, detail := 0, done := 0, result := 0, reply := [], st := s }) ∧
    (∀ x m, flowRec s r = some x → recGone s r = false → mergedRec s r = some m → sliceReqs s (homeSlice s x.key) = [] →
        tget [] s.flow.ageQ (homeSlice s x.key) = [] →
      (c.op ∈ [2, 3, 6] → z.status = 0 ∧ z.done = 1 ∧ z.result = 0 ∧ z.reply = if c.op = 3 then recBytes m else []) ∧
      (c.op = 2 → tsorted s.flow.records = true → tsorted s.flow.lines = true → flowRec u r = none ∧
        (∀ j, j ≠ r → flowRec u j = flowRec s j) ∧ (∀ y l, lineAt u y = some l → l.record ≠ r) ∧ u.path = s.path ∧ u.fwd = s.fwd) ∧
      (c.op = 3 → u = { s with hbm := u.hbm, cnt := u.cnt } ∧ u.hbm.mem = s.hbm.mem) ∧
      (c.op = 6 → ∃ q, u = { s with flow := u.flow } ∧ flowRec u r = some q ∧ (∀ j, j ≠ r → flowRec u j = flowRec s j) ∧
        (let sel := leNat (slice c.payload 48 8)
         let v := leNat (slice c.payload 56 8)
         let a := BitVec.ofNat 256 (leNat (slice c.payload 64 32))
         q.key = x.key ∧
         acNhFwd q.act = (if sel.testBit 0 then acNhFwd a else acNhFwd x.act) ∧
         acNhRev q.act = (if sel.testBit 1 then acNhRev a else acNhRev x.act) ∧
         acEditFwd q.act = (if sel.testBit 2 then acEditFwd a else acEditFwd x.act) ∧
         acEditRev q.act = (if sel.testBit 3 then acEditRev a else acEditRev x.act) ∧
         acMeter q.act = (if sel.testBit 4 then acMeter a else acMeter x.act) ∧ bf q.act 163 0 = bf x.act 163 0 ∧
         cnMirror q.cnt = (if sel.testBit 5 then fld v 11 8 else cnMirror x.cnt) ∧
         cnTelemetry q.cnt = (if sel.testBit 6 then fld v 15 12 else cnTelemetry x.cnt) ∧ bf q.cnt 255 16 = bf x.cnt 255 16 ∧
         stClass q.st = (if sel.testBit 7 then fld v 3 0 else stClass x.st) ∧
         stPinned q.st = (if sel.testBit 8 then v.testBit 4 else stPinned x.st) ∧
         stDrop q.st = (if sel.testBit 9 then v.testBit 5 else stDrop x.st) ∧ bf q.st 127 116 = bf x.st 127 116 ∧
         bf q.st 103 0 = bf x.st 103 0) ∧
        (∀ y l, lineAt s y = some l → l.record ≠ r → lineAt u y = some l))))

/-- The REHASH copier enters every entry of the walked buckets into the new layout and leaves the old index alone,
or ends the operation FAILED with NO_SPACE and discards the new layout. The switch makes the new layout the
index under the new seeds, takes waiting lookups to their new home slices, and stops the flow engine exactly
when keys or fingerprints move. A surrender writes back and drops every line of the key's record and lets its
fetch go on. The changeover's end puts the new base and seeds in force and ends the operation DONE. Growth
appends 2^23 records per step; shrinking moves a live record to the drawn index below, its index entries with
it, and frees the old one; another region is copied MB by MB. A flush walk removes a matching flow unless it is
pinned and not included, and no other; a dump of flows writes each matching record at its destination and notes
the bytes, or ends FAILED at its limit; a dump or load of another table does not walk the flows. A load takes no
record past a suspend point that a SUSPEND waits for; it inserts its next version 2 record or counts it refused,
and hands a version 1 record to LOAD_V1, whose item inserts it or counts it refused, or waits while the class
refuses it. A bank that fails its test, or in which a scrub pass finds as many corrected errors as
flow.bank.threshold, is mapped to the free or testing spare and reported, else only reported; fewer errors are
only counted; a bank test begins, ends, or maps its bank. A settled cache mode leaves lines of the new form
alone. -/
def Obligations.FlowMoves : Prop :=
  (∀ (s : State) (cnt : Nat) (r : Rehash) (o : LongOp), s.flow.rehash = some r → workingOp s r.op = some o → r.phase = 0 →
      flowHalted s = false → o.suspendAsked = false → (∀ i, pcRetired s i = false) →
    let stop := min (layNow s).nb (r.next + cnt)
    let xs := (s.flow.index.filter fun e => decide (8 * r.next ≤ e.1) && decide (e.1 < 8 * stop)).map (·.1)
    ((copyList xs s).1 = true → ∃ t, exec (.rehashCopy cnt) s = .next t ∧
      t.flow = { s.flow with index2 := t.flow.index2, rehash := some { r with next := stop, phase := if stop = (layNow s).nb then 1 else 0 } } ∧
      (∀ x, 8 * r.next ≤ x → x < 8 * stop → slValid (tget 0 s.flow.index x) = true →
        slotKey s (slRec (tget 0 s.flow.index x)) (slDir (tget 0 s.flow.index x)) ≠ none →
        ∃ y, slValid (tget 0 t.flow.index2 y) = true ∧ slRec (tget 0 t.flow.index2 y) = slRec (tget 0 s.flow.index x) ∧
          slDir (tget 0 t.flow.index2 y) = slDir (tget 0 s.flow.index x)) ∧
      tfind t.ctl.ops r.op = some { o with done := stop, suspendAsked := false } ∧ t.path = s.path ∧ t.hbm = s.hbm) ∧
    ((copyList xs s).1 = false → ∃ t, exec (.rehashCopy cnt) s = .next t ∧ t.flow.rehash = none ∧ t.flow.index2 = [] ∧
      (tfind t.ctl.ops r.op).map (fun p => (p.state, p.result)) = some (6, 5))) ∧
  (∀ (s : State) (r : Rehash) (o : LongOp), s.flow.rehash = some r → workingOp s r.op = some o → r.phase = 1 →
      flowHalted s = false →
    ∃ t, exec .rehashSwitch s = .next t ∧ t.flow.index = s.flow.index2 ∧ t.flow.index2 = [] ∧
      t.flow.rehash = some { r with phase := 2, since := raw s, newOnly := [] } ∧
      (∀ i ∈ [1, 2, 3, 4, 5], flowSeed t i = r.seeds.getD (i - 1) 0) ∧
      (∀ n pid k, pid ∈ sliceReqs s n → (pkt s pid).key = some k → pid ∈ sliceReqs t (homeSlice t k)) ∧
      (seedsMove r = true → t.ctl = { s.ctl with stopped := s.ctl.stopped ++ [(Fn.flowEngine, raw s)] }) ∧
      (seedsMove r = false → t.ctl = s.ctl) ∧ t.flow.records = s.flow.records ∧ t.flow.lines = s.flow.lines ∧ t.path = s.path) ∧
  (∀ (s : State) (n c : Nat) (q : BitVec 384 × Nat) (x : Hold), (s.flow.surrender.find? fun q => oldHome s q.1 == some n &&
        !((holdsOf s n).any fun h => h.1 != q.2 && bareKey h.2.key == q.1)) = some q → flowHalted s = false →
      idxFind s q.1 = some c → holdAt s q.2 = some x → tsorted s.flow.lines = true →
      (∀ j, tget [] s.flow.foldWait j = []) → (∀ h ∈ s.flow.holds, h.2.readWaits = false) →
    ∃ t, exec (.surrenderRequest n) s = .next t ∧ (∀ y l, lineAt t y = some l → l.record ≠ c / 2) ∧
      (∀ y l, lineAt s y = some l → l.record ≠ c / 2 → lineAt t y = some l) ∧ wbEntries t (c / 2) = [] ∧
      t.flow.surrender = s.flow.surrender.filter (· != q) ∧
      t.flow.missQ = tset [] s.flow.missQ x.pipe (tget [] s.flow.missQ x.pipe ++ [q.2]) ∧
      (∀ j, j ≠ c / 2 → flowRec t j = flowRec s j) ∧ t.flow.holds = s.flow.holds ∧ t.flow.index = s.flow.index) ∧
  (∀ (s : State) (r : Rehash) (o : LongOp), s.flow.rehash = some r → r.phase = 2 → flowHalted s = false → s.flow.surrender = [] →
      tfind s.ctl.ops r.op = some o →
    ∃ t, exec .rehashChangeoverEnd s = .next t ∧ t.flow.rehash = none ∧ partBase t 1 = r.region ∧
      (∀ i ∈ [1, 2, 3, 4, 5], cfgN t 0x4000 i 0 = r.seeds.getD (i - 1) 0 % 2 ^ 32) ∧ t.flow.index = s.flow.index ∧
      (tfind t.ctl.ops r.op).map (fun p => (p.state, p.result)) = some (5, 0) ∧ t.path = s.path) ∧
  (∀ (s : State) (z : Resize) (o : LongOp), s.flow.resize = some z → workingOp s z.op = some o → flowHalted s = false →
      z.next < o.total →
    (z.part = 0 → partSize s 0 < z.size * gb → ∃ t, exec .resizeStep s = .next t ∧ partSize t 0 = partSize s 0 + gb ∧
      t.flow = { s.flow with nr := s.flow.nr + 2 ^ 23, resize := some { z with next := z.next + 2 ^ 23 } } ∧
      (tfind t.ctl.ops z.op).map (·.done) = some (z.next + 2 ^ 23) ∧
      (∀ a, (a < z.base + partSize s 0 ∨ z.base + partSize s 0 + gb ≤ a) → readByte t.hbm.mem a = readByte s.hbm.mem a)) ∧
    (∀ r q rest x, z.part = 0 → z.size * gb < partSize s 0 → inWrites s r = none → flowRec s r = some x →
        (s.flow.records.filter fun e => decide (z.size * 2 ^ 23 + z.next ≤ e.1) &&
          decide (e.1 < z.size * 2 ^ 23 + z.next + 65536)).map (·.1) = [r] →
        tget [] s.flow.drawn (homeSlice s x.key) = q :: rest → q < drawLimit s → q < z.size * 2 ^ 23 → q < 2 ^ 29 →
        recGone s q = false → tsorted s.flow.records = true → sliceReqs s (homeSlice s x.key) = [] →
        tget [] s.flow.ageQ (homeSlice s x.key) = [] →
      ∃ t, exec .resizeStep s = .next t ∧ flowRec t q = some x ∧ flowRec t r = none ∧
        (∀ j, j ≠ q → j ≠ r → flowRec t j = flowRec s j) ∧
        (∀ y, tget 0 t.flow.index y = (let v := tget 0 s.flow.index y
          if slValid v = true ∧ slRec v = r then putBf v 31 3 q else v)) ∧
        (∀ y l, lineAt s y = some l → lineAt t y = some (if l.record = r then { l with record := q } else l)) ∧
        tget [] t.flow.chains (r % 16) = r :: tget [] s.flow.chains (r % 16) ∧
        t.flow.resize = some { z with next := z.next + 65536 } ∧ t.path = s.path) ∧
    (2 ≤ z.part → z.part ≤ 4 → Memory.wf s.hbm.mem = true → (∀ i, pcRetired s i = false) →
      let src := partBase s z.part + z.next * 2 ^ 20
      let dst := z.base + z.next * 2 ^ 20
      src + 2 ^ 20 ≤ dst ∨ dst + 2 ^ 20 ≤ src →
      ∃ t, exec .resizeStep s = .next t ∧ t.flow = { s.flow with resize := some { z with next := z.next + 1 } } ∧
        (∀ k, k < 2 ^ 20 → readByte t.hbm.mem (dst + k) = readByte s.hbm.mem (src + k) ∧ readByte t.hbm.mem (src + k) = 0) ∧
        (∀ a, (a < src ∨ src + 2 ^ 20 ≤ a) → (a < dst ∨ dst + 2 ^ 20 ≤ a) → readByte t.hbm.mem a = readByte s.hbm.mem a) ∧
        t.path = s.path)) ∧
  (∀ (s : State) (n cnt r : Nat) (o : LongOp) (m : FlowRec), workingOp s n = some o → flowHalted s = false →
      o.suspendAsked = false → inWrites s r = none → recGone s r = false → mergedRec s r = some m →
      tsorted s.flow.records = true → sliceReqs s (homeSlice s m.key) = [] → tget [] s.flow.ageQ (homeSlice s m.key) = [] →
    let start := (walkAt s n).1
    let stop := min s.flow.nr (start + cnt)
    (s.flow.records.filter fun e => decide (start ≤ e.1) && decide (e.1 < stop)).map (·.1) = [r] →
    (o.kind = 5 → ∃ t, exec (.flowWalk n cnt) s = .next t ∧ (walkAt t n).1 = stop ∧
      tfind t.ctl.ops n = some { o with done := stop, suspendAsked := false, written := (walkAt s n).2 } ∧
      (flowRec t r = none ↔ (walkMatches s o.params m = true ∧
        (stPinned m.st = false ∨ (o.params.getD 98 0).toNat.testBit 1 = true))) ∧
      (∀ j, j ≠ r → flowRec t j = flowRec s j) ∧ t.path = s.path) ∧
    (o.kind = 4 → Config.opTable 4 o.params ≠ 0x10 → exec (.flowWalk n cnt) s = .next s) ∧
    (o.kind = 4 → Config.opTable 4 o.params = 0x10 → let b := Config.dumpBlock o.params
      ∃ t, exec (.flowWalk n cnt) s = .next t ∧ t.flow.records = s.flow.records ∧ t.path = s.path ∧
        (walkMatches s b.1 m = false → t.host = s.host ∧ t.hbm = s.hbm ∧ walkAt t n = (stop, (walkAt s n).2)) ∧
        (walkMatches s b.1 m = true → (walkAt s n).2 + 128 ≤ b.2.2.2 →
          walkAt t n = (stop, (walkAt s n).2 + 128) ∧ (tfind t.ctl.ops n).map (·.written) = some ((walkAt s n).2 + 128) ∧
          (b.2.1 = false → t.host.mem = writeBytes s.host.mem (b.2.2.1 + (walkAt s n).2) (recBytes m)) ∧
          (b.2.1 = true → t.hbm = (hbmWrite s (b.2.2.1 + (walkAt s n).2) (recBytes m)).hbm)) ∧
        (walkMatches s b.1 m = true → b.2.2.2 < (walkAt s n).2 + 128 →
          (tfind t.ctl.ops n).map (fun p => (p.state, p.result, p.written)) = some (6, 5, (walkAt s n).2)))) ∧
  (∀ (s : State) (n : Nat) (data : Bytes) (o : LongOp), workingOp s n = some o → o.kind = 3 → flowHalted s = false →
    let b := Config.loadBlock o.params
    let i := (walkAt s n).1
    let size := if b.2.2.2 = 1 then 96 else 128
    let bytes := padTo size (if b.1 then hbmRead s (b.2.1 + size * i) size else data)
    let held := Config.opTable 3 o.params ≠ 0x10 ∨ b.2.2.1 ≤ i ∨ (o.suspendAsked = true ∧ i % 4096 = 0 ∧ o.done < i)
    (held → exec (.loadRecord n data) s = .next s) ∧
    (¬ held → b.2.2.2 ≠ 1 →
      let r := hostInsert (recOfBytes bytes) (setWalk n (i + 1, 0) s)
      ∃ t, exec (.loadRecord n data) s = .next t ∧ walkAt t n = (i + 1, 0) ∧
        (tfind t.ctl.ops n).map (·.done) = some (i + 1) ∧ t.flow = r.2.2.2.flow ∧
        (r.1 = 0 → t.cnt = r.2.2.2.cnt) ∧ (r.1 ≠ 0 → t.cnt = (loadRefused n r.1 r.2.1 r.2.2.2).cnt)) ∧
    (¬ held → b.2.2.2 = 1 →
      (classRefuses s 3 = true → exec (.loadRecord n data) s = .next s) ∧
      (classRefuses s 3 = false → ∃ t x, exec (.loadRecord n data) s = .next t ∧ walkAt t n = (i + 1, 0) ∧
        readyItems t 3 = readyItems s 3 ++ [x] ∧ x.routine = 11 ∧ x.data = n + 16 * o.order ∧ x.bytes = bytes ∧
        t.flow = { s.flow with walks := t.flow.walks } ∧ t.ctl = s.ctl ∧ t.path = s.path))) ∧
  (∀ (s : State) (tag n : Nat) (bs : Bytes) (o : LongOp), loadOf tag s = some (n, o) →
    (∀ d, fromV1 bs s = .inl d → loadServe tag bs s = loadDone n o (loadRefused n 2 d s)) ∧
    (∀ x st d r u, fromV1 bs s = .inr x → hostInsert x s = (st, d, r, u) →
      loadServe tag bs s = loadDone n o (if st = 0 then u else loadRefused n st d u))) ∧
  (∀ (s : State) (n bank hits : Nat),
    let v := tget (0, 0) s.flow.spare n
    let mapped := fun (u : State) (c : Nat) (y : Nat) =>
      detect 7 0x0503 [n, y, c] (setFlow u { u.flow with spare := tset (0, 0) u.flow.spare n (2, y) })
    let found := (List.range hits).foldl (fun t _ => noteFault 1 t) s
    let fault := fun (u : State) (c : Nat) =>
      (v.1 ≠ 2 → exec (.sliceBankSpare n bank hits) s = .next (mapped u c bank)) ∧
      (v = (2, bank) → exec (.sliceBankSpare n bank hits) s = .next u) ∧
      (v.1 = 2 → v.2 ≠ bank → exec (.sliceBankSpare n bank hits) s = .next (detect 7 0x0504 [n, bank] u))
    (hits = 0 → fault s 1) ∧ (0 < hits → cfgN s 0x4007 0 0 ≤ hits → fault found 2) ∧
    (0 < hits → hits < cfgN s 0x4007 0 0 → exec (.sliceBankSpare n bank hits) s = .next found) ∧ found.flow = s.flow ∧
    (∀ pass, v.1 = 0 → exec (.sliceOnlineBist n bank pass) s = .next { s with flow := { s.flow with
      spare := tset (0, 0) s.flow.spare n (1, bank) } }) ∧
    (v.1 = 1 → exec (.sliceOnlineBist n bank true) s = .next { s with flow := { s.flow with
      spare := tset (0, 0) s.flow.spare n (0, 0) } }) ∧
    (v.1 = 1 → exec (.sliceOnlineBist n bank false) s = .next (mapped s 1 v.2)) ∧
    (∀ pass, v.1 = 2 → exec (.sliceOnlineBist n bank pass) s = .next s) ∧
    (∀ u c, (detect 7 0x0503 [n, bank, c] u).flow = u.flow)) ∧
  (∀ s : State, (s.flow.converting = 0 → exec .cacheModeSettled s = .next s) ∧
    (s.flow.converting ≠ 0 → flowHalted s = false → tsorted s.flow.lines = true →
        (∀ h ∈ s.flow.holds, h.2.readWaits = false) →
      ∃ t, exec .cacheModeSettled s = .next t ∧ t.flow.converting = 0 ∧
        (∀ y l, lineAt t y = some l ↔ (lineAt s y = some l ∧ l.wide = cfgOn s 0x4003 0 0)) ∧
        (∀ j, (∀ y l, lineAt s y = some l → l.record = j → l.wide = cfgOn s 0x4003 0 0) →
          wbEntries s j = [] → flowRec t j = flowRec s j) ∧
        t.flow.holds = s.flow.holds ∧ t.flow.index = s.flow.index ∧ t.path = s.path))

/-- A word from a ROM address that the lowest valid match register holds comes from that register's patch address,
any other from its own. A word's ALU slots read the registers as they stood, alu1's result stands and alu0 sets
the flags. An executed word is counted and leads on: NEXT to the following address, JUMP to its target, BRANCH
to its target when its condition holds, CALL to its target with the following address pushed, RETURN to the
popped address, WAIT and PARK on when their tags are complete; an unfinished WAIT, a PARK with the context store
full and an END with the Closer full stay at the word; another PARK moves the context to the store, and END
hands the staged set to the Closer. A ninth nested CALL, a RETURN on an empty stack, a tag still in use, and a
staged set above 1,024 bytes fault the item, which goes back to the head of its class. LOCAL accesses land after
the word; a tagged operation is outstanding under its tag; a staged one joins the staged set, stands with its
data in the staged region, and changes nothing else outside the slot. An awl's request of a slice is issued
under its tag, no other request waiting there. An AD_READ puts its unit of the awl-data partition into scratch.
A completion puts its result into the slot and makes the tag observable; a parked routine whose tags are
complete is ready at the head of its class. -/
def Obligations.AwlExecution : Prop :=
  (∀ (s : State) (x : Nat), fetchAt s (true, x) = (true, x) ∧
    ((∀ m v, tfind s.aw.matchReg m = some v → m < 64 → ¬ (mrValid v = true ∧ mrRom v = x)) → tsorted s.aw.matchReg = true →
      fetchAt s (false, x) = (false, x)) ∧
    (∀ m v, tfind s.aw.matchReg m = some v → m < 64 → mrValid v = true → mrRom v = x → tsorted s.aw.matchReg = true →
      (∀ j u, j < m → tfind s.aw.matchReg j = some u → ¬ (mrValid u = true ∧ mrRom u = x)) →
      fetchAt s (false, x) = (true, mrPatch v))) ∧
  (∀ (w : BitVec 192) (c : Ctx) (r : Nat), c.late = [] → Memory.wf c.mem = true → r < 64 →
    let x0 := aluSlot c (mwAlu0 w) (mwImm w)
    let x1 := aluSlot c (mwAlu1 w) (mwImm w)
    let d := finishWord w c
    d.flags = x0.2 ∧ d.issued = false ∧ d.atYield = mwYield w ∧ d.staged = c.staged ∧ d.busy = c.busy ∧ d.stack = c.stack ∧
      regOf d r = (match x1.1, x0.1 with
        | some v, some u => if v.1 = r then v.2 else if u.1 = r then u.2 else regOf c r
        | some v, none => if v.1 = r then v.2 else regOf c r
        | none, some u => if u.1 = r then u.2 else regOf c r
        | none, none => regOf c r)) ∧
  (∀ (s : State) (a l : Nat) (c : Ctx) (w : BitVec 192), AtWord s a l c w →
    let e := following (fetchAt s (c.patch, c.pc))
    let words := oa 0x4835 c.item.routine 1
    let up := fun (t : State) => ctrGet s words + 1 < 2 ^ 48 → ctrGet t words = ctrGet s words + 1
    let keeps := fun (t : State) => OnlySlot s t a l ∧ t.aw.parked = s.aw.parked ∧ t.aw.closer = s.aw.closer ∧ up t
    let ran := fun (x : Instr) (p : Bool × Nat) (d : Ctx) => ∃ t, exec x s = .next t ∧
      slotCtx (awl t a) l = some { finishWord w d with patch := p.1, pc := p.2 } ∧ keeps t
    let stays := fun (x : Instr) => ∃ t, exec x s = .next t ∧ slotCtx (awl t a) l = some { finishWord w c with atYield := false } ∧
      OnlySlot s { t with cnt := s.cnt, host := s.host } a l ∧ t.aw.parked = s.aw.parked ∧ t.aw.closer = s.aw.closer ∧ up t
    let faulted := fun (x : Instr) => c.item.dispatches < 2 → c.grants = [] → ∃ t, exec x s = .next t ∧
      frontItems t c.item.cls = ({ c.item with dispatches := c.item.dispatches + 1, avoid := a + 1, since := raw s }, none) ::
        frontItems s c.item.cls ∧ slotCtx (awl t a) l = none ∧ t.aw.closer = s.aw.closer ∧ up t
    (mwSeq w = 0 → ran (.next a) e c) ∧
    (mwSeq w = 1 → ran (.jump a) (targetOf w) c) ∧
    (mwSeq w = 2 → ∃ d, d.mem = c.mem ∧ d.stack = c.stack ∧ d.staged = c.staged ∧ d.busy = c.busy ∧
      ran (.branch a) (if condHolds c (mwCond w) then targetOf w else e) d) ∧
    (mwSeq w = 3 → c.stack.length < 8 → ran (.call a) (targetOf w) { c with stack := e :: c.stack }) ∧
    (mwSeq w = 3 → 8 ≤ c.stack.length → faulted (.call a)) ∧
    (∀ p q, mwSeq w = 4 → c.stack = p :: q → ran (.ret a) p { c with stack := q }) ∧
    (mwSeq w = 4 → c.stack = [] → faulted (.ret a)) ∧
    (mwSeq w = 5 → tagsDone c (mwTarget w) = true → ran (.wait a) e (observe (maskTags (mwTarget w)) c)) ∧
    (mwSeq w = 5 → tagsDone c (mwTarget w) = false → stays (.wait a)) ∧
    (mwSeq w = 6 → tagsDone c (mwTarget w) = true → ran (.park a) e (observe (maskTags (mwTarget w)) c)) ∧
    (mwSeq w = 6 → tagsDone c (mwTarget w) = false → ctxFull s = true → stays (.park a)) ∧
    (mwSeq w = 6 → tagsDone c (mwTarget w) = false → ctxFull s = false → ∃ t, exec (.park a) s = .next t ∧
      t.aw.parked = s.aw.parked ++ [{ finishWord w c with
        patch := e.1, pc := e.2, mask := BitVec.ofNat 16 (mwTarget w), ready := false }] ∧
      slotCtx (awl t a) l = none ∧ OnlySlot s { t with cnt := s.cnt, host := s.host } a l ∧ t.aw.closer = s.aw.closer ∧ up t ∧
      (awlsHalted s = true → (awl t a).quiet = true)) ∧
    (mwSeq w = 7 → closerFull s = true → stays (.finish a)) ∧
    (mwSeq w = 7 → closerFull s = false → ∃ t m, exec (.finish a) s = .next t ∧
      t.aw.closer = s.aw.closer ++ [{ item := c.item, staged := c.staged ++ m }] ∧ (c.item.routine ≠ 15 → m = []) ∧
      (c.item.routine = 15 → m.map (·.mop) = [16]) ∧ slotCtx (awl t a) l = none ∧
      OnlySlot s { t with cnt := s.cnt, host := s.host } a l ∧ t.aw.parked = s.aw.parked ∧ up t ∧ (awlsHalted s = true → (awl t a).quiet = true) ∧
      (ctrGet s (oa 0x4835 c.item.routine 0) + 1 < 2 ^ 48 →
        ctrGet t (oa 0x4835 c.item.routine 0) = ctrGet s (oa 0x4835 c.item.routine 0) + 1))) ∧
  (∀ (s : State) (a l : Nat) (c : Ctx) (w : BitVec 192), running s a = some (l, c) → wordOf s c = w → c.issued = false →
    let g := argsOf w c
    let tag := mwTag w
    let op := fun (bs : Bytes) => ({ mop := mwMop w, args := g, reg := mwDreg w, awl := a, data := bs } : MemOp)
    let faulted := fun (x : Instr) => c.item.dispatches < 2 → c.grants = [] → ∃ t, exec x s = .next t ∧
      frontItems t c.item.cls = ({ c.item with dispatches := c.item.dispatches + 1, avoid := a + 1, since := raw s }, none) ::
        frontItems s c.item.cls ∧ (tcanon awlReset s.aw.awls = true → slotCtx (awl t a) l = none)
    let lands := fun (x : Instr) (o : Nat) (bs : Bytes) => ∃ t, exec x s = .next t ∧
      slotCtx (awl t a) l = some { c with late := c.late ++ [(o, bs)], issued := true } ∧ OnlySlot s t a l ∧ t.cnt = s.cnt
    let tagged := fun (x : Instr) (bs : Bytes) =>
      ((tfind c.busy tag).isSome = true ∨ c.done.contains tag = true → faulted x) ∧
      (tfind c.busy tag = none → c.done.contains tag = false → ∃ t, exec x s = .next t ∧
        slotCtx (awl t a) l = some { c with busy := tput c.busy tag (op bs), issued := true } ∧
        OnlySlot s { t with hbm := s.hbm, cnt := s.cnt } a l ∧ t.hbm.mem = s.hbm.mem)
    let staged := fun (x : Instr) (bs : Bytes) =>
      (1024 < stagedBytes c.staged + g.staged → faulted x) ∧
      (stagedBytes c.staged + g.staged ≤ 1024 → ∃ t d, exec x s = .next t ∧ slotCtx (awl t a) l = some d ∧
        d.staged = c.staged ++ [op bs] ∧ d.issued = true ∧ d.busy = c.busy ∧ d.pc = c.pc ∧ d.patch = c.patch ∧ d.late = c.late ∧
        (∀ r, r < 64 → regOf d r = regOf c r) ∧ OnlySlot s t a l ∧ t.cnt = s.cnt ∧
        (Memory.wf c.mem = true → readBytes d.mem (rgStaged + stagedBytes c.staged) (min bs.length g.staged) = bs.take g.staged))
    let drained := fun (n : Nat) => sliceReqs s n = [] ∧ tget [] s.flow.ageQ n = []
    (mwMop w = 1 → lands (.localRd a) (rgRegs + 8 * mwDreg w) (padTo 8 (slotData c g.offset (min 8 g.len)))) ∧
    (mwMop w = 2 → lands (.localWr a) (g.offset % slotBytes) ((leBytes 8 (regOf c (mwDreg w)).toNat).take (min 8 g.len))) ∧
    (mwMop w = 3 → tagged (.adRead a) []) ∧
    (mwMop w = 4 → staged (.adWrite a) (slotData c g.offset 64)) ∧
    (mwMop w = 5 → (g.what = 0 → (∀ x, flowRec s g.target = some x → drained (homeSlice s x.key)) → tagged (.slice a) []) ∧
      (g.what = 1 → drained (homeSlice s (BitVec.ofNat 384 (beNat (slotData c g.offset 48)))) →
        tagged (.slice a) (slotData c g.offset 48)) ∧
      (g.what = 2 → staged (.slice a) (slotData c g.offset 128)) ∧ (2 < g.what → staged (.slice a) (slotData c g.offset 48))) ∧
    (mwMop w = 6 → tagged (.hash a) (slotData c g.offset (min 48 g.len))) ∧
    (mwMop w = 7 → tagged (.poolGet a) []) ∧
    (mwMop w = 8 → staged (.poolPut a) []) ∧
    (mwMop w = 9 → staged (.release a) (slotData c g.offset (min 256 g.len))) ∧
    (mwMop w = 10 → staged (.count a) []) ∧
    (mwMop w = 11 → staged (.emit a) (emitData s g c))) ∧
  (∀ (s : State) (id tag : Nat), findCtx s id = none → exec (.memOpComplete id tag) s = .next s) ∧
  (∀ (s : State) (id tag a l : Nat) (c : Ctx) (o : MemOp), findCtx s id = some (.slot a l, c) → tfind c.busy tag = some o →
      flowHalted s = false →
    let d : Ctx := { c with busy := tdel c.busy tag, done := c.done ++ [tag] }
    let off := o.args.offset % slotBytes
    let gives := fun (x : Ctx) => ∃ t, exec (.memOpComplete id tag) s = .next t ∧ slotCtx (awl t a) l = some x ∧
      (∀ b, b ≠ a → awl t b = awl s b) ∧ t = { s with aw := { s.aw with awls := t.aw.awls } }
    (o.mop = 3 → rangePoisoned s (awlDataAddr s o.args.target) 64 = false →
      rgScratch ≤ scratchAt o.args ∧ scratchAt o.args + 64 ≤ slotBytes ∧
        gives (putSlot (scratchAt o.args) (awlUnit s (awlDataOff s o.args.target)) d)) ∧
    (∀ x, o.mop = 5 → o.args.what = 0 → mergedRec s o.args.target = some x → gives (putSlot off (recBytes x) d)) ∧
    (∀ r, o.mop = 5 → o.args.what = 1 → idxFind s (BitVec.ofNat 384 (beNat o.data)) = some r →
      gives (setReg o.reg (Config.probeResult (some r)) d)) ∧
    (o.mop = 6 → gives (setReg o.reg (BitVec.ofNat 64 (seededCrc o.args.seed o.data)) d)) ∧
    (∀ h x n, o.mop = 5 → o.args.what = 1 → idxFind s (BitVec.ofNat 384 (beNat o.data)) = none →
      holdFor s (homeSlice s (BitVec.ofNat 384 (beNat o.data))) (BitVec.ofNat 384 (beNat o.data)) = none →
      itemHold s c.item = some (h, x) → x.other = none → freeHold s (homeSlice s (BitVec.ofNat 384 (beNat o.data))) = some n → n ≠ h →
      ∃ t, exec (.memOpComplete id tag) s = .next t ∧ slotCtx (awl t a) l = some (setReg o.reg (Config.probeResult none) d) ∧
        holdAt t h = some { x with other := some n } ∧
        holdAt t n = some { emptyHold (BitVec.ofNat 384 (beNat o.data)) 3 with
          pipe := x.pipe, template := x.template, epoch := x.epoch, since := raw s, reverse := true, other := some h })) ∧
  (∀ (s : State) (id tag : Nat) (c : Ctx) (o : MemOp), findCtx s id = some (.store, c) → tfind c.busy tag = some o → o.mop = 6 →
    let d := setReg o.reg (BitVec.ofNat 64 (seededCrc o.args.seed o.data)) { c with busy := tdel c.busy tag, done := c.done ++ [tag] }
    let i := { c.item with since := raw s }
    (tagsDone d c.mask.toNat = true → ∃ t, exec (.memOpComplete id tag) s = .next t ∧
      frontItems t c.item.cls = frontItems s c.item.cls ++ [(i, some { observe (maskTags c.mask.toNat) d with item := i })] ∧
      (∀ x ∈ t.aw.parked, x.id ≠ id) ∧ t.aw.awls = s.aw.awls) ∧
    (tagsDone d c.mask.toNat = false → ∃ t, exec (.memOpComplete id tag) s = .next t ∧ d ∈ t.aw.parked ∧
      t.aw.parked.length = s.aw.parked.length ∧ t.aw.front = s.aw.front ∧ t.aw.awls = s.aw.awls))

/-- While the cluster is stopped, or when no class holds an item that may go, ITEM_DISPATCH changes nothing. The
lowest strict class with such an item goes first unless the floor gives the turn to a weighted class; weighted
classes go lowest first while they have credit, which falls by one per dispatch and is refilled by the weights
when none is left. The first item of the class that is not skipped leaves it and enters a free slot, not ready;
its domain then counts one more dispatched item, if it is new, and remembers the awl. A new EXCLUSIVE item of a
domain with an item out is skipped. Outside class 0 and re-dispatches, an item goes to its domain's last awl
while that takes items, else once it has waited aw.affinity.wait to one of the fewest busy cycles, the slice's
die breaking ties; a re-dispatch avoids its awl; class 0 takes an idle awl, else one whose routine has just
ended or parked. PREFETCH_COMPLETE fills the item, key, record (for a setup the one that its template gives),
header and parameter regions and makes the slot ready; a resumed routine keeps its registers and the first 480 B
of scratch. At a yield point a quiesce puts the routine at its class's head and, in a lasting stop, stops the
awl; an urgent item, when the next dispatch is not due to a weighted class, takes the freed slot. A pair
mismatch retires the awl, re-dispatches its running item and returns the other to the head of its class. A fault
of the item re-dispatches it, or after two re-dispatches ends it as a decline. A class's age alarm is reported
once an item has waited that long. A timer creates its item unless one of its own waits or the class refuses it. -/
def Obligations.AwlScheduling : Prop :=
  (∀ (s : State),
    let blocked := fun (e : Item × Option Ctx × Bool) => e.2.2 = false ∧ e.1.mode = 2 ∧ 0 < (domainOf s e.1).out
    let skipped := fun (k : Nat) (e : Item × Option Ctx × Bool) => blocked e ∨ awlFor s k e.1 = none
    let idle := fun (k : Nat) => ∀ e ∈ classView s k, skipped k e
    let first := fun (k n a : Nat) (e : Item × Option Ctx × Bool) => k < 8 ∧ (classView s k)[n]? = some e ∧ ¬ blocked e ∧
      awlFor s k e.1 = some a ∧ ∀ m x, m < n → (classView s k)[m]? = some x → skipped k x
    let placed := fun (t : State) (k n a : Nat) (e : Item × Option Ctx × Bool) => exec .itemDispatch s = .next t ∧ ∃ l d,
      l < 2 ∧ slotCtx (awl s a) l = none ∧ slotCtx (awl t a) l = some d ∧ d.ready = false ∧
      (match e.2.1 with
        | some c => d = { c with ready := false, atYield := false }
        | none => d.item = { e.1 with avoid := 0 } ∧ d.begun = false ∧ d.staged = [] ∧ d.busy = [] ∧ d.patch = false ∧
          d.pc = Config.routineEntry e.1.routine % 65536) ∧
      slotCtx (awl t a) (1 - l) = slotCtx (awl s a) (1 - l) ∧ (∀ b, b ≠ a → awl t b = awl s b) ∧
      (e.2.2 = true → frontItems t k = (frontItems s k).eraseIdx n ∧ t.aw.ready = s.aw.ready) ∧
      (e.2.2 = false → readyItems t k = (readyItems s k).eraseIdx (n - (frontItems s k).length) ∧ t.aw.front = s.aw.front) ∧
      (∀ j, j ≠ k → readyItems t j = readyItems s j ∧ frontItems t j = frontItems s j) ∧
      (e.1.basis ≠ 0 → (domainOf t e.1).lastAwl = a + 1 ∧
        (domainOf t e.1).out = (domainOf s e.1).out + (if e.2.2 then 0 else 1)) ∧
      t.aw.parked = s.aw.parked ∧ t.aw.closer = s.aw.closer ∧ t.flow = s.flow
    let strict := fun (k : Nat) => classStrict s k = true
    let floor := cfgN s 0x4831 0 0
    (awlsHalted s = true → exec .itemDispatch s = .next s) ∧
    ((∀ k, k < 8 → idle k) → exec .itemDispatch s = .next s) ∧
    (∀ k n a e, awlsHalted s = false → tcanon [] s.aw.ready = true → tcanon [] s.aw.front = true → strict k → first k n a e →
        (∀ j, j < k → strict j → idle j) → ((∀ j, j < 8 → ¬ strict j → idle j) ∨ s.aw.strictRun + 1 < floor) →
      ∃ t, placed t k n a e ∧ t.aw.credit = s.aw.credit ∧
        ((∃ j, j < 8 ∧ ¬ strict j ∧ 0 < classDepth s j) → t.aw.strictRun = s.aw.strictRun + 1)) ∧
    (∀ k n a e, awlsHalted s = false → tcanon [] s.aw.ready = true → tcanon [] s.aw.front = true → ¬ strict k → first k n a e →
        ((∀ j, j < 8 → strict j → idle j) ∨ floor ≤ s.aw.strictRun + 1) →
      (0 < credit s k → (∀ j, j < k → ¬ strict j → idle j ∨ credit s j = 0) →
        ∃ t, placed t k n a e ∧ t.aw.credit = tset 0 s.aw.credit k (credit s k - 1) ∧ t.aw.strictRun = 0) ∧
      ((∀ j, j < 8 → ¬ strict j → idle j ∨ credit s j = 0) → (∀ j, j < k → ¬ strict j → idle j) →
        tcanon 0 s.aw.credit = true →
        ∃ t, placed t k n a e ∧ t.aw.strictRun = 0 ∧ ∀ j, j < 8 → ¬ strict j → 0 < classDepth s j →
          credit t j = credit s j + max 1 (cfgN s 0x4810 j 1) - (if j = k then 1 else 0)))) ∧
  (∀ (s : State) (k : Nat) (i : Item),
    let last := (domainOf s i).lastAwl
    let better := fun (p : Nat → Bool) (a : Nat) => p a = true ∧ a < 64 ∧ ∀ b, b < 64 → p b = true → busyCycles s a < busyCycles s b ∨
      (busyCycles s a = busyCycles s b ∧ (b / 32 = i.slice / 8 → a / 32 = i.slice / 8))
    let best := fun (p : Nat → Bool) => (∃ a, a < 64 ∧ p a = true) → ∃ a, awlFor s k i = some a ∧ better p a
    let kept := i.basis ≠ 0 ∧ last ≠ 0 ∧ awlTakes s (last - 1) = true
    (∀ a, awlTakes s a = true → a < 64 ∧ tget 0 s.safe.domains (16 + a / 16) = 0 ∧ (awl s a).retired = false ∧
      ((awl s a).l0 = none ∨ (awl s a).l1 = none)) ∧
    (k ≠ 0 → i.avoid = 0 → kept → awlFor s k i = some (last - 1)) ∧
    (k ≠ 0 → i.avoid = 0 → ¬ kept → itemWait s i < cfgN s 0x4830 0 0 → awlFor s k i = none) ∧
    (k ≠ 0 → i.avoid = 0 → ¬ kept → cfgN s 0x4830 0 0 ≤ itemWait s i → best (awlTakes s)) ∧
    (k ≠ 0 → i.avoid ≠ 0 → best fun a => awlTakes s a && a + 1 != i.avoid) ∧
    (k = 0 →
      let idle := fun (a : Nat) => awlTakes s a && a + 1 != i.avoid && awlIdle s a
      best idle ∧ ((∀ a, a < 64 → idle a = false) → best fun a => awlTakes s a && a + 1 != i.avoid && awlBreaks s a))) ∧
  (∀ (s : State) (a l : Nat) (c : Ctx), slotCtx (awl s a) l = some c →
    let i := c.item
    (c.ready = true ∨ (namesRecord i = true ∧ flowHalted s = true) → exec (.prefetchComplete a l) s = .next s) ∧
    (c.ready = false → a < 64 → l < 2 → Memory.wf c.mem = true → (namesRecord i = true → flowHalted s = false) →
      ∃ t d, exec (.prefetchComplete a l) s = .next t ∧ slotCtx (awl t a) l = some d ∧
        d = { c with mem := d.mem, ready := true, begun := true } ∧ OnlySlot s t a l ∧ t.cnt = s.cnt ∧
        readBytes d.mem rgItem 32 = leBytes 32 (itemWord i) ∧
        (∀ x, namesPacket i = true → (pkt s i.desc).key = some x → readBytes d.mem rgKey 48 = beBytes 48 x.toNat) ∧
        (namesPacket i = true → readBytes d.mem rgHeader (min 256 (pkt s i.desc).data.length) = (pkt s i.desc).data.take 256) ∧
        (i.source = 1 → readBytes d.mem rgRecord 128 = recBytes (templateRecord s i)) ∧
        (∀ x, namesRecord i = true → i.source ≠ 3 → i.source ≠ 1 → mergedRec s i.record = some x → readBytes d.mem rgRecord 128 = recBytes x ∧
          (namesPacket i = false → readBytes d.mem rgKey 48 = beBytes 48 x.key.toNat)) ∧
        (i.routine ≠ 6 → readBytes d.mem rgParam 64 = leBytes 64 (paramSet s i.epoch i.param).toNat) ∧
        (i.source = 3 → 144 ≤ i.bytes.length → readBytes d.mem rgRecord 128 = i.bytes.take 128 ∧
          (c.begun = false → readBytes d.mem rgScratch 16 = slice i.bytes 128 16)) ∧
        (c.begun = true → readBytes d.mem rgRegs 512 = readBytes c.mem rgRegs 512 ∧
          readBytes d.mem rgScratch 480 = readBytes c.mem rgScratch 480))) ∧
  (∀ (s : State) (a l : Nat) (c : Ctx), running s a = some (l, c) → tsorted s.aw.awls = true →
    let i0 := { c.item with since := raw s }
    let parks := { c with ready := false, mask := 0, item := i0 }
    let urgent := urgentFor s a = true ∧ urgentDue s = false
    let may := c.atYield = true ∧ c.issued = false ∧ ctxFull s = false
    let headed := fun (t : State) => frontItems t c.item.cls = frontItems s c.item.cls ++ [(i0, some parks)] ∧
      (∀ b, b ≠ a → awl t b = awl s b) ∧ slotCtx (awl t a) (1 - l) = slotCtx (awl s a) (1 - l) ∧
      t = { s with aw := t.aw, hbm := t.hbm, cnt := t.cnt } ∧ t.aw.closer = s.aw.closer ∧ t.aw.parked = s.aw.parked
    let asleep := tget 0 s.safe.domains (16 + a / 16) = 3
    (¬ may ∨ (awlsHalted s = false ∧ ¬ asleep ∧ ¬ urgent) → exec (.yieldPoint a) s = .next s) ∧
    (may → awlsHalted s = true → ∃ t, exec (.yieldPoint a) s = .next t ∧ headed t ∧ slotCtx (awl t a) l = none ∧
      (awl t a).quiet = true ∧ t.aw.ready = s.aw.ready) ∧
    (may → awlsHalted s = false → asleep → ∃ t, exec (.yieldPoint a) s = .next t ∧ headed t ∧
      slotCtx (awl t a) l = none ∧ t.aw.ready = s.aw.ready) ∧
    (∀ i rest, may → awlsHalted s = false → ¬ asleep → urgent → frontItems s 0 = [] → readyItems s 0 = i :: rest →
      tsorted s.aw.ready = true → ∃ t d, exec (.yieldPoint a) s = .next t ∧ headed t ∧ slotCtx (awl t a) l = some d ∧
        d.item = { i with avoid := 0 } ∧ d.ready = false ∧ d.begun = false ∧ readyItems t 0 = rest ∧ (∀ k, k ≠ 0 → readyItems t k = readyItems s k))) ∧
  (∀ (s : State) (a : Nat),
    let again := fun (c : Ctx) => ({ c.item with dispatches := c.item.dispatches + 1, avoid := a + 1, since := raw s }, (none : Option Ctx))
    (64 ≤ a ∨ (awl s a).retired = true → exec (.awlPairMismatch a) s = .next s) ∧
    (∀ l c, running s a = some (l, c) → c.grants = [] → c.item.dispatches < 2 → ∃ t, exec (.awlPairMismatch a) s = .next t ∧
      (awl t a).retired = true ∧ slotCtx (awl t a) 0 = none ∧ slotCtx (awl t a) 1 = none ∧ (∀ b, b ≠ a → awl t b = awl s b) ∧
      (slotCtx (awl s a) (1 - l) = none → frontItems t c.item.cls = again c :: frontItems s c.item.cls) ∧
      (∀ d, slotCtx (awl s a) (1 - l) = some d → d.item.cls ≠ c.item.cls →
        let i := { d.item with since := raw s }
        frontItems t c.item.cls = again c :: frontItems s c.item.cls ∧ frontItems t d.item.cls =
          (i, if d.begun then some { d with ready := false, item := i } else none) :: frontItems s d.item.cls) ∧
      t.aw.domains = s.aw.domains ∧ t.aw.closer = s.aw.closer ∧ t.aw.ready = s.aw.ready ∧ t.aw.parked = s.aw.parked ∧
      t.flow = s.flow ∧ t.hbm = s.hbm ∧ t.path = s.path) ∧
    (running s a = none → exec (.itemFault a) s = .next s) ∧
    (∀ l c, running s a = some (l, c) → c.grants = [] → tcanon awlReset s.aw.awls = true →
      (c.item.dispatches < 2 → ∃ t, exec (.itemFault a) s = .next t ∧ slotCtx (awl t a) l = none ∧
        (∀ b, b ≠ a → awl t b = awl s b) ∧ frontItems t c.item.cls = again c :: frontItems s c.item.cls ∧
        t.aw.domains = s.aw.domains ∧ t.aw.closer = s.aw.closer ∧ t.aw.ready = s.aw.ready ∧ t.flow = s.flow ∧
        (awl t a).retired = (awl s a).retired) ∧
      (2 ≤ c.item.dispatches → c.item.source ≠ 1 → c.item.source ≠ 2 → tcanon domainReset s.aw.domains = true →
        ∃ t, exec (.itemFault a) s = .next t ∧ slotCtx (awl t a) l = none ∧ (∀ b, b ≠ a → awl t b = awl s b) ∧
          t.aw.front = s.aw.front ∧ t.aw.ready = s.aw.ready ∧ t.aw.closer = s.aw.closer ∧ t.flow = s.flow ∧
          (c.item.basis ≠ 0 → (domainOf t c.item).out = (domainOf s c.item).out - 1) ∧
          (c.item.routine < 256 → ctrGet s (oa 0x4835 c.item.routine 2) + 1 < 2 ^ 48 →
            ctrGet t (oa 0x4835 c.item.routine 2) = ctrGet s (oa 0x4835 c.item.routine 2) + 1)))) ∧
  (∀ (s : State) (k : Nat),
    let waits := fun (i : Item) => i ∈ readyItems s k ∨ ∃ r, (i, r) ∈ frontItems s k
    let age := cfgN s 0x4810 k 3
    ((∀ i, waits i → itemWait s i < age) → exec (.classAgeAlarm k) s = .next s) ∧
    ((∃ i, waits i ∧ age ≤ itemWait s i) → ∃ t w, exec (.classAgeAlarm k) s = .next t ∧ (∃ i, waits i ∧ w = itemWait s i) ∧
      (∀ i, waits i → itemWait s i ≤ w) ∧ t.aw = s.aw ∧ t.flow = s.flow ∧
      (tfind s.cnt.lims (0x0606 * 2 ^ 16 + k) = none → t.host = (raise 0x0606 [k, w, classDepth s k] s).host) ∧
      (∀ m, tfind s.cnt.lims (0x0606 * 2 ^ 16 + k) = some m → m.last ≠ 0 → raw s < m.last - 1 + cycSecond →
        t.host = s.host))) ∧
  (∀ (s : State) (b : Bool) (n d : Nat),
    let key := timerKey b n
    let k := if b then 7 else 6
    (s.aw.timers.contains key = true → exec (.awlTimer b n d) s = .next s) ∧
    (s.aw.timers.contains key = false → classRefuses s k = true → ∃ t, exec (.awlTimer b n d) s = .next t ∧ t.aw = s.aw ∧
      (ctrGet s (oa 0x4811 k 3) + 1 < 2 ^ 48 → ctrGet t (oa 0x4811 k 3) = ctrGet s (oa 0x4811 k 3) + 1)) ∧
    (s.aw.timers.contains key = false → classRefuses s k = false → ∃ t i, exec (.awlTimer b n d) s = .next t ∧
      readyItems t k = readyItems s k ++ [i] ∧ i.routine = (if b then 14 else 12) ∧ i.source = 7 ∧ i.cls = k ∧
      i.created = counterNs s % 2 ^ 32 ∧ i.data = key ∧ i.domain = (if b then d else 0) ∧ i.basis = (if b then 2 else 0) ∧
      i.mode = (if b then 2 else 0) ∧ t.aw.timers = s.aw.timers ++ [key] ∧ t.aw.awls = s.aw.awls ∧ t.aw.front = s.aw.front ∧
      (b = true → i.dseq = (domainOf s i).issue ∧ ((domainOf s i).issue < 2 ^ 24 - 1 →
        (domainOf t i).issue = (domainOf s i).issue + 1)) ∧
      (ctrGet s (oa 0x4811 k 2) + 1 < 2 ^ 48 → ctrGet t (oa 0x4811 k 2) = ctrGet s (oa 0x4811 k 2) + 1)))

/-- While the cluster is stopped, CLOSER_APPLY changes nothing. Otherwise it applies at most one set and then writes
the HOST_FLOW completions that are due: one of the command ring waits for those before it, and a disabled ring
stops once it has none in flight. The oldest set that waits for no predecessor leaves the Closer: a set of an
ORDERED domain waits for its turn in the domain, any other for nothing. The item's domain counts one item less
out and its release sequence goes on. An awl-data write puts its 64 bytes into their unit of the awl-data
partition, the reserved bits of a unit of the tables left 0, and changes no other unit; it stands also when the
slice refuses the rest of the set, which then changes nothing in the flow engine. A counter add adds its value.
A SLICE WRITE of an item without a hold entry replaces a record but for its key, or adds an index entry of a key
that has none. POOL_RECLAIM frees exactly the blocks of its domain whose hold time has passed. With no request
waiting at its slice: a setup's set with a record writes it, with the fields that its template gives, under the
drawn index with its index entry, removes the hold entry, serves the chain and counts the setup; a NAT routine's
set writes the record with the address and port that its pool gives and both index entries, or declines where
the pool gives none; one without a record releases the chain by fail_action with cause ROUTINE and counts a
decline. An ICMP_XLATE set releases its packet with the rewritten header and edit program 0. -/
def Obligations.CloserSets : Prop :=
  (∀ (s : State), (awlsHalted s = true → exec .closerApply s = .next s) ∧
    ((∀ c ∈ s.aw.closer, setMayApply s c = false ∨ (setNeedsSlice c = true ∧ flowHalted s = true)) → awlsHalted s = false →
      exec .closerApply s = .next (hostFlush s)) ∧
    (∀ c, setMayApply s c = false ↔ c.item.mode = 1 ∧ c.item.basis ≠ 0 ∧ c.item.dseq ≠ (domainOf s c.item).release)) ∧
  (∀ (s : State),
    let r := ring s cmdKey
    (s.aw.hostCmds = [] → r.enable = true ∨ r.stopped = true → hostFlush s = s) ∧
    (s.aw.hostCmds = [] → r.enable = false → r.stopped = false → hostFlush s = setRing s cmdKey { r with stopped := true }) ∧
    (∀ d l, s.aw.hostCmds = d :: l → (∀ x ∈ d :: l, hostFromRing x = true) → d.ended = none → hostFlush s = s) ∧
    (∀ d e idx, s.aw.hostCmds = [d] → d.src = .ring idx → d.ended = some e → d.fail = 0 → d.cmd.op ≠ 3 → e.reply = [] → r.enable = true →
      hostFlush s = slotComplete idx e.status e.detail e.done e.result (setHostCmds s []))) ∧
  (∀ (s : State) (pre post : List CommitSet) (c : CommitSet), s.aw.closer = pre ++ c :: post → awlsHalted s = false →
      (∀ d ∈ pre, setMayApply s d = false ∨ (setNeedsSlice d = true ∧ flowHalted s = true)) → setMayApply s c = true →
      (setNeedsSlice c = true → flowHalted s = false) → tcanon domainReset s.aw.domains = true →
    let i := c.item
    let applied := fun (t : State) => exec .closerApply s = .next (hostFlush t) ∧ t.aw.closer = pre ++ post ∧
      t.aw.awls = s.aw.awls ∧ t.aw.parked = s.aw.parked ∧ t.aw.front = s.aw.front ∧ t.aw.hostCmds = s.aw.hostCmds ∧
      (i.basis ≠ 0 → (domainOf t i).out = (domainOf s i).out - 1 ∧ (domainOf t i).lastAwl = (domainOf s i).lastAwl ∧
        (i.dseq = (domainOf s i).release → (domainOf s i).release < 2 ^ 24 → (domainOf s i).gone = [] →
          (domainOf t i).release = ((domainOf s i).release + 1) % 2 ^ 24))
    let drained := fun (n : Nat) => sliceReqs s n = [] ∧ tget [] s.flow.ageQ n = []
    let plain := i.routine ∉ [8, 10, 11, 12, 14]
    (∀ o, c.staged = [o] → o.mop = 4 → o.data.length = 64 → Memory.wf s.hbm.mem = true → (∀ n, pcRetired s n = false) →
        LiveTablesCanonical s.fwd →
      let off := awlDataOff s o.args.target
      let q := off - slotRegion s
      let word := fun (n j : Nat) => leNat (slice o.data (n * j) n)
      let stored := fun (t : State) => applied t ∧ t.flow = s.flow ∧
        (∀ k, k % 64 = 0 → k < partSize s 3 → k ≠ off → awlUnit t k = awlUnit s k) ∧
        (∀ x, (x < partAddr s 3 off ∨ partAddr s 3 off + 64 ≤ x) → readByte t.hbm.mem x = readByte s.hbm.mem x) ∧
        awlUnit t off =
          (if off < slotRegion s then (List.range 16).flatMap fun j => leBytes 4 (putFld (word 4 j) 30 20 0)
           else if q < nhRegion then leBytes 64 (putFld (word 64 0) 91 0 0)
           else if q < nhRegion + beRegion then (List.range 2).flatMap fun j => leBytes 32 (putFld (word 32 j) 69 0 0)
           else o.data)
      (hasSlicePart i = false → plain → ∃ t, stored t) ∧
      (hasSlicePart i = true → drained i.slice → itemHold s i = none → ∃ t, stored t)) ∧
    (∀ o, c.staged = [o] → o.mop = 10 → o.args.what = 0 → 0 < o.args.value → hasSlicePart i = false → plain →
      let x := ctrAddr (o.args.target % 65536)
      ∃ t, applied t ∧ t.flow = s.flow ∧ t.hbm = s.hbm ∧
        (ctrGet s x + o.args.value < 2 ^ 48 → ctrGet t x = ctrGet s x + o.args.value)) ∧
    (∀ o x, c.staged = [o] → o.mop = 5 → hasSlicePart i = false → plain → flowRec s o.args.target = some x →
      (o.args.what = 2 → drained (homeSlice s x.key) → ∃ t, applied t ∧
        flowRec t o.args.target = some { storedImage (recOfBytes o.data) with key := x.key } ∧
        (∀ j, j ≠ o.args.target → flowRec t j = flowRec s j) ∧ t.flow.index = s.flow.index ∧ t.path = s.path) ∧
      (∀ y, o.args.what ≠ 2 →
        let k : BitVec 384 := BitVec.ofNat 384 (beNat o.data)
        let l := layNow s
        let b := (layBuckets l k).headD 0
        drained (homeSlice s k) → idxFind s k = none → layouts s = [l] → bucketGone s l b = false → freeSlot s l b = some y →
        ∃ t, applied t ∧ tget 0 t.flow.index y = mkSlot (laySig l k) o.args.target (o.args.value % 2) false ∧
          (∀ j, j ≠ y → tget 0 t.flow.index j = tget 0 s.flow.index j) ∧ t.flow.records = s.flow.records ∧ t.path = s.path)) ∧
    (c.staged = [] → hasSlicePart i = false → i.routine = 14 → tcanon [] s.aw.subs = true →
      let mine := fun (src : Nat) => seededCrc (flowSeed s 2) (beBytes 16 src) = i.domain
      ∃ t, applied t ∧ t.flow = s.flow ∧ (∀ src b, b ∈ subBlocks t src ↔
        (b ∈ subBlocks s src ∧ ¬ (mine src ∧ b.last + b.hold * cycSecond ≤ raw s)))) ∧
    (∀ h x pid, i.source = 1 → drained i.slice → itemHold s i = some (h, x) → x.other = none → x.chain = [pid] →
        Unretired s pid → tsorted s.flow.holds = true → h < 2 ^ 20 → plain →
      let n := sliceOfHold h
      let T := template s x.epoch x.template
      let fails := fun (t : State) => applied t ∧ holdAt t h = none ∧ (∀ j, j ≠ h → holdAt t j = holdAt s j) ∧
        (pkt t pid).flow = (if tpFail T = 1 then 5 else if tpFail T = 2 then 7 else 4) ∧
        t.flow.records = s.flow.records ∧ t.flow.index = s.flow.index ∧
        (ctrGet s (oa 0x4041 n 5) + 1 < 2 ^ 48 → ctrGet t (oa 0x4041 n 5) = ctrGet s (oa 0x4041 n 5) + 1) ∧
        (i.routine < 256 → ctrGet s (oa 0x4835 i.routine 2) + 1 < 2 ^ 48 →
          ctrGet t (oa 0x4835 i.routine 2) = ctrGet s (oa 0x4835 i.routine 2) + 1)
      (natRoutine s i = false → c.staged = [] → ∃ t, fails t) ∧
      (natRoutine s i = true → c.staged = [] → (natPick i.routine n (paramSet s i.epoch i.param) (((pkt s i.desc).key).getD x.key) none s).1 = none →
        ∃ t, fails t) ∧
      (∀ k a p rk r rest y z, natRoutine s i = true → c.staged = [] → (pkt s i.desc).key = some k → i.desc = pid →
        (natPick i.routine n (paramSet s i.epoch i.param) k none s).1 = some (a, p, rk) → a < 2 ^ 20 → p < 2 ^ 16 →
        bf k 379 376 = 0 → bf k 39 0 = 0 → kProto k = 17 → segmentOf (pkt s pid) = none →
        bit (((pkt s pid).parse.map (·.word)).getD 0) fIcmpErr = false → (pkt s pid).rxLen < 2 ^ 28 →
        tpMeter T = 0 → tpTelemetry T % 4 < 2 →
        tget [] s.flow.drawn n = r :: rest → r < drawLimit s → r < 2 ^ 29 → recGone s r = false → primaryOf s r = none →
        lineFind s n rk = none → tsorted s.flow.lines = true → (wbOf s n).length ≤ 1020 →
        let l := layNow s
        let bk := (layBuckets l k).headD 0
        let br := (layBuckets l rk).headD 0
        layouts s = [l] → bk ≠ br → bucketGone s l bk = false → bucketGone s l br = false → freeSlot s l bk = some y →
        freeSlot s l br = some z →
        homeSlice s rk = n ∧ idxFind s rk = none ∧
        ∃ t v, applied t ∧ holdAt t h = none ∧ flowRec t r = some v ∧ (∀ j, j ≠ r → flowRec t j = flowRec s j) ∧ v.key = k ∧
          stTrans v.st = true ∧ stXlateDst v.st = false ∧ acNatIndex v.act = a ∧ acNatPort v.act = p ∧
          acNatAddr v.act = natEntryAddr s a ∧ tget 0 t.flow.index y = mkSlot (laySig l k) r 0 false ∧
          tget 0 t.flow.index z = mkSlot (laySig l rk) r 1 false ∧
          (∀ j, j ≠ y → j ≠ z → tget 0 t.flow.index j = tget 0 s.flow.index j) ∧ (pkt t pid).flow = 2 ∧
          (ctrGet s (oa 0x4040 n 1) + 1 < 2 ^ 48 → ctrGet t (oa 0x4040 n 1) = ctrGet s (oa 0x4040 n 1) + 1)) ∧
      (∀ o r rest y k, natRoutine s i = false → c.staged = [o] → o.mop = 5 → o.args.what = 2 →
        let img := storedImage (fromTemplate x.template T (recOfBytes o.data))
        let l := layNow s
        stTrans img.st = false → acMeter img.act = 0 → (cnTelemetry img.cnt).testBit 1 = false →
        tget [] s.flow.drawn n = r :: rest → r < drawLimit s → r < 2 ^ 29 → recGone s r = false → primaryOf s r = none →
        layouts s = [l] → (let b := (layBuckets l img.key).headD 0; bucketGone s l b = false ∧ freeSlot s l b = some y) →
        (wbOf s n).length ≤ 1022 → (pkt s pid).key = some k → segmentOf (pkt s pid) = none → (pkt s pid).rxLen < 2 ^ 28 →
        tsorted s.flow.lines = true →
        ∃ t z v, applied t ∧ holdAt t h = none ∧ (∀ j, j ≠ h → holdAt t j = holdAt s j) ∧ flowRec t r = some v ∧
          v.key = img.key ∧ v.cnt = img.cnt ∧ v.act = img.act ∧ stClass v.st = tpClassNew T ∧ stPinned v.st = tpPinned T ∧
          stDrop v.st = tpDrop T ∧ stTemplate v.st = x.template % 256 ∧ acMeter v.act = tpMeter T ∧ acEditFwd v.act = tpEditFwd T ∧
          (∀ j, j ≠ r → flowRec t j = flowRec s j) ∧
          tget 0 t.flow.index y = mkSlot (laySig l img.key) r 0 false ∧ (∀ j, j ≠ y → tget 0 t.flow.index j = tget 0 s.flow.index j) ∧
          (lineAt t z).map (·.record) = some r ∧ (pkt t pid).flow = 2 ∧
          (ctrGet s (oa 0x4040 n 1) + 1 < 2 ^ 48 → ctrGet t (oa 0x4040 n 1) = ctrGet s (oa 0x4040 n 1) + 1))) ∧
    (∀ h x pid o, i.source = 2 → i.routine = 7 → drained i.slice → itemHold s i = some (h, x) → x.chain = [pid] → Unretired s pid →
        c.staged = [o] → o.mop = 9 → tsorted s.flow.holds = true →
      ∃ t, applied t ∧ holdAt t h = none ∧ (∀ j, j ≠ h → holdAt t j = holdAt s j) ∧
        t.flow = { s.flow with holds := t.flow.holds, missQ := t.flow.missQ, surrender := t.flow.surrender } ∧
        (pkt t pid).data = o.data ++ (pkt s pid).data.drop 256 ∧ (pkt t pid).flow = 6 ∧
        (pkt t pid).release = some (o.args.target, 0)))

/-- On a port that is up: a frame whose first byte its half does not accept is dropped and counted in ingress_drop;
of the others a runt is dropped whole, a MAC control frame is dropped and counted, one that finds the header
FIFO full is dropped and counted as an overrun, and any other one joins the header FIFO with one pending cell,
charged to the reserve or the shared pool. At its last byte a frame's octets count, its remaining cells are
written or, where the half has no cell left, its tail is lost and it is errored, a frame that is already leaving
included; a bad one is errored; a dropped one leaves the device. The egress MAC sends an unerrored frame whole
with its FCS; it drops an errored frame whose first byte has not left; it ends one that has begun, and one that
underruns, at the byte reached, padded to 64 bytes with a stomped FCS; a cell that reads uncorrectable makes its
frame an errored one and is reported; with the link down the frame is lost, and counts with the bytes reached
when its first byte had left. -/
def Obligations.FramesInAndOut : Prop :=
  (∀ (s : State) (q : Nat) (bytes : Bytes) (e : Bool), q < 1024 → portUp s q = true →
    let pid := s.path.nextPid
    let mac := if isMacControl bytes then stat q 0x0C 1 s else s
    (halfAccepts s (q / 512) = true → bytes.length < 64 ∨ isMacControl bytes = true →
      ∃ t, exec (.frameReceive q bytes e) s = .next t ∧ t.cnt = mac.cnt ∧
        t = { s with path := { s.path with nextPid := pid + 1, pkts := t.path.pkts }, cnt := t.cnt, host := t.host } ∧
        (pkt t pid).place = 3 ∧ (pkt t pid).cells = 0 ∧ (pkt t pid).ended = false ∧ (pkt t pid).port = q) ∧
    (halfAccepts s (q / 512) = false →
      ∃ t, exec (.frameReceive q bytes e) s = .next t ∧ t.cnt = (count 0x5015 q 0 mac).cnt ∧ (pkt t pid).place = 3 ∧
        t = { s with path := { s.path with nextPid := pid + 1, pkts := t.path.pkts }, cnt := t.cnt, host := t.host }) ∧
    (64 ≤ bytes.length → isMacControl bytes = false → halfAccepts s (q / 512) = true → hdrFull s (q / 64) = true →
      ∃ t, exec (.frameReceive q bytes e) s = .next t ∧ t.cnt = (ingressOverrun (q / 64) s).cnt ∧ (pkt t pid).place = 3 ∧
        t = { s with path := { s.path with nextPid := pid + 1, pkts := t.path.pkts }, cnt := t.cnt, host := t.host }) ∧
    (64 ≤ bytes.length → isMacControl bytes = false → halfAccepts s (q / 512) = true → hdrFull s (q / 64) = false →
      ∃ t, exec (.frameReceive q bytes e) s = .next t ∧ hdrFifo t (q / 64) = hdrFifo s (q / 64) ++ [pid] ∧
        (pkt t pid).port = q ∧ (pkt t pid).place = 0 ∧ (pkt t pid).written = 1 ∧ (pkt t pid).resv + (pkt t pid).shared = 1 ∧
        (pkt t pid).rxLen = bytes.length ∧ (bytes.length ≤ cfgN s 0x2006 q 0 → (pkt t pid).data = bytes.take (bytes.length - 4)) ∧
        (pkt t pid).cells = max 1 ((min bytes.length (cfgN s 0x2006 q 0) + 255) / 256) ∧
        t = { s with path := { s.path with nextPid := pid + 1, pkts := t.path.pkts, hdr := t.path.hdr } })) ∧
  (∀ (s : State) (pid : Nat) (p : Packet), tfind s.path.pkts pid = some p →
    (p.ended = true → exec (.frameEnd pid) s = .next s) ∧
    (p.ended = false → p.place < 3 → p.written ≤ p.cells →
      let bad := !p.fcsOk || decide (p.rxLen < 64) || decide (cfgN s 0x2006 p.port 0 < p.rxLen)
      ∃ t, exec (.frameEnd pid) s = .next t ∧ (pkt t pid).ended = true ∧
        (0 < p.rxLen → p.port < 1024 → ctrGet s (oa 0x2020 p.port 0) + p.rxLen < 2 ^ 39 →
          ctrGet t (oa 0x2020 p.port 0) = ctrGet s (oa 0x2020 p.port 0) + p.rxLen) ∧
        (p.cells - p.written ≤ halfFree s p.half → (pkt t pid).written = p.cells ∧
          (pkt t pid).err = if bad = true ∧ p.err = 0 then 1 else p.err) ∧
        (halfFree s p.half < p.cells - p.written → (pkt t pid).written = p.written + halfFree s p.half ∧ (pkt t pid).err = 3) ∧
        (∀ n, n ≠ pid → pkt t n = pkt s n)) ∧
    (p.ended = false → p.place = 3 → inFlight s pid = true → 2 ≤ p.cells → halfFree s p.half = 0 →
      ∃ t, exec (.frameEnd pid) s = .next t ∧ (pkt t pid).err = 3 ∧ (pkt t pid).ended = true ∧
        (p.half < 2 → ctrGet s (oa 0x5010 p.half 3) + 1 < 2 ^ 48 →
          ctrGet t (oa 0x5010 p.half 3) = ctrGet s (oa 0x5010 p.half 3) + 1)) ∧
    (p.ended = false → p.place = 3 → inFlight s pid = false → tsorted s.path.pkts = true →
      ∃ t, exec (.frameEnd pid) s = .next t ∧ tfind t.path.pkts pid = none)) ∧
  (∀ (s : State) (q reached : Nat) (cut : TxCut) (x : TxFrame) (rest : List TxFrame), tget [] s.path.tx q = x :: rest →
      tcanon [] s.path.tx = true →
    let p := pkt s x.pid
    let f := padTo (max 60 (x.frame.take reached).length) (x.frame.take reached)
    let part := padTo (max 64 (x.frame.take reached).length) (x.frame.take reached)
    (portUp s q = false → ∃ t, exec (.frameTransmit q reached cut) s = .next t ∧ tget [] t.path.tx q = rest ∧
      t.path.sent = s.path.sent ∧
      t.cnt = if x.started then (bwCredit q 0 part.length (txStats (stat q) part part.length s)).cnt else s.cnt) ∧
    (portUp s q = true → p.ended = false → cut = .none → exec (.frameTransmit q reached cut) s = .next (setPath s
      { s.path with tx := tset [] s.path.tx q ({ x with started := true } :: rest) })) ∧
    (portUp s q = true → p.ended = true → (∀ bank, cut ≠ .badCell bank) → p.err = 0 → x.ptp = 0 → x.corr = none →
      ∃ t, exec (.frameTransmit q reached cut) s = .next t ∧ tget [] t.path.tx q = rest ∧
        t.path.sent = tput s.path.sent q (x.frame ++ leBytes 4 (crc32 x.frame))) ∧
    (portUp s q = true → p.ended = true → (∀ bank, cut ≠ .badCell bank) → p.err ≠ 0 → x.started = false →
      ∃ t, exec (.frameTransmit q reached cut) s = .next t ∧ tget [] t.path.tx q = rest ∧ t.path.sent = s.path.sent ∧
        t.cnt = (queueDrop q x.sel (if p.err = 2 then 8 else 7) s).cnt) ∧
    (portUp s q = true → (p.ended = true ∧ p.err ≠ 0 ∧ x.started = true ∧ ∀ bank, cut ≠ .badCell bank) ∨ (p.ended = false ∧ cut = .underrun) →
      ∃ t, exec (.frameTransmit q reached cut) s = .next t ∧ tget [] t.path.tx q = rest ∧
        t.path.sent = tput s.path.sent q (f ++ leBytes 4 (crc32 f ^^^ 0xFFFFFFFF))) ∧
    (∀ bank, portUp s q = true → cut = .badCell bank → ∃ t, exec (.frameTransmit q reached cut) s = .next t ∧ tget [] t.path.tx q = rest ∧
      (x.started = true → t.path.sent = tput s.path.sent q (f ++ leBytes 4 (crc32 f ^^^ 0xFFFFFFFF))) ∧
      (x.started = false → (tfind s.path.pkts x.pid).isSome = true → t.path.sent = s.path.sent ∧
        t.cnt = (queueDrop q x.sel 8 (detectLimited 2 0x0709 q (fun n => [p.half, bank, q, n]) s)).cnt)))

/-- A page goes to a free heel page on a pseudo-channel in service. The oldest full staging page of a queue, its
frames whole, becomes the queue's newest written page, its cells leave the chip, and a write is queued at the
page's controller. The oldest written page comes back while fewer than the prefetch are back; with an
uncorrectable error its frames, and no others, leave the queue. The replication engine enqueues a copy for an
accepting target and adds a reference, keeps a target refused for a limit, or behind an earlier residue of its
queue or an earlier frame of its flow in the other engine (log entry 112), as residue, and counts a target whose
link is down as refused; a residue target whose queue takes it is enqueued; after the residue time the rest are
counted and the replication ends. A scrub pass maps out a bank whose hits reach the threshold while the spare is
not mapped; online BIST tests bank after bank, and maps out one that fails. -/
def Obligations.HeelReplicationAndBanks : Prop :=
  (∀ (s : State) (a : Nat), heelAlloc s = some a → pcRetired s (pcOf s a) = false ∧ a ∉ heelAddrs s ∧ partBase s 5 ≤ a ∧
    a < partBase s 5 + partSize s 5) ∧
  (∀ (s : State) (u a : Nat) (h : HeelPage) (rest : List HeelPage), (uq s u).full = h :: rest → s.path.heelPaused = false →
      (∀ p ∈ h.parts, (pkt s p.1).ended = true) → (h.parts.map (·.1)).Nodup → heelAlloc s = some a →
    ∃ t, exec (.heelPageWrite u) s = .next t ∧
      uq t u = { uq s u with full := rest, pages := (uq s u).pages ++ [{ h with addr := a }] } ∧
      (∀ v, v ≠ u → uq t v = uq s v) ∧ t.path.heelNext = (pcOf s a + 1) % 128 ∧
      (∀ p ∈ h.parts, (pkt t p.1).written = (pkt s p.1).written - p.2) ∧
      (pc t (pcOf s a)).queue.map (·.order) = (pc s (pcOf s a)).queue.map (·.order) ++ [s.hbm.orders] ∧
      t = { s with path := t.path, hbm := t.hbm, cnt := t.cnt }) ∧
  (∀ (s : State) (u : Nat) (h : HeelPage) (rest : List HeelPage), (uq s u).pages = h :: rest →
    (cfgN s 0x5009 0 0 ≤ (uq s u).back.length → exec (.heelPageRead u false) s = .next s) ∧
    ((uq s u).back.length < cfgN s 0x5009 0 0 → rest ≠ [] → (h.parts.map (·.1)).Nodup →
      ∃ t, exec (.heelPageRead u false) s = .next t ∧
        uq t u = { uq s u with pages := rest, back := (uq s u).back ++ [h] } ∧ (∀ v, v ≠ u → uq t v = uq s v) ∧
        (∀ p ∈ h.parts, (pkt t p.1).written = (pkt s p.1).written + p.2)) ∧
    ((uq s u).back.length < cfgN s 0x5009 0 0 → tcanon uqReset s.path.uq = true →
      ∃ t, exec (.heelPageRead u true) s = .next t ∧
        (uq t u).list = (uq s u).list.filter fun e => !(h.parts.map (·.1)).contains e.pid)) ∧
  (∀ (s : State) (d t0 : Nat) (r : Replica) (rest : List Nat), (engine s d).find? (fun r => !r.walked) = some r →
      r.todo = t0 :: rest → rest ≠ [] →
    let w := mcTarget s t0
    let q := mtPort w
    let mc := mclass s r.cls
    let edit := if mtUseEdit w then mtEdit w else r.edit
    let after := fun (x : Replica) => (engine s d).map fun y => if y.pid = r.pid then x else y
    (mtValid w = false ∨ (r.flooded = true ∧ q = (pkt s r.pid).port) →
      exec (.mcReplicate d) s = .next (setEngine s d (after { r with todo := rest, walked := false }))) ∧
    (mtValid w = true → ¬ (r.flooded = true ∧ q = (pkt s r.pid).port) → portUp s q = false →
      ∃ t, exec (.mcReplicate d) s = .next t ∧ t.cnt = (queueDrop q (8 + mc) 9 s).cnt ∧
        engine t d = after { r with todo := rest, walked := false } ∧ t = { s with cnt := t.cnt, path := t.path }) ∧
    (mtValid w = true → ¬ (r.flooded = true ∧ q = (pkt s r.pid).port) → portUp s q = true →
        (hasResidue s (2 * q + mc) = true ∨ flowInEngine s (1 - d) r.pid (2 * q + mc) = true ∨ mcTakes s q (2 * q + mc) = false) →
        r.residue ≠ [] →
      ∃ t, exec (.mcReplicate d) s = .next t ∧
        engine t d = after { r with todo := rest, walked := false, residue := r.residue ++ [(q, mc, edit)] } ∧
        t = { s with path := t.path }) ∧
    (mtValid w = true → ¬ (r.flooded = true ∧ q = (pkt s r.pid).port) → hasResidue s (2 * q + mc) = false →
        flowInEngine s (1 - d) r.pid (2 * q + mc) = false → mcTakes s q (2 * q + mc) = true →
      ∃ t e, exec (.mcReplicate d) s = .next t ∧
        tget [] t.tm.xmc (2 * (q / 64) + d) = tget [] s.tm.xmc (2 * (q / 64) + d) ++ [(q, mc, e)] ∧
        e.pid = r.pid ∧ e.edit = edit ∧ e.cut = false ∧ (pkt t r.pid).refs = (pkt s r.pid).refs + 1 ∧
        engine t d = after { r with todo := rest, walked := false, accepted := r.accepted + 1 } ∧
        t = { s with path := t.path, tm := t.tm, cnt := t.cnt })) ∧
  (∀ (s : State) (d : Nat) (r : Replica) (x : Nat × Nat × Nat), residueReady s d (engine s d) [] = some (r, x) →
    ∃ t e, exec (.mcResidueRetry d) s = .next t ∧
      tget [] t.tm.xmc (2 * (x.1 / 64) + d) = tget [] s.tm.xmc (2 * (x.1 / 64) + d) ++ [(x.1, x.2.1, e)] ∧
      e.pid = r.pid ∧ e.edit = x.2.2) ∧
  (∀ (s : State) (d : Nat) (r : Replica), tcanon [] s.path.repl = true →
      (engine s d).find? (fun r => r.walked && !r.residue.isEmpty && decide (r.since + cyc (cfgN s 0x500B 0 0) ≤ raw s)) = some r →
    ∃ t, exec (.mcResidueExpiry d) s = .next t ∧ engine t d = (engine s d).filter fun x => x.pid != r.pid) ∧
  (∀ (s : State) (h bank n : Nat),
    (n < cfgN s 0x500D 0 0 → ∃ t, exec (.bufferScrub h [(bank, n)]) s = .next t ∧ t.path = s.path ∧ t.host = s.host) ∧
    (cfgN s 0x500D 0 0 ≤ n → (halfSpare s h).1 ≠ 2 → ∃ t, exec (.bufferScrub h [(bank, n)]) s = .next t ∧
      t.path = { s.path with spare := tset (0, 0) s.path.spare h (2, bank) }) ∧
    (cfgN s 0x500D 0 0 ≤ n → (halfSpare s h).1 = 2 → ∃ t, exec (.bufferScrub h [(bank, n)]) s = .next t ∧ t.path = s.path)) ∧
  (∀ (s : State) (h : Nat) (failed : Bool),
    ((halfSpare s h).1 = 2 → exec (.bufferOnlineBist h failed) s = .next s) ∧
    ((halfSpare s h).1 = 0 → cfgOn s 0x500E 0 0 = true → ∃ t, exec (.bufferOnlineBist h failed) s = .next t ∧
      halfSpare t h = (1, tget 0 s.path.bistNext h) ∧
      t = setPath s { s.path with
        spare := t.path.spare, bistNext := tset 0 s.path.bistNext h ((tget 0 s.path.bistNext h + 1) % 32) }) ∧
    ((halfSpare s h).1 = 1 → ∃ t, exec (.bufferOnlineBist h true) s = .next t ∧ halfSpare t h = (2, (halfSpare s h).2)))

/-- The weights of an egress pipeline's inputs are recomputed, 1 each in mode EQUAL. One cycle of its enqueue stage
takes up to 4 descriptors, at least one where one waits, from the fronts of its inputs, and touches no other
pipeline's; in the switch core's stop it takes none. A unicast frame within its limits, with its port's link up,
the heel off, and room in the port minimum or the shared pool, joins the tail of its queue with all its cells
charged, and counts for its port and its queue; with the link down, at a limit, or without room it is dropped
and counted so. A queue is chosen for service only if it is eligible; in a STRICT group no eligible queue of a
better tier, or of its tier and a higher selector, is passed over; no class group of a better tier, or of its
tier and a higher prio, with an eligible queue is passed over. A chosen frame that is whole, in time and of a
live epoch leaves its queue for the editor and is charged, by one length and each node's len_add, to the buckets
of its queue, group and port; an errored or aged one, or one with an uncorrectable cell, leaves its queue and is
counted instead; one of an expired epoch leaves it too. A queue that empties keeps no deficit; a node with cir 0
is never in the committed tier. The frames enqueued, bytes dequeued and frames dropped of a queue stand in the
counter IDs of its queue. Without a port that wants service, or in a stop, nothing changes. -/
def Obligations.CrossbarAndDequeue : Prop :=
  (∀ (s : State) (e : Nat), tcanon 0 s.tm.weight = true → ∃ t, exec (.xbarWeightUpdate e) s = .next t ∧
    (∀ i, i < 18 → tget 0 t.tm.weight (32 * e + i) = inputWeight s e i ∧ (cfgN s 0x5800 e 0 = 0 → inputWeight s e i = 1)) ∧
    t = setTm s { s.tm with weight := t.tm.weight }) ∧
  (∀ (s : State) (e : Nat), e < 16 →
    (fnStopped s .switchCore = true → exec (.xbarArbitrate e) s = .next s) ∧
    (fnStopped s .switchCore = false → tcanon [] s.tm.xbar = true → tcanon [] s.tm.xmc = true →
      let waiting := fun (z : State) => ((List.range 18).map (inputLength z e)).sum
      ∃ t, exec (.xbarArbitrate e) s = .next t ∧ waiting s ≤ waiting t + 4 ∧ (0 < waiting s → waiting t < waiting s) ∧
        (∀ p, p < 16 → ∃ n, xfifo t p e = (xfifo s p e).drop n) ∧ (∀ d, d < 2 → ∃ n, mcInput t e d = (mcInput s e d).drop n) ∧
        (∀ p f, p < 16 → f < 16 → f ≠ e → xfifo t p f = xfifo s p f) ∧
        (∀ d f, d < 2 → f ≠ e → mcInput t f d = mcInput s f d))) ∧
  (∀ (s : State) (q : Nat) (x : QEntry), tcanon uqReset s.path.uq = true → cfgOn s 0x5007 q 0 = false → (pkt s x.pid).place ≠ 1 →
    let u := 8 * q + x.cls
    let p := pkt s x.pid
    let t := admitFrame q x s
    let within := uqDepth s u < cfgN s 0x5003 u 0 ∧ portUnicast s q < cfgN s 0x5002 q 0
    let room := entryFree s = true ∧ (portUnicast s q < cfgN s 0x5001 q 0 ∨ sharedUsed s - p.shared < sharedSize s)
    (portUp s q = true → within → room →
      (uq t u).list.map (·.pid) = (uq s u).list.map (·.pid) ++ [x.pid] ∧ (pkt t x.pid).place = 1 ∧ (pkt t x.pid).out = q ∧
      (pkt t x.pid).min + (pkt t x.pid).shared = p.cells ∧ (pkt t x.pid).resv = 0 ∧ (pkt t x.pid).min ≤ cfgN s 0x5001 q 0 ∧
      (∀ v, v ≠ u → uq t v = uq s v) ∧ t.cnt = (queueCount q x.cls 0 0 s).cnt) ∧
    (portUp s q = false → t.cnt = (queueDrop q x.cls 3 s).cnt ∧ t.path.uq = s.path.uq) ∧
    (portUp s q = true → ¬ within → t.cnt = (queueDrop q x.cls 1 s).cnt ∧ t.path.uq = s.path.uq) ∧
    (portUp s q = true → within → ¬ room → t.cnt = (queueDrop q x.cls 2 s).cnt ∧ t.path.uq = s.path.uq)) ∧
  (∀ (s : State) (q sel k n : Nat), q < 1024 → sel < 10 → k < 4 →
    let a := ctrCell (if sel < 8 then 0x3800 + 32 * q + 4 * sel + k else 0xB800 + 8 * q + 4 * (sel - 8) + k)
    ctrGet s a + n < 2 ^ 48 → ctrGet (queueAdd q sel k n s) a = ctrGet s a + n) ∧
  (∀ (s : State) (q sel : Nat), (chooseQueue q s).1 = some sel →
    let k := selGroup s q sel
    sel < 10 ∧ selEligible s q sel = true ∧ peakOk s q (16 + k) = true ∧
    (cfgN s 0x5814 q k = 0 → ∀ sel', sel' < 10 → selEligible s q sel' = true → selGroup s q sel' = k →
      (committed s q sel' = true → committed s q sel = true) ∧
      (committed s q sel' = committed s q sel → sel' ≤ sel)) ∧
    (∀ sel', sel' < 10 → selEligible s q sel' = true → selGroup s q sel' < 8 → peakOk s q (16 + selGroup s q sel') = true →
      (committed s q (16 + selGroup s q sel') = true → committed s q (16 + k) = true) ∧
      (committed s q (16 + selGroup s q sel') = committed s q (16 + k) →
        cfgN s 0x5812 q (selGroup s q sel') ≤ cfgN s 0x5812 q k))) ∧
  (∀ (s : State) (q n : Nat), shCir (shaperWord s q n) = 0 → committed s q n = false) ∧
  (∀ (s : State) (e : Nat) (full : List Nat) (bad : Option Nat),
    fnStopped s (.tm e) = true ∨ fnStopped s .switchCore = true ∨ nextPort s e full = none →
    exec (.dequeue e full bad) s = .next s) ∧
  (∀ (s : State) (e q sel : Nat) (full : List Nat) (x : QEntry), fnStopped s (.tm e) = false → fnStopped s .switchCore = false →
      nextPort s e full = some q → (chooseQueue q s).1 = some sel → headEntry s q sel = some x → selGroup s q sel < 8 →
      tcanon 0 s.tm.deficit = true → tcanon uqReset s.path.uq = true → tcanon [] s.path.mq = true → tcanon bucketReset s.tm.buckets = true →
    let p := pkt s x.pid
    let live := isExpired s x.pid = false ∧ p.barred = false
    let left := fun (t : State) => ((headEntry t q sel).isNone = true → deficit t (64 * q + sel) = 0) ∧
      (sel < 8 → (uq t (8 * q + sel)).list = (uq s (8 * q + sel)).list.tail) ∧
      (8 ≤ sel → mq t (2 * q + sel - 8) = (mq s (2 * q + sel - 8)).tail)
    (live → p.err = 0 → ageCycles s p * 5 ≤ cfgN s 0x5006 x.cls 0 * 4 →
      ∃ t j len, exec (.dequeue e full none) s = .next t ∧ left t ∧
        editJobs t (q / 64) = editJobs s (q / 64) ++ [j] ∧ j.pid = x.pid ∧ j.out = q ∧ j.prog = x.edit ∧ j.frame = p.data ∧
        (∀ n ∈ [sel, 16 + selGroup s q sel, 32],
          let b := bucketNow s q n
          let c : Int := ((len + shLenAdd (shaperWord s q n)) * 2 ^ 24 : Nat)
          bucket t q n = { b with
            c := max (-(16031 * 2 ^ 24)) (b.c - c),
            p := if shPir (shaperWord s q n) = 0xFFFFFFFF then b.p else max (-(16031 * 2 ^ 24)) (b.p - c) }) ∧
        t.cnt = (queueAdd q sel 1 len s).cnt ∧ t.ports = s.ports) ∧
    (live → p.err ≠ 0 → ∃ t, exec (.dequeue e full none) s = .next t ∧ left t ∧ t.path.edits = s.path.edits ∧
      t.tm.buckets = s.tm.buckets ∧ t.cnt = (queueDrop q sel (if p.err = 2 then 8 else 7) s).cnt) ∧
    (live → p.err = 0 → cfgN s 0x5006 x.cls 0 * 4 < ageCycles s p * 5 → ∃ t, exec (.dequeue e full none) s = .next t ∧ left t ∧
      t.path.edits = s.path.edits ∧ t.tm.buckets = s.tm.buckets ∧ t.cnt = (queueDrop q sel 4 s).cnt) ∧
    (¬ live → ∃ t, exec (.dequeue e full none) s = .next t ∧ left t ∧
      t.path.edits = s.path.edits ∧ t.tm.buckets = s.tm.buckets ∧ t.cnt = s.cnt) ∧
    (∀ bank, ∃ t, exec (.dequeue e full (some bank)) s = .next t ∧ left t ∧ t.path.edits = s.path.edits ∧
      t.tm.buckets = s.tm.buckets ∧
      t.cnt = (queueDrop q sel 8 (detectLimited 2 0x0709 q (fun n => [p.half, bank, q, n]) s)).cnt))

/-- A meter bank serves its oldest request: the packet takes the colour of RFC 2698 or RFC 4115, and the meter's
buckets are filled, capped and charged as R281 states; a state word that reads uncorrectable is first set full.
A backlog alarm within the limit changes nothing; beyond it only an event may follow. Refreshing the buckets
changes no shaper's or meter's fill. A queue sample writes its record at the ring's next place in HBM or host
memory, advances produced and restarts the queue's figures; with the ring full it is lost and counted; with no
ring, or before the sample interval has passed, it is not taken. The packet's release goes on when its chain
allows it. -/
def Obligations.MetersBucketsSamples : Prop :=
  (∀ (s : State) (b pid m t0 : Nat) (rest : List (Nat × Nat × Nat)), meterQ s b = (pid, m, t0) :: rest →
      tcanon s.tm.meter0 s.tm.meters = true → tcanon [] s.tm.meterQ = true → (tfind s.path.pkts pid).isSome = true →
    let x := meter s m
    let w := meterProf s x.profile
    let el := raw s - x.last
    let n := ((pkt s pid).rxLen + mpLenAdd w) * 2 ^ 24
    let pre := preColour w (pkt s pid)
    let tc := min (mpCbs w) (x.tc + el * mpCir w)
    let ovf := if mpCoupled w then x.tc + el * mpCir w - mpCbs w else 0
    (mpMode w = 0 →
      let tp := min (mpPbs w) (x.tp + el * mpPir w)
      let col := if pre = 4 ∨ tp < n then 4 else if pre = 3 ∨ tc < n then 3 else 2
      ∃ t, exec (.meterRequest b false) s = .next (unpark t) ∧ (s.path.parked = [] → unpark t = t) ∧ meterQ t b = rest ∧ pkt t pid = { pkt s pid with colour := col } ∧
        meter t m = { x with tc := if col = 2 then tc - n else tc, tp := if col = 4 then tp else tp - n, last := raw s } ∧
        (∀ k, k ≠ m → meter t k = meter s k) ∧ t = { s with path := t.path, tm := t.tm }) ∧
    (mpMode w = 1 →
      let tp := min (mpPbs w) (x.tp + el * mpPir w + ovf)
      let col := if pre = 2 ∧ n ≤ tc then 2 else if pre ≠ 4 ∧ n ≤ tp then 3 else 4
      ∃ t, exec (.meterRequest b false) s = .next (unpark t) ∧ (s.path.parked = [] → unpark t = t) ∧ meterQ t b = rest ∧ pkt t pid = { pkt s pid with colour := col } ∧
        meter t m = { x with tc := if col = 2 then tc - n else tc, tp := if col = 3 then tp - n else tp, last := raw s } ∧
        (∀ k, k ≠ m → meter t k = meter s k) ∧ t = { s with path := t.path, tm := t.tm }) ∧
    (mpMode w = 0 → pre ≠ 4 → pre ≠ 3 → n ≤ mpCbs w → n ≤ mpPbs w →
      ∃ t, exec (.meterRequest b true) s = .next (unpark t) ∧ (s.path.parked = [] → unpark t = t) ∧ (pkt t pid).colour = 2 ∧
        meter t m = { x with tc := mpCbs w - n, tp := mpPbs w - n, last := raw s })) ∧
  (∀ (s : State) (b pid m t0 : Nat) (rest : List (Nat × Nat × Nat)), meterQ s b = (pid, m, t0) :: rest →
      (tfind s.path.pkts pid).isNone = true → exec (.meterRequest b false) s = .next (unpark (setMeterQ s b rest))) ∧
  (∀ (s : State) (b pid m t0 : Nat) (rest : List (Nat × Nat × Nat)), meterQ s b = (pid, m, t0) :: rest →
    ((raw s - t0) * 5 / 4 ≤ cfgN s 0x5830 0 0 → exec (.meterBacklogAlarm b) s = .next s) ∧
    (cfgN s 0x5830 0 0 < (raw s - t0) * 5 / 4 → ∃ t, exec (.meterBacklogAlarm b) s = .next t ∧
      t = { s with host := t.host, cnt := t.cnt })) ∧
  (∀ s : State, tsorted s.tm.meters = true → ∃ t, exec .bucketRefresh s = .next t ∧
    (∀ q n, n < 64 → bucketNow t q n = bucketNow s q n) ∧
    (∀ m, meterFill (meterProf s (meter s m).profile) (raw s) (meter t m) =
      meterFill (meterProf s (meter s m).profile) (raw s) (meter s m)) ∧
    t = setTm s { s.tm with buckets := t.tm.buckets, meters := t.tm.meters, meter0 := t.tm.meter0 }) ∧
  (∀ (s : State) (e : Nat),
    (cfgN s 0x5843 0 0 = 0 ∨ sampleDue s e = false ∨ nextSample s e = none → exec (.queueSample e) s = .next s) ∧
    (∀ k, cfgN s 0x5843 0 0 ≠ 0 → sampleDue s e = true → nextSample s e = some k →
      let q := 64 * e + k / 16
      let sel := k % 16
      let a := cfgN s 0x5843 0 0 + 32 * (s.tm.produced.toNat % cfgN s 0x5844 0 0)
      let fill := (s.tm.produced.toNat + 2 ^ 32 - cfgN s 0x5846 0 0) % 2 ^ 32
      let st := tset qstatReset s.tm.qstat (16 * q + sel) { qstat s (16 * q + sel) with
        depthMax := selDepth s q sel, dequeued := 0 }
      (fill = cfgN s 0x5844 0 0 → ∃ t, exec (.queueSample e) s = .next t ∧ t.tm.produced = s.tm.produced ∧
        t = { s with tm := t.tm, cnt := t.cnt, host := t.host }) ∧
      (fill ≠ cfgN s 0x5844 0 0 → cfgN s 0x5842 0 0 ≠ 0 → ∃ t, exec (.queueSample e) s = .next t ∧
        t.tm.produced = s.tm.produced + 1 ∧ t.tm.qstat = st ∧ t = { s with tm := t.tm, host := t.host } ∧
        t.host = { s.host with mem := writeBytes s.host.mem a (sampleRecord s q sel) }) ∧
      (fill ≠ cfgN s 0x5844 0 0 → cfgN s 0x5842 0 0 = 0 → a % 32 = 0 → pcRetired s (pcOf s a) = false →
        ∃ t, exec (.queueSample e) s = .next t ∧ t.tm.produced = s.tm.produced + 1 ∧ t.tm.qstat = st ∧
          t = { s with tm := t.tm, hbm := t.hbm } ∧ t.hbm.mem = writeBytes s.hbm.mem a (sampleRecord s q sel))))

/-- Under auto-negotiation the common mode of the highest rate resolves, of equal rates the one with the fewest
lanes. An attempt that succeeds within 500 ms takes its link to UP with the resolved mode and FEC, fills every
shaper bucket of a native port, and, where no recovered-clock output is enabled, leaves exactly event 0x0102;
one that has not succeeded at 500 ms takes it to FAIL_WAIT with event 0x0103 and the retry wait. The retry timer
doubles the wait, up to 30 s, and starts a new attempt; 30 s in UP return it to 1 s. Enabling a disabled native
port whose SerDes quads are awake starts an attempt; disabling one takes it to DISABLED with a wait of 1 s;
during a commit a write of the enable changes nothing. No other link changes. A lane that nothing owns is in
electrical idle; an owned one runs at the rate of the configured mode while its link is brought up, and of the
resolved mode while it is up. -/
def Obligations.LinkBringUp : Prop :=
  (∀ own partner m, resolveMode own partner = some m ↔
    ((0 < m ∧ m < 17 ∧ own.testBit m = true ∧ partner.testBit m = true) ∧
      ∀ c, 0 < c → c < 17 → own.testBit c = true → partner.testBit c = true → c ≠ m →
        modeRate c < modeRate m ∨ (modeRate c = modeRate m ∧ modeLanes m < modeLanes c))) ∧
  (∀ (s : State) (k partner m : Nat) (pf pe : Bool), (link s k).state = 1 → s.safe.safeStop = false →
      raw s ≤ (link s k).attempt + cyc 500000000 →
      (linkMedium s k = 0 → k < 1024 → resolveMode (advertised s k) partner = some m) →
      (linkMedium s k ≠ 0 ∨ 1024 ≤ k → m = linkMode s k) →
    let an := decide (linkMedium s k = 0)
    ∃ t, exec (.bringupSuccess k partner pf pe) s = .next t ∧
      link t k = { link s k with
        state := 2, upSince := raw s, fails := 0, resolved := m, fec := resolveFec s k m (an && pf), localFault := false,
        eee := an && pe, lastTx := raw s } ∧
      (∀ j, j ≠ k → link t j = link s j) ∧
      (k < 1024 → tcanon bucketReset s.tm.buckets = true → ∀ n ∈ shaperNodes, bucket t k n =
        { c := (shCbs (shaperWord s k n) * unit24 : Nat), p := (shPbs (shaperWord s k n) * unit24 : Nat), last := raw s }) ∧
      (k < 1024 → (∀ o, o < 4 → cfgOn s 0x7040 o 0 = false ∧ tget 0 s.time.recclk o = 0) →
        Reports 0x0102 [k, m, resolveFec s k m (an && pf), (raw s - (link s k).attempt) / 800000] false s t ∧
        t = { s with ports := t.ports, tm := t.tm, host := t.host, cnt := t.cnt })) ∧
  (∀ (s : State) (k lane stage : Nat), (link s k).state = 1 → (link s k).attempt + cyc 500000000 ≤ raw s →
    ∃ t, exec (.bringupTimeout k lane stage) s = .next t ∧
      link t k = { link s k with state := 4, timer := raw s, fails := (link s k).fails + 1 } ∧
      (∀ j, j ≠ k → link t j = link s j) ∧
      Reports 0x0103 [linkName k, lane, stage, (link s k).wait] false s t ∧
      t = { s with ports := t.ports, host := t.host, cnt := t.cnt }) ∧
  (∀ (s : State) (k : Nat), (link s k).state = 4 → (link s k).timer + (link s k).wait * cycSecond ≤ raw s →
    ∃ t, exec (.retryTimer k) s = .next t ∧
      link t k = { link s k with state := 1, attempt := raw s, lpi := 0, wait := min (2 * (link s k).wait) 30 } ∧
      (∀ j, j ≠ k → link t j = link s j) ∧ t = { s with ports := t.ports }) ∧
  (∀ (s : State) (k : Nat), (link s k).state = 2 → (link s k).upSince + 30 * cycSecond ≤ raw s →
    exec (.upStable k) s = .next { s with ports := { s.ports with
      links := tset linkReset s.ports.links k { link s k with wait := 1 } } }) ∧
  (∀ (s : State) (q : Nat) (on : Bool), s.ctl.commit.isSome = true → exec (.portEnableWrite q on) s = .next s) ∧
  (∀ (s : State) (q : Nat), q < 1024 → s.ctl.commit = none → (link s q).state = 0 → linkMode s q ≠ 0 → quadsAwake s q = true →
      s.safe.outputsStarted = true → s.safe.safeStop = false →
    ∃ t, exec (.portEnableWrite q true) s = .next t ∧ cfgOn t 0x2005 q 0 = true ∧
      link t q = { link s q with state := 1, attempt := raw s, lpi := 0 } ∧ (∀ j, j ≠ q → link t j = link s j) ∧
      t = { s with ctl := t.ctl, ports := t.ports }) ∧
  (∀ (s : State) (q : Nat), q < 1024 → s.ctl.commit = none → tcanon linkReset s.ports.links = true →
    ∃ t, exec (.portEnableWrite q false) s = .next t ∧ cfgOn t 0x2005 q 0 = false ∧ (link t q).state = 0 ∧
      (link t q).wait = 1 ∧ (∀ j, j ≠ q → link t j = link s j) ∧
      ((link s q).state = 2 ∨ (link s q).state = 3 → (link t q).lastDown = 7) ∧
      ((link s q).state ≠ 2 → (link s q).state ≠ 3 → t = { s with ctl := t.ctl, ports := t.ports })) ∧
  (∀ (s : State) (l : Nat),
    (laneOwner s l = none → laneRate s l = none) ∧
    (∀ r, laneRate s l = some r → r ∈ [10312500, 25781250, 53125000, 106250000, 212500000]) ∧
    (∀ k, laneOwner s l = some k → s.safe.outputsStarted = true → s.safe.safeStop = false →
      ((link s k).state = 1 → laneRate s l = some (modeLaneRate (linkMode s k))) ∧
      ((link s k).state = 2 → (linkLanes s k (link s k).resolved).contains l = true →
        laneRate s l = some (modeLaneRate (link s k).resolved)) ∧
      ((link s k).state = 0 ∨ (link s k).state = 4 → laneRate s l = none)))

/-- A local fault takes a link that is UP, or in REMOTE_FAULT, to BRINGUP with a new attempt; from UP its cause
becomes last_down. A remote fault takes an UP link to REMOTE_FAULT with last_down 5; once clear for 10 ms it is
UP again, and before that nothing changes. The end of a 1 ms FEC window keeps its counts; below
fec.degrade_limit, or with degrade_down 0, the link stays as it is; at the limit with degrade_down 1 an UP link
takes a local fault with cause 6. No other link changes. -/
def Obligations.LinkFaults : Prop :=
  (∀ (s : State) (k cause : Nat) (los : List Nat), cause ∈ [1, 2, 3, 4, 6] → (link s k).state = 2 →
    ∃ t, exec (.localFault k cause los) s = .next t ∧
      (link t k).state = 1 ∧ (link t k).lastDown = cause ∧ (link t k).attempt = raw s ∧ (link t k).localFault = true ∧
      (link t k).wait = (link s k).wait ∧ linkUp t k = false ∧
      (∀ j, j ≠ k → link t j = link s j) ∧ t.time.los = los) ∧
  (∀ (s : State) (k cause : Nat) (los : List Nat), cause ∈ [1, 2, 3, 4, 6] → (link s k).state = 3 →
    ∃ t, exec (.localFault k cause los) s = .next t ∧
      link t k = { link s k with state := 1, attempt := raw s, lpi := 0, localFault := true } ∧
      (∀ j, j ≠ k → link t j = link s j) ∧ t.time.los = los) ∧
  (∀ (s : State) (k : Nat), (link s k).state = 2 →
    ∃ t, exec (.remoteFault k) s = .next t ∧
      link t k = { link s k with state := 3, lastDown := 5, lpi := 0, rxLpi := false } ∧
      (∀ j, j ≠ k → link t j = link s j)) ∧
  (∀ (s : State) (k ns : Nat), (link s k).state = 3 →
    (ns < 10000000 → exec (.remoteFaultClear k ns) s = .next s) ∧
    (10000000 ≤ ns → ∃ t, exec (.remoteFaultClear k ns) s = .next t ∧
      link t k = { link s k with state := 2, upSince := raw s } ∧ (∀ j, j ≠ k → link t j = link s j))) ∧
  (∀ (s : State) (k corrected bad blocks : Nat) (syms : List (Nat × Nat)),
    let n := syms.foldl (fun n p => n + p.2) 0
    let w := ((link s k).windows.filter fun w => decide (raw s < w.1 + cycSecond)) ++ [(raw s, bad, n)]
    (1024 ≤ k ∨ bad < cfgN s 0x200B k 0 ∨ cfgOn s 0x200B k 1 = false →
      ∃ t, exec (.fecDegradeWindow k corrected bad blocks syms) s = .next t ∧
        t.ports.links = tset linkReset s.ports.links k { link s k with windows := w } ∧
        t = { s with ports := t.ports, host := t.host, cnt := t.cnt }) ∧
    (k < 1024 → cfgN s 0x200B k 0 ≤ bad → cfgOn s 0x200B k 1 = true → (link s k).state = 2 →
      ∃ t, exec (.fecDegradeWindow k corrected bad blocks syms) s = .next t ∧
        (link t k).state = 1 ∧ (link t k).lastDown = 6 ∧ (link t k).attempt = raw s ∧
        (∀ j, j ≠ k → link t j = link s j)))

/-- A port that may use LPI, has sent nothing for lpi.idle and holds no frame enters LPI; a frame that becomes
eligible wakes it, and so does lpi.enable turned to 0. While it is in LPI, or its wake time has not passed, the
traffic manager does not choose it. The partner's LPI is followed. The management link goes up after boot step
5, with event 0x0106, and down. A read of a management counter clears it alone. A good frame of legal length
that R303 does not accept only counts, in rx_filtered among others; an accepted one that is not for the Cobbler
goes to host receive ring px.mgmt.ring, or only counts when that is 0xFF; one with a bad FCS only counts, as
rx_fcs_error. -/
def Obligations.LpiAndManagementPort : Prop :=
  (∀ (s : State) (q : Nat), linkUp s q = true → lpiAllowed s q = true → (link s q).lpi ≠ 1 →
      (link s q).lastTx + cyc (cfgN s 0x200A q 1) ≤ raw s → portQueuesEmpty q s = true →
    ∃ t, exec (.lpiEnter q) s = .next t ∧ link t q = { link s q with lpi := 1, lpiSince := raw s } ∧
      (∀ j, j ≠ q → link t j = link s j) ∧ t = { s with ports := t.ports, host := t.host, cnt := t.cnt }) ∧
  (∀ (s : State) (q : Nat), (link s q).lpi = 1 → portHasEligible q s = true →
    ∃ t, exec (.lpiWake q) s = .next t ∧ link t q = { link s q with lpi := 2, lpiSince := raw s } ∧
      (∀ j, j ≠ q → link t j = link s j) ∧ t = { s with ports := t.ports, host := t.host, cnt := t.cnt }) ∧
  (∀ (s : State) (q : Nat), lpiEnable q true s = s ∧
    ((link s q).lpi ≠ 1 → lpiEnable q false s = s) ∧
    ((link s q).lpi = 1 → link (lpiEnable q false s) q = { link s q with lpi := 2, lpiSince := raw s } ∧
      ∀ j, j ≠ q → link (lpiEnable q false s) j = link s j)) ∧
  (∀ (s : State) (e q : Nat) (full : List Nat), lpiBlocks s q = true → nextPort s e full ≠ some q) ∧
  (∀ (s : State) (q : Nat), (link s q).lpi = 1 ∨ ((link s q).lpi = 2 ∧
      raw s < (link s q).lpiSince + 800 * max (cfgN s 0x200A q 2) (Config.lpiTxMin (link s q).resolved)) →
    lpiBlocks s q = true) ∧
  (∀ (s : State) (q : Nat) (b : Bool), q < 1024 → (link s q).rxLpi = !b →
    ∃ t, exec (.rxLpi q b) s = .next t ∧
      t.ports.links = tset linkReset s.ports.links q { link s q with rxLpi := b, rxLpiSince := raw s } ∧
      t = { s with ports := t.ports, host := t.host, cnt := t.cnt }) ∧
  (∀ (s : State) (up : Bool), s.ports.mgmtUp = !up → (up = true → 5 ∈ s.safe.bootDone ∧ s.safe.bootState ≠ 2) →
    ∃ t, exec (.mgmtLink up) s = .next t ∧ t.ports = { s.ports with mgmtUp := up } ∧
      Reports 0x0106 [b2n up, cfgN s 0x2070 0 0] false s t ∧ t = { s with ports := t.ports, host := t.host, cnt := t.cnt }) ∧
  (∀ (s : State) (sub : Nat), exec (.mgmtStatRead sub) s = .next { s with cnt := { s.cnt with
      ctr := tset 0 s.cnt.ctr (oa 0x2080 0 sub) 0 } }) ∧
  (∀ (s : State) (frame : Bytes), mgmtAccepts s frame = true ↔
    let da := beNat (frame.take 6)
    cfgOn s 0x2074 0 0 = true ∨ (da = 2 ^ 48 - 1 ∧ cfgOn s 0x2073 0 0 = true) ∨
    (da ≠ 0 ∧ da.testBit 40 = false ∧ ∃ i, i < 4 ∧ cfgNet s 0x2071 0 i = da) ∨
    (da ≠ 0 ∧ ∃ i, i < 8 ∧ cfgNet s 0x2072 0 i = da)) ∧
  (∀ (s : State) (frame : Bytes), s.ports.mgmtUp = true → 60 ≤ frame.length → frame.length ≤ 9212 →
      isMacControl frame = false →
    (mgmtAccepts s frame = false →
      ∃ t, exec (.mgmtFrameReceive (frame ++ leBytes 4 (crc32 frame))) s = .next t ∧ t = { s with cnt := t.cnt } ∧
        ctrGet t (oa 0x2080 0 0x50) = min (ctrGet s (oa 0x2080 0 0x50) + 1) (2 ^ 40 - 1)) ∧
    (mgmtAccepts s frame = true → isIpv6 frame 17 = false → isIpv6 frame 58 = false → cfgN s 0x2075 0 0 < 64 →
      ∃ t u, exec (.mgmtFrameReceive (frame ++ leBytes 4 (crc32 frame))) s = .next t ∧ u = { s with cnt := u.cnt } ∧
        t = rxEnqueue (cfgN s 0x2075 0 0) {
          data := frame, source := 6, port := 0, truncated := false, ts := stampNow s, parse := 0, metadata := 0,
          refused := 0 } u) ∧
    (mgmtAccepts s frame = true → isIpv6 frame 17 = false → isIpv6 frame 58 = false → cfgN s 0x2075 0 0 = 0xFF →
      ∃ t, exec (.mgmtFrameReceive (frame ++ leBytes 4 (crc32 frame))) s = .next t ∧ t = { s with cnt := t.cnt }) ∧
    (∀ x, x < 2 ^ 32 → x ≠ crc32 frame →
      ∃ t, exec (.mgmtFrameReceive (frame ++ leBytes 4 x)) s = .next t ∧ t = { s with cnt := t.cnt } ∧
        ctrGet t (oa 0x2080 0 7) = min (ctrGet s (oa 0x2080 0 7) + 1) (2 ^ 40 - 1)))

/-- An overhead frame moves the lock of its instance as Table 11-2 states: from SEARCH at a candidate; from
FRAME_CONFIRM to MF_SEARCH at the second recurrence, back to SEARCH without one; from MF_SEARCH to MF_CONFIRM
when OMF falls; from MF_CONFIRM, 32 frames on, to LOCKED at the second fall in a row, back to MF_SEARCH without
one; from LOCKED to SEARCH at the fifth bad frame in a row, which sets LOF. A member of one instance that
becomes LOCKED has LOF and LOM clear. Links, clocks, safety and the flow store do not change. A realignment of a
group whose locked members have all arrived within deskew_max and within 10 us of one another delays each by its
lead over the latest and leaves none with SKEW. -/
def Obligations.OverheadLockAndDeskew : Prop :=
  (∀ (s : State) (i n : Nat) (f : OhFrame), fxOn s (i / 8) = true → fnStopped s (.flexe (i / 8)) = false →
      linkUp s (phyKey i) = true → n < fxInstances s (i / 8) → tcanon lockReset s.fx.locks = true →
    let l := ohLock s (8 * i + n)
    let good := f.start && f.crc
    let fell := good && l.omf && !f.omf
    ∃ t, exec (.flexeOhFrame i n f) s = .next t ∧
      let l' := ohLock t (8 * i + n)
      (l.state = 0 → l'.state = b2n good) ∧
      (l.state = 1 → l'.state = if !good then 0 else if l.hits = 1 then 2 else 1) ∧
      (l.state = 1 → good = true → l.hits ≠ 1 → l'.hits = l.hits + 1) ∧
      (l.state = 2 → l'.state = if fell then 3 else 2) ∧
      (l.state = 3 → l.frames < 31 → l'.state = 3 ∧ l'.frames = l.frames + 1) ∧
      (l.state = 3 → 31 ≤ l.frames → l'.state = if !fell then 2 else if l.hits = 1 then 4 else 3) ∧
      (l.state = 4 → good = true → l'.badFrames = 0 ∧ l'.state ≠ 0) ∧
      (l.state = 4 → good = false → l.badFrames = 4 → l'.state = 0 ∧ bit (member t i).defects 1 = true) ∧
      (l.state = 4 → good = false → l.badFrames < 4 → l'.state ≠ 0 ∧ l'.badFrames = l.badFrames + 1) ∧
      (fxInstances s (i / 8) = 1 → l.state = 3 → l'.state = 4 →
        bit (member t i).defects 1 = false ∧ bit (member t i).defects 2 = false) ∧
      (∀ k, k ≠ 8 * i + n → ohLock t k = ohLock s k) ∧
      t.ports = s.ports ∧ t.time = s.time ∧ t.safe = s.safe ∧ t.flow = s.flow ∧ t.hbm = s.hbm) ∧
  (∀ (s : State) (g lo hi : Nat) (arr : Nat → Nat), fxOn s g = true → fnStopped s (.flexe g) = false →
      (∀ i ∈ lockedMembers s g, (member s i).arrival = some (arr i) ∧ lo ≤ arr i ∧ arr i ≤ hi) →
      (∃ i ∈ lockedMembers s g, arr i = hi) →
      hi - lo ≤ cfgN s 0x2800 g 3 * 25 / 16 → hi - lo ≤ 15625 →
    ∃ t, exec (.flexeRealign g []) s = .next t ∧
      (∀ i ∈ lockedMembers s g, (member t i).delay = hi - arr i ∧ (member t i).arrival = some (arr i) ∧
        bit (member t i).defects 5 = false) ∧
      t.ports = s.ports ∧ t.fx.locks = s.fx.locks ∧ t.fx.groups = s.fx.groups)

/-- At a multiframe boundary a requested calendar gets CR; once CA has come or ca_timeout has expired, the calendar
in use switches and CR clears; a further change clears CR for one multiframe first. The timeout is noted when it
has passed since CR. A valid HELLO in NEGOTIATE or SILENT records the version and the partner's nonce, and takes
the group to ACTIVE when it acknowledges both, else leaves it in NEGOTIATE; without a common version the group
goes SILENT. A HELLO in ACTIVE, and a REPORT with a foreign nonce or missing for 8 multiframes, take it to
NEGOTIATE with a new session; 30 multiframes without a HELLO take it to SILENT, where the retry time restarts at
each HELLO sent. A message that R327 discards only counts. A good REPORT restarts its member's age and keeps the
section error count to return. -/
def Obligations.CalendarsAndSeam : Prop :=
  (∀ (s : State) (g : Nat) (bips lost : List (Nat × Nat)) (idles : List (Nat × Nat × Nat)), fxOn s g = true →
      fnStopped s (.flexe g) = false → tcanon groupReset s.fx.groups = true →
    let x := fxGroup s g
    ∃ t, exec (.flexeMultiframe g bips lost idles) s = .next t ∧ (fxGroup t g).mfSeq = x.mfSeq + 1 ∧
      (x.calState = 0 → (fxGroup t g).inUse = x.inUse ∧ (fxGroup t g).cr = x.cr) ∧
      (x.calState = 1 → x.crHold = 2 → (fxGroup t g).cr = false ∧ (fxGroup t g).calState = 1 ∧ (fxGroup t g).crHold = 1) ∧
      (x.calState = 1 → x.crHold ≠ 2 → x.cr = false → (fxGroup t g).cr = true ∧ (fxGroup t g).crSince = raw s ∧
        (fxGroup t g).inUse = x.inUse ∧ (fxGroup t g).calState = 1) ∧
      (x.calState = 1 → x.crHold ≠ 2 → x.cr = true → (x.caIn || x.expired) = true →
        (fxGroup t g).inUse = 1 - x.inUse ∧ (fxGroup t g).calState = 0 ∧ (fxGroup t g).cr = false) ∧
      (x.calState = 1 → x.crHold ≠ 2 → x.cr = true → (x.caIn || x.expired) = false →
        (fxGroup t g).inUse = x.inUse ∧ (fxGroup t g).cr = true ∧ (fxGroup t g).calState = 1) ∧
      (∀ j, j ≠ g → fxGroup t j = fxGroup s j)) ∧
  (∀ (s : State) (g : Nat), (fxGroup s g).calState = 1 → (fxGroup s g).cr = true →
      (fxGroup s g).crSince + cyc (cfgN s 0x2800 g 5) ≤ raw s →
    exec (.flexeCaTimeout g) s = .next { s with fx := { s.fx with
      groups := tset groupReset s.fx.groups g { fxGroup s g with expired := true } } }) ∧
  (∀ (s : State) (i h : Nat) (m body : Bytes), fxOn s (i / 8) = true → memberLocked s i = true →
      seamParse s i 1 (· == 8) m = (h, body, true) →
    let g := i / 8
    let b := fun (k : Nat) => (body.getD k 0).toNat
    let v := min (cfgN s 0x2810 g 1) (b 1)
    let x := fxGroup s g
    (x.seam = 1 ∨ x.seam = 3 → 1 ≤ v → b 0 ≤ v →
      ∃ t, exec (.seamHelloReceived i m) s = .next t ∧ (fxGroup t g).version = v ∧
        (fxGroup t g).peer = some (BitVec.ofNat 32 h) ∧ (fxGroup t g).nonce = x.nonce ∧
        (fxGroup t g).seam = if b 2 = v ∧ beNat (slice body 4 4) = x.nonce.toNat then 2 else 1) ∧
    (x.seam = 1 ∨ x.seam = 3 → ¬ (1 ≤ v ∧ b 0 ≤ v) →
      ∃ t, exec (.seamHelloReceived i m) s = .next t ∧ fxGroup t g = { x with seam := 3, helloAge := 0, silentSince := raw s } ∧
        Reports 0x0207 [g, 3, 0, 3] false s t ∧ t = { s with fx := t.fx, host := t.host, cnt := t.cnt }) ∧
    (x.seam = 2 → ∃ t, exec (.seamHelloReceived i m) s = .next t ∧ (fxGroup t g).seam = 1 ∧ (fxGroup t g).version = 0 ∧
        (fxGroup t g).peer = none ∧ Reports 0x0207 [g, 1, 0, 4] false s t ∧
        t = { s with fx := t.fx, host := t.host, cnt := t.cnt, free := s.free + 1 })) ∧
  (∀ (s : State) (i : Nat) (m : Bytes) (own : List (Nat × Nat)), fxOn s (i / 8) = true → memberLocked s i = true →
      (fxGroup s (i / 8)).seam ≠ 0 →
    ((seamParse s i 1 (· == 8) m).2.2 = false → exec (.seamHelloReceived i m) s = .next (count 0x2810 (i / 8) 7 s)) ∧
    ((seamParse s i 2 (fun n => n % 4 == 0 && decide (8 ≤ n) && decide (n ≤ 328)) m).2.2 = false →
      exec (.seamReportReceived i m own) s = .next (count 0x2810 (i / 8) 7 s))) ∧
  (∀ (s : State) (i h : Nat) (m body : Bytes) (own : List (Nat × Nat)), fxOn s (i / 8) = true → memberLocked s i = true →
      seamParse s i 2 (fun n => n % 4 == 0 && decide (8 ≤ n) && decide (n ≤ 328)) m = (h, body, true) →
      body.length = 8 + 4 * fld (beNat (body.take 8)) 31 16 → (fxGroup s (i / 8)).seam = 2 →
    (((fxGroup s (i / 8)).peer = some (BitVec.ofNat 32 h) → tcanon memberReset s.fx.members = true →
      ∃ t, exec (.seamReportReceived i m own) s = .next t ∧ (member t i).reportAge = 0 ∧
        (member t i).rei = (byteErrors (fld (beNat (body.take 8)) 63 56) (((own.find? fun r => r.1 == i).map (·.2)).getD 0 % 256),
          (fld h 47 32 + 65535) % 65536) ∧ t.fx.groups = s.fx.groups)) ∧
    ((fxGroup s (i / 8)).peer ≠ some (BitVec.ofNat 32 h) →
      ∃ t, exec (.seamReportReceived i m own) s = .next t ∧ (fxGroup t (i / 8)).seam = 1 ∧ (fxGroup t (i / 8)).peer = none ∧
        Reports 0x0207 [i / 8, 1, 0, 5] false s t)) ∧
  (∀ (s : State) (g : Nat), (fxGroup s g).seam = 1 → 30 ≤ (fxGroup s g).helloAge →
    ∃ t, exec (.seamNegotiateTimeout g) s = .next t ∧
      fxGroup t g = { fxGroup s g with seam := 3, helloAge := 0, silentSince := raw s } ∧
      Reports 0x0207 [g, 3, 0, 2] false s t ∧ t = { s with fx := t.fx, host := t.host, cnt := t.cnt }) ∧
  (∀ (s : State) (g : Nat), (fxGroup s g).seam = 2 → (∀ i ∈ lockedMembers s g, 8 ≤ (member s i).reportAge) →
    ∃ t, exec (.seamReportTimeout g) s = .next t ∧ (fxGroup t g).seam = 1 ∧ (fxGroup t g).version = 0 ∧
      (fxGroup t g).peer = none ∧ Reports 0x0207 [g, 1, 0, 5] false s t ∧
      t = { s with fx := t.fx, host := t.host, cnt := t.cnt, free := s.free + 1 }) ∧
  (∀ (s : State) (g : Nat), (fxGroup s g).seam = 3 → (fxGroup s g).silentSince + cfgN s 0x2810 g 4 * cycSecond ≤ raw s →
    ∃ t, exec (.seamRetry g) s = .next t ∧ fxGroup t g = { fxGroup s g with silentSince := raw s } ∧
      (∀ i, lockedMembers s g = i :: (lockedMembers s g).tail → cfgN s 0x2801 i 3 < 256 →
        ((member t i).seamSent.take 4) = [0x53, 0x4D, 1, 1]) ∧
      t = { s with fx := t.fx })

/-- The tenth severely errored second in a row makes all ten unavailable, the tenth other second in a row makes all
ten available again, and a second like those before it leaves the state decided as it was. PM_SECOND runs once
per device second. A monitored entity that is available, with no second undecided, gains in its current
15-minute bin an ES for a second with an errored block, and its BBE, when that second is not severely errored.
10 s after its end a 15-minute bin of an entity is written to its slot as a history record and counted; before
that nothing changes. -/
def Obligations.PerformanceMonitoring : Prop :=
  (∀ (u : Bool) (held : List (Nat × Nat × Nat × Nat)) (x : Nat × Nat × Nat × Nat),
    (((x.2.2.1 ≠ 0) ↔ (u = true)) → availStep u held x = (u, [], (held ++ [x]).map fun y => (u, y))) ∧
    (¬ ((x.2.2.1 ≠ 0) ↔ (u = true)) → held.length < 9 → availStep u held x = (u, held ++ [x], [])) ∧
    (¬ ((x.2.2.1 ≠ 0) ↔ (u = true)) → held.length = 9 →
      availStep u held x = (!u, [], (held ++ [x]).map fun y => (!u, y)))) ∧
  (∀ s : State, s.fx.pmLast = devSeconds s → exec .pmSecond s = .next s) ∧
  (∀ s : State, s.fx.pmLast ≠ devSeconds s → ∃ t, exec .pmSecond s = .next t ∧ t.fx.pmLast = devSeconds s ∧
      t.time = { s.time with stepped := false } ∧ t.ports = s.ports ∧ t.hbm = s.hbm) ∧
  (∀ (s : State) (e : Nat), pmEntities s = [e] → s.fx.pmLast ≠ devSeconds s → cfgOn s 0x2820 0 0 = true → 0 < devSeconds s →
      (pmEntity s e).unavail.1 = false → (pmEntity s e).held = ([], []) → (pmEntity s e).defect = (false, false, false) → entityDefects s e = (false, false, false) →
      (pmEntity s e).blocks.2 = 0 → 0 < (pmEntity s e).blocks.1 → (pmEntity s e).blocks.1 < cfgN s 0x2822 0 0 →
      (pmEntity s e).unavail.2 = false → devSeconds s % 900 ≠ 0 → e < 2560 →
      ctrGet s (oa 0x2830 e 1) + (pmEntity s e).blocks.1 < 2 ^ 32 → ctrGet s (oa 0x2830 e 4) + (pmEntity s e).blocks.1 < 2 ^ 32 →
    ∃ t, exec .pmSecond s = .next t ∧ ctrGet t (oa 0x2830 e 1) = ctrGet s (oa 0x2830 e 1) + 1 ∧
      ctrGet t (oa 0x2830 e 4) = ctrGet s (oa 0x2830 e 4) + (pmEntity s e).blocks.1 ∧
      ctrGet t (oa 0x2830 e 2) = ctrGet s (oa 0x2830 e 2) ∧ ctrGet t (oa 0x2830 e 3) = ctrGet s (oa 0x2830 e 3)) ∧
  (∀ (s : State) (e : Nat), (pmEntity s e).ending = (true, false) →
    let start := binStart s false (devSeconds s)
    let a := partAddr s 4 (cfgN s 0x2823 0 0 + (96 * e + (pmEntity s e).closed % 96) * 64)
    (devSeconds s < start + 10 → exec (.pmBinClose e) s = .next s) ∧
    (start + 10 ≤ devSeconds s → a % 64 = 0 → pcRetired s (pcOf s a) = false →
      ∃ t u, exec (.pmBinClose e) s = .next t ∧ u.cnt = t.cnt ∧
        t.hbm.mem = writeBytes s.hbm.mem a (historyRecord u e (start - 900)) ∧
        ctrGet t (oa 0x2830 e 31) = ctrGet s (oa 0x2830 e 31) % 4 + 4 ∧
        t.fx.pm = tset pmReset s.fx.pm e { pmEntity s e with ending := (false, false), closed := (pmEntity s e).closed + 1 } ∧
        t = { s with fx := t.fx, cnt := t.cnt, hbm := t.hbm }))

/-- For every 128-bit data unit: the decoder finds its codeword clean; with any error confined to one symbol it
restores the data and names the symbol; with any error confined to two symbols it answers uncorrectable. With a
pin pair erased, every error confined to the pair's two symbols is resolved, and any further error confined to
one other symbol makes the word uncorrectable. -/
def Obligations.SymbolCodeCorrectsOneDetectsTwo : Prop :=
  ∀ d : BitVec 128,
    let w := (symEncode d).toNat
    symDecode (symEncode d) = .clean d ∧
    (∀ p e, p < 36 → 0 < e → e < 16 → symDecode (BitVec.ofNat 144 (symXor w p e)) = .corrected d [p]) ∧
    (∀ p q e f, p < 36 → q < 36 → p ≠ q → 0 < e → e < 16 → 0 < f → f < 16 →
      symDecode (BitVec.ofNat 144 (symXor (symXor w p e) q f)) = .uncorrectable) ∧
    (∀ v e f, v < 18 → e < 16 → f < 16 →
      let x := symXor (symXor w (pairSymbols v).1 e) (pairSymbols v).2 f
      (symErase v (BitVec.ofNat 144 x) = .clean d ∨ ∃ l, symErase v (BitVec.ofNat 144 x) = .corrected d l) ∧
      (∀ p g, p < 36 → p ≠ (pairSymbols v).1 → p ≠ (pairSymbols v).2 → 0 < g → g < 16 →
        symErase v (BitVec.ofNat 144 (symXor x p g)) = .uncorrectable))

/-- A controller of a pseudo-channel in service, its stack not in self-refresh, first promotes the requests that
have aged or hold up a promoted one to their unit, and issues the oldest promoted request, or with none promoted
and no open row preferred the oldest request of the lowest class: the request leaves the queue, a read is in
flight from now on, and nothing changes outside the pseudo-channels, counters and events; a parity error counts
a retry, and the third in a row retires the pseudo-channel with cause 3 and empties its queues. Promotion marks
exactly the requests whose wait exceeds their class's limit, and those that hold up a promoted later one to the
same unit. A refresh notes its bank and closes only rows of that bank. Retraining waits for its turn, passes
over a stack in self-refresh without loss of its place, and else takes the turn on; a pass ends a hold, a
failure holds the setting and reports event 0x0904, and retires the pseudo-channel with cause 1 when its
corrected codewords of the last second are at the limit. A temperature below the limit is stored and nothing
else changes; one that reaches it is detected as a fault of class 10. -/
def Obligations.HbmControllersServe : Prop :=
  (∀ (s : State) (n : Nat) (r : HbmReq), (pc s n).state ≠ 2 → tget 0 s.hbm.stackSt (stackOf n) ≠ 1 →
      tcanon pcReset s.hbm.pcs = true →
    let marked := fun (x : HbmReq) => x.promoted || reqAged s x || liftsUnit s (pc s n).queue x
    ((pc s n).queue.find? marked = some r ∨
        ((∀ x ∈ (pc s n).queue, marked x = false) ∧
          ((pc s n).queue.find? fun x => (pc s n).queue.all fun y => decide (x.cls ≤ y.cls)) = some r ∧ r.cls < 8)) →
    (∃ t p, exec (.hbmRequestIssue n false false) s = .next t ∧ t.hbm.pcs = tset pcReset s.hbm.pcs n p ∧
      p.queue.map (·.order) = ((pc s n).queue.filter fun x => x.order != r.order).map (·.order) ∧
      p.flight = (if r.write then (pc s n).flight
        else (pc s n).flight ++ [{ r with since := raw s, promoted := marked r }]) ∧
      p.retries = 0 ∧ p.state = (pc s n).state ∧
      t = { s with hbm := { s.hbm with pcs := t.hbm.pcs }, cnt := t.cnt, host := t.host }) ∧
    ((pc s n).retries < 2 → ∃ t, exec (.hbmRequestIssue n false true) s = .next t ∧
      t.hbm.pcs = tset pcReset s.hbm.pcs n { pc s n with
        queue := (pc s n).queue.map fun x => { x with promoted := marked x }, retries := (pc s n).retries + 1 } ∧
      t = { s with hbm := { s.hbm with pcs := t.hbm.pcs }, cnt := t.cnt, host := t.host }) ∧
    (2 ≤ (pc s n).retries → ∃ t, exec (.hbmRequestIssue n false true) s = .next t ∧
      t.hbm.pcs = tset pcReset s.hbm.pcs n { pc s n with state := 2, cause := 3, queue := [], flight := [], rows := [] })) ∧
  (∀ (s : State) (n : Nat), ∃ t, exec (.hbmAgePromotion n) s = .next t ∧
    t.hbm.pcs = tset pcReset s.hbm.pcs n { pc s n with queue := (pc s n).queue.map fun r =>
      { r with promoted := r.promoted || decide (cyc (cfgN s 0x6010 r.cls 0) < raw s - r.since) ||
          (pc s n).queue.any fun o => o.addr / 64 == r.addr / 64 && decide (r.order < o.order) &&
            (o.promoted || decide (cyc (cfgN s 0x6010 o.cls 0) < raw s - o.since)) } } ∧
    t = { s with hbm := { s.hbm with pcs := t.hbm.pcs }, host := t.host, cnt := t.cnt }) ∧
  (∀ (s : State) (n b : Nat), (pc s n).state ≠ 2 → ∃ t p, exec (.hbmRefresh n b) s = .next t ∧
    t.hbm.pcs = tset pcReset s.hbm.pcs n p ∧ tfind p.refreshed b = some (raw s) ∧
    (∀ x ∈ (pc s n).rows, Config.rowBank x.1 ≠ b → x ∈ p.rows) ∧ p.queue = (pc s n).queue ∧
    t = { s with hbm := { s.hbm with pcs := t.hbm.pcs } }) ∧
  (∀ s : State,
    let st := s.hbm.turn % 4
    let n := 4 * tget 0 s.hbm.stackTurn st + st
    let due := s.hbm.turnAt + cyc (cfgN s 0x6023 0 0 / 128) ≤ raw s
    let h : Hbm := { s.hbm with turn := (s.hbm.turn + 1) % 128, turnAt := raw s }
    let g : Hbm := { h with stackTurn := tset 0 s.hbm.stackTurn st ((tget 0 s.hbm.stackTurn st + 1) % 32) }
    (∀ pass, ¬ due → exec (.hbmRetrain pass) s = .next s) ∧
    (∀ pass, due → tget 0 s.hbm.stackSt st = 1 → exec (.hbmRetrain pass) s = .next { s with hbm := h }) ∧
    (∀ pass, due → tget 0 s.hbm.stackSt st = 0 → (pc s n).state = 2 →
      exec (.hbmRetrain pass) s = .next { s with hbm := g }) ∧
    (due → tget 0 s.hbm.stackSt st = 0 → (pc s n).state ≠ 2 →
      (∃ t, exec (.hbmRetrain true) s = .next t ∧
        t.hbm = { g with pcs := tset pcReset s.hbm.pcs n { pc s n with holding := false } } ∧
        t = { s with hbm := t.hbm, cnt := t.cnt }) ∧
      ((recent s (pc s n).corrected).length < cfgN s 0x6024 0 0 →
        ∃ t, exec (.hbmRetrain false) s = .next t ∧
          t.hbm = { g with pcs := tset pcReset s.hbm.pcs n { pc s n with holding := true } } ∧
          t = { s with hbm := t.hbm, cnt := t.cnt, host := t.host }) ∧
      (cfgN s 0x6024 0 0 ≤ (recent s (pc s n).corrected).length → tcanon pcReset s.hbm.pcs = true →
        ∃ t, exec (.hbmRetrain false) s = .next t ∧ (pc t n).state = 2 ∧ (pc t n).cause = 1))) ∧
  (∀ (s : State) (st : Nat) (x : Int),
    let u : State := { s with hbm := { s.hbm with temps := tset 0 s.hbm.temps st x } }
    (x < cfgI s 0x6026 0 0 → exec (.hbmStackTemperature st x) s = .next u) ∧
    (cfgI s 0x6026 0 0 ≤ x → tget 0 s.hbm.temps st < cfgI s 0x6026 0 0 →
      exec (.hbmStackTemperature st x) s = .next (detect 10 0x0907 [st, unsigned32 x, b2n (refreshDoubled u st)] u)))

/-- A read whose words are all codewords answers their data unpoisoned, leaves the flight list, and changes nothing
else; one with a word that is uncorrectable answers poisoned, counts it, and poisons the codeword. A read
unanswered for 10 us after it was issued (log entry 90) retires the pseudo-channel with cause 3. The patrol
leaves a clean word as it is; a corrected word is written back unless a write has overtaken it; the last word of
a pass notes the time and starts the pair counts anew. -/
def Obligations.HbmReadsAndScrub : Prop :=
  (∀ (s : State) (n : Nat) (r : HbmReq) (rest : List HbmReq) (ds : List (BitVec 128)), (pc s n).flight = r :: rest →
      18 ≤ (pc s n).erased → tcanon pcReset s.hbm.pcs = true →
    exec (.hbmReadComplete n (ds.map symEncode)) s = .next { s with hbm := { s.hbm with
      pcs := tset pcReset s.hbm.pcs n { pc s n with flight := rest },
      lastRead := some (r, ds.flatMap fun d => leBytes 16 d.toNat, false) } }) ∧
  (∀ (s : State) (n : Nat) (r : HbmReq) (rest : List HbmReq) (w : BitVec 144), (pc s n).flight = r :: rest →
      18 ≤ (pc s n).erased → tcanon pcReset s.hbm.pcs = true → symDecode w = .uncorrectable →
    ∃ t, exec (.hbmReadComplete n [w]) s = .next t ∧ t.hbm.lastRead = some (r, List.replicate 16 0, true) ∧
      t.hbm.poison.contains (r.addr / 16 * 16) = true ∧ t.hbm.mem = s.hbm.mem) ∧
  (∀ (s : State) (n : Nat) (r : HbmReq) (rest : List HbmReq), (pc s n).flight = r :: rest → (pc s n).state ≠ 2 →
      r.since + cyc 10000 ≤ raw s →
    ∃ t, exec (.hbmReadTimeout n) s = .next t ∧
      t.hbm.pcs = tset pcReset s.hbm.pcs n { pc s n with state := 2, cause := 3, queue := [], flight := [], rows := [] }) ∧
  (∀ (s : State) (a : Nat) (d : BitVec 128), a < hbmBytes → (pc s (pcOf s a)).state ≠ 2 →
      tget 0 s.hbm.stackSt (stackOf (pcOf s a)) ≠ 1 → 18 ≤ (pc s (pcOf s a)).erased →
    exec (.patrolScrub a (symEncode d) false false) s = .next s ∧
    exec (.patrolScrub a (symEncode d) false true) s = .next { s with hbm := { s.hbm with
      lastPass := devSeconds s, pcs := s.hbm.pcs.map fun r => (r.1, { r.2 with passSymbols := [] }) } }) ∧
  (∀ (s : State) (a p e : Nat) (d : BitVec 128), a < hbmBytes → a % 16 = 0 → (pc s (pcOf s a)).state = 0 → 2 ≤ partOf s a →
      tget 0 s.hbm.stackSt (stackOf (pcOf s a)) ≠ 1 → 18 ≤ (pc s (pcOf s a)).erased → tcanon pcReset s.hbm.pcs = true →
      (pc s (pcOf s a)).holding = false → p < 36 → 0 < e → e < 16 →
    let w := BitVec.ofNat 144 (symXor (symEncode d).toNat p e)
    (∃ t, exec (.patrolScrub a w false false) s = .next t ∧
      t.hbm.mem = writeBytes s.hbm.mem (a / 16 * 16) (leBytes 16 d.toNat)) ∧
    (∃ t, exec (.patrolScrub a w true false) s = .next t ∧ t.hbm.mem = s.hbm.mem))

/-- A GET takes one free buffer of a fitting pool of least size, for the requester and unshared, and tells it the
handle; with that pool empty, or no pool that fits, it answers EMPTY and no buffer changes. SHARE by the owner
adds a sharer below 15; RELEASE by a named sharer takes one of its shares away; HANDOVER and FREE by the owner
of an unshared buffer change its owner, or return it. The same operation on a buffer that is free, in no enabled
pool or off its boundary, by one who is neither owner nor sharer, or a HANDOVER or FREE of a shared buffer,
changes no buffer. Only the host interface and counters change. Which free buffer a GET takes is a free value. -/
def Obligations.PoolsLendBuffers : Prop :=
  (∀ (s : State) (rq len mask : Nat), (∀ k, k < 16 → cfgN s 0x6840 k 1 ≤ 2 ^ 20) →
    ∃ t, exec (.get rq len mask) s = .next t ∧ t = { s with host := t.host, cnt := t.cnt, free := t.free } ∧
      (∀ k, poolFor s mask len = some k →
        k < 16 ∧ mask.testBit k = true ∧ poolOn s k = true ∧ len ≤ poolSize s k ∧
        (∀ j, j < 16 → mask.testBit j = true → poolOn s j = true → len ≤ poolSize s j → poolSize s k ≤ poolSize s j) ∧
        (poolFree s k = 0 → t.host.bufs = s.host.bufs ∧ t.host.grants = tset 0 s.host.grants rq 0) ∧
        (poolFree s k ≠ 0 → ∃ h, h / 2 ^ 28 = k ∧ h % 2 ^ 28 < cfgN s 0x6840 k 1 ∧ tfind s.host.bufs h = none ∧
          t.host.bufs = tput s.host.bufs h { owner := rq, sharers := [] } ∧
          t.host.grants = tset 0 s.host.grants rq (h + 1))) ∧
      (poolFor s mask len = none → t = { s with host := { s.host with grants := tset 0 s.host.grants rq 0 } } ∧
        ∀ j, j < 16 → mask.testBit j = true → poolOn s j = true → poolSize s j < len)) ∧
  (∀ (s : State) (rq a h x : Nat) (b : PoolBuf), poolAt s a = some (h, true) → tfind s.host.bufs h = some b →
    (b.owner = rq → b.sharers.length < 15 →
      ∃ t, exec (.share rq a x) s = .next t ∧ t.host.bufs = tput s.host.bufs h { b with sharers := b.sharers ++ [x] } ∧
        t = { s with host := { s.host with bufs := t.host.bufs, poolLast := t.host.poolLast } }) ∧
    (rq ∈ b.sharers →
      ∃ t, exec (.bufferRelease rq a) s = .next t ∧
        t.host.bufs = tput s.host.bufs h { b with sharers := b.sharers.erase rq } ∧
        t = { s with host := { s.host with bufs := t.host.bufs, poolLast := t.host.poolLast } }) ∧
    (b.owner = rq → b.sharers = [] →
      (∃ t, exec (.handover rq a x) s = .next t ∧ t.host.bufs = tput s.host.bufs h { b with owner := x } ∧
        t = { s with host := { s.host with bufs := t.host.bufs, poolLast := t.host.poolLast } }) ∧
      (∃ t, exec (.free rq a) s = .next t ∧ t.host.bufs = tdel s.host.bufs h ∧
        t = { s with host := { s.host with bufs := t.host.bufs, poolLast := t.host.poolLast } })) ∧
    (b.owner ≠ rq ∨ b.sharers ≠ [] → ∀ c, c ∈ [Instr.handover rq a x, .free rq a] →
      ∃ t, exec c s = .next t ∧ t.host.bufs = s.host.bufs ∧ t = { s with host := t.host, cnt := t.cnt }) ∧
    (b.owner ≠ rq → ∃ t, exec (.share rq a x) s = .next t ∧ t.host.bufs = s.host.bufs ∧
      t = { s with host := t.host, cnt := t.cnt }) ∧
    (rq ∉ b.sharers → ∃ t, exec (.bufferRelease rq a) s = .next t ∧ t.host.bufs = s.host.bufs ∧
      t = { s with host := t.host, cnt := t.cnt })) ∧
  (∀ (s : State) (rq a x : Nat) (c : Instr), c ∈ [Instr.share rq a x, .bufferRelease rq a, .handover rq a x, .free rq a] →
      (poolAt s a = none ∨ (∃ h, poolAt s a = some (h, false)) ∨
        ∃ h, poolAt s a = some (h, true) ∧ tfind s.host.bufs h = none) →
    ∃ t, exec c s = .next t ∧ t.host.bufs = s.host.bufs ∧ t = { s with host := t.host, cnt := t.cnt })

/-- Enabling a ring that is not a device channel's sets enable, clears stopped and the error, and takes entries
again from the failed one where the host produces them; disabling it stops it at once unless descriptors of a
channel, or commands of the command ring, are in flight. A write of CONS of an event queue or receive ring
stores it. An expired moderation time sends the ring's message, or marks it pending while masked, and clears the
ring's unsignalled count. A BAR2 access within the address space reads and writes the host window, reads the
telemetry partition, and elsewhere reads all ones, writes nothing and is counted. A change of the PCIe link sets
rate and width and reports event 0x0A01; a link that goes down stops every ring and forgets the commands of the
command ring that were in flight. PERST_N high starts training after the ROM start; PERST_N low takes the link
down, stops every ring and forgets those commands too, and changes nothing beyond the host interface. -/
def Obligations.HostInterfaceAnswers : Prop :=
  (∀ (s : State) (k : Nat), ringHidden s k = false →
    let r := ring s k
    (r.enable = false → exec (.ringEnable k true) s = .next { s with host := { s.host with
      rings := tset (ringReset k) s.host.rings k { r with
        enable := true, stopped := false, error := 0,
        cons := if r.error ≠ 0 ∧ hostProduces k = true then r.erridx else r.cons } } }) ∧
    (r.enable = true → ∃ t, exec (.ringEnable k false) s = .next t ∧
      t = { s with host := { s.host with rings := t.host.rings } } ∧
      t.host.rings = tset (ringReset k) s.host.rings k { r with
        enable := false,
        stopped := r.stopped || decide ((k < 144 ∨ tget [] s.host.dma (k - 144) = []) ∧ ¬ (k = cmdKey ∧ 0 < ringFlights s)) })) ∧
  (∀ (s : State) (k : Nat) (v : BitVec 32), hostProduces k = false →
    exec (.ringConsWrite k v) s = .next { s with host := { s.host with
      rings := tset (ringReset k) s.host.rings k { ring s k with cons := v } } }) ∧
  (∀ (s : State) (k : Nat), k < 144 → (ring s k).firstUnsig ≠ 0 → (ring s k).modUs ≠ 0 →
      (ring s k).firstUnsig - 1 + (ring s k).modUs.toNat * 800 ≤ raw s →
    let e := tget msixReset s.host.msix (ring s k).vector.toNat
    ∃ t, exec (.msixModerationExpiry k) s = .next t ∧
      t.host.rings = tset (ringReset k) s.host.rings k { ring s k with unsignalled := 0, firstUnsig := 0 } ∧
      (bit e.ctrl 0 = false → t = { s with host := { s.host with
        rings := t.host.rings, mem := writeBytes s.host.mem e.addr.toNat (leBytes 4 e.data.toNat) } }) ∧
      (bit e.ctrl 0 = true → t = { s with host := { s.host with
        rings := t.host.rings, msixPending := s.host.msixPending ||| BitVec.ofNat 64 (2 ^ (ring s k).vector.toNat) } })) ∧
  (∀ (s : State) (o n : Nat), o + n ≤ s.host.bar2Size → s.host.bar2.toNat + o + n ≤ hbmBytes →
    let a := s.host.bar2.toNat + o
    (partOf s a = 6 ∨ partOf s a = 4 → exec (.bar2Read o n) s = .next { s with host := { s.host with
      bar2Data := (hbmRead s a n, rangePoisoned s a n) } }) ∧
    (¬ (partOf s a = 6 ∨ partOf s a = 4) → ∃ t, exec (.bar2Read o n) s = .next t ∧
      t.host.bar2Data = (List.replicate n 0xFF, false) ∧ t = { s with host := t.host, cnt := t.cnt })) ∧
  (∀ (s : State) (o : Nat) (b : Bytes), o + b.length ≤ s.host.bar2Size → s.host.bar2.toNat + o + b.length ≤ hbmBytes →
    let a := s.host.bar2.toNat + o
    (partOf s a = 6 → exec (.bar2Write o b) s = .next (hbmWrite s a b)) ∧
    (partOf s a ≠ 6 → ∃ t, exec (.bar2Write o b) s = .next t ∧ t = { s with host := t.host, cnt := t.cnt })) ∧
  (∀ (s : State) (rate width : Nat), s.host.training = true →
    (∃ t, exec (.pcieLinkChange true rate width 1) s = .next t ∧ t.host.rate = rate ∧ t.host.width = width ∧
      Reports 0x0A01 [1, rate, width, 1] false { s with host := { s.host with rate := rate, width := width } } t ∧
      t = { s with host := t.host, cnt := t.cnt }) ∧
    (∃ t, exec (.pcieLinkChange false rate width 1) s = .next t ∧ t.host.rate = 0 ∧ t.host.rings = [] ∧
      t.host.dma = [] ∧ t.host.rxq = [] ∧ t.host.mem = s.host.mem ∧ t = { s with host := t.host, cnt := t.cnt, aw := { s.aw with
        hostCmds := s.aw.hostCmds.filter fun c => !hostFromRing c } })) ∧
  (∀ s : State, exec .pciePerstNRise s = .next { s with
    safe := { s.safe with perstN := true },
    host := { s.host with training := s.safe.bootDone.contains 3 || s.host.training } }) ∧
  (∀ s : State, ∃ t, exec .pciePerstNFall s = .next t ∧ t.host.rate = 0 ∧ t.host.training = false ∧ t.host.rings = [] ∧
    t = { s with host := t.host, cnt := t.cnt, free := t.free, safe := { s.safe with perstN := false }, aw := { s.aw with
      hostCmds := s.aw.hostCmds.filter fun c => !hostFromRing c } })

/-- The head frame of a receive ring that can deliver, for which a pool of host memory has a buffer large enough:
the ring takes one buffer, owned by requester 64 + r, the frame leaves the queue, PROD advances, and with
nothing else to report the frame's bytes and then its completion entry are written to host memory. A retry after
a refusal acts as that delivery. A head frame that has been refused for hi.rx.wait is dropped and counted. A
transmit ring that waits alone takes a well-formed one-descriptor frame whose half has room: in mode PIPELINE it
joins the header FIFO of its port's pipeline as though received there, padded, with the ring as its source and
stamped with the instant; in mode DIRECT it is put on the unicast queue of its port and class; in mode GROUP it
is replicated to its group. CONS advances by one descriptor. -/
def Obligations.PacketRingsMoveFrames : Prop :=
  (∀ (s : State) (r k : Nat) (f : RxFrame) (rest : List RxFrame), rxQueue s r = f :: rest → r < 64 →
      ringLive s (rxKey r) = true → ringFill (ring s (rxKey r)) < ringSize (ring s (rxKey r)) →
      poolFor s (cfgN s 0x6820 r 0) f.data.length = some k → poolFree s k ≠ 0 → cfgN s 0x6840 k 1 ≤ 2 ^ 20 →
      cfgN s 0x6840 k 2 ≠ 1 → eventQueue s 0x0A09 false < 8 →
    ∃ t h, exec (.rxDeliver r) s = .next t ∧ h / 2 ^ 28 = k ∧ tfind s.host.bufs h = none ∧
      tfind t.host.bufs h = some { owner := 64 + r, sharers := [] } ∧ t.host.rxq = tset [] s.host.rxq r rest ∧
      (ring t (rxKey r)).prod = (ring s (rxKey r)).prod + 1 ∧
      (cfgN s 0x6840 k 5 < poolFree s k → (ring s (rxKey r)).shadowEn = false →
        bit (tget msixReset s.host.msix (ring s (rxKey r)).vector.toNat).ctrl 0 = true →
        t.host.mem = writeBytes (writeBytes s.host.mem (bufAddr s h) f.data)
          ((ring s (rxKey r)).base.toNat + 64 * ((ring s (rxKey r)).prod.toNat % ringSize (ring s (rxKey r))))
          (rxCompletion f [h] (phaseOf (ring s (rxKey r))))) ∧
      t = { s with host := t.host, cnt := t.cnt, free := t.free }) ∧
  (∀ (s : State) (r : Nat) (f : RxFrame) (rest : List RxFrame), rxQueue s r = f :: rest → f.refused ≠ 0 →
    (∃ t, exec (.rxBufferRetry r) s = .next t ∧ exec (.rxDeliver r) s = .next t) ∧
    (f.refused - 1 + cyc (cfgN s 0x6820 r 1) ≤ raw s →
      ∃ t, exec (.rxNobufTimeout r) s = .next t ∧ t.host.rxq = tset [] s.host.rxq r rest ∧
        t = { s with host := t.host, cnt := t.cnt })) ∧
  (∀ (s : State) (r : Nat) (d : BitVec 256) (b : Bytes), txWaiting s = [r] → -16384 ≤ txDef s r → cfgN s 0x6822 r 0 ≠ 0 →
      tdMore d = false → tdHbm d = false → 14 ≤ tdLen d → tdLen d ≤ 15996 →
    let f := padTo (tdLen d) b
    ∀ q, q = tdPort d → injectRoom s (injected s q (some r) f) = true →
    ∃ v, v = { s with host := { s.host with txDeficit := v.host.txDeficit } } ∧
      (tdMode d = 0 → hdrFull s (q / 64) = false →
        ∃ t x, exec (.txPipeline r [(d, b)] []) s = .next t ∧
          t.path.hdr = tset [] s.path.hdr (q / 64) (hdrFifo s (q / 64) ++ [s.path.nextPid]) ∧
          tfind t.path.pkts s.path.nextPid = some x ∧ x.data = padFrame f ∧ x.ring = some r ∧ x.port = q ∧
          x.ts = stampNow s ∧
          t.path.nextPid = s.path.nextPid + 1 ∧ (ring t (txKey r)).cons = (ring s (txKey r)).cons + 1 ∧
          t = { s with host := t.host, cnt := t.cnt, path := { s.path with
            hdr := t.path.hdr, pkts := t.path.pkts, nextPid := t.path.nextPid } }) ∧
      (tdMode d = 1 →
        let u := injectDirect (injected v q (some r) f) q (tdClass d) (tdEdit d) (tdPtp d) none v
        ∃ t, exec (.txDirect r [(d, b)] []) s = .next t ∧ t = { u with host := t.host, cnt := t.cnt } ∧
          (ring t (txKey r)).cons = (ring u (txKey r)).cons + 1) ∧
      (tdMode d = 2 →
        let x := injectPacket (injected v q (some r) f) v
        let u := multicast (tdGroup d) x.1 (tdClass d) (tdEdit d) none false (pinEpoch x.1 x.2)
        ∃ t, exec (.txGroup r [(d, b)] []) s = .next t ∧ t = { u with host := t.host, cnt := t.cnt } ∧
          (ring t (txKey r)).cons = (ring u (txKey r)).cons + 1))

/-- A channel that can take its next descriptor, a well-formed one, unfenced or with nothing in flight before it:
from host memory, or from an unpoisoned range of HBM that reads are permitted in, exactly length bytes are
written to the destination in host memory or, where writes are permitted, in HBM; the descriptor is in flight
and its bytes are counted. A range of HBM that the rules forbid stops the channel with error 7 at the descriptor
and moves nothing; a poisoned source stops it with error 5. A completed descriptor without a notification leaves
the channel and advances CONS by one; one that notifies the awl cluster also hands over a DMA_NOTE item, which
waits at the channel while class 6 refuses it and is offered again. -/
def Obligations.DmaMovesBytes : Prop :=
  (∀ (s : State) (c : Nat) (db host : Bytes), db.length = 64 → dmaReady s c = true →
    let d : BitVec 512 := BitVec.ofNat 512 (leNat db)
    let n := ddLen d
    let idx := (ring s (dmaKey c)).cons + BitVec.ofNat 32 (dmaFlights s c).length
    let fl : DmaFlight := { index := idx, notify := ddNotify d, tag := BitVec.ofNat 32 (ddTag d), desc := d }
    ddMalformed d = false → (ddFence d = false ∨ dmaFlights s c = []) → n ≤ host.length →
    (∀ data, ((ddSrcSpace d = 0 ∧ data = host.take n) ∨
        (ddSrcSpace d = 1 ∧ hbmAllowed s (ddSrc d) n false = true ∧ rangePoisoned s (ddSrc d) n = false ∧
          data = hbmRead s (ddSrc d) n)) →
      (ddDstSpace d = 0 → ∃ t, exec (.dmaDescriptor c db host 0) s = .next t ∧
        t.host.mem = writeBytes s.host.mem (ddDst d) data ∧ t.host.dma = tset [] s.host.dma c (dmaFlights s c ++ [fl]) ∧
        t = { s with host := { s.host with mem := t.host.mem, dma := t.host.dma }, cnt := t.cnt }) ∧
      (ddDstSpace d = 1 → hbmAllowed s (ddDst d) data.length true = true →
        ∃ t, exec (.dmaDescriptor c db host 0) s = .next t ∧ t.hbm = (hbmWrite s (ddDst d) data).hbm ∧
          t.host.dma = tset [] s.host.dma c (dmaFlights s c ++ [fl]) ∧
          t = { s with hbm := t.hbm, host := { s.host with dma := t.host.dma }, cnt := t.cnt })) ∧
    (∀ e, (ddSrcSpace d = 1 ∧ hbmAllowed s (ddSrc d) n false = false ∧ e = 7) ∨
        (ddSrcSpace d = 1 ∧ hbmAllowed s (ddSrc d) n false = true ∧ rangePoisoned s (ddSrc d) n = true ∧ e = 5) →
      ∃ t, exec (.dmaDescriptor c db host 0) s = .next t ∧
        t.host.rings = tset (ringReset (dmaKey c)) s.host.rings (dmaKey c)
          { ring s (dmaKey c) with stopped := true, error := BitVec.ofNat 8 e, erridx := idx } ∧
        t = { s with host := { s.host with rings := t.host.rings }, cnt := t.cnt })) ∧
  (∀ (s : State) (c : Nat) (f : DmaFlight) (rest : List DmaFlight), dmaFlights s c = f :: rest → f.notify = 0 →
      (ring s (dmaKey c)).enable = true → s.safe.safeStop = false → (ring s (dmaKey c)).shadowEn = false →
    exec (.dmaComplete c) s = .next { s with host := { s.host with
      dma := tset [] s.host.dma c rest,
      rings := tset (ringReset (dmaKey c)) s.host.rings (dmaKey c)
        { ring s (dmaKey c) with cons := (ring s (dmaKey c)).cons + 1 } } }) ∧
  (∀ (s : State) (c : Nat) (f : DmaFlight) (rest : List DmaFlight), dmaFlights s c = f :: rest → f.notify = 1 →
      (ring s (dmaKey c)).enable = true → s.safe.safeStop = false → (ring s (dmaKey c)).shadowEn = false →
      tget [] s.host.dmaNote c = [] → tsorted s.host.dmaNote = true → tcanon [] s.host.dma = true →
    ∃ t, exec (.dmaComplete c) s = .next t ∧ dmaFlights t c = rest ∧ (ring t (dmaKey c)).cons = (ring s (dmaKey c)).cons + 1 ∧
      (classRefuses s 6 = false → tget [] t.host.dmaNote c = [] ∧ ∃ i, readyItems t 6 = readyItems s 6 ++ [i] ∧ i.routine = 13 ∧
        i.data = c * 2 ^ 32 + f.index.toNat ∧ i.bytes = leBytes 4 f.tag.toNat) ∧
      (classRefuses s 6 = true → tget [] t.host.dmaNote c = [(f.index.toNat, f.tag.toNat)] ∧ t.aw = s.aw)) ∧
  (∀ (s : State) (c : Nat) (n : Nat × Nat), dmaFlights s c = [] →
    (tget [] s.host.dmaNote c = [] → exec (.dmaComplete c) s = .next s) ∧
    (tget [] s.host.dmaNote c = [n] → classRefuses s 6 = false → tsorted s.host.dmaNote = true →
      ∃ t i, exec (.dmaComplete c) s = .next t ∧ tget [] t.host.dmaNote c = [] ∧ readyItems t 6 = readyItems s 6 ++ [i] ∧
        i.routine = 13 ∧ i.data = c * 2 ^ 32 + n.1))

/-- A write of tu.tod.set with ns below 10^9 waits, with the counter value of its instant; nothing else changes. The
Cobbler's next anchor puts it into effect: TOD then equals the written value at the instant of the write plus
the nanoseconds that the counter has passed since, tu.tod.valid is 1, event 0x0B07 is raised with the old and
the new TOD seconds (after the event of a stale anchor that ends with it), the nanosecond counter does not move,
and the set counts as a step of device time. A value with ns of 10^9 or more changes nothing. -/
def Obligations.TodSetTakesEffect : Prop :=
  (∀ (s : State) (sec ns : Nat), ns < 1000000000 → sec < 2 ^ 48 →
    exec (.todSet sec ns) s = .next { s with time := { s.time with todSet := some (sec, ns, counterNs s) } }) ∧
  (∀ (s : State) (sec ns : Nat), 1000000000 ≤ ns → exec (.todSet sec ns) s = .next s) ∧
  (∀ (s : State) (sec ns c : Nat), s.time.todSet = some (sec, ns, c) → s.safe.cobblerReady = true → c < 2 ^ 32 →
      sec < 2 ^ 48 → ns < 1000000000 →
    let e := (counterNs s + 2 ^ 32 - c) % 2 ^ 32
    ∃ t u, exec .todAnchor s = .next t ∧
      tod t = ((sec + (ns + e) / 1000000000) % 2 ^ 48, (ns + e) % 1000000000) ∧
      t.time.todValid = true ∧ t.time.todSet = none ∧ t.time.stepped = true ∧ t.time.counter = s.time.counter ∧
      Reports 0x0B07 (words32 2 (todExtended s).1 ++ words32 2 (tod t).1) false u t ∧ u.time = t.time ∧
      (s.time.todStale = false → u.host = s.host ∧ u.cnt = s.cnt) ∧
      (s.time.todStale = true → ∃ v : State, v.host = s.host ∧ v.cnt = s.cnt ∧ v.time = t.time ∧
        Reports 0x0B05 [0, (raw s - s.time.anchorRaw) / 800000] false v u) ∧
      t = { s with time := t.time, host := t.host, cnt := t.cnt })

/-- With no TOD set waiting, a new anchor leaves TOD where it was (as the Cobbler extends it), makes it valid, and
refreshes tu.ms.anchor with the device millisecond and TOD; the counters and the servo do not change, and
without a stale anchor before it no event is raised. An anchor in use for 3 s makes tu.tod.valid 0 and raises
event 0x0B05 with 1; TOD goes on from the stale anchor. An edge of PPS_IN while it is enabled, the first or at
least 0.5 s after the last accepted one: the counter less in_delay, its fraction and TOD are latched; with
source WRITTEN nothing else changes, and with source PPS_IN the servo takes TOD's nanoseconds, mapped around 0,
as a sample. A closer edge is only counted. After 1.5 s without an accepted edge event 0x0B04 may be raised and
nothing else changes. PPS_OUT rises within a cycle of the instant when TOD's nanoseconds pass out_delay, while
it is enabled, TOD is valid, the outputs have started and no safe stop holds; it falls when pps.width has
passed. -/
def Obligations.AnchorsAndPps : Prop :=
  ((∀ s : State, s.time.todSet = none → s.safe.cobblerReady = true → s.time.todStale = false →
     ∃ t, exec .todAnchor s = .next t ∧ tod t = todExtended s ∧ t.time.todValid = true ∧
       t.time.msAnchor = (devMs s, tod t) ∧ t.time.anchorRaw = raw s ∧
       t = { s with time := { s.time with
         anchorC := t.time.anchorC, anchorS := t.time.anchorS, anchorN := t.time.anchorN, anchorRaw := t.time.anchorRaw,
         todValid := true, msAnchor := t.time.msAnchor } }) ∧
   (∀ s : State, s.time.todValid = true → s.time.anchorRaw + 3 * cycSecond ≤ raw s →
     ∃ t, exec .todStale s = .next t ∧ t.time = { s.time with todValid := false, todStale := true, stepped := true } ∧
       tod t = tod s ∧ t = { s with time := t.time, host := t.host, cnt := t.cnt } ∧
       Reports 0x0B05 [1, (raw s - s.time.anchorRaw) / 800000] false { s with time := t.time } t)) ∧
  ((∀ s : State, cfgOn s 0x7030 0 3 = true → (s.time.ppsLast = 0 ∨ s.time.ppsLast - 1 + cycSecond / 2 ≤ raw s) →
     ∃ t, exec .ppsInEdge s = .next t ∧ t.time.ppsLast = raw s + 1 ∧
       (let x := stampNow s - BitVec.ofInt 48 (psFrac (cfgI s 0x7030 0 4))
        t.time.ppsTs = (bf x 47 16, bf x 15 0, todAt s (bf x 47 16))) ∧
       (cfgN s 0x7020 0 0 = 0 → t = { s with time := { s.time with ppsTs := t.time.ppsTs, ppsLast := t.time.ppsLast } }) ∧
       (cfgN s 0x7020 0 0 = 1 → fnStopped s .timeUnit = false → s.time.servo.state ≠ 3 →
         let n : Int := t.time.ppsTs.2.2.2
         t.time.servo.lastOffset = if n < 500000000 then n else n - 1000000000)) ∧
   (∀ s : State, cfgOn s 0x7030 0 3 = true → s.time.ppsLast ≠ 0 → raw s < s.time.ppsLast - 1 + cycSecond / 2 →
     exec .ppsInEdge s = .next (count 0x7030 0 6 s)) ∧
   (∀ s : State, cfgOn s 0x7030 0 3 = true → s.time.ppsLast - 1 + cycSecond * 3 / 2 ≤ raw s →
     ∃ t, exec .ppsInLost s = .next t ∧ t = { s with host := t.host, cnt := t.cnt }) ∧
   (∀ s : State, cfgOn s 0x7030 0 0 = true → s.time.todValid = true → s.safe.outputsStarted = true → s.safe.safeStop = false →
       s.time.ppsOut = false → (((tod s).2 : Int) * 1000 - cfgI s 0x7030 0 2) % 10 ^ 12 ≤ 1250 →
     exec .ppsOutRise s = .next { s with time := { s.time with ppsOut := true, ppsRise := raw s } }) ∧
   (∀ s : State, s.time.ppsOut = true → s.time.ppsRise + cyc (cfgN s 0x7030 0 1) ≤ raw s →
     exec .ppsOutFall s = .next { s with time := { s.time with ppsOut := false } }))

/-- A written sample theta, with the source WRITTEN and the time unit not in a stop, which a holdover under hold
does not ignore: at or above step_ns, -theta ns is added to the nanosecond counter, the step counts as one of
device time, and I, f and inc are kept; below it, I becomes I + Ki theta and f becomes Kp theta + I, each
clamped to max_ppb, where each product is in units of 2^-8 ppb and is exact or rounded to a neighbouring unit
(the spec does not say which), and inc is the integer nearest to the nominal value times 1 - f 10^-9. The state
follows Table 14-4. A sample in HOLDOVER under hold is only counted. Holdover keeps I, puts f at I and reports
event 0x0B02; a reset puts I and f at 0, inc at its nominal value and the servo into FREERUN. -/
def Obligations.ServoFollowsSamples : Prop :=
  (∀ (s : State) (theta : Int), cfgN s 0x7020 0 0 = 0 → fnStopped s .timeUnit = false → s.time.servo.state ≤ 3 →
      ¬ (s.time.servo.state = 3 ∧ cfgOn s 0x7028 0 0 = true) → cfgN s 0x7025 0 0 ≤ 500000 →
    let lock := cfgN s 0x7026 0 0
    let m : Int := 256 * cfgN s 0x7025 0 0
    ∃ t, exec (.servoOffsetWrite theta) s = .next t ∧ t.time.servo.lastOffset = theta ∧
      (cfgN s 0x7024 0 0 ≤ theta.natAbs →
        t.time.counter = s.time.counter - BitVec.ofInt 80 (theta * 2 ^ 48) ∧ t.time.stepped = true ∧
        t.time.servo.integral = s.time.servo.integral ∧ t.time.servo.freq = s.time.servo.freq ∧ t.free = s.free ∧
        t = { s with host := t.host, cnt := t.cnt, time := { s.time with
          counter := t.time.counter, stepped := true, servo := t.time.servo } }) ∧
      (theta.natAbs < cfgN s 0x7024 0 0 →
        (∃ a b : Int, (256 * a - cfgN s 0x7023 0 0 * theta).natAbs < 256 ∧
          (256 * b - cfgN s 0x7022 0 0 * theta).natAbs < 256 ∧
          t.time.servo.integral = max (-m) (min m (s.time.servo.integral + a)) ∧
          t.time.servo.freq = max (-m) (min m (b + t.time.servo.integral))) ∧
        (2 * ((t.time.inc : Int) * (256 * 10 ^ 9) - 0x0001400000000000 * (256 * 10 ^ 9 - t.time.servo.freq))).natAbs
          ≤ 256 * 10 ^ 9 ∧
        t = { s with host := t.host, cnt := t.cnt, free := t.free, time := { s.time with
          servo := t.time.servo, inc := t.time.inc } }) ∧
      (s.time.servo.state = 0 ∨ s.time.servo.state = 3 → t.time.servo.state = 1) ∧
      (s.time.servo.state = 1 → t.time.servo.state = if theta.natAbs < lock ∧ 15 ≤ s.time.servo.good then 2 else 1) ∧
      (s.time.servo.state = 2 → t.time.servo.state =
        if cfgN s 0x7024 0 0 ≤ theta.natAbs ∨ (lock ≤ theta.natAbs ∧ 3 ≤ s.time.servo.bad) then 1 else 2)) ∧
  (∀ (s : State) (theta : Int), cfgN s 0x7020 0 0 = 0 → fnStopped s .timeUnit = false → s.time.servo.state = 3 →
      cfgOn s 0x7028 0 0 = true → exec (.servoOffsetWrite theta) s = .next (count 0x702C 0 2 s)) ∧
  (∀ s : State, s.time.servo.state = 1 ∨ s.time.servo.state = 2 →
      (cfgOn s 0x7028 0 0 = true ∨ s.time.servo.lastSample + cyc (cfgN s 0x7027 0 0) ≤ raw s) →
    ∃ t, exec .servoHoldover s = .next t ∧ t.time.servo.state = 3 ∧ t.time.servo.freq = s.time.servo.integral ∧
      t.time.servo.integral = s.time.servo.integral ∧ t.time.inc = incOf s.time.servo.integral ∧
      Reports 0x0B02 [3, unsigned32 s.time.servo.lastOffset, unsigned32 s.time.servo.integral] false
        { s with time := t.time } t ∧
      t = { s with host := t.host, cnt := t.cnt, time := { s.time with servo := t.time.servo, inc := t.time.inc } }) ∧
  (∀ s : State, ∃ t, exec .servoReset s = .next t ∧ t.time.servo.state = 0 ∧ t.time.servo.freq = 0 ∧
      t.time.servo.integral = 0 ∧ t.time.inc = 0x0001400000000000 ∧
      t = { s with host := t.host, cnt := t.cnt, time := { s.time with servo := t.time.servo, inc := t.time.inc } })

/-- Counting one event: a counter below 2^48 - 1 grows by one and nothing else changes; one at 2^48 - 1 wraps to 0,
and the spare of the chain entry that names it, if there is one, grows by one modulo 2^48. A write of a chain
entry that is accepted stores the value, sets the entry's spare to 0, marks the next dump and raises event
0x0C02 with the spare's ID; one that names a spare, or a source that another entry chains, changes nothing, as
does any during a commit. A counter whose stored word is uncorrectable restarts at 0, marks the next dump and
raises event 0x0C02 with its ID. -/
def Obligations.CountersWrapAndChain : Prop :=
  (∀ (s : State) (i n u : Nat), ctrGet s (oa i n u) < 2 ^ 48 - 1 →
    count i n u s = { s with cnt := { s.cnt with ctr := tset 0 s.cnt.ctr (oa i n u) (ctrGet s (oa i n u) + 1) } }) ∧
  (∀ (s : State) (i n u : Nat), ctrGet s (oa i n u) = 2 ^ 48 - 1 →
    let z : State := { s with cnt := { s.cnt with ctr := tset 0 s.cnt.ctr (oa i n u) 0 } }
    ((ctrId (oa i n u)).bind (chainOf s) = none → count i n u s = z) ∧
    (∀ k, (ctrId (oa i n u)).bind (chainOf s) = some k →
      count i n u s = { z with cnt := { z.cnt with
        ctr := tset 0 z.cnt.ctr (ctrCell (0xF100 + k)) ((ctrGet z (ctrCell (0xF100 + k)) + 1) % 2 ^ 48) } })) ∧
  (∀ (s : State) (i : Nat) (v : BitVec 32), s.ctl.commit.isSome = true → exec (.chainWrite i v) s = .next s) ∧
  (∀ (s : State) (i : Nat) (v : BitVec 32), i < 3840 → s.ctl.commit = none →
    let source := bf v 15 0
    (bit v 31 = false ∨ (source < 0xF100 ∧ ∀ j, chainOf s source = some j → j = i) →
      ∃ t u, exec (.chainWrite i v) s = .next t ∧ u.ctl = (liveSet (oa 0x7800 i 0) (leBytes 4 v.toNat) s).ctl ∧
        u = { s with ctl := u.ctl, cnt := { s.cnt with
          ctr := tset 0 s.cnt.ctr (ctrCell (0xF100 + i)) 0, restarted := true } } ∧
        Reports 0x0C02 [0xF100 + i] false u t ∧ t = { u with host := t.host, cnt := t.cnt }) ∧
    (bit v 31 = true → 0xF100 ≤ source ∨ (∃ j, j ≠ i ∧ chainOf s source = some j) →
      exec (.chainWrite i v) s = .next s)) ∧
  (∀ (s : State) (n : Nat),
    ∃ t u, exec (.counterRestart n) s = .next t ∧
      u = { s with cnt := { s.cnt with ctr := tset 0 s.cnt.ctr (ctrAddr n) 0, restarted := true } } ∧
      Reports 0x0C02 [n] false u t ∧ t = { u with host := t.host, cnt := t.cnt })

/-- With a ring base set, a write of ct.dump.now and a period that has passed each take a snapshot when fewer than
two wait and the ring has room: a record joins the queue, a whole number of 64-byte blocks, whose value k is the
count of counter first + k; the dump number advances and the marks of the header are cleared. Without room the
snapshot is lost, counted as lost and its number used; the queue does not change. The record at the head is
written to its slot in HBM or host memory, and produced advances. A bandwidth window that ends makes its octets
the last ones, raises the peaks to them, and starts anew. Nothing else changes. -/
def Obligations.DumpsTakenAndWritten : Prop :=
  (∀ s : State, cfgN s 0x7815 0 0 ≠ 0 → s.cnt.snaps.length < 2 → dumpFull s = false →
    ∃ t r, exec .dumpNow s = .next t ∧ t.cnt.snaps = s.cnt.snaps ++ [r] ∧ r.length % 64 = 0 ∧
      (∀ k, k < cfgN s 0x7812 0 0 →
        slice r (64 + 8 * k) 8 = leBytes 8 (ctrGet s (ctrAddr (cfgN s 0x7811 0 0 + k)))) ∧
      t.cnt.dumpSeq = (s.cnt.dumpSeq + 1) % 2 ^ 32 ∧ t.cnt.lostSince = 0 ∧ t.cnt.restarted = false ∧
      t = { s with cnt := { t.cnt with ctr := s.cnt.ctr } }) ∧
  (∀ s : State, cfgN s 0x7815 0 0 ≠ 0 → (2 ≤ s.cnt.snaps.length ∨ dumpFull s = true) →
    ∃ t, exec .dumpNow s = .next t ∧ t.cnt.snaps = s.cnt.snaps ∧ t.cnt.lostSince = s.cnt.lostSince + 1 ∧
      t.cnt.dumpSeq = (s.cnt.dumpSeq + 1) % 2 ^ 32 ∧ t = { s with host := t.host, cnt := t.cnt }) ∧
  (∀ s : State, cfgN s 0x7815 0 0 ≠ 0 → s.cnt.snaps.length < 2 → dumpFull s = false →
      s.cnt.lastPeriodic + cyc (cfgN s 0x7810 0 0) ≤ raw s →
    ∃ t, exec .dumpSnapshot s = .next t ∧ t.cnt.snaps.length = s.cnt.snaps.length + 1 ∧ t.cnt.lastPeriodic = raw s ∧
      t = { s with cnt := { t.cnt with ctr := s.cnt.ctr } }) ∧
  (∀ (s : State) (r : Bytes) (rest : List Bytes), s.cnt.snaps = r :: rest → fnStopped s .telemetry = false →
      dumpFull s = false → cfgN s 0x7816 0 0 ≠ 0 →
    let a := cfgN s 0x7815 0 0 + s.cnt.produced.toNat % cfgN s 0x7816 0 0 * dumpSlotBytes s
    ∃ t, exec .dumpWrite s = .next t ∧ t.cnt.snaps = rest ∧ t.cnt.produced = s.cnt.produced + 1 ∧
      (cfgN s 0x7814 0 0 = 0 → t.hbm = (hbmWrite s a r).hbm ∧ t = { s with hbm := t.hbm, cnt := t.cnt }) ∧
      (cfgN s 0x7814 0 0 ≠ 0 → t.host.mem = writeBytes s.host.mem a r ∧
        t = { s with host := { s.host with mem := t.host.mem }, cnt := t.cnt })) ∧
  (∀ (s : State) (q rx tx a b c d : Nat), raw s % cyc (cfgN s 0x7820 q 0) = 0 → 0 < cyc (cfgN s 0x7820 q 0) →
      tget [0, 0] s.cnt.bwNow q = [rx, tx] → bwOf s q = [a, b, c, d] →
    exec (.bwWindow q) s = .next { s with cnt := { s.cnt with
      bw := tset [0, 0, 0, 0] s.cnt.bw q [rx, tx, max rx c, max tx d], bwNow := tset [0, 0] s.cnt.bwNow q [0, 0] } })

/-- Of a stream to host memory, outside a telemetry stop: a flush sends one message that holds at least one and only
the oldest queued records, which leave the queue; the sequence number advances by their number. When the ring
has room the message is written to its slot, produced advances and the records count as sent; when it is full
the message is dropped whole and counted as lost. A template refresh that is due sends the template sets in a
message of their own and does not move the sequence number. A statistics interval that has passed queues one
template 266 record with the observation domain, the count of records not sent and the time, when no message is
full after it. -/
def Obligations.IpfixStreams : Prop :=
  (∀ (s : State) (st : Nat), streamHeld s = false → streamDest s st = 1 → streamQueue s st ≠ [] → cfgN s 0x7840 st 5 ≠ 0 →
      tget 0 s.cnt.streamFirst st - 1 + cyc (cfgN s 0x7840 st 3) ≤ raw s →
    let slots := cfgN s 0x7840 st 5
    let k := tget 0 s.cnt.streamProduced st
    let full := (k + 2 ^ 32 - cfgN s 0x7840 st 7) % 2 ^ 32 = slots
    ∃ t n, exec (.ipfixFlush st) s = .next t ∧ 1 ≤ n ∧
      t.cnt.streamQ = tset [] s.cnt.streamQ st ((streamQueue s st).drop n) ∧
      t.cnt.streamSeq = tput s.cnt.streamSeq st ((tget 0 s.cnt.streamSeq st + n) % 2 ^ 32) ∧
      (¬ full →
        t.host.mem = writeBytes s.host.mem (cfgN s 0x7840 st 4 + k % slots * ((streamMtu s st + 63) / 64 * 64))
          (ipfixMessage s st (dataSets ((streamQueue s st).take n) none)) ∧
        t.cnt.streamProduced = tput s.cnt.streamProduced st ((k + 1) % 2 ^ 32) ∧
        t.cnt.ctr = (countN 0x7841 st 0 n s).cnt.ctr ∧
        t = { s with host := { s.host with mem := t.host.mem }, cnt := t.cnt }) ∧
      (full → t.cnt.streamProduced = s.cnt.streamProduced ∧ t = { s with host := t.host, cnt := t.cnt })) ∧
  (∀ (s : State) (st : Nat), streamHeld s = false → streamDest s st = 1 → tget 0 s.cnt.streamTemplate st = 0 →
      cfgN s 0x7840 st 5 ≠ 0 →
      (tget 0 s.cnt.streamProduced st + 2 ^ 32 - cfgN s 0x7840 st 7) % 2 ^ 32 ≠ cfgN s 0x7840 st 5 →
    ∃ t, exec (.templateRefresh st) s = .next t ∧ t.cnt.streamTemplate = tput s.cnt.streamTemplate st (raw s + 1) ∧
      t.cnt.streamSeq = tput s.cnt.streamSeq st (tget 0 s.cnt.streamSeq st % 2 ^ 32) ∧ t.cnt.streamQ = s.cnt.streamQ ∧
      t.host.mem = writeBytes s.host.mem (cfgN s 0x7840 st 4 +
        tget 0 s.cnt.streamProduced st % cfgN s 0x7840 st 5 * ((streamMtu s st + 63) / 64 * 64)) (ipfixMessage s st templateSets) ∧
      t = { s with host := { s.host with mem := t.host.mem }, cnt := t.cnt }) ∧
  (∀ (s : State) (st : Nat), streamDest s st ≠ 0 → (streamQueue s st).length < cfgN s 0x7840 st 18 →
      tget 0 s.cnt.streamStats st + cfgN s 0x7840 st 17 * cycSecond ≤ raw s →
    let r := beBytes 2 266 ++ (beBytes 4 (cfgN s 0x7840 st 1) ++ beBytes 8 (tget 0 s.cnt.notSent st) ++ beBytes 8 (todMs s))
    let q := tput s.cnt.streamQ st (streamQueue s st ++ [r])
    (streamHeld s = true ∨ messageFull { s with cnt := { s.cnt with streamQ := q } } st = false) →
    ∃ t, exec (.statsInterval st) s = .next t ∧ t.cnt.streamQ = q ∧
      t.cnt.streamStats = tput s.cnt.streamStats st (raw s) ∧
      t = { s with cnt := { s.cnt with
        streamQ := q, streamStats := t.cnt.streamStats, streamFirst := t.cnt.streamFirst } })

/-- A fall of RESET_N, a fall of PWR_OK and a power-up each answer a state in which the device is held in reset:
every link DISABLED, PPS_OUT and the recovered clocks low, FAULT_N and SAFE_STOP_N released, PCIe silent, the
Cobbler not ready. The fuses, what flash holds, host memory, the queue and the draws are kept. The levels of the
pins are those of the event; POWER_UP stands for the whole of Table 17-2 up to step 5, with PWR_OK high (log
entry 3). -/
def Obligations.PinsHoldReset : Prop :=
  ∀ s : State,
    (∃ t, exec .resetNFall s = .next t ∧ HeldInReset t ∧ KeepsNonvolatile s t ∧
      t.safe.resetN = false ∧ t.safe.pwrOk = s.safe.pwrOk ∧ t.safe.perstN = s.safe.perstN) ∧
    (∃ t, exec .pwrOkFall s = .next t ∧ HeldInReset t ∧ KeepsNonvolatile s t ∧
      t.safe.pwrOk = false ∧ t.safe.resetN = s.safe.resetN ∧ t.safe.perstN = s.safe.perstN) ∧
    (∃ t, exec .powerUp s = .next t ∧ HeldInReset t ∧ KeepsNonvolatile s t ∧
      t.safe.powered = true ∧ t.safe.pwrOk = true ∧ t.safe.resetN = false)

/-- With the rails up and RESET_N low, its rise starts the boot: step 1 alone is done, all three time counters are
0, the clocks do not run yet, and all that survives a reset is kept. Once step 1 is done, PLL_LOCKED starts the
clocks (step 2) and changes nothing else; once step 2 is done, ROM_START_COMPLETE starts PCIe training exactly
when PERST_N is high (step 3) and changes nothing else. After boot step 3: SRAM initialisation that finds no
failing bank completes step 6 and changes only what a change of sf.guarantee reports; a failing SRAM that has no
spare puts a device that is not in safe stop into safe stop with cause 18, and step 6 is not done. HBM training
that finds no failing pseudo-channel leaves every byte of HBM zero, no codeword poisoned and every pseudo-
channel in service, and completes step 7. Once steps 5 to 7 are done, BOOT_PATTERN_CHECK either finds the boot
pattern bad, sets boot_pattern_bad and keeps the outputs stopped and every link as it was; or puts it VALID into
the boot slot, prepares the flow partitions (no flow record, no index entry, nr of flow.records.free) and
completes step 8. Once step 8 is done, BOOT_COMMIT makes the boot slot's objects active and staged, empties the
previous slot, runs in epoch 0, and sets pattern_active and outputs_started. -/
def Obligations.BootSteps : Prop :=
  ((∀ s : State, s.safe.powered = true → s.safe.resetN = false →
     ∃ t, exec (.resetNRise none) s = .next t ∧ t.safe.resetN = true ∧ t.safe.pwrOk = true ∧ t.safe.bootDone = [1] ∧
       t.time.raw = 0 ∧ t.time.counter = 0 ∧ t.time.ms = 0 ∧ t.safe.clocks = false ∧ KeepsNonvolatile s t) ∧
   (∀ s : State, bootDid 1 s = true → bootDid 2 s = false →
     exec .pllLocked s = .next { s with safe := { s.safe with clocks := true, bootDone := s.safe.bootDone ++ [2] } }) ∧
   (∀ s : State, bootDid 2 s = true → bootDid 3 s = false →
     exec .romStartComplete s = .next { s with
       host := { s.host with training := s.safe.perstN }, safe := { s.safe with bootDone := s.safe.bootDone ++ [3] } })) ∧
  ((∀ s : State, bootDid 3 s = true → bootDid 6 s = false → s.safe.safeStop = false →
     ∃ t, exec (.sramInitialised []) s = .next t ∧ bootDid 6 t = true ∧
       t = { s with host := t.host, cnt := t.cnt,
                    safe := { s.safe with bootDone := s.safe.bootDone ++ [6], guarantee := t.safe.guarantee } }) ∧
   (∀ (s : State) (k u b : Nat), 2 ≤ k → bootDid 3 s = true → bootDid 6 s = false → s.safe.safeStop = false →
     ∃ t, exec (.sramInitialised [(k, u, b)]) s = .next t ∧ t.safe.safeStop = true ∧ t.safe.safeCause = 18 ∧
       t.safe.bootDone = s.safe.bootDone) ∧
   (∀ (s : State) (ms : Nat), bootDid 3 s = true → bootDid 7 s = false →
     ∃ t, exec (.hbmTrained ms []) s = .next t ∧ (∀ a, readByte t.hbm.mem a = 0) ∧ t.hbm.poison = [] ∧
       (∀ n, (pc t n).state = 0) ∧ bootDid 7 t = true ∧
       t = { s with host := t.host, cnt := t.cnt, hbm := { s.hbm with mem := [], poison := [], pcs := [], stackSt := [] },
                    safe := { s.safe with bootDone := s.safe.bootDone ++ [7] } })) ∧
  ((∀ s : State, bootDid 5 s = true → bootDid 6 s = true → bootDid 7 s = true → bootDid 8 s = false →
       s.safe.bootPatternBad = false →
     ∃ t, exec .bootPatternCheck s = .next t ∧
       (bootPatternBad s = none → bootDid 8 t = true ∧ t.ctl.boot.state = 2 ∧ t.flow.records = [] ∧ t.flow.index = [] ∧
         t.safe.bootPatternBad = false) ∧
       (bootPatternBad s ≠ none → t.safe.bootPatternBad = true ∧ t.safe.bootDone = s.safe.bootDone ∧
         t.safe.outputsStarted = s.safe.outputsStarted ∧ t.ports = s.ports)) ∧
   (∀ s : State, bootDid 8 s = true → s.safe.patternActive = false → s.ctl.commit = none →
     ∃ t, exec .bootCommit s = .next t ∧ t.ctl.active.objs = s.ctl.boot.objs ∧ t.ctl.staged.objs = s.ctl.boot.objs ∧
       t.ctl.previous = emptySlot ∧ t.ctl.epoch = 0 ∧ t.safe.patternActive = true ∧ t.safe.outputsStarted = true ∧
       bootDid 9 t = true))

/-- After boot step 3, BOOT_IMAGE_READ ends step 4. When a slot is valid, the slot taken is valid and no valid slot
has a higher sequence, slot A being taken when both are valid with equal sequences; sf.boot.slot, the firmware
version, the security version and the sequence are those of its header, cobbler_ready is set and step 5 is done.
When neither is valid the device is in RECOVERY with cobbler_ready set, and step 5 is not done. The fuses are
unchanged either way. -/
def Obligations.BootTakesHigherSequence : Prop :=
  ∀ s : State, bootDid 3 s = true → bootDid 4 s = false →
    ∃ t, exec .bootImageRead s = .next t ∧ bootDid 4 t = true ∧ t.safe.cobblerReady = true ∧
      t.safe.rollback = s.safe.rollback ∧ t.safe.ownerHash = s.safe.ownerHash ∧
      (∀ a b, a = s.safe.flashA → b = s.safe.flashB →
        (fwValid a s = true ∨ fwValid b s = true →
          let x := if t.safe.bootSlot = 0 then a else b
          fwValid x s = true ∧ (fwValid a s = true → fwSequenceOf a ≤ fwSequenceOf x) ∧
          (fwValid b s = true → fwSequenceOf b ≤ fwSequenceOf x) ∧
          (fwValid a s = true → fwValid b s = true → fwSequenceOf a = fwSequenceOf b → t.safe.bootSlot = 0) ∧
          t.safe.fwVersion = BitVec.ofNat 32 (fld (fwHeader x) 543 512) ∧
          t.safe.fwSecurity = fld (fwHeader x) 895 888 ∧ t.safe.fwSequence = fwSequenceOf x ∧
          bootDid 5 t = true ∧ t.safe.bootState ≠ 2) ∧
        (fwValid a s = false → fwValid b s = false →
          t.safe.bootState = 2 ∧ bootDid 5 t = bootDid 5 s))

/-- An awake domain under AUTO whose sleep condition holds enters sleep; one that has been entering sleep for 20 us,
quiet and held by no DMA descriptor, is ASLEEP. A domain asleep or entering sleep for which work has arrived
joins the wake queue; the wake at the head of the queue is admitted when its step and those of the wakes of the
window fit the budget, and only then. A wake that has waited 1 ms is counted. A channel that has held a power-
down for 100 us is aborted and counted. Each of the state changes raises event 0x0E02; nothing outside the power
state, the host interface and counters changes but what a falling-asleep domain does itself. -/
def Obligations.DomainsSleepAndWake : Prop :=
  (∀ (s : State) (d : Nat), d < 97 → cfgN s 0x1400 d 0 = 1 → domainState s d = 0 → domainIdle d s = true →
    ∃ t, exec (.domainSleep d) s = .next t ∧ t.safe.domains = tset 0 s.safe.domains d 3 ∧
      t.safe.sleepSince = tput s.safe.sleepSince d (raw s) ∧ Reports 0x0E02 [d, 3] false s t ∧
      t = { s with host := t.host, cnt := t.cnt, safe := { s.safe with
        domains := t.safe.domains, sleepSince := t.safe.sleepSince } }) ∧
  (∀ (s : State) (d : Nat), d < 97 → cfgN s 0x1400 d 0 = 1 → domainState s d = 3 → domainQuiet d s = true →
      dmaHolds d s = [] → tget 0 s.safe.sleepSince d + cyc 20000 ≤ raw s →
    ∃ t, exec (.domainSleep d) s = .next t ∧ t.safe.domains = tset 0 s.safe.domains d 4 ∧
      t.safe.sleepSince = tdel s.safe.sleepSince d) ∧
  (∀ (s : State) (d : Nat), domainState s d = 3 ∨ domainState s d = 4 → domainWanted d s = true →
    ∃ t, exec (.domainWake d) s = .next t ∧ t.safe.domains = tset 0 s.safe.domains d 1 ∧
      t.safe.wakes = s.safe.wakes ++ [(d, raw s, false)] ∧ Reports 0x0E02 [d, 1] false s t ∧
      t = { s with host := t.host, cnt := t.cnt, safe := { s.safe with
        domains := t.safe.domains, wakes := t.safe.wakes, sleepSince := t.safe.sleepSince } }) ∧
  (∀ (s : State) (d n : Nat) (b : Bool) (rest : List (Nat × Nat × Bool)), s.safe.wakes = (d, n, b) :: rest →
    ((windowAmps s + domainAmps d ≤ cfgN s 0x1401 0 0 →
      ∃ t, exec .wakeAdmit s = .next t ∧ t.safe.domains = tset 0 s.safe.domains d 2 ∧ t.safe.wakes = rest ∧
        t.safe.admitted = s.safe.admitted ++ [(d, raw s)] ∧
        t = { s with host := t.host, cnt := t.cnt, safe := { s.safe with
          domains := t.safe.domains, wakes := rest, admitted := t.safe.admitted } }) ∧
     (cfgN s 0x1401 0 0 < windowAmps s + domainAmps d → exec .wakeAdmit s = .next s))) ∧
  (∀ (s : State) (d n : Nat), s.safe.wakes = [(d, n, false)] → n + cyc 1000000 ≤ raw s →
    ∃ t, exec (.wakeDelayed d) s = .next t ∧ t.safe.wakes = [(d, n, true)] ∧
      t = { s with host := t.host, cnt := t.cnt, safe := { s.safe with wakes := t.safe.wakes } }) ∧
  (∀ (s : State) (c d n : Nat), tfind s.safe.sleepSince d = some n → n + cyc 100000 ≤ raw s →
      (dmaHolds d s).contains c = true →
    ∃ t, exec (.powerDmaAbort c d) s = .next t ∧ t.host.dma = tset [] s.host.dma c [] ∧ t.safe = s.safe)

/-- With heartbeats enabled: a heartbeat in which every token came back and no stage found a parity error, away from
a 4 us instant, empties the tokens and changes nothing else; a token out for 46 us marks its function as
stalled, is dropped and is reported. A clock that fails while the clocks run is a detection of class 9 with the
safe stop of its default reaction, and a lost REFCLK holds back records until it returns, when they are written
and the list is empty. A temperature sample within its limits, with no condition standing and none counted, sets
sf.temp and changes nothing else but the guarantee and its report. With REFCLK, or TCLK or the root PLL it comes
from, lost, no cycle passes. A scrub pass that finds no error changes nothing, one that finds a correctable word
counts it, and a recheck that finds no damage changes nothing. -/
def Obligations.MonitorsObserve : Prop :=
  (∀ (s : State) (back : List Nat), cfgOn s 0x1304 0 0 = true → raw s % cyc 4000 ≠ 0 →
      (∀ r ∈ s.safe.tokens, back.contains r.1 = true) →
    exec (.heartbeat back []) s = .next { s with safe := { s.safe with tokens := [] } }) ∧
  (∀ (s : State) (key n : Nat), tfind s.safe.tokens key = some n → n + cyc 46000 ≤ raw s →
    ∃ t, exec (.heartbeatTimeout key) s = .next t ∧ t.safe.tokens = tdel s.safe.tokens key ∧ t.free = s.free + 1) ∧
  (∀ (s : State) (c k : Nat), s.safe.clocks = true → s.safe.safeStop = false → cfgN s 0x1300 9 0 = 3 →
    ∃ t, exec (.clockFault c k) s = .next t ∧ t.safe.safeStop = true ∧ t.safe.safeCause = 9 ∧
      (c = 0 → k = 1 → t.safe.refclkLost = true) ∧ (c = 1 ∨ c = 4 → k = 1 → t.safe.tclkLost = true) ∧ t.safe.faults = s.safe.faults ||| BitVec.ofNat 16 (2 ^ 8)) ∧
  (∀ s : State, s.safe.refclkLost = true ∨ s.safe.tclkLost = true → tick s = s) ∧
  (∀ s : State, s.safe.refclkLost = true →
    ∃ t, exec .refclkReturn s = .next t ∧ t.safe = { s.safe with refclkLost := false } ∧ t.host.evWait = [] ∧
      t = { s with host := t.host, cnt := t.cnt, safe := { s.safe with refclkLost := false } }) ∧
  (∀ (s : State) (n : Nat) (v : Int), s.safe.powered = true → n < 28 → s.safe.env = [] → s.safe.envBeyond = [] →
      v < cfgI s 0x1305 0 0 → v < cfgI s 0x1306 0 0 →
    ∃ t, exec (.envSample 2 n v) s = .next t ∧ t.safe.temps = tset 0 s.safe.temps n v ∧ t.safe.env = [] ∧
      t.safe.envBeyond = [] ∧
      t = { s with host := t.host, cnt := t.cnt, safe := { s.safe with
        temps := t.safe.temps, envWithin := t.safe.envWithin, guarantee := t.safe.guarantee } }) ∧
  (∀ (s : State) (m : Nat), exec (.sramScrub m []) s = .next s) ∧
  (∀ (s : State) (m a : Nat), 16 ≤ m → exec (.sramScrub m [(a, false)]) s = .next (noteFault 1 s)) ∧
  (∀ s : State, s.safe.cobblerReady = true → exec (.patternRecheck []) s = .next s)

/-- A correctable word error is counted for its class and changes nothing else. A detected fault of a class whose
reaction is NOTIFY sets the class's pending bit, counts the detection and is reported with fault 1; FAULT_N is
then asserted. A hot line lost at a read leaves the store so, and is reported with its deltas. A first CRC error
on a die-to-die link whose last second holds no replay counts one detection of class 4 and notes the replay. A
write of sf.fault.ack clears exactly the bits that are 1, and the end of a LOG pulse releases the pulse; neither
changes anything else. -/
def Obligations.FaultReactions : Prop :=
  (∀ (s : State) (c : Nat) (ps : List Nat) (f : Option Fn) (n : Nat),
    exec (.faultDetected 1 c ps f n) s = .next (noteFault 1 s) ∧
    noteFault 1 s = { s with cnt := { s.cnt with ctr := (noteFault 1 s).cnt.ctr } }) ∧
  (∀ (s : State) (k c : Nat) (ps : List Nat) (n : Nat), 2 ≤ k → k ≤ 16 → c ∈ classEvents k → ¬ (k = 2 ∧ c = 0x0505) →
      reaction s k = 1 →
    ∃ t, exec (.faultDetected k c ps none n) s = .next t ∧
      t.safe = { s.safe with faults := s.safe.faults ||| BitVec.ofNat 16 (2 ^ (k - 1)) } ∧ faultN t = true ∧
      Reports c ps true (noteFault k s) t ∧
      t = { s with host := t.host, cnt := t.cnt, safe := t.safe }) ∧
  (∀ (s : State) (n x : Nat) (l : Line) (d : Nat), primaryOf s l.record = some x → x / 131072 = n → lineAt s x = some l →
      reaction s 2 = 1 →
    ∃ t, exec (.faultDetected 2 0x0505 [n, l.record, 1, 0] none d) s = .next t ∧
      lineAt t x = none ∧ t.safe.faults = s.safe.faults ||| 2 ∧
      Reports 0x0505 [n, l.record, l.dpf + l.dpr, l.dbf + l.dbr] true (noteFault 2 (count 0x4020 n 0x0C (dropLine x s))) t) ∧
  (∀ (s : State) (l : Nat), tfind s.safe.replays l = none →
    ∃ t, exec (.d2dCrcError l false) s = .next t ∧ tfind t.safe.replays l = some [raw s] ∧
      t.cnt = (noteFault 4 s).cnt ∧
      t = { s with cnt := t.cnt, safe := { s.safe with replays := t.safe.replays, replayRow := t.safe.replayRow } }) ∧
  (∀ (s : State) (v : BitVec 16),
    exec (.faultAck v) s = .next { s with safe := { s.safe with faults := s.safe.faults &&& ~~~ v } }) ∧
  (∀ s : State, exec .faultNPulseEnd s = .next { s with safe := { s.safe with pulse := false } })

/-- A low on SAFE_STOP_N of less than 10 ns changes nothing. One of at least 100 ns puts a device that is not in
safe stop into safe stop with cause 17: FAULT_N is asserted and PPS_OUT stops; event 0x0E16 is raised with the
cause once the DMA channels have stopped, and the recovered clocks that run are squelched after it; no pending
bit and no class counter changes. On a device in safe stop it changes nothing. A low from 10 ns to below 100 ns
either changes nothing or acts as one of 100 ns; which is drawn from the free values, whose count advances. -/
def Obligations.SafeStopPinStops : Prop :=
  ∀ (s : State) (n : Nat),
    (n < 10 → exec (.safeStopInput n) s = .next s) ∧
    (100 ≤ n → s.safe.safeStop = false →
      let u : State := { s with
        safe := { s.safe with safeStop := true, safeCause := 17 }, time := { s.time with ppsOut := false } }
      ∃ t, exec (.safeStopInput n) s = .next t ∧ t.safe = u.safe ∧ t.time.ppsOut = false ∧ faultN t = true ∧
        t = [0, 1, 2, 3].foldl (fun x i => squelch i x) (raise 0x0E16 [17] (stopDma u)) ∧
        (∀ k, 1 ≤ k → k ≤ 16 → ctrGet t (oa 0x1300 k 1) = ctrGet s (oa 0x1300 k 1))) ∧
    (100 ≤ n → s.safe.safeStop = true → exec (.safeStopInput n) s = .next s) ∧
    (10 ≤ n → n < 100 → ∃ t, exec (.safeStopInput n) s = .next t ∧
      (t = { s with free := s.free + 1 } ∨ exec (.safeStopInput 100) { s with free := s.free + 1 } = .next t))

/-- A write of 48 bytes to sf.owner.fuse while the owner hash is blank fuses it and changes nothing else; once a
hash is fused, a later write of sf.owner.fuse by an ADMIN is refused with DENIED whatever its value, and the
OWNER_FUSE event leaves the whole state unchanged. A write of v to sf.rollback.advance with the present count at
most v and v at most the running slot's security version raises the count to v and reports event 0x0E17; a value
outside that range leaves the state unchanged. -/
def Obligations.FusesBurned : Prop :=
  ((∀ (s : State) (h : Bytes), h.length = 48 → s.safe.ownerHash = none →
     exec (.ownerFuse h) s = .next { s with safe := { s.safe with ownerHash := some h } }) ∧
   (∀ (s : State) (h g : Bytes), s.safe.ownerHash = some g →
     exec (.ownerFuse h) s = .next s ∧
     ∀ (r : Req) (ty : Nat) (v : Bytes), r.role = 2 → writeRefused r false (oa 0x1318 0 0) ty v s = stDenied)) ∧
  (∀ (s : State) (v : Nat),
     ((s.safe.rollback ≤ v ∧ v ≤ s.safe.fwSecurity) →
       ∃ t, exec (.rollbackAdvance v) s = .next t ∧ t.safe = { s.safe with rollback := v } ∧
         t = { s with host := t.host, cnt := t.cnt, safe := t.safe }) ∧
     (¬ (s.safe.rollback ≤ v ∧ v ≤ s.safe.fwSecurity) → exec (.rollbackAdvance v) s = .next s))

/-- A mismatch or a watchdog expiry while the Cobbler runs: cobbler_ready is 0, no Psindo session is left, a commit
that has not reached T0 is gone, and the pattern slots, the epoch, the packets, queues, flow records and
forwarding tables are unchanged. The restart sets cobbler_ready and changes nothing else. -/
def Obligations.CobblerResetKeepsDataPlane : Prop :=
  (∀ s : State, s.safe.cobblerReady = true → s.ctl.ops = [] →
    (∃ t, exec .cobblerMismatch s = .next t ∧ t.safe.cobblerReady = false ∧ t.safe.cobblerCause = 1 ∧ t.ctl.sessions = [] ∧
      t.ctl.active = s.ctl.active ∧ t.ctl.staged = s.ctl.staged ∧ t.ctl.previous = s.ctl.previous ∧
      t.ctl.epoch = s.ctl.epoch ∧ t.path = s.path ∧ t.tm = s.tm ∧ t.flow = s.flow ∧ t.fwd = s.fwd ∧ t.hbm = s.hbm ∧
      (∀ c, s.ctl.commit = some c → c.begun = false → t.ctl.commit = none)) ∧
    (∃ t, exec .cobblerWatchdog s = .next t ∧ t.safe.cobblerReady = false ∧ t.safe.cobblerCause = 2 ∧ t.ctl.sessions = [] ∧
      t.path = s.path ∧ t.tm = s.tm ∧ t.flow = s.flow ∧ t.fwd = s.fwd ∧ t.hbm = s.hbm)) ∧
  (∀ s : State, s.safe.cobblerReset = true →
    exec .cobblerRestarted s = .next { s with safe := { s.safe with cobblerReset := false, cobblerReady := true } })

/-- After reset the device is held as R445 says of RESET_N low: transmitters silent, 1PPS and recovered clocks low,
no fault reported, the PCIe link idle, no management and no pattern active. The counters of time stand at 0 with
the nominal increment, the time of day is not valid, the servo is in FREERUN. No packet, item, flow record or
long operation exists. The memories are in canonical form and the queue is empty (the queue is the model's own;
log entries 1 and 2). -/
def Obligations.ResetHoldsInvariants : Prop :=
  HeldInReset State.reset ∧ State.reset.pending = [] ∧ Memory.wf State.reset.hbm.mem = true ∧ Memory.wf State.reset.host.mem = true ∧
    State.reset.time.counter = 0 ∧ State.reset.time.raw = 0 ∧ State.reset.time.inc = incNominal ∧ State.reset.time.todValid = false ∧
    State.reset.time.servo.state = 0 ∧ State.reset.path.pkts = [] ∧ State.reset.flow.records = [] ∧ State.reset.ctl.ops = [] ∧
    (∀ k, readyItems State.reset k = [] ∧ frontItems State.reset k = []) ∧ (∀ k, (link State.reset k).state = 0)

/-- Whatever the state, a step that answers a next state takes exactly the command at the front of the queue and
adds none (the queue is the model's own; log entry 1). It leaves the fuses as they are but for two things: the
fused rollback count may rise and never falls, and a blank owner key hash may be fused; a fused hash, the
revoked keys and the patch key never change. -/
def Obligations.FusesNeverTakenBack : Prop :=
  ∀ (s t : State), step s = .next t → FusesOnlyBurn s t ∧ t.pending = s.pending.tail

/-- Whatever the state whose HBM and host memory are in canonical form, addresses strictly rising and no byte listed
that an unlisted address reads as, a step that answers a next state leaves both in canonical form, so that equal
memories stay equal data (the form is the model's). -/
def Obligations.MemoriesStayCanonical : Prop :=
  ∀ (s t : State), Memory.wf s.hbm.mem = true → Memory.wf s.host.mem = true → step s = .next t →
    Memory.wf t.hbm.mem = true ∧ Memory.wf t.host.mem = true
end

