-- ==== Sys2Proof/Laws/State.lean ====
section
/-! SUPPORT. One lemma per part of the state and update: what was set reads as set, everything else as before. -/
namespace Sys2Proof.Machine

variable (s : State)

/-! ### setCtl -/

@[simp] theorem setCtl_pending (x : Control) : (setCtl s x).pending = s.pending := rfl
@[simp] theorem setCtl_free (x : Control) : (setCtl s x).free = s.free := rfl
@[simp] theorem setCtl_ctl (x : Control) : (setCtl s x).ctl = x := rfl
@[simp] theorem setCtl_cnt (x : Control) : (setCtl s x).cnt = s.cnt := rfl
@[simp] theorem setCtl_host (x : Control) : (setCtl s x).host = s.host := rfl
@[simp] theorem setCtl_time (x : Control) : (setCtl s x).time = s.time := rfl
@[simp] theorem setCtl_safe (x : Control) : (setCtl s x).safe = s.safe := rfl
@[simp] theorem setCtl_ports (x : Control) : (setCtl s x).ports = s.ports := rfl
@[simp] theorem setCtl_hbm (x : Control) : (setCtl s x).hbm = s.hbm := rfl
@[simp] theorem setCtl_path (x : Control) : (setCtl s x).path = s.path := rfl
@[simp] theorem setCtl_fwd (x : Control) : (setCtl s x).fwd = s.fwd := rfl
@[simp] theorem setCtl_tm (x : Control) : (setCtl s x).tm = s.tm := rfl
@[simp] theorem setCtl_fx (x : Control) : (setCtl s x).fx = s.fx := rfl
@[simp] theorem setCtl_flow (x : Control) : (setCtl s x).flow = s.flow := rfl
@[simp] theorem setCtl_aw (x : Control) : (setCtl s x).aw = s.aw := rfl

/-! ### setCnt -/

@[simp] theorem setCnt_pending (x : Counters) : (setCnt s x).pending = s.pending := rfl
@[simp] theorem setCnt_free (x : Counters) : (setCnt s x).free = s.free := rfl
@[simp] theorem setCnt_ctl (x : Counters) : (setCnt s x).ctl = s.ctl := rfl
@[simp] theorem setCnt_cnt (x : Counters) : (setCnt s x).cnt = x := rfl
@[simp] theorem setCnt_host (x : Counters) : (setCnt s x).host = s.host := rfl
@[simp] theorem setCnt_time (x : Counters) : (setCnt s x).time = s.time := rfl
@[simp] theorem setCnt_safe (x : Counters) : (setCnt s x).safe = s.safe := rfl
@[simp] theorem setCnt_ports (x : Counters) : (setCnt s x).ports = s.ports := rfl
@[simp] theorem setCnt_hbm (x : Counters) : (setCnt s x).hbm = s.hbm := rfl
@[simp] theorem setCnt_path (x : Counters) : (setCnt s x).path = s.path := rfl
@[simp] theorem setCnt_fwd (x : Counters) : (setCnt s x).fwd = s.fwd := rfl
@[simp] theorem setCnt_tm (x : Counters) : (setCnt s x).tm = s.tm := rfl
@[simp] theorem setCnt_fx (x : Counters) : (setCnt s x).fx = s.fx := rfl
@[simp] theorem setCnt_flow (x : Counters) : (setCnt s x).flow = s.flow := rfl
@[simp] theorem setCnt_aw (x : Counters) : (setCnt s x).aw = s.aw := rfl

/-! ### setHost -/

@[simp] theorem setHost_pending (x : HostIf) : (setHost s x).pending = s.pending := rfl
@[simp] theorem setHost_free (x : HostIf) : (setHost s x).free = s.free := rfl
@[simp] theorem setHost_ctl (x : HostIf) : (setHost s x).ctl = s.ctl := rfl
@[simp] theorem setHost_cnt (x : HostIf) : (setHost s x).cnt = s.cnt := rfl
@[simp] theorem setHost_host (x : HostIf) : (setHost s x).host = x := rfl
@[simp] theorem setHost_time (x : HostIf) : (setHost s x).time = s.time := rfl
@[simp] theorem setHost_safe (x : HostIf) : (setHost s x).safe = s.safe := rfl
@[simp] theorem setHost_ports (x : HostIf) : (setHost s x).ports = s.ports := rfl
@[simp] theorem setHost_hbm (x : HostIf) : (setHost s x).hbm = s.hbm := rfl
@[simp] theorem setHost_path (x : HostIf) : (setHost s x).path = s.path := rfl
@[simp] theorem setHost_fwd (x : HostIf) : (setHost s x).fwd = s.fwd := rfl
@[simp] theorem setHost_tm (x : HostIf) : (setHost s x).tm = s.tm := rfl
@[simp] theorem setHost_fx (x : HostIf) : (setHost s x).fx = s.fx := rfl
@[simp] theorem setHost_flow (x : HostIf) : (setHost s x).flow = s.flow := rfl
@[simp] theorem setHost_aw (x : HostIf) : (setHost s x).aw = s.aw := rfl

/-! ### setTime -/

@[simp] theorem setTime_pending (x : TimeUnit) : (setTime s x).pending = s.pending := rfl
@[simp] theorem setTime_free (x : TimeUnit) : (setTime s x).free = s.free := rfl
@[simp] theorem setTime_ctl (x : TimeUnit) : (setTime s x).ctl = s.ctl := rfl
@[simp] theorem setTime_cnt (x : TimeUnit) : (setTime s x).cnt = s.cnt := rfl
@[simp] theorem setTime_host (x : TimeUnit) : (setTime s x).host = s.host := rfl
@[simp] theorem setTime_time (x : TimeUnit) : (setTime s x).time = x := rfl
@[simp] theorem setTime_safe (x : TimeUnit) : (setTime s x).safe = s.safe := rfl
@[simp] theorem setTime_ports (x : TimeUnit) : (setTime s x).ports = s.ports := rfl
@[simp] theorem setTime_hbm (x : TimeUnit) : (setTime s x).hbm = s.hbm := rfl
@[simp] theorem setTime_path (x : TimeUnit) : (setTime s x).path = s.path := rfl
@[simp] theorem setTime_fwd (x : TimeUnit) : (setTime s x).fwd = s.fwd := rfl
@[simp] theorem setTime_tm (x : TimeUnit) : (setTime s x).tm = s.tm := rfl
@[simp] theorem setTime_fx (x : TimeUnit) : (setTime s x).fx = s.fx := rfl
@[simp] theorem setTime_flow (x : TimeUnit) : (setTime s x).flow = s.flow := rfl
@[simp] theorem setTime_aw (x : TimeUnit) : (setTime s x).aw = s.aw := rfl

/-! ### setSafe -/

@[simp] theorem setSafe_pending (x : Safety) : (setSafe s x).pending = s.pending := rfl
@[simp] theorem setSafe_free (x : Safety) : (setSafe s x).free = s.free := rfl
@[simp] theorem setSafe_ctl (x : Safety) : (setSafe s x).ctl = s.ctl := rfl
@[simp] theorem setSafe_cnt (x : Safety) : (setSafe s x).cnt = s.cnt := rfl
@[simp] theorem setSafe_host (x : Safety) : (setSafe s x).host = s.host := rfl
@[simp] theorem setSafe_time (x : Safety) : (setSafe s x).time = s.time := rfl
@[simp] theorem setSafe_safe (x : Safety) : (setSafe s x).safe = x := rfl
@[simp] theorem setSafe_ports (x : Safety) : (setSafe s x).ports = s.ports := rfl
@[simp] theorem setSafe_hbm (x : Safety) : (setSafe s x).hbm = s.hbm := rfl
@[simp] theorem setSafe_path (x : Safety) : (setSafe s x).path = s.path := rfl
@[simp] theorem setSafe_fwd (x : Safety) : (setSafe s x).fwd = s.fwd := rfl
@[simp] theorem setSafe_tm (x : Safety) : (setSafe s x).tm = s.tm := rfl
@[simp] theorem setSafe_fx (x : Safety) : (setSafe s x).fx = s.fx := rfl
@[simp] theorem setSafe_flow (x : Safety) : (setSafe s x).flow = s.flow := rfl
@[simp] theorem setSafe_aw (x : Safety) : (setSafe s x).aw = s.aw := rfl

/-! ### setPorts -/

@[simp] theorem setPorts_pending (x : Ports) : (setPorts s x).pending = s.pending := rfl
@[simp] theorem setPorts_free (x : Ports) : (setPorts s x).free = s.free := rfl
@[simp] theorem setPorts_ctl (x : Ports) : (setPorts s x).ctl = s.ctl := rfl
@[simp] theorem setPorts_cnt (x : Ports) : (setPorts s x).cnt = s.cnt := rfl
@[simp] theorem setPorts_host (x : Ports) : (setPorts s x).host = s.host := rfl
@[simp] theorem setPorts_time (x : Ports) : (setPorts s x).time = s.time := rfl
@[simp] theorem setPorts_safe (x : Ports) : (setPorts s x).safe = s.safe := rfl
@[simp] theorem setPorts_ports (x : Ports) : (setPorts s x).ports = x := rfl
@[simp] theorem setPorts_hbm (x : Ports) : (setPorts s x).hbm = s.hbm := rfl
@[simp] theorem setPorts_path (x : Ports) : (setPorts s x).path = s.path := rfl
@[simp] theorem setPorts_fwd (x : Ports) : (setPorts s x).fwd = s.fwd := rfl
@[simp] theorem setPorts_tm (x : Ports) : (setPorts s x).tm = s.tm := rfl
@[simp] theorem setPorts_fx (x : Ports) : (setPorts s x).fx = s.fx := rfl
@[simp] theorem setPorts_flow (x : Ports) : (setPorts s x).flow = s.flow := rfl
@[simp] theorem setPorts_aw (x : Ports) : (setPorts s x).aw = s.aw := rfl

/-! ### setHbm -/

@[simp] theorem setHbm_pending (x : Hbm) : (setHbm s x).pending = s.pending := rfl
@[simp] theorem setHbm_free (x : Hbm) : (setHbm s x).free = s.free := rfl
@[simp] theorem setHbm_ctl (x : Hbm) : (setHbm s x).ctl = s.ctl := rfl
@[simp] theorem setHbm_cnt (x : Hbm) : (setHbm s x).cnt = s.cnt := rfl
@[simp] theorem setHbm_host (x : Hbm) : (setHbm s x).host = s.host := rfl
@[simp] theorem setHbm_time (x : Hbm) : (setHbm s x).time = s.time := rfl
@[simp] theorem setHbm_safe (x : Hbm) : (setHbm s x).safe = s.safe := rfl
@[simp] theorem setHbm_ports (x : Hbm) : (setHbm s x).ports = s.ports := rfl
@[simp] theorem setHbm_hbm (x : Hbm) : (setHbm s x).hbm = x := rfl
@[simp] theorem setHbm_path (x : Hbm) : (setHbm s x).path = s.path := rfl
@[simp] theorem setHbm_fwd (x : Hbm) : (setHbm s x).fwd = s.fwd := rfl
@[simp] theorem setHbm_tm (x : Hbm) : (setHbm s x).tm = s.tm := rfl
@[simp] theorem setHbm_fx (x : Hbm) : (setHbm s x).fx = s.fx := rfl
@[simp] theorem setHbm_flow (x : Hbm) : (setHbm s x).flow = s.flow := rfl
@[simp] theorem setHbm_aw (x : Hbm) : (setHbm s x).aw = s.aw := rfl

/-! ### setPath -/

@[simp] theorem setPath_pending (x : Path) : (setPath s x).pending = s.pending := rfl
@[simp] theorem setPath_free (x : Path) : (setPath s x).free = s.free := rfl
@[simp] theorem setPath_ctl (x : Path) : (setPath s x).ctl = s.ctl := rfl
@[simp] theorem setPath_cnt (x : Path) : (setPath s x).cnt = s.cnt := rfl
@[simp] theorem setPath_host (x : Path) : (setPath s x).host = s.host := rfl
@[simp] theorem setPath_time (x : Path) : (setPath s x).time = s.time := rfl
@[simp] theorem setPath_safe (x : Path) : (setPath s x).safe = s.safe := rfl
@[simp] theorem setPath_ports (x : Path) : (setPath s x).ports = s.ports := rfl
@[simp] theorem setPath_hbm (x : Path) : (setPath s x).hbm = s.hbm := rfl
@[simp] theorem setPath_path (x : Path) : (setPath s x).path = x := rfl
@[simp] theorem setPath_fwd (x : Path) : (setPath s x).fwd = s.fwd := rfl
@[simp] theorem setPath_tm (x : Path) : (setPath s x).tm = s.tm := rfl
@[simp] theorem setPath_fx (x : Path) : (setPath s x).fx = s.fx := rfl
@[simp] theorem setPath_flow (x : Path) : (setPath s x).flow = s.flow := rfl
@[simp] theorem setPath_aw (x : Path) : (setPath s x).aw = s.aw := rfl

/-! ### setFwd -/

@[simp] theorem setFwd_pending (x : Forward) : (setFwd s x).pending = s.pending := rfl
@[simp] theorem setFwd_free (x : Forward) : (setFwd s x).free = s.free := rfl
@[simp] theorem setFwd_ctl (x : Forward) : (setFwd s x).ctl = s.ctl := rfl
@[simp] theorem setFwd_cnt (x : Forward) : (setFwd s x).cnt = s.cnt := rfl
@[simp] theorem setFwd_host (x : Forward) : (setFwd s x).host = s.host := rfl
@[simp] theorem setFwd_time (x : Forward) : (setFwd s x).time = s.time := rfl
@[simp] theorem setFwd_safe (x : Forward) : (setFwd s x).safe = s.safe := rfl
@[simp] theorem setFwd_ports (x : Forward) : (setFwd s x).ports = s.ports := rfl
@[simp] theorem setFwd_hbm (x : Forward) : (setFwd s x).hbm = s.hbm := rfl
@[simp] theorem setFwd_path (x : Forward) : (setFwd s x).path = s.path := rfl
@[simp] theorem setFwd_fwd (x : Forward) : (setFwd s x).fwd = x := rfl
@[simp] theorem setFwd_tm (x : Forward) : (setFwd s x).tm = s.tm := rfl
@[simp] theorem setFwd_fx (x : Forward) : (setFwd s x).fx = s.fx := rfl
@[simp] theorem setFwd_flow (x : Forward) : (setFwd s x).flow = s.flow := rfl
@[simp] theorem setFwd_aw (x : Forward) : (setFwd s x).aw = s.aw := rfl

/-! ### setTm -/

@[simp] theorem setTm_pending (x : TM) : (setTm s x).pending = s.pending := rfl
@[simp] theorem setTm_free (x : TM) : (setTm s x).free = s.free := rfl
@[simp] theorem setTm_ctl (x : TM) : (setTm s x).ctl = s.ctl := rfl
@[simp] theorem setTm_cnt (x : TM) : (setTm s x).cnt = s.cnt := rfl
@[simp] theorem setTm_host (x : TM) : (setTm s x).host = s.host := rfl
@[simp] theorem setTm_time (x : TM) : (setTm s x).time = s.time := rfl
@[simp] theorem setTm_safe (x : TM) : (setTm s x).safe = s.safe := rfl
@[simp] theorem setTm_ports (x : TM) : (setTm s x).ports = s.ports := rfl
@[simp] theorem setTm_hbm (x : TM) : (setTm s x).hbm = s.hbm := rfl
@[simp] theorem setTm_path (x : TM) : (setTm s x).path = s.path := rfl
@[simp] theorem setTm_fwd (x : TM) : (setTm s x).fwd = s.fwd := rfl
@[simp] theorem setTm_tm (x : TM) : (setTm s x).tm = x := rfl
@[simp] theorem setTm_fx (x : TM) : (setTm s x).fx = s.fx := rfl
@[simp] theorem setTm_flow (x : TM) : (setTm s x).flow = s.flow := rfl
@[simp] theorem setTm_aw (x : TM) : (setTm s x).aw = s.aw := rfl

/-! ### setFx -/

@[simp] theorem setFx_pending (x : FlexE) : (setFx s x).pending = s.pending := rfl
@[simp] theorem setFx_free (x : FlexE) : (setFx s x).free = s.free := rfl
@[simp] theorem setFx_ctl (x : FlexE) : (setFx s x).ctl = s.ctl := rfl
@[simp] theorem setFx_cnt (x : FlexE) : (setFx s x).cnt = s.cnt := rfl
@[simp] theorem setFx_host (x : FlexE) : (setFx s x).host = s.host := rfl
@[simp] theorem setFx_time (x : FlexE) : (setFx s x).time = s.time := rfl
@[simp] theorem setFx_safe (x : FlexE) : (setFx s x).safe = s.safe := rfl
@[simp] theorem setFx_ports (x : FlexE) : (setFx s x).ports = s.ports := rfl
@[simp] theorem setFx_hbm (x : FlexE) : (setFx s x).hbm = s.hbm := rfl
@[simp] theorem setFx_path (x : FlexE) : (setFx s x).path = s.path := rfl
@[simp] theorem setFx_fwd (x : FlexE) : (setFx s x).fwd = s.fwd := rfl
@[simp] theorem setFx_tm (x : FlexE) : (setFx s x).tm = s.tm := rfl
@[simp] theorem setFx_fx (x : FlexE) : (setFx s x).fx = x := rfl
@[simp] theorem setFx_flow (x : FlexE) : (setFx s x).flow = s.flow := rfl
@[simp] theorem setFx_aw (x : FlexE) : (setFx s x).aw = s.aw := rfl

/-! ### setFlow -/

@[simp] theorem setFlow_pending (x : Flow) : (setFlow s x).pending = s.pending := rfl
@[simp] theorem setFlow_free (x : Flow) : (setFlow s x).free = s.free := rfl
@[simp] theorem setFlow_ctl (x : Flow) : (setFlow s x).ctl = s.ctl := rfl
@[simp] theorem setFlow_cnt (x : Flow) : (setFlow s x).cnt = s.cnt := rfl
@[simp] theorem setFlow_host (x : Flow) : (setFlow s x).host = s.host := rfl
@[simp] theorem setFlow_time (x : Flow) : (setFlow s x).time = s.time := rfl
@[simp] theorem setFlow_safe (x : Flow) : (setFlow s x).safe = s.safe := rfl
@[simp] theorem setFlow_ports (x : Flow) : (setFlow s x).ports = s.ports := rfl
@[simp] theorem setFlow_hbm (x : Flow) : (setFlow s x).hbm = s.hbm := rfl
@[simp] theorem setFlow_path (x : Flow) : (setFlow s x).path = s.path := rfl
@[simp] theorem setFlow_fwd (x : Flow) : (setFlow s x).fwd = s.fwd := rfl
@[simp] theorem setFlow_tm (x : Flow) : (setFlow s x).tm = s.tm := rfl
@[simp] theorem setFlow_fx (x : Flow) : (setFlow s x).fx = s.fx := rfl
@[simp] theorem setFlow_flow (x : Flow) : (setFlow s x).flow = x := rfl
@[simp] theorem setFlow_aw (x : Flow) : (setFlow s x).aw = s.aw := rfl

/-! ### setAw -/

@[simp] theorem setAw_pending (x : Cluster) : (setAw s x).pending = s.pending := rfl
@[simp] theorem setAw_free (x : Cluster) : (setAw s x).free = s.free := rfl
@[simp] theorem setAw_ctl (x : Cluster) : (setAw s x).ctl = s.ctl := rfl
@[simp] theorem setAw_cnt (x : Cluster) : (setAw s x).cnt = s.cnt := rfl
@[simp] theorem setAw_host (x : Cluster) : (setAw s x).host = s.host := rfl
@[simp] theorem setAw_time (x : Cluster) : (setAw s x).time = s.time := rfl
@[simp] theorem setAw_safe (x : Cluster) : (setAw s x).safe = s.safe := rfl
@[simp] theorem setAw_ports (x : Cluster) : (setAw s x).ports = s.ports := rfl
@[simp] theorem setAw_hbm (x : Cluster) : (setAw s x).hbm = s.hbm := rfl
@[simp] theorem setAw_path (x : Cluster) : (setAw s x).path = s.path := rfl
@[simp] theorem setAw_fwd (x : Cluster) : (setAw s x).fwd = s.fwd := rfl
@[simp] theorem setAw_tm (x : Cluster) : (setAw s x).tm = s.tm := rfl
@[simp] theorem setAw_fx (x : Cluster) : (setAw s x).fx = s.fx := rfl
@[simp] theorem setAw_flow (x : Cluster) : (setAw s x).flow = s.flow := rfl
@[simp] theorem setAw_aw (x : Cluster) : (setAw s x).aw = x := rfl

end Sys2Proof.Machine
end

