-- ==== Sys2Proof/Laws/Table.lean ====
section
/-! SUPPORT. Sparse tables and byte memories: a read after a write, and that every operation keeps the canonical form. -/
namespace Sys2Proof.Machine

variable {α : Type}

/-- A key below the bound of a rising table is not listed. -/
theorem tfind_below {b n : Nat} {t : Tbl α} (h : tsortedFrom b t = true) (hn : n < b) : tfind t n = none := by
  induction t generalizing b with
  | nil => rfl
  | cons r t ih =>
    obtain ⟨k, v⟩ := r
    simp only [tsortedFrom, Bool.and_eq_true, decide_eq_true_eq] at h
    have hk : k ≠ n := by omega
    simp only [tfind, hk, if_false]
    exact ih h.2 (by omega)

theorem tsortedFrom_mono {a b : Nat} {t : Tbl α} (hab : a ≤ b) (h : tsortedFrom b t = true) : tsortedFrom a t = true := by
  cases t with
  | nil => rfl
  | cons r t =>
    obtain ⟨k, v⟩ := r
    simp only [tsortedFrom, Bool.and_eq_true, decide_eq_true_eq] at h ⊢
    exact ⟨by omega, h.2⟩

/-- The key just written reads as the value written. -/
@[simp] theorem tfind_tput_same (t : Tbl α) (n : Nat) (x : α) : tfind (tput t n x) n = some x := by
  induction t with
  | nil => simp [tput, tfind]
  | cons r t ih =>
    obtain ⟨k, v⟩ := r
    simp only [tput]
    split
    · simp [tfind]
    · split
      · subst_vars; simp [tfind]
      · have hk : k ≠ n := fun h => by simp_all
        simp [tfind, hk, ih]

/-- Every other key reads as before. -/
theorem tfind_tput_other (t : Tbl α) {n m : Nat} (x : α) (h : m ≠ n) : tfind (tput t n x) m = tfind t m := by
  induction t with
  | nil => simp [tput, tfind, h.symm]
  | cons r t ih =>
    obtain ⟨k, v⟩ := r
    simp only [tput]
    split
    · simp [tfind, h.symm]
    · split
      · subst_vars; simp [tfind, h.symm]
      · simp only [tfind, ih]

/-- A removed key of a rising table is not listed. -/
theorem tfind_tdel_same {b : Nat} {t : Tbl α} (h : tsortedFrom b t = true) (n : Nat) : tfind (tdel t n) n = none := by
  induction t generalizing b with
  | nil => rfl
  | cons r t ih =>
    obtain ⟨k, v⟩ := r
    simp only [tsortedFrom, Bool.and_eq_true, decide_eq_true_eq] at h
    simp only [tdel]
    split
    · subst_vars; exact tfind_below h.2 (by omega)
    · rename_i hk
      simp only [tfind, hk, if_false]
      exact ih h.2

theorem tfind_tdel_other (t : Tbl α) {n m : Nat} (h : m ≠ n) : tfind (tdel t n) m = tfind t m := by
  induction t with
  | nil => rfl
  | cons r t ih =>
    obtain ⟨k, v⟩ := r
    simp only [tdel]
    split
    · subst_vars; simp [tfind, h.symm]
    · simp only [tfind, ih]

/-- tput keeps the keys rising. -/
theorem tsortedFrom_tput {b : Nat} {t : Tbl α} (h : tsortedFrom b t = true) {n : Nat} (hn : b ≤ n) (x : α) :
    tsortedFrom b (tput t n x) = true := by
  induction t generalizing b with
  | nil => simp [tput, tsortedFrom, hn]
  | cons r t ih =>
    obtain ⟨k, v⟩ := r
    simp only [tsortedFrom, Bool.and_eq_true, decide_eq_true_eq] at h
    simp only [tput]
    split
    · simp only [tsortedFrom, Bool.and_eq_true, decide_eq_true_eq]
      exact ⟨hn, by omega, h.2⟩
    · split
      · simp only [tsortedFrom, Bool.and_eq_true, decide_eq_true_eq]; exact h
      · simp only [tsortedFrom, Bool.and_eq_true, decide_eq_true_eq]
        exact ⟨h.1, ih h.2 (by omega)⟩

/-- tdel keeps the keys rising. -/
theorem tsortedFrom_tdel {b : Nat} {t : Tbl α} (h : tsortedFrom b t = true) (n : Nat) :
    tsortedFrom b (tdel t n) = true := by
  induction t generalizing b with
  | nil => rfl
  | cons r t ih =>
    obtain ⟨k, v⟩ := r
    simp only [tsortedFrom, Bool.and_eq_true, decide_eq_true_eq] at h
    simp only [tdel]
    split
    · exact tsortedFrom_mono (by omega) h.2
    · simp only [tsortedFrom, Bool.and_eq_true, decide_eq_true_eq]
      exact ⟨h.1, ih h.2⟩

theorem mem_tput {t : Tbl α} {n : Nat} {x : α} {r : Nat × α} (h : r ∈ tput t n x) : r = (n, x) ∨ r ∈ t := by
  induction t with
  | nil => simpa [tput] using h
  | cons q t ih =>
    obtain ⟨k, v⟩ := q
    simp only [tput] at h
    split at h
    · simpa using h
    · split at h
      · subst_vars; simp only [List.mem_cons] at h ⊢; tauto
      · simp only [List.mem_cons] at h ⊢
        rcases h with h | h
        · exact .inr (.inl h)
        · rcases ih h with h | h <;> tauto

theorem mem_tdel {t : Tbl α} {n : Nat} {r : Nat × α} (h : r ∈ tdel t n) : r ∈ t := by
  induction t with
  | nil => exact h
  | cons q t ih =>
    obtain ⟨k, v⟩ := q
    simp only [tdel] at h
    split at h
    · exact List.mem_cons_of_mem _ h
    · simp only [List.mem_cons] at h ⊢
      exact h.imp id ih

variable [DecidableEq α]

/-- tset keeps the canonical form. -/
theorem tcanon_tset {d : α} {t : Tbl α} (h : tcanon d t = true) (n : Nat) (x : α) : tcanon d (tset d t n x) = true := by
  simp only [tcanon, tsorted, Bool.and_eq_true, List.all_eq_true, decide_eq_true_eq] at h ⊢
  simp only [tset]
  split
  · exact ⟨tsortedFrom_tdel h.1 n, fun r hr => h.2 r (mem_tdel hr)⟩
  · rename_i hx
    refine ⟨tsortedFrom_tput h.1 (Nat.zero_le n) x, fun r hr => ?_⟩
    rcases mem_tput hr with rfl | hr
    · exact hx
    · exact h.2 r hr

/-- The key just set reads as the value set. -/
theorem tget_tset_same {d : α} {t : Tbl α} (h : tcanon d t = true) (n : Nat) (x : α) : tget d (tset d t n x) n = x := by
  simp only [tcanon, tsorted, Bool.and_eq_true] at h
  simp only [tset, tget]
  split
  · subst_vars; simp [tfind_tdel_same h.1 n]
  · simp

/-- Every other key reads as before. -/
theorem tget_tset_other {d : α} (t : Tbl α) {n m : Nat} (x : α) (h : m ≠ n) : tget d (tset d t n x) m = tget d t m := by
  simp only [tset, tget]
  split
  · rw [tfind_tdel_other t h]
  · rw [tfind_tput_other t x h]

/-! ### Byte memories -/

/-- A byte store keeps the canonical form. -/
theorem writeByte_wf {m : List Host.Cell} (h : Memory.wf m = true) (a : Nat) (b : Byte) : Memory.wf (writeByte m a b) = true :=
  tcanon_tset h a b

/-- A store of bytes keeps the canonical form. -/
theorem writeBytes_wf {m : List Host.Cell} (h : Memory.wf m = true) (a : Nat) (bs : Bytes) :
    Memory.wf (writeBytes m a bs) = true := by
  induction bs generalizing m a with
  | nil => exact h
  | cons b bs ih => exact ih (writeByte_wf h a b) (a + 1)

/-- A byte outside the stored bytes reads as before. -/
theorem readByte_writeBytes_other (m : List Host.Cell) (a x : Nat) (bs : Bytes) (h : x < a ∨ a + bs.length ≤ x) :
    readByte (writeBytes m a bs) x = readByte m x := by
  induction bs generalizing m a with
  | nil => rfl
  | cons b bs ih =>
    simp only [List.length_cons] at h
    simp only [writeBytes]
    rw [ih _ _ (by omega)]
    exact tget_tset_other m b (by omega)

/-- A stored byte reads as it was stored. -/
theorem readByte_writeBytes_same {m : List Host.Cell} (hm : Memory.wf m = true) (a i : Nat) (bs : Bytes) (h : i < bs.length) :
    readByte (writeBytes m a bs) (a + i) = bs.getD i 0 := by
  induction bs generalizing m a i with
  | nil => simp at h
  | cons b bs ih =>
    simp only [writeBytes]
    cases i with
    | zero =>
      rw [readByte_writeBytes_other _ _ _ _ (by omega)]
      exact tget_tset_same hm a b
    | succ i =>
      have := ih (writeByte_wf hm a b) (a + 1) i (by simpa using h)
      rw [show a + (i + 1) = a + 1 + i by omega, this]
      simp

end Sys2Proof.Machine
end

