-- ==== Sys2Proof/Laws/Ops.lean ====
section
/-! SUPPORT. What the shared operations can do: counters, draws, rings, events, faults. -/
namespace Sys2Proof.Machine

/-! ### Counters and draws: only their own part changes -/

theorem ctrSet_eq (s : State) (a n : Nat) : ctrSet s a n = { s with cnt := { s.cnt with ctr := tset 0 s.cnt.ctr a n } } := rfl

/-- Counting changes counter values only. -/
theorem ctrAdd_eq (a n : Nat) (s : State) :
    ctrAdd a n s = { s with cnt := { s.cnt with ctr := (ctrAdd a n s).cnt.ctr } } := by
  simp only [ctrAdd]
  split
  · rfl
  · split <;> rfl

theorem count_eq (i n u : Nat) (s : State) : count i n u s = { s with cnt := { s.cnt with ctr := (count i n u s).cnt.ctr } } :=
  ctrAdd_eq _ _ _

theorem satAdd_eq (i n u k : Nat) (s : State) :
    satAdd i n u k s = { s with cnt := { s.cnt with ctr := (satAdd i n u k s).cnt.ctr } } := rfl

/-- Drawing a free value advances the draw counter only. -/
theorem fresh_state (w : Nat) (s : State) : (fresh w s).2 = { s with free := s.free + 1 } := rfl

/-! ### Host memory and rings: only the host interface changes -/

theorem hostWrite_eq (s : State) (a : Nat) (bs : Bytes) : hostWrite s a bs = { s with host := (hostWrite s a bs).host } := rfl

theorem raiseVector_eq (v : Nat) (s : State) : raiseVector v s = { s with host := (raiseVector v s).host } := by
  simp only [raiseVector]; split <;> rfl

theorem setRing_eq (s : State) (k : Nat) (r : Ring) : setRing s k r = { s with host := (setRing s k r).host } := rfl

theorem writeShadow_eq (k : Nat) (x : BitVec 32) (s : State) : writeShadow k x s = { s with host := (writeShadow k x s).host } := by
  simp only [writeShadow]; split <;> rfl

theorem signalRing_eq (k : Nat) (u : Bool) (s : State) : signalRing k u s = { s with host := (signalRing k u s).host } := by
  simp only [signalRing]
  split
  · rfl
  · split
    · rw [raiseVector_eq]; rfl
    · rfl

theorem ringProduce_eq (k : Nat) (e : Bytes) (u : Bool) (s : State) :
    ringProduce k e u s = { s with host := (ringProduce k e u s).host } := by
  simp only [ringProduce]; rw [signalRing_eq, writeShadow_eq]; rfl

theorem ringConsume_eq (k n : Nat) (s : State) : ringConsume k n s = { s with host := (ringConsume k n s).host } := by
  simp only [ringConsume]; rw [signalRing_eq, writeShadow_eq]; rfl

/-! ### Events: the host interface and counter values -/

/-- Putting an event record changes the host interface and, when the record is discarded, its queue's counter. -/
theorem putEvent_eq (q c : Nat) (f : Bool) (ps : List Nat) (s : State) :
    putEvent q c f ps s = { s with
      host := (putEvent q c f ps s).host, cnt := { s.cnt with ctr := (putEvent q c f ps s).cnt.ctr } } := by
  simp only [putEvent]
  split
  · rw [ringProduce_eq]
  · rw [count_eq]

/-- Raising an event changes the host interface and counter values only. -/
theorem raise_eq (c : Nat) (ps : List Nat) (s : State) (f : Bool) :
    raise c ps s f = { s with host := (raise c ps s f).host, cnt := { s.cnt with ctr := (raise c ps s f).cnt.ctr } } := by
  simp only [raise]
  split
  · rfl
  · exact putEvent_eq _ _ _ _ _

/-- An event that is raised at most once per second changes the host interface and the counters part only. -/
theorem raiseLimited_eq (c i : Nat) (ps : Nat → List Nat) (s : State) :
    raiseLimited c i ps s = { s with host := (raiseLimited c i ps s).host, cnt := (raiseLimited c i ps s).cnt } := by
  simp only [raiseLimited, limit]
  split
  · rw [raise_eq]
  · rfl

/-! ### Faults -/

/-- Noting a detection changes counter values only. -/
theorem noteFault_eq (k : Nat) (s : State) :
    noteFault k s = { s with cnt := { s.cnt with ctr := (noteFault k s).cnt.ctr } } := by
  simp only [noteFault]; rw [count_eq]; rfl

theorem stopDma_eq (s : State) : stopDma s = { s with host := (stopDma s).host } := by
  have h : ∀ (l : List Nat) (s : State),
      l.foldl (fun s c => if (tget [] s.host.dma c).isEmpty && (ring s (dmaKey c)).enable
        then setRing s (dmaKey c) { ring s (dmaKey c) with stopped := true } else s) s =
      { s with host := (l.foldl (fun s c => if (tget [] s.host.dma c).isEmpty && (ring s (dmaKey c)).enable
        then setRing s (dmaKey c) { ring s (dmaKey c) with stopped := true } else s) s).host } := by
    intro l
    induction l with
    | nil => intro s; rfl
    | cons a l ih =>
      intro s
      simp only [List.foldl_cons]
      rw [ih]
      split <;> rfl
  exact h _ s

theorem squelch_eq (i : Nat) (s : State) :
    squelch i s = { s with
      host := (squelch i s).host, cnt := { s.cnt with ctr := (squelch i s).cnt.ctr },
      time := { s.time with recclk := (squelch i s).time.recclk } } := by
  simp only [squelch]
  split
  · rw [raise_eq]
  · rfl

theorem squelchAll_eq (l : List Nat) (s : State) :
    l.foldl (fun t i => squelch i t) s = { s with
      host := (l.foldl (fun t i => squelch i t) s).host
      cnt := { s.cnt with ctr := (l.foldl (fun t i => squelch i t) s).cnt.ctr }
      time := { s.time with recclk := (l.foldl (fun t i => squelch i t) s).time.recclk } } := by
  induction l generalizing s with
  | nil => rfl
  | cons a l ih =>
    simp only [List.foldl_cons]
    rw [ih, squelch_eq]

/-- A safe stop changes the host interface, counter values, the clock outputs and the two fields that say so. -/
theorem safeStop_eq (k : Nat) (s : State) :
    safeStop k s = { s with
      host := (safeStop k s).host, cnt := { s.cnt with ctr := (safeStop k s).cnt.ctr },
      time := { s.time with ppsOut := (safeStop k s).time.ppsOut, recclk := (safeStop k s).time.recclk }
      safe := { s.safe with safeStop := (safeStop k s).safe.safeStop, safeCause := (safeStop k s).safe.safeCause } } := by
  simp only [safeStop]
  split
  · rfl
  · rw [squelchAll_eq, raise_eq, stopDma_eq]

theorem react_eq (k : Nat) (s : State) :
    react k s = { s with
      host := (react k s).host, cnt := { s.cnt with ctr := (react k s).cnt.ctr }
      time := { s.time with ppsOut := (react k s).time.ppsOut, recclk := (react k s).time.recclk }
      safe := { s.safe with
        pulse := (react k s).safe.pulse, faults := (react k s).safe.faults, safeStop := (react k s).safe.safeStop
        safeCause := (react k s).safe.safeCause } } := by
  simp only [react]
  split
  · rfl
  · split
    · rw [safeStop_eq]; rfl
    · rfl

/-- A detection changes counters, the fault state and what a safe stop holds low, and may write a record (R461, R469). -/
theorem detect_eq (k c : Nat) (ps : List Nat) (s : State) :
    detect k c ps s = { s with
      host := (detect k c ps s).host, cnt := { s.cnt with ctr := (detect k c ps s).cnt.ctr }
      time := { s.time with ppsOut := (detect k c ps s).time.ppsOut, recclk := (detect k c ps s).time.recclk }
      safe := { s.safe with
        pulse := (detect k c ps s).safe.pulse, faults := (detect k c ps s).safe.faults
        safeStop := (detect k c ps s).safe.safeStop, safeCause := (detect k c ps s).safe.safeCause } } := by
  have hd : detect k c ps s = if k = 1 then noteFault k s else react k (raise c ps (noteFault k s) true) := rfl
  generalize detect k c ps s = d at hd ⊢
  have h0 := noteFault_eq k s
  have hr := raise_eq c ps (noteFault k s) true
  generalize raise c ps (noteFault k s) true = u at hd hr
  generalize noteFault k s = v at hd hr h0
  by_cases h : k = 1
  · rw [if_pos h] at hd
    subst hd
    exact h0.trans (by rw [h0])
  · rw [if_neg h] at hd
    have ha := react_eq k u
    rw [← hd] at ha
    rcases s with ⟨a1, a2, a3, a4, a5, a6, a7, a8, a9, a10, a11, a12, a13, a14, a15⟩
    rcases v with ⟨b1, b2, b3, b4, b5, b6, b7, b8, b9, b10, b11, b12, b13, b14, b15⟩
    rcases u with ⟨c1, c2, c3, c4, c5, c6, c7, c8, c9, c10, c11, c12, c13, c14, c15⟩
    rcases d with ⟨d1, d2, d3, d4, d5, d6, d7, d8, d9, d10, d11, d12, d13, d14, d15⟩
    simp only [State.mk.injEq] at h0 hr ha ⊢
    obtain ⟨rfl, rfl, rfl, h0, rfl, rfl, rfl, rfl, rfl, rfl, rfl, rfl, rfl, rfl, rfl⟩ := h0
    obtain ⟨rfl, rfl, rfl, hr, -, rfl, rfl, rfl, rfl, rfl, rfl, rfl, rfl, rfl, rfl⟩ := hr
    refine ⟨ha.1, ha.2.1, ha.2.2.1, ?_, trivial, ha.2.2.2.2.2⟩
    rw [ha.2.2.2.1, hr, h0]

end Sys2Proof.Machine
end

