-- ==== Sys2Proof/Machine/Board.lean ====
section
/-! DEFINITION. What the board sees of the part (chapter 17): rails, powers, ratings and balls, as the spec's tables give
them. -/
namespace Sys2Proof.Machine

/-- A supply rail (Table 17-1): voltages in mV times 10, currents in mA, powers in units of 0.1 W (Table 17-4). -/
structure Rail where
  /-- name -/
  name : String
  /-- nominal voltage -/
  nominal : Nat
  /-- lower end of the recommended range -/
  low : Nat
  /-- upper end of the recommended range -/
  high : Nat
  /-- largest voltage of the absolute maximum ratings (Table 17-5) -/
  absolute : Nat
  /-- maximum current -/
  current : Nat
  /-- power, typical -/
  typical : Nat
  /-- power, maximum -/
  maximum : Nat
  /-- power, idle and typical -/
  idle : Nat
  deriving DecidableEq, Repr

/-- The nine rails by number (Tables 17-1, 17-4 and 17-5; R475, R480, R482). -/
def rails : List Rail := [
  ⟨"VDD_CORE0", 7500, 7275, 7725, 9000, 208700, 1315, 1565, 655⟩,
  ⟨"VDD_CORE1", 7500, 7275, 7725, 9000, 208700, 1315, 1565, 655⟩,
  ⟨"VDDA_SDS", 7500, 7275, 7725, 9000, 77300, 560, 580, 530⟩,
  ⟨"VDDH_SDS", 12000, 11640, 12360, 14400, 20000, 240, 240, 230⟩,
  ⟨"VDD_HBM", 11000, 10670, 11330, 13000, 28200, 300, 310, 60⟩,
  ⟨"VDDQ_HBM", 4000, 3880, 4120, 5000, 32500, 120, 130, 60⟩,
  ⟨"VPP_HBM", 18000, 17460, 18540, 22000, 2200, 40, 40, 10⟩,
  ⟨"VDD_IO", 7500, 7275, 7725, 9000, 13300, 90, 100, 90⟩,
  ⟨"VDD_1V8", 18000, 17460, 18540, 22000, 1100, 20, 20, 10⟩]

/-- Power by subsystem in W: typical, maximum, idle (Table 17-3, R479). -/
def subsystemPower : List (String × Nat × Nat × Nat) := [
  ("ports", 112, 118, 100), ("FlexE shim", 5, 6, 3), ("pipelines", 80, 96, 40), ("forwarding tables", 14, 16, 9),
  ("flow engine", 50, 66, 22), ("awl cluster", 20, 23, 6), ("switch core", 44, 50, 18), ("traffic manager", 12, 14, 5),
  ("HBM stacks", 40, 41, 9), ("HBM controllers and PHY", 12, 13, 8), ("host interface", 4, 4, 3), ("time unit", 1, 1, 1),
  ("control", 6, 7, 6)]

/-- Steps of Table 17-2 in which the board raises the rails, by rail (R476). -/
def railSteps : List (List Nat) := [[8, 6], [3, 4], [0, 1, 7, 2], [5]]

/-- The core die of a power domain that lies on one (Tables 0-6 and 1-1). -/
def domainDie (d : Nat) : Nat := if d < 16 then d / 8 else if d < 20 then (d - 16) / 2 else (d - 20) / 4

/-- The rails that the wake step of a domain falls on, with the current of each in mA (R478). -/
def wakeRails (d : Nat) : List (Nat × Nat) :=
  let a := 1000 * domainAmps d
  if d < 28 then [(domainDie d, a)]
  else if d = 28 then [(0, a / 2), (1, a / 2)]
  else if d < 93 then [(2, a)]
  else [(4, a)]

/-- The balls of lane l as (row, column): TXP, TXN, RXP, RXN (R484). -/
def laneBalls (l : Nat) : List (Nat × Nat) :=
  let k := l % 32
  match l / 32 with
  | 0 => [2, 3, 6, 7].map fun r => (r, 9 + k)
  | 1 => [2, 3, 6, 7].map fun r => (r, 59 + k)
  | 2 => [2, 3, 6, 7].map fun c => (15 + k, c)
  | 3 => [97, 96, 93, 92].map fun c => (15 + k, c)
  | 4 => [97, 96, 93, 92].map fun r => (r, 9 + k)
  | 5 => [97, 96, 93, 92].map fun r => (r, 59 + k)
  | 6 => [2, 3, 6, 7].map fun c => (53 + k, c)
  | _ => [97, 96, 93, 92].map fun c => (53 + k, c)

/-- The balls of PCIe lane i: TX_P, TX_N, RX_P, RX_N (R484). -/
def pcieBalls (i : Nat) : List (Nat × Nat) := [14, 15, 18, 19].map fun r => (r, 41 + i)

/-- The balls of the management port: TX_P, TX_N, RX_P, RX_N (R484). -/
def mgmtBalls : List (Nat × Nat) := [41, 42, 43, 44].map fun c => (21, c)

/-- The remote-sense balls of a rail, P then N (Table 17-7). -/
def senseBalls (n : Nat) : List (Nat × Nat) := [(20, 41 + 2 * n), (20, 42 + 2 * n)]

/-- The other signals and their balls (Table 17-7, R485). -/
def signalBalls : List (String × Nat × Nat) := [
  ("REFCLK_P", 22, 45), ("REFCLK_N", 22, 46), ("PWR_OK", 22, 48), ("RESET_N", 22, 49), ("PCIE_PERST_N", 22, 50),
  ("FAULT_N", 22, 51), ("SAFE_STOP_N", 22, 52), ("PPS_IN", 22, 54), ("PPS_OUT", 22, 55), ("TEST_MODE", 22, 57),
  ("RECCLK_OUT0_P", 23, 45), ("RECCLK_OUT0_N", 23, 46), ("RECCLK_OUT1_P", 23, 47), ("RECCLK_OUT1_N", 23, 48),
  ("RECCLK_OUT2_P", 23, 49), ("RECCLK_OUT2_N", 23, 50), ("RECCLK_OUT3_P", 23, 51), ("RECCLK_OUT3_N", 23, 52)] ++ [
  ("QSPI_CLK", 23, 53), ("QSPI_CS_N", 23, 54), ("QSPI_IO0", 23, 55), ("QSPI_IO1", 23, 56), ("QSPI_IO2", 23, 57),
  ("QSPI_IO3", 23, 58), ("JTAG_TCK", 24, 45), ("JTAG_TMS", 24, 46), ("JTAG_TDI", 24, 47), ("JTAG_TDO", 24, 48),
  ("JTAG_TRST_N", 24, 49), ("SDS0_REXT", 10, 5), ("SDS1_REXT", 10, 55), ("SDS2_REXT", 14, 10), ("SDS3_REXT", 14, 89),
  ("SDS4_REXT", 89, 5), ("SDS5_REXT", 89, 55), ("SDS6_REXT", 51, 10), ("SDS7_REXT", 51, 89)]

/-- Regions of the array as (first row, last row, first column, last column) that hold the lanes of chiplets 0 and 1,
2 and 3, 4 and 5, 6 and 7 (Table 17-6). -/
def laneRegions : List (List (Nat × Nat × Nat × Nat)) := [
  [(1, 12, 1, 98)], [(13, 49, 1, 12), (13, 49, 87, 98)], [(87, 98, 1, 98)], [(50, 86, 1, 12), (50, 86, 87, 98)]]

/-- A ball lies in one of some regions. -/
def ballIn (rs : List (Nat × Nat × Nat × Nat)) (b : Nat × Nat) : Bool :=
  rs.any fun r => decide (r.1 ≤ b.1) && decide (b.1 ≤ r.2.1) && decide (r.2.2.1 ≤ b.2) && decide (b.2 ≤ r.2.2.2)

/-- Balls of the groups of Table 17-6: lanes, PCIe, management, other signals and sense, the rails' groups, VSS (R483). -/
def ballCounts : List Nat := [256, 256, 256, 256, 64, 4, 55, 1100, 1100, 480, 200, 160, 240, 32, 96, 24, 5025]

end Sys2Proof.Machine
end

