-- ==== Sys2Proof/WellFormed.lean ====
section
/-! DEFINITION. Well-formed commands: every operand that names a unit names one that the device has. -/
namespace Sys2Proof

/-- A pseudo-channel: 4 stacks of 16 channels of 2 (Table 0-6). -/
def wfPc (n : Nat) : Bool := decide (n < 128)

/-- An HBM stack (Table 0-6). -/
def wfStack (n : Nat) : Bool := decide (n < 4)

/-- A port (Table 0-6). -/
def wfPort (n : Nat) : Bool := decide (n < 1024)

/-- A native port, or 1024 + i for FlexE PHY i below 512. -/
def wfLinkKey (n : Nat) : Bool := decide (n < 1536)

/-- A pipeline (Table 0-6). -/
def wfPipeline (n : Nat) : Bool := decide (n < 16)

/-- A core die, or its buffer half. -/
def wfHalf (n : Nat) : Bool := decide (n < 2)

/-- A flow slice (Table 0-6). -/
def wfFlowSlice (n : Nat) : Bool := decide (n < 16)

/-- A unicast queue (R240). -/
def wfUqueue (n : Nat) : Bool := decide (n < 8192)

/-- An awl (Table 0-6). -/
def wfAwl (n : Nat) : Bool := decide (n < 64)

/-- A FlexE group (Table 0-6). -/
def wfFxGroup (n : Nat) : Bool := decide (n < 64)

/-- A FlexE member, 8 g + m. -/
def wfFxMember (n : Nat) : Bool := decide (n < 512)

/-- A long-operation slot (R68). -/
def wfOpSlot (n : Nat) : Bool := decide (n < 16)

/-- A power domain (Table 16-4). -/
def wfDomain (n : Nat) : Bool := decide (n < 97)

/-- An IPFIX stream. -/
def wfStream (n : Nat) : Bool := decide (n < 16)

/-- A requester ID of Table 13-11. -/
def wfRequester (n : Nat) : Bool := decide (n < 256)

/-- A receive or transmit ring (Table 13-4). -/
def wfRing64 (n : Nat) : Bool := decide (n < 64)

/-- A DMA channel (Table 0-6). -/
def wfChannel (n : Nat) : Bool := decide (n < 32)

/-- A pipeline group (Table 0-6). -/
def wfL2Group (n : Nat) : Bool := decide (n < 4)

/-- A SHA-384 value (R453). -/
def wfHash48 (h : Bytes) : Bool := decide (h.length = 48)

/-- A command is well formed. -/
def Instr.wf : Instr → Bool
  | .pwrOkFall => true
  | .resetNFall => true
  | .resetNRise _ => true
  | .pllLocked => true
  | .romStartComplete => true
  | .bootImageRead => true
  | .sramInitialised _ => true
  | .hbmTrained _ _ => true
  | .bootPatternCheck => true
  | .bootCommit => true
  | .pciePerstNRise => true
  | .pciePerstNFall => true
  | .pcieLinkChange _ _ _ _ => true
  | .hello _ => true
  | .bye _ => true
  | .read _ => true
  | .write _ => true
  | .describe _ => true
  | .list _ => true
  | .load _ => true
  | .validate _ => true
  | .commit _ => true
  | .revert _ => true
  | .patternCopy _ => true
  | .readImage _ => true
  | .longopSuspend _ => true
  | .longopResume _ => true
  | .longopCancel _ => true
  | .longopQuery _ => true
  | .rehash _ => true
  | .resizePartition _ => true
  | .tableLoad _ => true
  | .tableDump _ => true
  | .flowFlush _ => true
  | .auditPass _ => true
  | .scrubPass _ => true
  | .bistFunction _ => true
  | .hbmRetrainFull _ => true
  | .firmwareStage _ => true
  | .patternCommit n => wfOpSlot n
  | .longopConflictsClear n => wfOpSlot n
  | .longopWorkComplete n => wfOpSlot n
  | .longopFailed n _ => wfOpSlot n
  | .cancelWorkComplete n => wfOpSlot n
  | .commitBacklogReady _ => true
  | .commitBacklogTimeout => true
  | .commitStopInstant => true
  | .lastingRestart _ => true
  | .commitAnswer => true
  | .epochDrainEnd => true
  | .epochDrainTimeout => true
  | .sessionIdleTimeout _ => true
  | .sessionRetentionExpiry _ => true
  | .cobblerMismatch => true
  | .cobblerWatchdog => true
  | .cobblerRestarted => true
  | .registerWrite _ => true
  | .bar2Read _ _ => true
  | .bar2Write _ _ => true
  | .ringEnable _ _ => true
  | .ringConsWrite _ _ => true
  | .msixModerationExpiry _ => true
  | .tableWrite _ => true
  | .tableDelete _ => true
  | .tableRead _ => true
  | .l2Flush _ => true
  | .reseed _ => true
  | .l2RebuildDone g => wfL2Group g
  | .flowWrite _ => true
  | .flowDelete _ => true
  | .flowRead _ => true
  | .modify _ => true
  | .frameReceive q _ _ => wfPort q
  | .frameEnd _ => true
  | .clickerParse p => wfPipeline p
  | .clickerRetire p => wfPipeline p
  | .recirculate p _ => wfPipeline p
  | .nhLineArrival g _ => wfL2Group g
  | .l2Learn g => wfL2Group g
  | .l2AgeScan g => wfL2Group g
  | .auditPeriod _ => true
  | .auditRecheck _ => true
  | .lookup n _ => wfFlowSlice n
  | .tokenGranted p => wfPipeline p
  | .bucketArrival _ _ => true
  | .recordArrival _ _ => true
  | .setupReadsComplete _ _ => true
  | .setupWritesAcknowledged _ => true
  | .setupTimeout _ => true
  | .writeback n => wfFlowSlice n
  | .foldPeriod n => wfFlowSlice n
  | .ageScan _ => true
  | .ageDecide n => wfFlowSlice n
  | .removalComplete n => wfFlowSlice n
  | .rehashCopy _ => true
  | .rehashSwitch => true
  | .surrenderRequest n => wfFlowSlice n
  | .rehashChangeoverEnd => true
  | .resizeStep => true
  | .flowWalk n _ => wfOpSlot n
  | .loadRecord n _ => wfOpSlot n
  | .sliceBankSpare n _ _ => wfFlowSlice n
  | .sliceOnlineBist n _ _ => wfFlowSlice n
  | .cacheModeSettled => true
  | .itemDispatch => true
  | .prefetchComplete a _ => wfAwl a
  | .next a => wfAwl a
  | .jump a => wfAwl a
  | .branch a => wfAwl a
  | .call a => wfAwl a
  | .ret a => wfAwl a
  | .wait a => wfAwl a
  | .park a => wfAwl a
  | .finish a => wfAwl a
  | .localRd a => wfAwl a
  | .localWr a => wfAwl a
  | .adRead a => wfAwl a
  | .adWrite a => wfAwl a
  | .slice a => wfAwl a
  | .hash a => wfAwl a
  | .poolGet a => wfAwl a
  | .poolPut a => wfAwl a
  | .release a => wfAwl a
  | .count a => wfAwl a
  | .emit a => wfAwl a
  | .memOpComplete _ _ => true
  | .yieldPoint a => wfAwl a
  | .awlPairMismatch a => wfAwl a
  | .itemFault a => wfAwl a
  | .closerApply => true
  | .classAgeAlarm _ => true
  | .awlTimer _ _ _ => true
  | .heelPageWrite u => wfUqueue u
  | .heelPageRead u _ => wfUqueue u
  | .dequeue e _ _ => wfPipeline e
  | .xbarArbitrate e => wfPipeline e
  | .xbarWeightUpdate e => wfPipeline e
  | .editor p => wfPipeline p
  | .editEnd p => wfPipeline p
  | .set p => wfPipeline p
  | .add p => wfPipeline p
  | .decTtl p => wfPipeline p
  | .push p => wfPipeline p
  | .pop p => wfPipeline p
  | .copy p => wfPipeline p
  | .fixlen p => wfPipeline p
  | .xlate p => wfPipeline p
  | .tcCorr p => wfPipeline p
  | .frameTransmit q _ cut => wfPort q && match cut with
    | .badCell bank => decide (bank < 32)
    | _ => true
  | .mcReplicate d => wfHalf d
  | .mcResidueRetry d => wfHalf d
  | .mcResidueExpiry d => wfHalf d
  | .bufferScrub h _ => wfHalf h
  | .bufferOnlineBist h _ => wfHalf h
  | .meterRequest _ _ => true
  | .meterBacklogAlarm _ => true
  | .bucketRefresh => true
  | .queueSample e => wfPipeline e
  | .bringupSuccess k _ _ _ => wfLinkKey k
  | .bringupTimeout k _ _ => wfLinkKey k
  | .retryTimer k => wfLinkKey k
  | .upStable k => wfLinkKey k
  | .localFault k _ _ => wfLinkKey k
  | .remoteFault k => wfLinkKey k
  | .remoteFaultClear k _ => wfLinkKey k
  | .portEnableWrite q _ => wfPort q
  | .fecDegradeWindow k _ _ _ _ => wfLinkKey k
  | .lpiEnter q => wfPort q
  | .lpiWake q => wfPort q
  | .mgmtFrameReceive _ => true
  | .mgmtStatRead _ => true
  | .flexeOhFrame m _ _ => wfFxMember m
  | .flexeMultiframe g _ _ _ => wfFxGroup g
  | .flexeCaTimeout g => wfFxGroup g
  | .flexeRealign g _ => wfFxGroup g
  | .seamHelloReceived u _ => wfFxMember u
  | .seamReportReceived u _ _ => wfFxMember u
  | .seamNegotiateTimeout g => wfFxGroup g
  | .seamReportTimeout g => wfFxGroup g
  | .seamRetry g => wfFxGroup g
  | .pmSecond => true
  | .pmBinClose _ => true
  | .hbmRequestIssue n _ _ => wfPc n
  | .hbmAgePromotion n => wfPc n
  | .hbmReadComplete n _ => wfPc n
  | .hbmRefresh n _ => wfPc n
  | .hbmRetrain _ => true
  | .hbmReadTimeout n => wfPc n
  | .patrolScrub _ _ _ _ => true
  | .hbmStackTemperature st _ => wfStack st
  | .rxDeliver r => wfRing64 r
  | .rxBufferRetry r => wfRing64 r
  | .rxNobufTimeout r => wfRing64 r
  | .txPipeline r _ _ => wfRing64 r
  | .txDirect r _ _ => wfRing64 r
  | .txGroup r _ _ => wfRing64 r
  | .dmaDescriptor c _ _ _ => wfChannel c
  | .dmaComplete c => wfChannel c
  | .get requester _ _ => wfRequester requester
  | .share requester _ _ => wfRequester requester
  | .bufferRelease requester _ => wfRequester requester
  | .handover requester _ _ => wfRequester requester
  | .free requester _ => wfRequester requester
  | .todAnchor => true
  | .todStale => true
  | .todSet _ _ => true
  | .servoOffsetWrite _ => true
  | .ppsInEdge => true
  | .ppsInLost => true
  | .servoHoldover => true
  | .servoReset => true
  | .ppsOutRise => true
  | .ppsOutFall => true
  | .chainWrite _ _ => true
  | .counterRestart _ => true
  | .dumpSnapshot => true
  | .dumpNow => true
  | .dumpWrite => true
  | .bwWindow q => wfPort q
  | .ipfixFlush st => wfStream st
  | .templateRefresh st => wfStream st
  | .statsInterval st => wfStream st
  | .domainSleep d => wfDomain d
  | .domainWake d => wfDomain d
  | .wakeAdmit => true
  | .wakeDelayed d => wfDomain d
  | .powerDmaAbort c d => wfDomain d && wfChannel c
  | .heartbeat _ _ => true
  | .heartbeatTimeout _ => true
  | .clockFault _ _ => true
  | .envSample _ _ _ => true
  | .sramScrub _ _ => true
  | .patternRecheck _ => true
  | .d2dCrcError _ _ => true
  | .faultDetected _ _ _ _ _ => true
  | .faultNPulseEnd => true
  | .faultAck _ => true
  | .safeStopInput _ => true
  | .rollbackAdvance _ => true
  | .ownerFuse h => wfHash48 h
  | .mgmtLink _ => true
  | .refclkReturn => true
  | .powerUp => true
  | .rxLpi q _ => wfPort q
  | .longopUnitDone n _ => wfOpSlot n

end Sys2Proof
end

