-- ==== Sys2Proof/Tests/Slice0.lean ====
section
/-! SUPPORT. The author's own tests: witnesses of the statements' hypotheses, worked examples of the spec, and ill-formed commands. -/
namespace Sys2Proof.Machine

set_option Elab.async false

/-- Reset with other start-up and safety fields. -/
def wSafe (f : Safety → Safety) : State := { State.reset with safe := f State.reset.safe }

/-- A running device: step 9 done, the clocks run, the default pattern is active. -/
def wRun : State := wSafe fun f => { f with
  resetN := true, clocks := true, bootDone := [1, 2, 3, 4, 5, 6, 7, 8, 9], cobblerReady := true, patternActive := true,
  outputsStarted := true }

theorem witness_StepRunsFront : ({ State.reset with pending := [.pllLocked] } : State).pending = .pllLocked :: [] := rfl

theorem witness_EmptyQueueTicks :
    let s : State := wSafe fun f => { f with clocks := true, guarantee := 16 }
    s.pending = [] ∧ s.safe.clocks = true ∧ s.safe.refclkLost = false ∧ s.safe.tclkLost = false ∧ s.safe.admitted = [] ∧
      guaranteeNow s = s.safe.guarantee.toNat := by decide +kernel

theorem witness_EventRecord :
    let s : State := { State.reset with host := { State.reset.host with
      rate := 5, rings := [(1, { ringReset 1 with enable := true, stopped := false })] } }
    s.safe.refclkLost = false ∧ eventQueue s 0x0E02 false = 0 ∧ (ring s (evKey 0)).enable = true ∧
      (ring s (evKey 0)).stopped = false ∧ s.host.rate ≠ 0 ∧ ringFill (ring s (evKey 0)) < ringSize (ring s (evKey 0)) ∧
      (ring s (evKey 0)).shadowEn = false ∧ bit (tget msixReset s.host.msix (ring s (evKey 0)).vector.toNat).ctrl 0 = true := by
  decide +kernel

theorem witness_EventDiscard : State.reset.safe.refclkLost = false ∧
    ¬ ((ring State.reset (evKey (eventQueue State.reset 0x0E02 false))).enable = true) := by decide +kernel

/-! ### Requests, patterns and long operations -/

/-- A running device whose mailbox holds a request. -/
def wMail (ty sub : Nat) (staged : Bool) (body : Bytes) (s : State) : State :=
  { s with ctl := { s.ctl with mbx := { s.ctl.mbx with
    busy := true,
    request := writeBytes [] 0
      (leBytes 1 ty ++ leBytes 16 (body.length * 2 ^ 16 + sub * 2 ^ 8 + 2 + b2n staged) ++ body) } } }

/-- A running device with another control part. -/
def wCtl (f : Control → Control) : State := { wRun with ctl := f wRun.ctl }

/-- A long operation. -/
def wOp (kind state : Nat) : LongOp := {
  kind := kind, state := state, done := 0, total := 0, result := 0, started := 0, requester := 0, ran := true,
  suspendAsked := false, order := 0, finished := 0, params := [], generation := 0, written := 0 }

/-- A commit of two pipelines' tables. -/
def wCommit (f : Commit → Commit) : Commit := f {
  revert := false, boot := false, op := none, asker := { who := 0, msg := [] }, begun := false, announced := false,
  fns := [.switchCore, .port 3], advance := true, oldSlot := emptySlot, newSlot := emptySlot, newTables := emptyBank,
  liveDone := false, t0 := 0, longest := 0, accepted := 0 }

theorem witness_read : MailboxRequest (wMail 0x10 0 false (leBytes 8 0) wRun) 0x10 0 false (leBytes 8 0) ∧
    ((objRow (oa 0x2005 0 0)).map fun r => decide (r.access ≠ 3)) = some true ∧
    8 + (padMul 8 (objValue (oa 0x2005 0 0) (wMail 0x10 0 false (leBytes 8 (oa 0x2005 0 0)) wRun))).length ≤ 4079 ∧
    MailboxRequest (wMail 0x10 0 false (leBytes 8 (oa 0x2005 0 0)) wRun) 0x10 0 false (leBytes 8 (oa 0x2005 0 0)) ∧
    objRow 0 = none := by decide +kernel

theorem witness_write :
    let a := oa 0x2005 0 0
    let b := entryWord 1 0 false a ++ padMul 8 [1]
    let s := wMail 0x11 0 false b wRun
    let r : Req := { who := 0, role := 2, v1 := false, limit := 4079, msg := mbxMsg s }
    a < 2 ^ 36 ∧ MailboxRequest s 0x11 0 false b ∧ s.ctl.commit = none ∧ (workOf s 0).segWrite = none ∧
      (objRow a).map (·.access) = some 1 ∧ oaIndex a ≠ 0x1020 ∧ writeRefused r false a 0 [1] s = stOk ∧
      writeRefused r false a 0 [2] s ≠ stOk := by decide +kernel

theorem witness_writeStaged :
    let a := oa 0x2010 0 0
    let b := entryWord 1 0 false a ++ padMul 8 [1]
    let s := wMail 0x11 0 true b wRun
    let r : Req := { who := 0, role := 2, v1 := false, limit := 4079, msg := mbxMsg s }
    MailboxRequest s 0x11 0 true b ∧ writeRefused r true a 0 [1] s = stOk ∧
      writeRefused r false a 0 [1] s = stStopRequired ∧ (objRow a).map (·.access) = some 2 := by decide +kernel

theorem witness_describeList : (let b := leBytes 8 (oa 0x2005 0 0)
    MailboxRequest (wMail 0x12 0 false b wRun) 0x12 0 false b ∧ (objRow (oa 0x2005 0 0)).isSome = true) ∧
    (let b := leBytes 8 0 ++ leBytes 8 (2 ^ 36 - 1)
     MailboxRequest (wMail 0x13 0 false b wRun) 0x13 0 false b) := by decide +kernel

theorem witness_readImage :
    let s := wMail 0x20 5 false (List.replicate 8 0) (wCtl fun c => { c with active := { c.active with state := 2 } })
    MailboxRequest s 0x20 5 false (List.replicate 8 0) ∧ s.ctl.active.state ≠ 0 := by decide +kernel

theorem witness_patternWork :
    (let b := List.replicate 8 (0 : Byte) ++ List.replicate 32 0
     let s := wMail 0x20 0 false b wRun
     MailboxRequest s 0x20 0 false b ∧ msgLast (mbxMsg s) = true ∧ s.ctl.commit = none ∧ s.ctl.drain = none) ∧
    MailboxRequest (wMail 0x20 4 false [] wRun) 0x20 4 false [] ∧
    (let s := wMail 0x20 1 false [] wRun
     MailboxRequest s 0x20 1 false [] ∧ s.ctl.loadOpen = false) := by decide +kernel

theorem witness_commitAccepted :
    (let s := wMail 0x20 2 false (leBytes 4 0) (wCtl fun c => { c with staged := { c.staged with state := 2 } })
     MailboxRequest s 0x20 2 false (leBytes 4 s.ctl.generation.toNat) ∧ s.ctl.staged.state = 2 ∧ s.ctl.commit = none ∧
       s.ctl.drain = none ∧ s.ctl.ops = []) ∧
    (let s := wMail 0x20 3 false [] (wCtl fun c => { c with previous := { c.previous with state := 2 } })
     MailboxRequest s 0x20 3 false [] ∧ s.ctl.previous.state = 2 ∧ s.ctl.commit = none ∧ s.ctl.drain = none ∧
       s.ctl.ops = []) ∧
    (let s := wMail 0x20 2 false (leBytes 4 1) wRun
     MailboxRequest s 0x20 2 false (leBytes 4 1) ∧ 1 ≠ s.ctl.generation.toNat) := by decide +kernel

theorem witness_commitReachesT0 :
    (let c := wCommit fun c => { c with fns := [.tables 0] }
     let s := wCtl fun x => { x with commit := some c }
     s.ctl.commit = some c ∧ c.announced = false ∧ s.safe.cobblerReady = true ∧ raw s + cyc 2000 ≤ 10000 ∧
       ∀ p ∈ c.fns.flatMap fnPipelines, (hdrFifo s p).length ≤ 8192) ∧
    (let c := wCommit fun c => { c with fns := [.tables 0] }
     let s := { wCtl (fun x => { x with commit := some c }) with
       time := { wRun.time with raw := 1600000 }, path := { wRun.path with hdr := [(2, List.replicate 8193 0)] } }
     s.ctl.commit = some c ∧ c.op = none ∧ c.asker.who = 0 ∧ c.accepted + cyc 2000000 ≤ raw s ∧
       ∃ p ∈ c.fns.flatMap fnPipelines, 8192 < (hdrFifo s p).length) ∧
    (let c := wCommit fun c => { c with announced := true }
     let s := wCtl fun x => { x with commit := some c }
     s.ctl.commit = some c ∧ c.begun = false ∧ c.t0 ≤ raw s ∧ ∃ f ∈ c.fns, linkFn f = false) ∧
    (wCtl fun x => { x with stopped := [(.switchCore, 0)] }).ctl.commit = none := by decide +kernel

theorem witness_commitAnswer :
    let c := wCommit fun c => { c with announced := true, begun := true }
    let s := wCtl fun x => { x with commit := some c }
    s.ctl.commit = some c ∧ c.begun = true ∧ fastLeft s = false ∧ s.safe.cobblerReady = true := by decide +kernel

theorem witness_drain :
    (let s := wCtl fun x => { x with drain := some { old := 0, since := 0 } }
     s.ctl.drain = some { old := 0, since := 0 } ∧ tget 0 s.ctl.epochCount 0 = 0) ∧
    (let s := { wCtl (fun x => { x with drain := some { old := 0, since := 0 }, epochCount := [(0, 1)] }) with
       time := { wRun.time with raw := 10 ^ 12 } }
     tget 0 s.ctl.epochCount 0 ≠ 0 ∧ 0 + cyc (cfgN s 0x1105 0 0) ≤ raw s ∧ s.path.pkts = []) := by decide +kernel

theorem witness_start :
    let b := ([7, 0, 0, 0] : Bytes) ++ leBytes 4 8 ++ [255, 0, 0, 0, 0, 0, 0, 0]
    let s := wMail 0x30 0 false b wRun
    MailboxRequest s 0x30 0 false b ∧ s.ctl.ops = [] ∧ s.ctl.commit = none ∧
      opRefused 7 [255, 0, 0, 0, 0, 0, 0, 0] s = none := by decide +kernel

theorem witness_controls :
    (let s := wMail 0x30 1 false [0] (wCtl fun c => { c with ops := [(0, wOp 7 2)] })
     MailboxRequest s 0x30 1 false [0] ∧ tfind s.ctl.ops 0 = some (wOp 7 2) ∧ opSuspends (wOp 7 2) = true) ∧
    (let s := wMail 0x30 2 false [0] (wCtl fun c => { c with ops := [(0, wOp 7 3)] })
     MailboxRequest s 0x30 2 false [0] ∧ (wOp 7 3).state = 3) ∧
    (let s := wMail 0x30 3 false [0] (wCtl fun c => { c with ops := [(0, wOp 7 2)] })
     MailboxRequest s 0x30 3 false [0] ∧ opCancels (wOp 7 2) s = true ∧ (wOp 7 1).state = 1) ∧
    (let s := wMail 0x30 4 false [0] (wCtl fun c => { c with ops := [(0, wOp 7 2)] })
     MailboxRequest s 0x30 4 false [0]) := by decide +kernel

theorem witness_progress :
    (∀ k ∈ [1, 2, 3, 4, 5, 6, 7, 8, 9, 11], let s := wCtl fun c => { c with ops := [(0, wOp k 1)] }
     tfind s.ctl.ops 0 = some (wOp k 1) ∧ s.flow.holds = [] ∧ opClear 0 (wOp k 1) s = true) ∧
    ((wOp 11 2).state = 2 ∧ (wOp 11 2).kind = 11 ∧ (wOp 7 2).total ≤ (wOp 7 2).done ∧ (wOp 7 4).state = 4 ∧ 5 < (wOp 6 4).kind) ∧
    (let s := wCtl fun c => { c with ops := [(0, wOp 10 1)], staged := { c.staged with state := 2 } }
     s.ctl.ops = [(0, wOp 10 1)] ∧ s.ctl.commit = none ∧ s.ctl.drain = none ∧
       (wOp 10 1).generation = s.ctl.generation.toNat ∧ s.ctl.staged.state = 2) := by decide +kernel

/-- A session of the access key 0x0102. -/
def wSession : Session := {
  id := 7, keyId := 0x0102, key := [1, 2, 3], major := 2, minor := 1, highest := 5, seen := [], txCounter := 0, answers := [],
  since := 0 }

/-- A running device with an access key and a session. -/
def wPsindo : State := wCtl fun c => { c with
  sessions := [(1, wSession)],
  keys := [(oa 0x1020 0 0, [2, 1]), (oa 0x1020 0 1, [9]), (oa 0x1020 0 2, [2, 0, 0, 0]), (oa 0x1020 0 3, [1])] }

/-- A datagram with a right tag. -/
def wDatagram (key : Bytes) (counter session : Nat) (ty : Nat) (body : Bytes) : Bytes :=
  let h := psindoHeader counter session 0x0102 1 2 ++ leBytes 1 ty ++ leBytes 16 (body.length * 2 ^ 16 + 2) ++ body
  h ++ hmacSha256 key h

theorem witness_sessions :
    (let d := wDatagram [] 9 3 0x10 []
     psindoUp wPsindo = true ∧ msgRow (dgramMsg d) = (0x10, 0) ∧ msgType (dgramMsg d) ≠ 1 ∧
       sessionById wPsindo (leNat (slice d 4 4)) = none) ∧
    (let d := wDatagram [] 9 3 0x01 []
     msgRow (dgramMsg d) = (0x01, 0) ∧ keyOf wRun (leNat (slice d 2 2)) = none ∧ psindoUp wRun = true) ∧
    MailboxRequest (wMail 0x01 0 false [] wRun) 0x01 0 false [] ∧
    (let s := { wPsindo with time := { wRun.time with raw := 10 ^ 12 } }
     sessionOf s 1 = some wSession ∧ wSession.since + idleCycles s ≤ raw s ∧ tsorted s.ctl.sessions = true) ∧
    (let s := { wCtl (fun c => { c with sessions := [(9, wSession)] }) with time := { wRun.time with raw := 10 ^ 12 } }
     sessionOf s 9 = some wSession ∧ wSession.since + idleCycles s ≤ raw s ∧ tsorted s.ctl.sessions = true) := by
  decide +kernel

theorem witness_helloBye :
    (let d := wDatagram [9] 0 0 0x01 ([2, 0, 2, 1] ++ List.replicate 16 0)
     psindoUp wPsindo = true ∧ msgRow (dgramMsg d) = (0x01, 0) ∧ keyOf wPsindo (leNat (slice d 2 2)) = some 0 ∧
       tagOk (cfgB wPsindo (oa 0x1020 0 1)) d = true ∧ (msgBody (dgramMsg d)).length = 20 ∧ msgSub (dgramMsg d) = 0 ∧
       (dgramMsg d).length = 37 ∧
       msgLen (dgramMsg d) = 20 ∧ chooseVersion 2 0 2 1 = some (2, 1) ∧
       (msgBody (dgramMsg d)).take 4 = [2, 0, 2, 1] ∧ freeSession wPsindo = some 2 ∧ wPsindo.ctl.sessions.length ≤ 1000) ∧
    (let d := wDatagram [1, 2, 3] 9 7 0x02 []
     msgRow (dgramMsg d) = (0x02, 0) ∧ msgKnown (dgramMsg d) = true ∧ msgType (dgramMsg d) = 2 ∧
       tsorted wPsindo.ctl.sessions = true ∧ msgBody (dgramMsg d) = [] ∧ msgLen (dgramMsg d) = 0 ∧ (dgramMsg d).length = 17 ∧
       17 ≤ (dgramMsg d).length ∧ sessionById wPsindo (leNat (slice d 4 4)) = some 1 ∧
       sessionOf wPsindo 1 = some wSession ∧ (keyOf wPsindo (leNat (slice d 2 2))).isSome = true ∧
       tagOk wSession.key d = true ∧ counterOk wSession (leNat (slice d 8 8)) = true ∧
       (wSession.answers.find? fun p => p.1 == msgSeq (dgramMsg d)) = none) := by
  decide +kernel

theorem witness_objectWrite : wRun.safe.cobblerReady = true ∧ inRecovery wRun = false ∧ wRun.ctl.commit = none ∧
    leNat ([0xEE, 5] : Bytes) = 1518 ∧ leNat ([0xED, 5] : Bytes) < 1518 ∧ objRow (oa 0x2006 1024 0) = none := by decide +kernel

theorem witness_registerWrite : wRun.safe.resetN = true ∧ wRun.safe.pwrOk = true ∧ State.reset.safe.resetN = false := by
  decide +kernel

/-! ### Ports -/

/-- A running device with objects, one link in a given condition, and a raw count. -/
def wLink (objs : Tbl Bytes) (k : Nat) (f : Link → Link) (t : Nat) : State :=
  { wRun with
    ports := { wRun.ports with links := [(k, f linkReset)] }, time := { wRun.time with raw := BitVec.ofNat 64 t },
    ctl := { wRun.ctl with active := { wRun.ctl.active with objs := objs } } }

/-- Port 3 as 200GBASE-R2 on lanes 8 and 9. -/
def wMode : Tbl Bytes := [(oa 0x2000 3 0, leBytes 4 9), (oa 0x2001 3 0, [8])]

theorem witness_bringup :
    let s := wLink wMode 3 (fun l => { l with state := 1 }) 400000000
    (link s 3).state = 1 ∧ s.safe.safeStop = false ∧ raw s ≤ (link s 3).attempt + cyc 500000000 ∧
      linkMedium s 3 = 0 ∧ resolveMode (advertised s 3) (2 ^ 9) = some 9 ∧ tcanon bucketReset s.tm.buckets = true ∧
      (∀ o ∈ [0, 1, 2, 3], cfgOn s 0x7040 o 0 = false ∧ tget 0 s.time.recclk o = 0) ∧
      linkMedium (wLink ((oa 0x2002 3 0, leBytes 4 2) :: wMode) 3 id 0) 3 ≠ 0 ∧
      (link (wLink wMode 3 (fun l => { l with state := 1 }) 400000000) 3).attempt + cyc 500000000 ≤ raw s := by decide +kernel

theorem witness_retry :
    (let s := wLink wMode 3 (fun l => { l with state := 4 }) 800000000
     (link s 3).state = 4 ∧ (link s 3).timer + (link s 3).wait * cycSecond ≤ raw s) ∧
    (let s := wLink wMode 3 (fun l => { l with state := 2, wait := 8 }) 24000000000
     (link s 3).state = 2 ∧ (link s 3).upSince + 30 * cycSecond ≤ raw s) := by decide +kernel

theorem witness_portEnable :
    let s : State := { wLink wMode 3 id 0 with ports := wRun.ports }
    (3 : Nat) < 1024 ∧ (link s 3).state = 0 ∧ linkMode s 3 ≠ 0 ∧ quadsAwake s 3 = true ∧ s.safe.outputsStarted = true ∧
      s.safe.safeStop = false ∧ tcanon linkReset s.ports.links = true ∧ s.ctl.commit = none := by decide +kernel

theorem witness_laneRate : ∀ n ∈ [0, 1, 2, 4],
    let s := wLink wMode 3 (fun l => { l with state := n, resolved := 9, lpi := 1 }) 0
    laneOwner s 8 = some 3 ∧ s.safe.outputsStarted = true ∧ s.safe.safeStop = false ∧ (link s 3).state = n ∧ (link s 3).lpi = 1 ∧
      (linkLanes s 3 (link s 3).resolved).contains 8 = true ∧ laneOwner s 500 = none ∧ (link s 4).lpi ≠ 1 := by decide +kernel

theorem witness_linkFaults : (link (wLink wMode 3 (fun l => { l with state := 2 }) 5) 3).state = 2 ∧
    (link (wLink wMode 3 (fun l => { l with state := 3 }) 5) 3).state = 3 ∧ (9999999 : Nat) < 10000000 := by decide +kernel

theorem witness_fec :
    let s := wLink ((oa 0x200B 3 1, [1]) :: wMode) 3 (fun l => { l with state := 2 }) 5
    (15 < cfgN s 0x200B 3 0 ∧ cfgN s 0x200B 3 0 ≤ 16) ∧ cfgOn s 0x200B 3 1 = true ∧ (link s 3).state = 2 ∧
      cfgOn (wLink wMode 3 id 0) 0x200B 3 1 = false := by decide +kernel

/-- Port 3 as 25GBASE-R with LPI enabled. -/
def wLpi : Tbl Bytes := [(oa 0x2000 3 0, leBytes 4 2), (oa 0x200A 3 0, [1])]

theorem witness_lpi :
    let s := wLink wLpi 3 (fun l => { l with state := 2, resolved := 2, eee := true }) 16000
    linkUp s 3 = true ∧ lpiAllowed s 3 = true ∧ (link s 3).lpi ≠ 1 ∧ (link s 3).lastTx + cyc (cfgN s 0x200A 3 1) ≤ raw s ∧
      portQueuesEmpty 3 s = true ∧ (link s 3).rxLpi = !true := by decide +kernel

theorem witness_lpiWake :
    let s : State := { wLink wLpi 3 (fun l => { l with state := 2, resolved := 2, eee := true, lpi := 1 }) 16000 with
      path := { wRun.path with
        pkts := [(0, { noPacket with port := 5, rxLen := 64, cells := 1, written := 1, place := 1 })]
        uq := [(24, { uqReset with list := [{ pid := 0, edit := 0, cls := 0, nh := none, ecn := false, dscp := none, cut := false, ptp := 0 }] })] } }
    (link s 3).lpi = 1 ∧ portHasEligible 3 s = true ∧
      (link (wLink wLpi 3 (fun l => { l with lpi := 2 }) 0) 3).lpi = 2 ∧ (0 : Nat) < 0 + 800 * max 17 0 := by decide +kernel

theorem witness_mgmtLink : (wSafe fun f => { f with bootDone := [1, 2, 3, 4, 5] }).ports.mgmtUp = !true ∧
    5 ∈ (wSafe fun f => { f with bootDone := [1, 2, 3, 4, 5] }).safe.bootDone ∧
    (wSafe fun f => { f with bootDone := [1, 2, 3, 4, 5] }).safe.bootState ≠ 2 := by decide +kernel

/-- A management port that is up, with a promiscuous filter when asked, and a ring. -/
def wMgmt (promisc ring : Byte) : State :=
  { wLink [(oa 0x2074 0 0, [promisc]), (oa 0x2075 0 0, [ring])] 0 id 0 with ports := { wRun.ports with mgmtUp := true } }

theorem witness_mgmtFrame :
    let f : Bytes := [2, 0, 0, 0, 0, 1] ++ List.replicate 54 0
    (wMgmt 0 0).ports.mgmtUp = true ∧ 60 ≤ f.length ∧ f.length ≤ 9212 ∧ isMacControl f = false ∧ mgmtAccepts (wMgmt 0 0) f = false ∧
      mgmtAccepts (wMgmt 1 0) f = true ∧ isIpv6 f 17 = false ∧ isIpv6 f 58 = false ∧ cfgN (wMgmt 1 0) 0x2075 0 0 < 64 ∧
      cfgN (wMgmt 1 255) 0x2075 0 0 = 0xFF ∧ crc32 f ≠ 0 := by decide +kernel

/-! ### Frames and the switch core -/

/-- Port 3 up as 200GBASE-R2, with packets and a path. -/
def wPath (f : Path → Path) (objs : Tbl Bytes := []) (t : Nat := 0) : State :=
  { wLink (wMode ++ objs) 3 (fun l => { l with state := 2, resolved := 9 }) t with path := f wRun.path }

theorem witness_frameReceive :
    let s := wPath id
    let big := wPath fun p => { p with pkts := [(0, { noPacket with half := 0, written := 327650 })], nextPid := 1 }
    (3 : Nat) < 1024 ∧ portUp s 3 = true ∧ (List.replicate 63 (0 : Byte)).length < 64 ∧
      isMacControl (List.replicate 12 0 ++ [0x88, 0x08] ++ List.replicate 50 0) = true ∧
      isMacControl (List.replicate 64 0) = false ∧ halfAccepts s 0 = true ∧ hdrFull s 0 = false ∧
      halfAccepts big 0 = false ∧ 64 ≤ cfgN s 0x2006 3 0 ∧
      (let u := wPath fun p => { p with hdr := [(0, List.replicate 32768 9)] }
       portUp u 3 = true ∧ hdrFull u 0 = true ∧ halfAccepts u 0 = true) := by decide +kernel

/-- A packet that still arrives, in a place. -/
def wPkt (place written : Nat) : Packet :=
  { noPacket with port := 3, rxLen := 600, cells := 3, written := written, place := place, ended := false }

/-- A frame at a MAC. -/
def wTx (started : Bool) : TxFrame :=
  { pid := 7, frame := List.replicate 60 1, corr := none, ptp := 0, ring := none, ts := 0, inPort := 3, sel := 0, started := started }

theorem witness_frameEnd :
    (let s := wPath fun p => { p with pkts := [(7, wPkt 0 1)] }
     tfind s.path.pkts 7 = some (wPkt 0 1) ∧ (wPkt 0 1).ended = false ∧ (wPkt 0 1).place < 3 ∧ (wPkt 0 1).written ≤ (wPkt 0 1).cells ∧
       0 < (wPkt 0 1).rxLen ∧ (wPkt 0 1).port < 1024 ∧ ctrGet s (oa 0x2020 3 0) + 600 < 2 ^ 39 ∧
       (wPkt 0 1).cells - (wPkt 0 1).written ≤ halfFree s 0) ∧
    (let s := wPath fun p => { p with pkts := [(7, wPkt 1 1), (8, { noPacket with written := 327678 })] }
     halfFree s 0 < 3 - 1 ∧ tfind s.path.pkts 7 = some (wPkt 1 1)) ∧
    (let s := wPath fun p => { p with pkts := [(7, wPkt 3 0), (8, { noPacket with written := 327680 })], tx := [(3, [wTx true])] }
     tfind s.path.pkts 7 = some (wPkt 3 0) ∧ inFlight s 7 = true ∧ 2 ≤ (wPkt 3 0).cells ∧ halfFree s 0 = 0 ∧
       ctrGet s (oa 0x5010 0 3) + 1 < 2 ^ 48) ∧
    (let s := wPath fun p => { p with pkts := [(7, wPkt 3 0)] }
     (wPkt 3 0).place = 3 ∧ inFlight s 7 = false ∧ tsorted s.path.pkts = true) ∧
    (let s := wPath fun p => { p with pkts := [(7, noPacket)] }
     tfind s.path.pkts 7 = some noPacket ∧ noPacket.ended = true) := by decide +kernel

/-- Port 3's MAC holds a frame of a packet. -/
def wSend (started ended : Bool) (err : Nat) : State :=
  wPath fun p => { p with pkts := [(7, { wPkt 1 3 with ended := ended, err := err })], tx := [(3, [wTx started])] }

theorem witness_frameTransmit :
    (∀ b ∈ [true, false], ∀ e ∈ [true, false], ∀ n ∈ [0, 1, 2],
      let s := wSend b e n
      tget [] s.path.tx 3 = wTx b :: [] ∧ tcanon [] s.path.tx = true ∧ portUp s 3 = true ∧ (pkt s 7).ended = e ∧
        (pkt s 7).err = n ∧ (wTx b).started = b ∧ (wTx b).ptp = 0 ∧ (wTx b).corr = none) ∧
    portUp { wSend false true 0 with ports := wRun.ports } 3 = false := by decide +kernel

theorem witness_frameTransmitBad : ∀ b ∈ [true, false], (tfind (wSend b true 0).path.pkts 7).isSome = true := by decide +kernel

/-- A page with one frame of 15 cells. -/
def wPage (a : Nat) : HeelPage := { addr := a, parts := [(7, 15)], heads := 1 }

theorem witness_heel :
    (let s := wPath fun p => { p with
        pkts := [(7, { wPkt 1 15 with ended := true })], uq := [(24, { uqReset with spill := true, full := [wPage 0] })] }
     (uq s 24).full = wPage 0 :: [] ∧ s.path.heelPaused = false ∧ (∀ p ∈ (wPage 0).parts, (pkt s p.1).ended = true) ∧
       ((wPage 0).parts.map (·.1)).Nodup ∧ (heelAlloc s).isSome = true) ∧
    (let s := wPath fun p => { p with
        pkts := [(7, { wPkt 1 0 with ended := true })]
        uq := [(24, { uqReset with spill := true, pages := [wPage (52 * gb), wPage (52 * gb + 4096)] })] }
     (uq s 24).pages = wPage (52 * gb) :: [wPage (52 * gb + 4096)] ∧ (uq s 24).back.length < cfgN s 0x5009 0 0 ∧
       tcanon uqReset s.path.uq = true) ∧
    (let s := wPath fun p => { p with
        uq := [(24, { uqReset with spill := true, pages := [wPage (52 * gb)], back := List.replicate 16 (wPage 0) })] }
     (uq s 24).pages = wPage (52 * gb) :: [] ∧ cfgN s 0x5009 0 0 ≤ (uq s 24).back.length) := by decide +kernel

/-- A replication with two targets left. -/
def wRep (res : List (Nat × Nat × Nat)) (walked : Bool) : Replica :=
  { pid := 7, flooded := true, todo := [5, 6], accepted := 0, residue := res, since := 0, walked := walked, cls := 0, edit := 0,
    dscp := none }

/-- Its engine, with target 5 as given. -/
def wEngine (target : BitVec 32) (res : List (Nat × Nat × Nat)) (walked : Bool) (t : Nat := 0) : State :=
  let s := wPath (fun p => { p with pkts := [(7, { wPkt 2 3 with port := 9, refs := 1, ended := true })], repl := [(0, [wRep res walked])] }) [] t
  { s with fwd := { s.fwd with mcTarget := [(5, target)] } }

theorem witness_replicate :
    let s := wEngine 0x80000003#32 [(3, 0, 0)] false
    (engine s 0).find? (fun r => !r.walked) = some (wRep [(3, 0, 0)] false) ∧ (wRep [(3, 0, 0)] false).todo = 5 :: [6] ∧
      mtValid (mcTarget s 5) = true ∧ mtPort (mcTarget s 5) = 3 ∧ (pkt s 7).port = 9 ∧ portUp s 3 = true ∧
      hasResidue s (2 * 3 + mclass s 0) = true := by decide +kernel

theorem witness_replicateOthers :
    mtValid (mcTarget (wEngine 0 [] false) 5) = false ∧ mtPort (mcTarget (wEngine 0x80000009#32 [] false) 5) = 9 ∧
      mtPort (mcTarget (wEngine 0x80000008#32 [] false) 5) = 8 ∧ portUp (wEngine 0x80000008#32 [] false) 8 = false := by decide +kernel

theorem witness_replicateTakes :
    let s := wEngine 0x80000003#32 [] false
    hasResidue s (2 * 3 + mclass s 0) = false ∧ flowInEngine s 1 7 (2 * 3 + mclass s 0) = false ∧
      mcTakes s 3 (2 * 3 + mclass s 0) = true := by decide +kernel

theorem witness_residue :
    let s := wEngine 0x80000003#32 [(3, 0, 0)] true 80000
    residueReady s 0 (engine s 0) [] = some (wRep [(3, 0, 0)] true, (3, 0, 0)) ∧ tcanon [] s.path.repl = true ∧
      (engine s 0).find? (fun r => r.walked && !r.residue.isEmpty && decide (r.since + cyc (cfgN s 0x500B 0 0) ≤ raw s)) =
        some (wRep [(3, 0, 0)] true) := by decide +kernel

theorem witness_banks :
    (15 < cfgN wRun 0x500D 0 0 ∧ cfgN wRun 0x500D 0 0 ≤ 16) ∧ (halfSpare wRun 0).1 = 0 ∧ cfgOn wRun 0x500E 0 0 = true ∧
      (∀ k ∈ [1, 2], (halfSpare (wPath fun p => { p with spare := [(0, (k, 4))] }) 0).1 = k) := by decide +kernel

/-! ### The traffic manager -/

/-- A queue entry of packet 7. -/
def wEntry : QEntry := { pid := 7, edit := 0, cls := 0, nh := none, ecn := false, dscp := none, cut := false, ptp := 0 }

/-- Port 3 with packet 7 as given on its queue of class 0. -/
def wQueue (p : Packet) (objs : Tbl Bytes := []) (t : Nat := 0) : State :=
  wPath (fun x => { x with pkts := [(7, p)], uq := [(24, { uqReset with list := [wEntry] })] }) objs t

/-- Packet 7 waits at the crossbar from pipeline 0 to pipeline 0. -/
def wXbar (objs : Tbl Bytes) : State :=
  let s := wPath (fun x => { x with pkts := [(7, { wPkt 0 3 with ended := true })] }) objs
  { s with tm := { s.tm with xbar := [(0, [(3, wEntry)])] } }

theorem witness_xbar :
    let s := wXbar []
    fnStopped s .switchCore = false ∧ tcanon [] s.tm.xbar = true ∧ tcanon [] s.tm.xmc = true ∧
      0 < ((List.range 18).map (inputLength s 0)).sum ∧ tcanon 0 s.tm.weight = true ∧ cfgN (wXbar [(oa 0x5800 0 0, leBytes 4 0)]) 0x5800 0 0 = 0 ∧
      fnStopped { s with ctl := { s.ctl with stopped := [(.switchCore, 0)] } } .switchCore = true := by decide +kernel

theorem witness_admit :
    (let s := wXbar []
     tcanon uqReset s.path.uq = true ∧ cfgOn s 0x5007 3 0 = false ∧ (pkt s 7).place ≠ 1 ∧ portUp s 3 = true ∧
       uqDepth s 24 < cfgN s 0x5003 24 0 ∧ portUnicast s 3 < cfgN s 0x5002 3 0 ∧ portUnicast s 3 < cfgN s 0x5001 3 0 ∧ entryFree s = true) ∧
    portUp { wXbar [] with ports := wRun.ports } 3 = false ∧
    (let s := wXbar [(oa 0x5003 24 0, leBytes 4 0)]
     portUp s 3 = true ∧ ¬ uqDepth s 24 < cfgN s 0x5003 24 0) ∧
    (let s := wXbar [(oa 0x5001 3 0, leBytes 4 0), (oa 0x5000 0 0, leBytes 4 655360)]
     portUp s 3 = true ∧ uqDepth s 24 < cfgN s 0x5003 24 0 ∧ portUnicast s 3 < cfgN s 0x5002 3 0 ∧
       ¬ (entryFree s = true ∧ (portUnicast s 3 < cfgN s 0x5001 3 0 ∨ sharedUsed s - (pkt s 7).shared < sharedSize s))) := by decide +kernel

theorem witness_dequeue :
    (∀ x ∈ [(0, 0), (1, 0), (2, 0), (0, 900000000)], let s := wQueue { wPkt 1 3 with ended := true, err := x.1 } [] x.2
      fnStopped s (.tm 0) = false ∧ fnStopped s .switchCore = false ∧ nextPort s 0 [] = some 3 ∧ (chooseQueue 3 s).1 = some 0 ∧
        headEntry s 3 0 = some wEntry ∧ selGroup s 3 0 < 8 ∧ isExpired s 7 = false ∧ (pkt s 7).barred = false ∧
        tcanon uqReset s.path.uq = true ∧ tcanon [] s.path.mq = true ∧ tcanon bucketReset s.tm.buckets = true ∧
        (pkt s 7).err = x.1 ∧ tcanon 0 s.tm.deficit = true ∧ (cfgN s 0x5006 0 0 * 4 < ageCycles s (pkt s 7) * 5 ↔ x.2 ≠ 0)) ∧
    (let s := wQueue { wPkt 1 3 with ended := true, barred := true }
     nextPort s 0 [] = some 3 ∧ (chooseQueue 3 s).1 = some 0 ∧ headEntry s 3 0 = some wEntry ∧ (pkt s 7).barred = true) ∧
    nextPort (wQueue (wPkt 1 3)) 0 [] = none ∧
    cfgN (wQueue (wPkt 1 3) [(oa 0x5814 3 0, leBytes 4 0)]) 0x5814 3 0 = 0 ∧
    (chooseQueue 3 (wQueue { wPkt 1 3 with ended := true } [(oa 0x5814 3 0, leBytes 4 0)])).1 = some 0 := by decide +kernel

/-- Meter 5 with a profile of a mode and buckets of 2,000 B, asked by packet 7 in bank 5. -/
def wMeter (mode : Nat) (t : Nat) : State :=
  let s := wPath (fun x => { x with pkts := [(7, wPkt 0 1)] }) [] t
  { s with tm := { s.tm with
      profiles := [(1, BitVec.ofNat 256 (mode * 2 ^ 254 + 2000 * 2 ^ 104 + 2000 * 2 ^ 80 + 5 * 2 ^ 160 + 6 * 2 ^ 128))]
      meters := [(5, { profile := 1, tc := 100, tp := 100, last := 0 })], meterQ := [(5, [(7, 5, 0)])] } }

theorem witness_meters :
    (∀ k ∈ [0, 1], let s := wMeter k 100
      let w := meterProf s (meter s 5).profile
      meterQ s 5 = (7, 5, 0) :: [] ∧ tcanon s.tm.meter0 s.tm.meters = true ∧ tsorted s.tm.meters = true ∧ (tfind s.path.pkts 7).isSome = true ∧ s.path.parked = [] ∧ tcanon [] s.tm.meterQ = true ∧ mpMode w = k ∧
        preColour w (pkt s 7) = 2 ∧ ((pkt s 7).rxLen + mpLenAdd w) * 2 ^ 24 ≤ mpCbs w ∧ ((pkt s 7).rxLen + mpLenAdd w) * 2 ^ 24 ≤ mpPbs w ∧
        (raw s - 0) * 5 / 4 ≤ cfgN s 0x5830 0 0) ∧
    (let s := wMeter 0 100
     let u : State := { s with path := wRun.path }
     meterQ u 5 = (7, 5, 0) :: [] ∧ (tfind u.path.pkts 7).isNone = true) ∧
    cfgN (wMeter 0 801) 0x5830 0 0 < (raw (wMeter 0 801) - 0) * 5 / 4 := by decide +kernel

theorem witness_sample :
    (∀ x ∈ [(0, 0), (1, 0), (0, 65536)], let s := wPath id [(oa 0x5841 3 0, [1]), (oa 0x5842 0 0, leBytes 4 x.1),
        (oa 0x5843 0 0, leBytes 8 (48 * gb))] 1000000
      let u : State := { s with tm := { s.tm with produced := BitVec.ofNat 32 x.2 } }
      let a := cfgN u 0x5843 0 0 + 32 * (u.tm.produced.toNat % cfgN u 0x5844 0 0)
      cfgN u 0x5843 0 0 ≠ 0 ∧ sampleDue u 0 = true ∧ nextSample u 0 = some 48 ∧ (x.1 = 0 ↔ cfgN u 0x5842 0 0 = 0) ∧ a % 32 = 0 ∧ pcRetired u (pcOf u a) = false ∧
        (x.2 = 0 ↔ (u.tm.produced.toNat + 2 ^ 32 - cfgN u 0x5846 0 0) % 2 ^ 32 ≠ cfgN u 0x5844 0 0)) ∧
    sampleDue (wPath id) 0 = false ∧ cfgN wRun 0x5843 0 0 = 0 := by decide +kernel

/-! ### FlexE and Seam -/

/-- Group 2 with two 100GBASE-R members, 16 and 17, of PHY numbers 1 and 2, both UP. -/
def wFx (f : FlexE → FlexE) (t : Nat := 0) : State :=
  { wRun with
    fx := f wRun.fx, time := { wRun.time with raw := BitVec.ofNat 64 t }
    ports := { wRun.ports with links := [(1040, { linkReset with state := 2 }), (1041, { linkReset with state := 2 })] }
    ctl := { wRun.ctl with active := { wRun.ctl.active with objs := [
      (oa 0x2800 2 0, [1]), (oa 0x2800 2 1, leBytes 4 77), (oa 0x2801 16 0, leBytes 4 7), (oa 0x2801 16 3, [1]),
      (oa 0x2801 17 0, leBytes 4 7), (oa 0x2801 17 3, [2])] } } }

/-- A lock in a state. -/
def wLock (st hits frames : Nat) : OhLock := { lockReset with state := st, hits := hits, frames := frames, omf := true }

theorem witness_ohFrame :
    (∀ st ∈ [0, 1, 2, 3, 4], let s := wFx fun x => { x with locks := [(128, { wLock st 1 31 with badFrames := 4 })] }
      fxOn s 2 = true ∧ fnStopped s (.flexe (16 / 8)) = false ∧ linkUp s (phyKey 16) = true ∧ 0 < fxInstances s 2 ∧
      tcanon lockReset s.fx.locks = true ∧ (ohLock s 128).state = st ∧ fxInstances s 2 = 1) := by decide +kernel

/-- Both members locked, arrived at blocks 100 and 350. -/
def wLocked (g : FxGroup → FxGroup) (t : Nat := 0) : State :=
  wFx (fun x => { x with
    locks := [(128, wLock 4 0 0), (136, wLock 4 0 0)]
    members := [(16, { memberReset with arrival := some 100, reportAge := 8 }), (17, { memberReset with arrival := some 350, reportAge := 8 })]
    groups := [(2, g { groupReset with mfSeq := 1 })] }) t

theorem witness_realign :
    let s := wLocked id
    let arr : Nat → Nat := fun i => if i = 16 then 100 else 350
    fxOn s 2 = true ∧ fnStopped s (.flexe 2) = false ∧ lockedMembers s 2 = [16, 17] ∧
      (∀ i ∈ lockedMembers s 2, (member s i).arrival = some (arr i) ∧ 100 ≤ arr i ∧ arr i ≤ 350) ∧
      350 - 100 ≤ cfgN s 0x2800 2 3 * 25 / 16 ∧ 350 - 100 ≤ 15625 := by decide +kernel

theorem witness_multiframe :
    ∀ g ∈ [fun x : FxGroup => x, fun x => { x with calState := 1, crHold := 2 }, fun x => { x with calState := 1 },
        fun x => { x with calState := 1, cr := true, caIn := true }, fun x => { x with calState := 1, cr := true }],
      fxOn (wLocked g) 2 = true ∧ fnStopped (wLocked g) (.flexe 2) = false ∧ tcanon groupReset (wLocked g).fx.groups = true := by
  decide +kernel

theorem witness_caTimeout :
    let s := wLocked (fun x => { x with calState := 1, cr := true }) 80000000
    (fxGroup s 2).calState = 1 ∧ (fxGroup s 2).cr = true ∧ (fxGroup s 2).crSince + cyc (cfgN s 0x2800 2 5) ≤ raw s := by
  decide +kernel

/-- A HELLO of versions lo to hi. -/
def wHello (lo hi : Byte) : Bytes :=
  let m := beBytes 16 (0x534D * 2 ^ 112 + 2 ^ 104 + 2 ^ 96 + 8 * 2 ^ 80 + 77 * 2 ^ 56 + 5) ++ [lo, hi, 0, 0, 0, 0, 0, 0]
  m ++ beBytes 4 (crc32c m)

/-- A version 2 REPORT without paths. -/
def wReport : Bytes :=
  let m := beBytes 16 (0x534D * 2 ^ 112 + 2 * 2 ^ 104 + 2 * 2 ^ 96 + 8 * 2 ^ 80 + 77 * 2 ^ 56 + 5) ++ [0, 0, 0, 0, 0, 0, 0, 0]
  m ++ beBytes 4 (crc32c m)

theorem witness_seam :
    (∀ st ∈ [1, 2, 3], let s := wLocked fun x => { x with seam := st, helloAge := 30, peer := some 5 }
      fxOn s 2 = true ∧ memberLocked s 16 = true ∧ (fxGroup s 2).seam = st ∧
      seamParse s 16 1 (· == 8) (wHello 1 2) = (beNat ((wHello 1 2).take 16), [1, 2, 0, 0, 0, 0, 0, 0], true) ∧
      (seamParse s 16 1 (· == 8) (wHello 3 9)).2.1.getD 0 0 = 3 ∧ cfgN s 0x2810 2 1 = 2 ∧
      (seamParse s 16 1 (· == 8) []).2.2 = false ∧
      (seamParse s 16 2 (fun n => n % 4 == 0 && decide (8 ≤ n) && decide (n ≤ 328)) []).2.2 = false ∧
      (let r := seamParse s 16 2 (fun n => n % 4 == 0 && decide (8 ≤ n) && decide (n ≤ 328)) wReport
       r.2.2 = true ∧ r.2.1.length = 8 + 4 * fld (beNat (r.2.1.take 8)) 31 16 ∧ (fxGroup s 2).peer = some (BitVec.ofNat 32 r.1)) ∧
      tcanon memberReset s.fx.members = true ∧ 30 ≤ (fxGroup s 2).helloAge ∧
      (∀ i ∈ lockedMembers s 2, 8 ≤ (member s i).reportAge)) ∧
    (let s := wLocked (fun x => { x with seam := 3 }) 8000000000
     (fxGroup s 2).silentSince + cfgN s 0x2810 2 4 * cycSecond ≤ raw s ∧ cfgN s 0x2801 16 3 < 256 ∧
     lockedMembers s 2 = 16 :: (lockedMembers s 2).tail) := by decide +kernel

/-- One member of group 2, monitored, and TOD at a second. -/
def wPm (p : PmEntity) (sec : Nat) : State :=
  let s := wFx fun x => { x with pm := [(16, p)] }
  { s with
    ctl := { s.ctl with active := { s.ctl.active with objs := s.ctl.active.objs.take 4 } }
    time := { s.time with anchorS := sec, raw := 1 } }

theorem witness_pmSecond :
    let s := wPm { pmReset with blocks := (4, 0) } 5
    pmEntities s = [16] ∧ s.fx.pmLast ≠ devSeconds s ∧ cfgOn s 0x2820 0 0 = true ∧ 0 < devSeconds s ∧
      (pmEntity s 16).unavail = (false, false) ∧ (pmEntity s 16).held = ([], []) ∧ (pmEntity s 16).defect = (false, false, false) ∧
      entityDefects s 16 = (false, false, false) ∧ (pmEntity s 16).blocks.2 = 0 ∧ 0 < (pmEntity s 16).blocks.1 ∧
      (pmEntity s 16).blocks.1 < cfgN s 0x2822 0 0 ∧ devSeconds s % 900 ≠ 0 ∧
      ctrGet s (oa 0x2830 16 1) + (pmEntity s 16).blocks.1 < 2 ^ 32 ∧ wRun.fx.pmLast = devSeconds wRun := by decide +kernel

theorem witness_pmBinClose :
    (∀ sec ∈ [905, 910], let s := wPm { pmReset with ending := (true, false) } sec
      let a := partAddr s 4 (cfgN s 0x2823 0 0 + (96 * 16 + (pmEntity s 16).closed % 96) * 64)
      (pmEntity s 16).ending = (true, false) ∧ a % 64 = 0 ∧ pcRetired s (pcOf s a) = false ∧
        binStart s false (devSeconds s) = 900 ∧ devSeconds s = sec) := by decide +kernel

/-! ### HBM -/

/-- A request waiting at a controller. -/
def wReq (order addr cls : Nat) (write promoted : Bool) : HbmReq :=
  { order := order, addr := addr, len := 64, write := write, cls := cls, since := 0, promoted := promoted, passed := 0 }

/-- A running device with one pseudo-channel in a given condition at a given time. -/
def wPc (n : Nat) (f : Pc → Pc) (t : Nat := 0) : State :=
  { wRun with hbm := { wRun.hbm with pcs := [(n, f pcReset)] }, time := { wRun.time with raw := t } }

/-- The worked example of R363. -/
theorem test_symbolExample : symEncode 0x300000#128 = 0x6FBA00000000000000000000000000300000#144 ∧
    symDecode (BitVec.ofNat 144 (symXor 0x6FBA00000000000000000000000000300000 20 9)) = .corrected 0x300000#128 [20] := by
  decide +kernel

theorem witness_hbmIssuePromoted :
    let r := wReq 1 256 3 false true
    let s := wPc 4 fun p => { p with queue := [wReq 0 0 0 false false, r] }
    let marked := fun (x : HbmReq) => x.promoted || reqAged s x || liftsUnit s (pc s 4).queue x
    (pc s 4).state ≠ 2 ∧ tget 0 s.hbm.stackSt (stackOf 4) ≠ 1 ∧ tcanon pcReset s.hbm.pcs = true ∧
      (pc s 4).queue.find? marked = some r ∧ (pc s 4).retries < 2 := by decide +kernel

theorem witness_hbmIssueClass :
    let r := wReq 1 256 2 true false
    let s := wPc 4 fun p => { p with queue := [wReq 0 0 5 false false, r], retries := 2 }
    let marked := fun (x : HbmReq) => x.promoted || reqAged s x || liftsUnit s (pc s 4).queue x
    (pc s 4).state ≠ 2 ∧ tget 0 s.hbm.stackSt (stackOf 4) ≠ 1 ∧ tcanon pcReset s.hbm.pcs = true ∧
      (∀ x ∈ (pc s 4).queue, marked x = false) ∧
      ((pc s 4).queue.find? fun x => (pc s 4).queue.all fun y => decide (x.cls ≤ y.cls)) = some r ∧ r.cls < 8 ∧
      2 ≤ (pc s 4).retries := by decide +kernel

theorem witness_hbmRetrain :
    let s : State := { wRun with time := { wRun.time with raw := 400000 } }
    s.hbm.turnAt + cyc (cfgN s 0x6023 0 0 / 128) ≤ raw s ∧ ¬ wRun.hbm.turnAt + cyc (cfgN wRun 0x6023 0 0 / 128) ≤ raw wRun ∧
      tget 0 s.hbm.stackSt (s.hbm.turn % 4) = 0 ∧ (pc s (turnPc s)).state ≠ 2 ∧
      (recent s (pc s (turnPc s)).corrected).length < cfgN s 0x6024 0 0 ∧ tcanon pcReset s.hbm.pcs = true := by decide +kernel

theorem witness_hbmRetrainAtLimit :
    let s := wPc 0 (fun p => { p with corrected := List.replicate 1000 0 }) 400000
    s.hbm.turnAt + cyc (cfgN s 0x6023 0 0 / 128) ≤ raw s ∧
      tget 0 s.hbm.stackSt (s.hbm.turn % 4) = 0 ∧ (pc s (turnPc s)).state ≠ 2 ∧
      cfgN s 0x6024 0 0 ≤ (recent s (pc s (turnPc s)).corrected).length ∧ tcanon pcReset s.hbm.pcs = true := by decide +kernel

theorem witness_hbmRetrainSkips :
    let s : State := { wRun with
      time := { wRun.time with raw := 400000 }, hbm := { wRun.hbm with stackSt := [(0, 1)] } }
    let u := wPc 0 (fun p => { p with state := 2 }) 400000
    s.hbm.turnAt + cyc (cfgN s 0x6023 0 0 / 128) ≤ raw s ∧ tget 0 s.hbm.stackSt (s.hbm.turn % 4) = 1 ∧
      u.hbm.turnAt + cyc (cfgN u 0x6023 0 0 / 128) ≤ raw u ∧ tget 0 u.hbm.stackSt (u.hbm.turn % 4) = 0 ∧
      (pc u (turnPc u)).state = 2 := by decide +kernel

theorem witness_hbmTemperature : (40 : Int) < cfgI wRun 0x6026 0 0 ∧ cfgI wRun 0x6026 0 0 ≤ 105 ∧
    tget 0 wRun.hbm.temps 2 < cfgI wRun 0x6026 0 0 := by decide +kernel

theorem witness_hbmRead :
    let s := wPc 4 (fun p => { p with flight := [wReq 0 512 0 false false] }) 8000
    (pc s 4).flight = wReq 0 512 0 false false :: [] ∧ 18 ≤ (pc s 4).erased ∧ tcanon pcReset s.hbm.pcs = true ∧
      (pc s 4).state ≠ 2 ∧ (wReq 0 512 0 false false).since + cyc 10000 ≤ raw s := by decide +kernel

theorem witness_hbmUncorrectable :
    symDecode (BitVec.ofNat 144 (symXor (symXor (symEncode 0#128).toNat 0 1) 7 1)) = .uncorrectable := by decide +kernel

theorem witness_patrol :
    let a := 32 * gb
    a < hbmBytes ∧ (pc wRun (pcOf wRun a)).state ≠ 2 ∧ tget 0 wRun.hbm.stackSt (stackOf (pcOf wRun a)) ≠ 1 ∧
      18 ≤ (pc wRun (pcOf wRun a)).erased := by decide +kernel

theorem witness_patrolCorrected :
    let a := 48 * gb
    a < hbmBytes ∧ a % 16 = 0 ∧ (pc wRun (pcOf wRun a)).state = 0 ∧ 2 ≤ partOf wRun a ∧
      tget 0 wRun.hbm.stackSt (stackOf (pcOf wRun a)) ≠ 1 ∧ 18 ≤ (pc wRun (pcOf wRun a)).erased ∧
      tcanon pcReset wRun.hbm.pcs = true ∧ (pc wRun (pcOf wRun a)).holding = false := by decide +kernel

/-! ### The host interface -/

/-- A running device with another host interface and other configuration values. -/
def wHost (objs : Tbl Bytes) (f : HostIf → HostIf) : State :=
  { wRun with host := f wRun.host, ctl := { wRun.ctl with active := { wRun.ctl.active with objs := objs } } }

/-- Pool 0: 16 buffers of 2 KB at 0x10000 in host memory, enabled. -/
def wPool : Tbl Bytes := [(oa 0x6840 0 0, leBytes 4 2048), (oa 0x6840 0 1, leBytes 4 16), (oa 0x6840 0 3, leBytes 8 0x10000),
  (oa 0x6840 0 4, [1])]

/-- Buffer 1 is out, owned by requester 5. -/
def wLent (l : List Nat) : State := wHost wPool fun h => { h with bufs := [(1, { owner := 5, sharers := l })] }

theorem witness_pools :
    ((∀ k ∈ List.range 16, cfgN (wLent []) 0x6840 k 1 ≤ 2 ^ 20) ∧ poolFor (wLent []) 1 100 = some 0 ∧
      poolFree (wLent []) 0 ≠ 0 ∧ poolFor (wLent []) 1 5000 = none ∧
      poolFree (wHost ((oa 0x6840 0 1, leBytes 4 0) :: wPool) id) 0 = 0) ∧
    (poolAt (wLent []) 0x10800 = some (1, true) ∧ tfind (wLent []).host.bufs 1 = some { owner := 5, sharers := [] } ∧
      tfind (wLent [9]).host.bufs 1 = some { owner := 5, sharers := [9] }) ∧
    poolAt (wLent []) 0 = none ∧ poolAt (wLent []) 0x10801 = some (1, false) ∧ poolAt (wLent []) 0x10000 = some (0, true) ∧
      tfind (wLent []).host.bufs 0 = none := by decide +kernel

theorem witness_rings :
    (ringHidden wRun 16 = false ∧ (ring wRun 16).enable = false ∧ hostProduces 16 = false) ∧
    (let s := wHost [] fun h => { h with rings := [(16, { ringReset 16 with enable := true, modUs := 5, firstUnsig := 1 })] }
     (ring s 16).enable = true ∧ (ring s 16).firstUnsig ≠ 0 ∧ (ring s 16).modUs ≠ 0 ∧
       (ring s 16).firstUnsig - 1 + (ring s 16).modUs.toNat * 800 ≤
         raw { s with time := { s.time with raw := 4000 } }) := by decide +kernel

theorem witness_bar2 :
    (let s := wHost [] fun h => { h with bar2 := BitVec.ofNat 64 (windowLow wRun) }
     0 + 64 ≤ s.host.bar2Size ∧ s.host.bar2.toNat + 0 + 64 ≤ hbmBytes ∧ partOf s (s.host.bar2.toNat + 0) = 6) ∧
    partOf wRun 0 ≠ 6 ∧ partOf wRun 0 ≠ 4 ∧ (0 : Nat) + 64 ≤ wRun.host.bar2Size ∧ wRun.host.bar2.toNat + 0 + 64 ≤ hbmBytes ∧
      (wHost [] fun h => { h with training := true }).host.training = true := by decide +kernel

/-- A receive ring 0 that takes frames, and a frame for it. -/
def wRx (n : Nat) : State := wHost ((oa 0x6820 0 0, [1, 0]) :: wPool) fun h => { h with
  rate := 5, rings := [(16, { ringReset 16 with enable := true, stopped := false })],
  rxq := [(0, [{ data := List.replicate n 7, source := 1, port := 3, truncated := false, ts := 0, parse := 0, metadata := 0, refused := 1 }])] }

theorem witness_rx :
    let s := { wRx 100 with time := { wRun.time with raw := 80000 } }
    ringLive s (rxKey 0) = true ∧ ringFill (ring s (rxKey 0)) < ringSize (ring s (rxKey 0)) ∧
      poolFor s (cfgN s 0x6820 0 0) 100 = some 0 ∧ poolFree s 0 ≠ 0 ∧ cfgN s 0x6840 0 1 ≤ 2 ^ 20 ∧ cfgN s 0x6840 0 2 ≠ 1 ∧
      cfgN s 0x6840 0 5 < poolFree s 0 ∧ (ring s (rxKey 0)).shadowEn = false ∧ eventQueue s 0x0A09 false < 8 ∧
      bit (tget msixReset s.host.msix (ring s (rxKey 0)).vector.toNat).ctrl 0 = true ∧
      ((rxQueue s 0).map fun f => decide (f.data.length = 100 ∧ f.refused ≠ 0 ∧ f.refused - 1 + cyc (cfgN s 0x6820 0 1) ≤ raw s)) = [true] := by
  decide +kernel

/-- A transmit descriptor: 60 bytes in a mode, port 3. -/
def wTd (mode : Nat) : BitVec 256 := BitVec.ofNat 256 (60 * 2 ^ 178 + mode * 2 ^ 175 + 3 * 2 ^ 165)

theorem witness_tx :
    let s := wHost [] fun h => { h with rate := 5, rings := [(80, { ringReset 80 with enable := true, stopped := false, prod := 1 })] }
    txWaiting s = [0] ∧ -16384 ≤ txDef s 0 ∧ cfgN s 0x6822 0 0 ≠ 0 ∧
      (∀ m ∈ [0, 1, 2], tdMode (wTd m) = m ∧ tdMore (wTd m) = false ∧ tdHbm (wTd m) = false ∧ tdLen (wTd m) = 60 ∧
        tdPort (wTd m) = 3) ∧
      injectRoom s (injected s 3 (some 0) (padTo 60 [])) = true ∧ hdrFull s 0 = false := by decide +kernel

/-- A channel 0 with a descriptor of 8 bytes waiting, between two spaces. -/
def wDma (src : Nat) : State := wHost [(oa 0x6830 0 0, [4])] fun h => { h with
  rate := 5, rings := [(144, { ringReset 144 with enable := true, stopped := false, prod := BitVec.ofNat 32 (1 + src) })] }

theorem witness_dma :
    dmaReady (wDma 0) 0 = true ∧ dmaFlights (wDma 0) 0 = [] ∧
    (∀ p ∈ [(0, 0), (0, 1), (1, 0), (1, 1)],
      let a := windowLow wRun
      let d := BitVec.ofNat 512 (leNat (leBytes 64 (a * 2 ^ 448 + a * 2 ^ 384 + 8 * 2 ^ 352 + p.1 * 2 ^ 348 + p.2 * 2 ^ 344)))
      ddMalformed d = false ∧ ddFence d = false ∧ ddLen d = 8 ∧ ddSrcSpace d = p.1 ∧ ddDstSpace d = p.2 ∧
        hbmAllowed (wDma 0) (ddSrc d) 8 false = true ∧ hbmAllowed (wDma 0) (ddDst d) 8 true = true ∧
        rangePoisoned (wDma 0) (ddSrc d) 8 = false ∧
        rangePoisoned { wDma 0 with hbm := { (wDma 0).hbm with poison := [a] } } (ddSrc d) 8 = true) ∧
    hbmAllowed (wDma 0) 0 8 false = false ∧
    (let s := { wDma 0 with host := { (wDma 0).host with dma := [(0, [{ index := 0, notify := 0, tag := 0, desc := 0 }])] } }
     dmaFlights s 0 = [{ index := 0, notify := 0, tag := 0, desc := 0 }] ∧ (ring s (dmaKey 0)).enable = true ∧
       s.safe.safeStop = false ∧ (ring s (dmaKey 0)).shadowEn = false) ∧
    (let s := { wDma 0 with host := { (wDma 0).host with dma := [(0, [{ index := 0, notify := 1, tag := 9, desc := 0 }])] } }
     let u := { wDma 0 with host := { (wDma 0).host with dmaNote := [(0, [(4, 9)])] } }
     let full := { s with aw := { s.aw with ready := [(6, List.replicate 4096 (newItem s 13 6 0))] } }
     dmaFlights s 0 = [{ index := 0, notify := 1, tag := 9, desc := 0 }] ∧ tget [] s.host.dmaNote 0 = [] ∧ tcanon [] s.host.dma = true ∧
       classRefuses s 6 = false ∧ classRefuses full 6 = true ∧ dmaFlights u 0 = [] ∧ tget [] u.host.dmaNote 0 = [(4, 9)] ∧
       tsorted u.host.dmaNote = true) := by decide +kernel

/-! ### The time unit -/

/-- A running device with another time unit and other configuration values. -/
def wTime (objs : Tbl Bytes) (f : TimeUnit → TimeUnit) : State :=
  { wRun with time := f wRun.time, ctl := { wRun.ctl with active := { wRun.ctl.active with objs := objs } } }

theorem witness_todSet :
    let s := wTime [] fun t => { t with todSet := some (100, 5, 0) }
    s.time.todSet = some (100, 5, 0) ∧ s.safe.cobblerReady = true ∧ (0 : Nat) < 2 ^ 32 ∧ s.time.todStale = false ∧
      (wTime [] fun t => { t with todSet := some (100, 5, 0), todStale := true }).time.todStale = true := by decide +kernel

theorem witness_anchors : (wRun.time.todSet = none ∧ wRun.safe.cobblerReady = true ∧ wRun.time.todStale = false) ∧
    (let s := wTime [] fun t => { t with todValid := true, raw := 2400000000 }
     s.time.todValid = true ∧ s.time.anchorRaw + 3 * cycSecond ≤ raw s) := by decide +kernel

theorem witness_servo :
    let s := wTime [] fun t => { t with servo := { t.servo with state := 2 } }
    cfgN s 0x7020 0 0 = 0 ∧ fnStopped s .timeUnit = false ∧ s.time.servo.state ≤ 3 ∧ s.time.servo.state ≠ 3 ∧
      cfgN s 0x7025 0 0 ≤ 500000 ∧ cfgN s 0x7024 0 0 ≤ (20000 : Int).natAbs ∧ (100 : Int).natAbs < cfgN s 0x7024 0 0 := by
  decide +kernel

theorem witness_servoHold :
    let s := wTime [(oa 0x7028 0 0, [1])] fun t => { t with servo := { t.servo with state := 3 } }
    cfgN s 0x7020 0 0 = 0 ∧ fnStopped s .timeUnit = false ∧ s.time.servo.state = 3 ∧ cfgOn s 0x7028 0 0 = true := by
  decide +kernel

theorem witness_servoHoldover :
    let s := wTime [(oa 0x7028 0 0, [1])] fun t => { t with servo := { t.servo with state := 2 } }
    s.time.servo.state = 2 ∧ cfgOn s 0x7028 0 0 = true := by decide +kernel

/-- The worked example below R418: I of 30 ppb and a sample of +100 ns give f of 455 ppb and its increment. -/
theorem test_servo_example :
    (match exec (.servoOffsetWrite 100) (wTime [] fun t => { t with servo := { t.servo with state := 2, integral := 30 * 256 } }) with
     | .next t => decide (t.time.servo.integral = 55 * 256 ∧ t.time.servo.freq = 455 * 256 ∧ t.time.inc = 351843560799427 ∧
         t.time.servo.state = 2)
     | _ => false) = true := by decide +kernel

theorem witness_pps :
    (let s := wTime [(oa 0x7030 0 3, [1])] id
     cfgOn s 0x7030 0 3 = true ∧ s.time.ppsLast = 0 ∧ cfgN s 0x7020 0 0 = 0) ∧
    (let s := wTime [(oa 0x7020 0 0, [1, 0, 0, 0]), (oa 0x7030 0 3, [1])] id
     cfgOn s 0x7030 0 3 = true ∧ cfgN s 0x7020 0 0 = 1 ∧ fnStopped s .timeUnit = false ∧ s.time.servo.state ≠ 3) ∧
    (let s := wTime [(oa 0x7030 0 3, [1])] fun t => { t with ppsLast := 1, raw := 100 }
     s.time.ppsLast ≠ 0 ∧ raw s < s.time.ppsLast - 1 + cycSecond / 2) ∧
    (let s := wTime [(oa 0x7030 0 3, [1])] fun t => { t with ppsLast := 1, raw := 1200000000 }
     s.time.ppsLast - 1 + cycSecond * 3 / 2 ≤ raw s) ∧
    (let s := wTime [(oa 0x7030 0 0, [1])] fun t => { t with todValid := true }
     cfgOn s 0x7030 0 0 = true ∧ s.time.todValid = true ∧ s.safe.outputsStarted = true ∧ s.safe.safeStop = false ∧
       s.time.ppsOut = false ∧ (((tod s).2 : Int) * 1000 - cfgI s 0x7030 0 2) % 10 ^ 12 ≤ 1250) ∧
    (let s := wTime [] fun t => { t with ppsOut := true, raw := 800000 }
     s.time.ppsOut = true ∧ s.time.ppsRise + cyc (cfgN s 0x7030 0 1) ≤ raw s) := by decide +kernel

/-! ### Counters and telemetry -/

/-- A running device with other counters and configuration values. -/
def wCnt (objs : Tbl Bytes) (f : Counters → Counters) : State :=
  { wRun with cnt := f wRun.cnt, ctl := { wRun.ctl with active := { wRun.ctl.active with objs := objs } } }

theorem witness_counters :
    ctrGet wRun (oa 0x6812 0 0) < 2 ^ 48 - 1 ∧
    (let s := wCnt [] fun c => { c with ctr := [(oa 0x6812 0 0, 2 ^ 48 - 1)] }
     ctrGet s (oa 0x6812 0 0) = 2 ^ 48 - 1 ∧ (ctrId (oa 0x6812 0 0)).bind (chainOf s) = none) ∧
    (let s := wCnt [(oa 0x7800 5 0, leBytes 4 (2 ^ 31 + ((ctrId (oa 0x6812 0 0)).getD 0)))] fun c => { c with
       ctr := [(oa 0x6812 0 0, 2 ^ 48 - 1)] }
     ctrGet s (oa 0x6812 0 0) = 2 ^ 48 - 1 ∧ (ctrId (oa 0x6812 0 0)).bind (chainOf s) = some 5 ∧
       (∃ j, j ≠ 4 ∧ chainOf s ((ctrId (oa 0x6812 0 0)).getD 0) = some j)) := by
  refine ⟨by decide +kernel, by decide +kernel, by decide +kernel, by decide +kernel, 5, by decide +kernel, by decide +kernel⟩

theorem witness_dumps :
    (let s := wCnt [(oa 0x7815 0 0, leBytes 8 4096)] id
     cfgN s 0x7815 0 0 ≠ 0 ∧ s.cnt.snaps.length < 2 ∧ dumpFull s = false ∧ 0 < cfgN s 0x7812 0 0) ∧
    (let s := wCnt [(oa 0x7815 0 0, leBytes 8 4096)] fun c => { c with snaps := [[], []] }
     2 ≤ s.cnt.snaps.length) ∧
    (let s := { wCnt [(oa 0x7815 0 0, leBytes 8 4096)] id with time := { wRun.time with raw := 800000000 } }
     s.cnt.lastPeriodic + cyc (cfgN s 0x7810 0 0) ≤ raw s) ∧
    (let s := wCnt [(oa 0x7815 0 0, leBytes 8 4096)] fun c => { c with snaps := [[]] }
     s.cnt.snaps = [[]] ∧ fnStopped s .telemetry = false ∧ dumpFull s = false ∧ cfgN s 0x7816 0 0 ≠ 0 ∧ cfgN s 0x7814 0 0 = 0) ∧
    cfgN (wCnt [(oa 0x7814 0 0, [1, 0, 0, 0])] id) 0x7814 0 0 ≠ 0 ∧
    (raw wRun % cyc (cfgN wRun 0x7820 0 0) = 0 ∧ 0 < cyc (cfgN wRun 0x7820 0 0) ∧ tget [0, 0] wRun.cnt.bwNow 0 = [0, 0] ∧
      bwOf wRun 0 = [0, 0, 0, 0]) := by decide +kernel

theorem witness_ipfix :
    (let s := { wCnt [(oa 0x7840 0 0, [1, 0, 0, 0])] (fun c => { c with streamQ := [(0, [[1, 0, 7]])], streamFirst := [(0, 1)] }) with
       time := { wRun.time with raw := 8000000 } }
     streamHeld s = false ∧ streamDest s 0 = 1 ∧ streamQueue s 0 ≠ [] ∧ cfgN s 0x7840 0 5 ≠ 0 ∧
       tget 0 s.cnt.streamFirst 0 - 1 + cyc (cfgN s 0x7840 0 3) ≤ raw s ∧ tget 0 s.cnt.streamTemplate 0 = 0 ∧
       (tget 0 s.cnt.streamProduced 0 + 2 ^ 32 - cfgN s 0x7840 0 7) % 2 ^ 32 ≠ cfgN s 0x7840 0 5) ∧
    (let s := wCnt [(oa 0x7840 0 0, [1, 0, 0, 0])] fun c => { c with streamProduced := [(0, 4096)] }
     (tget 0 s.cnt.streamProduced 0 + 2 ^ 32 - cfgN s 0x7840 0 7) % 2 ^ 32 = cfgN s 0x7840 0 5) ∧
    (let s := { wCnt [(oa 0x7840 0 0, [1, 0, 0, 0])] id with time := { wRun.time with raw := 48000000000 } }
     streamDest s 0 ≠ 0 ∧ (streamQueue s 0).length < cfgN s 0x7840 0 18 ∧
       tget 0 s.cnt.streamStats 0 + cfgN s 0x7840 0 17 * cycSecond ≤ raw s ∧
       (let r := beBytes 2 266 ++ (beBytes 4 (cfgN s 0x7840 0 1) ++ beBytes 8 (tget 0 s.cnt.notSent 0) ++ beBytes 8 (todMs s))
        messageFull { s with cnt := { s.cnt with streamQ := tput s.cnt.streamQ 0 (streamQueue s 0 ++ [r]) } } 0 = false)) := by
  decide +kernel

/-! ### Start-up, power and safety -/

theorem witness_resetNRise : State.reset.safe.powered = true ∧ State.reset.safe.resetN = false := ⟨rfl, rfl⟩

/-- Reset with the given boot steps done. -/
def wBoot (l : List Nat) : State := wSafe fun f => { f with resetN := true, bootDone := l }

theorem witness_bootSteps :
    (bootDid 1 (wBoot [1]) = true ∧ bootDid 2 (wBoot [1]) = false) ∧
    (bootDid 2 (wBoot [1, 2]) = true ∧ bootDid 3 (wBoot [1, 2]) = false) ∧
    (bootDid 3 (wBoot [1, 2, 3]) = true ∧ bootDid 4 (wBoot [1, 2, 3]) = false ∧ bootDid 6 (wBoot [1, 2, 3]) = false ∧
      bootDid 7 (wBoot [1, 2, 3]) = false ∧ (wBoot [1, 2, 3]).safe.safeStop = false) ∧
    (let s := wBoot [1, 2, 3, 4, 5, 6, 7]
     bootDid 5 s = true ∧ bootDid 6 s = true ∧ bootDid 7 s = true ∧ bootDid 8 s = false ∧ s.safe.bootPatternBad = false) ∧
    (let s := wBoot [1, 2, 3, 4, 5, 6, 7, 8]
     bootDid 8 s = true ∧ s.safe.patternActive = false ∧ s.ctl.commit = none) := by decide +kernel

theorem witness_recovery : fwValid (wBoot [1, 2, 3]).safe.flashA (wBoot [1, 2, 3]) = false ∧
    fwValid (wBoot [1, 2, 3]).safe.flashB (wBoot [1, 2, 3]) = false := by decide +kernel

theorem witness_domainSleep : (0 : Nat) < 97 ∧ cfgN wRun 0x1400 28 0 = 1 ∧ domainState wRun 28 = 0 ∧ domainIdle 28 wRun = true := by
  decide +kernel

theorem witness_domainAsleep :
    let s : State := { wSafe (fun f => { f with domains := [(28, 3)], sleepSince := [(28, 0)] }) with
      time := { State.reset.time with raw := 16000 } }
    cfgN s 0x1400 28 0 = 1 ∧ domainState s 28 = 3 ∧ domainQuiet 28 s = true ∧ dmaHolds 28 s = [] ∧
      tget 0 s.safe.sleepSince 28 + cyc 20000 ≤ raw s := by decide +kernel

theorem witness_domainWake :
    let s : State := { wSafe (fun f => { f with domains := [(20, 4)] }) with
      flow := { State.reset.flow with reqs := [(0, [1])] } }
    domainState s 20 = 4 ∧ domainWanted 20 s = true := by decide +kernel

theorem witness_wakeAdmit :
    let s := wSafe fun f => { f with wakes := [(28, 0, false)] }
    s.safe.wakes = (28, 0, false) :: [] ∧ windowAmps s + domainAmps 28 ≤ cfgN s 0x1401 0 0 := by decide +kernel

theorem witness_wakeWaits :
    let s := wSafe fun f => { f with wakes := [(20, 0, false)], admitted := (List.range 6).map fun i => (20 + i, 0) }
    cfgN s 0x1401 0 0 < windowAmps s + domainAmps 20 := by decide +kernel

theorem witness_wakeDelayed :
    let s : State := { wSafe (fun f => { f with wakes := [(28, 0, false)] }) with
      time := { State.reset.time with raw := 800000 } }
    s.safe.wakes = [(28, 0, false)] ∧ 0 + cyc 1000000 ≤ raw s := by decide +kernel

theorem witness_heartbeat :
    let s : State := { wSafe (fun f => { f with tokens := [(0, 0)] }) with time := { State.reset.time with raw := 100000 } }
    cfgOn s 0x1304 0 0 = true ∧ raw { s with time := { s.time with raw := 1 } } % cyc 4000 ≠ 0 ∧
      (∀ r ∈ s.safe.tokens, [0].contains r.1 = true) ∧ tfind s.safe.tokens 0 = some 0 ∧ 0 + cyc 46000 ≤ raw s := by
  decide +kernel

theorem witness_clockFault : wRun.safe.clocks = true ∧ wRun.safe.safeStop = false ∧ cfgN wRun 0x1300 9 0 = 3 := by
  decide +kernel

theorem witness_refclkReturn : (wSafe fun f => { f with refclkLost := true }).safe.refclkLost = true := rfl

theorem witness_envSample : State.reset.safe.powered = true ∧ (3 : Nat) < 28 ∧ State.reset.safe.env = [] ∧
    State.reset.safe.envBeyond = [] ∧ (25 : Int) < cfgI State.reset 0x1305 0 0 ∧ (25 : Int) < cfgI State.reset 0x1306 0 0 := by
  decide +kernel

theorem witness_patternRecheck : wRun.safe.cobblerReady = true := rfl

theorem witness_faultNotified : (2 : Nat) ≤ 8 ∧ 0x0E13 ∈ classEvents 2 ∧ reaction wRun 2 = 1 := by decide +kernel

theorem witness_d2d : tfind wRun.safe.replays 0 = none := rfl

theorem witness_safeStopInput : (100 : Nat) ≤ 100 ∧ wRun.safe.safeStop = false ∧ (9 : Nat) < 10 ∧ (10 : Nat) ≤ 99 ∧ (99 : Nat) < 100 ∧
    (wSafe fun f => { f with safeStop := true }).safe.safeStop = true := by decide

/-- A descriptor that copies 64 bytes within the first stack of HBM. -/
def wFlight : DmaFlight := { index := 0, notify := 0, tag := 0, desc := BitVec.ofNat 512 (64 * 2 ^ 352 + 2 ^ 348 + 2 ^ 344) }

theorem witness_powerDmaAbort :
    let s : State := { wSafe (fun f => { f with sleepSince := [(93, 0)] }) with
      host := { State.reset.host with dma := [(0, [wFlight])] }, time := { State.reset.time with raw := 80000 } }
    tfind s.safe.sleepSince 93 = some 0 ∧ 0 + cyc 100000 ≤ raw s ∧ (dmaHolds 93 s).contains 0 = true := by decide +kernel

theorem witness_ownerFuse : (List.replicate 48 (0 : Byte)).length = 48 ∧ State.reset.safe.ownerHash = none := by decide

theorem witness_ownerFused : (wSafe fun f => { f with ownerHash := some [] }).safe.ownerHash = some [] := rfl

theorem witness_rollback : (wSafe fun f => { f with fwSecurity := 3 }).safe.rollback ≤ 2 ∧
    2 ≤ (wSafe fun f => { f with fwSecurity := 3 }).safe.fwSecurity ∧ ¬ (4 ≤ State.reset.safe.fwSecurity) := by decide

theorem witness_cobbler : wRun.safe.cobblerReady = true ∧ wRun.ctl.ops = [] ∧
    (wSafe fun f => { f with cobblerReset := true }).safe.cobblerReset = true := by decide +kernel

/-- The examples of R484 and R478, the totals of Tables 17-3, 17-4 and 17-6, and the places of the lanes and signals in
their regions. -/
theorem test_board :
    laneBalls 17 = [(2, 26), (3, 26), (6, 26), (7, 26)] ∧ laneBalls 200 = [(61, 2), (61, 3), (61, 6), (61, 7)] ∧
    (List.range 256).all (fun l => (laneBalls l).all (ballIn (laneRegions.getD (l / 64) []))) = true ∧
    ballCounts.sum = 98 * 98 ∧ signalBalls.length + ((List.range 9).flatMap senseBalls).length = 55 ∧
    (rails.map (·.typical)).sum = 4000 ∧ (rails.map (·.maximum)).sum = 4550 ∧ (rails.map (·.idle)).sum = 2300 ∧
    (subsystemPower.map (·.2.1)).sum = 400 ∧ (subsystemPower.map (·.2.2.1)).sum = 455 ∧
    (subsystemPower.map (·.2.2.2)).sum = 230 ∧
    wakeRails 12 = [(1, 8000)] ∧ wakeRails 28 = [(0, 1500), (1, 1500)] := by decide +kernel

/-! ### The Clicker and the editor -/

/-- A frame of an IPv4 packet, UDP to port 4789 with a VXLAN header, cut after it. -/
def wFrame : Bytes :=
  List.replicate 12 2 ++ [8, 0, 0x45, 0, 0, 0x24, 0, 0, 0, 0, 64, 17, 0x66, 0x9C, 10, 1, 2, 3, 198, 51, 100, 7,
    0x9C, 0x40, 0x12, 0xB5, 0, 16, 0, 0, 8, 0, 0, 0, 0, 0, 5, 0] ++ List.replicate 14 0 ++ List.replicate 32 0

/-- A packet with bank 0's stage 0 default of a group as given. -/
def wClick (act : Nat) (frame : Bytes) (f : Path → Path) : State :=
  let s := wPath fun p => f { p with
    pkts := [(7, { wPkt 0 1 with ended := true, data := frame }), (8, { wPkt 0 1 with data := wFrame })]
    hdr := [(0, [7])], rehdr := [] }
  { s with ctl := { s.ctl with bank0 := { s.ctl.bank0 with stage := [(oa 0x3011 0 0, leBytes 4 0), (oa 0x3013 0 0, leBytes 16 act)] } } }

theorem witness_parse :
    (∀ a ∈ [0, 2 ^ 116, 2 ^ 116 + 2 ^ 124], let s := wClick a wFrame id
      fnStopped s (.pipeline 0) = false ∧ fnStopped s (.tables (groupOf 0)) = false ∧ (nextHeader s 0).map (·.1) = some 7 ∧ isExpired s 7 = false) ∧
    (let s := wClick (2 ^ 116) wFrame id
     let r := clickerRun s (bankOf s 0) (pkt s 7)
     (aLookup (stageZero r.2.1) && !zeroSuppresses (stageZero r.2.1) && !bit r.1.word fMalformed) = true ∧
       bit r.1.word fFrag = false ∧ r.2.2.2.isSome = true) ∧
    (let s := wClick (2 ^ 116) (patch wFrame 20 [0x20]) id
     bit (clickerRun s (bankOf s 0) (pkt s 7)).1.word fFrag = true) ∧
    (let s := wClick (2 ^ 116) (patch wFrame 12 [0, 0]) id
     (clickerRun s (bankOf s 0) (pkt s 7)).2.2.2 = none) ∧
    (let s := wClick 0 (patch wFrame 14 [0x44]) id
     bit (clickerRun s (bankOf s 0) (pkt s 7)).1.word fMalformed = true) := by decide +kernel

theorem witness_parseTurn :
    let s := wClick 0 wFrame fun p => { p with rehdr := [(0, [8])], hdr := [(0, [7])] }
    (hdrFifo s 0 = [7] ∧ fnStopped { s with ctl := { s.ctl with stopped := [(.pipeline 0, 0)] } } (.pipeline 0) = true) ∧
      reHdr (wPath fun p => { p with rehdr := [(0, [8])] }) 0 = [8] := by decide +kernel

/-- Packet 7 heads pipeline 0's retire stage, parsed to a word, with an action of stage 0 and further changes. -/
def wRetire (word : BitVec 64) (act : BitVec 128) (f : Packet → Packet := id) : State :=
  wPath fun p => { p with
    retire := [(0, [7])]
    pkts := [(7, f { wPkt 0 3 with
      ended := true, acts := [{ word := act, malformed := false }]
      parse := some { word := word, pairs := [], outer := none, keyPair := none, l2type := 0, vlan := 0, pcp := 0, innerL2 := none, ptp := none, csums := [] } })] }

theorem witness_retire :
    (∀ x ∈ [(0, 1, 0), (0, 0, 1), (0, 3, 0), (2, 0, 0), (0, 0, 0)],
      let s := wRetire (BitVec.ofNat 64 (x.1 + 3 * 2 ^ 34)) 0 fun p => { p with flow := x.2.1, colour := x.2.2 }
      retireQ s 0 = [7] ∧ isExpired s 7 = false ∧ tsorted s.path.pkts = true ∧ (pkt s 7).flow = x.2.1 ∧ (pkt s 7).colour = x.2.2 ∧
        (pkt s 7).barred = false ∧ ((merged (pkt s 7)).trap && (merged (pkt s 7)).trapMalformed) = false ∧ (pkt s 7).pipe < 16) ∧
    ruleMeter (pkt (wRetire 0 (BitVec.ofNat 128 (2 ^ 49 + 5 * 2 ^ 29))) 7) = some 5 ∧
    (∀ x ∈ [2 ^ 124, 2 ^ 126, 2 * 2 ^ 87 + 9 * 2 ^ 63, 2 ^ 117],
      let y := pkt (wRetire 0 (BitVec.ofNat 128 x)) 7
      let m := merged y
      ruleMeter y = none ∧ y.answer = none ∧ m.mirror = 0 ∧ y.colour = 0 ∧ y.release = none ∧ y.fall = none ∧ y.flow ∉ [5, 7] ∧
        m.trap = decide (x = 2 ^ 124) ∧ (m.verdict = 2 ↔ x = 2 ^ 126) ∧ m.recirc = decide (x = 2 ^ 117) ∧
        (m.nhKind = 2 ↔ x = 2 * 2 ^ 87 + 9 * 2 ^ 63)) := by decide +kernel

theorem witness_recirculate :
    ∀ n ∈ [0, 2, 3], let s := wPath fun p => { p with recirc := [(0, [7])], pkts := [(7, { wPkt 0 3 with ended := true, pass := n })] }
      recircQ s 0 = 7 :: [] ∧ (pkt s 7).ended = true ∧ tsorted s.path.pkts = true ∧ (pkt s 7).pass = n := by decide +kernel

/-- The NAT44 example's frame (3.5): a TCP SYN from 10.1.2.3:40000 to 198.51.100.7:443. -/
def wSyn : Bytes :=
  List.replicate 12 2 ++ [8, 0, 0x45, 0, 0, 0x3C, 0x1C, 0x46, 0x40, 0, 0x40, 6, 0xE8, 0x37, 10, 1, 2, 3, 198, 51, 100, 7,
    0x9C, 0x40, 0x01, 0xBB] ++ List.replicate 36 0

/-- An edit job of packet 7 on pipeline 0 whose program 12 of bank 0 is given by words. -/
def wEdit (ws : List Nat) (f : EditJob → EditJob := id) (objs : Tbl Bytes := []) : State :=
  let j : EditJob := {
    pid := 7, out := 3, sel := 0, prog := 12, epoch := 0, pc := 0, frame := wSyn, anchors := [(1, 14), (2, 34), (3, 14), (4, 34), (6, 14)],
    csums := [{ at_ := 24, spans := [(14, 20)], kind := 0 }], orig := [24], nh := some 4, nat := some (false, 0xCB007109, 61000), metadata := 0,
    zone := 0, entropy := 0, ecn := false, dscp := none, pushes := 0, pushed := 0, removed := 0, corr := none, ptp := 0, done := false }
  let s := wPath (fun p => { p with edits := [(0, [f j])], pkts := [(7, { wPkt 1 3 with ended := true })] }) objs
  { s with ctl := { s.ctl with bank0 := { s.ctl.bank0 with
      edits := [(12, BitVec.ofNat 1024 ((ws.zipIdx.map fun x => x.1 * 2 ^ (64 * x.2)).sum))]
      headers := [(37, BitVec.ofNat 576 (50 + 14 * 2 ^ 8 + 34 * 2 ^ 16 + 2 ^ 24))] } } }

theorem witness_edit :
    (∀ w ∈ [0x098603E100000000, 0x0A0001E200000000], let s := wEdit [w]
      let j := (editJobs s 0).getD 0 (mkJob s wEntry 3 0)
      let v := editWord (bankOf s j.epoch) j.prog j.pc
      fnStopped s (.pipeline 0) = false ∧ editJobs s 0 = j :: [] ∧ j.done = false ∧ v = w ∧ (anchorAt j (eAnchor v)).isSome = true ∧ eOp v = 1 ∧
        eOffset v + 34 + fieldBytes (eBitoff v) (eWidth v) ≤ editLimit j ∧ (editSource s j (eSrc v) (eImm v)).isSome = true) ∧
    (let s := wEdit [0x098603E100000000]
     let j := (editJobs s 0).getD 0 (mkJob s wEntry 3 0)
     j.csums = [{ at_ := 14 + 10, spans := [(14, 20)], kind := 0 }] ∧ onesFold (sum16 (slice j.frame 14 20)) = 0xFFFF ∧
       ipVersion j 1 14 = 4 ∧ (j.frame.getD 22 0).toNat = 64 ∧ udpAt j 2 = false ∧ j.nat.isSome = true ∧
       udpAt { j with frame := patch j.frame 23 [17] } 2 = true ∧ ihlBytes j 14 = 20 ∧
       ihlBytes { j with frame := patch j.frame 14 [0x44] } 14 = 16 ∧ ipVersion { j with frame := patch j.frame 14 [0x44] } 1 14 = 4 ∧ ipVersion { j with frame := patch j.frame 14 [0x60] } 1 14 = 6 ∧
       (readField j 26 0 32).isSome = true ∧ (j.anchors.map (·.1)).Nodup ∧ anchorAt j 5 = none ∧ anchorAt j 3 = some 14 ∧
       anchorAt j 4 = some 34 ∧ 34 + 8 ≤ editLimit j) := by decide +kernel

/-- The words of the other operations at anchors that the job has. -/
theorem witness_editWords :
    ([0x1000007F00000001, 0x1880000000000000, 0x2000000000000025, 0x2800000000000004, 0x3000007F10000000, 0x3880000000000000,
      0x4000000000000000, 0x4B00000000000000].map fun w => (eOp w, eAnchor w)) =
      [(2, 0), (3, 1), (4, 0), (5, 0), (6, 0), (7, 1), (8, 0), (9, 6)] := by decide

theorem witness_editor :
    (∀ n ∈ [3, 1024], let s := wEdit [0x1880000000000000] fun j => { j with out := n }
      let j := (editJobs s 0).getD 0 (mkJob s wEntry 3 0)
      let g := (editRun s 16 j).1
      (editRun s 16 j).2 = 0 ∧ g.ecn = false ∧ g.dscp = none ∧ g.out = n ∧ g.frame.length + 4 ≤ cfgN s 0x2007 3 0) ∧
    editJobs (wPath id) 0 = [] ∧
    fnStopped { wPath id with ctl := { (wPath id).ctl with stopped := [(.pipeline 0, 0)] } } (.pipeline 0) = true ∧
    fnStopped { wPath id with ctl := { (wPath id).ctl with stopped := [(.tables 0, 0)] } } (.tables (groupOf 0)) = true ∧
    (let s := wEdit [0] id [(oa 0x2007 3 0, leBytes 2 70)]
     cfgN s 0x2007 3 0 < ((editJobs s 0).getD 0 (mkJob s wEntry 3 0)).frame.length + 4) := by decide +kernel

/-- The NAT44 example of 3.5: address, port and TTL change, and the header checksum becomes 0xB931. -/
theorem test_nat44 :
    (let s := wEdit [0x098603E100000000, 0x0A0001E200000000, 0x1880000000000000, 0x080005E300000000, 0x080305E400000000]
     let g := (editRun s 16 ((editJobs s 0).getD 0 (mkJob s wEntry 3 0))).1.frame
     slice g 14 24 = [0x45, 0, 0, 0x3C, 0x1C, 0x46, 0x40, 0, 0x3F, 6, 0xB9, 0x31, 203, 0, 113, 9, 198, 51, 100, 7,
       0xEE, 0x48, 0x01, 0xBB]) := by decide +kernel

/-- The example of 3.3: the thirteenth header stops parsing, and the key is the outer pair's. -/
theorem test_headerCount :
    let frame : Bytes := List.replicate 12 2 ++ [0x88, 0xA8, 0, 1, 0x81, 0, 0, 2, 8, 0,
      0x45, 0, 0, 142, 0, 0, 0, 0, 64, 17, 0, 0, 10, 1, 2, 3, 10, 1, 2, 4, 0x30, 0x39, 0x12, 0xB5, 0, 122, 0, 0,
      8, 0, 0, 0, 0, 0, 5, 0] ++ List.replicate 12 4 ++ [0x86, 0xDD, 0x60, 0, 0, 0, 0, 52, 0, 64] ++
      List.replicate 32 1 ++ [43, 0, 0, 0, 0, 0, 0, 0, 60, 0, 0, 0, 0, 0, 0, 0, 60, 0, 0, 0, 0, 0, 0, 0, 6, 0, 0, 0, 0, 0, 0, 0] ++
      List.replicate 20 0x50
    let w := (parseFrame wRun frame false false false).word
    bit w 0 = true ∧ bf w 39 38 = 1 ∧ bf w 47 44 = 12 ∧ bf w 43 42 = 1 ∧ bf w 41 40 = 0 ∧ bit w 1 = false ∧
      ((parseFrame wRun frame false false false).keyPair.map (·.proto)) = some 17 := by decide +kernel

theorem witness_xlate :
    (let s := wEdit [0x4000000000000001] fun j => { j with nat := some (false, 2 ^ 125, 61000) }
     let j := (editJobs s 0).getD 0 (mkJob s wEntry 3 0)
     let w := editWord (bankOf s j.epoch) j.prog j.pc
     eOp w = 8 ∧ (eImm w).testBit 0 = true ∧ anchorAt j 3 = some 14 ∧ anchorAt j 4 = some (14 + (j.frame.getD 14 0).toNat % 16 * 4) ∧
       j.nat.map (fun n => addrFam (natAddr s n)) = some 1 ∧ 34 + 8 ≤ editLimit j ∧ (j.frame.getD 23 0).toNat ∈ [6, 17]) ∧
    (let f := patch (patch wSyn 14 [0x60]) 20 [17] ++ List.replicate 20 0
     let s := wEdit [0x4000000000000000] fun j => { j with nat := some (false, mapped 0xCB007109, 61000), frame := f, anchors := [(3, 14), (4, 54)] }
     let j := (editJobs s 0).getD 0 (mkJob s wEntry 3 0)
     let w := editWord (bankOf s j.epoch) j.prog j.pc
     eOp w = 8 ∧ (eImm w).testBit 0 = false ∧ anchorAt j 4 = some (14 + 40) ∧ (j.frame.getD 14 0).toNat / 16 = 6 ∧
       54 + 8 ≤ editLimit j ∧ (j.frame.getD 20 0).toNat ∈ [6, 17] ∧ j.nat.map (fun n => addrFam (natAddr s n)) = some 0) ∧
    addrFam 0xCB007109 ≠ 0 := by decide +kernel

/-! ### Forwarding, learning, the audit and table commands -/

/-- Packet 7 ready to forward by an action, with forwarding tables. -/
def wForward (act : Nat) (word : BitVec 64) (f : Forward → Forward) : State :=
  let s := wRetire word (BitVec.ofNat 128 act) fun p => { p with port := 3, data := wFrame }
  { s with fwd := f s.fwd }

theorem witness_forwardKinds :
    ∀ x ∈ [(1, 5), (3, 5), (0, 5), (4, 5), (2, 5)], let s := wForward (2 ^ 87 + 5 * 2 ^ 63) 0 fun f => { f with
        nh := [(5, BitVec.ofNat 512 (x.1 * 2 ^ 509)), (6, BitVec.ofNat 512 (2 ^ 509))], ecmp := [(selectHash (wForward 0 0 id) (pkt (wForward 0 0 id) 7) % 256, 6)] }
      ReadyToForward s 0 7 [] ∧ (merged (pkt s 7)).nhKind = 1 ∧ (merged (pkt s 7)).nhValue = 5 ∧ nhKind (nhEntry s 5) = x.1 ∧
        (tget 0 s.fwd.ecmp (256 * nhEcmp (nhEntry s 5) + selectHash s (pkt s 7) % 256)).toNat = 6 := by
  decide +kernel

theorem witness_forward :
    (let s := wForward (2 ^ 87 + 300000 * 2 ^ 63) 0 id
     (merged (pkt s 7)).nhValue = 300000 ∧ hasLine s 0 (lineNh 300000) = false ∧ waiting s 0 < 65536 ∧ (fetchesOf s 0).length < 4096) ∧
    (let s := wForward 0 (BitVec.ofNat 64 (2 ^ 16)) id
     ReadyToForward s 0 7 [] ∧ (merged (pkt s 7)).nhKind = 0 ∧ cfgN s 0x3800 0 0 = 0) ∧
    (let s := wForward 0 0 fun f => { f with l2 := [(0, 5)] }
     ReadyToForward s 0 7 [] ∧ l2Find s 0 (bridgeVid s (pkt s 7)) (beNat ((pkt s 7).data.take 6)) = none ∧
       cfgN s 0x3814 (bridgeVid s (pkt s 7)) 0 = 0xFFFF) := by
  decide +kernel

/-- An entry of the layer-2 table for VLAN 1 and MAC 2 on port 9. -/
def wL2 (flags : Nat) : BitVec 128 := BitVec.ofNat 128 (flags * 2 ^ 124 + 2 ^ 112 + 2 * 2 ^ 64 + 9 * 2 ^ 54)

/-- Slots all taken. -/
def wFull (slots : List Nat) : Tbl (BitVec 128) := slots.foldl (fun t k => tput t k (BitVec.ofNat 128 (2 ^ 127))) []

/-- Group 1 learns VLAN 1, MAC 2 on a port, with the table as given. -/
def wLearn (l2 : Tbl (BitVec 128)) (port : Nat) (t : Nat := 0) : State :=
  let s := wPath (fun p => { p with pkts := [(7, wPkt 0 1)] }) [] t
  { s with fwd := { s.fwd with l2 := l2, learnQ := [(1, [{ vid := 1, mac := 2, port := port, pid := 7 }])] } }

theorem witness_learn :
    (let s := wLearn [] 9
     tget [] s.fwd.learnQ 1 = [{ vid := 1, mac := 2, port := 9, pid := 7 }] ∧ l2Find s 1 1 2 = none ∧ (l2Room s 1 1 2).isSome = true) ∧
    (let k := ((l2Room (wLearn [] 9) 1 1 2).getD 0)
     (∀ x ∈ [(8, 9, 0), (8, 10, 0), (8, 10, 800000), (12, 10, 0), (14, 10, 0)], let s := wLearn [(k, wL2 x.1)] x.2.1 x.2.2
       l2Find s 1 1 2 = some k ∧ l2Port (l2Entry s k) = 9 ∧ l2Static (l2Entry s k) = decide (12 ≤ x.1) ∧
         l2SvDrop (l2Entry s k) = decide (x.1 = 14) ∧ (pkt s 7).place ≠ 3 ∧
         (cfgN s 0x3811 0 0 ≤ (devUs s + 2 ^ 32 - l2At (l2Entry s k)) % 2 ^ 32 * 1000 ↔ x.2.2 ≠ 0)) ∧
     (let s := wLearn [(k, wL2 8)] 9 (10 ^ 15)
      cfgN s 0x3810 0 0 ≠ 0 ∧ tget 0 s.fwd.scanned 1 + cycSecond * cfgN s 0x3810 0 0 / 2 ≤ raw s ∧ tcanon 0 s.fwd.l2 = true)) ∧
    cfgN (wPath id [(oa 0x3810 0 0, leBytes 4 0)]) 0x3810 0 0 = 0 := by decide +kernel

theorem witness_learnFull :
    let slots := l2Slots 1 0 (0x12, 0x92) 1 2
    let s := wLearn (wFull slots) 9
    l2Find s 1 1 2 = none ∧ l2Room s 1 1 2 = none := by decide +kernel

theorem witness_line :
    let s := wPath id
    ((fetchesOf s 0).find? fun f => f.line == 300000) = none ∧
    (let t := { s with fwd := { s.fwd with fetches := [(0, [{ line := 300000, waiters := [] }])] } }
     ((fetchesOf t 0).find? fun f => f.line == 300000) = some { line := 300000, waiters := [] }) := by decide +kernel

/-- A directory entry for target 0x21 in the HBM host window, its refreshed field as noted before or not, and a recheck. -/
def wAudit (noted : Nat) (t : Nat := 0) : State :=
  let s := wPath id [] t
  { s with
    hbm := { s.hbm with mem := writeBytes s.hbm.mem (16 * 0x21) (leBytes 16 (7 * 2 ^ 96 + 18 * 2 ^ 64 + 4096)) }
    fwd := { s.fwd with refreshed := [(0x21, noted)], rechecks := [{ target := 0x21, bank := 0, copy := 0, block := 3, since := 0, pass := 0 }] } }

theorem witness_audit :
    (∀ n ∈ [6, 7], let s := wAudit n
      cfgOn s 0x3830 0 0 = true ∧ s.fwd.auditAt = 0 ∧ auditActive s 0x21 = true ∧ auditBank s 0x21 = 0 ∧
        (tfind s.fwd.refreshed 0x21 = some (fld (auditDir s 0x21 0) 127 96) ↔ n = 7)) ∧
    cfgOn (wPath id [(oa 0x3830 0 0, [0])]) 0x3830 0 0 = false ∧
    (let s := wAudit 7 (cyc 250000000)
     0 + cyc 250000000 ≤ raw s ∧ auditBanked 0x21 = true ∧ s.ctl.epoch % 2 = 0 ∧
       auditDiffers s [(0x21, 0, 3, 9)] 0x21 0 3 = true ∧ auditDiffers s [(0x21, 0, 3, 0)] 0x21 0 3 = false) ∧
    raw (wAudit 7) < 0 + cyc 250000000 := by decide +kernel

/-- The header of a table command for all groups. -/
def wHead (op table count index : Nat) : Nat := op * 2 ^ 56 + table * 2 ^ 48 + 0xF * 2 ^ 44 + count * 2 ^ 32 + index

/-- A running device whose mailbox holds a table command. -/
def wTable (h : Nat) (staged : Bool) (payload : Bytes) : State := wMail 0x40 0 staged (leBytes 8 h ++ payload) wRun

theorem witness_tableRefused :
    (∀ x ∈ [(1, 2, 0, 0), (1, 2, 1, 16777216), (2, 2, 300, 0), (3, 0x60, 1, 0), (4, 7, 1, 0), (5, 7, 0, 0), (1, 0x10, 0, 0), (2, 0x10, 17, 0),
        (3, 0x10, 17, 0), (6, 0x10, 17, 0)],
      let h := wHead x.1 x.2.1 x.2.2.1 x.2.2.2
      TableRequest (wTable h false []) h false [] ∧ (msgTblRefused (tblCmd h false [] 4071) (wTable h false [])).isSome = true) := by
  decide +kernel

theorem witness_tableLive :
    (∀ x ∈ [(1, 32), (2, 64), (3, 4), (4, 8), (5, 32), (6, 4), (8, 8), (9, 4)], ∀ op ∈ [1, 2],
      let h := wHead op x.1 1 9
      let p : Bytes := if op = 1 then List.replicate x.2 0 else []
      let s := wTable h false p
      let c := tblCmd h false p 4071
      TableRequest s h false p ∧ c.table = x.1 ∧ c.count = 1 ∧ tblRefused c s = none ∧ c.op = op ∧
        entryRefused x.1 9 0 (leNat p) s = none) ∧
    LiveTablesCanonical wRun.fwd ∧
    (let h := wHead 1 2 1 9
     let p := leBytes 64 (5 * 2 ^ 509)
     TableRequest (wTable h false p) h false p ∧ entryRefused 2 9 0 (leNat p) (wTable h false p) = some (6, 0)) := by
  unfold LiveTablesCanonical; decide +kernel

theorem witness_tableRead :
    let h := wHead 3 2 2 9
    let s := wTable h false []
    TableRequest s h false [] ∧ tblRefused (tblCmd h false [] 4071) s = none ∧ 2 * (tblShape s false 2).1 ≤ 4071 := by decide +kernel

theorem witness_tableL2 :
    (∀ b ∈ [true, false], let h := wHead 1 7 1 9
      let p := leBytes 16 ((if b then 2 ^ 126 else 0) + 2 ^ 112 + 2 * 2 ^ 64 + 9 * 2 ^ 54)
      let s := wTable h false p
      TableRequest s h false p ∧ tblRefused (tblCmd h false p 4071) s = none ∧ (∀ g, g < 4 → l2Layout s g < 2) ∧
        (leNat p).testBit 126 = b ∧ (l2Set 9 (BitVec.ofNat 128 (leNat p)) s).isSome = true) ∧
    (let full := wFull (l2Slots 1 0 (0x12, 0x92) 1 2)
     (l2Set 9 (BitVec.ofNat 128 (2 ^ 126 + 2 ^ 112 + 2 * 2 ^ 64)) { wRun with fwd := { wRun.fwd with l2 := full } }).isNone = true) := by
  decide +kernel

theorem witness_flushReseed :
    (let h := wHead 4 7 0 0
     let p := leBytes 16 (2 ^ 127)
     TableRequest (wTable h false p) h false p ∧ tblRefused (tblCmd h false p 4071) (wTable h false p) = none ∧
       tcanon 0 (wTable h false p).fwd.l2 = true) ∧
    (let h := wHead 5 7 1 0
     let p := leBytes 8 77
     let s := wTable h false p
     let c := tblCmd h false p 4071
     TableRequest s h false p ∧ tblRefused c s = none ∧ reseedBusy c s = false ∧
       reseedBusy c { s with fwd := { s.fwd with rebuild := [(1, { seedA := 1, seedB := 2 })] } } = true) ∧
    (let s := { wRun with fwd := { wRun.fwd with rebuild := [(1, { seedA := 1, seedB := 2 })] } }
     tfind s.fwd.rebuild 1 = some { seedA := 1, seedB := 2 } ∧ tsorted s.fwd.rebuild = true ∧ tcanon 0 s.fwd.l2 = true ∧
       l2Layout s 1 < 2 ∧ (l2Rebuilt 1 s).1 = true ∧ tfind s.fwd.rebuild 0 = none) := by decide +kernel

theorem witness_rebuildFails :
    let full := wFull (l2Slots 1 1 (1, 2) 1 2)
    let s := { wRun with fwd := { wRun.fwd with
      l2 := (2 ^ 20, BitVec.ofNat 128 (3 * 2 ^ 126 + 2 ^ 112 + 2 * 2 ^ 64)) :: full, rebuild := [(1, { seedA := 1, seedB := 2 })] } }
    (l2Rebuilt 1 s).1 = false := by decide +kernel

theorem witness_tableStaged :
    let h := wHead 1 0x12 1 9
    let p : Bytes := leBytes 32 (7 * 2 ^ 200)
    let s := wTable h true p
    let c := tblCmd h true p 4071
    TableRequest s h true p ∧ tblRefused c s = none ∧ c.count = 1 ∧ c.op = 1 ∧
      entryRefused 0x12 9 0 (leNat p) s = none ∧ (tblPut 0x12 9 (leNat p) s).isSome = true ∧
      tsorted (freeBank s).templates = true ∧ tsorted (freeBank s).params = true ∧ tsorted (freeBank s).edits = true ∧
      tsorted (freeBank s).headers = true ∧ tsorted (freeBank s).rules = true := by decide +kernel

theorem witness_tableRing :
    let s0 := wHost [] fun h => { h with rate := 5, rings := [(cmdKey, { ringReset cmdKey with enable := true, stopped := false, prod := 1 })] }
    let mk := fun (h n : Nat) => leBytes 64 (h * 2 ^ 448 + 4096 * 2 ^ 384 + n * 2 ^ 352)
    (∀ x ∈ [(wHead 1 2 0 9, 0), (wHead 1 3 1 9, 4)], ringLive s0 cmdKey = true ∧ 0 < ringFill (ring s0 cmdKey) ∧ ringFlights s0 = 0 ∧
      ringBlocked (tblCmd x.1 false (List.replicate x.2 0) 0) s0 = false ∧
      slotCmd (mk x.1 x.2) (List.replicate x.2 0) 0 s0 = .inr (tblCmd x.1 false (List.replicate x.2 0) 0) ∧
      tblRow (tblCmd x.1 false (List.replicate x.2 0) 0) = 1 ∧
      ((tblRefused (tblCmd x.1 false (List.replicate x.2 0) 0) s0).isNone = true ↔ x.2 = 4)) := by decide +kernel

/-- The example of R115: S mod 65,537, and slot S[7:0] of an ECMP group. -/
theorem test_serviceSlot : 0x9E3779B9 % 65537 = 56195 ∧ 0x9E3779B9 % 256 = 185 := by decide

/-! ### The flow store -/

/-- A UDP flow 10.1.2.3:1000 to 198.51.100.7:53, and its TCP sibling. -/
def wKey : BitVec 384 := mkKey 0 0 0 17 1000 53 (mapped 0x0A010203) (mapped 0xC6336407) 0 false
def wTcpKey : BitVec 384 := mkKey 0 0 0 6 1000 53 (mapped 0x0A010203) (mapped 0xC6336407) 0 false

/-- The default seeds (Table 5-10). -/
def wSeeds : List Nat := [0x9E11A3C5, 0x47D2B60F, 0xB5E30C78, 0x1F6A94D2, 0xE2C75B19]

/-- The flow's home slice. -/
def wHome : Nat := seededCrc 0x9E11A3C5 (keyBytes wKey) % 16

/-- A record of the flow, last seen at 0. -/
def wRec : FlowRec := { key := wKey, st := BitVec.ofNat 128 (2 ^ 125), cnt := BitVec.ofNat 256 (2 ^ 48), act := 0 }

/-- Where the flow's line stands: way 3 of its set; the line itself, of record 5. -/
def wUnit : Nat := lineKey wHome (hashSet wSeeds wKey) 3
def wLine : Line :=
  { fp := fingerprint wSeeds wKey, wide := false, key := 0, record := 5, link := false, dirty := true, orient := false,
    st := BitVec.ofNat 128 (2 ^ 125), act := 0, telemetry := 0, mirror := 0, dpf := 1, dbf := 64, dpr := 0, dbr := 0, last := 0,
    home := 0, oAddr := 0, oPort := 0, used := 0 }

/-- A running device with packet 7 of the flow in pipeline 0's retire stage and the flow engine as given. -/
def wFlow (f : Flow → Flow) (t : Nat := 0) (p : Packet → Packet := id) (objs : Tbl Bytes := []) : State :=
  let s := wPath (fun q => { q with
    retire := [(0, [7])], pkts := [(7, p { wPkt 0 1 with ended := true, key := some wKey, flow := 1 })] }) objs t
  { s with flow := f { s.flow with nr := 1024, reqs := [(wHome, [7])] } }

theorem witness_lookup :
    (∀ l ∈ [wLine, { wLine with orient := true }], let s := wFlow fun f => { f with lines := [(wUnit, l)] }
      LookupNext s wHome 7 wKey [] ∧ holdFor s wHome wKey = none ∧ lineFind s wHome wKey = some wUnit ∧ lineAt s wUnit = some l ∧
        exceptionOf s wUnit 7 = none ∧ deltaFull l (lineReverse s wUnit wKey) (pkt s 7).rxLen = false ∧ acMeter l.act = 0 ∧
        segmentOf (pkt s 7) = none ∧ lineReverse s wUnit wKey = l.orient) ∧
    (let p := { wLine with fp := 1, st := BitVec.ofNat 128 (2 ^ 125 + 2 ^ 110) }
     let l := { wLine with link := true, dirty := false, st := 0, home := wUnit + 1 }
     let s := wFlow fun f => { f with lines := [(wUnit, l), (wUnit + 1, p)], records := [(5, wRec)] }
     LookupNext s wHome 7 wKey [] ∧ lineFind s wHome wKey = some wUnit ∧ lineAt s wUnit = some l ∧ lineAt s l.home = some p ∧
       exceptionOf s wUnit 7 = none ∧ deltaFull p true (pkt s 7).rxLen = false ∧ acMeter p.act = 0 ∧ stTrans p.st = true) ∧
    (let e : WbEntry := { line := wLine, fold := false }
     let s := wFlow fun f => { f with wb := [(wHome, [e])] }
     LookupNext s wHome 7 wKey [] ∧ lineFind s wHome wKey = none ∧ wbMatch s wHome wKey = some 0 ∧ (wbOf s wHome)[0]? = some e ∧
       stTrans e.line.st = false ∧ (∀ b, deltaFull e.line b (pkt s 7).rxLen = false) ∧ (wbOf s wHome).length ≤ 1022 ∧
       e.line.link = false ∧ segmentOf (pkt s 7) = none ∧ tget [] s.flow.foldWait wHome = [] ∧
       ∀ r ∈ s.flow.holds, r.2.readWaits = false) := by
  decide +kernel

theorem witness_miss :
    (let s := wFlow id
     LookupNext s wHome 7 wKey [] ∧ holdFor s wHome wKey = none ∧ lineFind s wHome wKey = none ∧ wbMatch s wHome wKey = none ∧
       oldHome s wKey = none ∧ (freeHold s wHome).isSome = true ∧ (tget [] s.flow.missQ 0).length < cfgN s 0x4010 0 1) ∧
    (let s := wFlow (fun f => { f with missQ := [(0, List.replicate 1024 1)] }) 0 id [(oa 0x4010 0 1, leBytes 4 1024)]
     LookupNext s wHome 7 wKey [] ∧ cfgN s 0x4010 0 1 ≤ (tget [] s.flow.missQ 0).length) ∧
    (∀ n ∈ [1, 16], let x := { emptyHold wKey 1 with chain := List.replicate n 9 }
      let s := wFlow (fun f => { f with holds := [(holdKey wHome 0, x)] }) 0 id [(oa 0x4006 0 0, leBytes 2 16)]
      LookupNext s wHome 7 wKey [] ∧ holdFor s wHome wKey = some (holdKey wHome 0) ∧ holdAt s (holdKey wHome 0) = some x ∧
        (x.chain.length < cfgN s 0x4006 0 0 ↔ n = 1)) := by decide +kernel

/-- Segments of an established flow whose forward direction ends at 5000. -/
theorem witness_tcp :
    let w : BitVec 128 := BitVec.ofNat 128 (2 * 2 ^ 120 + 5000 * 2 ^ 64)
    let t : BitVec 512 := BitVec.ofNat 512 (2 ^ 255 + 2 ^ 227)
    tpTcpCheck t = 2 ∧ (tcpDir w false).2.1 = 5000 ∧ (tcpDir w false).1 ≠ 0 ∧
      tcpPasses 14 w false { flags := 0, seq := 5000, ack := 0, win := 0, len := 65535 } = true ∧
      tcpPasses 14 w false { flags := 0, seq := 2 ^ 31, ack := 0, win := 0, len := 1 } = false ∧
      2 ^ 30 < sdiff 5000 (2 ^ 32 + 5000 - 2 ^ 30 - 1) := by decide +kernel

/-- The bucket that a fetch of the flow reads first, and its slot for record 5. -/
def wBucket : Nat := (layBuckets (layNow (wFlow id)) wKey).headD 0
def wSlot : BitVec 64 := mkSlot (laySig (layNow (wFlow id)) wKey) 5 0 false

/-- Hold entry 0 of the flow's slice with packet 7, in a state. -/
def wFetch (state : Nat) (f : Hold → Hold) : Tbl Hold := [(holdKey wHome 0, f { emptyHold wKey state with chain := [7] })]

theorem witness_token :
    let h := holdKey wHome 0
    (∀ p ∈ [(64000, 0), (0, 800), (0, 0)], let s := wFlow fun f => { f with
        missQ := [(0, [h])], holds := wFetch 1 id, tokens := if p.1 = 0 then [] else [(0, p.1)], pool := p.2, poolTurn := 15 }
      flowHalted s = false ∧ tget [] s.flow.missQ 0 = h :: [] ∧ (holdAt s h).isSome = true ∧
        (∀ c ∈ searchList s wKey, bucketGone s (searchAt s c).1 (searchAt s c).2 = false) ∧
        (800 ≤ tget 0 (tokensFill s).flow.tokens 0 ↔ p.1 ≠ 0) ∧ (800 ≤ (tokensFill s).flow.pool ↔ p.2 ≠ 0) ∧
        (p.1 = 0 → poolNext (tokensFill s) = some 0)) := by decide +kernel

theorem witness_arrivals :
    let l := searchList (wFlow id) wKey
    (let s := wFlow fun f => { f with holds := wFetch 2 fun x => { x with buckets := l }, index := [(8 * wBucket + 2, wSlot)] }
     l.length = 2 ∧ flowHalted s = false ∧ bucketMatches s (searchAt s (l.headD 0)).1 (searchAt s (l.headD 0)).2 wKey = [10] ∧
       recGone s 5 = false ∧ bucketMatches s (searchAt s (l.getD 1 0)).1 (searchAt s (l.getD 1 0)).2 wKey = [] ∧
       bucketGone s (searchAt s (l.getD 1 0)).1 (searchAt s (l.getD 1 0)).2 = false) ∧
    (∀ r ∈ [wRec, { wRec with key := wTcpKey }], let s := wFlow fun f => { f with
        holds := wFetch 2 fun x => { x with buckets := l, cands := [10, 12] }, records := [(5, r)] }
      wbEntries s 5 = [] ∧ wbEntries s 6 = [] ∧ (∀ r ∈ s.flow.holds, r.2.readWaits = false) ∧ (keyIs s 10 wKey = true ↔ r.key = wKey) ∧ recGone s 6 = false ∧ Unretired s 7 ∧ stTrans r.st = false ∧
        segmentOf (pkt s 7) = none ∧ acMeter r.act = 0 ∧ primaryOf s 5 = none ∧ (pkt s 7).rxLen < 2 ^ 28 ∧
        tsorted s.flow.holds = true ∧ tsorted s.flow.lines = true) ∧
    wbEntries (wFlow fun f => { f with wb := [(wHome, [{ line := wLine, fold := true }])] }) 5 ≠ [] := by decide +kernel

theorem witness_writeback :
    (let e : WbEntry := { line := wLine, fold := true }
     let s := wFlow fun f => { f with wb := [(wHome, [e])], records := [(5, wRec)] }
     flowHalted s = false ∧ wbOf s wHome = e :: [] ∧ flowRec s 5 = some wRec ∧ recGone s 5 = false ∧
       (awlReads s).contains 5 = false ∧ tget [] s.flow.foldWait wHome = [] ∧ ∀ h ∈ s.flow.holds, h.2.readWaits = false) ∧
    raw (wFlow id) < 0 + cyc (cfgN (wFlow id) 0x4005 0 0) ∧
    (let s := wFlow (fun f => { f with lines := [(wUnit, wLine)], reqs := [] }) (10 ^ 12)
     wbOf s wHome = [] ∧ flowHalted s = false ∧ tget 0 s.flow.folded wHome + cyc (cfgN s 0x4005 0 0) ≤ raw s ∧
       sliceReqs s wHome = [] ∧ tget [] s.flow.ageQ wHome = [] ∧ tsorted s.flow.lines = true ∧ lineAt s wUnit = some wLine ∧
       wUnit / 131072 = wHome ∧ (wbOf s wHome).length + s.flow.lines.length ≤ 1024) := by decide +kernel

/-- A template of bank 0 under number 0, in use by the packet of a fetch whose last bucket has no match. -/
def wSetup (t : Nat) (f : Flow → Flow := id) (p : Packet → Packet := id) (key : BitVec 384 := wKey) : State :=
  let s := wFlow (fun q => f { q with
    drawn := [(wHome, [21, 22])]
    holds := [(holdKey wHome 0, { emptyHold key 2 with chain := [7], buckets := [2 ^ 40] })] }) 0 fun q => p { q with key := some key }
  { s with
    ctl := { s.ctl with bank0 := { s.ctl.bank0 with templates := [(0, BitVec.ofNat 512 t)] } }
    fwd := { s.fwd with
      natab := [(3, BitVec.ofNat 128 (mapped 0xCB007109))]
      lbService := [(1, BitVec.ofNat 64 (2 ^ 63))], lbSlot := [], lbBackend := [] } }

theorem witness_setup :
    (∀ x ∈ [(0, wKey), (2 ^ 255 + 2 ^ 252, wKey), (2 ^ 255 + 2 ^ 252, wTcpKey), (2 ^ 255 + 4 * 2 ^ 252 + 6 * 2 ^ 244, wKey)],
      let s := wSetup x.1 id id x.2
      let T := template s (pktEpoch s 7) (aTemplate (stageZero (pkt s 7).acts))
      (holdAt s (holdKey wHome 0)).isSome = true ∧ flowHalted s = false ∧
        bucketMatches s (searchAt s (2 ^ 40)).1 (searchAt s (2 ^ 40)).2 x.2 = [] ∧ Unretired s 7 ∧ (pkt s 7).key = some x.2 ∧
        tsorted s.flow.holds = true ∧ segmentOf (pkt s 7) = none ∧ tpPickup T = false ∧ (kProto x.2 = 6 ↔ x.2 = wTcpKey) ∧
        tpKind T = x.1 / 2 ^ 252 % 8 ∧ tget [] s.flow.drawn wHome = 21 :: [22] ∧ 21 < drawLimit s ∧ recGone s 21 = false ∧
        classRefuses s (routineShape (tpRoutine T)).1 = false) ∧
    (let s := wSetup (2 ^ 255 + 2 ^ 252) fun f => { f with drawn := [], taken := (List.range 16).map fun j => (j, 64) }
     tget [] s.flow.drawn wHome = [] ∧ (∀ j, j < 16 → tget [] s.flow.chains j = [] ∧ chainSize (drawLimit s) j ≤ tget 0 s.flow.taken j)) := by
  decide +kernel

theorem witness_setupLb :
    let s := wSetup (2 ^ 255 + 2 * 2 ^ 252 + 2 ^ 171)
    let e := svEntry s 1
    let s2 := { s with fwd := { s.fwd with
      lbSlot := [(svTable e * 2 ^ 17 + keyHash s 2 wKey % 65537, BitVec.ofNat 32 (2 ^ 31 + 9))]
      lbBackend := [(9, BitVec.ofNat 256 (2 ^ 254 + 5 * 2 ^ 230))] } }
    svValid e = true ∧ lbSearch s (svTable e) true 8 (keyHash s 2 wKey % 65537) = none ∧
      (lbSearch s2 (svTable e) true 8 (keyHash s2 2 wKey % 65537)).isSome = true ∧
      tpKind (template s2 (pktEpoch s2 7) 0) = 2 ∧ tpService (template s2 (pktEpoch s2 7) 0) = 1 := by decide +kernel

/-- A pool of one address, entry 3, ports 1024 to 65535. -/
theorem witness_setupSnat :
    let s := wSetup (2 ^ 255 + 3 * 2 ^ 252 + 3 * 2 ^ 79 + 1024 * 2 ^ 43 + 65535 * 2 ^ 27)
    (match (snatPick s wHome (template s (pktEpoch s 7) 0) wKey).2.2 with
      | .port q rk => decide (q < 2 ^ 16) && homeSlice s rk == wHome
      | _ => false) = true ∧ tpKind (template s (pktEpoch s 7) 0) = 3 ∧ (freeHold s wHome).isSome = true := by decide +kernel

/-- A setup of record 5. -/
def wImage (written : Bool) : Setup := { record := 5, image := wRec, rkey := none, written := written }

theorem witness_setupWrites :
    let h := holdKey wHome 0
    (let s := wFlow fun f => { f with holds := wFetch 3 fun x => { x with setup := some (wImage false) } }
     let l := layNow s
     flowHalted s = false ∧ recGone s 5 = false ∧ s.flow.rehash = none ∧ bucketGone s l wBucket = false ∧ (freeSlot s l wBucket).isSome = true ∧
       primaryOf s 5 = none ∧ stTrans wRec.st = false ∧ (wbOf s wHome).length ≤ 1022 ∧ Unretired s 7 ∧ tsorted s.flow.holds = true) ∧
    (let s := wFlow fun f => { f with
       holds := wFetch 3 fun x => { x with setup := some (wImage true) }, records := [(5, wRec)], lines := [(wUnit, wLine)] }
     (holdAt s h).isSome = true ∧ Unretired s 7 ∧ segmentOf (pkt s 7) = none ∧ primaryOf s 5 = some wUnit ∧ lineAt s wUnit = some wLine ∧
       flowRec s 5 = some wRec ∧ acMeter wLine.act = 0 ∧ (cnTelemetry wRec.cnt).testBit 1 = false ∧
       (∀ b, deltaFull wLine b (pkt s 7).rxLen = false) ∧ tsorted s.flow.lines = true) ∧
    (∀ t ∈ [0, 800000], let s := wFlow (fun f => { f with holds := wFetch 3 id }) t
      (holdAt s h).isSome = true ∧ Unretired s 7 ∧ (0 + cyc (cfgN s 0x4032 0 0) ≤ raw s ↔ t = 800000)) := by decide +kernel

theorem witness_ageing :
    (∀ x ∈ [(0, 0), (0, 40000), (1, 40000)], let r := { wRec with st := BitVec.ofNat 128 (2 ^ 125 + x.1 * 2 ^ 108) }
      let s0 := wFlow fun f => { f with
        records := [(5, r)], ageQ := [(wHome, [(5, 0)])], reqs := [], lines := [(wUnit, { wLine with st := r.st })], index := [(8 * wBucket + 2, wSlot)] }
      let s := { s0 with time := { s0.time with ms := BitVec.ofNat 32 x.2 } }
      flowHalted s = false ∧ lookupReady s wHome = none ∧ (awlReads s).contains 5 = false ∧
        tget [] s.flow.foldWait wHome = [] ∧ (∀ h ∈ s.flow.holds, h.2.readWaits = false) ∧ cfgOn s 0x4031 0 0 = true ∧ recGone s 5 = false ∧ flowRec s 5 = some r ∧
        (classTimeout s (cnClass r.cnt) ≤ idleMs s (cnLast r.cnt) ↔ x.2 ≠ 0) ∧ (stPinned r.st = true ↔ x.1 = 1) ∧
        (cnTelemetry r.cnt).testBit 2 = false ∧ sliceAsleep s wHome = false ∧ inWrites s 5 = none ∧
        (match mergedRec s 5 with
          | some m => decide (classTimeout s (stClass m.st) ≤ idleMs s (cnLast m.cnt)) == (x.2 != 0)
          | none => false) = true ∧
        tsorted s.flow.records = true ∧ tsorted s.flow.lines = true ∧ tsorted s.flow.index = true ∧ tsorted s.flow.index2 = true ∧
        stTrans r.st = false ∧ holdFor s wHome wKey = none ∧ (freeHold s wHome).isSome = true ∧
        (cfgN s 0x4034 0 0).testBit 0 = true ∧ classRefuses s 4 = false) ∧
    cfgOn (wFlow id 0 id [(oa 0x4031 0 0, [0])]) 0x4031 0 0 = false := by decide +kernel

theorem witness_removal :
    let s := wFlow fun f => { f with holds := [(holdKey wHome 0, emptyHold wKey 4), (holdKey wHome 1, emptyHold wTcpKey 1)] }
    flowHalted s = false ∧ tsorted s.flow.holds = true ∧ (∀ e ∈ holdsOf s wHome, e.2.state = 4 → e.2.chain = []) := by decide +kernel

/-- A device whose mailbox holds a flow command, with record 5 of the flow. -/
def wHostFlow (op index : Nat) (payload : Bytes) (f : Flow → Flow := id) : State :=
  let s := wTable (wHead op 0x10 1 index) false payload
  { s with flow := f { s.flow with nr := 1024, drawn := [(wHome, [21, 22])] } }

theorem witness_hostSubmit :
    ∀ q ∈ [(1, 0x11, 16), (2, 0x11, 0), (3, 0x11, 0), (1, 0x10, 128), (2, 0x10, 0), (3, 0x10, 0), (6, 0x10, 96)],
      let h := wHead q.1 q.2.1 1 5
      let p : Bytes := List.replicate q.2.2 0
      let s0 := wTable h false p
      let s : State := { s0 with flow := { s0.flow with nr := 1024 } }
      let i := newItem s 10 5 1
      let s1 : State := { s with
        ctl := { s.ctl with active := { s.ctl.active with objs := [(oa 0x4810 3 2, leBytes 4 64)] } }
        aw := { s.aw with ready := [(3, List.replicate 64 i)] } }
      let c := tblCmd h false p 4071
      TableRequest s h false p ∧ TableRequest s1 h false p ∧ tblRefused c s = none ∧ tblRefused c s1 = none ∧
        c.table = q.2.1 ∧ tblRow c = (if q.2.1 = 0x11 then q.1 else if q.1 = 6 then 9 else q.1 + 5) ∧
        classRefuses s 3 = false ∧ classRefuses s1 3 = true := by decide +kernel

/-- A HOST_FLOW set whose turn it is, its command, and the command ended. -/
theorem witness_hostClose :
    let h := wHead 3 0x10 1 5
    let s0 := wTable h false []
    let d : HostCmd := { tag := msgTag s0, src := .msg { who := 0, msg := mbxMsg s0 }, cmd := tblCmd h false [] 4071,
                         replyHbm := false, replyAt := 0, replyLimit := 0, fail := 0, ended := none }
    let e : HostEnd := { status := 4, detail := 0, done := 0, result := 0, reply := [] }
    let c : CommitSet := { item := { newItem s0 10 5 1 with data := d.tag }, staged := [] }
    let s : State := { s0 with aw := { s0.aw with closer := [c], hostCmds := [d] } }
    let s1 : State := { s0 with
      aw := { s0.aw with hostCmds := [{ d with ended := some e }] }
      host := { s0.host with rings := tput s0.host.rings cmdKey { ring s0 cmdKey with stopped := true } } }
    awlsHalted s = false ∧ flowHalted s = false ∧ setMayApply s c = true ∧ (ring s1 cmdKey).stopped = true := by decide +kernel

theorem witness_hostCmdFound (d : HostCmd) (h : d.ended = none) :
    ([d].find? fun x => x.tag == d.tag && x.ended.isNone) = some d := by simp [h]

theorem witness_hostMessageKept (s : State) (f : Cluster) (g : HostIf) : mbxMsg { s with aw := f, host := g } = mbxMsg s := rfl

theorem witness_hostWrite :
    (∀ x ∈ [(1, false), (2, true), (2, false)],
      let r := { wRec with st := BitVec.ofNat 128 (x.1 * 2 ^ 124) }
      let p := recBytes r
      let s := wHostFlow 1 0xFFFFFFFF p fun f => if x.2 then { f with records := [(5, wRec)], index := [(8 * wBucket + 2, wSlot)] } else f
      let c := tblCmd (wHead 1 0x10 1 0xFFFFFFFF) false p 4071
      let y := storedImage (recOfBytes (slice c.payload 0 128))
      let l := layNow s
      c.table = 0x10 ∧ c.op = 1 ∧ c.count = 1 ∧ homeSlice s y.key = wHome ∧ holdFor s wHome y.key = none ∧ stTrans y.st = false ∧
        sliceReqs s wHome = [] ∧ tget [] s.flow.ageQ wHome = [] ∧
        bf y.st 127 124 = x.1 ∧ (idxFind s y.key).isSome = x.2 ∧ tget [] s.flow.drawn wHome = 21 :: [22] ∧ 21 < drawLimit s ∧
        recGone s 21 = false ∧ s.flow.rehash = none ∧ bucketGone s l wBucket = false ∧ (freeSlot s l wBucket).isSome = true) ∧
    (let p := recBytes wRec
     let s := { wHostFlow 1 0xFFFFFFFF p with flow := { (wHostFlow 1 0xFFFFFFFF p).flow with
       drawn := [], taken := (List.range 16).map fun j => (j, 64) } }
     tget [] s.flow.drawn wHome = [] ∧ idxFind s wKey = none ∧ sliceReqs s wHome = [] ∧
       (∀ j, j < 16 → tget [] s.flow.chains j = [] ∧ chainSize (drawLimit s) j ≤ tget 0 s.flow.taken j)) := by decide +kernel

theorem witness_hostFlow :
    ∀ op ∈ [2, 3, 6], ∀ b ∈ [true, false],
      let p : Bytes := if op = 6 then List.replicate 96 0 else []
      let s := wHostFlow op 5 p fun f => if b then { f with records := [(5, wRec)] } else f
      let c := tblCmd (wHead op 0x10 1 5) false p 4071
      c.table = 0x10 ∧ c.op = op ∧ c.count = 1 ∧ c.index = 5 ∧ 128 ≤ c.limit ∧ inWrites s 5 = none ∧ (flowRec s 5).isSome = b ∧
        recGone s 5 = false ∧ (mergedRec s 5).isSome = b ∧ sliceReqs s wHome = [] ∧ tget [] s.flow.ageQ wHome = [] ∧
        homeSlice s wKey = wHome ∧ tsorted s.flow.records = true ∧ tsorted s.flow.lines = true := by decide +kernel

/-- REHASH in operation slot 2, in a phase. -/
def wRehash (phase : Nat) (seeds : List Nat) (f : Flow → Flow := id) : State :=
  let r : Rehash := { op := 2, seeds := seeds, nb := 2 ^ 24, region := 80 * gb, lay := [], next := wBucket, phase := phase, since := 0,
                      oldSeeds := wSeeds, newOnly := [] }
  let s := wFlow fun q => f { q with records := [(5, wRec)], index := [(8 * wBucket + 2, wSlot)], rehash := some r }
  { s with ctl := { s.ctl with ops := [(2, wOp 1 2)] } }

theorem witness_rehash :
    (let s := wRehash 0 [1, 2, 3, 4, 5]
     (workingOp s 2).isSome = true ∧ flowHalted s = false ∧ s.hbm.pcs = [] ∧ wBucket < (layNow s).nb ∧
       (copyList [8 * wBucket + 2] s).1 = true ∧ slotKey s 5 0 ≠ none) ∧
    (∀ l ∈ [[1, 2, 3, 4, 5], wSeeds], let s := wRehash 1 l
      (workingOp s 2).isSome = true ∧ flowHalted s = false ∧ sliceReqs s wHome = [7] ∧ (pkt s 7).key = some wKey ∧
        (s.flow.rehash.map seedsMove = some true ↔ l ≠ wSeeds)) ∧
    (let s := wRehash 2 [1, 2, 3, 4, 5] fun f => { f with
       holds := [(0, emptyHold wKey 1)], surrender := [(bareKey wKey, 0)] }
     ((s.flow.surrender.find? fun q => oldHome s q.1 == some wHome &&
        !((holdsOf s wHome).any fun h => h.1 != q.2 && bareKey h.2.key == q.1))) = some (bareKey wKey, 0) ∧
       (holdAt s 0).isSome = true ∧ s.flow.foldWait = [] ∧ (∀ h ∈ s.flow.holds, h.2.readWaits = false)) ∧
    (let s := wRehash 2 [1, 2, 3, 4, 5]
     s.flow.surrender = [] ∧ flowHalted s = false ∧ (tfind s.ctl.ops 2).isSome = true) := by decide +kernel

/-- The key stands in the new layout; and a new layout of one full bucket has no room. -/
theorem witness_rehashFound :
    (let l := layNow (wRehash 2 [1, 2, 3, 4, 5])
     let s := wRehash 2 [1, 2, 3, 4, 5] fun f => { f with
       index := [(8 * (layBuckets l wKey).headD 0, mkSlot (laySig l wKey) 5 0 false)]
       holds := [(0, emptyHold wKey 1)], surrender := [(bareKey wKey, 0)] }
     idxFind s wKey = some 10 ∧ tsorted s.flow.lines = true) ∧
    (let s0 := wRehash 0 [1, 2, 3, 4, 5]
     let s := { s0 with flow := { s0.flow with
       rehash := s0.flow.rehash.map fun r => { r with nb := 1 }, index2 := (List.range 8).map fun j => (j, mkSlot 0 9 0 false) } }
     (copyList [8 * wBucket + 2] s).1 = false) := by decide +kernel

/-- RESIZE_PARTITION in operation slot 2. -/
def wResize (part size next : Nat) (f : Flow → Flow := id) : State :=
  let z : Resize := { op := 2, part := part, size := size, base := 80 * gb, lay := [], next := next }
  let s := wFlow fun q => f { q with resize := some z }
  { s with ctl := { s.ctl with ops := [(2, { wOp 2 2 with total := 2 ^ 40 })] } }

theorem witness_resize :
    (let s := wResize 0 40 0
     (workingOp s 2).isSome = true ∧ flowHalted s = false ∧ partSize s 0 < 40 * gb) ∧
    (let r := 2 ^ 23 + 3
     let s := wResize 0 1 0 fun f => { f with records := [(r, wRec)], nr := 2 ^ 28, drawn := [(wHome, [21, 22])], reqs := [] }
     gb < partSize s 0 ∧ inWrites s r = none ∧ sliceReqs s wHome = [] ∧ tget [] s.flow.ageQ wHome = [] ∧ flowRec s r = some wRec ∧ homeSlice s wKey = wHome ∧
       (s.flow.records.filter fun e => decide (2 ^ 23 + 0 ≤ e.1) && decide (e.1 < 2 ^ 23 + 0 + 65536)).map (·.1) = [r] ∧
       tget [] s.flow.drawn wHome = 21 :: [22] ∧ 21 < drawLimit s ∧ recGone s 21 = false ∧ tsorted s.flow.records = true) ∧
    (let s := wResize 3 8 0
     Memory.wf s.hbm.mem = true ∧ partBase s 3 + 2 ^ 20 ≤ 80 * gb) := by decide +kernel

theorem witness_walks :
    (∀ k ∈ [4, 5], ∀ q ∈ [wRec, { wRec with st := BitVec.ofNat 128 (2 ^ 125 + 2 ^ 108) }],
      let s0 := wFlow fun f => { f with records := [(5, q)], reqs := [] }
      let s := { s0 with ctl := { s0.ctl with ops := [(2, { wOp k 2 with params := List.replicate 128 0 })] } }
      (workingOp s 2).isSome = true ∧ flowHalted s = false ∧ inWrites s 5 = none ∧ recGone s 5 = false ∧ (mergedRec s 5).isSome = true ∧
        tsorted s.flow.records = true ∧ sliceReqs s wHome = [] ∧ homeSlice s q.key = wHome ∧ walkMatches s (List.replicate 128 0) q = true ∧
        (s.flow.records.filter fun e => decide (0 ≤ e.1) && decide (e.1 < min s.flow.nr (0 + 100))).map (·.1) = [5]) ∧
    (let s0 := wFlow id
     let s := { s0 with ctl := { s0.ctl with ops := [(2, wOp 3 2)] } }
     let s1 : State := { s with
       ctl := { s.ctl with active := { s.ctl.active with objs := [(oa 0x4810 3 2, leBytes 4 64)] } }
       aw := { s.aw with ready := [(3, List.replicate 64 (newItem s 11 5 1))] } }
     (workingOp s 2).isSome = true ∧ flowHalted s = false ∧ classRefuses s 3 = false ∧ classRefuses s1 3 = true ∧
       loadOf (2 + 16 * (wOp 3 2).order) s = some (2, wOp 3 2)) := by decide +kernel

theorem witness_cacheMode :
    (let s := wFlow fun f => { f with converting := 1, lines := [(wUnit, { wLine with wide := true }), (wUnit + 1, wLine)] }
     s.flow.converting ≠ 0 ∧ flowHalted s = false ∧ tsorted s.flow.lines = true ∧ cfgOn s 0x4003 0 0 = false ∧ s.flow.holds = []) ∧
    (0 < cfgN (wFlow id) 0x4007 0 0 ∧ (1 : Nat) < cfgN (wFlow id) 0x4007 0 0 ∧ cfgN (wFlow id) 0x4007 0 0 ≤ 16) ∧
    (wFlow id).flow.converting = 0 ∧
    (∀ v ∈ [(0, 0), (1, 4), (2, 4)], tget (0, 0) (wFlow fun f => { f with spare := if v = (0, 0) then [] else [(3, v)] }).flow.spare 3 = v) := by
  decide +kernel

/-- The example of 5.4.4: H1 and H2 give home slice 9, set 382 in bank 0, and the buckets 73,144,297 and 52,536,518; the
record lies at byte 24,320,539,008 of its partition. -/
theorem test_lookupNumbers : 0x3A5C17E9 % 16 = 9 ∧ 0x3A5C17E9 / 16 % 16384 = 382 ∧ 382 / 1024 = 0 ∧
    0x3A5C17E9 % 100663296 = 73144297 ∧ 0x0F21A4C6 % 100663296 = 52536518 ∧ 128 * 190004211 = 24320539008 := by decide

/-- The example of 6.4: a flow of class 0 last hit at 4,000,000 ms is past its timeout at 4,030,120, and renewed at
4,030,121 it is not. -/
theorem test_ageExample :
    (let s0 := wFlow id
     let s := { s0 with time := { s0.time with ms := 4030120 } }
     idleMs s 4000000 = 30120 ∧ classTimeout s 0 ≤ idleMs s 4000000) ∧
    (let s0 := wFlow id
     let s := { s0 with time := { s0.time with ms := 4030121 } }
     idleMs s 4030121 < classTimeout s 0) := by decide +kernel

/-! ### The awl cluster -/

/-- Arguments of a memory operation. -/
def wArgs : MemArgs := { offset := 0, len := 0, what := 0, target := 0, value := 0, seed := 0, staged := 0 }

/-- An item, a context of it at patch word 0 with tag 2 outstanding, and a device whose awl 3 holds contexts. -/
def wItem (routine cls basis mode : Nat) : Item :=
  { routine := routine, param := 0, cls := cls, basis := basis, mode := mode, epoch := 0, slice := 0, source := 0, domain := 0,
    dseq := 0, record := 0, desc := 0, created := 0, dispatches := 0, data := 0, bytes := [], avoid := 0, since := 0 }
def wCtx (i : Item) : Ctx :=
  { id := 1, item := i, mem := [], ready := true, begun := true, patch := true, pc := 0, stack := [], flags := 0, issued := false,
    late := [], atYield := false, busy := [(2, { mop := 6, args := wArgs, reg := 1, awl := 3, data := [1] })], done := [],
    staged := [], grants := [], mask := 4 }
def wAw (f : Cluster → Cluster) (objs : Tbl Bytes := []) (t : Nat := 0) : State :=
  let s := wPath id objs t
  { s with aw := f s.aw }
def wAt (w : Nat) (c : Ctx) (f : Cluster → Cluster := id) : State :=
  wAw fun x => f { x with patchRam := [(0, BitVec.ofNat 192 w)], awls := [(3, { awlReset with l0 := some c })] }
def wWord (seq target : Nat) : Nat := seq * 2 ^ 189 + target * 2 ^ 166

/-- An awl reads record 5 while packet 7's lookup of its key waits. -/
theorem witness_lookupWaits :
    let c := { wCtx (wItem 1 1 2 2) with busy := [(2, { mop := 5, args := { wArgs with target := 5 }, reg := 1, awl := 3, data := [] })] }
    let s0 := wFlow fun f => { f with records := [(5, wRec)], wb := [(wHome, [{ line := wLine, fold := true }])] }
    let s := { s0 with aw := { s0.aw with parked := [c] } }
    sliceReqs s wHome = [7] ∧ lookupReady s wHome = none ∧ wbOf s wHome ≠ [] ∧
      ∀ e ∈ wbOf s wHome, (awlReads s).contains e.line.record = true := by decide +kernel

theorem witness_words :
    (∀ q ∈ [(0, 0), (1, 9), (2, 9), (3, 9), (5, 1), (5, 4), (6, 1), (6, 4), (7, 0)],
      AtWord (wAt (wWord q.1 q.2) (wCtx (wItem 5 1 0 0))) 3 0 (wCtx (wItem 5 1 0 0)) (BitVec.ofNat 192 (wWord q.1 q.2)) ∧
        mwSeq (BitVec.ofNat 192 (wWord q.1 q.2)) = q.1 ∧
        (q.1 ∈ [5, 6] → (tagsDone (wCtx (wItem 5 1 0 0)) (mwTarget (BitVec.ofNat 192 (wWord q.1 q.2))) = true ↔ q.2 = 1)) ∧
        ctxFull (wAt (wWord q.1 q.2) (wCtx (wItem 5 1 0 0))) = false ∧
        closerFull (wAt (wWord q.1 q.2) (wCtx (wItem 5 1 0 0))) = false ∧
        ctrGet (wAt (wWord q.1 q.2) (wCtx (wItem 5 1 0 0))) (oa 0x4835 5 1) + 1 < 2 ^ 48) := by decide +kernel

theorem witness_call_return :
    (∀ n ∈ [0, 1, 8], ∀ q ∈ [3, 4], let c := { wCtx (wItem 5 1 0 0) with stack := List.replicate n (false, 7) }
      AtWord (wAt (wWord q 9) c) 3 0 c (BitVec.ofNat 192 (wWord q 9)) ∧ mwSeq (BitVec.ofNat 192 (wWord q 9)) = q ∧
        c.item.dispatches < 2 ∧ c.grants = [] ∧ c.late = [] ∧ Memory.wf c.mem = true) := by decide +kernel

theorem witness_store_full :
    (let c := wCtx (wItem 5 1 0 0)
     let s := wAt (wWord 6 4) c fun x => { x with parked := List.replicate 4096 c }
     AtWord s 3 0 c (BitVec.ofNat 192 (wWord 6 4)) ∧ tagsDone c (mwTarget (BitVec.ofNat 192 (wWord 6 4))) = false ∧ ctxFull s = true) := by decide +kernel

theorem witness_closer_full :
    (let c := wCtx (wItem 15 0 0 0)
     let s := wAt (wWord 7 0) c fun x => { x with closer := List.replicate 4096 { item := { wItem 10 3 5 1 with dseq := 1 }, staged := [] } }
     AtWord s 3 0 c (BitVec.ofNat 192 (wWord 7 0)) ∧ closerFull s = true) := by decide +kernel

theorem witness_match_registers :
    (let s := wAw fun x => { x with matchReg := [(1, 0x80070100), (5, 0x80080100), (6, 0x80090200)] }
     tsorted s.aw.matchReg = true ∧ tfind s.aw.matchReg 1 = some 0x80070100 ∧ mrValid 0x80070100 = true ∧ mrRom 0x80070100 = 0x100 ∧
       fetchAt s (false, 0x100) = (true, 7) ∧ fetchAt s (false, 0x101) = (false, 0x101)) := by decide +kernel

theorem witness_memory_operations :
    (∀ m ∈ [1, 2, 3, 4, 5, 6, 7, 8, 9, 10, 11], ∀ tag ∈ [2, 3], let c := wCtx (wItem 5 1 0 0)
      let w := m * 2 ^ 92 + tag * 2 ^ 88
      let s := wAt w c
      running s 3 = some (0, c) ∧ wordOf s c = BitVec.ofNat 192 w ∧ c.issued = false ∧ mwMop (BitVec.ofNat 192 w) = m ∧
        mwTag (BitVec.ofNat 192 w) = tag ∧ ((tfind c.busy tag).isSome = true ↔ tag = 2) ∧ c.grants = []) := by decide +kernel

theorem witness_completions :
    (∀ q ∈ [(3, 0), (5, 0), (5, 1), (6, 0)],
      let o : MemOp := { mop := q.1, args := { wArgs with what := q.2, target := 5 }, reg := 1, awl := 3, data := beBytes 48 wKey.toNat }
      let c := { wCtx (wItem 1 1 2 2) with busy := [(2, o)] }
      let s := wFlow fun f => { f with records := [(5, wRec)] }
      let s1 : State := { s with aw := { s.aw with awls := [(3, { awlReset with l1 := some c })] } }
      findCtx s1 1 = some (.slot 3 1, c) ∧ findCtx s1 9 = none ∧ tfind c.busy 2 = some o ∧ flowHalted s1 = false ∧
        rangePoisoned s1 (awlDataAddr s1 5) 64 = false ∧ (mergedRec s1 5).isSome = true ∧ idxFind s1 wKey = none) := by decide +kernel

theorem witness_probe_absent :
    (let rk : BitVec 384 := mkKey 0 0 0 17 2000 53 (mapped 0x0A010203) (mapped 0xC6336407) 0 false
     let i := { wItem 1 1 2 2 with source := 1, slice := wHome, desc := 7 }
     let o : MemOp := { mop := 5, args := { wArgs with what := 1 }, reg := 1, awl := 3, data := beBytes 48 rk.toNat }
     let x := { emptyHold wKey 3 with chain := [7] }
     let s := wFlow fun f => { f with holds := [(holdKey wHome 0, x)] }
     let s1 : State := { s with aw := { s.aw with awls := [(3, { awlReset with l0 := some { wCtx i with busy := [(2, o)] } })] } }
     itemHold s1 i = some (holdKey wHome 0, x) ∧ idxFind s1 rk = none ∧ holdFor s1 (homeSlice s1 rk) rk = none ∧
       (freeHold s1 (homeSlice s1 rk)).isSome = true ∧ freeHold s1 (homeSlice s1 rk) ≠ some (holdKey wHome 0) ∧ x.other = none) := by decide +kernel

theorem witness_parked :
    (∀ m ∈ [4, 12], let c := { wCtx (wItem 5 1 0 0) with mask := m }
      let s := wAw fun x => { x with parked := [c] }
      let o : MemOp := { mop := 6, args := wArgs, reg := 1, awl := 3, data := [1] }
      findCtx s 1 = some (.store, c) ∧ tfind c.busy 2 = some o ∧ (tagsDone { c with busy := tdel c.busy 2 } m = true)) := by decide +kernel

theorem witness_parked_waits :
    (let c := { wCtx (wItem 5 1 0 0) with mask := 12, busy := (wCtx (wItem 5 1 0 0)).busy ++ [(3, { mop := 6, args := wArgs, reg := 1, awl := 3, data := [1] })] }
     findCtx (wAw fun x => { x with parked := [c] }) 1 = some (.store, c) ∧ tagsDone { c with busy := tdel c.busy 2 } 12 = false) := by decide +kernel

/-- Classes with one item each: what may be dispatched. -/
def wWaits (l : List (Nat × List Item)) (f : Cluster → Cluster := id) (objs : Tbl Bytes := []) (t : Nat := 1000) : State :=
  let s := wAw (fun x => f { x with ready := l }) objs t
  { s with time := { s.time with counter := BitVec.ofNat 80 (t * 2 ^ 48) } }

theorem witness_dispatch :
    (let i := wItem 1 1 2 2
     let j := wItem 10 3 5 1
     let s := wWaits [(1, [i]), (3, [j])]
     awlsHalted s = false ∧ tcanon [] s.aw.ready = true ∧ tcanon [] s.aw.front = true ∧ classStrict s 1 = true ∧
       classStrict s 3 = false ∧ (classView s 1)[0]? = some (i, none, false) ∧ (awlFor s 1 i).isSome = true ∧
       (awlFor s 3 j).isSome = true ∧ classView s 0 = [] ∧ s.aw.strictRun + 1 < cfgN s 0x4831 0 0 ∧ credit s 3 = 0 ∧ tcanon 0 s.aw.credit = true) ∧
    (let j := wItem 10 3 5 1
     let s := wWaits [(3, [j])] fun x => { x with credit := [(3, 2)] }
     (classView s 3)[0]? = some (j, none, false) ∧ (awlFor s 3 j).isSome = true ∧ credit s 3 = 2 ∧ classStrict s 3 = false) ∧
    (let i := wItem 1 1 2 2
     let d := { domainReset with out := 1 }
     let s := wWaits [(1, [i])] fun x => { x with domains := [(domainKey 2 0, d)] }
     0 < (domainOf s i).out ∧ classView s 1 = [(i, none, false)]) ∧
    (let s := wWaits []
     ∀ k, k < 8 → classView s k = []) := by decide +kernel

theorem witness_awlFor :
    (let i := wItem 1 1 2 2
     let s := wWaits [] fun x => { x with domains := [(domainKey 2 0, { domainReset with lastAwl := 38 })] }
     (domainOf s i).lastAwl = 38 ∧ awlTakes s 37 = true ∧ awlFor s 1 i = some 37) ∧
    (let i := wItem 5 1 0 0
     itemWait (wWaits [] id [] 0) i < cfgN (wWaits [] id [] 0) 0x4830 0 0 ∧ cfgN (wWaits []) 0x4830 0 0 ≤ itemWait (wWaits []) i ∧
       awlTakes (wWaits []) 0 = true ∧ awlIdle (wWaits []) 0 = true ∧ awlFor (wWaits []) 1 i = some 0 ∧
       awlFor (wWaits []) 1 { i with slice := 9 } = some 32 ∧ awlFor (wWaits []) 1 { i with avoid := 1 } = some 1 ∧
       awlFor (wWaits []) 0 i = some 0) := by decide +kernel

theorem witness_prefetch :
    (∀ q ∈ [(1, 1), (7, 2), (9, 4), (8, 3)], ∀ b ∈ [true, false],
      let i := { wItem q.1 1 0 0 with source := q.2, desc := 7, record := 5, bytes := List.replicate 144 1 }
      let c := { wCtx i with ready := false, begun := b }
      let s := wFlow fun f => { f with records := [(5, wRec)] }
      let s1 : State := { s with aw := { s.aw with awls := [(3, { awlReset with l1 := some c })] } }
      slotCtx (awl s1 3) 1 = some c ∧ Memory.wf c.mem = true ∧ flowHalted s1 = false ∧ (pkt s1 7).key = some wKey ∧
        (namesPacket i = true ↔ q.2 ≤ 2) ∧ (namesRecord i = true ↔ q.2 ∈ [2, 4]) ∧ (mergedRec s1 5).isSome = true) := by decide +kernel

theorem witness_yield :
    (let c := { wCtx (wItem 5 1 0 0) with atYield := true }
     let s := wAt 0 c
     let h : State := { s with ctl := { s.ctl with stopped := [(.awls, 0)] } }
     let q : State := { s with safe := { s.safe with domains := [(16, 3)] } }
     let u := wAw fun x => { x with
       ready := [(0, [wItem 15 0 0 0])], awls := (List.range 64).map fun a => (a, { awlReset with l0 := some c }) }
     running s 3 = some (0, c) ∧ ctxFull s = false ∧ awlsHalted s = false ∧ urgentWaits s = false ∧ tsorted s.aw.awls = true ∧
       running h 3 = some (0, c) ∧ awlsHalted h = true ∧ ctxFull h = false ∧ running q 3 = some (0, c) ∧ awlsHalted q = false ∧
       tget 0 q.safe.domains 16 = 3 ∧ running u 3 = some (0, c) ∧ urgentWaits u = true ∧ readyItems u 0 = [wItem 15 0 0 0] ∧
       frontItems u 0 = [] ∧ tsorted u.aw.awls = true ∧ ctxFull u = false) := by decide +kernel

theorem witness_item_faults :
    (let c := wCtx (wItem 5 1 0 0)
     let d := wCtx (wItem 10 3 5 1)
     let s := wAw fun x => { x with awls := [(3, { awlReset with l0 := some c, l1 := some d })] }
     let z := wAw fun x => { x with awls := [(4, { awlReset with retired := true })] }
     running s 3 = some (0, c) ∧ slotCtx (awl s 3) 1 = some d ∧ d.item.cls ≠ c.item.cls ∧ (awl s 3).retired = false ∧
       (awl z 4).retired = true ∧ running z 4 = none ∧ tcanon awlReset s.aw.awls = true) ∧
    (let c := wCtx { wItem 10 3 5 1 with dispatches := 2 }
     let s := wAt 0 c
     running s 3 = some (0, c) ∧ tcanon awlReset s.aw.awls = true ∧ tcanon domainReset s.aw.domains = true ∧
       ctrGet s (oa 0x4835 10 2) + 1 < 2 ^ 48) := by decide +kernel

theorem witness_class_age_and_timers :
    (let i := wItem 1 1 2 2
     (∀ t ∈ [0, 1000000], let s := wWaits [(1, [i])] id [] t
       readyItems s 1 = [i] ∧ (cfgN s 0x4810 1 3 ≤ itemWait s i ↔ t = 1000000) ∧ tfind s.cnt.lims (0x0606 * 2 ^ 16 + 1) = none)) ∧
    (let s := wWaits [(1, [wItem 1 1 2 2])] id [] 1000000
     let l : Lim := { last := 1000001, occ := [] }
     let s1 : State := { s with cnt := { s.cnt with lims := [(0x0606 * 2 ^ 16 + 1, l)] } }
     l.last ≠ 0 ∧ raw s1 < l.last - 1 + cycSecond) ∧
    (∀ b ∈ [true, false], let s := wWaits []
      let f := wWaits [(if b then 7 else 6, List.replicate 4096 (wItem 12 6 0 0))]
      let r := wWaits [] fun x => { x with timers := [timerKey b 5] }
      classRefuses s (if b then 7 else 6) = false ∧ classRefuses f (if b then 7 else 6) = true ∧ s.aw.timers = [] ∧ f.aw.timers = [] ∧
        r.aw.timers.contains (timerKey b 5) = true) := by decide +kernel

/-- A staged operation; commit sets at the Closer. -/
def wStaged (mop what target : Nat) (data : Bytes) : MemOp :=
  { mop := mop, args := { wArgs with what := what, target := target, value := 1 }, reg := 0, awl := 3, data := data }
def wClose (l : List CommitSet) (f : Flow → Flow := id) : State :=
  let s := wFlow f
  { s with aw := { s.aw with closer := l } }

theorem witness_closer :
    (let i := wItem 10 3 5 1
     let late : CommitSet := { item := { i with dseq := 1 }, staged := [] }
     let c : CommitSet := { item := i, staged := [wStaged 4 0 5 (List.replicate 64 1)] }
     let s := wClose [late, c]
     setMayApply s late = false ∧ setMayApply s c = true ∧ hasSlicePart c.item = false ∧ awlsHalted s = false ∧
       tcanon domainReset s.aw.domains = true ∧ Memory.wf s.hbm.mem = true ∧ (domainOf s i).gone = [] ∧ i.dseq = (domainOf s i).release ∧
       i.routine ∉ [8, 11, 12, 14]) ∧
    (∀ q ∈ [(4, 0), (10, 0), (5, 2), (5, 3)],
      let i := wItem 4 3 5 1
      let c : CommitSet := { item := i, staged := [wStaged q.1 q.2 5 (if q.1 = 5 then recBytes wRec else List.replicate 64 1)] }
      let s := wClose [c]
      setMayApply s c = true ∧ hasSlicePart i = false ∧ i.routine ∉ [8, 10, 11, 12, 14] ∧ awlsHalted s = false ∧ flowHalted s = false ∧
        i.dseq = (domainOf s i).release ∧ ctrGet s (ctrAddr 5) + 1 < 2 ^ 48) := by decide +kernel

theorem witness_closer_live : LiveTablesCanonical (wClose []).fwd := by unfold LiveTablesCanonical; decide +kernel

/-- A record that a SLICE WRITE replaces, and an index entry that another one adds. -/
theorem witness_slice_write :
    (let s := wClose [] fun y => { y with reqs := [], records := [(5, wRec)] }
     flowRec s 5 = some wRec ∧ sliceReqs s wHome = [] ∧ tget [] s.flow.ageQ wHome = [] ∧ homeSlice s wKey = wHome) ∧
    (let s := wClose [] fun y => { y with reqs := [] }
     let k : BitVec 384 := BitVec.ofNat 384 (beNat (beBytes 48 wKey.toNat))
     let l := layNow s
     let b := (layBuckets l k).headD 0
     k = wKey ∧ sliceReqs s wHome = [] ∧ idxFind s k = none ∧ s.flow.rehash = none ∧ bucketGone s l b = false ∧
       (freeSlot s l b).isSome = true) := by decide +kernel

/-- HOST_FLOW commands: none, one of the command ring that has not ended, and one that has. -/
theorem witness_hostFlush :
    let s := wClose []
    let w := fun (e b : Bool) (l : List HostCmd) => ({ s with
      host := { s.host with rings := [(cmdKey, { ringReset cmdKey with enable := e, stopped := b })] }
      aw := { s.aw with hostCmds := l } } : State)
    let d := fun (e : Option HostEnd) => ({
      tag := 0, src := .ring 0, cmd := tblCmd 0 false [] 0, replyHbm := false, replyAt := 0, replyLimit := 0, fail := 0, ended := e } : HostCmd)
    let x : HostEnd := { status := 0, detail := 0, done := 1, result := 0, reply := [] }
    (ring (w true false []) cmdKey).enable = true ∧ (ring (w false true []) cmdKey).stopped = true ∧
      (ring (w false false []) cmdKey).enable = false ∧ (ring (w false false []) cmdKey).stopped = false ∧
      (w true false [d none]).aw.hostCmds = [d none] ∧ hostFromRing (d none) = true ∧ (d (some x)).cmd.op ≠ 3 ∧ x.reply = [] := by
  decide +kernel

/-- POOL_RECLAIM: a block whose time has passed, and one whose time has not. -/
theorem witness_reclaim :
    let b : NatBlock := { natIndex := 0, first := 1024, size := 64, hold := 1, last := 0, log := none }
    let s0 := wFlow id (2 * cycSecond)
    let i := { wItem 14 7 2 2 with domain := seededCrc (flowSeed s0 2) (beBytes 16 9) }
    let c : CommitSet := { item := i, staged := [] }
    let s := { s0 with aw := { s0.aw with closer := [c], subs := [(9, [b, { b with first := 2048, hold := 3 }])] } }
    hasSlicePart i = false ∧ setMayApply s c = true ∧ tcanon [] s.aw.subs = true ∧ seededCrc (flowSeed s 2) (beBytes 16 9) = i.domain ∧
      b ∈ subBlocks s 9 ∧ b.last + b.hold * cycSecond ≤ raw s ∧ ¬ 0 + 3 * cycSecond ≤ raw s := by decide +kernel

/-- A setup by NAT44, whose subscriber holds a block of ports of a pool address. -/
def wNat (blocks : List NatBlock) : State :=
  let i := { wItem 1 1 2 2 with source := 1, slice := wHome, desc := 7 }
  let x := { emptyHold wKey 3 with chain := [7] }
  let s := wClose [{ item := i, staged := [] }] fun y => { y with reqs := [], holds := [(holdKey wHome 0, x)], drawn := [(wHome, [5])] }
  { s with
    fwd := { s.fwd with natab := [(0, BitVec.ofNat 128 (mapped 0xCB007105))] }
    aw := { s.aw with subs := [((kForward wKey).1, blocks)] } }

theorem witness_nat_set :
    let i := { wItem 1 1 2 2 with source := 1, slice := wHome, desc := 7 }
    let x := { emptyHold wKey 3 with chain := [7] }
    let s := wNat [{ natIndex := 0, first := 1024, size := 256, hold := 1, last := 0, log := none }]
    let w := paramSet s i.epoch i.param
    natRoutine s i = true ∧ i.routine ∉ [8, 10, 11, 12, 14] ∧ sliceReqs s wHome = [] ∧ itemHold s i = some (holdKey wHome 0, x) ∧ x.other = none ∧
      (pkt s 7).key = some wKey ∧ bf wKey 379 376 = 0 ∧ bf wKey 39 0 = 0 ∧ kProto wKey = 17 ∧ segmentOf (pkt s 7) = none ∧
      bit (((pkt s 7).parse.map (·.word)).getD 0) fIcmpErr = false ∧ (pkt s 7).rxLen < 2 ^ 28 ∧ s.flow.rehash = none ∧
      (natPick 1 wHome w wKey none s).1.isSome = true ∧ (natPick 1 wHome w wKey none (wNat [])).1 = none := by decide +kernel

theorem witness_nat_places :
    let s := wNat [{ natIndex := 0, first := 1024, size := 256, hold := 1, last := 0, log := none }]
    let x := { emptyHold wKey 3 with chain := [7] }
    let T := template s x.epoch x.template
    let c := (natPick 1 wHome (paramSet s 0 0) wKey none s).1.getD (0, 0, 0)
    let l := layNow s
    let bk := (layBuckets l wKey).headD 0
    let br := (layBuckets l c.2.2).headD 0
    c.1 < 2 ^ 20 ∧ c.2.1 < 2 ^ 16 ∧ tpMeter T = 0 ∧ tpTelemetry T % 4 < 2 ∧ tget [] s.flow.drawn wHome = [5] ∧ 5 < drawLimit s ∧
      recGone s 5 = false ∧ primaryOf s 5 = none ∧ lineFind s wHome c.2.2 = none ∧ tsorted s.flow.lines = true ∧
      (wbOf s wHome).length ≤ 1020 ∧ bk ≠ br ∧ bucketGone s l bk = false ∧ bucketGone s l br = false ∧
      (freeSlot s l bk).isSome = true ∧ (freeSlot s l br).isSome = true := by decide +kernel

theorem witness_refused_set :
    (let i := { wItem 1 1 2 2 with source := 1 }
     let c : CommitSet := { item := i, staged := [wStaged 4 0 5 (List.replicate 64 1)] }
     let f := fun (y : Flow) => { y with reqs := [] }
     sliceReqs (wClose [c] f) 0 = [] ∧ itemHold (wClose [c] f) i = none ∧ setMayApply (wClose [c]) c = true ∧ flowHalted (wClose [c]) = false) := by decide +kernel

theorem witness_setup_set :
    (let i := { wItem 5 1 0 0 with source := 1, slice := wHome, desc := 7 }
     let x := { emptyHold wKey 3 with chain := [7] }
     let f := fun (y : Flow) => { y with reqs := [], holds := [(holdKey wHome 0, x)], drawn := [(wHome, [5])] }
     let s := wClose [{ item := i, staged := [wStaged 5 2 0 (recBytes wRec)] }] f
     let img := storedImage (fromTemplate x.template (template s x.epoch x.template) (recOfBytes (recBytes wRec)))
     let b := (layBuckets (layNow s) img.key).headD 0
     itemHold s i = some (holdKey wHome 0, x) ∧ x.other = none ∧ Unretired s 7 ∧ tsorted s.flow.holds = true ∧ holdKey wHome 0 < 2 ^ 20 ∧
       natRoutine s i = false ∧ sliceReqs s wHome = [] ∧ i.routine ∉ [8, 10, 11, 12, 14] ∧ stTrans img.st = false ∧ acMeter img.act = 0 ∧ (cnTelemetry img.cnt).testBit 1 = false ∧ tget [] s.flow.drawn wHome = [5] ∧
       5 < drawLimit s ∧ recGone s 5 = false ∧ primaryOf s 5 = none ∧ s.flow.rehash = none ∧ bucketGone s (layNow s) b = false ∧
       (freeSlot s (layNow s) b).isSome = true ∧ (wbOf s wHome).length ≤ 1022 ∧ segmentOf (pkt s 7) = none ∧ (pkt s 7).rxLen < 2 ^ 28 ∧
       tsorted s.flow.lines = true ∧ sliceOfHold (holdKey wHome 0) = wHome) := by decide +kernel

theorem witness_translation_set :
    (let i := { wItem 7 2 4 1 with source := 2, slice := wHome, desc := 7 }
     let x := { emptyHold wKey 5 with chain := [7] }
     let c : CommitSet := { item := i, staged := [wStaged 9 0 3 (List.replicate 256 1)] }
     let s := wClose [c] fun y => { y with reqs := [], holds := [(holdKey wHome 0, x)] }
     itemHold s i = some (holdKey wHome 0, x) ∧ Unretired s 7 ∧ setMayApply s c = true ∧ sliceReqs s wHome = []) := by decide +kernel

theorem witness_no_retired : ∀ n, pcRetired (wClose []) n = false := by
  have h : (wClose []).hbm.pcs = [] := by decide +kernel
  intro n
  simp [pcRetired, pc, h, tget, tfind]
  decide

theorem witness_step_next : let s : State := { wRun with pending := [.pllLocked] }
    (∃ t, step s = .next t) ∧ Memory.wf s.hbm.mem = true ∧ Memory.wf s.host.mem = true :=
  ⟨⟨_, rfl⟩, by decide +kernel, by decide +kernel⟩

/-! ### Ill-formed commands: one for each check -/

theorem wf_refuses : [Instr.hbmRefresh 128 0, .hbmStackTemperature 4 0, .bwWindow 1024, .retryTimer 1536, .editEnd 16,
    .mcResidueRetry 2, .foldPeriod 16, .heelPageWrite 8192, .next 64, .flexeCaTimeout 64, .seamHelloReceived 512 [],
    .flowWalk 16 1, .domainSleep 97, .ipfixFlush 16, .get 256 1 1, .rxBufferRetry 64, .dmaComplete 32, .l2AgeScan 4,
    .ownerFuse [0]].all (fun c => !c.wf) = true := by decide +kernel

theorem wf_accepts : [Instr.hbmRefresh 127 0, .hbmStackTemperature 3 0, .bwWindow 1023, .retryTimer 1535, .editEnd 15,
    .mcResidueRetry 1, .foldPeriod 15, .heelPageWrite 8191, .next 63, .flexeCaTimeout 63, .flowWalk 15 1, .domainSleep 96,
    .ipfixFlush 15, .get 255 1 1, .rxBufferRetry 63, .dmaComplete 31, .l2AgeScan 3, .ownerFuse (List.replicate 48 0)].all
    (fun c => c.wf) = true := by decide +kernel

end Sys2Proof.Machine
end

section
namespace Sys2Proof.Machine

/-! PROOFS. Register writes (R10, R46) and table commands (4.7, 13.3): the facts about bytes, fields and tables that they rest on,
and the settled statements. -/

/-! ### Little-endian bytes -/

@[simp] theorem length_leBytes (n v : Nat) : (leBytes n v).length = n := by
  induction n generalizing v with
  | zero => rfl
  | succ n ih => simp [leBytes, ih]

theorem leNat_leBytes (n v : Nat) : leNat (leBytes n v) = v % 256 ^ n := by
  induction n generalizing v with
  | zero => simp [leBytes, leNat, Nat.mod_one]
  | succ n ih =>
    rw [leBytes, leNat, ih, BitVec.toNat_ofNat, pow_succ' 256 n, Nat.mod_mul]

theorem leNat_leBytes_of_lt {n v : Nat} (h : v < 256 ^ n) : leNat (leBytes n v) = v := by
  rw [leNat_leBytes, Nat.mod_eq_of_lt h]

theorem leNat_lt (bs : Bytes) : leNat bs < 256 ^ bs.length := by
  induction bs with
  | nil => simp [leNat]
  | cons b bs ih =>
    have hb := b.isLt
    simp only [leNat, List.length_cons, Nat.pow_succ']
    omega

/-! ### Fields of words after a field is replaced -/

theorem testBit_fld (v hi lo i : Nat) : (fld v hi lo).testBit i = (decide (i < hi + 1 - lo) && v.testBit (lo + i)) := by
  simp [fld, Nat.testBit_mod_two_pow, Nat.testBit_shiftRight]

theorem testBit_putFld (v x : Nat) {hi lo : Nat} (h : lo ≤ hi) (i : Nat) :
    (putFld v hi lo x).testBit i = if lo ≤ i ∧ i ≤ hi then x.testBit (i - lo) else v.testBit i := by
  have hlow : v % 2 ^ lo < 2 ^ lo := Nat.mod_lt _ (by positivity)
  have hmid : x % 2 ^ (hi + 1 - lo) < 2 ^ (hi + 1 - lo) := Nat.mod_lt _ (by positivity)
  have hsum : 2 ^ lo * (x % 2 ^ (hi + 1 - lo)) + v % 2 ^ lo < 2 ^ (hi + 1) := by
    calc 2 ^ lo * (x % 2 ^ (hi + 1 - lo)) + v % 2 ^ lo < 2 ^ lo * (x % 2 ^ (hi + 1 - lo) + 1) := by rw [Nat.mul_add]; omega
      _ ≤ 2 ^ lo * 2 ^ (hi + 1 - lo) := Nat.mul_le_mul_left _ hmid
      _ = 2 ^ (hi + 1) := by rw [← Nat.pow_add]; congr 1; omega
  have hput : putFld v hi lo x =
      2 ^ (hi + 1) * (v >>> (hi + 1)) + (2 ^ lo * (x % 2 ^ (hi + 1 - lo)) + v % 2 ^ lo) := by
    simp only [putFld, Nat.shiftLeft_eq]; ring
  rw [hput, Nat.testBit_two_pow_mul_add _ hsum, Nat.testBit_two_pow_mul_add _ hlow]
  by_cases h1 : i < lo
  · simp [h1, show i < hi + 1 by omega, show ¬ lo ≤ i by omega, Nat.testBit_mod_two_pow]
  · by_cases h2 : i < hi + 1
    · simp [h1, h2, show lo ≤ i by omega, show i ≤ hi by omega, Nat.testBit_mod_two_pow, show i - lo < hi + 1 - lo by omega]
    · simp [h2, show ¬ i ≤ hi by omega, Nat.testBit_shiftRight, show hi + 1 + (i - (hi + 1)) = i by omega]

theorem bit_putBf {w : Nat} (v : BitVec w) (x : Nat) {hi lo i : Nat} (h : lo ≤ hi) (hi' : i < w) :
    bit (putBf v hi lo x) i = if lo ≤ i ∧ i ≤ hi then x.testBit (i - lo) else bit v i := by
  simp only [bit, putBf, BitVec.getLsbD_ofNat, hi', decide_true, Bool.true_and, testBit_putFld _ _ h]
  rfl

/-- A field apart from the one replaced reads as before. -/
theorem bf_putBf_apart {w : Nat} (v : BitVec w) (x : Nat) {hi lo hi' lo' : Nat} (h : lo ≤ hi) (hw : hi' < w)
    (hap : hi < lo' ∨ hi' < lo) : bf (putBf v hi lo x) hi' lo' = bf v hi' lo' := by
  apply Nat.eq_of_testBit_eq
  intro i
  simp only [bf, testBit_fld]
  by_cases hlt : i < hi' + 1 - lo'
  · have hbit := bit_putBf v x h (show lo' + i < w by omega)
    rw [if_neg (by omega)] at hbit
    exact congrArg _ hbit
  · simp [hlt]

theorem bit_ofNat {w i : Nat} (v : Nat) (h : i < w) : bit (BitVec.ofNat w v) i = v.testBit i := by
  simp only [bit, BitVec.getLsbD_ofNat, h, decide_true, Bool.true_and]

theorem bf_ofNat {w hi : Nat} (v lo : Nat) (h : hi < w) : bf (BitVec.ofNat w v) hi lo = fld v hi lo := by
  apply Nat.eq_of_testBit_eq
  intro i
  simp only [bf, testBit_fld, BitVec.toNat_ofNat, Nat.testBit_mod_two_pow]
  by_cases hlt : i < hi + 1 - lo
  · simp [hlt, show lo + i < w by omega]
  · simp [hlt]

/-! ### Rows of sparse tables -/

theorem mem_of_tfind_eq_some {α : Type} {t : Tbl α} {n : Nat} {x : α} (h : tfind t n = some x) : (n, x) ∈ t := by
  induction t with
  | nil => cases h
  | cons r t ih =>
    obtain ⟨k, v⟩ := r
    simp only [tfind] at h
    split at h
    · simp_all
    · exact List.mem_cons_of_mem _ (ih h)

theorem le_of_mem_tsortedFrom {α : Type} {b : Nat} {t : Tbl α} (h : tsortedFrom b t = true) {r : Nat × α} (hr : r ∈ t) : b ≤ r.1 := by
  induction t generalizing b with
  | nil => cases hr
  | cons q t ih =>
    obtain ⟨k, v⟩ := q
    simp only [tsortedFrom, Bool.and_eq_true, decide_eq_true_eq] at h
    rcases List.mem_cons.mp hr with rfl | hr
    · exact h.1
    · have := ih h.2 hr; omega

/-- In a rising table the row of a key is the only one. -/
theorem tfind_eq_some_of_mem {α : Type} {b : Nat} {t : Tbl α} (h : tsortedFrom b t = true) {n : Nat} {x : α} (hm : (n, x) ∈ t) :
    tfind t n = some x := by
  induction t generalizing b with
  | nil => cases hm
  | cons q t ih =>
    obtain ⟨k, v⟩ := q
    simp only [tsortedFrom, Bool.and_eq_true, decide_eq_true_eq] at h
    rcases List.mem_cons.mp hm with heq | hm
    · cases heq; simp [tfind]
    · have hk : k ≠ n := by have := le_of_mem_tsortedFrom h.2 hm; simp at this; omega
      simp [tfind, hk, ih h.2 hm]

/-- A key that reads otherwise than the default is listed with what it reads as. -/
theorem mem_of_tget_ne {α : Type} {d : α} {t : Tbl α} {n : Nat} (h : tget d t n ≠ d) : (n, tget d t n) ∈ t := by
  simp only [tget] at h ⊢
  cases hf : tfind t n with
  | none => simp [hf] at h
  | some x => exact mem_of_tfind_eq_some hf

theorem tget_tset_ne_default {α : Type} [DecidableEq α] {d x : α} (hx : x ≠ d) (t : Tbl α) (n : Nat) :
    tget d (tset d t n x) n = x := by
  simp [tset, hx, tget]

/-- The key just set reads as the value set, in a table whose keys rise. -/
theorem tget_tset_same_of_tsorted {α : Type} [DecidableEq α] {d : α} {t : Tbl α} (h : tsorted t = true) (n : Nat) (x : α) :
    tget d (tset d t n x) n = x := by
  by_cases hx : x = d
  · subst hx
    simp [tset, tget, tfind_tdel_same h]
  · exact tget_tset_ne_default hx t n

/-! ### BAR0 writes -/

/-- A naturally aligned 4-byte write outside the request buffer acts on one register (R373). -/
theorem bar0Write_of_four {off : Nat} {data : Bytes} (hlen : data.length = 4) (hal : off % 4 = 0) (hout : 0x11000 ≤ off)
    (s : State) : bar0Write off data s = bar0Write4 off (BitVec.ofNat 32 (leNat data)) s := by
  have h1 : ¬ (0x10000 ≤ off ∧ off + data.length ≤ 0x11000) := by omega
  simp [bar0Write, hlen, hal, show ¬ off + 4 ≤ 0x11000 by omega]

theorem execRegisterWrite_bar0_on {s : State} (hr : s.safe.resetN = true) (hp : s.safe.pwrOk = true) (off : Nat) (data : Bytes) :
    exec (.registerWrite (.bar0 off data)) s = .next (bar0Write off data s) := by
  simp [exec, execRegisterWrite, hr, hp]

/-- Held in reset, the device does not answer on PCIe (R445). -/
theorem execRegisterWrite_bar0_reset {s : State} (h : s.safe.resetN = false ∨ s.safe.pwrOk = false) (off : Nat) (data : Bytes) :
    exec (.registerWrite (.bar0 off data)) s = .next s := by
  simp [exec, execRegisterWrite, h]

/-- The 32-bit word of MBX_CTRL that asks for execution: tag, irq_en, go (Table 13-2). -/
theorem mbxCtrlWrite_go (s : State) (tag : BitVec 16) (irq : Bool) :
    mbxCtrlWrite (BitVec.ofNat 32 (tag.toNat * 2 ^ 16 + 2 * b2n irq + 1)) s = { s with ctl := { s.ctl with mbx := { s.ctl.mbx with
        ctrlTag := tag, goTag := if s.ctl.mbx.busy || !s.safe.cobblerReady then s.ctl.mbx.goTag else tag, irqEn := irq,
        busy := s.ctl.mbx.busy || s.safe.cobblerReady } } } := by
  have hi : b2n irq ≤ 1 := by cases irq <;> decide
  have ht := tag.isLt
  have hx : (BitVec.ofNat 32 (tag.toNat * 2 ^ 16 + 2 * b2n irq + 1)).toNat = tag.toNat * 2 ^ 16 + 2 * b2n irq + 1 := by
    rw [BitVec.toNat_ofNat]; omega
  have htag : BitVec.ofNat 16 (bf (BitVec.ofNat 32 (tag.toNat * 2 ^ 16 + 2 * b2n irq + 1)) 31 16) = tag := by
    apply BitVec.eq_of_toNat_eq
    simp only [bf, fld, hx, Nat.shiftRight_eq_div_pow, BitVec.toNat_ofNat]
    omega
  have hgo : bit (BitVec.ofNat 32 (tag.toNat * 2 ^ 16 + 2 * b2n irq + 1)) 0 = true := by
    simp only [bit, BitVec.getLsbD, hx, Nat.testBit_zero]
    simp only [decide_eq_true_eq]; omega
  have hirq : bit (BitVec.ofNat 32 (tag.toNat * 2 ^ 16 + 2 * b2n irq + 1)) 1 = irq := by
    simp only [bit, BitVec.getLsbD, hx, Nat.testBit_succ, Nat.testBit_zero]
    cases irq <;> simp [b2n] <;> omega
  simp only [mbxCtrlWrite, htag, hgo, hirq, Bool.true_and]
  cases hb : s.ctl.mbx.busy <;> cases hc : s.safe.cobblerReady <;> simp

/-! ### Object writes -/

/-- A change of sf.guarantee is stored and reported; nothing else changes (R460). -/
theorem reviewGuarantee_eq (s : State) : reviewGuarantee s = { s with
    host := (reviewGuarantee s).host, cnt := { s.cnt with ctr := (reviewGuarantee s).cnt.ctr },
    safe := { s.safe with guarantee := (reviewGuarantee s).safe.guarantee } } := by
  simp only [reviewGuarantee]
  split
  · rfl
  · rw [raise_eq]

/-- The value of a configuration object rests on the key store, the active slot and the board record. -/
theorem cfgB_congr {s t : State} {a : Nat} (hk : t.ctl.keys = s.ctl.keys) (ho : t.ctl.active.objs = s.ctl.active.objs)
    (hb : t.safe.boardMgmt = s.safe.boardMgmt) : cfgB t a = cfgB s a := by
  simp only [cfgB, hk, ho, hb]

/-- Only the dictionary's rows of an address's index can be its row. -/
theorem objRow_eq_find_index {a : Nat} (hg : objGap a = false) (ha : a < 2 ^ 36) :
    objRow a = (dictionary.filter fun r => r.index == oaIndex a).find? fun r =>
      decide (r.inst0 ≤ oaInst a) && decide (oaInst a ≤ r.inst1) && decide (r.sub0 ≤ oaSub a) && decide (oaSub a ≤ r.sub1) := by
  rw [List.find?_filter, objRow, if_neg (by simp only [hg, Bool.false_or, decide_eq_true_eq]; omega)]
  congr 1
  funext r
  simp [Bool.and_assoc, Bool.decide_and, beq_eq_decide]

/-- The row of px.port[q].max_rx (Table 10-5). -/
def maxRxRow : ObjRow := ⟨0x2006, 0, 1023, 0, 0, 2, 2, 1, false, .num 16000, .range 1518 16000, "px.port[q].max_rx"⟩

theorem dictionary_maxRx : dictionary.filter (fun r => r.index == 0x2006) = [maxRxRow] := by decide +kernel

section
variable {q : Nat} (hq : q < 1024)
include hq

theorem oaIndex_maxRx : oaIndex (oa 0x2006 q 0) = 0x2006 := by simp only [oaIndex, oa]; omega
theorem oaInst_maxRx : oaInst (oa 0x2006 q 0) = q := by simp only [oaInst, oa]; omega
omit hq in
theorem oaSub_maxRx : oaSub (oa 0x2006 q 0) = 0 := by simp only [oaSub, oa]; omega

theorem objRow_maxRx : objRow (oa 0x2006 q 0) = some maxRxRow := by
  have hg : objGap (oa 0x2006 q 0) = false := by simp [objGap, oaIndex_maxRx hq]
  rw [objRow_eq_find_index hg (by simp only [oa]; omega), oaIndex_maxRx hq, dictionary_maxRx, oaInst_maxRx hq, oaSub_maxRx]
  simp [maxRxRow, show q ≤ 1023 by omega]

/-- A live write of max_rx by a requester of ADMIN's rights is refused exactly beyond its limits (R40). -/
theorem writeRefused_maxRx_iff {r : Req} (hrole : r.role = 2) (hv1 : r.v1 = false) {v : Bytes} (hlen : v.length = 2) (s : State) :
    writeRefused r false (oa 0x2006 q 0) maxRxRow.ty v s = stOk ↔ 1518 ≤ leNat v ∧ leNat v ≤ 16000 := by
  have hi := oaIndex_maxRx hq
  have hbar : writeBarred r false (oa 0x2006 q 0) s = stOk := by
    simp [writeBarred, objRow_maxRx hq, maxRxRow, hrole, hv1, hi]
  have hrule : ruleRefuses (oa 0x2006 q 0) v false s = false := by simp [ruleRefuses, valueBad, liveBad, hi]
  have hbusy : writeBusy (oa 0x2006 q 0) v s = false := by simp [writeBusy, hi]
  have hty : typeOk maxRxRow maxRxRow.ty v = true := by simp [typeOk, maxRxRow, hlen]
  have hlim : limitsOk maxRxRow v = true ↔ 1518 ≤ leNat v ∧ leNat v ≤ 16000 := by
    simp [limitsOk, maxRxRow]
  simp only [writeRefused, objRow_maxRx hq, hbar, hrule, hbusy, hty, ← hlim]
  cases limitsOk maxRxRow v <;> simp [stOk, stRange]

/-- max_rx has no reserved bits and no effect of its own: a live write only stores it (R57). -/
theorem writeObj_maxRx (v : Bytes) (s : State) :
    writeObj false (oa 0x2006 q 0) v s = liveSet (oa 0x2006 q 0) v s := by
  have hi := oaIndex_maxRx hq
  have hclean : objClean (oa 0x2006 q 0) v = v := by simp [objClean, objReserved, hi]
  simp [writeObj, objRow_maxRx hq, maxRxRow, hclean, writeEffect, hi]

theorem liveSet_maxRx (v : Bytes) (s : State) : ∃ x : Slot, x.objs = tput s.ctl.active.objs (oa 0x2006 q 0) v ∧
    liveSet (oa 0x2006 q 0) v s = { s with ctl := { s.ctl with active := x, liveEdits := s.ctl.liveEdits + 1 } } := by
  have hi := oaIndex_maxRx hq
  have hclean : objClean (oa 0x2006 q 0) v = v := by simp [objClean, objReserved, hi]
  rw [liveSet, if_neg (by omega), hclean]
  exact ⟨_, rfl, rfl⟩

end

/-- A live write that stores into the active slot changes the value of that object alone (R57). -/
theorem cfgB_of_tput {s t : State} {a : Nat} {v : Bytes} (hi : oaIndex a ≠ 0x1020) (hk : t.ctl.keys = s.ctl.keys)
    (ho : t.ctl.active.objs = tput s.ctl.active.objs a v) (hb : t.safe.boardMgmt = s.safe.boardMgmt) :
    cfgB t a = v ∧ ∀ b, b ≠ a → cfgB t b = cfgB s b := by
  refine ⟨by simp [cfgB, hi, ho], fun b hne => ?_⟩
  simp only [cfgB, hk, ho, hb, tfind_tput_other _ _ hne]

/-- An object write that no check of R40 refuses is made live. -/
theorem execRegisterWrite_object {s : State} {a : Nat} {row : ObjRow} (hrow : objRow a = some row)
    (hready : s.safe.cobblerReady = true) (hrec : inRecovery s = false) (hc : s.ctl.commit = none) (v : Bytes) :
    exec (.registerWrite (.object a v)) s =
      if writeRefused { who := 0, role := 2, v1 := false, limit := 0, msg := [] } false a row.ty v s = stOk then
        .next (reviewGuarantee (writeObj false a v s)) else .next s := by
  simp [exec, execRegisterWrite, hrow, hready, hrec, hc]

/-- No object, no running Cobbler or a commit: an object write changes nothing (R61, R445). -/
theorem execRegisterWrite_object_ignored {s : State} {a : Nat}
    (h : objRow a = none ∨ s.safe.cobblerReady = false ∨ s.ctl.commit.isSome = true) (v : Bytes) :
    exec (.registerWrite (.object a v)) s = .next s := by
  simp only [exec, execRegisterWrite]
  cases hrow : objRow a with
  | none => rfl
  | some row =>
    have h' : s.safe.cobblerReady = false ∨ s.ctl.commit.isSome = true := by simpa [hrow] using h
    rcases h' with h' | h' <;> simp [h']

/-- Settles O14: each register's write is run by its own lemma; max_rx rests on its dictionary row. -/
theorem registerWrites : Obligations.RegisterWrites := by
  unfold Obligations.RegisterWrites
  refine ⟨fun s hr hp => ?_, fun s tag irq hr hp => ?_, fun s a v h => execRegisterWrite_object_ignored h v,
    fun s q v hq hlen hready hrec hc => ⟨fun hlo hhi => ?_, fun hbad => ?_⟩,
    fun s off b h => execRegisterWrite_bar0_reset h off b⟩
  · rw [execRegisterWrite_bar0_on hr hp, bar0Write_of_four rfl rfl (by decide)]
    rfl
  · have hi : b2n irq ≤ 1 := by cases irq <;> decide
    have ht := tag.isLt
    rw [execRegisterWrite_bar0_on hr hp, bar0Write_of_four (length_leBytes _ _) rfl (by decide),
      leNat_leBytes_of_lt (by omega), ← mbxCtrlWrite_go]
    rfl
  · obtain ⟨x, hx, hset⟩ := liveSet_maxRx hq v s
    rw [execRegisterWrite_object (objRow_maxRx hq) hready hrec hc,
      if_pos ((writeRefused_maxRx_iff hq rfl rfl hlen s).2 ⟨hlo, hhi⟩), writeObj_maxRx hq, hset]
    generalize hu : ({ s with ctl := { s.ctl with active := x, liveEdits := s.ctl.liveEdits + 1 } } : State) = u
    have hg := reviewGuarantee_eq u
    generalize reviewGuarantee u = t at hg
    obtain ⟨hval, hoth⟩ := cfgB_of_tput (s := s) (t := t) (a := oa 0x2006 q 0) (v := v) (by rw [oaIndex_maxRx hq]; decide)
      (by rw [hg, ← hu]) (by rw [hg, ← hu]; exact hx) (by rw [hg, ← hu])
    refine ⟨t, rfl, hval, hoth, by rw [hg, ← hu], ?_⟩
    rw [hg, ← hu]
  · rw [execRegisterWrite_object (objRow_maxRx hq) hready hrec hc,
      if_neg (by rw [writeRefused_maxRx_iff hq rfl rfl hlen]; omega)]

/-! ### Requests in the mailbox -/

@[simp] theorem mbxMsg_length (s : State) : (mbxMsg s).length = 4096 := by
  have h : ∀ (m : List Host.Cell) (a n : Nat), (readBytes m a n).length = n := by
    intro m a n
    induction n generalizing a with
    | zero => rfl
    | succ n ih => simp [readBytes, ih]
  exact h _ _ _

/-- Finishing the mailbox's request touches the mailbox and, by its interrupt, the host interface (R46). -/
theorem mbxFinish_eq (msg : Bytes) (s : State) : mbxFinish msg s = { s with
    ctl := { s.ctl with mbx := { s.ctl.mbx with answer := msg, statusTag := s.ctl.mbx.goTag, done := true, busy := false } },
    host := (mbxFinish msg s).host } := by
  simp only [mbxFinish]
  split
  · rw [raiseVector_eq]; rfl
  · rfl

/-- An answer given over the mailbox from a state whose mailbox is still that of the request. -/
theorem mailboxAnswered_mbxFinish {s t : State} (h : t.ctl.mbx = s.ctl.mbx) (a : Answer) :
    MailboxAnswered s (mbxFinish (answerMsg (mbxMsg s) a) t) a ∧ AnswerOnly (mbxFinish (answerMsg (mbxMsg s) a) t) t := by
  unfold MailboxAnswered AnswerOnly
  rw [mbxFinish_eq]
  exact ⟨by rw [h], rfl⟩

/-- A whole TABLE_CMD of the mailbox passes every check before its own (R40, R42, R454). -/
theorem refuseFirst_tableCmd {s : State} {staged : Bool} {body : Bytes} (h : MailboxRequest s 0x40 0 staged body) :
    refuseFirst { who := 0, role := 2, v1 := false, limit := 4079, msg := mbxMsg s } s = none := by
  obtain ⟨-, -, -, hboot, hty, hsub, -, hlen, -⟩ := h
  have hknown : msgKnown (mbxMsg s) = true := by simp [msgKnown, hty, hsub]
  have hrec : inRecovery s = false := by simp [inRecovery, hboot]
  simp [refuseFirst, hknown, hrec, Nat.not_lt.mpr hlen]

section
variable {s : State} {h : Nat} {staged : Bool} {payload : Bytes} (hr : TableRequest s h staged payload)
include hr

theorem msgCmd_tableRequest (limit : Nat) : msgCmd (mbxMsg s) limit = tblCmd h staged payload (limit - 8) := by
  obtain ⟨hh, -, -, -, -, -, -, hst, -, hbody⟩ := hr
  simp [msgCmd, hbody, hst, List.take_left' (length_leBytes 8 h), List.drop_left' (length_leBytes 8 h),
    leNat_leBytes_of_lt (show h < 256 ^ 8 by omega)]

theorem isTblRow_tableRequest (row : Nat) : isTblRow row (mbxMsg s) = (tblRow (tblCmd h staged payload 4071) == row) := by
  have hrow : isRow 0x40 0 (mbxMsg s) = true := by
    obtain ⟨-, -, -, -, -, hty, hsub, -⟩ := hr
    simp [isRow, msgRow, hty]
  simp only [isTblRow, hrow, msgCmd_tableRequest hr, Bool.true_and]
  rfl

/-- A command of another row than the request's does nothing. -/
theorem tblRun_mailbox_otherRow {row : Nat} (hrow : tblRow (tblCmd h staged payload 4071) ≠ row) :
    tblRun row (.message .mailbox) s = s := by
  simp [tblRun, serve, isTblRow_tableRequest hr, hrow]

/-- The mailbox's table command of a row is handed to its handler. -/
theorem tblRun_mailbox {row : Nat} (hrow : tblRow (tblCmd h staged payload 4071) = row) {a : Option Answer} {t : State}
    (ha : tableReq { who := 0, role := 2, v1 := false, limit := 4079, msg := mbxMsg s } s = (a, t)) :
    tblRun row (.message .mailbox) s = a.elim t fun x => mbxFinish (answerMsg (mbxMsg s) x) t := by
  have hfirst := refuseFirst_tableCmd hr.2
  obtain ⟨hbusy, hpend, hready, -⟩ := hr.2
  simp only [tblRun, serve, hbusy, hpend, hready, isTblRow_tableRequest hr, hrow, execReq, hfirst, answerTo, ha]
  cases a <;> simp

theorem tableReq_refused {e : Nat × Nat} (he : msgTblRefused (tblCmd h staged payload 4071) s = some e) :
    tableReq { who := 0, role := 2, v1 := false, limit := 4079, msg := mbxMsg s } s = (some (refuse e.1 e.2), s) := by
  have hcmd := msgCmd_tableRequest hr 4079
  obtain ⟨-, -, -, -, -, -, -, -, -, hbody⟩ := hr
  simp [tableReq, hcmd, hbody, he]

/-- The handler of the mailbox's table command, once checks 1 to 6 are passed. -/
theorem tableReq_passed (hok : msgTblRefused (tblCmd h staged payload 4071) s = none) :
    tableReq { who := 0, role := 2, v1 := false, limit := 4079, msg := mbxMsg s } s =
      let c := tblCmd h staged payload 4071
      if c.op = 5 then
        if reseedBusy c s then (some (refuse stBusy 0), s)
        else (none, reseedBegin c (.msg { who := 0, msg := mbxMsg s }) s)
      else if hostTable c then msgSubmit c { who := 0, msg := mbxMsg s } s
      else (some (tblAnswer c (tblServe c s).1), (tblServe c s).2) := by
  have hcmd := msgCmd_tableRequest hr 4079
  obtain ⟨-, -, -, -, -, -, -, -, -, hbody⟩ := hr
  simp [tableReq, hcmd, hbody, hok]

end

/-! ### Checks 1 to 6 of R494 -/

/-- A message's command passes checks 1 to 6 when the same command of a slot does. -/
theorem msgTblRefused_eq_none {c : TblCmd} {s : State} (h : tblRefused c s = none) : msgTblRefused c s = none := by
  simp only [tblRefused, msgTblRefused] at h ⊢
  split at h
  · exact h
  · split at h
    · cases h
    · rw [if_neg ‹_›]

/-- A served command has the payload that its header calls for (check 6). -/
theorem payload_length_of_tblRefused_none {c : TblCmd} {s : State} (h : tblRefused c s = none) :
    c.payload.length = tblPayload s c := by
  simp only [tblRefused] at h
  split at h
  · cases h
  · simpa [tblLengthBad] using h

theorem tblHeadRefused_of_tblRefused_none {c : TblCmd} {s : State} (h : tblRefused c s = none) : tblHeadRefused c s = none := by
  simp only [tblRefused] at h
  split at h
  · cases h
  · assumption

/-- What checks 1 to 3 of R494 leave of a command: a known table, its operations, staged exactly for the staged tables. -/
theorem ops_of_tblRefused_none {c : TblCmd} {s : State} (h : tblRefused c s = none) :
    tblKnown c.table = true ∧ ((c.op = 4 ∨ c.op = 5) → c.table = 7) ∧ (c.op = 6 → c.table = 0x10) ∧
      (c.staged = true → tblStaged c.table = true) ∧ (c.staged = false → tblStaged c.table = true → c.op = 3) := by
  have hh := tblHeadRefused_of_tblRefused_none h
  simp only [tblHeadRefused] at hh
  split at hh
  · cases hh
  split at hh
  · cases hh
  split at hh
  · cases hh
  rename_i h1 h2 h3
  simp at h1 h2 h3
  refine ⟨h1.1.1, fun h4 => ?_, fun h6 => ?_, h2, h3⟩ <;> omega

/-! ### Answers of the mailbox's table commands -/

section
variable {s : State} {h : Nat} {staged : Bool} {payload : Bytes} {c : TblCmd} {row : Nat}
  (hr : TableRequest s h staged payload) (hc : tblCmd h staged payload 4071 = c) (hrow : tblRow c = row)
include hr hc hrow

/-- A command that checks 1 to 6 refuse is answered so, and changes nothing else (R494). -/
theorem tblRun_mailbox_refused {e : Nat × Nat} (he : msgTblRefused c s = some e) :
    MailboxAnswered s (tblRun row (.message .mailbox) s) (refuse e.1 e.2) ∧ AnswerOnly (tblRun row (.message .mailbox) s) s := by
  subst hc
  rw [tblRun_mailbox hr hrow (tableReq_refused hr he)]
  exact mailboxAnswered_mbxFinish rfl _

/-- A command of the table hardware that passes checks 1 to 6 is answered at once, with what serving it gives. -/
theorem tblRun_mailbox_served (hok : tblRefused c s = none) (hop : c.op ≠ 5) (hhost : hostTable c = false)
    {e : HostEnd} {u : State} (hserve : tblServe c s = (e, u)) (hmbx : u.ctl.mbx = s.ctl.mbx) :
    MailboxAnswered s (tblRun row (.message .mailbox) s) (tblAnswer c e) ∧ AnswerOnly (tblRun row (.message .mailbox) s) u := by
  subst hc
  have ha := tableReq_passed hr (msgTblRefused_eq_none hok)
  simp only [if_neg hop, hhost, hserve] at ha
  rw [tblRun_mailbox hr hrow ha]
  exact mailboxAnswered_mbxFinish hmbx _

end

/-! ### Serving a command of one entry (R106, R494) -/

/-- The count that a completion of one applied entry gives. -/
def oneDone : HostEnd := { status := 0, detail := 0, done := 1, result := 0, reply := [] }

/-- What the end of a WRITE or DELETE adds to its entries: a staged table's edit is noted (R58). -/
def tblEdited (c : TblCmd) (s : State) : State := if tblStaged c.table then stagedEdit s else s

section
variable {c : TblCmd} {s t : State}

/-- A WRITE or DELETE of one entry that is applied. -/
theorem tblServe_one_applied (hop : c.op ≠ 3) (hop4 : c.op ≠ 4) (hcount : c.count = 1)
    (he : tblEntry c 0 s = (0, 0, [], t)) : tblServe c s = (oneDone, tblEdited c t) := by
  simp [tblServe, tblReadBytes, hop, hop4, hcount, runEntries, he, oneDone, tblEdited]

/-- A WRITE or DELETE of one entry that is refused. -/
theorem tblServe_one_refused (hop : c.op ≠ 3) (hop4 : c.op ≠ 4) (hcount : c.count = 1) {st d : Nat} (hst : st ≠ 0)
    (he : tblEntry c 0 s = (st, d, [], t)) : tblServe c s = (noneDone st d, t) := by
  obtain ⟨n, rfl⟩ := Nat.exists_eq_succ_of_ne_zero hst
  simp [tblServe, tblReadBytes, hop, hop4, hcount, runEntries, he, noneDone]

/-- An entry's own checks refuse with a status of Table 2-3 other than OK. -/
theorem entryRefused_status_ne_zero {i k v : Nat} {n : Nat} {e : Nat × Nat} (h : entryRefused n i k v s = some e) : e.1 ≠ 0 := by
  have hrange : ∀ b : Bool, (if b then some ((6, k) : Nat × Nat) else none) = some e → e.1 ≠ 0 := by
    intro b hb
    cases b
    · cases hb
    · cases hb; simp
  have hlpm : lpmRefused i k (BitVec.ofNat 256 v) s = some e → e.1 ≠ 0 := by
    intro hl
    simp only [lpmRefused] at hl
    split_ifs at hl <;> cases hl <;> simp
  simp only [entryRefused] at h
  split at h
  case h_1 => exact hlpm h
  case h_5 => split at h <;> cases h; decide
  case h_11 =>
    split at h
    · exact hrange _ h
    · cases h
  all_goals exact hrange _ h

variable (hop : c.op = 1) (hcount : c.count = 1) (hok : tblRefused c s = none)
include hop hcount hok

/-- The payload of a WRITE of one entry is that entry. -/
theorem payload_slice_of_writeOne : slice c.payload 0 (tblShape s c.staged c.table).1 = c.payload := by
  have hlen := payload_length_of_tblRefused_none hok
  simp only [tblPayload, hop, hcount, Nat.one_mul] at hlen
  simp [slice, ← hlen]

theorem tblServe_writeOne_applied (hent : entryRefused c.table c.index 0 (leNat c.payload) s = none)
    (hput : tblPut c.table c.index (leNat c.payload) s = some t) : tblServe c s = (oneDone, tblEdited c t) := by
  refine tblServe_one_applied (by omega) (by omega) hcount ?_
  simp [tblEntry, hop, payload_slice_of_writeOne hop hcount hok, hent, hput]

theorem tblServe_writeOne_noSpace (hent : entryRefused c.table c.index 0 (leNat c.payload) s = none)
    (hput : tblPut c.table c.index (leNat c.payload) s = none) : tblServe c s = (noneDone 5 0, s) := by
  refine tblServe_one_refused (by omega) (by omega) hcount (by decide) ?_
  simp [tblEntry, hop, payload_slice_of_writeOne hop hcount hok, hent, hput]

theorem tblServe_writeOne_refused {e : Nat × Nat} (hent : entryRefused c.table c.index 0 (leNat c.payload) s = some e) :
    tblServe c s = (noneDone e.1 e.2, s) := by
  refine tblServe_one_refused (by omega) (by omega) hcount (entryRefused_status_ne_zero hent) ?_
  simp [tblEntry, hop, payload_slice_of_writeOne hop hcount hok, hent]

end

/-- A DELETE of one entry, other than a meter's, clears it (R381). -/
theorem tblServe_deleteOne {c : TblCmd} {s : State} (hop : c.op = 2) (hcount : c.count = 1) (htable : c.table ≠ 0x14) :
    tblServe c s = (oneDone, tblEdited c (tblDelete c.table c.index s)) := by
  refine tblServe_one_applied (by omega) (by omega) hcount ?_
  simp [tblEntry, hop, htable]

/-! ### READ -/

/-- Entries that are all served and leave the state give their results in order. -/
theorem runEntries_of_const {c : TblCmd} {entry : Nat → State → Nat × Nat × Bytes × State} {out : Nat → Bytes} {s : State}
    (h : ∀ k, entry k s = (0, 0, out k, s)) (n k : Nat) (acc : Bytes) :
    runEntries c entry k n acc s = {
      status := 0, detail := 0, done := c.count, result := 0
      reply := acc ++ (List.range n).flatMap fun i => out (k + i), st := s } := by
  induction n generalizing k acc with
  | zero => simp [runEntries]
  | succ n ih =>
    simp [runEntries, h, ih, List.range_succ_eq_map, List.flatMap_map, Nat.add_assoc, Nat.add_comm 1, Nat.succ_eq_add_one]

/-- A READ that its limit allows answers the entries as they stand (R378). -/
theorem tblServe_read {c : TblCmd} {s : State} (hop : c.op = 3)
    (hlim : c.count * (tblShape s c.staged c.table).1 ≤ c.limit) :
    tblServe c s = ({
      status := 0, detail := 0, done := c.count, result := 0
      reply := (List.range c.count).flatMap fun k =>
        leBytes (tblShape s c.staged c.table).1 (tblGet s c.staged c.table (c.index + k)) }, s) := by
  have hentry : ∀ k, tblEntry c k s = (0, 0,
      leBytes (tblShape s c.staged c.table).1 (tblGet s c.staged c.table (c.index + k)), s) := by
    intro k; simp [tblEntry, hop]
  simp [tblServe, tblReadBytes, hop, Nat.not_lt.mpr hlim, runEntries_of_const hentry]

/-! ### Checks of a live WRITE (R494) -/

/-- A live WRITE of the first five tables: its count is judged, then its range. -/
theorem tblHeadRefused_liveWrite {c : TblCmd} (s : State) (hop : c.op = 1) (htable : 1 ≤ c.table ∧ c.table ≤ 5)
    (hgroups : c.groups = 0xF) (hst : c.staged = false) :
    tblHeadRefused c s =
      if c.count = 0 ∨ 256 < c.count then some (2, 0)
      else if (tblShape s false c.table).2 < c.index + c.count then some (6, 0) else none := by
  have hstaged : tblStaged c.table = false := by simp [tblStaged]; omega
  have hknown : tblKnown c.table = true := by simp [tblKnown]; omega
  have h6 : c.table ≠ 6 := by omega
  have h10 : c.table ≠ 0x10 := by omega
  have h20 : ¬ 0x20 ≤ c.table := by omega
  by_cases hr : (tblShape s false c.table).2 < c.index + c.count <;>
    simp [tblHeadRefused, hop, hgroups, hst, hstaged, hknown, h6, h10, h20, hr, Nat.not_le.mpr, Nat.not_lt.mp]

/-! ### Live forwarding tables -/

/-- A cleared field leaves at most the number. -/
theorem clearBits_le (v : Nat) {hi lo : Nat} (h : lo ≤ hi + 1) : clearBits v hi lo ≤ v := by
  obtain ⟨d, hd⟩ := Nat.exists_eq_add_of_le h
  have hpow : 2 ^ (hi + 1) = 2 ^ lo * 2 ^ d := by rw [hd, Nat.pow_add]
  have hdiv : v / 2 ^ (hi + 1) = v / 2 ^ lo / 2 ^ d := by rw [hpow, Nat.div_div_eq_div_mul]
  have h1 : v / 2 ^ lo / 2 ^ d * 2 ^ d ≤ v / 2 ^ lo := Nat.div_mul_le_self _ _
  have h2 := Nat.div_add_mod v (2 ^ lo)
  simp only [clearBits, putFld, Nat.shiftRight_eq_div_pow, Nat.shiftLeft_eq, Nat.zero_mod, Nat.zero_mul, Nat.add_zero, hdiv]
  calc v / 2 ^ lo / 2 ^ d * 2 ^ (hi + 1) + v % 2 ^ lo
      = 2 ^ lo * (v / 2 ^ lo / 2 ^ d * 2 ^ d) + v % 2 ^ lo := by rw [hpow]; ring
    _ ≤ 2 ^ lo * (v / 2 ^ lo) + v % 2 ^ lo := by gcongr
    _ = v := h2

/-- A row of n bytes just set reads as the number stored. -/
theorem toNat_tget_tset_same {w n : Nat} {t : Tbl (BitVec w)} (h : tcanon 0 t = true) (i : Nat) {x : Nat}
    (hx : x < 256 ^ n) (hw : w = 8 * n) : (tget 0 (tset 0 t i (BitVec.ofNat w x)) i).toNat = x := by
  rw [tget_tset_same h, BitVec.toNat_ofNat, hw, Nat.pow_mul, Nat.mod_eq_of_lt hx]

/-! What an entry of each live table is. -/

theorem tblGet_lpm (s : State) (i : Nat) : tblGet s false 1 i = (tget 0 s.fwd.lpm i).toNat := rfl
theorem tblGet_nh (s : State) (i : Nat) : tblGet s false 2 i = (tget 0 s.fwd.nh i).toNat := rfl
theorem tblGet_ecmp (s : State) (i : Nat) : tblGet s false 3 i = (tget 0 s.fwd.ecmp i).toNat := rfl
theorem tblGet_service (s : State) (i : Nat) : tblGet s false 4 i = (tget 0 s.fwd.lbService i).toNat := rfl
theorem tblGet_backend (s : State) (i : Nat) : tblGet s false 5 i = (tget 0 s.fwd.lbBackend i).toNat := rfl
theorem tblGet_slot (s : State) (i : Nat) : tblGet s false 6 i = (tget 0 s.fwd.lbSlot i).toNat := rfl
theorem tblGet_mcGroup (s : State) (i : Nat) : tblGet s false 8 i = (tget 0 s.fwd.mcGroup i).toNat := rfl
theorem tblGet_mcTarget (s : State) (i : Nat) : tblGet s false 9 i = (tget 0 s.fwd.mcTarget i).toNat := rfl

theorem mem_liveTables_iff {r : Nat × Nat × Nat} : r ∈ liveTables ↔
    r = (1, 205, 128) ∨ r = (2, 91, 0) ∨ r = (3, 31, 24) ∨ r = (4, 24, 0) ∨ r = (5, 69, 0) ∨ r = (6, 30, 20) ∨
      r = (8, 31, 0) ∨ r = (9, 17, 10) := by
  simp [liveTables]

/-- A live table is none of those that other hardware or the staged bank holds. -/
theorem liveTables_table {r : Nat × Nat × Nat} (h : r ∈ liveTables) :
    tblStaged r.1 = false ∧ r.1 ∉ [7, 0x10, 0x11, 0x14] := by
  rw [mem_liveTables_iff] at h
  rcases h with rfl | rfl | rfl | rfl | rfl | rfl | rfl | rfl <;> decide

section
variable {s u : State} {r : Nat × Nat × Nat} {i v : Nat}

/-- An entry stored in a live table changes the forwarding part only, and neither layer-2 entries nor the NAT table. -/
theorem tblPut_live_frame (hr : r ∈ liveTables) (i v : Nat) (s : State) :
    ∃ u, tblPut r.1 i v s = some u ∧ u = { s with fwd := u.fwd } ∧ u.fwd.l2 = s.fwd.l2 ∧ u.fwd.natab = s.fwd.natab := by
  rw [mem_liveTables_iff] at hr
  rcases hr with rfl | rfl | rfl | rfl | rfl | rfl | rfl | rfl <;> exact ⟨_, rfl, rfl, rfl, rfl⟩

variable (hr : r ∈ liveTables) (hput : tblPut r.1 i v s = some u)
include hr hput

/-- The entry stored reads as it was given, its reserved field 0 (R10). -/
theorem tblGet_tblPut_same (hcanon : LiveTablesCanonical s.fwd) (hv : v < 256 ^ (tblShape s false r.1).1) :
    tblGet u false r.1 i = clearBits v r.2.1 r.2.2 := by
  obtain ⟨h1, h2, h3, h4, h5, h6, h8, h9⟩ := hcanon
  have hle : clearBits v r.2.1 r.2.2 ≤ v := by
    refine clearBits_le v ?_
    rw [mem_liveTables_iff] at hr
    rcases hr with rfl | rfl | rfl | rfl | rfl | rfl | rfl | rfl <;> decide
  rw [mem_liveTables_iff] at hr
  rcases hr with rfl | rfl | rfl | rfl | rfl | rfl | rfl | rfl <;> obtain rfl := Option.some.inj hput
  all_goals simp only [tblGet_lpm, tblGet_nh, tblGet_ecmp, tblGet_service, tblGet_backend, tblGet_slot, tblGet_mcGroup,
      tblGet_mcTarget, setFwd_fwd]
  · exact toNat_tget_tset_same h1 i (hle.trans_lt hv) rfl
  · exact toNat_tget_tset_same h2 i (hle.trans_lt hv) rfl
  · have hmod : clearBits v 31 24 = v % 2 ^ 24 := by
      have hv' : v < 2 ^ 32 := hv
      simp [clearBits, putFld, Nat.shiftRight_eq_div_pow]
      omega
    rw [← hmod]
    exact toNat_tget_tset_same h3 i (hle.trans_lt hv) rfl
  · exact toNat_tget_tset_same h4 i (hle.trans_lt hv) rfl
  · exact toNat_tget_tset_same h5 i (hle.trans_lt hv) rfl
  · exact toNat_tget_tset_same h6 i (hle.trans_lt hv) rfl
  · exact toNat_tget_tset_same h8 i (hle.trans_lt hv) rfl
  · exact toNat_tget_tset_same h9 i (hle.trans_lt hv) rfl

/-- Every other row of the table reads as before. -/
theorem tblGet_tblPut_otherRow {j : Nat} (hj : j ≠ i) : tblGet u false r.1 j = tblGet s false r.1 j := by
  rw [mem_liveTables_iff] at hr
  rcases hr with rfl | rfl | rfl | rfl | rfl | rfl | rfl | rfl <;> obtain rfl := Option.some.inj hput <;>
    simp only [tblGet_lpm, tblGet_nh, tblGet_ecmp, tblGet_service, tblGet_backend, tblGet_slot, tblGet_mcGroup,
      tblGet_mcTarget, setFwd_fwd, tget_tset_other _ _ hj]

/-- Every row of another live table reads as before. -/
theorem tblGet_tblPut_otherTable {q : Nat × Nat × Nat} (hq : q ∈ liveTables) (hne : q.1 ≠ r.1) (j : Nat) :
    tblGet u false q.1 j = tblGet s false q.1 j := by
  rw [mem_liveTables_iff] at hr hq
  rcases hr with rfl | rfl | rfl | rfl | rfl | rfl | rfl | rfl <;> obtain rfl := Option.some.inj hput <;>
    rcases hq with rfl | rfl | rfl | rfl | rfl | rfl | rfl | rfl
  all_goals simp only [tblGet_lpm, tblGet_nh, tblGet_ecmp, tblGet_service, tblGet_backend, tblGet_slot, tblGet_mcGroup,
      tblGet_mcTarget, setFwd_fwd]
  all_goals exact absurd rfl hne

/-- A stored entry leaves every other entry of every live table as it was. -/
theorem tblGet_tblPut_other {q : Nat × Nat × Nat} (hq : q ∈ liveTables) {j : Nat} (h : q.1 ≠ r.1 ∨ j ≠ i) :
    tblGet u false q.1 j = tblGet s false q.1 j := by
  by_cases ht : q.1 = r.1
  · rw [ht]
    exact tblGet_tblPut_otherRow hr hput (h.resolve_left (not_not_intro ht))
  · exact tblGet_tblPut_otherTable hr hput hq ht j

end

/-! ### Answers of table commands (R380) -/

/-- The answer of a WRITE or DELETE of one entry that was applied: count 1, result 0. -/
theorem tblAnswer_oneDone {c : TblCmd} (hop : c.op ≠ 3) :
    tblAnswer c oneDone = { status := 0, body := leBytes 4 1 ++ leBytes 4 0 } := by
  simp [tblAnswer, oneDone, hop]

/-- A command that ends without an entry applied answers like a refusal. -/
theorem tblAnswer_noneDone (c : TblCmd) {st : Nat} (hst : st ≠ 0) (d : Nat) : tblAnswer c (noneDone st d) = refuse st d := by
  simp [tblAnswer, noneDone, hst, refuse]

/-- The row of a command on another table than the flows' (Table 4-9). -/
theorem tblRow_of_op {c : TblCmd} (ht : c.table ≠ 0x10) : tblRow c = if 2 ≤ c.op ∧ c.op ≤ 5 then c.op else 1 := by
  simp [tblRow, ht]

theorem hostTable_eq_false {c : TblCmd} (ht : c.table ≠ 0x10) (ht' : c.table ≠ 0x11) : hostTable c = false := by
  simp [hostTable, ht, ht']

theorem tblEdited_of_live {c : TblCmd} (h : tblStaged c.table = false) (s : State) : tblEdited c s = s := by
  simp [tblEdited, h]

/-- A live table's DELETE stores an entry of zeros (R381). -/
theorem tblDelete_live {r : Nat × Nat × Nat} (hr : r ∈ liveTables) {i : Nat} {s u : State} (hput : tblPut r.1 i 0 s = some u) :
    tblDelete r.1 i s = u := by
  have h : tblDelete r.1 i s = (tblPut r.1 i 0 s).getD s := by
    rw [mem_liveTables_iff] at hr
    rcases hr with rfl | rfl | rfl | rfl | rfl | rfl | rfl | rfl <;> rfl
  rw [h, hput, Option.getD_some]

/-! ### Live tables over the mailbox -/

section
variable {s : State} {h : Nat} {payload : Bytes} {c : TblCmd} {r : Nat × Nat × Nat} (hr : TableRequest s h false payload)
  (hc : tblCmd h false payload 4071 = c) (hmem : r ∈ liveTables) (htable : c.table = r.1) (hcount : c.count = 1)
  (hok : tblRefused c s = none)

include hmem htable in
/-- A live table's commands are the table hardware's, of the row that their operation names, and stage nothing. -/
theorem live_row : hostTable c = false ∧ tblStaged c.table = false ∧ c.table ≠ 0x14 ∧
    (c.op = 1 → tblRow c = 1) ∧ (c.op = 2 → tblRow c = 2) := by
  have hne := liveTables_table hmem
  simp only [List.mem_cons, List.not_mem_nil, or_false, not_or] at hne
  obtain ⟨hst, -, h10, h11, h14⟩ := hne
  rw [← htable] at hst h10 h11 h14
  refine ⟨hostTable_eq_false h10 h11, hst, h14, fun hop => ?_, fun hop => ?_⟩ <;> simp [tblRow_of_op h10, hop]

include hr hc hmem htable hcount hok

/-- A WRITE of one live entry stores it with its reserved field 0 and answers count 1. -/
theorem tblRun_writeLive (hcanon : LiveTablesCanonical s.fwd) (hop : c.op = 1)
    (hent : entryRefused c.table c.index 0 (leNat payload) s = none) :
    ∃ u, AnswerOnly (tblRun 1 (.message .mailbox) s) u ∧ u = { s with fwd := u.fwd } ∧
      MailboxAnswered s (tblRun 1 (.message .mailbox) s) { status := 0, body := leBytes 4 1 ++ leBytes 4 0 } ∧
      tblGet u false c.table c.index = clearBits (leNat payload) r.2.1 r.2.2 ∧
      (∀ q ∈ liveTables, ∀ j, q.1 ≠ c.table ∨ j ≠ c.index → tblGet u false q.1 j = tblGet s false q.1 j) ∧
      u.fwd.l2 = s.fwd.l2 ∧ u.fwd.natab = s.fwd.natab := by
  obtain ⟨hhost, hlive, -, hrow, -⟩ := live_row hmem htable
  have hpay : c.payload = payload := by rw [← hc]; rfl
  have hstaged : c.staged = false := by rw [← hc]; rfl
  obtain ⟨u, hput, hu, hl2, hnat⟩ := tblPut_live_frame hmem c.index (leNat payload) s
  have hserve : tblServe c s = (oneDone, u) := by
    rw [tblServe_writeOne_applied hop hcount hok (hpay ▸ hent) (htable ▸ hpay ▸ hput), tblEdited_of_live hlive]
  have hv : leNat payload < 256 ^ (tblShape s false r.1).1 := by
    have hlen := payload_length_of_tblRefused_none hok
    simp only [tblPayload, hop, hcount, Nat.one_mul, hstaged, htable, hpay] at hlen
    exact hlen ▸ leNat_lt payload
  obtain ⟨hans, honly⟩ := tblRun_mailbox_served hr hc (hrow hop) hok (by omega) hhost hserve (by rw [hu])
  rw [tblAnswer_oneDone (by omega)] at hans
  refine ⟨u, honly, hu, hans, ?_, fun q hq j hne => ?_, hl2, hnat⟩
  · rw [htable]
    exact tblGet_tblPut_same hmem hput hcanon hv
  · exact tblGet_tblPut_other hmem hput hq (htable ▸ hne)

/-- A WRITE of one live entry that the entry's own checks refuse is answered so and stores nothing. -/
theorem tblRun_writeLive_refused (hop : c.op = 1) {e : Nat × Nat}
    (hent : entryRefused c.table c.index 0 (leNat payload) s = some e) :
    MailboxAnswered s (tblRun 1 (.message .mailbox) s) (refuse e.1 e.2) ∧ AnswerOnly (tblRun 1 (.message .mailbox) s) s := by
  obtain ⟨hhost, -, -, hrow, -⟩ := live_row hmem htable
  have hpay : c.payload = payload := by rw [← hc]; rfl
  have hserve := tblServe_writeOne_refused hop hcount hok (hpay ▸ hent)
  rw [← tblAnswer_noneDone c (entryRefused_status_ne_zero hent)]
  exact tblRun_mailbox_served hr hc (hrow hop) hok (by omega) hhost hserve rfl

/-- A DELETE of one live entry makes it read 0 and answers count 1. -/
theorem tblRun_deleteLive (hcanon : LiveTablesCanonical s.fwd) (hop : c.op = 2) :
    ∃ u, AnswerOnly (tblRun 2 (.message .mailbox) s) u ∧ u = { s with fwd := u.fwd } ∧
      MailboxAnswered s (tblRun 2 (.message .mailbox) s) { status := 0, body := leBytes 4 1 ++ leBytes 4 0 } ∧
      tblGet u false c.table c.index = 0 ∧
      (∀ q ∈ liveTables, ∀ j, q.1 ≠ c.table ∨ j ≠ c.index → tblGet u false q.1 j = tblGet s false q.1 j) := by
  obtain ⟨hhost, hlive, h14, -, hrow⟩ := live_row hmem htable
  obtain ⟨u, hput, hu, -, -⟩ := tblPut_live_frame hmem c.index 0 s
  have hserve : tblServe c s = (oneDone, u) := by
    rw [tblServe_deleteOne hop hcount h14, tblEdited_of_live hlive, htable, tblDelete_live hmem hput]
  obtain ⟨hans, honly⟩ := tblRun_mailbox_served hr hc (hrow hop) hok (by omega) hhost hserve (by rw [hu])
  rw [tblAnswer_oneDone (by omega)] at hans
  refine ⟨u, honly, hu, hans, ?_, fun q hq j hne => ?_⟩
  · rw [htable, tblGet_tblPut_same hmem hput hcanon (by positivity)]
    simp [clearBits, putFld]
  · exact tblGet_tblPut_other hmem hput hq (htable ▸ hne)

end

/-! ### READ over the mailbox -/

/-- A READ of the table hardware answers its entries as they stand (R378). -/
theorem tblRun_read {s : State} {h : Nat} {staged : Bool} {payload : Bytes} {c : TblCmd} (hr : TableRequest s h staged payload)
    (hc : tblCmd h staged payload 4071 = c) (hop : c.op = 3) (hok : tblRefused c s = none) (ht : c.table ∉ [0x10, 0x11])
    (hlim : c.count * (tblShape s staged c.table).1 ≤ 4071) :
    AnswerOnly (tblRun 3 (.message .mailbox) s) s ∧
      MailboxAnswered s (tblRun 3 (.message .mailbox) s) {
        status := 0
        body := leBytes 4 c.count ++ leBytes 4 0 ++ (List.range c.count).flatMap fun k =>
          leBytes (tblShape s staged c.table).1 (tblGet s staged c.table (c.index + k)) } := by
  simp only [List.mem_cons, List.not_mem_nil, or_false, not_or] at ht
  have hstaged : c.staged = staged := by rw [← hc]; rfl
  have hlimit : c.limit = 4071 := by rw [← hc]; rfl
  have hserve := tblServe_read (c := c) (s := s) hop (by rw [hstaged, hlimit]; exact hlim)
  obtain ⟨hans, honly⟩ := tblRun_mailbox_served hr hc (row := 3) (by simp [tblRow_of_op ht.1, hop]) hok (by omega)
    (hostTable_eq_false ht.1 ht.2) hserve rfl
  refine ⟨honly, ?_⟩
  simpa only [tblAnswer, hop, hstaged, if_true] using hans

/-! ### Layer-2 entries -/

theorem l2Entry_setL2_other (s : State) {k j : Nat} (e : BitVec 128) (h : j ≠ k) : l2Entry (setL2 s k e) j = l2Entry s j :=
  tget_tset_other _ _ h

theorem ne_zero_of_l2Valid {e : BitVec 128} (h : l2Valid e = true) : e ≠ 0 := by
  rintro rfl
  simp [l2Valid, bit] at h

theorem l2Entry_setL2_same (s : State) (k : Nat) {e : BitVec 128} (h : l2Valid e = true) : l2Entry (setL2 s k e) k = e :=
  tget_tset_ne_default (ne_zero_of_l2Valid h) _ _

theorem setL2_eq (s : State) (k : Nat) (e : BitVec 128) :
    setL2 s k e = { s with fwd := { s.fwd with l2 := (setL2 s k e).fwd.l2 } } := rfl

/-- A valid entry is listed. -/
theorem mem_l2_of_l2Valid {s : State} {k : Nat} (h : l2Valid (l2Entry s k) = true) : (k, l2Entry s k) ∈ s.fwd.l2 :=
  mem_of_tget_ne (ne_zero_of_l2Valid h)

/-- The slots of a key lie in its group and layout (R117). -/
theorem group_layout_of_mem_l2Slots {g l : Nat} (hl : l < 2) {seeds : Nat × Nat} {vid mac k : Nat}
    (h : k ∈ l2Slots g l seeds vid mac) : k / 2 ^ 20 = g ∧ k / 2 ^ 18 % 4 = l := by
  simp only [l2Slots, List.mem_eraseDups, List.mem_append, List.mem_map, List.mem_range] at h
  have hb : ∀ n j, j < 8 → k = 2 ^ 20 * g + 2 ^ 18 * l + 8 * (n % 32768) + j → k / 2 ^ 20 = g ∧ k / 2 ^ 18 % 4 = l := by
    intro n j hj hk
    omega
  rcases h with ⟨j, hj, hk⟩ | ⟨j, hj, hk⟩
  · exact hb _ j hj hk.symm
  · exact hb _ j hj hk.symm

theorem group_of_mem_l2Where {s : State} {g vid mac k : Nat} (hl : l2Layout s g < 2) (h : k ∈ l2Where s g vid mac) :
    k / 2 ^ 20 = g := by
  simp only [l2Where, List.mem_append] at h
  rcases h with h | h
  · exact (group_layout_of_mem_l2Slots hl h).1
  · split at h
    · exact (group_layout_of_mem_l2Slots (by omega) h).1
    · cases h

/-- Where an insertion may go is among the places in which its key is looked for (R121). -/
theorem mem_l2Where_of_l2Room {s : State} {g vid mac k : Nat} (h : l2Room s g vid mac = some k) : k ∈ l2Where s g vid mac := by
  have hm := List.mem_of_find?_eq_some h
  simp only [l2Where, List.mem_append]
  split at hm
  · exact .inr (by simp [*])
  · exact .inl hm

/-- A search that finds nothing, or k first, still finds k once k alone has come to satisfy it. -/
theorem find?_eq_some_of_agree {α : Type} {p q : α → Bool} {l : List α} {k : α} (hk : k ∈ l) (hq : q k = true)
    (hagree : ∀ j, j ≠ k → q j = p j) (h : l.find? p = none ∨ l.find? p = some k) : l.find? q = some k := by
  induction l with
  | nil => cases hk
  | cons a l ih =>
    by_cases ha : a = k
    · subst ha; simp [hq]
    · have hkl : k ∈ l := by simpa [Ne.symm ha] using hk
      have hpa : p a = false := by
        by_contra hp
        rcases h with h | h <;> simp_all
      rw [List.find?_cons_of_neg (by simp [hagree a ha, hpa])]
      rw [List.find?_cons_of_neg (by simp [hpa])] at h
      exact ih hkl h

/-- An entry put where its key sits, or where it may go when it sits nowhere, is then found there. -/
theorem l2Find_setL2_same {s : State} {g k : Nat} {e : BitVec 128} (he : l2Valid e = true)
    (hk : k ∈ l2Where s g (l2Vid e) (l2Mac e))
    (h : l2Find s g (l2Vid e) (l2Mac e) = none ∨ l2Find s g (l2Vid e) (l2Mac e) = some k) :
    l2Find (setL2 s k e) g (l2Vid e) (l2Mac e) = some k := by
  refine find?_eq_some_of_agree hk ?_ (fun j hj => ?_) h
  · simp [l2Entry_setL2_same s k he, he]
  · simp only [l2Entry_setL2_other s e hj]

/-- Where a group's entries and layout are the same, a key is found at the same place. -/
theorem l2Find_congr {s t : State} {g : Nat} (hl : l2Layout s g < 2) (hlay : t.fwd.layout = s.fwd.layout)
    (hseeds : t.fwd.seeds = s.fwd.seeds) (hreb : t.fwd.rebuild = s.fwd.rebuild)
    (h : ∀ k, k / 2 ^ 20 = g → l2Entry t k = l2Entry s k) (vid mac : Nat) : l2Find t g vid mac = l2Find s g vid mac := by
  have hw : l2Where t g vid mac = l2Where s g vid mac := by
    simp only [l2Where, l2Layout, l2Seeds, hlay, hseeds, hreb]
  simp only [l2Find, hw]
  refine List.find?_congr fun k hk => ?_
  rw [h k (group_of_mem_l2Where hl hk)]

/-! ### Static layer-2 entries (R117, R120) -/

/-- Outside the layer-2 entries themselves, t is s. -/
def OnlyL2 (s t : State) : Prop := t = { s with fwd := { s.fwd with l2 := t.fwd.l2 } }

theorem OnlyL2.refl (s : State) : OnlyL2 s s := rfl

theorem OnlyL2.trans {s t u : State} (h : OnlyL2 s t) (h' : OnlyL2 t u) : OnlyL2 s u := by
  unfold OnlyL2 at *
  rw [h', h]

theorem onlyL2_setL2 (s : State) (k : Nat) (e : BitVec 128) : OnlyL2 s (setL2 s k e) := rfl

theorem OnlyL2.layout {s t : State} (h : OnlyL2 s t) (g : Nat) : l2Layout t g = l2Layout s g := by
  unfold OnlyL2 at h
  rw [h]; rfl

/-- A fold whose every step changes layer-2 entries only does so too. -/
theorem onlyL2_foldl {α : Type} {f : State → α → State} (h : ∀ t a, OnlyL2 t (f t a)) (l : List α) (s : State) :
    OnlyL2 s (l.foldl f s) := by
  induction l generalizing s with
  | nil => exact OnlyL2.refl s
  | cons a l ih => exact (h s a).trans (ih (f s a))

theorem setL2static_of_onlyL2 {s t : State} (h : OnlyL2 s t) (x : Tbl (BitVec 128)) :
    setFwd t { t.fwd with l2static := x } = { s with fwd := { s.fwd with l2 := t.fwd.l2, l2static := x } } := by
  unfold OnlyL2 at h
  rw [h]
  rfl

/-- Removing a static entry changes layer-2 entries and the handles only. -/
theorem l2Unset_eq (h : Nat) (s : State) :
    ∃ l2 l2static, l2Unset h s = { s with fwd := { s.fwd with l2 := l2, l2static := l2static } } := by
  rw [l2Unset]
  generalize hgone : List.foldl _ s (List.range 4) = gone
  have hg : OnlyL2 s gone := by
    rw [← hgone]
    refine onlyL2_foldl (fun t g => ?_) _ _
    generalize l2Find t g _ _ = f
    cases f with
    | none => exact OnlyL2.refl t
    | some k =>
      dsimp only
      split
      · exact onlyL2_setL2 t k 0
      · exact OnlyL2.refl t
  dsimp only
  split
  · exact ⟨_, _, setL2static_of_onlyL2 hg _⟩
  · exact ⟨s.fwd.l2, s.fwd.l2static, rfl⟩

/-- A static entry is put over an entry of its key, else where the key has room. -/
theorem l2SetGroup_some (e : BitVec 128) (s : State) (g : Nat) : l2SetGroup e (some s) g =
    (l2Find s g (l2Vid e) (l2Mac e)).elim ((l2Room s g (l2Vid e) (l2Mac e)).map fun k => setL2 s k e)
      fun k => some (setL2 s k e) := by
  rw [l2SetGroup, Option.bind_some]
  generalize l2Find s g (l2Vid e) (l2Mac e) = f
  cases f <;> rfl

/-- A static entry put into a group: it is found there, and no entry of another group changes. -/
theorem l2SetGroup_spec {e : BitVec 128} {s t : State} {g : Nat} (he : l2Valid e = true) (hl : l2Layout s g < 2)
    (h : l2SetGroup e (some s) g = some t) :
    OnlyL2 s t ∧ (∀ k, k / 2 ^ 20 ≠ g → l2Entry t k = l2Entry s k) ∧
      ∃ k, l2Find t g (l2Vid e) (l2Mac e) = some k ∧ k / 2 ^ 20 = g ∧ l2Entry t k = e := by
  have hput : ∃ k, k ∈ l2Where s g (l2Vid e) (l2Mac e) ∧
      (l2Find s g (l2Vid e) (l2Mac e) = none ∨ l2Find s g (l2Vid e) (l2Mac e) = some k) ∧ t = setL2 s k e := by
    rw [l2SetGroup_some] at h
    cases hfind : l2Find s g (l2Vid e) (l2Mac e) with
    | some k =>
      rw [hfind] at h
      exact ⟨k, List.mem_of_find?_eq_some hfind, .inr rfl, (Option.some.inj h).symm⟩
    | none =>
      rw [hfind] at h
      obtain ⟨k, hroom, rfl⟩ := Option.map_eq_some_iff.mp h
      exact ⟨k, mem_l2Where_of_l2Room hroom, .inl rfl, rfl⟩
  obtain ⟨k, hk, hf, rfl⟩ := hput
  have hg := group_of_mem_l2Where hl hk
  exact ⟨onlyL2_setL2 s k e, fun j hj => l2Entry_setL2_other s e (by rintro rfl; exact hj hg), k,
    l2Find_setL2_same he hk hf, hg, l2Entry_setL2_same s k he⟩

theorem l2SetGroup_foldl_none (e : BitVec 128) (gs : List Nat) : gs.foldl (l2SetGroup e) none = none := by
  induction gs with
  | nil => rfl
  | cons g gs ih => exact ih

/-- A static entry put into each of several groups is found in each of them (R120). -/
theorem l2SetGroup_foldl_spec {e : BitVec 128} (he : l2Valid e = true) {gs : List Nat} (hnd : gs.Nodup) {s t : State}
    (hl : ∀ g ∈ gs, l2Layout s g < 2) (h : gs.foldl (l2SetGroup e) (some s) = some t) :
    OnlyL2 s t ∧ (∀ k, k / 2 ^ 20 ∉ gs → l2Entry t k = l2Entry s k) ∧
      ∀ g ∈ gs, ∃ k, l2Find t g (l2Vid e) (l2Mac e) = some k ∧ l2Entry t k = e := by
  induction gs generalizing s with
  | nil =>
    obtain rfl := Option.some.inj h
    exact ⟨OnlyL2.refl _, fun _ _ => rfl, fun _ hg => absurd hg List.not_mem_nil⟩
  | cons g gs ih =>
    obtain ⟨hg, hnd⟩ := List.nodup_cons.mp hnd
    rw [List.foldl_cons] at h
    cases hu : l2SetGroup e (some s) g with
    | none => rw [hu, l2SetGroup_foldl_none] at h; cases h
    | some u =>
      rw [hu] at h
      obtain ⟨honly, hother, k, hfind, hkg, hke⟩ := l2SetGroup_spec he (hl g List.mem_cons_self) hu
      have hlu : ∀ g' ∈ gs, l2Layout u g' < 2 := fun g' hg' => honly.layout g' ▸ hl g' (List.mem_cons_of_mem _ hg')
      obtain ⟨honly', hother', hfound⟩ := ih hnd hlu h
      refine ⟨honly.trans honly', fun j hj => ?_, fun g' hg' => ?_⟩
      · simp only [List.mem_cons, not_or] at hj
        rw [hother' j hj.2, hother j hj.1]
      · rcases List.mem_cons.mp hg' with rfl | hg'
        · have hsame : ∀ j, j / 2 ^ 20 = g' → l2Entry t j = l2Entry u j := fun j hj => hother' j (hj ▸ hg)
          have hcong := l2Find_congr (t := t) (honly.layout g' ▸ hl g' List.mem_cons_self) (by rw [honly']) (by rw [honly'])
            (by rw [honly']) hsame (l2Vid e) (l2Mac e)
          exact ⟨k, hcong.trans hfind, (hsame k hkg).trans hke⟩
        · exact hfound g' hg'

/-- The entry that a static layer-2 WRITE stores: valid, no hit, its reserved field 0, learned now (Table 4-7). -/
def l2StaticEntry (w : BitVec 128) (s : State) : BitVec 128 :=
  putBf (putBf (putBf (putBf w 127 127 1) 124 124 0) 53 32 0) 31 0 (devUs s)

section
variable (v : Nat) (s : State)

theorem l2Valid_l2StaticEntry (w : BitVec 128) : l2Valid (l2StaticEntry w s) = true := by
  simp [l2Valid, l2StaticEntry, bit_putBf]

theorem l2Hit_l2StaticEntry (w : BitVec 128) : l2Hit (l2StaticEntry w s) = false := by
  simp [l2Hit, l2StaticEntry, bit_putBf]

theorem l2Static_l2StaticEntry : l2Static (l2StaticEntry (BitVec.ofNat 128 v) s) = v.testBit 126 := by
  simp [l2Static, l2StaticEntry, bit_putBf, bit_ofNat]

theorem l2SvDrop_l2StaticEntry : l2SvDrop (l2StaticEntry (BitVec.ofNat 128 v) s) = v.testBit 125 := by
  simp [l2SvDrop, l2StaticEntry, bit_putBf, bit_ofNat]

theorem l2Vid_l2StaticEntry : l2Vid (l2StaticEntry (BitVec.ofNat 128 v) s) = fld v 123 112 := by
  simp [l2Vid, l2StaticEntry, bf_putBf_apart, bf_ofNat]

theorem l2Mac_l2StaticEntry : l2Mac (l2StaticEntry (BitVec.ofNat 128 v) s) = fld v 111 64 := by
  simp [l2Mac, l2StaticEntry, bf_putBf_apart, bf_ofNat]

theorem l2Port_l2StaticEntry : l2Port (l2StaticEntry (BitVec.ofNat 128 v) s) = fld v 63 54 := by
  simp [l2Port, l2StaticEntry, bf_putBf_apart, bf_ofNat]

end

theorem l2Set_eq (h : Nat) (w : BitVec 128) (s : State) : l2Set h w s =
    ((List.range 4).foldl (l2SetGroup (l2StaticEntry w s)) (some (l2Unset h s))).map fun t =>
      setFwd t { t.fwd with l2static := tput t.fwd.l2static h (putBf (l2StaticEntry w s) 31 0 0) } := rfl

/-- A static entry that is written stands in all four groups, and only the forwarding part changes (R120). -/
theorem l2Set_spec {h : Nat} {w : BitVec 128} {s u : State} (hl : ∀ g, g < 4 → l2Layout s g < 2) (hset : l2Set h w s = some u) :
    u = { s with fwd := u.fwd } ∧ ∀ g, g < 4 →
      ∃ k, l2Find u g (l2Vid (l2StaticEntry w s)) (l2Mac (l2StaticEntry w s)) = some k ∧ l2Entry u k = l2StaticEntry w s := by
  obtain ⟨l2, l2static, hus⟩ := l2Unset_eq h s
  have hlu : ∀ g ∈ List.range 4, l2Layout (l2Unset h s) g < 2 := by
    intro g hg
    simpa only [l2Layout, hus] using hl g (List.mem_range.mp hg)
  rw [l2Set_eq] at hset
  obtain ⟨t, hfold, rfl⟩ := Option.map_eq_some_iff.mp hset
  obtain ⟨honly, -, hfound⟩ := l2SetGroup_foldl_spec (l2Valid_l2StaticEntry s w) List.nodup_range hlu hfold
  refine ⟨?_, fun g hg => hfound g (List.mem_range.mpr hg)⟩
  rw [setL2static_of_onlyL2 honly, hus]

/-! ### L2_FLUSH (Table 4-9) -/

theorem setL2_l2 (s : State) (k : Nat) (e : BitVec 128) : (setL2 s k e).fwd.l2 = tset 0 s.fwd.l2 k e := rfl

/-- In a canonical layer-2 table a removed entry reads 0, every other one as before. -/
theorem l2Entry_setL2_zero {s : State} (hs : tcanon 0 s.fwd.l2 = true) (k j : Nat) :
    l2Entry (setL2 s k 0) j = if j = k then 0 else l2Entry s j := by
  split
  · subst_vars
    rw [l2Entry, setL2_l2, tget_tset_same hs]
  · exact l2Entry_setL2_other s 0 ‹_›

/-- Clearing the rows of a list that satisfy a predicate, in a state whose layer-2 table is canonical. -/
theorem l2Entry_foldl_clear (p : BitVec 128 → Bool) (l : List (Nat × BitVec 128)) {s : State} (hs : tcanon 0 s.fwd.l2 = true) :
    tcanon 0 (l.foldl (fun z r => if p r.2 then setL2 z r.1 0 else z) s).fwd.l2 = true ∧
      ∀ k, l2Entry (l.foldl (fun z r => if p r.2 then setL2 z r.1 0 else z) s) k =
        if ∃ r ∈ l, r.1 = k ∧ p r.2 = true then 0 else l2Entry s k := by
  induction l generalizing s with
  | nil => exact ⟨hs, fun k => by simp⟩
  | cons r l ih =>
    rw [List.foldl_cons]
    split
    case isTrue hp =>
      have hs' : tcanon 0 (setL2 s r.1 0).fwd.l2 = true := setL2_l2 s r.1 0 ▸ tcanon_tset hs _ _
      obtain ⟨hcanon, hentry⟩ := ih hs'
      refine ⟨hcanon, fun k => ?_⟩
      rw [hentry k, l2Entry_setL2_zero hs]
      by_cases hk : k = r.1
      · simp [hk, hp]
      · simp [hk, Ne.symm hk]
    case isFalse hp =>
      obtain ⟨hcanon, hentry⟩ := ih hs
      refine ⟨hcanon, fun k => ?_⟩
      rw [hentry k]
      simp [hp]

/-- The entries that an L2_FLUSH removes from a selected group: dynamic ones that match its filter. -/
def l2Flushed (f : Nat) (e : BitVec 128) : Bool :=
  !l2Static e && (f.testBit 127 || l2Port e == fld f 63 54) && (f.testBit 126 || l2Vid e == fld f 123 112)

/-- An L2_FLUSH in one group. -/
def l2FlushGroup (c : TblCmd) (s : State) (g : Nat) : State :=
  if !c.groups.testBit g then s
  else (l2Group s g).foldl (fun z r => if l2Flushed (leNat c.payload) r.2 then setL2 z r.1 0 else z) s

theorem l2Flush_eq (c : TblCmd) (s : State) : l2Flush c s = (List.range 4).foldl (l2FlushGroup c) s := rfl

theorem onlyL2_l2FlushGroup (c : TblCmd) (s : State) (g : Nat) : OnlyL2 s (l2FlushGroup c s g) := by
  rw [l2FlushGroup]
  split
  · exact OnlyL2.refl s
  · refine onlyL2_foldl (fun t r => ?_) _ _
    split
    · exact onlyL2_setL2 _ _ _
    · exact OnlyL2.refl t

/-- In a canonical table the listed rows of a group that satisfy a predicate are those that read so. -/
theorem exists_mem_l2Group_iff {s : State} (hs : tcanon 0 s.fwd.l2 = true) (p : BitVec 128 → Bool) (g k : Nat) :
    (∃ r ∈ l2Group s g, r.1 = k ∧ p r.2 = true) ↔ k / 2 ^ 20 = g ∧ l2Entry s k ≠ 0 ∧ p (l2Entry s k) = true := by
  simp only [tcanon, tsorted, Bool.and_eq_true, List.all_eq_true, decide_eq_true_eq] at hs
  obtain ⟨hsort, hne⟩ := hs
  constructor
  · rintro ⟨⟨j, e⟩, hmem, rfl, hp⟩
    simp only [l2Group, List.mem_filter, beq_iff_eq] at hmem
    have he : l2Entry s j = e := by simp [l2Entry, tget, tfind_eq_some_of_mem hsort hmem.1]
    exact ⟨hmem.2, he ▸ hne _ hmem.1, he ▸ hp⟩
  · rintro ⟨hg, h0, hp⟩
    refine ⟨(k, l2Entry s k), ?_, rfl, hp⟩
    simp only [l2Group, List.mem_filter, beq_iff_eq]
    exact ⟨mem_of_tget_ne h0, hg⟩

theorem l2Entry_l2FlushGroup (c : TblCmd) {s : State} (hs : tcanon 0 s.fwd.l2 = true) (g : Nat) :
    tcanon 0 (l2FlushGroup c s g).fwd.l2 = true ∧ ∀ k, l2Entry (l2FlushGroup c s g) k =
      if k / 2 ^ 20 = g ∧ c.groups.testBit g = true ∧ l2Flushed (leNat c.payload) (l2Entry s k) = true then 0
      else l2Entry s k := by
  rw [l2FlushGroup]
  cases hsel : c.groups.testBit g with
  | false => exact ⟨hs, fun k => by simp⟩
  | true =>
    obtain ⟨hcanon, hentry⟩ := l2Entry_foldl_clear (l2Flushed (leNat c.payload)) (l2Group s g) hs
    refine ⟨hcanon, fun k => (hentry k).trans ?_⟩
    simp only [exists_mem_l2Group_iff hs]
    by_cases h0 : l2Entry s k = 0
    · simp [h0]
    · simp only [ne_eq, h0, not_false_eq_true, true_and]

theorem l2Entry_foldl_l2FlushGroup (c : TblCmd) (gs : List Nat) {s : State} (hs : tcanon 0 s.fwd.l2 = true) (k : Nat) :
    l2Entry (gs.foldl (l2FlushGroup c) s) k =
      if k / 2 ^ 20 ∈ gs ∧ c.groups.testBit (k / 2 ^ 20) = true ∧ l2Flushed (leNat c.payload) (l2Entry s k) = true then 0
      else l2Entry s k := by
  induction gs generalizing s with
  | nil => simp
  | cons g gs ih =>
    obtain ⟨hcanon, hentry⟩ := l2Entry_l2FlushGroup c hs g
    rw [List.foldl_cons, ih hcanon, hentry k]
    generalize k / 2 ^ 20 = n
    by_cases hn : n = g ∧ c.groups.testBit g = true ∧ l2Flushed (leNat c.payload) (l2Entry s k) = true
    · obtain ⟨rfl, hsel, hfl⟩ := hn
      simp [hsel, hfl]
    · rw [if_neg hn]
      by_cases hg : n = g
      · subst hg
        simp only [show ¬ (c.groups.testBit n = true ∧ l2Flushed (leNat c.payload) (l2Entry s k) = true) from
          fun h => hn ⟨rfl, h⟩, and_false]
      · simp [hg]

/-- An L2_FLUSH removes exactly the dynamic entries of its groups that match its filter (Table 4-9). -/
theorem l2Entry_l2Flush (c : TblCmd) {s : State} (hs : tcanon 0 s.fwd.l2 = true) (k : Nat) :
    l2Entry (l2Flush c s) k = if k / 2 ^ 20 < 4 ∧ c.groups.testBit (k / 2 ^ 20) = true ∧ l2Static (l2Entry s k) = false ∧
        ((leNat c.payload).testBit 127 = true ∨ l2Port (l2Entry s k) = fld (leNat c.payload) 63 54) ∧
        ((leNat c.payload).testBit 126 = true ∨ l2Vid (l2Entry s k) = fld (leNat c.payload) 123 112)
      then 0 else l2Entry s k := by
  rw [l2Flush_eq, l2Entry_foldl_l2FlushGroup c _ hs]
  simp [l2Flushed, and_assoc]

theorem onlyL2_l2Flush (c : TblCmd) (s : State) : OnlyL2 s (l2Flush c s) := onlyL2_foldl (onlyL2_l2FlushGroup c) _ _

/-! ### RESEED (R121) -/

/-- A row noted for each of several keys. -/
theorem tfind_foldl_tput {α : Type} (ks : List Nat) (x : α) (t : Tbl α) (n : Nat) :
    tfind (ks.foldl (fun t k => tput t k x) t) n = if n ∈ ks then some x else tfind t n := by
  induction ks generalizing t with
  | nil => simp
  | cons k ks ih =>
    rw [List.foldl_cons, ih]
    by_cases hn : n = k
    · subst hn; simp
    · simp [hn, tfind_tput_other t x hn]

/-- A RESEED that begins notes its new seeds for the selected groups. -/
theorem tfind_reseedBegin (c : TblCmd) (src : CmdSrc) (s : State) {g : Nat} (hg : g < 4) (hsel : c.groups.testBit g = true) :
    tfind (reseedBegin c src s).fwd.rebuild g =
      some { seedA := fld (leNat c.payload) 31 0, seedB := fld (leNat c.payload) 63 32 } := by
  simp only [reseedBegin, setFwd_fwd, tfind_foldl_tput]
  simp [hg, hsel]

theorem reseedBegin_eq (c : TblCmd) (src : CmdSrc) (s : State) : reseedBegin c src s = { s with
    fwd := { s.fwd with rebuild := (reseedBegin c src s).fwd.rebuild, reseeds := (reseedBegin c src s).fwd.reseeds } } := rfl

theorem entryRefused_staticL2 {c : TblCmd} {s : State} (htable : c.table = 7) (hv : (leNat c.payload).testBit 126 = true) :
    entryRefused c.table c.index 0 (leNat c.payload) s = none := by
  simp [entryRefused, htable, hv]

theorem tblRow_reseed {c : TblCmd} {s : State} (hok : tblRefused c s = none) (hop : c.op = 5) : tblRow c = 5 := by
  obtain ⟨-, h7, -⟩ := ops_of_tblRefused_none hok
  have htable : c.table = 7 := h7 (.inr hop)
  simp [tblRow_of_op (c := c) (by omega), hop]

/-! ### Layer-2 commands over the mailbox -/

section
variable {s : State} {h : Nat} {payload : Bytes} {c : TblCmd} (hr : TableRequest s h false payload)
  (hc : tblCmd h false payload 4071 = c) (hok : tblRefused c s = none)
include hr hc hok

section
variable (hop : c.op = 1) (htable : c.table = 7)
include hop htable

/-- A layer-2 WRITE ends as serving it does: row 1, and no command of HOST_FLOW. -/
theorem tblRun_writeL2 {e : HostEnd} {u : State} (hserve : tblServe c s = (e, u)) (hmbx : u.ctl.mbx = s.ctl.mbx) :
    AnswerOnly (tblRun 1 (.message .mailbox) s) u ∧ MailboxAnswered s (tblRun 1 (.message .mailbox) s) (tblAnswer c e) :=
  (tblRun_mailbox_served hr hc (by simp [tblRow_of_op (c := c) (by omega), hop]) hok (by omega)
    (hostTable_eq_false (by omega) (by omega)) hserve hmbx).symm

variable (hcount : c.count = 1)
include hcount

/-- An entry that is not static is INVALID in a layer-2 WRITE. -/
theorem tblRun_writeL2_dynamic (hv : (leNat payload).testBit 126 = false) :
    AnswerOnly (tblRun 1 (.message .mailbox) s) s ∧ MailboxAnswered s (tblRun 1 (.message .mailbox) s) (refuse stInvalid 0) := by
  have hpay : c.payload = payload := by rw [← hc]; rfl
  have hent : entryRefused c.table c.index 0 (leNat c.payload) s = some (2, 0) := by simp [entryRefused, htable, hpay, hv]
  have hrun := tblRun_writeL2 hr hc hok hop htable (tblServe_writeOne_refused hop hcount hok hent) rfl
  rwa [tblAnswer_noneDone c (by decide)] at hrun

variable (hv : (leNat payload).testBit 126 = true)
include hv

/-- A static entry without room in some group answers NO_SPACE and changes nothing. -/
theorem tblRun_writeL2_noSpace (hset : l2Set c.index (BitVec.ofNat 128 (leNat payload)) s = none) :
    AnswerOnly (tblRun 1 (.message .mailbox) s) s ∧ MailboxAnswered s (tblRun 1 (.message .mailbox) s) (refuse stNoSpace 0) := by
  have hput : tblPut c.table c.index (leNat c.payload) s = none := by rw [htable, ← hset, ← hc]; rfl
  have hserve := tblServe_writeOne_noSpace hop hcount hok (entryRefused_staticL2 htable (by rw [← hv, ← hc]; rfl)) hput
  have hrun := tblRun_writeL2 hr hc hok hop htable hserve rfl
  rwa [tblAnswer_noneDone c (by decide)] at hrun

/-- A static entry that has room stands in all four groups and answers count 1 (R120). -/
theorem tblRun_writeL2_static (hl : ∀ g, g < 4 → l2Layout s g < 2) {u : State}
    (hset : l2Set c.index (BitVec.ofNat 128 (leNat payload)) s = some u) :
    AnswerOnly (tblRun 1 (.message .mailbox) s) u ∧
      MailboxAnswered s (tblRun 1 (.message .mailbox) s) { status := 0, body := leBytes 4 1 ++ leBytes 4 0 } ∧
      ∀ g, g < 4 → ∃ k, l2Find u g (fld (leNat payload) 123 112) (fld (leNat payload) 111 64) = some k ∧
        l2Entry u k = l2StaticEntry (BitVec.ofNat 128 (leNat payload)) s := by
  have hput : tblPut c.table c.index (leNat c.payload) s = some u := by rw [htable, ← hset, ← hc]; rfl
  obtain ⟨hu, hfound⟩ := l2Set_spec hl hset
  have hserve := tblServe_writeOne_applied hop hcount hok (entryRefused_staticL2 htable (by rw [← hv, ← hc]; rfl)) hput
  rw [tblEdited_of_live (by rw [htable]; rfl)] at hserve
  obtain ⟨honly, hans⟩ := tblRun_writeL2 hr hc hok hop htable hserve (by rw [hu])
  rw [tblAnswer_oneDone (by omega)] at hans
  simp only [l2Vid_l2StaticEntry, l2Mac_l2StaticEntry] at hfound
  exact ⟨honly, hans, hfound⟩

end

/-- L2_FLUSH over the mailbox answers count 0 (Table 4-9). -/
theorem tblRun_l2Flush (hop : c.op = 4) :
    AnswerOnly (tblRun 4 (.message .mailbox) s) (l2Flush c s) ∧
      MailboxAnswered s (tblRun 4 (.message .mailbox) s) { status := 0, body := leBytes 4 0 ++ leBytes 4 0 } := by
  obtain ⟨-, h7, -⟩ := ops_of_tblRefused_none hok
  have htable : c.table = 7 := h7 (.inl hop)
  have hserve : tblServe c s = (noneDone 0 0, l2Flush c s) := by simp [tblServe, tblReadBytes, hop]
  have hmbx : (l2Flush c s).ctl.mbx = s.ctl.mbx := by
    have honly := onlyL2_l2Flush c s
    unfold OnlyL2 at honly
    rw [honly]
  obtain ⟨hans, honly⟩ := tblRun_mailbox_served hr hc (row := 4) (by simp [tblRow_of_op (c := c) (by omega), hop]) hok (by omega)
    (hostTable_eq_false (by omega) (by omega)) hserve hmbx
  refine ⟨honly, ?_⟩
  simpa [tblAnswer, noneDone, hop] using hans

variable (hop : c.op = 5)
include hop

/-- RESEED is BUSY while a selected group is being rebuilt. -/
theorem tblRun_reseed_busy (hbusy : reseedBusy c s = true) :
    AnswerOnly (tblRun 5 (.message .mailbox) s) s ∧ MailboxAnswered s (tblRun 5 (.message .mailbox) s) (refuse stBusy 0) := by
  have hrow := tblRow_reseed hok hop
  subst hc
  have ha := tableReq_passed hr (msgTblRefused_eq_none hok)
  simp only [hop, hbusy, if_true] at ha
  rw [tblRun_mailbox hr hrow ha]
  exact (mailboxAnswered_mbxFinish rfl _).symm

/-- Else a RESEED begins, to be answered when its last group ends. -/
theorem tblRun_reseed_begins (hbusy : reseedBusy c s = false) :
    tblRun 5 (.message .mailbox) s = reseedBegin c (.msg { who := 0, msg := mbxMsg s }) s := by
  have hrow := tblRow_reseed hok hop
  subst hc
  have ha := tableReq_passed hr (msgTblRefused_eq_none hok)
  simp only [hop, hbusy, if_true] at ha
  exact tblRun_mailbox hr hrow ha

end

/-! ### The banks (R64) -/

theorem freeBank_congr {s t : State} (h0 : t.ctl.bank0 = s.ctl.bank0) (h1 : t.ctl.bank1 = s.ctl.bank1)
    (he : t.ctl.epoch = s.ctl.epoch) : freeBank t = freeBank s := by
  simp only [freeBank, bankOf, h0, h1, he]

theorem setFreeBank_eq (s : State) (b : Banked) : setFreeBank s b = { s with ctl := { s.ctl with
    bank0 := (setFreeBank s b).ctl.bank0, bank1 := (setFreeBank s b).ctl.bank1 } } := by
  simp only [setFreeBank, setBank]
  split <;> rfl

@[simp] theorem freeBank_setFreeBank (s : State) (b : Banked) : freeBank (setFreeBank s b) = b := by
  simp only [freeBank, bankOf, setFreeBank, setBank]
  split <;> simp [*]

/-- Replacing the free bank leaves the active one (R64). -/
theorem activeBank_setFreeBank (s : State) (b : Banked) : bankOf (setFreeBank s b) s.ctl.epoch = bankOf s s.ctl.epoch := by
  simp only [bankOf, setFreeBank, setBank]
  rcases Nat.mod_two_eq_zero_or_one s.ctl.epoch with h | h
  · simp [h, show (s.ctl.epoch + 1) % 2 ≠ 0 by omega]
  · simp [h, show (s.ctl.epoch + 1) % 2 = 0 by omega]

/-- A staged edit marks the staged slot EDITING and advances the generation (R58). -/
theorem stagedEdit_eq (s : State) : stagedEdit s = { s with ctl := { s.ctl with
    generation := s.ctl.generation + 1, staged := (stagedEdit s).ctl.staged } } := rfl

theorem stagedEdit_state (s : State) : (stagedEdit s).ctl.staged.state = 1 := rfl

/-! ### Staged tables (Table 13-6) -/

section
variable (i v : Nat) (s : State)

theorem tblPut_templates : tblPut 0x12 i v s = some (setFreeBank s { freeBank s with
    templates := tset tplReset (freeBank s).templates i (BitVec.ofNat 512 (clearBits v 26 0)) }) := rfl

theorem tblPut_params : tblPut 0x13 i v s = some (setFreeBank s { freeBank s with
    params := tset 0 (freeBank s).params i (BitVec.ofNat 512 v) }) := rfl

theorem tblPut_edits : tblPut 0x30 i v s = some (setFreeBank s { freeBank s with
    edits := tset 0 (freeBank s).edits i (BitVec.ofNat 1024 v) }) := rfl

theorem tblPut_headers : tblPut 0x31 i v s = some (setFreeBank s { freeBank s with
    headers := tset 0 (freeBank s).headers i (BitVec.ofNat 576 (clearBits v 63 25)) }) := rfl

theorem tblPut_rules {t : Nat} (h : 0x20 ≤ t) (h' : t < 0x30) : tblPut t i v s = some (setFreeBank s { freeBank s with
    rules := tset 0 (freeBank s).rules (ruleKey ((t - 0x20) / 4) (t % 4) i) (BitVec.ofNat 2176 v) }) := by
  interval_cases t <;> rfl

end

/-- An entry stored in a staged table goes to the free bank. -/
theorem tblPut_staged {t i v : Nat} {s u : State} (ht : tblStaged t = true) (hput : tblPut t i v s = some u) :
    ∃ b, u = setFreeBank s b := by
  have hcases : t = 0x12 ∨ t = 0x13 ∨ t = 0x30 ∨ t = 0x31 ∨ (0x20 ≤ t ∧ t < 0x30) := by
    simp [tblStaged] at ht; omega
  rcases hcases with rfl | rfl | rfl | rfl | ⟨h, h'⟩
  · rw [tblPut_templates] at hput; exact ⟨_, (Option.some.inj hput).symm⟩
  · rw [tblPut_params] at hput; exact ⟨_, (Option.some.inj hput).symm⟩
  · rw [tblPut_edits] at hput; exact ⟨_, (Option.some.inj hput).symm⟩
  · rw [tblPut_headers] at hput; exact ⟨_, (Option.some.inj hput).symm⟩
  · rw [tblPut_rules i v s h h'] at hput; exact ⟨_, (Option.some.inj hput).symm⟩

section
variable {s u : State} {i v t : Nat} (hput : tblPut t i v s = some u)
include hput

/-! The entry stored in a staged table reads from the free bank, its reserved field 0 (R10). -/

theorem templates_of_tblPut (hs : tsorted (freeBank s).templates = true) (ht : t = 0x12) :
    tget tplReset (freeBank u).templates i = BitVec.ofNat 512 (clearBits v 26 0) := by
  subst ht
  rw [tblPut_templates] at hput
  rw [← Option.some.inj hput, freeBank_setFreeBank, tget_tset_same_of_tsorted hs]

theorem params_of_tblPut (hs : tsorted (freeBank s).params = true) (ht : t = 0x13) :
    tget 0 (freeBank u).params i = BitVec.ofNat 512 v := by
  subst ht
  rw [tblPut_params] at hput
  rw [← Option.some.inj hput, freeBank_setFreeBank, tget_tset_same_of_tsorted hs]

theorem edits_of_tblPut (hs : tsorted (freeBank s).edits = true) (ht : t = 0x30) :
    tget 0 (freeBank u).edits i = BitVec.ofNat 1024 v := by
  subst ht
  rw [tblPut_edits] at hput
  rw [← Option.some.inj hput, freeBank_setFreeBank, tget_tset_same_of_tsorted hs]

theorem headers_of_tblPut (hs : tsorted (freeBank s).headers = true) (ht : t = 0x31) :
    tget 0 (freeBank u).headers i = BitVec.ofNat 576 (clearBits v 63 25) := by
  subst ht
  rw [tblPut_headers] at hput
  rw [← Option.some.inj hput, freeBank_setFreeBank, tget_tset_same_of_tsorted hs]

theorem rules_of_tblPut (hs : tsorted (freeBank s).rules = true) (h : 0x20 ≤ t) (h' : t < 0x30) :
    tget 0 (freeBank u).rules (ruleKey ((t - 0x20) / 4) (t % 4) i) = BitVec.ofNat 2176 v := by
  rw [tblPut_rules i v s h h'] at hput
  rw [← Option.some.inj hput, freeBank_setFreeBank, tget_tset_same_of_tsorted hs]

end

/-- A staged WRITE of one entry over the mailbox: the entry is stored in the free bank and the edit is noted; the active
bank and slot stay (R64, R381). -/
theorem tblRun_writeStaged {s u : State} {h : Nat} {payload : Bytes} {c : TblCmd} (hr : TableRequest s h true payload)
    (hc : tblCmd h true payload 4071 = c) (hop : c.op = 1) (hcount : c.count = 1) (hok : tblRefused c s = none)
    (hent : entryRefused c.table c.index 0 (leNat payload) s = none) (hput : tblPut c.table c.index (leNat payload) s = some u) :
    ∃ t, tblRun 1 (.message .mailbox) s = t ∧ AnswerOnly t (stagedEdit u) ∧
      MailboxAnswered s t { status := 0, body := leBytes 4 1 ++ leBytes 4 0 } ∧ freeBank t = freeBank u ∧
      t.ctl.staged.state = 1 ∧ t.ctl.generation = s.ctl.generation + 1 ∧ t.ctl.active = s.ctl.active ∧
      bankOf t t.ctl.epoch = bankOf s s.ctl.epoch := by
  have hpay : c.payload = payload := by rw [← hc]; rfl
  obtain ⟨-, -, -, hst, -⟩ := ops_of_tblRefused_none hok
  have hstaged : tblStaged c.table = true := hst (by rw [← hc]; rfl)
  have hflow : c.table ≠ 0x10 ∧ c.table ≠ 0x11 := by simp [tblStaged] at hstaged; omega
  have hserve : tblServe c s = (oneDone, stagedEdit u) := by
    rw [tblServe_writeOne_applied hop hcount hok (hpay ▸ hent) (hpay ▸ hput), tblEdited, if_pos hstaged]
  obtain ⟨b, hb⟩ := tblPut_staged hstaged hput
  have hu := setFreeBank_eq s b
  rw [← hb] at hu
  obtain ⟨hans, honly⟩ := tblRun_mailbox_served hr hc (row := 1) (by simp [tblRow_of_op hflow.1, hop]) hok (by omega)
    (hostTable_eq_false hflow.1 hflow.2) hserve (by rw [stagedEdit_eq, hu])
  rw [tblAnswer_oneDone (by omega)] at hans
  refine ⟨_, rfl, honly, hans, ?_⟩
  generalize tblRun 1 (.message .mailbox) s = t at honly
  have hctl : t.ctl = { (stagedEdit u).ctl with mbx := t.ctl.mbx } := congrArg State.ctl honly
  have hepoch : t.ctl.epoch = s.ctl.epoch := by rw [hctl, stagedEdit_eq, hu]
  refine ⟨freeBank_congr ?_ ?_ ?_, ?_, ?_, ?_, ?_⟩
  · rw [hctl, stagedEdit_eq]
  · rw [hctl, stagedEdit_eq]
  · rw [hctl, stagedEdit_eq]
  · rw [hctl]; exact stagedEdit_state u
  · rw [hctl, stagedEdit_eq, hu]
  · rw [hctl, stagedEdit_eq, hu]
  · rw [hepoch, ← activeBank_setFreeBank s b, ← hb]
    simp only [bankOf]
    rw [hctl, stagedEdit_eq]

/-! ### The end of a layer-2 rebuild (R121) -/

/-- Apart from layer-2 entries and counter values, t is s. -/
def OnlyL2Cnt (s t : State) : Prop :=
  t = { s with fwd := { s.fwd with l2 := t.fwd.l2 }, cnt := { s.cnt with ctr := t.cnt.ctr } }

theorem OnlyL2Cnt.refl (s : State) : OnlyL2Cnt s s := rfl

theorem OnlyL2Cnt.trans {s t u : State} (h : OnlyL2Cnt s t) (h' : OnlyL2Cnt t u) : OnlyL2Cnt s u := by
  unfold OnlyL2Cnt at *
  rw [h', h]

theorem onlyL2Cnt_setL2 (s : State) (k : Nat) (e : BitVec 128) : OnlyL2Cnt s (setL2 s k e) := rfl

theorem onlyL2Cnt_count (i n u : Nat) (s : State) : OnlyL2Cnt s (count i n u s) := by
  unfold OnlyL2Cnt
  rw [count_eq]

theorem l2Entry_count (i n u : Nat) (s : State) (k : Nat) : l2Entry (count i n u s) k = l2Entry s k := by
  rw [count_eq]; rfl

/-- A valid entry of another place stays while an entry is moved from a to a free slot. -/
theorem l2Entry_move {s : State} {a k j : Nat} (e : BitVec 128) (hfree : l2Valid (l2Entry s k) = false) (hj : j ≠ a)
    (hv : l2Valid (l2Entry s j) = true) : l2Entry (setL2 (setL2 s a 0) k e) j = l2Entry s j := by
  have hk : j ≠ k := by rintro rfl; simp [hv] at hfree
  rw [l2Entry_setL2_other _ _ hk, l2Entry_setL2_other _ _ hj]

/-- One entry of the old layout moves to the new one (R121): a static entry without room ends the switch. -/
def l2MoveStep (g l : Nat) (seeds : Nat × Nat) (a : Bool × State) (x : Nat × BitVec 128) : Bool × State :=
  ((l2Slots g l seeds (l2Vid x.2) (l2Mac x.2)).find? fun k => !l2Valid (l2Entry a.2 k)).elim
    (if l2Static x.2 then (false, a.2) else (a.1, count 0x3816 g 5 (setL2 a.2 x.1 0)))
    fun k => (a.1, setL2 (setL2 a.2 x.1 0) k x.2)

/-- The entries of a group's old layout, static ones first. -/
def l2MoveOrder (g : Nat) (s : State) : List (Nat × BitVec 128) :=
  let old := (l2Group s g).filter fun x => x.1 / 2 ^ 18 % 4 == l2Layout s g
  old.filter (fun x => l2Static x.2) ++ old.filter fun x => !l2Static x.2

theorem l2Move_eq {g : Nat} {s : State} {r : L2Rebuild} (hr : tfind s.fwd.rebuild g = some r) :
    l2Move g s = (l2MoveOrder g s).foldl (l2MoveStep g (1 - l2Layout s g) (r.seedA, r.seedB)) (true, s) := by
  rw [l2Move, hr]
  change List.foldl _ (true, s) (l2MoveOrder g s) = _
  congr 1
  funext a x
  rw [l2MoveStep]
  dsimp only
  generalize List.find? _ (l2Slots g (1 - l2Layout s g) (r.seedA, r.seedB) (l2Vid x.2) (l2Mac x.2)) = f
  cases f <;> rfl

/-- What one move does: it changes layer-2 entries and a count; it leaves valid entries of other places; and if every
static entry has found room so far, a valid static one stands in the new layout. -/
theorem l2MoveStep_spec {g l : Nat} (hl : l < 2) {seeds : Nat × Nat} (a : Bool × State) (x : Nat × BitVec 128) :
    let b := l2MoveStep g l seeds a x
    OnlyL2Cnt a.2 b.2 ∧ (∀ j, j ≠ x.1 → l2Valid (l2Entry a.2 j) = true → l2Entry b.2 j = l2Entry a.2 j) ∧
      (b.1 = true → a.1 = true ∧ (l2Static x.2 = true → l2Valid x.2 = true →
        ∃ k, k / 2 ^ 18 % 4 = l ∧ l2Entry b.2 k = x.2)) := by
  intro b
  cases hf : (l2Slots g l seeds (l2Vid x.2) (l2Mac x.2)).find? fun k => !l2Valid (l2Entry a.2 k) with
  | some k =>
    have hb : b = (a.1, setL2 (setL2 a.2 x.1 0) k x.2) := by simp only [b, l2MoveStep, hf, Option.elim_some]
    have hfree : l2Valid (l2Entry a.2 k) = false := by simpa using List.find?_some hf
    have hlay := (group_layout_of_mem_l2Slots hl (List.mem_of_find?_eq_some hf)).2
    rw [hb]
    exact ⟨(onlyL2Cnt_setL2 _ _ _).trans (onlyL2Cnt_setL2 _ _ _), fun j hj hv => l2Entry_move x.2 hfree hj hv,
      fun ha => ⟨ha, fun _ hv => ⟨k, hlay, l2Entry_setL2_same _ k hv⟩⟩⟩
  | none =>
    have hb : b = if l2Static x.2 then (false, a.2) else (a.1, count 0x3816 g 5 (setL2 a.2 x.1 0)) := by
      simp only [b, l2MoveStep, hf, Option.elim_none]
    rw [hb]
    split
    case isTrue => exact ⟨OnlyL2Cnt.refl _, fun _ _ _ => rfl, fun h => by cases h⟩
    case isFalse hst =>
      refine ⟨(onlyL2Cnt_setL2 _ _ _).trans (onlyL2Cnt_count _ _ _ _), fun j hj _ => ?_, fun ha => ⟨ha, fun h => absurd h hst⟩⟩
      rw [l2Entry_count, l2Entry_setL2_other _ _ hj]

/-- Moving a list of entries of other places than the new layout. -/
theorem l2MoveStep_foldl_spec {g l : Nat} (hl : l < 2) {seeds : Nat × Nat} {xs : List (Nat × BitVec 128)}
    (hxs : ∀ x ∈ xs, x.1 / 2 ^ 18 % 4 ≠ l) (a : Bool × State) :
    let b := xs.foldl (l2MoveStep g l seeds) a
    OnlyL2Cnt a.2 b.2 ∧
      (∀ j, j / 2 ^ 18 % 4 = l → l2Valid (l2Entry a.2 j) = true → l2Entry b.2 j = l2Entry a.2 j) ∧
      (b.1 = true → a.1 = true ∧ ∀ x ∈ xs, l2Static x.2 = true → l2Valid x.2 = true → ∃ k, l2Entry b.2 k = x.2) := by
  induction xs generalizing a with
  | nil => exact ⟨OnlyL2Cnt.refl _, fun _ _ _ => rfl, fun h => ⟨h, fun _ hx => absurd hx List.not_mem_nil⟩⟩
  | cons x xs ih =>
    obtain ⟨hx, hxs⟩ := List.forall_mem_cons.mp hxs
    obtain ⟨honly, hkeep, hplaced⟩ := l2MoveStep_spec (g := g) hl (seeds := seeds) a x
    obtain ⟨honly', hkeep', hplaced'⟩ := ih hxs (l2MoveStep g l seeds a x)
    rw [List.foldl_cons]
    refine ⟨honly.trans honly', fun j hj hv => ?_, fun hb => ?_⟩
    · have hjx : j ≠ x.1 := by rintro rfl; exact hx hj
      have h1 := hkeep j hjx hv
      rw [hkeep' j hj (h1 ▸ hv), h1]
    · obtain ⟨hstep, hrest⟩ := hplaced' hb
      obtain ⟨ha, hthis⟩ := hplaced hstep
      refine ⟨ha, List.forall_mem_cons.mpr ⟨fun hst hv => ?_, hrest⟩⟩
      obtain ⟨k, hk, hke⟩ := hthis hst hv
      exact ⟨k, (hkeep' k hk (hke ▸ hv)).trans hke⟩

/-- An entry learned meanwhile moves back where it finds room, else it is counted (R121). -/
def l2BackStep (g l : Nat) (seeds : Nat × Nat) (s : State) (x : Nat × BitVec 128) : State :=
  ((l2Slots g l seeds (l2Vid x.2) (l2Mac x.2)).find? fun k => !l2Valid (l2Entry (setL2 s x.1 0) k)).elim
    (count 0x3816 g 5 (setL2 s x.1 0)) fun k => setL2 (setL2 s x.1 0) k x.2

theorem l2BackStep_spec (g l : Nat) (seeds : Nat × Nat) (s : State) (x : Nat × BitVec 128) :
    OnlyL2Cnt s (l2BackStep g l seeds s x) ∧
      ∀ j, j ≠ x.1 → l2Valid (l2Entry s j) = true → l2Entry (l2BackStep g l seeds s x) j = l2Entry s j := by
  have hsame : ∀ j, j ≠ x.1 → l2Entry (setL2 s x.1 0) j = l2Entry s j := fun j hj => l2Entry_setL2_other s 0 hj
  rw [l2BackStep]
  cases hf : (l2Slots g l seeds (l2Vid x.2) (l2Mac x.2)).find? fun k => !l2Valid (l2Entry (setL2 s x.1 0) k) with
  | some k =>
    refine ⟨(onlyL2Cnt_setL2 _ _ _).trans (onlyL2Cnt_setL2 _ _ _), fun j hj hv => ?_⟩
    have hfree : l2Valid (l2Entry (setL2 s x.1 0) k) = false := by simpa using List.find?_some hf
    have hk : j ≠ k := by rintro rfl; rw [hsame j hj, hv] at hfree; cases hfree
    rw [Option.elim_some, l2Entry_setL2_other _ _ hk, hsame j hj]
  | none =>
    refine ⟨(onlyL2Cnt_setL2 _ _ _).trans (onlyL2Cnt_count _ _ _ _), fun j hj _ => ?_⟩
    rw [Option.elim_none, l2Entry_count, hsame j hj]

theorem l2BackStep_foldl_spec (g l : Nat) (seeds : Nat × Nat) (xs : List (Nat × BitVec 128)) (s : State) :
    OnlyL2Cnt s (xs.foldl (l2BackStep g l seeds) s) ∧
      ∀ j, (∀ x ∈ xs, j ≠ x.1) → l2Valid (l2Entry s j) = true →
        l2Entry (xs.foldl (l2BackStep g l seeds) s) j = l2Entry s j := by
  induction xs generalizing s with
  | nil => exact ⟨OnlyL2Cnt.refl s, fun _ _ _ => rfl⟩
  | cons x xs ih =>
    obtain ⟨honly, hkeep⟩ := l2BackStep_spec g l seeds s x
    obtain ⟨honly', hkeep'⟩ := ih (l2BackStep g l seeds s x)
    refine ⟨honly.trans honly', fun j hj hv => ?_⟩
    obtain ⟨hjx, hj⟩ := List.forall_mem_cons.mp hj
    have h1 := hkeep j hjx hv
    rw [List.foldl_cons, hkeep' j hj (h1 ▸ hv), h1]

section
variable {g : Nat} {s : State} {r : L2Rebuild} (hr : tfind s.fwd.rebuild g = some r)
include hr

/-- A rebuild whose static entries all find room switches to the new layout and seeds (R121). -/
theorem l2Rebuilt_switched (h : (l2Move g s).1 = true) : l2Rebuilt g s = (true, setFwd (l2Move g s).2 {
    (l2Move g s).2.fwd with
    seeds := tset (0x11 + g, 0x91 + g) (l2Move g s).2.fwd.seeds g (r.seedA, r.seedB)
    layout := tset 0 (l2Move g s).2.fwd.layout g (1 - l2Layout s g), rebuild := tdel (l2Move g s).2.fwd.rebuild g }) := by
  rw [l2Rebuilt, hr]
  exact if_pos h

/-- The state in which a failed rebuild's new entries have moved back. -/
theorem l2Rebuilt_kept (h : (l2Move g s).1 = false) : ∃ t,
    l2Rebuilt g s = (false, setFwd t { t.fwd with rebuild := tdel t.fwd.rebuild g }) ∧
      t = ((l2Group s g).filter fun x => x.1 / 2 ^ 18 % 4 == 1 - l2Layout s g).foldl
        (l2BackStep g (l2Layout s g) (l2Seeds s g)) s := by
  rw [l2Rebuilt, hr]
  refine ⟨_, if_neg (by simp [h]), ?_⟩
  congr 1
  funext t x
  rw [l2BackStep]
  dsimp only
  generalize List.find? _ (l2Slots g (l2Layout s g) (l2Seeds s g) (l2Vid x.2) (l2Mac x.2)) = f
  cases f <;> rfl

end

/-! ### Answers change no table -/

/-- Completing a slot writes host memory and the ring alone (R379). -/
theorem slotComplete_eq (idx st d n r : Nat) (s : State) :
    slotComplete idx st d n r s = { s with host := (slotComplete idx st d n r s).host } := by
  simp only [slotComplete]
  rw [ringConsume_eq, hostWrite_eq]

theorem psindoSend_fwd (n : Nat) (msg : Bytes) (s : State) : (psindoSend n msg s).fwd = s.fwd := by
  simp only [psindoSend]
  split <;> rfl

theorem answerTo_fwd (who : Nat) (req : Bytes) (a : Answer) (s : State) : (answerTo who req a s).fwd = s.fwd := by
  simp only [answerTo]
  split
  · rw [mbxFinish_eq]
  · split
    · rfl
    · rw [psindoSend_fwd]; rfl

theorem reseedAnswer_fwd (r : Reseed) (s : State) : (reseedAnswer r s).fwd = s.fwd := by
  simp only [reseedAnswer]
  split
  · rw [slotComplete_eq]
  · exact answerTo_fwd _ _ _ _

theorem foldl_reseedAnswer_fwd (rs : List Reseed) (s : State) : (rs.foldl (fun t x => reseedAnswer x t) s).fwd = s.fwd := by
  induction rs generalizing s with
  | nil => rfl
  | cons r rs ih => rw [List.foldl_cons, ih, reseedAnswer_fwd]

/-! ### L2_REBUILD_DONE -/

theorem execL2RebuildDone_idle {g : Nat} {s : State} (h : tfind s.fwd.rebuild g = none) :
    exec (.l2RebuildDone g) s = .next s := by
  simp [exec, execL2RebuildDone, h]

section
variable {g : Nat} {s : State} {r : L2Rebuild} (hr : tfind s.fwd.rebuild g = some r)
include hr

/-- The end of a rebuild leaves the tables that l2Rebuilt leaves, and the RESEED commands that still wait. -/
theorem execL2RebuildDone_fwd : ∃ t rs, exec (.l2RebuildDone g) s = .next t ∧
    t.fwd = { (l2Rebuilt g s).2.fwd with reseeds := rs } := by
  simp only [exec, execL2RebuildDone, hr, Option.isNone_some]
  exact ⟨_, _, rfl, foldl_reseedAnswer_fwd _ _⟩

theorem l2Rebuilt_fst : (l2Rebuilt g s).1 = (l2Move g s).1 := by
  cases h : (l2Move g s).1 with
  | true => rw [l2Rebuilt_switched hr h]
  | false => obtain ⟨t, ht, -⟩ := l2Rebuilt_kept hr h; rw [ht]

variable (hl : l2Layout s g < 2)
include hl

omit hr in
theorem layout_of_mem_l2MoveOrder {x : Nat × BitVec 128} (h : x ∈ l2MoveOrder g s) : x.1 / 2 ^ 18 % 4 ≠ 1 - l2Layout s g := by
  have hlay : x.1 / 2 ^ 18 % 4 = l2Layout s g := by
    simp only [l2MoveOrder, List.mem_append, List.mem_filter, beq_iff_eq] at h
    rcases h with h | h
    · exact h.1.2
    · exact h.1.2
  omega

omit hr hl in
/-- A valid static entry of the old layout is among those that move. -/
theorem mem_l2MoveOrder_of_static {k : Nat} (hg : k / 2 ^ 20 = g) (hk : k / 2 ^ 18 % 4 = l2Layout s g)
    (hv : l2Valid (l2Entry s k) = true) (hst : l2Static (l2Entry s k) = true) : (k, l2Entry s k) ∈ l2MoveOrder g s := by
  simp only [l2MoveOrder, l2Group, List.mem_append, List.mem_filter, beq_iff_eq]
  exact .inl ⟨⟨⟨mem_l2_of_l2Valid hv, hg⟩, hk⟩, hst⟩

/-- A rebuild that switches: the tables but for layer-2 entries, and where the static entries stand (R121). -/
theorem l2Rebuilt_switched_fwd (h : (l2Rebuilt g s).1 = true) :
    (l2Rebuilt g s).2.fwd = { s.fwd with
      l2 := (l2Rebuilt g s).2.fwd.l2, seeds := tset (0x11 + g, 0x91 + g) s.fwd.seeds g (r.seedA, r.seedB)
      layout := tset 0 s.fwd.layout g (1 - l2Layout s g), rebuild := tdel s.fwd.rebuild g } ∧
    ∀ k, k / 2 ^ 20 = g → k / 2 ^ 18 % 4 = l2Layout s g → l2Valid (l2Entry s k) = true → l2Static (l2Entry s k) = true →
      ∃ k', tget 0 (l2Rebuilt g s).2.fwd.l2 k' = l2Entry s k := by
  rw [l2Rebuilt_fst hr] at h
  rw [l2Rebuilt_switched hr h]
  obtain ⟨honly, -, hplaced⟩ := l2MoveStep_foldl_spec (g := g) (show 1 - l2Layout s g < 2 by omega) (seeds := (r.seedA, r.seedB))
    (fun x hx => layout_of_mem_l2MoveOrder hl hx) (true, s)
  rw [← l2Move_eq hr] at honly hplaced
  unfold OnlyL2Cnt at honly
  refine ⟨?_, fun k hg hk hv hst => (hplaced h).2 _ (mem_l2MoveOrder_of_static hg hk hv hst) hst hv⟩
  simp only [setFwd_fwd]
  rw [honly]

/-- A rebuild that does not switch keeps the layout's valid entries where they are (R121). -/
theorem l2Rebuilt_kept_fwd (h : (l2Rebuilt g s).1 = false) :
    (l2Rebuilt g s).2.fwd = { s.fwd with l2 := (l2Rebuilt g s).2.fwd.l2, rebuild := tdel s.fwd.rebuild g } ∧
    ∀ k, k / 2 ^ 18 % 4 = l2Layout s g → l2Valid (l2Entry s k) = true →
      tget 0 (l2Rebuilt g s).2.fwd.l2 k = l2Entry s k := by
  rw [l2Rebuilt_fst hr] at h
  obtain ⟨t, ht, hfold⟩ := l2Rebuilt_kept hr h
  obtain ⟨honly, hkeep⟩ := l2BackStep_foldl_spec g (l2Layout s g) (l2Seeds s g)
    ((l2Group s g).filter fun x => x.1 / 2 ^ 18 % 4 == 1 - l2Layout s g) s
  rw [← hfold] at honly hkeep
  rw [ht]
  unfold OnlyL2Cnt at honly
  refine ⟨?_, fun k hk hv => hkeep k (fun x hx heq => ?_) hv⟩
  · simp only [setFwd_fwd]
    rw [honly]
  · simp only [List.mem_filter, beq_iff_eq] at hx
    omega

end

/-! ### The command ring (R378, R379) -/

/-- The command of a slot has the header of the slot (Table 13-6). -/
theorem header_of_slotCmd {slot host : Bytes} {fail : Nat} {s : State} {c : TblCmd} (h : slotCmd slot host fail s = .inr c) :
    c.table = (tblCmd (fld (leNat (slot.take 64)) 511 448) false [] 0).table ∧
      c.op = (tblCmd (fld (leNat (slot.take 64)) 511 448) false [] 0).op := by
  simp only [slotCmd] at h
  split_ifs at h <;> cases h <;> exact ⟨rfl, rfl⟩

section
variable {s : State} {slot host : Bytes} {c : TblCmd} (hcmd : slotCmd slot host 0 s = .inr c) (hlive : ringLive s cmdKey = true)
  (hfill : 0 < ringFill (ring s cmdKey)) (hblock : ringBlocked c s = false) (hfl : ringFlights s = 0)
include hcmd hlive hfill hblock hfl

omit hcmd hlive hfill hblock in
theorem ringNext_idle : ringNext s = (ring s cmdKey).cons.toNat := by
  simp only [ringNext, hfl, Nat.add_zero]
  exact Nat.mod_eq_of_lt (ring s cmdKey).cons.isLt

omit hlive hfill hfl in
/-- The header that the ring reads ahead is judged like the slot's command. -/
theorem header_taken :
    ringBlocked (tblCmd (fld (leNat (slot.take 64)) 511 448) false [] 0) s = false ∧
      tblRow (tblCmd (fld (leNat (slot.take 64)) 511 448) false [] 0) = tblRow c := by
  obtain ⟨htable, hop⟩ := header_of_slotCmd hcmd
  exact ⟨by simpa only [ringBlocked, hostTable, htable] using hblock, by simp only [tblRow, htable, hop]⟩

/-- A ring without commands in flight ends its next slot with the refusal of checks 1 to 6. -/
theorem ringServe_refused {e : Nat × Nat} (he : tblRefused c s = some e) :
    ringServe (tblRow c) slot host 0 s =
      ringEnd (slotHost (leNat (slot.take 64)) (ring s cmdKey).cons.toNat 0 c) (ring s cmdKey).cons.toNat (noneDone e.1 e.2) s := by
  obtain ⟨hb, hrow⟩ := header_taken hcmd hblock
  simp [ringServe, ringNext_idle hfl, hlive, hfl, hb, hrow, hcmd, he, Nat.ne_of_gt hfill]

/-- A ring without commands in flight ends its next slot with what the table hardware's service of it gives. -/
theorem ringServe_served (hok : tblRefused c s = none) (hop : c.op ≠ 5) (hhost : hostTable c = false) :
    ringServe (tblRow c) slot host 0 s =
      ringEnd (slotHost (leNat (slot.take 64)) (ring s cmdKey).cons.toNat 0 c) (ring s cmdKey).cons.toNat (tblServe c s).1
        (tblServe c s).2 := by
  obtain ⟨hb, hrow⟩ := header_taken hcmd hblock
  simp [ringServe, ringNext_idle hfl, hlive, hfl, hb, hrow, hcmd, hok, hop, hhost, Nat.ne_of_gt hfill]

end

/-- A slot that ends with nothing to reply, and no command in flight before it, is completed. -/
theorem ringEnd_complete {c : HostCmd} {idx : Nat} {e : HostEnd} {s : State} (hfl : ringFlights s = 0) (hfail : c.fail = 0)
    (hreply : e.reply = []) : ringEnd c idx e s = slotComplete idx e.status e.detail e.done e.result s := by
  simp [ringEnd, hfl, ringFinish, hfail, hreply, replyWrite]

/-! ### The table commands' statement -/

/-- A table command of row n over the mailbox: its instruction. -/
def mailboxTableCmds : List (Nat × Instr) := [(1, .tableWrite (.message .mailbox)), (2, .tableDelete (.message .mailbox)),
  (3, .tableRead (.message .mailbox)), (4, .l2Flush (.message .mailbox)), (5, .reseed (.message .mailbox)),
  (6, .flowWrite (.message .mailbox)), (7, .flowDelete (.message .mailbox)), (8, .flowRead (.message .mailbox)),
  (9, .modify (.message .mailbox))]

theorem exec_mailboxTableCmd {x : Nat × Instr} (hx : x ∈ mailboxTableCmds) (s : State) :
    exec x.2 s = .next (tblRun x.1 (.message .mailbox) s) := by
  simp only [mailboxTableCmds, List.mem_cons, List.not_mem_nil, or_false] at hx
  rcases hx with rfl | rfl | rfl | rfl | rfl | rfl | rfl | rfl | rfl <;> rfl

/-- The checks of a live WRITE, one by one (R494). -/
theorem tblRefused_liveWrite {c : TblCmd} (s : State) (hop : c.op = 1) (htable : c.table ∈ [1, 2, 3, 4, 5]) (hgroups : c.groups = 0xF)
    (hst : c.staged = false) :
    (c.count = 0 ∨ 256 < c.count → tblRefused c s = some (2, 0)) ∧
    (1 ≤ c.count → c.count ≤ 256 → (tblShape s false c.table).2 < c.index + c.count → tblRefused c s = some (6, 0)) ∧
    (1 ≤ c.count → c.count ≤ 256 → c.index + c.count ≤ (tblShape s false c.table).2 →
      c.payload.length ≠ c.count * (tblShape s false c.table).1 → tblRefused c s = some (2, 0)) ∧
    (1 ≤ c.count → c.count ≤ 256 → c.index + c.count ≤ (tblShape s false c.table).2 →
      c.payload.length = c.count * (tblShape s false c.table).1 → tblRefused c s = none) := by
  have hhead := tblHeadRefused_liveWrite s hop (by simp at htable; omega) hgroups hst
  have hpay : tblPayload s c = c.count * (tblShape s false c.table).1 := by simp [tblPayload, hop, hst]
  refine ⟨fun hcount => ?_, fun h1 h256 hrange => ?_, fun h1 h256 hrange hlen => ?_, fun h1 h256 hrange hlen => ?_⟩
  · rw [if_pos hcount] at hhead
    simp [tblRefused, hhead]
  · rw [if_neg (by omega), if_pos hrange] at hhead
    simp [tblRefused, hhead]
  · rw [if_neg (by omega), if_neg (by omega)] at hhead
    simp [tblRefused, hhead, tblLengthBad, hpay, hlen]
  · rw [if_neg (by omega), if_neg (by omega)] at hhead
    simp [tblRefused, hhead, tblLengthBad, hpay, hlen]

theorem AnswerOnly.fwd {t u : State} (h : AnswerOnly t u) : t.fwd = u.fwd := by
  unfold AnswerOnly at h
  rw [h]

theorem l2Entry_of_fwd {s t : State} (h : t.fwd = s.fwd) (k : Nat) : l2Entry t k = l2Entry s k := by
  simp only [l2Entry, h]

theorem l2Find_of_fwd {s t : State} (h : t.fwd = s.fwd) (g vid mac : Nat) : l2Find t g vid mac = l2Find s g vid mac := by
  simp only [l2Find, l2Where, l2Layout, l2Seeds, l2Entry, h]

/-- The end of a layer-2 rebuild, switched or kept (R121). -/
theorem execL2RebuildDone_spec {g : Nat} {s : State} {r : L2Rebuild} (hr : tfind s.fwd.rebuild g = some r)
    (hsort : tsorted s.fwd.rebuild = true) (hl : l2Layout s g < 2) :
    ∃ t, exec (.l2RebuildDone g) s = .next t ∧ tfind t.fwd.rebuild g = none ∧ t.fwd.lpm = s.fwd.lpm ∧ t.fwd.nh = s.fwd.nh ∧
      ((l2Rebuilt g s).1 = true → t.fwd.layout = tset 0 s.fwd.layout g (1 - l2Layout s g) ∧
        t.fwd.seeds = tset (0x11 + g, 0x91 + g) s.fwd.seeds g (r.seedA, r.seedB) ∧
        (∀ k, k / 2 ^ 20 = g → k / 2 ^ 18 % 4 = l2Layout s g → l2Valid (l2Entry s k) = true → l2Static (l2Entry s k) = true →
          ∃ k', l2Entry t k' = l2Entry s k)) ∧
      ((l2Rebuilt g s).1 = false → t.fwd.layout = s.fwd.layout ∧ t.fwd.seeds = s.fwd.seeds ∧
        (∀ k, k / 2 ^ 20 = g → k / 2 ^ 18 % 4 = l2Layout s g → l2Valid (l2Entry s k) = true → l2Entry t k = l2Entry s k)) := by
  obtain ⟨t, rs, hexec, hfwd⟩ := execL2RebuildDone_fwd hr
  refine ⟨t, hexec, ?_⟩
  simp only [l2Entry, hfwd]
  cases h : (l2Rebuilt g s).1 with
  | true =>
    obtain ⟨heq, hstatics⟩ := l2Rebuilt_switched_fwd hr hl h
    rw [heq]
    exact ⟨tfind_tdel_same hsort g, rfl, rfl, fun _ => ⟨rfl, rfl, hstatics⟩, fun hf => by cases hf⟩
  | false =>
    obtain ⟨heq, hkept⟩ := l2Rebuilt_kept_fwd hr hl h
    rw [heq]
    exact ⟨tfind_tdel_same hsort g, rfl, rfl, fun hf => by (cases hf), fun _ => ⟨rfl, rfl, fun k _ => hkept k⟩⟩

/-- A WRITE of a live table's entry on the command ring completes its slot with what the mailbox would answer (R379). -/
theorem execTableWrite_ring {s : State} {slot host : Bytes} {c : TblCmd} (hcmd : slotCmd slot host 0 s = .inr c)
    (hlive : ringLive s cmdKey = true) (hfill : 0 < ringFill (ring s cmdKey)) (hblock : ringBlocked c s = false)
    (hfl : ringFlights s = 0) (hrow : tblRow c = 1) :
    (∀ e, tblRefused c s = some e → exec (.tableWrite (.ring slot host 0)) s =
      .next (slotComplete (ring s cmdKey).cons.toNat e.1 e.2 0 0 s)) ∧
    (∀ u, c.op = 1 → c.table ∈ liveTables.map (·.1) → c.count = 1 → tblRefused c s = none →
      entryRefused c.table c.index 0 (leNat c.payload) s = none → tblPut c.table c.index (leNat c.payload) s = some u →
      exec (.tableWrite (.ring slot host 0)) s = .next (slotComplete (ring s cmdKey).cons.toNat 0 0 1 0 u)) := by
  have hexec : exec (.tableWrite (.ring slot host 0)) s = .next (ringServe (tblRow c) slot host 0 s) := by rw [hrow]; rfl
  refine ⟨fun e he => ?_, fun u hop htable hcount hok hent hput => ?_⟩
  · rw [hexec, ringServe_refused hcmd hlive hfill hblock hfl he, ringEnd_complete hfl rfl rfl]
    rfl
  · obtain ⟨r, hmem, heq⟩ := List.mem_map.mp htable
    obtain ⟨hhost, hlive', -⟩ := live_row hmem heq.symm
    have hserve := tblServe_writeOne_applied hop hcount hok hent hput
    rw [tblEdited_of_live hlive'] at hserve
    obtain ⟨u', hput', hu, -⟩ := tblPut_live_frame hmem c.index (leNat c.payload) s
    rw [heq, hput] at hput'
    obtain rfl := Option.some.inj hput'
    have hflu : ringFlights u = 0 := by rw [hu]; exact hfl
    rw [hexec, ringServe_served hcmd hlive hfill hblock hfl hok (by omega) hhost, hserve, ringEnd_complete hflu rfl rfl]
    rfl

/-- Settles O18: each command is run by the lemma of its kind, over the mailbox, at a rebuild's end and on the ring. -/
theorem tableCommands : Obligations.TableCommands := by
  unfold Obligations.TableCommands
  refine ⟨fun s h staged payload hr x hx => ?_, fun s c hop htable hgroups hst => tblRefused_liveWrite s hop htable hgroups hst,
    fun s h payload hr hcanon r hmem htable hcount hok => ⟨fun hop hent => ?_, fun e hop hent => ?_, fun hop => ?_⟩,
    fun s h staged payload hr hop hok ht hlim => ?_,
    fun s h payload hr hop htable hcount hok hl => ⟨fun hv => ?_, fun hv hset => ?_, fun u hv hset => ?_⟩,
    fun s h payload hr hcanon hop hok => ?_,
    fun s h payload hr hop hok => ⟨fun hbusy => ?_, fun hbusy => ?_⟩,
    fun s u h payload hr htpl hpar hed hhd hru hop hcount hok hent hput => ?_,
    fun s g hnone => execL2RebuildDone_idle hnone,
    fun s g r hreb hsort _ _ hl => execL2RebuildDone_spec hreb hsort hl,
    fun s slot host c hcmd hlive hfill hblock hfl hrow => execTableWrite_ring hcmd hlive hfill hblock hfl hrow⟩
  · have hexec := exec_mailboxTableCmd hx s
    exact ⟨fun hne => by rw [hexec, tblRun_mailbox_otherRow hr hne],
      fun e hrow he => ⟨_, hexec, tblRun_mailbox_refused hr rfl hrow he⟩⟩
  · obtain ⟨u, honly, hu, hans, hsame, hother, hl2, hnat⟩ := tblRun_writeLive hr rfl hmem htable hcount hok hcanon hop hent
    exact ⟨_, u, rfl, honly, hu, hans, hsame, hother, hl2, hnat⟩
  · obtain ⟨hans, honly⟩ := tblRun_writeLive_refused hr rfl hmem htable hcount hok hop hent
    exact ⟨_, rfl, honly, hans⟩
  · obtain ⟨u, honly, hu, hans, hsame, hother⟩ := tblRun_deleteLive hr rfl hmem htable hcount hok hcanon hop
    exact ⟨_, u, rfl, honly, hu, hans, hsame, hother⟩
  · exact ⟨_, rfl, tblRun_read hr rfl hop hok ht hlim⟩
  · exact ⟨_, rfl, tblRun_writeL2_dynamic hr rfl hok hop htable hcount hv⟩
  · exact ⟨_, rfl, tblRun_writeL2_noSpace hr rfl hok hop htable hcount hv hset⟩
  · obtain ⟨honly, hans, hfound⟩ := tblRun_writeL2_static hr rfl hok hop htable hcount hv hl hset
    refine ⟨_, rfl, honly, hans, fun g hg => ?_⟩
    obtain ⟨k, hfind, hentry⟩ := hfound g hg
    refine ⟨k, (l2Find_of_fwd honly.fwd _ _ _).trans hfind, ?_⟩
    rw [l2Entry_of_fwd honly.fwd, hentry]
    exact ⟨(l2Static_l2StaticEntry _ s).trans hv, l2Port_l2StaticEntry _ s, l2SvDrop_l2StaticEntry _ s, l2Hit_l2StaticEntry s _⟩
  · obtain ⟨honly, hans⟩ := tblRun_l2Flush hr rfl hok hop
    exact ⟨_, _, rfl, honly, onlyL2_l2Flush _ s, hans, l2Entry_l2Flush _ hcanon⟩
  · exact ⟨_, rfl, tblRun_reseed_busy hr rfl hok hop hbusy⟩
  · exact ⟨_, congrArg Host.Outcome.next (tblRun_reseed_begins hr rfl hok hop hbusy), rfl,
      fun g hg hsel => tfind_reseedBegin _ _ s hg hsel, reseedBegin_eq _ _ s⟩
  · obtain ⟨t, rfl, honly, hans, hbank, hrest⟩ := tblRun_writeStaged hr rfl hop hcount hok hent hput
    refine ⟨_, rfl, honly, hans, hbank, ?_, ?_, ?_, ?_, ?_, hrest⟩ <;> rw [hbank]
    · exact templates_of_tblPut hput htpl
    · exact params_of_tblPut hput hpar
    · exact edits_of_tblPut hput hed
    · exact headers_of_tblPut hput hhd
    · exact rules_of_tblPut hput hru

end Sys2Proof.Machine
end

section
namespace Sys2Proof.Machine

/-! PROOFS. Faults and their monitors (16.4 to 16.7), frames in and out (8.1, 10), parsing and retirement (3.1 to 3.4, R18 to
R22): what the shared operations leave, and the settled statements. -/

/-! ### Faults: what a detection leaves, and the reaction of its class (R461, R469 to R471) -/

section
variable (k c : Nat) (ps : List Nat) (s : State)

@[simp] theorem detect_free : (detect k c ps s).free = s.free := by rw [detect_eq]
@[simp] theorem detect_flow : (detect k c ps s).flow = s.flow := by rw [detect_eq]
@[simp] theorem detect_tokens : (detect k c ps s).safe.tokens = s.safe.tokens := by rw [detect_eq]

end

@[simp] theorem count_flow (i n u : Nat) (s : State) : (count i n u s).flow = s.flow := by rw [count_eq]

/-- The value of a configuration object rests on the control part and the board record. -/
theorem cfgN_congr {s t : State} (hc : t.ctl = s.ctl) (hb : t.safe.boardMgmt = s.safe.boardMgmt) (i n u : Nat) :
    cfgN t i n u = cfgN s i n u := by
  simp only [cfgN, cfgB_congr (congrArg Control.keys hc) (congrArg (·.active.objs) hc) hb]

/-- The state in which the reaction of a detected class is taken: counted and reported (R461). -/
theorem detect_of_ne_one {k : Nat} (hk : k ≠ 1) (c : Nat) (ps : List Nat) (s : State) :
    detect k c ps s = react k (raise c ps (noteFault k s) true) := if_neg hk

theorem raise_noteFault_ctl (k c : Nat) (ps : List Nat) (s : State) : (raise c ps (noteFault k s) true).ctl = s.ctl := by
  rw [raise_eq, noteFault_eq]

theorem raise_noteFault_safe (k c : Nat) (ps : List Nat) (s : State) : (raise c ps (noteFault k s) true).safe = s.safe := by
  rw [raise_eq, noteFault_eq]

theorem reaction_raise_noteFault (k c : Nat) (ps : List Nat) (s : State) :
    reaction (raise c ps (noteFault k s) true) k = reaction s k :=
  cfgN_congr (raise_noteFault_ctl k c ps s) (congrArg Safety.boardMgmt (raise_noteFault_safe k c ps s)) ..

/-- A device that is not in safe stop enters it with the cause given (R471). -/
theorem safeStop_safe {s : State} (hs : s.safe.safeStop = false) (k : Nat) :
    (safeStop k s).safe = { s.safe with safeStop := true, safeCause := k } := by
  simp only [safeStop, hs, Bool.false_eq_true, if_false]
  rw [squelchAll_eq, raise_eq, stopDma_eq]

/-- A reaction of SAFE_STOP on a device that runs: it stops with the class as its cause, and the class is pending (R469). -/
theorem detect_safe_of_safeStop {k c : Nat} {ps : List Nat} {s : State} (hk : k ≠ 1) (hr : reaction s k = 3)
    (hs : s.safe.safeStop = false) : (detect k c ps s).safe = { s.safe with
      safeStop := true, safeCause := k, faults := s.safe.faults ||| BitVec.ofNat 16 (2 ^ (k - 1)) } := by
  have hu := raise_noteFault_safe k c ps s
  have hreact := reaction_raise_noteFault k c ps s
  rw [detect_of_ne_one hk]
  generalize raise c ps (noteFault k s) true = u at hu hreact
  have hpend : (pendFault k u).safe.safeStop = false := by rw [← hs, ← hu]; rfl
  simp only [react, hreact, hr]
  refine (safeStop_safe hpend k).trans ?_
  simp only [pendFault, hu]

/-! ### Heartbeats (R463) -/

/-- An isolated function of class 8 enters its stop and changes nothing of its own; what it drops is counted (R470). -/
theorem isolate_classFn_eq (key d : Nat) (s : State) : isolate (classFn key) d s = { s with
    ctl := (isolate (classFn key) d s).ctl, cnt := (isolate (classFn key) d s).cnt } := by
  have hstop : ∀ u : State, fnStop (classFn key) u = u := by
    intro u
    unfold classFn
    split <;> rfl
  simp only [isolate, countN, hstop]
  split
  · rw [ctrAdd_eq]
  · rw [ctrAdd_eq]; rfl

theorem detectIn_classFn_tokens (key k c : Nat) (ps : List Nat) (d : Nat) (s : State) :
    (detectIn k c ps (classFn key) d s).safe.tokens = s.safe.tokens ∧ (detectIn k c ps (classFn key) d s).free = s.free := by
  simp only [detectIn]
  split
  · rw [isolate_classFn_eq]
    exact ⟨detect_tokens .., detect_free ..⟩
  · exact ⟨detect_tokens .., detect_free ..⟩

/-- A heartbeat in which every token came back, away from an instant at which tokens are issued. -/
theorem execHeartbeat_returned {s : State} {back : List Nat} (hon : cfgOn s 0x1304 0 0 = true) (hraw : raw s % cyc 4000 ≠ 0)
    (hback : ∀ r ∈ s.safe.tokens, back.contains r.1 = true) :
    exec (.heartbeat back []) s = .next { s with safe := { s.safe with tokens := [] } } := by
  have hnone : (s.safe.tokens.filter fun r => !back.contains r.1) = [] := by
    rw [List.filter_eq_nil_iff]
    intro r hr
    simpa using hback r hr
  show execHeartbeat back [] s = _
  simp only [execHeartbeat, hon, hraw, hnone]
  rfl

theorem execHeartbeatTimeout_stalled {s : State} {key n : Nat} (hf : tfind s.safe.tokens key = some n) (hn : n + cyc 46000 ≤ raw s) :
    ∃ t, exec (.heartbeatTimeout key) s = .next t ∧ t.safe.tokens = tdel s.safe.tokens key ∧ t.free = s.free + 1 := by
  have hexec : exec (.heartbeatTimeout key) s = .next (detectIn 8 0x0E12 [Config.functionCode key, 2, (fresh 32 s).1.toNat]
      (classFn key) 0 { s with free := s.free + 1, safe := { s.safe with tokens := tdel s.safe.tokens key } }) := by
    show execHeartbeatTimeout key s = _
    simp only [execHeartbeatTimeout, hf, hn, if_true]
    rfl
  exact ⟨_, hexec, detectIn_classFn_tokens ..⟩

/-! ### Clocks (R464, R468) -/

/-- What the failure of a clock means for the two clocks whose loss stops others (R468, R23). -/
def noteClock (clock cause : Nat) (s : State) : State :=
  let s1 := if clock = 0 ∧ cause = 1 then setSafe s { s.safe with refclkLost := true } else s
  if (clock = 1 ∨ clock = 4) ∧ cause = 1 then setSafe s1 { s1.safe with tclkLost := true } else s1

theorem noteClock_eq (c k : Nat) (s : State) : noteClock c k s = { s with safe := { s.safe with
    refclkLost := (noteClock c k s).safe.refclkLost, tclkLost := (noteClock c k s).safe.tclkLost } } := by
  unfold noteClock
  split_ifs <;> rfl

theorem noteClock_refclkLost {c k : Nat} (hc : c = 0) (hk : k = 1) (s : State) : (noteClock c k s).safe.refclkLost = true := by
  subst hc hk
  rfl

theorem noteClock_tclkLost {c k : Nat} (hc : c = 1 ∨ c = 4) (hk : k = 1) (s : State) : (noteClock c k s).safe.tclkLost = true := by
  unfold noteClock
  rw [if_pos ⟨hc, hk⟩]
  rfl

/-- While the clocks run, a failure is a detection of class 9 (R464). -/
theorem execClockFault_eq {s : State} (h : s.safe.clocks = true) (c k : Nat) :
    exec (.clockFault c k) s = .next (detect 9 0x0E10 [c, k] (noteClock c k s)) :=
  if_neg (by simp [h])

theorem execClockFault_stops {s : State} {c k : Nat} (hc : s.safe.clocks = true) (hs : s.safe.safeStop = false)
    (hr : cfgN s 0x1300 9 0 = 3) :
    ∃ t, exec (.clockFault c k) s = .next t ∧ t.safe.safeStop = true ∧ t.safe.safeCause = 9 ∧
      (c = 0 → k = 1 → t.safe.refclkLost = true) ∧ (c = 1 ∨ c = 4 → k = 1 → t.safe.tclkLost = true) ∧
      t.safe.faults = s.safe.faults ||| BitVec.ofNat 16 (2 ^ 8) := by
  have hu := noteClock_eq c k s
  have hreact : reaction (noteClock c k s) 9 = 3 := by rw [← hr, hu]; rfl
  have hrun : (noteClock c k s).safe.safeStop = false := by rw [← hs, hu]
  have hfaults : (noteClock c k s).safe.faults = s.safe.faults := by rw [hu]
  have hsafe := detect_safe_of_safeStop (c := 0x0E10) (ps := [c, k]) (k := 9) (by decide) hreact hrun
  refine ⟨_, execClockFault_eq hc c k, ?_⟩
  rw [hsafe]
  exact ⟨rfl, rfl, fun h0 h1 => noteClock_refclkLost h0 h1 s, fun h0 h1 => noteClock_tclkLost h0 h1 s,
    congrArg (· ||| BitVec.ofNat 16 (2 ^ 8)) hfaults⟩

theorem tick_stopped {s : State} (h : s.safe.refclkLost = true ∨ s.safe.tclkLost = true) : tick s = s := by
  rcases h with h | h <;> simp [tick, h]

theorem hostWrite_evWait (s : State) (a : Nat) (bs : Bytes) : (hostWrite s a bs).host.evWait = s.host.evWait := rfl

theorem signalRing_evWait (k : Nat) (u : Bool) (s : State) : (signalRing k u s).host.evWait = s.host.evWait := by
  simp only [signalRing, raiseVector]
  split_ifs <;> rfl

theorem ringProduce_evWait (k : Nat) (e : Bytes) (u : Bool) (s : State) : (ringProduce k e u s).host.evWait = s.host.evWait := by
  simp only [ringProduce, signalRing_evWait, writeShadow]
  split_ifs <;> rfl

/-- Records that wait for REFCLK stay as they are while one is written. -/
theorem putEvent_evWait (q c : Nat) (f : Bool) (ps : List Nat) (s : State) :
    (putEvent q c f ps s).host.evWait = s.host.evWait := by
  simp only [putEvent]
  split_ifs
  · exact ringProduce_evWait ..
  · rw [count_eq]

/-- The records that waited for REFCLK are written, oldest first (R468). -/
def writeRecords (l : List (Nat × Nat × Bool × List Nat)) (s : State) : State :=
  l.foldl (fun t e => putEvent e.1 e.2.1 e.2.2.1 e.2.2.2 t) s

/-- Writing records one after the other changes the host interface and the counters. -/
theorem writeRecords_eq (l : List (Nat × Nat × Bool × List Nat)) (s : State) :
    writeRecords l s = { s with host := (writeRecords l s).host, cnt := (writeRecords l s).cnt } := by
  induction l generalizing s with
  | nil => rfl
  | cons e l ih =>
    simp only [writeRecords, List.foldl_cons] at ih ⊢
    rw [ih, putEvent_eq]

theorem writeRecords_evWait (l : List (Nat × Nat × Bool × List Nat)) (s : State) :
    (writeRecords l s).host.evWait = s.host.evWait := by
  induction l generalizing s with
  | nil => rfl
  | cons e l ih => exact (ih _).trans (putEvent_evWait ..)

theorem execRefclkReturn_writes {s : State} (h : s.safe.refclkLost = true) :
    ∃ t, exec .refclkReturn s = .next t ∧ t.safe = { s.safe with refclkLost := false } ∧ t.host.evWait = [] ∧
      t = { s with host := t.host, cnt := t.cnt, safe := { s.safe with refclkLost := false } } := by
  let u : State := { s with host := { s.host with evWait := [] }, safe := { s.safe with refclkLost := false } }
  have hexec : exec .refclkReturn s = .next (writeRecords s.host.evWait u) := by
    show execRefclkReturn s = _
    simp only [execRefclkReturn, h]
    rfl
  have heq := writeRecords_eq s.host.evWait u
  exact ⟨_, hexec, congrArg State.safe heq, writeRecords_evWait s.host.evWait u, heq⟩

/-! ### Temperatures (R465) -/

/-- A sensor's sample below the limits of a level, with no condition standing and none counted, only counts towards
clearing (R465). -/
theorem envTake_within {s : State} {n level : Nat} {v : Int} (henv : s.safe.env = []) (hb : s.safe.envBeyond = [])
    (hv : v < cfgI s (if level = 1 then 0x1305 else 0x1306) 0 0) :
    ∃ w, envTake 2 n level v s = { s with safe := { s.safe with envWithin := w } } := by
  have hbeyond : envBeyondLimit s 2 n level v = false := by
    simpa [envBeyondLimit] using hv
  have hkeep : ∀ key : Nat, tset 0 s.safe.envBeyond key (min 0 2) = s.safe.envBeyond := by
    intro key
    rw [hb]
    rfl
  simp only [envTake, hbeyond, henv, List.contains_nil, Bool.false_eq_true, if_false, Bool.not_false, Bool.true_and, hkeep]
  exact ⟨_, rfl⟩

theorem reviewGuarantee_parts (s : State) : reviewGuarantee s = { s with
    host := (reviewGuarantee s).host, cnt := (reviewGuarantee s).cnt
    safe := { s.safe with guarantee := (reviewGuarantee s).safe.guarantee } } := by
  rw [reviewGuarantee_eq]

theorem execEnvSample_within {s : State} {n : Nat} {v : Int} (hp : s.safe.powered = true) (hn : n < 28) (henv : s.safe.env = [])
    (hb : s.safe.envBeyond = []) (h1 : v < cfgI s 0x1305 0 0) (h2 : v < cfgI s 0x1306 0 0) :
    ∃ t, exec (.envSample 2 n v) s = .next t ∧ t.safe.temps = tset 0 s.safe.temps n v ∧ t.safe.env = [] ∧
      t.safe.envBeyond = [] ∧
      t = { s with host := t.host, cnt := t.cnt, safe := { s.safe with
        temps := t.safe.temps, envWithin := t.safe.envWithin, guarantee := t.safe.guarantee } } := by
  let u : State := { s with safe := { s.safe with temps := tset 0 s.safe.temps n v } }
  obtain ⟨w, hw⟩ := envTake_within (s := u) (n := n) (level := 1) (v := v) henv hb h1
  obtain ⟨w', hw'⟩ := envTake_within (s := { u with safe := { u.safe with envWithin := w } }) (n := n) (level := 2) (v := v)
    henv hb h2
  have hexec : exec (.envSample 2 n v) s = .next (reviewGuarantee (envTake 2 n 2 v (envTake 2 n 1 v u))) := by
    have hsensor : ¬ ((!s.safe.powered) = true ∨ ¬ ((2 = 1 ∧ n < 9) ∨ (2 = 2 ∧ n < 28))) := by simp [hp, hn]
    exact if_neg hsensor
  rw [hw, hw'] at hexec
  have hg := reviewGuarantee_parts { u with safe := { u.safe with envWithin := w' } }
  generalize reviewGuarantee { u with safe := { u.safe with envWithin := w' } } = t at hexec hg
  have htemps : t.safe.temps = tset 0 s.safe.temps n v := congrArg (·.safe.temps) hg
  have hwithin : t.safe.envWithin = w' := congrArg (·.safe.envWithin) hg
  refine ⟨t, hexec, htemps, (congrArg (·.safe.env) hg).trans henv, (congrArg (·.safe.envBeyond) hg).trans hb, ?_⟩
  rw [htemps, hwithin]
  exact hg

/-! ### Scrubs (R466) -/

theorem sliceBankHits_none (n bank : Nat) (s : State) : sliceBankHits n bank 0 s = s := by
  simp [sliceBankHits]

theorem execSramScrub_clean (s : State) (m : Nat) : exec (.sramScrub m []) s = .next s := by
  have hfold : ∀ l : List Nat, l.foldl (fun t b => sliceBankHits m b (bankHits [] b) t) s = s := by
    intro l
    induction l with
    | nil => rfl
    | cons b l ih =>
      rw [List.foldl_cons, show bankHits [] b = 0 from rfl, sliceBankHits_none, ih]
  show execSramScrub m [] s = _
  simp only [execSramScrub]
  split_ifs
  · exact congrArg _ (hfold _)
  · rfl

theorem execSramScrub_corrected (s : State) {m : Nat} (a : Nat) (hm : 16 ≤ m) :
    exec (.sramScrub m [(a, false)]) s = .next (noteFault 1 s) := by
  show execSramScrub m [(a, false)] s = _
  simp only [execSramScrub, if_neg (show ¬ m < 16 by omega)]
  rfl

theorem execPatternRecheck_clean {s : State} (h : s.safe.cobblerReady = true) : exec (.patternRecheck []) s = .next s := by
  show execPatternRecheck [] s = _
  simp only [execPatternRecheck, h]
  rfl

/-- Settles O53: each monitor is run by its own lemma. -/
theorem monitorsObserve : Obligations.MonitorsObserve := by
  unfold Obligations.MonitorsObserve
  exact ⟨fun s back hon hraw hback => execHeartbeat_returned hon hraw hback,
    fun s key n hf hn => execHeartbeatTimeout_stalled hf hn,
    fun s c k hc hs hr => execClockFault_stops hc hs hr,
    fun s h => tick_stopped h,
    fun s h => execRefclkReturn_writes h,
    fun s n v hp hn henv hb h1 h2 => execEnvSample_within hp hn henv hb h1 h2,
    fun s m => execSramScrub_clean s m,
    fun s m a hm => execSramScrub_corrected s a hm,
    fun s h => execPatternRecheck_clean h⟩

/-! ### Hot lines lost at a read (R162) -/

/-- A hot line that is lost leaves the lines that its removal leaves. -/
theorem lineAt_loseLine {s : State} {x : Nat} {l : Line} (h : lineAt s x = some l) (n y : Nat) :
    lineAt (loseLine n x true s) y = lineAt (dropLine x s) y := by
  rw [loseLine, h]
  simp only [lineAt, detect_flow, count_flow, if_true]

theorem execFaultDetected_hotLine {s : State} {r x : Nat} (h : primaryOf s r = some x) (d : Nat) :
    exec (.faultDetected 2 0x0505 [x / 131072, r, 1, 0] none d) s = .next (loseLine (x / 131072) x true s) := by
  show Host.Outcome.next (recordLost [x / 131072, r, 1, 0] s) = _
  simp [recordLost, h]

/-- A hot line of record 5. -/
def hotLine : Line :=
  { fp := 0, wide := false, key := 0, record := 5, link := false, dirty := false, orient := false, st := 0, act := 0,
    telemetry := 0, mirror := 0, dpf := 0, dbf := 0, dpr := 0, dbr := 0, last := 0, home := 0, oAddr := 0, oPort := 0,
    used := 0 }

/-- A device whose line table lists unit 0 twice: O54 asks for no table whose keys rise. -/
def lineListedTwice : State := { State.reset with flow := { State.reset.flow with lines := [(0, hotLine), (0, hotLine)] } }

theorem lineAt_dropLine_listedTwice : lineAt (dropLine 0 lineListedTwice) 0 = some hotLine := rfl

theorem reaction_lineListedTwice : reaction lineListedTwice 2 = 1 := by decide +kernel

/-- Refutes O54, in its clause on hot lines: where the line table lists a unit twice, the unit still holds a line once
the line lost at a read is removed. -/
theorem not_faultReactions : ¬ Obligations.FaultReactions := by
  unfold Obligations.FaultReactions
  intro ⟨_, _, hlost, _⟩
  obtain ⟨t, hexec, hgone, -⟩ := hlost lineListedTwice 0 0 hotLine 0 rfl rfl rfl reaction_lineListedTwice
  have hnext := execFaultDetected_hotLine (s := lineListedTwice) (r := 5) (x := 0) rfl 0
  obtain rfl : loseLine 0 0 true lineListedTwice = t := Host.Outcome.next.inj (hnext.symm.trans hexec)
  rw [lineAt_loseLine (l := hotLine) rfl, lineAt_dropLine_listedTwice] at hgone
  cases hgone

/-! ### A frame of a port that the device does not have -/

/-- The port number beyond the device's at which a MAC statistic of object 0x2020 has the address of half 0's counters. -/
def farPort : Nat := (0x5010 - 0x2020) * 2 ^ 12

/-- A frame from that port, good and unicast, that is already leaving and holds every cell of half 0. -/
def leavingPacket : Packet := { noPacket with port := farPort, rxLen := 64, cells := 2, written := halfCells, ended := false }

/-- That frame at the MAC of port 0. -/
def leavingFrame : TxFrame :=
  { pid := 0, sel := 0, frame := [], corr := none, ptp := 0, ring := none, ts := 0, inPort := 0, started := true }

/-- A device whose one packet names a port beyond its 1,024: O26 does not ask the port of a leaving frame to exist. -/
def farPortLeaving : State := { State.reset with path := { State.reset.path with
  pkts := [(0, leavingPacket)], tx := [(0, [leavingFrame])] } }

/-- The value of a counter in the state that a command answers. -/
def counterAfter (o : Host.Outcome State Fault Refusal) (a : Nat) : Option Nat :=
  match o with
  | .next t => some (ctrGet t a)
  | _ => none

/-- Half 0's count of lost tails takes the tail and the frame's unicast statistic. -/
theorem counterAfter_frameEnd_farPort : counterAfter (exec (.frameEnd 0) farPortLeaving) (oa 0x5010 0 3) = some 2 := by
  decide +kernel

theorem halfFree_farPortLeaving : halfFree farPortLeaving 0 = 0 := by decide +kernel

/-- Refutes O26, in its clause on a frame that is leaving when its tail is lost: the port of such a frame is not
bounded, and for one beyond the device's ports a receive statistic counts at the address of the lost tails' counter. -/
theorem not_framesInAndOut : ¬ Obligations.FramesInAndOut := by
  unfold Obligations.FramesInAndOut
  intro ⟨_, hend, _⟩
  obtain ⟨-, -, hleaving, -⟩ := hend farPortLeaving 0 leavingPacket rfl
  obtain ⟨t, hexec, -, -, hcount⟩ := hleaving rfl rfl rfl (by decide) halfFree_farPortLeaving
  have hone : ctrGet t (oa 0x5010 0 3) = 1 := hcount (by decide) (by decide)
  have htwo := counterAfter_frameEnd_farPort
  rw [hexec, counterAfter, hone] at htwo
  cases htwo

end Sys2Proof.Machine
end

section
namespace Sys2Proof.Machine

/-! ### What the parser leaves (R76 to R84, Table 3-4) -/

/-- A flag of the parse result is set. -/
def Walk.has (w : Walk) (b : Nat) : Bool := w.flags.testBit b

theorem Walk.has_flag (w : Walk) (b i : Nat) (on : Bool) : (w.flag b on).has i = (w.has i || (on && decide (b = i))) := by
  cases on with
  | false => simp [Walk.flag]
  | true => simp only [Walk.flag, Walk.has, if_true, Nat.testBit_or, Nat.testBit_two_pow, Bool.true_and]

theorem Walk.flags_flag_lt {w : Walk} (h : w.flags < 2 ^ 24) {b : Nat} (hb : b < 24) (on : Bool) : (w.flag b on).flags < 2 ^ 24 := by
  cases on with
  | false => exact h
  | true => exact Nat.or_lt_two_pow h (Nat.pow_lt_pow_right (by decide) hb)

/-- The parser goes on at a header: no cause is recorded, and the flags that the parse result's fields repeat agree with the
depth reached. -/
structure Parsing (r fh rc : Bool) (l d c : Nat) (w : Walk) : Prop where
  router : w.router = r
  level : w.level = l
  level_le : l ≤ d
  depth : w.depth = d
  count : w.count = c
  trunc : w.trunc = 0
  cause : w.cause = 0
  flags_lt : w.flags < 2 ^ 24
  noTrunc : w.has fTrunc = false
  noMalformed : w.has fMalformed = false
  tunnel : w.has fTunnel = decide (d ≠ 0)
  fromRouter : w.has fRouterMac = r
  fromHost : w.has fFromHost = fh
  recirc : w.has fRecirc = rc
  frag : w.has fFragFirst = true → w.has fFrag = true
  ttl : w.has fTtlExpired = true → r = true
  pairs : ∀ p ∈ w.pairs, p.level ≤ d

/-- The parser has ended, after a last header, at a stop of R80 or at one of R82: at most one cause is recorded, with its
flag. -/
structure Parsed (r fh rc : Bool) (d c : Nat) (w : Walk) : Prop where
  depth : w.depth = d
  count : w.count = c
  trunc_le : w.trunc ≤ 3
  cause_le : w.cause ≤ 8
  flags_lt : w.flags < 2 ^ 24
  trunc : w.has fTrunc = decide (w.trunc ≠ 0)
  malformed : w.has fMalformed = decide (w.cause ≠ 0)
  one : (w.has fTrunc && w.has fMalformed) = false
  tunnel : w.has fTunnel = decide (d ≠ 0)
  fromRouter : w.has fRouterMac = r
  fromHost : w.has fFromHost = fh
  recirc : w.has fRecirc = rc
  frag : w.has fFragFirst = true → w.has fFrag = true
  ttl : w.has fTtlExpired = true → r = true
  pairs : ∀ p ∈ w.pairs, p.level ≤ d

/-- A node ends with the parse ended or, unless it halts, going on. -/
def NodeOk (r fh rc : Bool) (l d c : Nat) (x : Walk × Next) : Prop :=
  Parsed r fh rc d c x.1 ∧ (x.2 ≠ .halt → Parsing r fh rc l d c x.1)

/-- The flags that a header may set by itself. -/
def plainFlags : List Nat := [fTrailing, fFrag, fIpOptions, fIpv6Ext, fIcmpErr, fBcast, fMcast, fL3Mcast, fCsumBad, fUdpZero, fPtp]

section
variable {r fh rc : Bool} {l d c : Nat} {w : Walk}

theorem Parsing.parsed (h : Parsing r fh rc l d c w) : Parsed r fh rc d c w :=
  { h with
    trunc_le := by simp [h.trunc], cause_le := by simp [h.cause]
    trunc := by simp [h.noTrunc, h.trunc], malformed := by simp [h.noMalformed, h.cause], one := by simp [h.noTrunc] }

theorem Parsing.nodeOk (h : Parsing r fh rc l d c w) (x : Next) : NodeOk r fh rc l d c (w, x) := ⟨h.parsed, fun _ => h⟩

/-- A flag outside those that the parse result's fields repeat. -/
theorem Parsing.flag_of_has (h : Parsing r fh rc l d c w) {b : Nat} (hlt : b < 24) (on : Bool)
    (hkeep : ∀ i ∈ [fTrunc, fMalformed, fTunnel, fRouterMac, fFromHost, fRecirc], b ≠ i)
    (hfrag : on = true → b = fFragFirst → w.has fFrag = true) (httl : on = true → b = fTtlExpired → r = true) :
    Parsing r fh rc l d c (w.flag b on) := by
  have hsame : ∀ i ∈ [fTrunc, fMalformed, fTunnel, fRouterMac, fFromHost, fRecirc], (w.flag b on).has i = w.has i := by
    intro i hi
    simp [Walk.has_flag, hkeep i hi]
  have hflags := Walk.flags_flag_lt h.flags_lt hlt on
  have hfirst : (w.flag b on).has fFragFirst = true → (w.flag b on).has fFrag = true := by
    simp only [Walk.has_flag, Bool.or_eq_true, Bool.and_eq_true, decide_eq_true_eq]
    rintro (hf | ⟨hon, hb⟩)
    · exact .inl (h.frag hf)
    · exact .inl (hfrag hon hb)
  have hexp : (w.flag b on).has fTtlExpired = true → r = true := by
    simp only [Walk.has_flag, Bool.or_eq_true, Bool.and_eq_true, decide_eq_true_eq]
    rintro (ht | ⟨hon, hb⟩)
    · exact h.ttl ht
    · exact httl hon hb
  cases on with
  | false => exact h
  | true => exact { h with
      flags_lt := hflags, frag := hfirst, ttl := hexp
      noTrunc := (hsame fTrunc (by decide)).trans h.noTrunc, noMalformed := (hsame fMalformed (by decide)).trans h.noMalformed
      tunnel := (hsame fTunnel (by decide)).trans h.tunnel, fromRouter := (hsame fRouterMac (by decide)).trans h.fromRouter
      fromHost := (hsame fFromHost (by decide)).trans h.fromHost, recirc := (hsame fRecirc (by decide)).trans h.recirc }

theorem Parsing.flag (h : Parsing r fh rc l d c w) {b : Nat} (hb : b ∈ plainFlags) (on : Bool) :
    Parsing r fh rc l d c (w.flag b on) := by
  have hplain : ∀ b ∈ plainFlags, b < 24 ∧ b ≠ fFragFirst ∧ b ≠ fTtlExpired ∧
      ∀ i ∈ [fTrunc, fMalformed, fTunnel, fRouterMac, fFromHost, fRecirc], b ≠ i := by decide
  obtain ⟨hlt, hfirst, httl, hkeep⟩ := hplain b hb
  exact h.flag_of_has hlt on hkeep (fun _ hb => absurd hb hfirst) (fun _ hb => absurd hb httl)

/-- FRAG_FIRST is set on a header that has set FRAG. -/
theorem Parsing.flagFirst (h : Parsing r fh rc l d c w) {on : Bool} (hon : on = true → w.has fFrag = true) :
    Parsing r fh rc l d c (w.flag fFragFirst on) :=
  h.flag_of_has (by decide) on (by decide) (fun ho _ => hon ho) (fun _ hb => absurd hb (by decide))

/-- TTL_EXPIRED is set on a frame to a router station. -/
theorem Parsing.flagTtl (h : Parsing r fh rc l d c w) {on : Bool} (hon : on = true → r = true) :
    Parsing r fh rc l d c (w.flag fTtlExpired on) :=
  h.flag_of_has (by decide) on (by decide) (fun _ hb => absurd hb (by decide)) (fun ho _ => hon ho)

/-- A stop records its own cause, with its flag. -/
theorem Parsing.stop (h : Parsing r fh rc l d c w) {b t k : Nat}
    (hb : b = fTrunc ∧ 1 ≤ t ∧ t ≤ 3 ∧ k = 0 ∨ b = fMalformed ∧ t = 0 ∧ 1 ≤ k ∧ k ≤ 8) :
    Parsed r fh rc d c { w.flag b with trunc := t, cause := k } := by
  have hhas : ∀ i, (w.flag b).has i = (w.has i || decide (b = i)) := fun i => Walk.has_flag w b i true
  have hlt : b < 24 := by rcases hb with ⟨rfl, -⟩ | ⟨rfl, -⟩ <;> decide
  have hkeep : ∀ i, i ≠ fTrunc → i ≠ fMalformed → (w.flag b).has i = w.has i := by
    intro i h0 h1
    rcases hb with ⟨rfl, -⟩ | ⟨rfl, -⟩ <;> simp [hhas, h0.symm, h1.symm]
  have htrunc : (w.flag b).has fTrunc = decide (t ≠ 0) := by
    rw [hhas, h.noTrunc]
    rcases hb with ⟨rfl, ht, -⟩ | ⟨rfl, rfl, -⟩
    · simp; omega
    · decide
  have hmal : (w.flag b).has fMalformed = decide (k ≠ 0) := by
    rw [hhas, h.noMalformed]
    rcases hb with ⟨rfl, -, -, rfl⟩ | ⟨rfl, -, hk, -⟩
    · decide
    · simp; omega
  have hone : (decide (t ≠ 0) && decide (k ≠ 0)) = false := by
    rcases hb with ⟨-, -, -, rfl⟩ | ⟨-, rfl, -⟩ <;> simp
  exact { h with
    trunc_le := by rcases hb with ⟨-, -, ht, -⟩ | ⟨-, rfl, -⟩ <;> simp [*]
    cause_le := by rcases hb with ⟨-, -, -, rfl⟩ | ⟨-, -, -, hk⟩ <;> simp [*]
    flags_lt := Walk.flags_flag_lt h.flags_lt hlt true
    trunc := htrunc, malformed := hmal, one := (congrArg₂ (· && ·) htrunc hmal).trans hone
    tunnel := (hkeep fTunnel (by decide) (by decide)).trans h.tunnel
    fromRouter := (hkeep fRouterMac (by decide) (by decide)).trans h.fromRouter
    fromHost := (hkeep fFromHost (by decide) (by decide)).trans h.fromHost
    recirc := (hkeep fRecirc (by decide) (by decide)).trans h.recirc
    frag := fun hf => (hkeep fFrag (by decide) (by decide)).trans
      (h.frag ((hkeep fFragFirst (by decide) (by decide)).symm.trans hf))
    ttl := fun hf => h.ttl ((hkeep fTtlExpired (by decide) (by decide)).symm.trans hf) }

theorem Parsing.fail (h : Parsing r fh rc l d c w) {k : Nat} (hk : 1 ≤ k ∧ k ≤ 8) : NodeOk r fh rc l d c (w.fail k) := by
  have hstop := h.stop (b := fMalformed) (t := 0) (k := k) (.inr ⟨rfl, rfl, hk⟩)
  rw [← h.trunc] at hstop
  exact ⟨hstop, fun hn => absurd rfl hn⟩

theorem Parsing.cut (h : Parsing r fh rc l d c w) {k : Nat} (hk : 1 ≤ k ∧ k ≤ 3) : NodeOk r fh rc l d c (w.cut k) := by
  have hstop := h.stop (b := fTrunc) (t := k) (k := 0) (.inl ⟨rfl, hk.1, hk.2, rfl⟩)
  rw [← h.cause] at hstop
  exact ⟨hstop, fun hn => absurd rfl hn⟩

/-- A header that must lie in frame and window: what it is, or a stop. -/
theorem Parsing.within (h : Parsing r fh rc l d c w) {go : Walk × Next} (hgo : NodeOk r fh rc l d c go) {cutAs : Walk}
    (hcut : Parsing r fh rc l d c cutAs) (off len : Nat) : NodeOk r fh rc l d c (w.within off len go cutAs) := by
  simp only [Walk.within]
  split_ifs
  · exact h.fail (by decide)
  · exact hcut.cut (by decide)
  · exact hgo

/-- What the parser notes beside its place in the graph. -/
theorem Parsing.aside (h : Parsing r fh rc l d c w) {bound l2type : Nat} {quote : Bool} {outer : Option Pair}
    {tag : Option (Nat × Nat)} {innerL2 ptp opener : Option Nat} {csums : List Csum} : Parsing r fh rc l d c { w with
      bound := bound, quote := quote, outer := outer, l2type := l2type, tag := tag, innerL2 := innerL2, ptp := ptp
      opener := opener, csums := csums } := { h with }

/-- An L3 header that opens its level's pair. -/
theorem Parsing.l3 (h : Parsing r fh rc l d c w) {p : Pair} (hp : p.level = l) (mcast : Bool) :
    Parsing r fh rc l d c (w.l3 p mcast) := by
  have h1 : Parsing r fh rc l d c { w with pairs := w.pairs.filter (fun x => x.level != w.level) ++
      [{ p with tunnelId := ((w.pairs.find? fun x => x.level == w.level).map (·.tunnelId)).getD 0 }] } :=
    { h with
      pairs := by
        intro q hq
        rcases List.mem_append.mp hq with hq | hq
        · exact h.pairs q (List.mem_of_mem_filter hq)
        · exact List.mem_singleton.mp hq ▸ hp.trans_le h.level_le }
  simp only [Walk.l3]
  split_ifs
  · exact h1
  · refine Parsing.flag (b := fL3Mcast) (Parsing.flagTtl h1.aside fun hon => ?_) (by decide) mcast
    rw [← h.router]
    exact (Bool.and_eq_true _ _ ▸ hon).1

theorem mem_modLast {f : Pair → Pair} {ps : List Pair} {q : Pair} (hq : q ∈ modLast f ps) : ∃ p ∈ ps, q = p ∨ q = f p := by
  induction ps with
  | nil => cases hq
  | cons p ps ih =>
    cases ps with
    | nil => exact ⟨p, by simp, .inr (by simpa [modLast] using hq)⟩
    | cons p' ps =>
      rcases List.mem_cons.mp hq with rfl | hq
      · exact ⟨q, by simp, .inl rfl⟩
      · obtain ⟨x, hx, hxq⟩ := ih hq
        exact ⟨x, List.mem_cons_of_mem _ hx, hxq⟩

/-- A change of the pair in force that leaves its level. -/
theorem Parsing.modPair (h : Parsing r fh rc l d c w) {f : Pair → Pair} (hf : ∀ p, (f p).level = p.level) :
    Parsing r fh rc l d c (w.modPair f) := by
  simp only [Walk.modPair]
  split
  · exact h
  · refine { h with pairs := fun q hq => ?_ }
    obtain ⟨p, hp, rfl | rfl⟩ := mem_modLast hq
    · exact h.pairs _ hp
    · exact (hf p).symm ▸ h.pairs p hp

theorem Parsing.l4 (h : Parsing r fh rc l d c w) (off n : Nat) : Parsing r fh rc l d c (w.l4 off n) := by
  simp only [Walk.l4]
  split
  · exact h
  · split
    · exact h
    · refine (h.modPair ?_).aside
      exact fun _ => rfl

theorem Parsing.udpZero (h : Parsing r fh rc l d c w) (off : Nat) : Parsing r fh rc l d c (w.udpZero off) := by
  simp only [Walk.udpZero]
  split
  · exact h.flag (by decide) _
  · exact h

theorem Parsing.ipv4Flags (h : Parsing r fh rc l d c w) (off : Nat) : Parsing r fh rc l d c (w.ipv4Flags off) := by
  refine ((h.flag (by decide) _).flag (by decide) _).flagFirst fun hon => ?_
  rw [Walk.has_flag]
  simp only [Bool.and_eq_true] at hon
  simp [hon.1]

theorem Parsing.tunnelId (h : Parsing r fh rc l d c w) (off id : Nat) : Parsing r fh rc l d c (w.tunnel off id) := by
  simp only [Walk.tunnel]
  split_ifs
  · refine { h with pairs := fun q hq => ?_ }
    rcases List.mem_append.mp hq with hq | hq
    · exact h.pairs q hq
    · rw [List.mem_singleton.mp hq, ← h.depth]
      exact (h.level.trans_le h.level_le).trans_eq h.depth.symm
  · exact h

/-! Each node (R77 to R79) ends the parse, or leaves the parser going on. -/

/-- The pair of an L3 header, within its packet's bound unless it is quoted. -/
theorem Parsing.header (h : Parsing r fh rc l d c w) {v : Walk} (hv : Parsing r fh rc l d c v)
    (off len fam src dst proto ttl tos stop : Nat)
    (mcast : Bool) : Parsing r fh rc l d c
      ((if w.quote then v else { v with bound := stop }).l3 (l3Pair w.level off len fam src dst proto ttl tos stop w.quote) mcast) := by
  refine Parsing.l3 ?_ h.level mcast
  split_ifs
  · exact hv
  · exact hv.aside

theorem nodeIpv4_ok (h : Parsing r fh rc l d c w) (off : Nat) : NodeOk r fh rc l d c (nodeIpv4 w off) := by
  refine h.within ?_ ?_ _ _
  · extract_lets tl fr w1 w3 stop proto p w4 w5
    have h3 : Parsing r fh rc l d c w3 := ((h.flag (by decide) _).flag (by decide) _).ipv4Flags off
    have h5 : Parsing r fh rc l d c w5 := (h.header h3 ..).aside
    split_ifs
    · exact h.fail (by decide)
    · exact h.fail (by decide)
    · exact h.fail (by decide)
    · exact h.fail (by decide)
    · exact h5.nodeOk _
    · exact h5.nodeOk _
    · exact h5.nodeOk _
  · split_ifs
    · exact h.ipv4Flags off
    · exact h.flag (by decide) _

theorem nodeIpv6_ok (h : Parsing r fh rc l d c w) (off : Nat) : NodeOk r fh rc l d c (nodeIpv6 w off) := by
  refine h.within ?_ h _ _
  extract_lets stop w1 nh p w2
  have h2 : Parsing r fh rc l d c w2 := h.header (h.flag (by decide) _) ..
  split_ifs
  · exact h.fail (by decide)
  · exact h.fail (by decide)
  · exact h2.nodeOk _
  · exact h2.nodeOk _

theorem nodeV6Ext_ok (h : Parsing r fh rc l d c w) (off : Nat) : NodeOk r fh rc l d c (nodeV6Ext w off) := by
  have hext : Parsing r fh rc l d c (w.flag fIpv6Ext) := h.flag (by decide) true
  refine h.within ?_ hext _ _
  split_ifs
  · exact h.fail (by decide)
  · refine Parsing.nodeOk (hext.modPair ?_) _
    exact fun _ => rfl

theorem nodeV6Frag_ok (h : Parsing r fh rc l d c w) (off : Nat) : NodeOk r fh rc l d c (nodeV6Frag w off) := by
  have hfrag := (Parsing.flag (b := fIpv6Ext) h (by decide) true).flag (b := fFrag) (by decide) true
  have h1 := hfrag.flagFirst (on := off + 4 ≤ window && w.rd (off + 2) 2 / 8 == 0) fun _ => by simp [Walk.has_flag]
  refine h.within ?_ h1 _ _
  split_ifs
  · exact h.fail (by decide)
  · refine Parsing.nodeOk (h1.modPair ?_) _
    exact fun _ => rfl

theorem nodeQuoted_ok (h : Parsing r fh rc l d c w) (off n : Nat) : NodeOk r fh rc l d c (nodeQuoted w off n) := by
  refine h.within ?_ h _ _
  split_ifs
  · exact h.fail (by decide)
  · exact ((h.l4 off n).udpZero off).nodeOk _
  · exact (h.l4 off n).nodeOk _

theorem nodeTcp_ok (h : Parsing r fh rc l d c w) (off : Nat) : NodeOk r fh rc l d c (nodeTcp w off) := by
  refine h.within ?_ (h.l4 off 10) _ _
  split_ifs
  · exact h.fail (by decide)
  · exact (h.l4 off 10).nodeOk _

theorem nodeUdp_ok (h : Parsing r fh rc l d c w) (off : Nat) : NodeOk r fh rc l d c (nodeUdp w off) := by
  refine h.within ?_ h _ _
  extract_lets ul
  split_ifs
  · exact h.fail (by decide)
  · exact ((h.l4 off 11).udpZero off).aside.nodeOk _

theorem nodeIcmp_ok (h : Parsing r fh rc l d c w) (off n : Nat) : NodeOk r fh rc l d c (nodeIcmp w off n) := by
  refine h.within ?_ (h.flag (by decide) _) _ _
  extract_lets w1 tid plain blank flagged w2
  have h1 : Parsing r fh rc l d c w1 := h.l4 off n
  have h2 : Parsing r fh rc l d c w2 :=
    { h1.flag (b := fIcmpErr) (by decide) true with
      pairs := fun q hq => by
        rcases List.mem_append.mp hq with hq | hq
        · exact h1.pairs q (List.mem_of_mem_filter hq)
        · exact List.mem_singleton.mp hq ▸ h.level.trans_le h.level_le }
  split
  · exact h2.nodeOk _
  · exact h1.nodeOk _

theorem nodeMpls_ok (h : Parsing r fh rc l d c w) (off : Nat) : NodeOk r fh rc l d c (nodeMpls w off) := by
  refine h.within ?_ h _ _
  split_ifs <;> exact h.nodeOk _

theorem nodeGre_ok (h : Parsing r fh rc l d c w) (off : Nat) : NodeOk r fh rc l d c (nodeGre w off) :=
  h.within ((h.tunnelId ..).nodeOk _) h _ _

theorem nodeGeneve_ok (h : Parsing r fh rc l d c w) (off : Nat) : NodeOk r fh rc l d c (nodeGeneve w off) :=
  h.within ((h.tunnelId ..).nodeOk _) h _ _

theorem nodeEth_ok (h : Parsing r fh rc l d c w) (off n : Nat) : NodeOk r fh rc l d c (nodeEth w off n) := by
  refine h.within ?_ h _ _
  extract_lets sel w1 w2 w3
  have h1 : Parsing r fh rc l d c w1 := by
    simp only [w1]
    split_ifs
    · exact h.aside
    · exact h
  have h2 : Parsing r fh rc l d c w2 := by
    simp only [w2]
    split_ifs
    · exact h1.aside
    · exact h1
  refine Parsing.nodeOk ?_ _
  simp only [w3]
  split_ifs
  · exact (h2.flag (by decide) _).flag (by decide) _
  · exact h2

theorem nodeVlan_ok (h : Parsing r fh rc l d c w) (off : Nat) : NodeOk r fh rc l d c (nodeVlan w off) := by
  refine h.within (Parsing.nodeOk ?_ _) h _ _
  split
  · exact h.aside
  · exact h

theorem nodeUser_ok (h : Parsing r fh rc l d c w) (off desc : Nat) : NodeOk r fh rc l d c (nodeUser w off desc) := by
  unfold nodeUser
  extract_lets lw nb lo len nw no bitoff sb
  split_ifs
  · exact h.fail (by decide)
  · exact h.cut (by decide)
  · exact h.within (h.nodeOk _) h _ _
  · exact h.within (h.fail (by decide)) h _ _
  · exact h.within (h.cut (by decide)) h _ _
  · exact h.within (h.nodeOk _) h _ _

theorem NodeOk.ite {p : Prop} [Decidable p] {x y : Walk × Next} (hx : NodeOk r fh rc l d c x) (hy : NodeOk r fh rc l d c y) :
    NodeOk r fh rc l d c (if p then x else y) := by
  split
  · exact hx
  · exact hy

/-- Whatever a header is, the parse ends there or goes on (R77). -/
theorem nodeAct_ok (s : State) (h : Parsing r fh rc l d c w) (n off : Nat) : NodeOk r fh rc l d c (nodeAct s w n off) :=
  .ite (nodeEth_ok h off n) <| .ite (nodeVlan_ok h off) <| .ite (nodeMpls_ok h off) <| .ite (nodeIpv4_ok h off) <|
  .ite (nodeIpv6_ok h off) <| .ite (nodeV6Ext_ok h off) <| .ite (nodeV6Frag_ok h off) <| .ite (nodeQuoted_ok h off n) <|
  .ite (nodeTcp_ok h off) <| .ite (nodeUdp_ok h off) <| .ite (nodeIcmp_ok h off n) <|
  .ite (h.within ((h.l4 off 14).nodeOk _) (h.l4 off 14) _ _) <| .ite (nodeGre_ok h off) <|
  .ite (h.within ((h.tunnelId ..).nodeOk _) h _ _) <| .ite (nodeGeneve_ok h off) <|
  .ite (h.within ((h.flag (by decide) _).aside.nodeOk _) (h.flag (by decide) _) _ _) <|
  .ite (h.within (h.nodeOk _) h _ _) <| nodeUser_ok h off _

/-- An edge that opens a tunnel level (R79). -/
theorem Parsing.enterTunnel (h : Parsing r fh rc l d c w) (opener : Option Nat) : Parsing r fh rc (l + 1) (max d (l + 1)) c
    { w.flag fTunnel with level := w.level + 1, depth := max w.depth (w.level + 1), opener := opener } := by
  have hkeep : ∀ i, fTunnel ≠ i → (w.flag fTunnel).has i = w.has i := fun i hi => by simp [Walk.has_flag, hi]
  have htunnel : (w.flag fTunnel).has fTunnel = true := by simp [Walk.has_flag]
  exact { h with
    level := by rw [h.level], level_le := Nat.le_max_right .., depth := by rw [h.depth, h.level]
    flags_lt := Walk.flags_flag_lt h.flags_lt (by decide) true
    noTrunc := (hkeep fTrunc (by decide)).trans h.noTrunc, noMalformed := (hkeep fMalformed (by decide)).trans h.noMalformed
    tunnel := htunnel.trans (by simp), fromRouter := (hkeep fRouterMac (by decide)).trans h.fromRouter
    fromHost := (hkeep fFromHost (by decide)).trans h.fromHost, recirc := (hkeep fRecirc (by decide)).trans h.recirc
    frag := fun hf => (hkeep fFrag (by decide)).trans (h.frag ((hkeep fFragFirst (by decide)).symm.trans hf))
    ttl := fun hf => h.ttl ((hkeep fTtlExpired (by decide)).symm.trans hf)
    pairs := fun p hp => (h.pairs p hp).trans (Nat.le_max_left ..) }

/-- The parse has ended with 1 to 12 headers counted and at most three tunnel levels (R80). -/
def WalkEnds (r fh rc : Bool) (w : Walk) : Prop := ∃ d c, Parsed r fh rc d c w ∧ d ≤ 3 ∧ 1 ≤ c ∧ c ≤ 12

/-- Walking the header graph on, once a header is counted or from a node that is in use. -/
theorem walk_ends (s : State) (fuel : Nat) : ∀ {l d c : Nat} {w : Walk} {n off : Nat},
    Parsing r fh rc l d c w → d ≤ 3 → c ≤ 12 →
    1 ≤ c ∨ 1 ≤ fuel ∧ nodeUnused s n = false → WalkEnds r fh rc (walk s fuel w n off) := by
  induction fuel with
  | zero =>
    intro l d c w n off h hd hc h1
    exact ⟨d, c, h.parsed, hd, by omega, hc⟩
  | succ fuel ih =>
    intro l d c w n off h hd hc h1
    simp only [walk]
    split
    next hn => exact ⟨d, c, h.parsed, hd, h1.resolve_right fun hx => by simp [hx.2] at hn, hc⟩
    split
    next h12 => exact ⟨d, c, (h.cut (by decide)).1, hd, by rw [← h.count]; omega, hc⟩
    next h12 =>
    have hc1 : c + 1 ≤ 12 := by rw [h.count] at h12; omega
    have hcount : Parsing r fh rc l d (c + 1) { w with count := w.count + 1 } := { h with count := by rw [h.count] }
    obtain ⟨hend, hgo⟩ := nodeAct_ok s hcount n off
    generalize nodeAct s { w with count := w.count + 1 } n off = x at hend hgo
    have hstay : WalkEnds r fh rc x.1 := ⟨d, c + 1, hend, hd, by omega, hc1⟩
    have hnext : x.2 ≠ .halt → ∀ m o, WalkEnds r fh rc (walk s fuel x.1 m o) :=
      fun hx m o => ih (hgo hx) hd hc1 (.inl (by omega))
    split
    next => exact hstay
    next => exact hstay
    next hx =>
      split
      · exact hstay
      · exact hnext (by simp [hx]) _ _
    next hx =>
      have hx : x.2 ≠ .halt := by simp [hx]
      split
      next =>
        split
        · exact hstay
        · exact hnext hx _ _
      next =>
        split
        · exact hstay
        split
        · split
          · exact ⟨d, c + 1, ((hgo hx).cut (by decide)).1, hd, by omega, hc1⟩
          next h3 =>
            rw [(hgo hx).level] at h3
            have hl := (hgo hx).level_le
            exact ih ((hgo hx).enterTunnel _) (by omega) hc1 (.inl (by omega))
        · exact hnext hx _ _

end

/-! ### The parse result's word (Table 3-4) -/

/-- The word that a parse leaves, before its key is settled: counts and causes above the flags. -/
def walkWord (w : Walk) : BitVec 64 :=
  BitVec.ofNat 64 (w.count * 2 ^ 44 + w.depth * 2 ^ 42 + w.trunc * 2 ^ 38 + w.cause * 2 ^ 34 + w.flags)

section
variable {r fh rc : Bool} {d c : Nat} {w : Walk}

theorem walkWord_fields (h : Parsed r fh rc d c w) (hd : d ≤ 3) (hc : c ≤ 12) :
    bf (walkWord w) 47 44 = c ∧ bf (walkWord w) 43 42 = d ∧ bf (walkWord w) 41 40 = 0 ∧ bf (walkWord w) 39 38 = w.trunc ∧
    bf (walkWord w) 37 34 = w.cause := by
  have hflags := h.flags_lt
  have htrunc := h.trunc_le
  have hcause := h.cause_le
  simp only [walkWord, bf_ofNat _ _ (show 47 < 64 by decide), bf_ofNat _ _ (show 43 < 64 by decide),
    bf_ofNat _ _ (show 41 < 64 by decide), bf_ofNat _ _ (show 39 < 64 by decide), bf_ofNat _ _ (show 37 < 64 by decide),
    fld, Nat.shiftRight_eq_div_pow, h.count, h.depth]
  omega

theorem bit_walkWord (h : Parsed r fh rc d c w) {i : Nat} (hi : i < 24) : bit (walkWord w) i = w.has i := by
  have hmod : (w.count * 2 ^ 44 + w.depth * 2 ^ 42 + w.trunc * 2 ^ 38 + w.cause * 2 ^ 34 + w.flags) % 2 ^ 24 = w.flags := by
    have := h.flags_lt
    omega
  have hbit := congrArg (Nat.testBit · i) hmod
  simp only [Nat.testBit_mod_two_pow, hi, decide_true, Bool.true_and] at hbit
  rw [walkWord, bit_ofNat _ (by omega), hbit, Walk.has]

end

theorem bf_congr {n : Nat} {v w : BitVec n} {hi lo : Nat} (h : ∀ i, lo ≤ i → i ≤ hi → bit v i = bit w i) :
    bf v hi lo = bf w hi lo := by
  apply Nat.eq_of_testBit_eq
  intro i
  simp only [bf, testBit_fld]
  by_cases hi' : i < hi + 1 - lo
  · exact congrArg _ (h (lo + i) (by omega) (by omega))
  · simp [hi']

/-- A field just replaced reads as the value given, cut to its width. -/
theorem bf_putBf_same {n : Nat} (v : BitVec n) (x : Nat) {hi lo : Nat} (h : lo ≤ hi) (hw : hi < n) :
    bf (putBf v hi lo x) hi lo = x % 2 ^ (hi + 1 - lo) := by
  apply Nat.eq_of_testBit_eq
  intro i
  rw [bf, testBit_fld, Nat.testBit_mod_two_pow]
  by_cases hi' : i < hi + 1 - lo
  · have hbit := bit_putBf v x h (show lo + i < n by omega)
    rw [if_pos (by omega), Nat.add_sub_cancel_left] at hbit
    exact congrArg _ hbit
  · simp [hi']

theorem bit_setFlag (w : BitVec 64) (b : Nat) (on : Bool) {i : Nat} (hi : i < 64) :
    bit (setFlag w b on) i = if i = b then on else bit w i := by
  rw [setFlag, bit_putBf _ _ le_rfl hi]
  by_cases h : i = b
  · subst h
    cases on <;> simp [b2n]
  · rw [if_neg (by omega), if_neg h]

/-- The bits that the settled key sets: NO_KEY, the flags of its pair, and its level. -/
def keyBits : List Nat := [fNoKey, fLand, fTcpSyn, fTcpFinRst, fTcpBad, 40, 41]

/-- Settling the key leaves every other bit of the parse result (R92). -/
theorem bit_settleKey (p : Parse) (level0 : Bool) {i : Nat} (hi : i < 64) (h : i ∉ keyBits) :
    bit (settleKey p level0).word i = bit p.word i := by
  simp only [keyBits, List.mem_cons, List.not_mem_nil, or_false, not_or] at h
  obtain ⟨hno, hland, hsyn, hfin, hbad, h40, h41⟩ := h
  have hlev : ¬ (40 ≤ i ∧ i ≤ 41) := by omega
  unfold settleKey
  split <;> simp only [bit_setFlag _ _ _ hi, bit_putBf _ _ (show 40 ≤ 41 by decide) hi, hno, hland, hsyn, hfin, hbad, hlev, if_false]

theorem bit_settleKey_noKey (p : Parse) (level0 : Bool) :
    bit (settleKey p level0).word fNoKey = (settleKey p level0).keyPair.isNone := by
  have h5 : fNoKey < 64 := by decide
  unfold settleKey
  split <;> simp only [bit_setFlag _ _ _ h5, bit_putBf _ _ (show 40 ≤ 41 by decide) h5] <;> rfl

/-- The level of the settled key is its pair's. -/
theorem bf_settleKey_level (p : Parse) (level0 : Bool) :
    bf (settleKey p level0).word 41 40 = ((settleKey p level0).keyPair.map (·.level)).getD 0 % 4 := by
  unfold settleKey
  split
  · exact bf_putBf_same _ _ (by decide) (by decide)
  · refine Eq.trans (bf_congr fun i hlo hhi => ?_) (bf_putBf_same (setFlag p.word fNoKey false) _ (by decide) (by decide))
    have hi : i < 64 := by omega
    have hne : ∀ b, b < 40 → i ≠ b := fun b hb => by omega
    simp only [bit_setFlag _ _ _ hi, hne fLand (by decide), hne fTcpSyn (by decide), hne fTcpFinRst (by decide),
      hne fTcpBad (by decide), if_false]
    rfl

/-- The pair of the settled key is one of those reached (R86). -/
theorem choosePair_mem {stopped level0 : Bool} {ps : List Pair} {k : Pair}
    (h : choosePair stopped ps level0 = some k) : k ∈ ps := by
  have hfold : ∀ (l : List Pair) (b : Option Pair), (∀ x ∈ l, x ∈ ps) → (∀ x, b = some x → x ∈ ps) →
      ∀ x, l.foldl (fun b p => match b with
        | none => some p
        | some x => if x.level < p.level then some p else some x) b = some x → x ∈ ps := by
    intro l
    induction l with
    | nil => exact fun b _ hb => hb
    | cons p l ih =>
      intro b hl hb
      refine ih _ (fun x hx => hl x (List.mem_cons_of_mem _ hx)) fun x hx => ?_
      have hp := hl p (List.mem_cons_self ..)
      cases b with
      | none => exact Option.some.inj hx ▸ hp
      | some y =>
        simp only at hx
        split_ifs at hx
        · exact Option.some.inj hx ▸ hp
        · exact Option.some.inj hx ▸ hb y rfl
  exact hfold _ none (fun x hx => List.mem_of_mem_filter hx) (fun x hx => by cases hx) k h

theorem mem_pairs_of_settleKey {p : Parse} {level0 : Bool} {k : Pair} (h : (settleKey p level0).keyPair = some k) : k ∈ p.pairs := by
  unfold settleKey at h
  split at h
  · cases h
  · next hk => cases h; exact choosePair_mem hk

/-- The parser at the frame's first byte. -/
def startWalk (d : Bytes) (router fromHost recirc : Bool) : Walk := {
  d := d, router := router, flags := b2n router * 2 ^ fRouterMac + b2n fromHost * 2 ^ fFromHost + b2n recirc * 2 ^ fRecirc,
  trunc := 0, cause := 0, count := 0, level := 0, depth := 0, bound := d.length, quote := false, pairs := [],
  outer := none, l2type := 0, tag := none, innerL2 := none, ptp := none, opener := none, csums := [] }

theorem startWalk_parsing (d : Bytes) (r fh rc : Bool) : Parsing r fh rc 0 0 0 (startWalk d r fh rc) := by
  have hhas : ∀ r fh rc : Bool, ∀ i < 24, (startWalk [] r fh rc).has i =
      ((decide (i = fRouterMac) && r) || (decide (i = fFromHost) && fh) || (decide (i = fRecirc) && rc)) := by decide
  have hd : ∀ i < 24, (startWalk d r fh rc).has i =
      ((decide (i = fRouterMac) && r) || (decide (i = fFromHost) && fh) || (decide (i = fRecirc) && rc)) := hhas r fh rc
  have hunset : ∀ i < 24, i ∉ [fRouterMac, fFromHost, fRecirc] → (startWalk d r fh rc).has i = false := by
    intro i hi hn
    simp only [List.mem_cons, List.not_mem_nil, or_false, not_or] at hn
    simp [hd i hi, hn]
  have hlt : ∀ r fh rc : Bool, (startWalk [] r fh rc).flags < 2 ^ 24 := by decide
  exact {
    router := rfl, level := rfl, level_le := le_rfl, depth := rfl, count := rfl, trunc := rfl, cause := rfl
    flags_lt := hlt r fh rc
    noTrunc := hunset _ (by decide) (by decide), noMalformed := hunset _ (by decide) (by decide)
    tunnel := hunset _ (by decide) (by decide)
    fromRouter := by rw [hd fRouterMac (by decide)]; simp [fRouterMac, fFromHost, fRecirc]
    fromHost := by rw [hd fFromHost (by decide)]; simp [fRouterMac, fFromHost, fRecirc]
    recirc := by rw [hd fRecirc (by decide)]; simp [fRouterMac, fFromHost, fRecirc]
    frag := fun hf => absurd hf (by simp [hunset fFragFirst (by decide) (by decide)])
    ttl := fun hf => absurd hf (by simp [hunset fTtlExpired (by decide) (by decide)])
    pairs := fun p hp => by cases hp }

theorem parseFrame_eq (s : State) (d : Bytes) (r fh rc : Bool) : ∃ p : Parse,
    p.word = walkWord (walk s 14 (startWalk d r fh rc) 0 0) ∧ p.pairs = (walk s 14 (startWalk d r fh rc) 0 0).pairs ∧
    parseFrame s d r fh rc = settleKey p false := ⟨_, rfl, rfl, rfl⟩

/-- The parse word of every frame: its counts, its one cause with its flag, and the flags that repeat a field (R80 to R82). -/
theorem parseFrame_word (s : State) (d : Bytes) (router fh rc : Bool) :
    let x := parseFrame s d router fh rc
    let w := x.word
    1 ≤ bf w 47 44 ∧ bf w 47 44 ≤ 12 ∧ bf w 41 40 ≤ bf w 43 42 ∧ bit w 0 = decide (bf w 39 38 ≠ 0) ∧
    bit w 1 = decide (bf w 37 34 ≠ 0) ∧ bf w 37 34 ≤ 8 ∧ (bit w 0 && bit w 1) = false ∧
    bit w 19 = decide (bf w 43 42 ≠ 0) ∧ (bit w 4 = true → bit w 3 = true) ∧ (bit w 8 = true → bit w 16 = true) ∧
    bit w 16 = router ∧ bit w 21 = rc ∧ bit w 22 = fh ∧ bit w 5 = x.keyPair.isNone := by
  obtain ⟨D, c, h, hD, hc1, hc⟩ := walk_ends (r := router) (fh := fh) (rc := rc) s 14 (n := 0) (off := 0)
    (startWalk_parsing d router fh rc) (by decide) (by decide) (.inr ⟨by decide, by simp [nodeUnused]⟩)
  obtain ⟨p, hword, hpairs, heq⟩ := parseFrame_eq s d router fh rc
  obtain ⟨hcount, hdepth, -, htrunc, hcause⟩ := walkWord_fields h hD hc
  have hfield : ∀ hi lo, hi < 64 → (∀ i, lo ≤ i → i ≤ hi → i ∉ keyBits) →
      bf (settleKey p false).word hi lo = bf (walkWord (walk s 14 (startWalk d router fh rc) 0 0)) hi lo :=
    fun hi lo hw hk => hword ▸ bf_congr fun i h1 h2 => bit_settleKey p false (by omega) (hk i h1 h2)
  have hflag : ∀ i < 24, i ∉ keyBits → bit (settleKey p false).word i = (walk s 14 (startWalk d router fh rc) 0 0).has i :=
    fun i hi hk => (bit_settleKey p false (by omega) hk).trans (hword ▸ bit_walkWord h hi)
  have hkey : ∀ hi lo : Nat, 42 ≤ lo ∨ 24 ≤ lo ∧ hi ≤ 39 → ∀ i, lo ≤ i → i ≤ hi → i ∉ keyBits := by
    intro hi lo hr i h1 h2
    simp only [keyBits, fNoKey, fLand, fTcpSyn, fTcpFinRst, fTcpBad, List.mem_cons, List.not_mem_nil, or_false]
    omega
  intro x w
  simp only [x, w, heq, hfield 47 44 (by decide) (hkey _ _ (by decide)), hfield 43 42 (by decide) (hkey _ _ (by decide)),
    hfield 39 38 (by decide) (hkey _ _ (by decide)), hfield 37 34 (by decide) (hkey _ _ (by decide)),
    hflag 0 (by decide) (by decide), hflag 1 (by decide) (by decide), hflag 3 (by decide) (by decide),
    hflag 4 (by decide) (by decide), hflag 8 (by decide) (by decide), hflag 16 (by decide) (by decide),
    hflag 19 (by decide) (by decide), hflag 21 (by decide) (by decide), hflag 22 (by decide) (by decide),
    hcount, hdepth, htrunc, hcause]
  refine ⟨hc1, hc, ?_, h.trunc, h.malformed, h.cause_le, h.one, h.tunnel, h.frag, fun ht => h.fromRouter.trans (h.ttl ht),
    h.fromRouter, h.recirc, h.fromHost, bit_settleKey_noKey p false⟩
  rw [bf_settleKey_level]
  cases hk : (settleKey p false).keyPair with
  | none => exact Nat.zero_le _
  | some k => exact (Nat.mod_le ..).trans (h.pairs k (hpairs ▸ mem_pairs_of_settleKey hk))

end Sys2Proof.Machine
end

section
namespace Sys2Proof.Machine

/-! ### Counters -/

/-- Below its wrap a counter takes what is added, and no chain is looked at. -/
theorem ctrAdd_of_lt {a n : Nat} {s : State} (h : ctrGet s a + n < 2 ^ 48) : ctrAdd a n s = ctrSet s a (ctrGet s a + n) := by
  rw [ctrAdd]
  simp only [if_pos h, Nat.mod_eq_of_lt h]

/-- At its wrap a counter adds its wraps to its chained spare, where it has one. -/
theorem ctrAdd_of_wrap {a n : Nat} {s : State} (h : ¬ ctrGet s a + n < 2 ^ 48) :
    ctrAdd a n s = (match (ctrId a).bind (chainOf s) with
      | some i => ctrSet (ctrSet s a ((ctrGet s a + n) % 2 ^ 48)) (ctrCell (0xF100 + i))
          ((ctrGet (ctrSet s a ((ctrGet s a + n) % 2 ^ 48)) (ctrCell (0xF100 + i)) + (ctrGet s a + n) / 2 ^ 48) % 2 ^ 48)
      | none => ctrSet s a ((ctrGet s a + n) % 2 ^ 48)) := by
  rw [ctrAdd]
  exact if_neg h

theorem ctrGet_ctrSet_other {a b : Nat} (h : b ≠ a) (n : Nat) (s : State) : ctrGet (ctrSet s a n) b = ctrGet s b :=
  tget_tset_other _ _ h

theorem ctrGet_of_cnt {s t : State} (h : t.cnt = s.cnt) (a : Nat) : ctrGet t a = ctrGet s a := by rw [ctrGet, h, ctrGet]

/-- Below its wrap a counter that counts one reads one more. -/
theorem ctrGet_count_same {i n u : Nat} {s : State} (h : ctrGet s (oa i n u) + 1 < 2 ^ 48) :
    ctrGet (count i n u s) (oa i n u) = ctrGet s (oa i n u) + 1 := by
  rw [count, ctrAdd_of_lt h]
  exact tget_tset_ne_default (Nat.succ_ne_zero _) _ _

/-- A counter of an index below that of the counter cells is no spare counter's cell. -/
theorem lt_ctrCell {b : Nat} (h : b < 0x7880 * 2 ^ 20) (i : Nat) : b < ctrCell i := by
  simp only [ctrCell, oa]; omega

/-- A count leaves every other counter that is not a counter cell. -/
theorem ctrGet_ctrAdd_other {a b : Nat} (h : b ≠ a) (hb : b < 0x7880 * 2 ^ 20) (n : Nat) (s : State) :
    ctrGet (ctrAdd a n s) b = ctrGet s b := by
  by_cases hv : ctrGet s a + n < 2 ^ 48
  · rw [ctrAdd_of_lt hv, ctrGet_ctrSet_other h]
  · rw [ctrAdd_of_wrap hv]
    cases (ctrId a).bind (chainOf s) with
    | none => exact ctrGet_ctrSet_other h _ _
    | some i => exact (ctrGet_ctrSet_other (lt_ctrCell hb _).ne _ _).trans (ctrGet_ctrSet_other h _ _)

theorem ctrGet_count_other {i n u b : Nat} (h : b ≠ oa i n u) (hb : b < 0x7880 * 2 ^ 20) (s : State) :
    ctrGet (count i n u s) b = ctrGet s b := ctrGet_ctrAdd_other h hb 1 s

/-- Events count in the counters of the event queues alone. -/
theorem ctrGet_putEvent {b : Nat} (hb : b < 0x6812 * 2 ^ 20) (q code : Nat) (f : Bool) (ps : List Nat) (s : State) :
    ctrGet (putEvent q code f ps s) b = ctrGet s b := by
  simp only [putEvent]
  split
  · rw [ringProduce_eq]; rfl
  · exact ctrGet_count_other (by simp only [oa]; omega) (by omega) _

theorem ctrGet_raise {b : Nat} (hb : b < 0x6812 * 2 ^ 20) (code : Nat) (ps : List Nat) (s : State) (f : Bool) :
    ctrGet (raise code ps s f) b = ctrGet s b := by
  simp only [raise]
  split
  · rfl
  · exact ctrGet_putEvent hb ..

theorem ctrGet_raiseLimited {b : Nat} (hb : b < 0x6812 * 2 ^ 20) (code inst : Nat) (ps : Nat → List Nat) (s : State) :
    ctrGet (raiseLimited code inst ps s) b = ctrGet s b := by
  simp only [raiseLimited, limit]
  split
  · exact ctrGet_raise hb ..
  · rfl

/-! ### Packets -/

@[simp] theorem pkt_setPkt_same (n : Nat) (p : Packet) (s : State) : pkt (setPkt n p s) n = p := by
  simp [pkt, setPkt, tget]

theorem pkt_setPkt_other {n j : Nat} (h : j ≠ n) (p : Packet) (s : State) : pkt (setPkt n p s) j = pkt s j := by
  simp [pkt, setPkt, tget, tfind_tput_other _ _ h]

@[simp] theorem pkt_modPkt_same (n : Nat) (f : Packet → Packet) (s : State) : pkt (modPkt n f s) n = f (pkt s n) :=
  pkt_setPkt_same ..

theorem pkt_modPkt_other {n j : Nat} (h : j ≠ n) (f : Packet → Packet) (s : State) : pkt (modPkt n f s) j = pkt s j :=
  pkt_setPkt_other h ..

theorem pkt_of_pkts {s t : State} (h : t.path.pkts = s.path.pkts) (j : Nat) : pkt t j = pkt s j := by
  rw [pkt, h, pkt]

/-! ### What a parse rests on: the configuration alone -/

/-- The configuration of t is that of s. -/
structure SameConfig (s t : State) : Prop where
  keys : t.ctl.keys = s.ctl.keys
  active : t.ctl.active = s.ctl.active
  board : t.safe.boardMgmt = s.safe.boardMgmt

section
variable {s t : State} (h : SameConfig s t)
include h

theorem SameConfig.cfgB (a : Nat) : cfgB t a = cfgB s a := cfgB_congr h.keys (congrArg Slot.objs h.active) h.board

theorem SameConfig.cfgN (i n u : Nat) : cfgN t i n u = cfgN s i n u := by
  simp only [Machine.cfgN, h.cfgB]

theorem SameConfig.userNode (n : Nat) : userNode t n = userNode s n := by
  simp only [Machine.userNode, h.cfgB]

theorem SameConfig.nodeUnused (n : Nat) : nodeUnused t n = nodeUnused s n := by
  simp only [Machine.nodeUnused, h.userNode]

theorem SameConfig.defaultNext (n : Nat) : defaultNext t n = defaultNext s n := by
  simp only [Machine.defaultNext, h.userNode]

theorem SameConfig.findEdge (n sel : Nat) : findEdge t n sel = findEdge s n sel := by
  simp only [Machine.findEdge, h.active]

theorem SameConfig.nodeAct (w : Walk) (n off : Nat) : nodeAct t w n off = nodeAct s w n off := by
  simp only [Machine.nodeAct, h.userNode]

theorem SameConfig.walk (fuel : Nat) (w : Walk) (n off : Nat) : walk t fuel w n off = walk s fuel w n off := by
  induction fuel generalizing w n off with
  | zero => rfl
  | succ fuel ih => simp only [Machine.walk, h.nodeUnused, h.nodeAct, h.findEdge, h.defaultNext, ih]

theorem SameConfig.parseFrame (d : Bytes) (r fh rc : Bool) : parseFrame t d r fh rc = parseFrame s d r fh rc := by
  simp only [Machine.parseFrame, h.walk]

theorem SameConfig.clickerRun (b : Banked) (p : Packet) : clickerRun t b p = clickerRun s b p := by
  simp only [Machine.clickerRun, h.parseFrame, h.cfgN]

theorem SameConfig.homeSlice (hr : t.flow = s.flow) (k : BitVec 384) : homeSlice t k = homeSlice s k := by
  simp only [Machine.homeSlice, keyHash, flowSeed, hr, h.cfgN]

theorem SameConfig.chainOf (id : Nat) : chainOf t id = chainOf s id := by
  rw [Machine.chainOf, h.active, Machine.chainOf]

/-- A count rests on the counters and on the chain. -/
theorem SameConfig.count (hc : t.cnt = s.cnt) (i n u : Nat) : (count i n u t).cnt = (count i n u s).cnt := by
  have hg := ctrGet_of_cnt hc (oa i n u)
  simp only [Machine.count]
  by_cases hv : ctrGet s (oa i n u) + 1 < 2 ^ 48
  · rw [ctrAdd_of_lt hv, ctrAdd_of_lt (hg ▸ hv), hg, ctrSet, hc, ctrSet]
  · rw [ctrAdd_of_wrap hv, ctrAdd_of_wrap (hg ▸ hv), hg, funext h.chainOf]
    cases (ctrId (oa i n u)).bind (Machine.chainOf s) with
    | none => rw [ctrSet, hc, ctrSet]
    | some k => simp only [ctrSet, ctrGet, hc]

end


/-! ### The Clicker takes a header -/

/-- The next header leaves its queue and turns the round; nothing else changes. -/
theorem nextHeader_eq {s s1 : State} {p pid : Nat} (h : nextHeader s p = some (pid, s1)) :
    s1 = { s with path := { s.path with hdr := s1.path.hdr, rehdr := s1.path.rehdr, hdrTurn := s1.path.hdrTurn } } := by
  simp only [nextHeader] at h
  split at h
  · cases h
  · cases h; rfl
  · cases h; rfl
  · split at h <;> cases h <;> rfl

/-- With both queues waiting, the one that the last header did not come from gives the next. -/
theorem nextHeader_both {s : State} {p a b : Nat} {l u : List Nat} (hf : hdrFifo s p = a :: l) (hr : reHdr s p = b :: u) :
    (nextHeader s p).map (·.1) = some (if tget 0 s.path.hdrTurn p = 0 then b else a) := by
  simp only [nextHeader, hf, hr]
  by_cases h0 : tget 0 s.path.hdrTurn p = 0
  · simp only [if_pos h0, Option.map_some]
  · simp only [if_neg h0, Option.map_some]

theorem pinEpoch_eq (pid : Nat) (s : State) : pinEpoch pid s = { s with
    ctl := { s.ctl with epochCount := (pinEpoch pid s).ctl.epochCount },
    path := { s.path with pkts := (pinEpoch pid s).path.pkts } } := by
  simp only [pinEpoch]
  split <;> rfl

/-- A packet keeps the epoch it has, and pins the active one otherwise (R64). -/
theorem pkt_pinEpoch_same (pid : Nat) (s : State) :
    pkt (pinEpoch pid s) pid = { pkt s pid with epoch := some ((pkt s pid).epoch.getD s.ctl.epoch) } := by
  simp only [pinEpoch]
  split
  · next e he => rw [he, Option.getD_some, ← he]
  · next he => rw [pkt_modPkt_same, he]; rfl

theorem pkt_pinEpoch_other {pid j : Nat} (h : j ≠ pid) (s : State) : pkt (pinEpoch pid s) j = pkt s j := by
  simp only [pinEpoch]
  split
  · rfl
  · exact pkt_modPkt_other h ..

/-- The packet with its epoch pinned, its parse and what its stages made of it. -/
def parsedPacket (s : State) (x : Packet) : Packet :=
  let e := x.epoch.getD s.ctl.epoch
  let r := clickerRun s (bankOf s e) x
  { x with epoch := some e, parse := some r.1, acts := r.2.1, zone := r.2.2.1, key := r.2.2.2 }

/-- The state in which the packet is parsed, and a truncated parse counted: what its flow request acts on. -/
def takeParse (p pid : Nat) (s : State) : State :=
  let s2 := pinEpoch pid s
  let r := clickerRun s2 (pktBank s2 pid) (pkt s2 pid)
  let s3 := modPkt pid (fun x => { x with parse := some r.1, acts := r.2.1, zone := r.2.2.1, key := r.2.2.2 }) s2
  if bit r.1.word fTrunc then count 0x3030 p 1 s3 else s3

theorem execClickerParse_of_next {s s1 : State} {p pid : Nat} (hp : fnStopped s (.pipeline p) = false)
    (ht : fnStopped s (.tables (groupOf p)) = false) (hn : nextHeader s p = some (pid, s1)) (he : isExpired s1 pid = false) :
    exec (.clickerParse p) s = .next
      (setRetire (flowRequest pid (takeParse p pid s1)) p (retireQ (flowRequest pid (takeParse p pid s1)) p ++ [pid])) := by
  show execClickerParse p s = _
  simp only [execClickerParse, hp, ht, hn, he, Bool.or_self, Bool.false_eq_true, if_false]
  rfl

/-- The pinned epoch changes neither the configuration nor the bank that the packet is parsed with. -/
theorem clickerRun_pinEpoch (pid : Nat) (s : State) :
    clickerRun (pinEpoch pid s) (pktBank (pinEpoch pid s) pid) (pkt (pinEpoch pid s) pid) =
      clickerRun s (bankOf s ((pkt s pid).epoch.getD s.ctl.epoch)) (pkt s pid) := by
  have hc : SameConfig s (pinEpoch pid s) := by rw [pinEpoch_eq]; exact ⟨rfl, rfl, rfl⟩
  have hb : ∀ e, bankOf (pinEpoch pid s) e = bankOf s e := fun e => by rw [pinEpoch_eq]; rfl
  rw [hc.clickerRun, pktBank, hb, pkt_pinEpoch_same]
  rfl

theorem takeParse_eq (p pid : Nat) (s : State) : takeParse p pid s = { s with
    ctl := { s.ctl with epochCount := (takeParse p pid s).ctl.epochCount },
    path := { s.path with pkts := (takeParse p pid s).path.pkts }, cnt := (takeParse p pid s).cnt } := by
  simp only [takeParse, modPkt, setPkt, setPath]
  rw [pinEpoch_eq]
  split
  · rw [count_eq]
  · rfl

theorem takeParse_sameConfig (p pid : Nat) (s : State) : SameConfig s (takeParse p pid s) := by
  rw [takeParse_eq]; exact ⟨rfl, rfl, rfl⟩

theorem pkt_takeParse_same (p pid : Nat) (s : State) : pkt (takeParse p pid s) pid = parsedPacket s (pkt s pid) := by
  have h : ∀ (b : Bool) (t : State), pkt (if b then count 0x3030 p 1 t else t) pid = pkt t pid := fun b t => by
    cases b
    · rfl
    · exact pkt_of_pkts (by rw [if_pos rfl, count_eq]) _
  simp only [takeParse, h, pkt_modPkt_same, clickerRun_pinEpoch]
  rw [pkt_pinEpoch_same, parsedPacket]

theorem pkt_takeParse_other {p pid j : Nat} (hj : j ≠ pid) (s : State) : pkt (takeParse p pid s) j = pkt s j := by
  have h : ∀ (b : Bool) (t : State), pkt (if b then count 0x3030 p 1 t else t) j = pkt t j := fun b t => by
    cases b
    · rfl
    · exact pkt_of_pkts (by rw [if_pos rfl, count_eq]) _
  simp only [takeParse, h]
  rw [pkt_modPkt_other hj, pkt_pinEpoch_other hj]

/-- A truncated parse is counted. -/
theorem cnt_takeParse (p pid : Nat) (s : State) : (takeParse p pid s).cnt =
    (if bit (clickerRun s (bankOf s ((pkt s pid).epoch.getD s.ctl.epoch)) (pkt s pid)).1.word fTrunc
      then count 0x3030 p 1 s else s).cnt := by
  simp only [takeParse, clickerRun_pinEpoch]
  split
  · exact SameConfig.count (by rw [pinEpoch_eq]; exact ⟨rfl, rfl, rfl⟩) (by rw [pinEpoch_eq]; rfl) _ _ _
  · rw [pinEpoch_eq]; rfl

/-! ### Its flow request -/

/-- A packet asks its home slice for a lookup: stage 0 requests one and neither drops nor traps it, and it is no malformed
one (R84, R86). -/
def asksLookup (x : Packet) : Bool :=
  aLookup (stageZero x.acts) && !zeroSuppresses (stageZero x.acts) && !bit ((x.parse.map (·.word)).getD 0) fMalformed

/-- The request joins its slice's queue with the next turn. -/
def sendLookup (pid n : Nat) (s : State) : State :=
  let s1 := setPath s { s.path with turns := s.path.turns + 1 }
  setReqs (modPkt pid (fun x => { x with flow := 1, turn := s.path.turns + 1 }) s1) n (sliceReqs s1 n ++ [pid])

@[simp] theorem pkt_sendLookup_same (pid n : Nat) (s : State) :
    pkt (sendLookup pid n s) pid = { pkt s pid with flow := 1, turn := s.path.turns + 1 } :=
  pkt_modPkt_same pid (fun x => { x with flow := 1, turn := s.path.turns + 1 })
    (setPath s { s.path with turns := s.path.turns + 1 })

theorem pkt_sendLookup_other {pid j : Nat} (hj : j ≠ pid) (n : Nat) (s : State) : pkt (sendLookup pid n s) j = pkt s j :=
  pkt_modPkt_other hj (fun x => { x with flow := 1, turn := s.path.turns + 1 })
    (setPath s { s.path with turns := s.path.turns + 1 })

theorem sliceReqs_sendLookup (pid n : Nat) (s : State) : sliceReqs (sendLookup pid n s) n = sliceReqs s n ++ [pid] :=
  tget_tset_ne_default (by simp) _ _

section
variable {pid : Nat} {s : State}

theorem flowRequest_silent (h : asksLookup (pkt s pid) = false) : flowRequest pid s = s := by
  have hc : (!aLookup (stageZero (pkt s pid).acts) || zeroSuppresses (stageZero (pkt s pid).acts) ||
      bit (((pkt s pid).parse.map (·.word)).getD 0) fMalformed) = true := by
    rw [← Bool.not_not (b := (_ || _)), Bool.not_or, Bool.not_or, Bool.not_not]
    exact congrArg not h
  simp only [flowRequest, hc, if_true]

theorem flowRequest_asks (h : asksLookup (pkt s pid) = true) : flowRequest pid s =
    if bit (((pkt s pid).parse.map (·.word)).getD 0) fFrag then count 0x3030 (pkt s pid).pipe 3 s
    else match (pkt s pid).key with
      | none => count 0x3030 (pkt s pid).pipe 2 s
      | some k => sendLookup pid (homeSlice s k) s := by
  have hc : (!aLookup (stageZero (pkt s pid).acts) || zeroSuppresses (stageZero (pkt s pid).acts) ||
      bit (((pkt s pid).parse.map (·.word)).getD 0) fMalformed) = false := by
    simpa [asksLookup, and_assoc] using h
  simp only [flowRequest, hc, Bool.false_eq_true, if_false]
  rfl

theorem flowRequest_eq (pid : Nat) (s : State) : flowRequest pid s = { s with
    path := { s.path with pkts := (flowRequest pid s).path.pkts, turns := (flowRequest pid s).path.turns },
    flow := (flowRequest pid s).flow, cnt := (flowRequest pid s).cnt } := by
  cases h : asksLookup (pkt s pid)
  · rw [flowRequest_silent h]
  · rw [flowRequest_asks h]
    split
    · rw [count_eq]
    · split
      · rw [count_eq]
      · rfl

theorem pkt_flowRequest_other {j : Nat} (hj : j ≠ pid) : pkt (flowRequest pid s) j = pkt s j := by
  cases h : asksLookup (pkt s pid)
  · rw [flowRequest_silent h]
  · rw [flowRequest_asks h]
    split
    · rw [count_eq]; rfl
    · split
      · rw [count_eq]; rfl
      · exact pkt_sendLookup_other hj _ _

/-- A request changes only the turn of the packet, and that its answer is out. -/
theorem pkt_flowRequest_same (pid : Nat) (s : State) : pkt (flowRequest pid s) pid =
    { pkt s pid with flow := (pkt (flowRequest pid s) pid).flow, turn := (pkt (flowRequest pid s) pid).turn } := by
  cases h : asksLookup (pkt s pid)
  · rw [flowRequest_silent h]
  · rw [flowRequest_asks h]
    split
    · rw [count_eq]; rfl
    · split
      · rw [count_eq]; rfl
      · rw [pkt_sendLookup_same]
variable (ha : asksLookup (pkt s pid) = true)
include ha

theorem flowRequest_fragment (hf : bit (((pkt s pid).parse.map (·.word)).getD 0) fFrag = true) :
    flowRequest pid s = count 0x3030 (pkt s pid).pipe 3 s := (flowRequest_asks ha).trans (if_pos hf)

theorem flowRequest_keyless (hf : bit (((pkt s pid).parse.map (·.word)).getD 0) fFrag = false) (hk : (pkt s pid).key = none) :
    flowRequest pid s = count 0x3030 (pkt s pid).pipe 2 s := by
  rw [flowRequest_asks ha, hf, hk]; rfl

theorem flowRequest_keyed (hf : bit (((pkt s pid).parse.map (·.word)).getD 0) fFrag = false) {k : BitVec 384}
    (hk : (pkt s pid).key = some k) : flowRequest pid s = sendLookup pid (homeSlice s k) s := by
  rw [flowRequest_asks ha, hf, hk]; rfl
end

/-! ### The Clicker's step -/

/-- The state after pipeline p's Clicker has taken packet pid in state s1: parsed, asked for, and in the retire stage. -/
def clickerTakes (p pid : Nat) (s1 : State) : State :=
  let t := flowRequest pid (takeParse p pid s1)
  setRetire t p (retireQ t p ++ [pid])

theorem clickerTakes_eq (p pid : Nat) (s : State) : clickerTakes p pid s = { s with
    ctl := { s.ctl with epochCount := (clickerTakes p pid s).ctl.epochCount },
    path := { s.path with pkts := (clickerTakes p pid s).path.pkts, turns := (clickerTakes p pid s).path.turns,
                          retire := (clickerTakes p pid s).path.retire },
    flow := (clickerTakes p pid s).flow, cnt := (clickerTakes p pid s).cnt } := by
  simp only [clickerTakes, setRetire, setPath]
  rw [flowRequest_eq, takeParse_eq]

theorem retireQ_clickerTakes (p pid : Nat) (s : State) : retireQ (clickerTakes p pid s) p = retireQ s p ++ [pid] := by
  have h : retireQ (flowRequest pid (takeParse p pid s)) p = retireQ s p := by
    rw [flowRequest_eq, takeParse_eq]; rfl
  rw [← h]
  exact tget_tset_ne_default (by simp) _ _

theorem pkt_clickerTakes_other {p pid j : Nat} (hj : j ≠ pid) (s : State) : pkt (clickerTakes p pid s) j = pkt s j :=
  (pkt_flowRequest_other hj).trans (pkt_takeParse_other hj s)

theorem pkt_clickerTakes_same (p pid : Nat) (s : State) : pkt (clickerTakes p pid s) pid =
    { parsedPacket s (pkt s pid) with
      flow := (pkt (clickerTakes p pid s) pid).flow, turn := (pkt (clickerTakes p pid s) pid).turn } :=
  (pkt_flowRequest_same pid (takeParse p pid s)).trans (by rw [pkt_takeParse_same]; rfl)

@[simp] theorem pkt_setRetire (s : State) (p j : Nat) (l : List Nat) : pkt (setRetire s p l) j = pkt s j := rfl

section
variable {s s1 : State} {p pid : Nat} (hn : nextHeader s p = some (pid, s1))
include hn

theorem sameConfig_nextHeader : SameConfig s s1 := by rw [nextHeader_eq hn]; exact ⟨rfl, rfl, rfl⟩

theorem pkt_nextHeader (j : Nat) : pkt s1 j = pkt s j := pkt_of_pkts (by rw [nextHeader_eq hn]) j

/-- What a packet's parse makes of it does not depend on the queue that it has left. -/
theorem parsedPacket_nextHeader (x : Packet) : parsedPacket s1 x = parsedPacket s x := by
  have hc : s1.ctl = s.ctl := by rw [nextHeader_eq hn]
  simp only [parsedPacket, bankOf, hc, (sameConfig_nextHeader hn).clickerRun]

/-- What has been counted when the packet's flow request is due: the truncated parse. -/
theorem cnt_takeParse_nextHeader : (takeParse p pid s1).cnt =
    (if bit (clickerRun s (bankOf s ((pkt s pid).epoch.getD s.ctl.epoch)) (pkt s pid)).1.word fTrunc
      then count 0x3030 p 1 s else s).cnt := by
  have hc : s1.ctl = s.ctl := by rw [nextHeader_eq hn]
  have hcnt : s1.cnt = s.cnt := by rw [nextHeader_eq hn]
  have hb : ∀ e, bankOf s1 e = bankOf s e := fun e => by rw [bankOf, hc, bankOf]
  rw [cnt_takeParse, pkt_nextHeader hn, (sameConfig_nextHeader hn).clickerRun, hc, hb]
  split
  · exact (sameConfig_nextHeader hn).count hcnt _ _ _
  · exact hcnt
end

/-- A malformed packet has no flow key. -/
theorem clickerRun_key_of_malformed {s : State} {b : Banked} {x : Packet}
    (h : bit (clickerRun s b x).1.word fMalformed = true) : (clickerRun s b x).2.2.2 = none := by
  simp only [clickerRun] at h ⊢
  exact if_pos h

section
variable {s s1 : State} {p pid : Nat} (hn : nextHeader s p = some (pid, s1)) {y : Packet}
  (hy : parsedPacket s (pkt s pid) = y)
include hn hy

theorem pkt_takeParse_nextHeader : pkt (takeParse p pid s1) pid = y := by
  rw [pkt_takeParse_same, pkt_nextHeader hn, parsedPacket_nextHeader hn, hy]

/-- A packet that asks for no lookup joins the retire stage alone. -/
theorem clickerTakes_silent (ha : asksLookup y = false) : (pkt (clickerTakes p pid s1) pid).flow = y.flow ∧
    (clickerTakes p pid s1).flow = s.flow ∧ (clickerTakes p pid s1).cnt = (takeParse p pid s1).cnt := by
  have hp := pkt_takeParse_nextHeader hn hy
  have hf : flowRequest pid (takeParse p pid s1) = takeParse p pid s1 := flowRequest_silent (by rw [hp, ha])
  simp only [clickerTakes, hf]
  exact ⟨congrArg Packet.flow hp, by rw [takeParse_eq, nextHeader_eq hn]; rfl, rfl⟩

/-- One that asks, and that a cause keeps from it, is counted with the cause. -/
theorem clickerTakes_counted {u : Nat}
    (hf : flowRequest pid (takeParse p pid s1) = count 0x3030 y.pipe u (takeParse p pid s1)) :
    (pkt (clickerTakes p pid s1) pid).flow = y.flow ∧ (clickerTakes p pid s1).flow = s.flow ∧
      (clickerTakes p pid s1).cnt = (count 0x3030 y.pipe u (takeParse p pid s1)).cnt := by
  have hp := pkt_takeParse_nextHeader hn hy
  simp only [clickerTakes, hf]
  refine ⟨?_, by rw [count_eq, takeParse_eq, nextHeader_eq hn]; rfl, rfl⟩
  rw [count_eq]
  exact congrArg Packet.flow hp

/-- One with a flow key joins the queue of its home slice. -/
theorem clickerTakes_sent {k : BitVec 384} (ha : asksLookup y = true)
    (hf : bit ((y.parse.map (·.word)).getD 0) fFrag = false) (hk : y.key = some k) :
    (pkt (clickerTakes p pid s1) pid).flow = 1 ∧ (clickerTakes p pid s1).cnt = (takeParse p pid s1).cnt ∧
      (pkt (clickerTakes p pid s1) pid).turn = s.path.turns + 1 ∧ (clickerTakes p pid s1).path.turns = s.path.turns + 1 ∧
      sliceReqs (clickerTakes p pid s1) (homeSlice s k) = sliceReqs s (homeSlice s k) ++ [pid] := by
  have hp := pkt_takeParse_nextHeader hn hy
  have hs : flowRequest pid (takeParse p pid s1) = sendLookup pid (homeSlice s k) (takeParse p pid s1) := by
    rw [flowRequest_keyed (by rw [hp, ha]) (by rw [hp, hf]) (by rw [hp, hk])]
    rw [(takeParse_sameConfig p pid s1).homeSlice (by rw [takeParse_eq]),
      (sameConfig_nextHeader hn).homeSlice (by rw [nextHeader_eq hn])]
  have hturns : (takeParse p pid s1).path.turns = s.path.turns := by rw [takeParse_eq, nextHeader_eq hn]
  have hreqs : sliceReqs (takeParse p pid s1) (homeSlice s k) = sliceReqs s (homeSlice s k) := by
    rw [takeParse_eq, nextHeader_eq hn]; rfl
  have hx := pkt_sendLookup_same pid (homeSlice s k) (takeParse p pid s1)
  rw [hturns] at hx
  simp only [clickerTakes, hs, pkt_setRetire, hx]
  generalize takeParse p pid s1 = u at *
  exact ⟨trivial, rfl, trivial, congrArg (· + 1) hturns,
    (sliceReqs_sendLookup ..).trans (congrArg (· ++ [pid]) hreqs)⟩
end

/-- The Clicker's step, as its parts: what it makes of the packet, what its request does, and what it leaves. -/
theorem execClickerParse_takes (s : State) (p pid : Nat) (s1 : State) (hp : fnStopped s (.pipeline p) = false)
    (ht : fnStopped s (.tables (groupOf p)) = false) (hn : nextHeader s p = some (pid, s1)) (he : isExpired s pid = false) :
    let x := pkt s pid
    let e := x.epoch.getD s.ctl.epoch
    let r := clickerRun s (bankOf s e) x
    let w0 := stageZero r.2.1
    let asks := aLookup w0 && !zeroSuppresses w0 && !bit r.1.word fMalformed
    let c := if bit r.1.word fTrunc then count 0x3030 p 1 s else s
    ∃ t, exec (.clickerParse p) s = .next t ∧ retireQ t p = retireQ s p ++ [pid] ∧ t.path.hdr = s1.path.hdr ∧
      t.path.rehdr = s1.path.rehdr ∧ (pkt t pid).parse = some r.1 ∧ (pkt t pid).acts = r.2.1 ∧ (pkt t pid).zone = r.2.2.1 ∧
      (pkt t pid).key = r.2.2.2 ∧ (pkt t pid).epoch = some e ∧ (pkt t pid).data = x.data ∧ (pkt t pid).metadata = x.metadata ∧
      (bit r.1.word fMalformed = true → r.2.2.2 = none) ∧
      (asks = false → (pkt t pid).flow = x.flow ∧ t.flow = s.flow ∧ t.cnt = c.cnt) ∧
      (asks = true → bit r.1.word fFrag = true →
        (pkt t pid).flow = x.flow ∧ t.flow = s.flow ∧ t.cnt = (count 0x3030 x.pipe 3 c).cnt) ∧
      (asks = true → bit r.1.word fFrag = false → r.2.2.2 = none →
        (pkt t pid).flow = x.flow ∧ t.flow = s.flow ∧ t.cnt = (count 0x3030 x.pipe 2 c).cnt) ∧
      (∀ k, asks = true → bit r.1.word fFrag = false → r.2.2.2 = some k → (pkt t pid).flow = 1 ∧ t.cnt = c.cnt ∧
        (pkt t pid).turn = s.path.turns + 1 ∧ t.path.turns = s.path.turns + 1 ∧
        sliceReqs t (homeSlice s k) = sliceReqs s (homeSlice s k) ++ [pid]) ∧
      (∀ j, j ≠ pid → pkt t j = pkt s j) ∧ t.fwd = s.fwd ∧ t.host = s.host ∧ t.tm = s.tm ∧ t.ports = s.ports := by
  intro x e r w0 asks c
  have hcnt : (takeParse p pid s1).cnt = c.cnt := cnt_takeParse_nextHeader hn
  have hsame : SameConfig c (takeParse p pid s1) := by
    have hcs : SameConfig s c := by
      by_cases hb : bit r.1.word fTrunc = true
      · rw [show c = count 0x3030 p 1 s from if_pos hb, count_eq]; exact ⟨rfl, rfl, rfl⟩
      · rw [show c = s from if_neg hb]; exact ⟨rfl, rfl, rfl⟩
    have h1 := sameConfig_nextHeader hn
    have h2 := takeParse_sameConfig p pid s1
    exact ⟨(h2.keys.trans h1.keys).trans hcs.keys.symm, (h2.active.trans h1.active).trans hcs.active.symm,
      (h2.board.trans h1.board).trans hcs.board.symm⟩
  have hpk : pkt (takeParse p pid s1) pid = parsedPacket s x := pkt_takeParse_nextHeader hn rfl
  have hend : pkt (clickerTakes p pid s1) pid = { parsedPacket s x with
      flow := (pkt (clickerTakes p pid s1) pid).flow, turn := (pkt (clickerTakes p pid s1) pid).turn } := by
    have h := pkt_clickerTakes_same p pid s1
    rw [pkt_nextHeader hn, parsedPacket_nextHeader hn] at h
    exact h
  have hct := clickerTakes_eq p pid s1
  have he1 : isExpired s1 pid = false := by rw [nextHeader_eq hn]; exact he
  refine ⟨clickerTakes p pid s1, execClickerParse_of_next hp ht hn he1, ?_, by rw [hct], by rw [hct], ?_⟩
  · rw [retireQ_clickerTakes, nextHeader_eq hn]; rfl
  refine ⟨congrArg Packet.parse hend, congrArg Packet.acts hend, congrArg Packet.zone hend, congrArg Packet.key hend,
    congrArg Packet.epoch hend, (congrArg Packet.data hend :), (congrArg Packet.metadata hend :),
    clickerRun_key_of_malformed, ?_, ?_, ?_, ?_, ?_, ?_⟩
  · intro ha
    rw [← hcnt]
    exact clickerTakes_silent (y := parsedPacket s x) hn rfl ha
  · intro ha hf
    rw [← hsame.count hcnt]
    exact clickerTakes_counted (y := parsedPacket s x) hn rfl
      ((flowRequest_fragment (by rw [hpk]; exact ha) (by rw [hpk]; exact hf)).trans (by rw [hpk]))
  · intro ha hf hk
    rw [← hsame.count hcnt]
    exact clickerTakes_counted (y := parsedPacket s x) hn rfl
      ((flowRequest_keyless (by rw [hpk]; exact ha) (by rw [hpk]; exact hf) (by rw [hpk]; exact hk)).trans (by rw [hpk]))
  · intro k ha hf hk
    rw [← hcnt]
    exact clickerTakes_sent (y := parsedPacket s x) hn rfl ha hf hk
  · exact fun j hj => (pkt_clickerTakes_other hj s1).trans (pkt_nextHeader hn j)
  · rw [hct, nextHeader_eq hn]
    exact ⟨rfl, rfl, rfl, rfl⟩

theorem execClickerParse_stopped {s : State} {p : Nat}
    (h : fnStopped s (.pipeline p) = true ∨ fnStopped s (.tables (groupOf p)) = true) : exec (.clickerParse p) s = .next s := by
  show execClickerParse p s = _
  rw [execClickerParse, if_pos (by simpa using h)]

/-! ### The end of a packet -/

theorem tsorted_setPkt {s : State} (h : tsorted s.path.pkts = true) (n : Nat) (p : Packet) :
    tsorted (setPkt n p s).path.pkts = true := tsortedFrom_tput h (Nat.zero_le n) p

theorem leaveEpoch_eq (pid : Nat) (s : State) : leaveEpoch pid s = { s with
    ctl := { s.ctl with epochCount := (leaveEpoch pid s).ctl.epochCount },
    path := { s.path with pkts := (leaveEpoch pid s).path.pkts } } := by
  simp only [leaveEpoch]
  split <;> rfl

theorem pkt_leaveEpoch_place (pid : Nat) (s : State) : (pkt (leaveEpoch pid s) pid).place = (pkt s pid).place := by
  simp only [leaveEpoch]
  split
  · rfl
  · rw [pkt_modPkt_same]; rfl

theorem tsorted_leaveEpoch {pid : Nat} {s : State} (h : tsorted s.path.pkts = true) :
    tsorted (leaveEpoch pid s).path.pkts = true := by
  simp only [leaveEpoch]
  split
  · exact h
  · exact tsorted_setPkt (s := setCtl s _) h _ _

theorem settle_eq (pid : Nat) (s : State) : settle pid s = { s with
    ctl := { s.ctl with epochCount := (settle pid s).ctl.epochCount, expired := (settle pid s).ctl.expired },
    path := { s.path with pkts := (settle pid s).path.pkts } } := by
  simp only [settle]
  split
  · split
    · rw [leaveEpoch_eq]; rfl
    · rw [leaveEpoch_eq]
  · rfl

/-- What holds no place keeps none as its row ends. -/
theorem pkt_settle_place {pid : Nat} {s : State} (hs : tsorted s.path.pkts = true) (h : (pkt s pid).place = 3) :
    (pkt (settle pid s) pid).place = 3 := by
  simp only [settle]
  split
  · split
    · have hd := tfind_tdel_same (tsorted_leaveEpoch (pid := pid) hs) pid
      show (tget noPacket (tdel (leaveEpoch pid s).path.pkts pid) pid).place = 3
      rw [tget, hd]; rfl
    · rw [pkt_leaveEpoch_place, h]
  · exact h

/-- A dropped packet takes its row, its epoch's count and its mark of an expired epoch with it, and nothing else. -/
theorem dropPkt_eq (pid : Nat) (s : State) : dropPkt pid s = { s with
    ctl := { s.ctl with epochCount := (dropPkt pid s).ctl.epochCount, expired := (dropPkt pid s).ctl.expired },
    path := { s.path with pkts := (dropPkt pid s).path.pkts } } := by
  simp only [dropPkt, freeCells]
  rw [settle_eq]
  rfl

/-- A dropped packet has left the device (8.1). -/
theorem pkt_dropPkt_place {s : State} (hs : tsorted s.path.pkts = true) (pid : Nat) : (pkt (dropPkt pid s) pid).place = 3 :=
  pkt_settle_place (tsorted_setPkt hs _ _) (by rw [pkt_modPkt_same])

/-! ### Recirculation -/

/-- A packet as its next pass begins: with nothing of its last one. -/
def nextPass (x : Packet) : Packet := { x with
  pass := x.pass + 1, key := none, acts := [], parse := none, flow := 0, answer := none, colour := 0, meter := 0,
  lb := none, release := none, fall := none, failRing := 0, turn := 0 }

/-- The head of a recirculation path has gone back to its Clicker. -/
def reenter (p pid : Nat) (rest : List Nat) (s : State) : State :=
  let t := modPkt pid nextPass (setRecirc s p rest)
  setReHdr t p (reHdr t p ++ [pid])

/-- The head of a recirculation path has been dropped, counted. -/
def recircDrop (p pid : Nat) (rest : List Nat) (s : State) : State :=
  dropPkt pid (raiseLimited 0x0303 p (fun n => [p, n]) (count 0x3030 p 5 (setRecirc s p rest)))

theorem reenter_parts (p pid : Nat) (rest : List Nat) (s : State) :
    reHdr (reenter p pid rest s) p = reHdr s p ++ [pid] ∧ (reenter p pid rest s).path.recirc = tset [] s.path.recirc p rest ∧
      pkt (reenter p pid rest s) pid = nextPass (pkt s pid) ∧ (∀ j, j ≠ pid → pkt (reenter p pid rest s) j = pkt s j) ∧
      (reenter p pid rest s).cnt = s.cnt :=
  ⟨tget_tset_ne_default (by simp) _ _, rfl, pkt_modPkt_same pid nextPass (setRecirc s p rest),
    fun _ hj => pkt_modPkt_other hj nextPass (setRecirc s p rest), rfl⟩

theorem recircDrop_parts {p : Nat} (pid : Nat) (rest : List Nat) {s : State} (hs : tsorted s.path.pkts = true) (hp : p < 16) :
    (pkt (recircDrop p pid rest s) pid).place = 3 ∧ (recircDrop p pid rest s).path.recirc = tset [] s.path.recirc p rest ∧
      (recircDrop p pid rest s).path.rehdr = s.path.rehdr ∧
      (ctrGet s (oa 0x3030 p 5) + 1 < 2 ^ 48 →
        ctrGet (recircDrop p pid rest s) (oa 0x3030 p 5) = ctrGet s (oa 0x3030 p 5) + 1) := by
  refine ⟨pkt_dropPkt_place (by rw [raiseLimited_eq, count_eq]; exact hs) pid, ?_, ?_, fun hlt => ?_⟩
  · rw [recircDrop, dropPkt_eq, raiseLimited_eq, count_eq]; rfl
  · rw [recircDrop, dropPkt_eq, raiseLimited_eq, count_eq]; rfl
  · have hb : oa 0x3030 p 5 < 0x6812 * 2 ^ 20 := by simp only [oa]; omega
    calc ctrGet (recircDrop p pid rest s) (oa 0x3030 p 5)
      _ = ctrGet (raiseLimited 0x0303 p (fun n => [p, n]) (count 0x3030 p 5 (setRecirc s p rest))) (oa 0x3030 p 5) :=
          ctrGet_of_cnt (by rw [recircDrop, dropPkt_eq]) _
      _ = ctrGet (count 0x3030 p 5 (setRecirc s p rest)) (oa 0x3030 p 5) := ctrGet_raiseLimited hb ..
      _ = ctrGet s (oa 0x3030 p 5) + 1 := ctrGet_count_same hlt

section
variable {s : State} {p pid : Nat} {rest : List Nat} (hq : recircQ s p = pid :: rest) (he : (pkt s pid).ended = true)
include hq he

/-- A packet below its fifth pass re-enters its Clicker (R21, R101). -/
theorem execRecirculate_enters (hpass : (pkt s pid).pass < 3) : exec (.recirculate p false) s = .next (reenter p pid rest s) := by
  have hno : ¬ (3 ≤ (pkt s pid).pass ∨ false = true) := by simp; omega
  show execRecirculate p false s = _
  simp only [execRecirculate, hq, he, Bool.not_true]
  exact (if_neg Bool.false_ne_true).trans (if_neg hno)

/-- A fifth pass or a full path drops the packet, counted (R22, R101). -/
theorem execRecirculate_drops {full : Bool} (h : 3 ≤ (pkt s pid).pass ∨ full = true) :
    exec (.recirculate p full) s = .next (recircDrop p pid rest s) := by
  show execRecirculate p full s = _
  simp only [execRecirculate, hq, he, Bool.not_true]
  exact (if_neg Bool.false_ne_true).trans (if_pos h)
end

/-! ### Step 6 -/

theorem unpark_of_parked_nil {s : State} (h : s.path.parked = []) : unpark s = s := by rw [unpark, h]; rfl

theorem parsedBit_eq (x : Packet) (f : Nat) :
    (x.parse.map fun w => bit w.word f).getD false = bit ((x.parse.map (·.word)).getD 0) f := by
  cases x.parse with
  | none => simp [bit]
  | some w => rfl

/-- A packet with the metadata that its stages set. -/
def withMeta (x : Packet) : Packet := { x with metadata := mergedMeta x }

@[simp] theorem pkt_takeMeta_same (pid : Nat) (s : State) : pkt (takeMeta pid s) pid = withMeta (pkt s pid) := pkt_modPkt_same ..

@[simp] theorem merged_withMeta (x : Packet) : merged (withMeta x) = merged x := rfl

/-- What a packet without record and colour takes to the editor when its stages recirculate it. -/
def recircEntry (pid : Nat) (x : Packet) : QEntry :=
  let m := merged x
  { pid := pid, edit := editOf x, cls := m.cls, nh := if m.nhKind = 1 then some m.nhValue else none, ecn := false,
    dscp := none, cut := false, ptp := 0 }

section
variable {pid : Nat} {s : State} (he : isExpired s pid = false) (hb : (pkt s pid).barred = false)
include he hb

theorem notStopped_takeMeta : ¬ (isExpired (takeMeta pid s) pid = true ∨ (withMeta (pkt s pid)).barred = true) := by
  have h1 : isExpired (takeMeta pid s) pid = false := he
  have h2 : (withMeta (pkt s pid)).barred = false := hb
  rw [h1, h2]
  simp

/-- A malformed packet without a trap that names MALFORMED is dropped as one (R82). -/
theorem stepSix_malformed (hm : bit (((pkt s pid).parse.map (·.word)).getD 0) fMalformed = true)
    (ht : ((merged (pkt s pid)).trap && (merged (pkt s pid)).trapMalformed) = false) :
    stepSix pid s = dropMalformed pid (takeMeta pid s) := by
  have hm' : ((withMeta (pkt s pid)).parse.map fun w => bit w.word fMalformed).getD false = true := (parsedBit_eq ..).trans hm
  rw [stepSix]
  simp only [pkt_takeMeta_same, merged_withMeta, ht]
  exact (if_neg (notStopped_takeMeta he hb)).trans (if_pos hm')

variable (hm : bit (((pkt s pid).parse.map (·.word)).getD 0) fMalformed = false) (ha : (pkt s pid).answer = none)
  (hmir : (merged (pkt s pid)).mirror = 0) (hc : (pkt s pid).colour = 0)
include hm ha hmir hc

/-- Step 6 of a packet without record, colour and mirror: its trap, its verdict, its flow answer, its recirculation,
then its output. -/
theorem stepSix_plain : stepSix pid s =
    (let m := merged (pkt s pid)
     let u := takeMeta pid s
     if m.trap = true then dropPkt pid (toRing m.trapRing 1 pid 0 u)
     else if m.verdict = 2 ∨ (pkt s pid).flow = 5 then dropPkt pid u
     else if (pkt s pid).flow = 7 then dropPkt pid (toRing (pkt s pid).failRing 4 pid 0 u)
     else if m.recirc = true ∧ (pkt s pid).release.isNone = true then
      pushJob (pkt s pid).pipe (mkJob u (recircEntry pid (pkt s pid)) 1024 0) u
     else route pid u) := by
  have hm' : ¬ ((withMeta (pkt s pid)).parse.map fun w => bit w.word fMalformed).getD false = true :=
    Bool.not_eq_true _ ▸ (parsedBit_eq ..).trans hm
  have hcount : countColour pid (takeMeta pid s) = takeMeta pid s := by
    rw [countColour]
    exact if_pos (by rw [pkt_takeMeta_same]; exact hc.trans_lt (by omega))
  have hnomir : ∀ t, mirror 0 pid t = t := fun t => by rw [mirror]; exact if_pos (Or.inl rfl)
  have hcol : colourAction (takeMeta pid s) (withMeta (pkt s pid)) = (0, 0) := by
    have h0 : (withMeta (pkt s pid)).colour = 0 := hc
    simp only [colourAction, h0]; rfl
  have ha' : (withMeta (pkt s pid)).answer = none := ha
  rw [stepSix]
  simp only [hcount, pkt_takeMeta_same, merged_withMeta, ha', hmir, hnomir, colourDscp, hcol]
  exact (if_neg (notStopped_takeMeta he hb)).trans (if_neg hm')
end

/-! ### What the ends of step 6 leave -/

/-- A frame that goes to a ring changes its delivery queue, or counts. -/
theorem rxEnqueue_eq (r : Nat) (f : RxFrame) (s : State) : rxEnqueue r f s = { s with
    host := (rxEnqueue r f s).host, cnt := (rxEnqueue r f s).cnt } := by
  simp only [rxEnqueue]
  split
  · rfl
  · split <;> rfl

theorem toRing_path (r source pid trunc : Nat) (s : State) : (toRing r source pid trunc s).path = s.path := by
  rw [toRing, rxEnqueue_eq]

theorem parked_xbarPut (p q : Nat) (x : QEntry) (s : State) : (xbarPut p q x s).path.parked = s.path.parked := by
  simp only [xbarPut]
  split
  · rw [raiseLimited_eq, dropPkt_eq, count_eq]
  · rfl

/-- The two counts of a malformed packet: all of its pipeline, and those of its cause (R82). -/
def countMalformed (pipe c : Nat) (s : State) : State := count 0x3030 pipe (0x10 + c) (count 0x3030 pipe 0 s)

theorem ctrGet_countMalformed {pipe c k : Nat} (hp : pipe < 16) (hc : c < 16) (hk : k ∈ [0, 0x10 + c]) {s : State}
    (hlt : ctrGet s (oa 0x3030 pipe k) + 1 < 2 ^ 48) :
    ctrGet (countMalformed pipe c s) (oa 0x3030 pipe k) = ctrGet s (oa 0x3030 pipe k) + 1 := by
  have hne : oa 0x3030 pipe 0 ≠ oa 0x3030 pipe (0x10 + c) := by simp only [oa]; omega
  have hlow : ∀ u < 0x20, oa 0x3030 pipe u < 0x7880 * 2 ^ 20 := fun u hu => by simp only [oa]; omega
  rcases List.mem_cons.mp hk with rfl | hk
  · exact (ctrGet_count_other hne (hlow _ (by omega)) _).trans (ctrGet_count_same hlt)
  · obtain rfl := List.mem_singleton.mp hk
    have h0 := ctrGet_count_other hne.symm (hlow (0x10 + c) (by omega)) s
    rw [countMalformed, ctrGet_count_same (by rw [h0]; exact hlt), h0]

/-- A malformed packet is dropped once it is counted and noted, and an event may have told of it (R82, R104). -/
theorem dropMalformed_eq (pid : Nat) (s : State) : ∃ u, dropMalformed pid s = dropPkt pid u ∧ u.path.pkts = s.path.pkts ∧
    u.path.retire = s.path.retire ∧ u.path.parked = s.path.parked ∧
    ∀ b < 0x6812 * 2 ^ 20, ctrGet u b =
      ctrGet (countMalformed (pkt s pid).pipe (((pkt s pid).parse.map fun w => bf w.word 37 34).getD 0) s) b := by
  by_cases hl : cfgN s 0x3005 0 0 ≤ ((tget [] s.path.malformed (pkt s pid).pipe).filter
      (fun r => decide (raw s < r.1 + cycSecond)) ++
      [(raw s, ((pkt s pid).parse.map fun w => bf w.word 37 34).getD 0)]).length
  · refine ⟨_, congrArg (dropPkt pid) (if_pos hl), ?_, ?_, ?_, fun b hb => (ctrGet_raiseLimited hb ..).trans rfl⟩ <;>
      rw [raiseLimited_eq, count_eq, count_eq] <;> rfl
  · refine ⟨_, congrArg (dropPkt pid) (if_neg hl), ?_, ?_, ?_, fun b hb => rfl⟩ <;> rw [count_eq, count_eq] <;> rfl

theorem parsedField_eq (x : Packet) (hi lo : Nat) :
    (x.parse.map fun w => bf w.word hi lo).getD 0 = bf ((x.parse.map (·.word)).getD 0) hi lo := by
  cases x.parse with
  | none => simp [bf, fld]
  | some w => rfl

/-! ### Retirement -/

section
variable {s : State} {p pid : Nat} {rest : List Nat} (hq : retireQ s p = pid :: rest) (he : isExpired s pid = false)
include hq he

theorem execClickerRetire_waiting (h : (pkt s pid).flow = 1 ∨ (pkt s pid).colour = 1) : exec (.clickerRetire p) s = .next s := by
  show execClickerRetire p s = _
  simp only [execClickerRetire, hq, he]
  exact (if_neg Bool.false_ne_true).trans (if_pos h)

theorem execClickerRetire_held (h3 : (pkt s pid).flow = 3) (hc : (pkt s pid).colour ≠ 1) :
    exec (.clickerRetire p) s = .next (setRetire s p rest) := by
  show execClickerRetire p s = _
  simp only [execClickerRetire, hq, he]
  exact (if_neg Bool.false_ne_true).trans ((if_neg (by omega)).trans (if_pos h3))

variable (hf : (pkt s pid).flow ∉ [1, 3]) (hc : (pkt s pid).colour ≠ 1)
include hf hc

/-- A packet whose answers are in asks its rule meter, where it has one still to ask, and goes to step 6 otherwise. -/
theorem execClickerRetire_answered : exec (.clickerRetire p) s =
    match ruleMeter (pkt s pid) with
    | some m =>
      if bit (((pkt s pid).parse.map (·.word)).getD 0) fMalformed then .next (unpark (stepSix pid (setRetire s p rest)))
      else .next (meterAsk pid m s)
    | none => if retireWaits s p then .next s else .next (unpark (stepSix pid (setRetire s p rest))) := by
  have h1 : (pkt s pid).flow ≠ 1 := fun h => hf (by simp [h])
  have h3 : (pkt s pid).flow ≠ 3 := fun h => hf (by simp [h])
  show execClickerRetire p s = _
  simp only [execClickerRetire, hq, he]
  exact (if_neg Bool.false_ne_true).trans ((if_neg (by omega)).trans (if_neg h3))

theorem execClickerRetire_behind (hr : ruleMeter (pkt s pid) = none) (hw : retireWaits s p = true) :
    exec (.clickerRetire p) s = .next s := by
  rw [execClickerRetire_answered hq he hf hc, hr]
  exact if_pos hw

theorem execClickerRetire_goes (hr : ruleMeter (pkt s pid) = none) (hw : retireWaits s p = false) :
    exec (.clickerRetire p) s = .next (unpark (stepSix pid (setRetire s p rest))) := by
  rw [execClickerRetire_answered hq he hf hc, hr]
  exact if_neg (hw ▸ Bool.false_ne_true)

theorem execClickerRetire_asks {m : Nat} (hr : ruleMeter (pkt s pid) = some m)
    (hm : bit (((pkt s pid).parse.map (·.word)).getD 0) fMalformed = false) :
    exec (.clickerRetire p) s = .next (meterAsk pid m s) := by
  rw [execClickerRetire_answered hq he hf hc, hr]
  exact if_neg (hm ▸ Bool.false_ne_true)

/-- A malformed packet asks no meter. -/
theorem execClickerRetire_malformed (hw : retireWaits s p = false)
    (hm : bit (((pkt s pid).parse.map (·.word)).getD 0) fMalformed = true) :
    exec (.clickerRetire p) s = .next (unpark (stepSix pid (setRetire s p rest))) := by
  rw [execClickerRetire_answered hq he hf hc]
  cases ruleMeter (pkt s pid) with
  | none => exact if_neg (hw ▸ Bool.false_ne_true)
  | some m => exact if_pos hm
end

theorem pkt_meterAsk_same (pid m : Nat) (s : State) :
    pkt (meterAsk pid m s) pid = { pkt s pid with colour := 1, meter := m } :=
  pkt_modPkt_same pid (fun x => { x with colour := 1, meter := m }) s

/-- The packet, retired into step 6: without its place in the stage, and with its merged metadata. -/
def retired (p pid : Nat) (rest : List Nat) (s : State) : State := takeMeta pid (setRetire s p rest)

section
variable {s : State} {p pid : Nat} {rest : List Nat}

theorem pkt_retired : pkt (retired p pid rest s) pid = withMeta (pkt s pid) := pkt_takeMeta_same ..

theorem tsorted_retired (hs : tsorted s.path.pkts = true) : tsorted (retired p pid rest s).path.pkts = true := 
  tsorted_setPkt (s := setRetire s p rest) hs _ _

/-- A malformed packet leaves the device, counted with its cause (R82). -/
theorem dropMalformed_retired (hs : tsorted s.path.pkts = true) (hp : (pkt s pid).pipe < 16) :
    (pkt (dropMalformed pid (retired p pid rest s)) pid).place = 3 ∧
      (dropMalformed pid (retired p pid rest s)).path.retire = (setRetire s p rest).path.retire ∧
      (dropMalformed pid (retired p pid rest s)).path.parked = s.path.parked ∧
      ∀ k ∈ [0, 0x10 + bf (((pkt s pid).parse.map (·.word)).getD 0) 37 34], ctrGet s (oa 0x3030 (pkt s pid).pipe k) + 1 < 2 ^ 48 →
        ctrGet (dropMalformed pid (retired p pid rest s)) (oa 0x3030 (pkt s pid).pipe k) =
          ctrGet s (oa 0x3030 (pkt s pid).pipe k) + 1 := by
  obtain ⟨u, hu, hpkts, hretire, hparked, hcnt⟩ := dropMalformed_eq pid (retired p pid rest s)
  rw [hu]
  refine ⟨pkt_dropPkt_place (by rw [hpkts]; exact tsorted_retired hs) pid, ?_, ?_, fun k hk hlt => ?_⟩
  · rw [dropPkt_eq]; exact hretire
  · rw [dropPkt_eq]; exact hparked
  · rw [pkt_retired, parsedField_eq] at hcnt
    have hc : bf (((pkt s pid).parse.map (·.word)).getD 0) 37 34 < 16 := Nat.mod_lt _ (by omega)
    have hlow : oa 0x3030 (pkt s pid).pipe k < 0x6812 * 2 ^ 20 := by
      simp only [List.mem_cons, List.not_mem_nil, or_false] at hk
      simp only [oa]; omega
    calc ctrGet (dropPkt pid u) (oa 0x3030 (pkt s pid).pipe k)
      _ = ctrGet u (oa 0x3030 (pkt s pid).pipe k) := ctrGet_of_cnt (by rw [dropPkt_eq]) _
      _ = ctrGet (countMalformed (pkt s pid).pipe (bf (((pkt s pid).parse.map (·.word)).getD 0) 37 34) (retired p pid rest s))
            (oa 0x3030 (pkt s pid).pipe k) := hcnt _ hlow
      _ = ctrGet s (oa 0x3030 (pkt s pid).pipe k) + 1 := ctrGet_countMalformed hp hc hk hlt

/-- A dropped packet of step 6 leaves the device. -/
theorem dropPkt_retired {t : State} (ht : t.path = (retired p pid rest s).path) (hs : tsorted s.path.pkts = true) :
    (pkt (dropPkt pid t) pid).place = 3 ∧ (dropPkt pid t).path.parked = s.path.parked ∧ (dropPkt pid t).host = t.host ∧
      (dropPkt pid t).cnt = t.cnt ∧ (dropPkt pid t).tm = t.tm ∧ (dropPkt pid t).path.edits = s.path.edits := by
  refine ⟨pkt_dropPkt_place (by rw [ht]; exact tsorted_retired hs) pid, ?_⟩
  rw [dropPkt_eq]
  exact ⟨(congrArg Path.parked ht :), rfl, rfl, rfl, (congrArg Path.edits ht :)⟩

/-- A port that the stages name is the output of a packet without record, release and fall-back (R107). -/
theorem route_port (hr : (pkt s pid).release = none) (hf : (pkt s pid).fall = none) (ha : (pkt s pid).answer = none)
    (hk : (merged (pkt s pid)).nhKind = 2) (hc : (pkt s pid).colour = 0) :
    route pid s = xbarPut (pkt s pid).pipe ((merged (pkt s pid)).nhValue % 1024)
      { pid := pid, edit := (merged (pkt s pid)).edit, cls := (merged (pkt s pid)).cls, nh := none, ecn := false, dscp := none,
        cut := false, ptp := 0 } s := by
  have hout : chooseOutput pid s = (.port ((merged (pkt s pid)).nhValue % 1024) none, s) := by
    simp only [chooseOutput, hr, hf, ha, hk]
    rfl
  have hd : colourDscp s (pkt s pid) = none := by
    simp only [colourDscp, colourAction, hc]
    rfl
  simp only [route, hout, hd, editOf, hr, ha]
end
section
variable {s : State} {p pid : Nat} {rest : List Nat}

theorem pushJob_retired (q : Nat) (j : EditJob) : editJobs (pushJob q j (retired p pid rest s)) q = editJobs s q ++ [j] :=
  tget_tset_ne_default (by simp) _ _

/-- The job of a recirculated packet: to the recirculation path, with its frame and its merged metadata (R101). -/
theorem mkJob_retired (hr : (pkt s pid).release = none) (ha : (pkt s pid).answer = none) :
    let j := mkJob (retired p pid rest s) (recircEntry pid (pkt s pid)) 1024 0
    j.pid = pid ∧ j.out = 1024 ∧ j.prog = (merged (pkt s pid)).edit ∧ j.frame = (pkt s pid).data ∧
      j.metadata = mergedMeta (pkt s pid) := by
  have hx : pkt (retired p pid rest s) pid = withMeta (pkt s pid) := pkt_retired
  refine ⟨rfl, rfl, ?_, ?_, ?_⟩
  · show editOf (pkt s pid) = _
    simp only [editOf, hr, ha]
  · exact (congrArg Packet.data hx :)
  · exact (congrArg Packet.metadata hx :)
end

/-- A well-formed packet at step 6 that no record, colour, mirror or expiry concerns, and that no released packet waits for. -/
structure PlainAtSix (s : State) (pid : Nat) : Prop where
  parked : s.path.parked = []
  live : isExpired s pid = false
  open_ : (pkt s pid).barred = false
  formed : bit (((pkt s pid).parse.map (·.word)).getD 0) fMalformed = false
  answer : (pkt s pid).answer = none
  mirror : (merged (pkt s pid)).mirror = 0
  colour : (pkt s pid).colour = 0

section
variable {s : State} {p pid : Nat} {rest : List Nat} (h : PlainAtSix s pid)
include h

/-- Its step 6 from the retire stage is that of `stepSix_plain`. -/
theorem PlainAtSix.stepSix_eq : stepSix pid (setRetire s p rest) =
    if (merged (pkt s pid)).trap = true then
      dropPkt pid (toRing (merged (pkt s pid)).trapRing 1 pid 0 (retired p pid rest s))
    else if (merged (pkt s pid)).verdict = 2 ∨ (pkt s pid).flow = 5 then dropPkt pid (retired p pid rest s)
    else if (pkt s pid).flow = 7 then dropPkt pid (toRing (pkt s pid).failRing 4 pid 0 (retired p pid rest s))
    else if (merged (pkt s pid)).recirc = true ∧ (pkt s pid).release.isNone = true then
      pushJob (pkt s pid).pipe (mkJob (retired p pid rest s) (recircEntry pid (pkt s pid)) 1024 0) (retired p pid rest s)
    else route pid (retired p pid rest s) :=
  stepSix_plain (s := setRetire s p rest) h.live h.open_ h.formed h.answer h.mirror h.colour

/-- A trap diverts the frame to its ring (R94). -/
theorem PlainAtSix.unpark_trap (hs : tsorted s.path.pkts = true) (ht : (merged (pkt s pid)).trap = true) :
    unpark (stepSix pid (setRetire s p rest)) =
      dropPkt pid (toRing (merged (pkt s pid)).trapRing 1 pid 0 (retired p pid rest s)) := by
  obtain ⟨-, hparked, -⟩ := dropPkt_retired (p := p) (rest := rest) (toRing_path (merged (pkt s pid)).trapRing 1 pid 0 _) hs
  rw [h.stepSix_eq, if_pos ht, unpark_of_parked_nil (hparked.trans h.parked)]

variable (ht : (merged (pkt s pid)).trap = false)
include ht

/-- A drop verdict, or a flow answer that drops, ends the frame. -/
theorem PlainAtSix.unpark_drop (hs : tsorted s.path.pkts = true) (hv : (merged (pkt s pid)).verdict = 2 ∨ (pkt s pid).flow = 5) :
    unpark (stepSix pid (setRetire s p rest)) = dropPkt pid (retired p pid rest s) := by
  obtain ⟨-, hparked, -⟩ := dropPkt_retired (p := p) (rest := rest) (s := s) (pid := pid) rfl hs
  rw [h.stepSix_eq, if_neg (ht ▸ Bool.false_ne_true), if_pos hv, unpark_of_parked_nil (hparked.trans h.parked)]

variable (hv : (merged (pkt s pid)).verdict ≠ 2) (hf : (pkt s pid).flow ∉ [5, 7])
include hv hf

/-- What no trap, verdict or flow answer stops is recirculated, or routed. -/
theorem PlainAtSix.stepSix_goes : stepSix pid (setRetire s p rest) =
    if (merged (pkt s pid)).recirc = true ∧ (pkt s pid).release.isNone = true then
      pushJob (pkt s pid).pipe (mkJob (retired p pid rest s) (recircEntry pid (pkt s pid)) 1024 0) (retired p pid rest s)
    else route pid (retired p pid rest s) := by
  have h5 : (pkt s pid).flow ≠ 5 := fun h => hf (by simp [h])
  have h7 : (pkt s pid).flow ≠ 7 := fun h => hf (by simp [h])
  rw [h.stepSix_eq, if_neg (ht ▸ Bool.false_ne_true), if_neg (not_or.mpr ⟨hv, h5⟩), if_neg h7]

variable (hr : (pkt s pid).release = none)
include hr

/-- A port action sends the packet to the crossbar with its merged edit program and class (R95, R107). -/
theorem PlainAtSix.unpark_port (hrec : (merged (pkt s pid)).recirc = false) (hfall : (pkt s pid).fall = none)
    (hk : (merged (pkt s pid)).nhKind = 2) :
    unpark (stepSix pid (setRetire s p rest)) = xbarPut (pkt s pid).pipe ((merged (pkt s pid)).nhValue % 1024)
      { pid := pid, edit := (merged (pkt s pid)).edit, cls := (merged (pkt s pid)).cls, nh := none, ecn := false, dscp := none,
        cut := false, ptp := 0 } (retired p pid rest s) := by
  have hx : pkt (retired p pid rest s) pid = withMeta (pkt s pid) := pkt_retired
  have hroute := route_port (s := retired p pid rest s) (pid := pid) (by rw [hx]; exact hr) (by rw [hx]; exact hfall)
    (by rw [hx]; exact h.answer) (by rw [hx]; exact hk) (by rw [hx]; exact h.colour)
  rw [hx] at hroute
  rw [h.stepSix_goes ht hv hf, if_neg (by rw [hrec]; simp), hroute]
  exact unpark_of_parked_nil ((parked_xbarPut ..).trans h.parked)

/-- recirc sends the packet to its editor (R101). -/
theorem PlainAtSix.unpark_recirc (hrec : (merged (pkt s pid)).recirc = true) :
    unpark (stepSix pid (setRetire s p rest)) =
      pushJob (pkt s pid).pipe (mkJob (retired p pid rest s) (recircEntry pid (pkt s pid)) 1024 0) (retired p pid rest s) := by
  rw [h.stepSix_goes ht hv hf, if_pos ⟨hrec, by rw [hr]; rfl⟩]
  exact unpark_of_parked_nil h.parked
end

/-- Settles O15: the parse word through `parseFrame_word`, the Clicker through `execClickerParse_takes`, the retire stage
through the cases of step 6, and the recirculation path through its two ends. -/
theorem parseAndRetire : Obligations.ParseAndRetire := by
  unfold Obligations.ParseAndRetire
  refine ⟨parseFrame_word, execClickerParse_takes,
    fun s p a b l u hf hr => ⟨execClickerParse_stopped, nextHeader_both hf hr⟩, ?_, ?_⟩
  · intro s p pid rest hq he hs x m s1 w
    refine ⟨execClickerRetire_waiting hq he, execClickerRetire_held hq he, fun hf hc hr =>
      ⟨execClickerRetire_behind hq he hf hc hr, execClickerRetire_goes hq he hf hc hr⟩, ?_⟩
    intro hf hc hb hpark hw
    refine ⟨fun k hm hr => ?asks, fun hm ht hp => ?malformed, fun hm hr ha hmir hcol => ?answered⟩
    case asks =>
      exact ⟨_, execClickerRetire_asks hq he hf hc hr hm, congrArg Packet.colour (pkt_meterAsk_same pid k s),
        congrArg Packet.meter (pkt_meterAsk_same pid k s), rfl, rfl⟩
    case malformed =>
      obtain ⟨hplace, hretire, hparked, hcnt⟩ := dropMalformed_retired (p := p) (rest := rest) hs hp
      have h6 : stepSix pid s1 = dropMalformed pid (retired p pid rest s) := stepSix_malformed (s := s1) he hb hm ht
      have hx := execClickerRetire_malformed hq he hf hc hw hm
      rw [h6, unpark_of_parked_nil (hparked.trans hpark)] at hx
      exact ⟨_, hx, hplace, hretire, hcnt⟩
    case answered =>
      have hx := execClickerRetire_goes hq he hf hc hr hw
      have h : PlainAtSix s pid := ⟨hpark, he, hb, hm, ha, hmir, hcol⟩
      refine ⟨fun ht => ?trapped, fun ht hv => ?dropped, fun ht hv hfl hrec hrel hfall hk => ?port,
        fun ht hv hfl hrec hrel => ?recirculated⟩
      case trapped =>
        obtain ⟨hplace, -, hhost, -⟩ := dropPkt_retired (p := p) (rest := rest) (toRing_path m.trapRing 1 pid 0 _) hs
        exact ⟨_, hx.trans (congrArg _ (h.unpark_trap hs ht)), hplace, hhost⟩
      case dropped =>
        obtain ⟨hplace, -, hleft⟩ := dropPkt_retired (p := p) (rest := rest) (s := s) (pid := pid) rfl hs
        exact ⟨_, hx.trans (congrArg _ (h.unpark_drop ht hs hv)), hplace, hleft⟩
      case port => exact hx.trans (congrArg _ (h.unpark_port ht hv hfl hrel hrec hfall hk))
      case recirculated =>
        obtain ⟨hpid, hout, hprog, hframe, hmeta⟩ := mkJob_retired (p := p) (rest := rest) hrel ha
        exact ⟨_, _, hx.trans (congrArg _ (h.unpark_recirc ht hv hfl hrel hrec)), pushJob_retired .., hpid, hout, hprog, hframe,
          hmeta, rfl⟩
  · intro s p pid rest full hq he hs x
    refine ⟨fun hpass hfull => ?_, fun h hp => ⟨_, execRecirculate_drops hq he h, recircDrop_parts pid rest hs hp⟩⟩
    subst hfull
    obtain ⟨hre, hrecirc, hpkt, hother, hcnt⟩ := reenter_parts p pid rest s
    refine ⟨_, execRecirculate_enters hq he hpass, hre, hrecirc, ?_⟩
    rw [hpkt]
    exact ⟨rfl, rfl, rfl, rfl, rfl, rfl, rfl, rfl, rfl, rfl, hother, hcnt⟩

end Sys2Proof.Machine
end

section
namespace Sys2Proof.Machine

/-! PROOFS. Messages, sessions, the pattern slots, the commit, long operations and the boot (2.2 to 2.9, 16.1): the facts
they rest on, and the settled statements. -/

/-! ### What an event, a detection and an answer leave unchanged -/

@[simp] theorem raise_ctl (c : Nat) (ps : List Nat) (s : State) (f : Bool) : (raise c ps s f).ctl = s.ctl := by rw [raise_eq]
@[simp] theorem raise_safe (c : Nat) (ps : List Nat) (s : State) (f : Bool) : (raise c ps s f).safe = s.safe := by rw [raise_eq]

theorem sessionEvent_eq (x : Session) (n : Nat) (s : State) : sessionEvent x n s = { s with
    host := (sessionEvent x n s).host, cnt := { s.cnt with ctr := (sessionEvent x n s).cnt.ctr } } := raise_eq _ _ _ _

@[simp] theorem sessionEvent_ctl (x : Session) (n : Nat) (s : State) : (sessionEvent x n s).ctl = s.ctl := raise_ctl ..

/-- An event that is reported and counted changes neither the slots nor the data plane. -/
theorem foldl_sessionEvent_eq (l : List (Nat × Session)) (s : State) :
    l.foldl (fun t r => sessionEvent r.2 0 t) s = { s with
      host := (l.foldl (fun t r => sessionEvent r.2 0 t) s).host, cnt := (l.foldl (fun t r => sessionEvent r.2 0 t) s).cnt } := by
  induction l generalizing s with
  | nil => rfl
  | cons r l ih =>
    simp only [List.foldl_cons]
    rw [ih, sessionEvent_eq]

/-! ### A reset of the Cobbler (R73, R462) -/

/-- Closing the sessions forgets what is kept for requesters and reports; nothing else changes. -/
theorem closeSessions_eq (s : State) : closeSessions s = { s with
    ctl := { s.ctl with sessions := [], requesters := [] }, host := (closeSessions s).host, cnt := (closeSessions s).cnt } := by
  simp only [closeSessions]
  rw [foldl_sessionEvent_eq]
  rfl

theorem failOps_of_ops_nil {s : State} (h : s.ctl.ops = []) : failOps s = s := by simp [failOps, unfinished, h]

/-- What a reset of the Cobbler makes of a commit in progress: it is dropped, or nobody waits for it any more. -/
def orphaned (c : Commit) : Option Commit :=
  if c.begun then some { c with op := none, asker := { who := 9, msg := [] } } else none

/-- The Cobbler as it goes down, before it answers and reports. -/
def firmwareDown (cause : Nat) (s : State) : State :=
  let s1 := setSafe (fresh 32 s).2 { s.safe with
    cobblerReset := true, cobblerReady := false, cobblerSince := raw s, cobblerCause := cause }
  match s1.ctl.commit with
  | some c => if c.begun then setCtl s1 { s1.ctl with commit := some { c with op := none, asker := { who := 9, msg := [] } } }
              else setCtl s1 { s1.ctl with commit := none }
  | none => s1

theorem firmwareDown_eq (cause : Nat) (s : State) : firmwareDown cause s = { s with
    free := s.free + 1
    safe := { s.safe with cobblerReset := true, cobblerReady := false, cobblerSince := raw s, cobblerCause := cause }
    ctl := { s.ctl with commit := s.ctl.commit.bind orphaned } } := by
  simp only [firmwareDown, setSafe_ctl, fresh_state]
  split
  · rename_i c hc
    rw [hc]
    simp only [Option.bind_some, orphaned]
    split <;> rfl
  · rename_i hc
    rw [hc, Option.bind_none, ← hc]
    rfl

/-- The request in the mailbox answered FAULTED. -/
def answerFaulted (s : State) : State :=
  if s.ctl.mbx.busy then answerTo 0 (mbxMsg s) (refuse stFaulted 0x0E14) s else s

theorem answerFaulted_eq (s : State) : answerFaulted s = { s with
    host := (answerFaulted s).host, ctl := { s.ctl with mbx := (answerFaulted s).ctl.mbx } } := by
  simp only [answerFaulted, answerTo, if_true]
  split
  · rw [mbxFinish_eq]
  · rfl

theorem cobblerFail_of_ops_nil {s : State} (hops : s.ctl.ops = []) (cause : Nat) : cobblerFail cause s =
    detect 6 0x0E14 [cause, (fresh 32 s).1.toNat % 6] (closeSessions (answerFaulted (firmwareDown cause s))) := by
  have hdown : failOps (firmwareDown cause s) = firmwareDown cause s :=
    failOps_of_ops_nil (by rw [firmwareDown_eq]; exact hops)
  exact congrArg (fun u => detect 6 0x0E14 [cause, (fresh 32 s).1.toNat % 6] (closeSessions (answerFaulted u))) hdown

section
variable {s : State} (hops : s.ctl.ops = []) (cause : Nat)
include hops

/-- A reset of the Cobbler with no long operation leaves the slots, the epoch and the data plane. -/
theorem cobblerFail_ctl : ∃ m, (cobblerFail cause s).ctl =
    { s.ctl with commit := s.ctl.commit.bind orphaned, sessions := [], requesters := [], mbx := m } := by
  refine ⟨(answerFaulted (firmwareDown cause s)).ctl.mbx, ?_⟩
  rw [cobblerFail_of_ops_nil hops, detect_eq, closeSessions_eq, answerFaulted_eq]
  simp only [firmwareDown_eq]

theorem cobblerFail_dataPlane : (cobblerFail cause s).path = s.path ∧ (cobblerFail cause s).tm = s.tm ∧
    (cobblerFail cause s).flow = s.flow ∧ (cobblerFail cause s).fwd = s.fwd ∧ (cobblerFail cause s).hbm = s.hbm := by
  rw [cobblerFail_of_ops_nil hops, detect_eq, closeSessions_eq, answerFaulted_eq, firmwareDown_eq]
  exact ⟨rfl, rfl, rfl, rfl, rfl⟩

theorem cobblerFail_safe : (cobblerFail cause s).safe.cobblerReady = false ∧ (cobblerFail cause s).safe.cobblerCause = cause := by
  rw [cobblerFail_of_ops_nil hops, detect_eq, closeSessions_eq, answerFaulted_eq, firmwareDown_eq]
  exact ⟨rfl, rfl⟩

end

/-- Settles O57: a reset of the Cobbler touches only the firmware's own state. -/
theorem cobblerResetKeepsDataPlane : Obligations.CobblerResetKeepsDataPlane := by
  unfold Obligations.CobblerResetKeepsDataPlane
  refine ⟨fun s hready hops => ⟨?_, ?_⟩, fun s hreset => ?_⟩
  · obtain ⟨m, hctl⟩ := cobblerFail_ctl hops 1
    obtain ⟨hup, hcause⟩ := cobblerFail_safe hops 1
    obtain ⟨hpath, htm, hflow, hfwd, hhbm⟩ := cobblerFail_dataPlane hops 1
    refine ⟨cobblerFail 1 s, if_pos hready, hup, hcause, ?_, ?_, ?_, ?_, ?_, hpath, htm, hflow, hfwd, hhbm, fun c hc hb => ?_⟩ <;>
      rw [hctl]
    simp [hc, orphaned, hb]
  · obtain ⟨m, hctl⟩ := cobblerFail_ctl hops 2
    obtain ⟨hup, hcause⟩ := cobblerFail_safe hops 2
    exact ⟨cobblerFail 2 s, if_pos hready, hup, hcause, by rw [hctl], cobblerFail_dataPlane hops 2⟩
  · exact if_pos hreset

end Sys2Proof.Machine
end

section
namespace Sys2Proof.Machine

/-! ### Any request in the mailbox (R40, R46, R47) -/

/-- The request in the mailbox as the Cobbler executes it: the host needs no session (R48). -/
def mbxReq (s : State) : Req := { who := 0, role := 2, v1 := false, limit := 4079, msg := mbxMsg s }

theorem answerTo_mailbox (m : Bytes) (a : Answer) (s : State) : answerTo 0 m a s = mbxFinish (answerMsg m a) s := rfl

section
variable {s : State} {ty sub : Nat} {staged : Bool} {body : Bytes} (hr : MailboxRequest s ty sub staged body)
include hr

theorem mailbox_type : msgType (mbxReq s).msg = ty := by
  obtain ⟨-, -, -, -, hty, -⟩ := hr; exact hty

theorem mailbox_sub : msgSub (mbxReq s).msg = sub := by
  obtain ⟨-, -, -, -, -, hsub, -⟩ := hr; exact hsub

theorem mailbox_staged : msgStaged (mbxReq s).msg = staged := by
  obtain ⟨-, -, -, -, -, -, hst, -⟩ := hr; exact hst

theorem mailbox_body : msgBody (mbxReq s).msg = body := by
  obtain ⟨-, -, -, -, -, -, -, -, hbody⟩ := hr; exact hbody

/-- A whole request of a known type passes every check before its own (R40, R42, R454). -/
theorem mailbox_refuseFirst (hk : msgKnown (mbxMsg s) = true) : refuseFirst (mbxReq s) s = none := by
  obtain ⟨-, -, -, hboot, -, -, -, hlen, -⟩ := hr
  have hrec : inRecovery s = false := by simp [inRecovery, hboot]
  simp [refuseFirst, mbxReq, hk, hrec, Nat.not_lt.mpr hlen]

/-- The request is handed to its row's handler, and the mailbox gives the handler's answer. -/
theorem mailbox_serve {want : Bytes → Bool} (hw : want (mbxMsg s) = true) (hk : msgKnown (mbxMsg s) = true)
    {h : Handler} {a : Option Answer} {t : State} (ha : h (mbxReq s) s = (a, t)) :
    serve want h .mailbox s = a.elim t fun x => mbxFinish (answerMsg (mbxMsg s) x) t := by
  have hfirst := mailbox_refuseFirst hr hk
  obtain ⟨hbusy, hpend, hready, -⟩ := hr
  have hexec : execReq h (mbxReq s) s = (a, t) := by simp only [execReq, hfirst, ha]
  rw [mbxReq] at hexec
  simp only [serve, hbusy, hpend, hready, hw, hexec, answerTo_mailbox]
  cases a <;> rfl

/-- A handler that answers at once and leaves the mailbox to the answer. -/
theorem mailbox_answered {want : Bytes → Bool} (hw : want (mbxMsg s) = true) (hk : msgKnown (mbxMsg s) = true)
    {h : Handler} {a : Answer} {t : State} (ha : h (mbxReq s) s = (some a, t)) (hm : t.ctl.mbx = s.ctl.mbx) :
    MailboxAnswered s (serve want h .mailbox s) a ∧ AnswerOnly (serve want h .mailbox s) t := by
  rw [mailbox_serve hr hw hk ha]
  exact mailboxAnswered_mbxFinish hm a

end

/-- A handler that answers at once gives what its function computes. -/
theorem atOnce_eq {f : Req → State → Answer × State} {r : Req} {s t : State} {a : Answer} (h : f r s = (a, t)) :
    atOnce f r s = (some a, t) := by simp only [atOnce, h]

/-- An answer over the mailbox leaves the control part but the mailbox. -/
theorem AnswerOnly.ctl {t u : State} (h : AnswerOnly t u) : t.ctl = { u.ctl with mbx := t.ctl.mbx } := congrArg State.ctl h

/-! ### Psindo sessions (R50 to R53) -/

/-- A datagram that does not authenticate is counted and reported, no more (R50). -/
theorem authFail_eq (src keyId : Nat) (s : State) : authFail src keyId s = { s with
    host := (authFail src keyId s).host, cnt := (authFail src keyId s).cnt } := by
  simp only [authFail]
  rw [raiseLimited_eq, count_eq]

section
variable {s : State} {src : Nat} {d : Bytes}

theorem serve_psindo_other {want : Bytes → Bool} {h : Handler} (hup : psindoUp s = true) (hw : want (dgramMsg d) = true)
    (ht : msgType (dgramMsg d) ≠ 1) : serve want h (.psindo src d) s = psindoReceive h src d s := by
  simp [serve, hup, hw, ht]

theorem psindoReceive_unknown {h : Handler} (hid : sessionById s (leNat (slice d 4 4)) = none) :
    psindoReceive h src d s = authFail src (leNat (slice d 2 2)) s := by
  simp only [psindoReceive, hid]

theorem execHello_psindo (hup : psindoUp s = true) (hrow : msgRow (dgramMsg d) = (0x01, 0)) :
    execHello (.psindo src d) s = .next (match keyOf s (leNat (slice d 2 2)) with
      | none => authFail src (leNat (slice d 2 2)) s
      | some k => if tagOk (cfgB s (oa 0x1020 k 1)) d then helloServe (cfgB s (oa 0x1020 k 1)) (leNat (slice d 2 2)) d s
        else authFail src (leNat (slice d 2 2)) s) := by
  have hw : isRow 0x01 0 (dgramMsg d) = true := by simp [isRow, hrow]
  simp only [execHello, hup, hw]
  rfl

end

theorem sessionOf_setSession_same (s : State) (n : Nat) (x : Session) : sessionOf (setSession s n x) n = some x := by
  simp [sessionOf, setSession]

theorem sessionOf_setSession_other (s : State) {n m : Nat} (x : Session) (h : m ≠ n) :
    sessionOf (setSession s n x) m = sessionOf s m := tfind_tput_other _ _ h

@[simp] theorem sessionOf_sessionEvent (x : Session) (k n : Nat) (s : State) : sessionOf (sessionEvent x k s) n = sessionOf s n := by
  simp [sessionOf]

theorem sessionOf_dropSession_same {s : State} (hs : tsorted s.ctl.sessions = true) (n : Nat) :
    sessionOf (dropSession n s) n = none := tfind_tdel_same hs n

theorem nine_le_retainNumber (s : State) : 9 ≤ retainNumber s := by
  have h : ∀ (l : List (Nat × Session)) (m : Nat), m ≤ l.foldl (fun m r => max m (r.1 + 1)) m := by
    intro l
    induction l with
    | nil => exact fun m => Nat.le_refl m
    | cons r l ih => exact fun m => Nat.le_trans (Nat.le_max_left _ _) (ih _)
  exact h _ _

/-- Settles O12: each datagram that does not authenticate ends in `authFail`; the two time-outs are tables' lemmas. -/
theorem sessionsGuarded : Obligations.SessionsGuarded := by
  unfold Obligations.SessionsGuarded
  refine ⟨fun s src d hup hrow hty hid => ?_, fun s src d hup hrow hkey => ?_, fun s b hr => ?_,
    fun s n x hx hn hdue hs => ?_, fun s n x hx hn hdue hs => ?_⟩
  · have hw : isRow 0x10 0 (dgramMsg d) = true := by simp [isRow, hrow]
    refine ⟨_, congrArg Host.Outcome.next ((serve_psindo_other hup hw hty).trans (psindoReceive_unknown hid)), authFail_eq _ _ _⟩
  · refine ⟨authFail src (leNat (slice d 2 2)) s, ?_, authFail_eq _ _ _⟩
    exact (execHello_psindo hup hrow).trans (by rw [hkey])
  · obtain ⟨-, -, -, -, hty, hsub, -⟩ := id hr
    exact ⟨_, rfl, mailbox_answered hr (by simp [isRow, msgRow, hty]) (by simp [msgKnown, hty, hsub]) rfl rfl⟩
  · have h9 := nine_le_retainNumber s
    refine ⟨setSession (dropSession n (sessionEvent x 0 s)) (retainNumber s) { x with since := raw s, answers := [] },
      show execSessionIdleTimeout n s = _ by simp only [execSessionIdleTimeout, hx, if_pos (And.intro hn hdue)], ?_,
      retainNumber s, h9, sessionOf_setSession_same ..⟩
    rw [sessionOf_setSession_other _ _ (by omega)]
    exact sessionOf_dropSession_same (by rw [sessionEvent_ctl]; exact hs) n
  · exact ⟨dropSession n s,
      show execSessionRetentionExpiry n s = _ by simp only [execSessionRetentionExpiry, hx, if_pos (And.intro hn hdue)],
      sessionOf_dropSession_same hs n⟩

/-! ### A session opened and closed (R51 to R53) -/

/-- Among more numbers than the sessions have IDs, counted upward from a drawn one, one is free (log entry 13). -/
theorem exists_freshId {s : State} (hlen : s.ctl.sessions.length ≤ 1000) (v : Nat) :
    ∃ i ∈ (List.range (s.ctl.sessions.length + 2)).map fun i => (v + i) % 2 ^ 32, (i != 0 && (sessionById s i).isNone) = true := by
  by_contra hno
  push Not at hno
  have hnd : ((List.range (s.ctl.sessions.length + 2)).map fun i => (v + i) % 2 ^ 32).Nodup := by
    refine List.Nodup.map_on (fun i hi j hj hij => ?_) List.nodup_range
    simp only [List.mem_range] at hi hj
    omega
  have hsub : ((List.range (s.ctl.sessions.length + 2)).map fun i => (v + i) % 2 ^ 32) ⊆
      0 :: s.ctl.sessions.map fun r => r.2.id.toNat := by
    intro i hi
    have h := hno i hi
    by_cases h0 : i = 0
    · simp [h0]
    · refine List.mem_cons_of_mem _ ?_
      simpa [sessionById, h0] using h
  have hle := (List.subperm_of_subset hnd hsub).length_le
  simp only [List.length_map, List.length_range, List.length_cons] at hle
  omega

theorem freshId_spec {s : State} (hlen : s.ctl.sessions.length ≤ 1000) (v : Nat) :
    freshId s v ≠ 0 ∧ freshId s v < 2 ^ 32 ∧ sessionById s (freshId s v) = none := by
  obtain ⟨i, hi⟩ := Option.isSome_iff_exists.1 (List.find?_isSome.2 (exists_freshId hlen v))
  have hmem := List.mem_of_find?_eq_some hi
  have hp := List.find?_some hi
  have hid : freshId s v = i := congrArg (Option.getD · 1) hi
  rw [hid]
  simp only [Bool.and_eq_true, bne_iff_ne, Option.isNone_iff_eq_none] at hp
  obtain ⟨j, -, rfl⟩ := List.mem_map.1 hmem
  exact ⟨hp.1, Nat.mod_lt _ (by decide), hp.2⟩

/-- An answer to a session is kept with it, and the session's counter advances (R51). -/
theorem answerTo_session {s : State} {n : Nat} {x : Session} (hn : n ≠ 0) (hx : sessionOf s n = some x) (m : Bytes) (a : Answer) :
    sessionOf (answerTo n m a s) n = some { x with
      answers := ((msgSeq m, answerMsg m a) :: x.answers).take 16, txCounter := x.txCounter + 1 } := by
  simp only [answerTo, hn, if_false, hx, psindoSend, sessionOf_setSession_same]
  exact sessionOf_setSession_same ..

/-- Sending in a session and answering keep the order of the sessions. -/
theorem tsorted_psindoSend {s : State} (hs : tsorted s.ctl.sessions = true) (n : Nat) (m : Bytes) :
    tsorted (psindoSend n m s).ctl.sessions = true := by
  simp only [psindoSend]
  split
  · exact hs
  · exact tsortedFrom_tput hs (Nat.zero_le n) _

theorem tsorted_answerTo {s : State} (hs : tsorted s.ctl.sessions = true) (n : Nat) (m : Bytes) (a : Answer) :
    tsorted (answerTo n m a s).ctl.sessions = true := by
  simp only [answerTo]
  split
  · rw [mbxFinish_eq]; exact hs
  · split
    · exact hs
    · exact tsorted_psindoSend (s := setSession s n _) (tsortedFrom_tput hs (Nat.zero_le n) _) _ _

/-- The HELLO that opens a session: its number names the session drawn and described, with its answer kept. -/
theorem helloServe_opens {s : State} {d secret : Bytes} {keyId n : Nat} {v : Nat × Nat}
    (hbody : (msgBody (dgramMsg d)).length = 20) (hsub : msgSub (dgramMsg d) = 0) (hlen : msgLen (dgramMsg d) = 20)
    (hmsg : (dgramMsg d).length = 37)
    (hv : chooseVersion ((msgBody (dgramMsg d)).getD 0 0).toNat ((msgBody (dgramMsg d)).getD 1 0).toNat
      ((msgBody (dgramMsg d)).getD 2 0).toNat ((msgBody (dgramMsg d)).getD 3 0).toNat = some v)
    (hn : freeSession s = some n) :
    ∃ x, sessionOf (helloServe secret keyId d s) n = some x ∧ (x.major, x.minor) = v ∧
      x.id = BitVec.ofNat 32 (freshId s (fresh 32 s).1.toNat) ∧ x.keyId = BitVec.ofNat 16 keyId ∧ x.answers.length = 1 := by
  obtain ⟨major, minor⟩ := v
  have hn0 : n ≠ 0 := by
    have := List.mem_of_find?_eq_some hn
    rintro rfl
    simp at this
  have hok : ¬ ((msgBody (dgramMsg d)).length ≠ 20 ∨ msgSub (dgramMsg d) ≠ 0 ∨ msgLen (dgramMsg d) ≠ 20 ∨
      (dgramMsg d).length ≠ 37) := by simp [hbody, hsub, hlen, hmsg]
  simp only [helloServe, if_neg hok, hv, hn]
  exact ⟨_, answerTo_session hn0 ((sessionOf_sessionEvent _ _ _ _).trans (sessionOf_setSession_same _ n _)) _ _, rfl, rfl, rfl, rfl⟩

section
variable {s : State} {n : Nat} {x : Session} {d : Bytes}

/-- A BYE closes its requester's session (R52). -/
theorem execReq_bye {r : Req} (hrec : inRecovery s = false) (hk : msgKnown r.msg = true) (hty : msgType r.msg = 2)
    (hlen : msgLen r.msg = 0) (hmsg : r.msg.length = 17) (hbody : msgBody r.msg = [])
    (hs : tsorted s.ctl.sessions = true) (hx : sessionOf s r.who = some x) :
    ∃ t, execReq byeReq r s = (none, t) ∧ sessionOf t r.who = none := by
  have hfirst : refuseFirst r s = none := by simp [refuseFirst, hrec, hk, hty, hlen, hmsg]
  refine ⟨dropSession r.who (sessionEvent x 0 (answerTo r.who r.msg { status := stOk } s)), ?_, ?_⟩
  · simp [execReq, hfirst, byeReq, hbody, lengthBad, hx]
  · exact sessionOf_dropSession_same (by rw [sessionEvent_ctl]; exact tsorted_answerTo hs _ _ _) _

theorem psindoServe_bye (hrec : inRecovery s = false) (hk : msgKnown (dgramMsg d) = true) (hty : msgType (dgramMsg d) = 2)
    (hlen : msgLen (dgramMsg d) = 0) (hmsg : (dgramMsg d).length = 17) (hbody : msgBody (dgramMsg d) = [])
    (hs : tsorted s.ctl.sessions = true) (hc : counterOk x (leNat (slice d 8 8)) = true)
    (hnew : (x.answers.find? fun p => p.1 == msgSeq (dgramMsg d)) = none) :
    sessionOf (psindoServe byeReq n x d s) n = none := by
  have hs1 : tsorted (tput (tput s.ctl.sessions n { x with since := raw s }) n
      { noteCounter x (leNat (slice d 8 8)) with since := raw s }) = true :=
    tsortedFrom_tput (tsortedFrom_tput hs (Nat.zero_le n) _) (Nat.zero_le n) _
  obtain ⟨t, ht, hnone⟩ := execReq_bye
    (s := setSession (setSession s n { x with since := raw s }) n { noteCounter x (leNat (slice d 8 8)) with since := raw s })
    (r := { who := n, role := sessionRole s x, v1 := x.major == 1, limit := 1167, msg := dgramMsg d })
    hrec hk hty hlen hmsg hbody hs1 (sessionOf_setSession_same _ _ _)
  simp only [psindoServe, hc, Bool.not_true, Bool.false_eq_true, if_false, hnew, ht]
  exact hnone

end

/-- Settles O13: the session that HELLO opens is described by `helloServe_opens`, a BYE's by `psindoServe_bye`. -/
theorem helloOpensByeCloses : Obligations.HelloOpensByeCloses := by
  unfold Obligations.HelloOpensByeCloses
  refine ⟨fun s src k n d v hup hrow hkey htag hbody hsub hlen hmsg hv hn hfew => ?_,
    fun s src n d x hup hrow hk hty hs hbody hlen hmsg hid hx hn hkey htag hc hnew => ?_⟩
  · obtain ⟨x, hx, hver, hid, hkid, hans⟩ := helloServe_opens (secret := cfgB s (oa 0x1020 k 1)) (keyId := leNat (slice d 2 2))
      hbody hsub hlen hmsg hv hn
    obtain ⟨hne, hlt, hfree⟩ := freshId_spec hfew (fresh 32 s).1.toNat
    have hidn : x.id.toNat = freshId s (fresh 32 s).1.toNat := by rw [hid, BitVec.toNat_ofNat, Nat.mod_eq_of_lt hlt]
    refine ⟨_, x, (execHello_psindo hup hrow).trans (by simp only [hkey, htag, if_true]), hx, hver, ?_, by rw [hidn, hfree], hkid, hans⟩
    intro h0
    rw [h0] at hidn
    exact hne hidn.symm
  · have hrec : inRecovery s = false := by
      simp only [psindoUp, Bool.and_eq_true, Bool.not_eq_true'] at hup
      exact hup.2
    have hw : isRow 0x02 0 (dgramMsg d) = true := by simp [isRow, hrow]
    have hserve : serve (isRow 0x02 0) byeReq (.psindo src d) s = psindoServe byeReq n x d s := by
      rw [serve_psindo_other hup hw (by omega)]
      simp [psindoReceive, hid, hx, Option.isNone_eq_false_iff.2 hkey, htag, show ¬ 9 ≤ n by omega]
    exact ⟨_, congrArg Host.Outcome.next hserve, psindoServe_bye hrec hk hty hlen hmsg hbody hs hc hnew⟩

end Sys2Proof.Machine
end

section
namespace Sys2Proof.Machine

/-! ### READ of one object (R40, R44) -/

/-- What reading clears is a counter: the control part is not concerned (R308, 13.5). -/
theorem readEffect_ctl (a : Nat) (s : State) : (readEffect a s).ctl = s.ctl := by
  simp only [readEffect]
  split <;> rfl

/-- No check of R40 refuses the host a READ of an object that is not write-only. -/
theorem readRefused_mailbox {s : State} {a : Nat} {row : ObjRow} (hrow : objRow a = some row) (hacc : row.access ≠ 3) :
    readRefused (mbxReq s) a = stOk := by
  simp [readRefused, hrow, hacc, mbxReq]

theorem readEntries_one {r : Req} {s : State} {a : Nat} {row : ObjRow} (hrow : objRow a = some row)
    (hok : readRefused r a = stOk) (hfit : 8 + (padMul 8 (objValue a s)).length ≤ r.limit) :
    readEntries r false s [a] 0 [] [] =
      ({ status := stOk, body := entryWord (objValue a s).length row.ty false a ++ padMul 8 (objValue a s) }, [a]) := by
  simp [readEntries, hok, hrow, entryWord, hfit]

theorem readEntries_none {r : Req} {s : State} {a : Nat} (hrow : objRow a = none) :
    readEntries r false s [a] 0 [] [] = (refuse stNotFound 0, []) := by
  simp [readEntries, readRefused, hrow, stNotFound, stOk]

section
variable {s : State} {a : Nat} (ha : a < 2 ^ 36) (hr : MailboxRequest s 0x10 0 false (leBytes 8 a))
include ha hr

/-- A READ whose body is one address reads that one entry. -/
theorem readReq_one : readReq (mbxReq s) s =
    ((readEntries (mbxReq s) false s [a] 0 [] []).1,
      (readEntries (mbxReq s) false s [a] 0 [] []).2.foldl (fun t b => readEffect b t) s) := by
  have hbody := mailbox_body hr
  have hst := mailbox_staged hr
  have hw : leNat (slice (leBytes 8 a) 0 8) = a := by
    rw [slice, List.drop_zero, List.take_of_length_le (by simp), leNat_leBytes_of_lt (by omega)]
  have h39 : a.testBit 39 = false := Nat.testBit_lt_two_pow (by omega)
  have hhi : fld a 63 48 = 0 := by simp only [fld, Nat.shiftRight_eq_div_pow]; omega
  have hlo : fld a 35 0 = a := by simp only [fld, Nat.shiftRight_eq_div_pow]; omega
  simp [readReq, hbody, hst, hw, h39, hhi, hlo]

theorem mailbox_read {ans : Answer} {done : List Nat} (he : readEntries (mbxReq s) false s [a] 0 [] [] = (ans, done)) :
    MailboxAnswered s (serve (isRow 0x10 0) (atOnce readReq) .mailbox s) ans ∧
    AnswerOnly (serve (isRow 0x10 0) (atOnce readReq) .mailbox s) (done.foldl (fun t b => readEffect b t) s) := by
  have hty := mailbox_type hr
  have hsub := mailbox_sub hr
  refine mailbox_answered hr (by simp [isRow, msgRow, show msgType (mbxMsg s) = 0x10 from hty])
    (by simp [msgKnown, show msgType (mbxMsg s) = 0x10 from hty, show msgSub (mbxMsg s) = 0 from hsub])
    (by simp only [atOnce, readReq_one ha hr, he]) ?_
  have hfold : ∀ (l : List Nat) (u : State), (l.foldl (fun t b => readEffect b t) u).ctl = u.ctl := by
    intro l
    induction l with
    | nil => exact fun u => rfl
    | cons b l ih => exact fun u => (ih _).trans (readEffect_ctl b u)
  rw [hfold]

end

/-- Settles O4: a READ of one address reads one entry. -/
theorem mailboxReadAnswersValue : Obligations.MailboxReadAnswersValue := by
  unfold Obligations.MailboxReadAnswersValue
  refine ⟨fun s a row ha hr hrow hacc hfit => ?_, fun s a ha hr hrow => ?_⟩
  · exact ⟨_, rfl, mailbox_read ha hr (readEntries_one hrow (readRefused_mailbox hrow hacc) hfit)⟩
  · exact ⟨_, rfl, mailbox_read ha hr (readEntries_none hrow)⟩

end Sys2Proof.Machine
end

section
namespace Sys2Proof.Machine

/-! ### What the data plane leaves alone

Nothing that carries packets, links or telemetry touches the pattern slots, the epoch, the sessions, the operations or the
mailbox: of the control part it only counts packets by epoch and forgets expired ones. -/

/-- The control part but the packets it counts, whether a pattern is active, and whether the outputs run. -/
def steady (s : State) : Control × Bool × Bool :=
  ({ s.ctl with epochCount := [], expired := [] }, s.safe.patternActive, s.safe.outputsStarted)

/-- Two states that agree but for the packets counted by epoch. -/
theorem ctl_of_steady {s t : State} (h : steady t = steady s) :
    t.ctl = { s.ctl with epochCount := t.ctl.epochCount, expired := t.ctl.expired } := by
  have hc : ({ t.ctl with epochCount := [], expired := [] } : Control) = { s.ctl with epochCount := [], expired := [] } :=
    congrArg Prod.fst h
  calc t.ctl = { ({ t.ctl with epochCount := [], expired := [] } : Control) with
        epochCount := t.ctl.epochCount, expired := t.ctl.expired } := rfl
    _ = _ := by rw [hc]

theorem patternActive_of_steady {s t : State} (h : steady t = steady s) : t.safe.patternActive = s.safe.patternActive :=
  congrArg (fun x => x.2.1) h

theorem steady_foldl {α : Type} {f : State → α → State} (h : ∀ t a, steady (f t a) = steady t) (l : List α) (s : State) :
    steady (l.foldl f s) = steady s := by
  induction l generalizing s with
  | nil => rfl
  | cons a l ih => exact (ih _).trans (h s a)

theorem steady_ite {c : Prop} [Decidable c] {s t u : State} (ht : steady t = steady s) (hu : steady u = steady s) :
    steady (if c then t else u) = steady s := by split <;> assumption

/-! Parts of the state -/

@[simp] theorem steady_setCnt (s : State) (x : Counters) : steady (setCnt s x) = steady s := rfl
@[simp] theorem steady_setHost (s : State) (x : HostIf) : steady (setHost s x) = steady s := rfl
@[simp] theorem steady_setTime (s : State) (x : TimeUnit) : steady (setTime s x) = steady s := rfl
@[simp] theorem steady_setPorts (s : State) (x : Ports) : steady (setPorts s x) = steady s := rfl
@[simp] theorem steady_setHbm (s : State) (x : Hbm) : steady (setHbm s x) = steady s := rfl
@[simp] theorem steady_setPath (s : State) (x : Path) : steady (setPath s x) = steady s := rfl
@[simp] theorem steady_setTm (s : State) (x : TM) : steady (setTm s x) = steady s := rfl
@[simp] theorem steady_setFx (s : State) (x : FlexE) : steady (setFx s x) = steady s := rfl
@[simp] theorem steady_setFlow (s : State) (x : Flow) : steady (setFlow s x) = steady s := rfl
@[simp] theorem steady_setAw (s : State) (x : Cluster) : steady (setAw s x) = steady s := rfl
@[simp] theorem steady_fresh (w : Nat) (s : State) : steady (fresh w s).2 = steady s := rfl

/-! Counters, events and detections -/

@[simp] theorem steady_ctrSet (s : State) (a n : Nat) : steady (ctrSet s a n) = steady s := rfl
@[simp] theorem steady_ctrAdd (a n : Nat) (s : State) : steady (ctrAdd a n s) = steady s := by rw [ctrAdd_eq]; rfl
@[simp] theorem steady_count (i n u : Nat) (s : State) : steady (count i n u s) = steady s := steady_ctrAdd ..
@[simp] theorem steady_countN (i n u k : Nat) (s : State) : steady (countN i n u k s) = steady s := steady_ctrAdd ..
@[simp] theorem steady_queueAdd (q sel k n : Nat) (s : State) : steady (queueAdd q sel k n s) = steady s := steady_ctrAdd ..
@[simp] theorem steady_queueCount (q sel u k : Nat) (s : State) : steady (queueCount q sel u k s) = steady s := by
  simp only [queueCount, steady_queueAdd, steady_count]
@[simp] theorem steady_queueDrop (q sel u : Nat) (s : State) : steady (queueDrop q sel u s) = steady s := steady_queueCount ..
@[simp] theorem steady_raise (c : Nat) (ps : List Nat) (s : State) (f : Bool) : steady (raise c ps s f) = steady s := by
  rw [raise_eq]; rfl
@[simp] theorem steady_limit (c i : Nat) (s : State) : steady (limit c i s).2.2 = steady s := rfl
@[simp] theorem steady_raiseLimited (c i : Nat) (ps : Nat → List Nat) (s : State) :
    steady (raiseLimited c i ps s) = steady s := by rw [raiseLimited_eq]; rfl
@[simp] theorem steady_noteLately (c i : Nat) (s : State) : steady (noteLately c i s) = steady s := rfl
@[simp] theorem steady_detect (k c : Nat) (ps : List Nat) (s : State) : steady (detect k c ps s) = steady s := by
  rw [detect_eq]; rfl
@[simp] theorem steady_stat (q u n : Nat) (s : State) : steady (stat q u n s) = steady s := by
  simp only [stat]; split <;> simp
@[simp] theorem steady_hostWrite (s : State) (a : Nat) (bs : Bytes) : steady (hostWrite s a bs) = steady s := rfl
@[simp] theorem steady_reviewGuarantee (s : State) : steady (reviewGuarantee s) = steady s := by
  rw [reviewGuarantee_eq]; rfl

/-! Packets and queues -/

@[simp] theorem steady_setPkt (n : Nat) (p : Packet) (s : State) : steady (setPkt n p s) = steady s := rfl
@[simp] theorem steady_modPkt (n : Nat) (f : Packet → Packet) (s : State) : steady (modPkt n f s) = steady s := rfl
@[simp] theorem steady_pinEpoch (pid : Nat) (s : State) : steady (pinEpoch pid s) = steady s := by
  simp only [pinEpoch]; split <;> rfl
@[simp] theorem steady_leaveEpoch (pid : Nat) (s : State) : steady (leaveEpoch pid s) = steady s := by
  simp only [leaveEpoch]; split <;> rfl
@[simp] theorem steady_settle (pid : Nat) (s : State) : steady (settle pid s) = steady s := by
  have h := steady_leaveEpoch pid s
  simp only [settle]
  split
  · split
    · exact h
    · exact h
  · rfl
@[simp] theorem steady_dropPkt (pid : Nat) (s : State) : steady (dropPkt pid s) = steady s := by
  simp only [dropPkt, freeCells, steady_settle, steady_modPkt]
@[simp] theorem steady_unref (pid : Nat) (s : State) : steady (unref pid s) = steady s := by
  simp only [unref]
  split
  · exact steady_dropPkt pid s
  · rfl
@[simp] theorem steady_setUq (s : State) (u : Nat) (x : UQueue) : steady (setUq s u x) = steady s := rfl
@[simp] theorem steady_setMq (s : State) (m : Nat) (l : List QEntry) : steady (setMq s m l) = steady s := rfl
@[simp] theorem steady_setDeficit (s : State) (k : Nat) (v : Int) : steady (setDeficit s k v) = steady s := rfl
@[simp] theorem steady_emptyDeficits (q sel : Nat) (s : State) : steady (emptyDeficits q sel s) = steady s := by
  simp only [emptyDeficits]; split <;> split <;> rfl
@[simp] theorem steady_heelReview (u : Nat) (s : State) : steady (heelReview u s) = steady s := by
  simp only [heelReview]; split <;> split <;> rfl
@[simp] theorem steady_leavePages (u pid : Nat) (s : State) : steady (leavePages u pid s) = steady s := by
  simp only [leavePages, steady_heelReview, steady_setUq]
@[simp] theorem steady_uqRemove (u pid : Nat) (s : State) : steady (uqRemove u pid s) = steady s := by
  simp only [uqRemove, steady_emptyDeficits, steady_leavePages, steady_setUq]
@[simp] theorem steady_uqDrop (u pid k : Nat) (s : State) : steady (uqDrop u pid k s) = steady s := by
  simp only [uqDrop, steady_dropPkt, steady_queueDrop, steady_uqRemove]
@[simp] theorem steady_mqDiscard (m : Nat) (s : State) : steady (mqDiscard m s) = steady s := by
  rw [mqDiscard, steady_foldl (by simp)]
  simp
@[simp] theorem steady_portDiscard (q : Nat) (s : State) : steady (portDiscard q s) = steady s := by
  simp only [portDiscard, steady_mqDiscard]
  exact steady_foldl (fun t c => steady_foldl (by simp) _ _) _ _

/-! Admission of a frame that the device itself makes -/

@[simp] theorem steady_chargePending (n pid : Nat) (s : State) : steady (chargePending n pid s) = steady s := rfl
@[simp] theorem steady_chargeQueued (q pid : Nat) (s : State) : steady (chargeQueued q pid s) = steady s := rfl
@[simp] theorem steady_noteDepth (q sel : Nat) (s : State) : steady (noteDepth q sel s) = steady s := rfl
@[simp] theorem steady_heelRefuse (q u why : Nat) (s : State) : steady (heelRefuse q u why s) = steady s := by
  simp only [heelRefuse]; split <;> simp
@[simp] theorem steady_admitFrame (q : Nat) (e : QEntry) (s : State) : steady (admitFrame q e s) = steady s := by
  simp only [admitFrame]
  split
  · rw [steady_dropPkt]; split <;> simp
  · simp
@[simp] theorem steady_injectDirect (p : Packet) (q cls edit ptp : Nat) (nh : Option Nat) (s : State) :
    steady (injectDirect p q cls edit ptp nh s) = steady s := by
  simp [injectDirect, injectPacket]

/-! Telemetry streams and dumps -/

@[simp] theorem steady_hbmWriteUnit (s : State) (a : Nat) (bs : Bytes) : steady (hbmWriteUnit s a bs) = steady s := by
  simp only [hbmWriteUnit]
  split
  · rfl
  · split <;> simp
theorem steady_hbmWriteUnits (n : Nat) (s : State) (a : Nat) (bs : Bytes) : steady (hbmWriteUnits n s a bs) = steady s := by
  induction n generalizing s a bs with
  | zero => rfl
  | succ n ih => rw [hbmWriteUnits, ih, steady_hbmWriteUnit]
@[simp] theorem steady_hbmWrite (s : State) (a : Nat) (bs : Bytes) : steady (hbmWrite s a bs) = steady s :=
  steady_hbmWriteUnits ..
@[simp] theorem steady_streamLoss (st k : Nat) (s : State) : steady (streamLoss st k s) = steady s := by simp [streamLoss]
@[simp] theorem steady_streamFrame (s : State) (st : Nat) (msg : Bytes) : steady (streamFrame s st msg).2 = steady s := by
  simp only [streamFrame]; split <;> rfl
@[simp] theorem steady_streamUdp (st n : Nat) (msg : Bytes) (s : State) : steady (streamUdp st n msg s) = steady s := by
  simp only [streamUdp]
  split
  · simp
  · split <;> simp
@[simp] theorem steady_streamDeliver (st n : Nat) (msg : Bytes) (s : State) :
    steady (streamDeliver st n msg s) = steady s := by
  simp only [streamDeliver]
  split
  · rfl
  · simp
  · split
    · simp
    · rw [steady_countN, steady_setCnt]; split <;> simp
@[simp] theorem steady_streamSend (st : Nat) (s : State) : steady (streamSend st s) = steady s := by
  simp only [streamSend]; split <;> simp
theorem steady_streamDrain (st n : Nat) (s : State) : steady (streamDrain st n s) = steady s := by
  induction n generalizing s with
  | zero => rfl
  | succ n ih =>
    rw [streamDrain]
    split
    · rfl
    · rw [ih, steady_streamSend]
@[simp] theorem steady_streamAnew (st : Nat) (s : State) : steady (streamAnew st s) = steady s := rfl
@[simp] theorem steady_takeSnapshot (b : Bool) (tag : Nat) (s : State) : steady (takeSnapshot b tag s) = steady s := by
  simp only [takeSnapshot]
  split
  · rfl
  · split <;> simp
@[simp] theorem steady_chainEffect (i : Nat) (s : State) : steady (chainEffect i s) = steady s := by simp [chainEffect]
@[simp] theorem steady_bwDiscard (q : Nat) (s : State) : steady (bwDiscard q s) = steady s := rfl

/-! Shapers and FlexE -/

@[simp] theorem steady_bucketSet (b : Bool) (q n : Nat) (s : State) : steady (bucketSet b q n s) = steady s := rfl
@[simp] theorem steady_bucketsFull (q : Nat) (s : State) : steady (bucketsFull q s) = steady s :=
  steady_foldl (fun t n => steady_bucketSet true q n t) _ _
@[simp] theorem steady_shaperChanged (q n old : Nat) (s : State) : steady (shaperChanged q n old s) = steady s := by
  simp only [shaperChanged]; split <;> rfl
@[simp] theorem steady_setMember (s : State) (i : Nat) (m : Member) : steady (setMember s i m) = steady s := rfl
@[simp] theorem steady_setGroup (s : State) (g : Nat) (x : FxGroup) : steady (setGroup s g x) = steady s := rfl
@[simp] theorem steady_setLock (s : State) (k : Nat) (l : OhLock) : steady (setLock s k l) = steady s := rfl
@[simp] theorem steady_pmNote (e : Nat) (s : State) : steady (pmNote e s) = steady s := rfl
@[simp] theorem steady_setDefect (i b : Nat) (on : Bool) (s : State) : steady (setDefect i b on s) = steady s := by
  simp only [setDefect]; split <;> simp
@[simp] theorem steady_fxReviewPort (q : Nat) (s : State) : steady (fxReviewPort q s) = steady s := by
  simp only [fxReviewPort]
  split
  · rfl
  · generalize hb : (if (List.filter _ _).isEmpty = true then _ else _ : List Nat) = bits
    have h : steady (pmNote (512 + q) (bits.foldl (fun t b => raise 0x0203 [q, b2n (clientUp s q), b] t)
        (setFx s { s.fx with told := tset (0, false) s.fx.told q (clientDefects s q, clientUp s q) }))) = steady s := by
      rw [steady_pmNote, steady_foldl (by simp), steady_setFx]
    split
    · simpa using h
    · split
      · simpa using h
      · exact h
@[simp] theorem steady_fxReview (g : Nat) (s : State) : steady (fxReview g s) = steady s :=
  steady_foldl (fun t q => steady_fxReviewPort q t) _ _
@[simp] theorem steady_deskew (g : Nat) (b : Bool) (s : State) : steady (deskew g b s) = steady s := by
  simp only [deskew, steady_fxReview]
  rw [steady_foldl (by simp), steady_foldl (by simp)]
@[simp] theorem steady_groupState (g : Nat) (s : State) : steady (groupState g s) = steady s := steady_raise ..
@[simp] theorem steady_seamNegotiate (g : Nat) (s : State) : steady (seamNegotiate g s) = steady s := rfl
@[simp] theorem steady_seamOff (g : Nat) (s : State) : steady (seamOff g s) = steady s := rfl
@[simp] theorem steady_seamEnable (g : Nat) (on : Bool) (s : State) : steady (seamEnable g on s) = steady s := by
  cases on <;> rfl
@[simp] theorem steady_lockChanged (i : Nat) (was : Bool) (s : State) : steady (lockChanged i was s) = steady s := by
  simp only [lockChanged]
  split
  · rfl
  · split
    · split <;> simp
    · rw [steady_fxReview]; split <;> simp
@[simp] theorem steady_phyLost (i : Nat) (s : State) : steady (phyLost i s) = steady s := by
  simp only [phyLost, steady_fxReview, steady_lockChanged, steady_setDefect]
  exact steady_foldl (by simp) _ _
@[simp] theorem steady_calChange (g : Nat) (s : State) : steady (calChange g s) = steady s := by
  simp only [calChange]; split <;> rfl
@[simp] theorem steady_groupDown (g : Nat) (s : State) : steady (groupDown g s) = steady s := by
  simp only [groupDown, steady_fxReview, steady_setGroup]
  exact steady_foldl (by simp) _ _
@[simp] theorem steady_groupStart (g : Nat) (s : State) : steady (groupStart g s) = steady s := by
  have h0 : steady ((List.range 8).foldl (fun t m => setMember t (8 * g + m) memberReset) s) = steady s :=
    steady_foldl (by simp) _ _
  simp only [groupStart]
  split
  · simpa using h0
  · rw [steady_fxReview, steady_foldl (by simp)]
    simpa using h0

/-! Links and the recovered clocks -/

@[simp] theorem steady_setLink (s : State) (k : Nat) (l : Link) : steady (setLink s k l) = steady s := rfl
@[simp] theorem steady_recclkReview (s : State) : steady (recclkReview s) = steady s := by
  refine steady_foldl (fun t i => ?_) _ _
  dsimp only
  split
  · rfl
  · split
    · rfl
    · rw [steady_raise]; rfl
@[simp] theorem steady_lpiEnds (k : Nat) (s : State) : steady (lpiEnds k s) = steady s := by
  simp only [lpiEnds]; split <;> split <;> simp
@[simp] theorem steady_linkLost (k : Nat) (s : State) : steady (linkLost k s) = steady s := by
  simp only [linkLost]; split <;> simp
@[simp] theorem steady_linkDown (k cause next : Nat) (s : State) : steady (linkDown k cause next s) = steady s := by
  simp only [linkDown, steady_recclkReview, steady_linkLost]
  split <;> split <;> simp
@[simp] theorem steady_linkDisable (k : Nat) (s : State) : steady (linkDisable k s) = steady s := by
  simp only [linkDisable, steady_setLink]; split <;> simp
@[simp] theorem steady_linkStart (k : Nat) (s : State) : steady (linkStart k s) = steady s := by
  simp only [linkStart]; split <;> rfl
@[simp] theorem steady_portEnable (q : Nat) (on : Bool) (s : State) : steady (portEnable q on s) = steady s := by
  cases on <;> simp [portEnable]
@[simp] theorem steady_lpiEnable (q : Nat) (on : Bool) (s : State) : steady (lpiEnable q on s) = steady s := by
  simp only [lpiEnable, lpiWake]; split <;> simp

/-! The time unit -/

@[simp] theorem steady_setServo (s : State) (v : Servo) : steady (setServo s v) = steady s := rfl
@[simp] theorem steady_setFreq (f : Int) (s : State) : steady (setFreq f s) = steady s := rfl
@[simp] theorem steady_todSet (sec ns : Nat) (s : State) : steady (todSet sec ns s) = steady s := rfl
@[simp] theorem steady_divFree (n d : Int) (s : State) : steady (divFree n d s).2 = steady s := by
  simp only [divFree]; split <;> rfl
@[simp] theorem steady_servoGo (st : Nat) (s : State) : steady (servoGo st s) = steady s := by
  simp only [servoGo]; split <;> simp
@[simp] theorem steady_servoTake (theta : Int) (s : State) : steady (servoTake theta s) = steady s := by
  simp only [servoTake]
  split
  · simp
  · rw [steady_setServo, steady_servoGo]; split <;> simp
@[simp] theorem steady_servoResume (s : State) : steady (servoResume s) = steady s := by
  rw [servoResume, steady_foldl (by simp), steady_setServo]
@[simp] theorem steady_servoWrite (theta : Int) (s : State) : steady (servoWrite theta s) = steady s := by
  simp only [servoWrite, servoSample]
  split
  · simp
  · split <;> simp
@[simp] theorem steady_servoHold (s : State) : steady (servoHold s) = steady s := by
  simp only [servoHold]; split <;> simp
@[simp] theorem steady_servoReset (s : State) : steady (servoReset s) = steady s := by simp [servoReset]

/-! The heel -/

@[simp] theorem steady_setPc (s : State) (n : Nat) (p : Pc) : steady (setPc s n p) = steady s := rfl
@[simp] theorem steady_hbmRequest (cls a len : Nat) (w : Bool) (s : State) : steady (hbmRequest cls a len w s) = steady s := by
  simp only [hbmRequest]
  generalize (if cls = 7 then s.hbm.touched else tset 0 s.hbm.touched (stackOf (pcOf s a)) (raw s)) = touched
  exact steady_ite (steady_ite (by simp) (by simp)) (by simp)
@[simp] theorem steady_heelLost (u : Nat) (h : HeelPage) (bad : Bool) (s : State) : steady (heelLost u h bad s) = steady s := by
  have hf : ∀ l : List Nat, steady (l.foldl (fun t p => uqDrop u p 11 t) s) = steady s := fun l => steady_foldl (by simp) _ _
  simp only [heelLost]
  split
  · rw [steady_raise, hf]
  · split
    · rw [steady_raise, hf]
    · exact hf _
@[simp] theorem steady_pageIn (q : Nat) (h : HeelPage) (s : State) : steady (pageIn q h s) = steady s :=
  steady_foldl (by simp) _ _
@[simp] theorem steady_pageBack (u : Nat) (s : State) (h : HeelPage) : steady (pageBack u s h) = steady s := by
  have h2 : steady (if pcRetired s (pcOf s h.addr) then (fresh 1 (hbmRequest 2 h.addr heelPageBytes false s)).2
      else hbmRequest 2 h.addr heelPageBytes false s) = steady s := by split <;> simp
  simp only [pageBack]
  split
  · rw [steady_heelReview, steady_heelLost, steady_setUq, h2]
  · rw [steady_pageIn, steady_setUq, h2]
@[simp] theorem steady_heelBack (limit : Nat) (s : State) : steady (heelBack limit s) = steady s :=
  steady_foldl (fun t r => steady_foldl (by simp) _ _) _ _

end Sys2Proof.Machine
end

section
namespace Sys2Proof.Machine

/-! ### Effects of writes, stops and restarts (R37, Table 2-12) -/

@[simp] theorem steady_bootEvent (k : Nat) (s : State) : steady (bootEvent k s) = steady s := steady_raise ..

/-- No effect of a write reaches the pattern slots (R37). -/
@[simp] theorem steady_writeEffect (a : Nat) (old v : Bytes) (s : State) : steady (writeEffect a old v s) = steady s := by
  have hheel : steady ((List.range 8).foldl (fun t c => heelReview (8 * oaInst a + c) t) s) = steady s :=
    steady_foldl (by simp) _ _
  have hfuse : ∀ h, steady (ownerFuse h s) = steady s := fun h => by simp only [ownerFuse]; split <;> rfl
  simp only [writeEffect]
  split
  · rfl
  · exact steady_bootEvent _ _
  · exact hfuse v
  · exact steady_portEnable ..
  · exact steady_lpiEnable ..
  · exact steady_ite rfl (steady_raise ..)
  · exact steady_ite rfl (steady_calChange ..)
  · exact steady_fxReviewPort ..
  · exact steady_seamEnable ..
  · exact steady_fxReview ..
  · rfl
  · exact steady_ite hheel rfl
  · exact steady_shaperChanged ..
  · rfl
  · exact steady_servoWrite ..
  · exact steady_ite rfl (steady_servoHold s)
  · exact steady_ite rfl (steady_servoReset s)
  · exact steady_ite rfl (steady_chainEffect ..)
  · exact steady_ite rfl (steady_bwDiscard ..)
  · exact steady_ite rfl (steady_takeSnapshot ..)
  · rfl

@[simp] theorem steady_fnStop (f : Fn) (s : State) : steady (fnStop f s) = steady s := by
  cases f with
  | flexe g => exact (steady_groupDown _ _).trans (steady_foldl (by simp) _ _)
  | telemetry => exact steady_foldl (fun t st => steady_streamDrain _ _ _) _ _
  | port q => exact steady_linkDisable q s
  | _ => rfl

@[simp] theorem steady_flowRestart (s : State) : steady (flowRestart s) = steady s := by
  simp only [flowRestart]
  split
  · rfl
  · exact steady_ite rfl rfl

@[simp] theorem steady_fnRestart (f : Fn) (s : State) : steady (fnRestart f s) = steady s := by
  cases f with
  | port q => exact steady_linkStart q s
  | flexe g => exact (steady_groupStart _ _).trans (steady_foldl (by simp) _ _)
  | flowEngine => exact steady_flowRestart s
  | timeUnit => exact (steady_recclkReview _).trans (steady_servoResume s)
  | telemetry =>
    have h : steady ((streamsChanged s).foldl (fun t st => streamAnew st t) s) = steady s := steady_foldl (by simp) _ _
    exact steady_ite h h
  | hbmMap => exact (steady_heelBack _ _).trans rfl
  | _ => rfl

/-! ### The commit up to T0 (Table 2-11, steps 1 to 3) -/

theorem bankOf_setBank_same (s : State) {e k : Nat} (b : Banked) (h : k % 2 = e % 2) : bankOf (setBank s e b) k = b := by
  simp only [bankOf, setBank, h]; split <;> rfl

theorem bankOf_setBank_other (s : State) {e k : Nat} (b : Banked) (h : k % 2 ≠ e % 2) : bankOf (setBank s e b) k = bankOf s k := by
  have he : e % 2 = 0 ∨ e % 2 = 1 := by omega
  rcases he with he | he
  · simp only [bankOf, setBank, he, if_true, if_neg (show ¬ k % 2 = 0 by omega)]; rfl
  · simp only [bankOf, setBank, he, if_pos (show k % 2 = 0 by omega)]; rfl

/-- Replacing a bank touches the two banks alone. -/
theorem setBank_ctl (s : State) (e : Nat) (b : Banked) : (setBank s e b).ctl =
    { s.ctl with bank0 := (setBank s e b).ctl.bank0, bank1 := (setBank s e b).ctl.bank1 } := by
  simp only [setBank]; split <;> rfl

theorem bankOf_of_ctl {s t : State} {e : Nat} (h0 : t.ctl.bank0 = s.ctl.bank0) (h1 : t.ctl.bank1 = s.ctl.bank1) :
    bankOf t e = bankOf s e := by simp only [bankOf, h0, h1]

theorem commitTables_ctl (c : Commit) (s : State) : (commitTables c s).ctl =
    { s.ctl with bank0 := (commitTables c s).ctl.bank0, bank1 := (commitTables c s).ctl.bank1 } := by
  simp only [commitTables]
  split
  · exact setBank_ctl ..
  · rfl

@[simp] theorem commitTables_raw (c : Commit) (s : State) : raw (commitTables c s) = raw s := by
  simp only [commitTables, setFreeBank, setBank]
  split
  · split <;> rfl
  · rfl

/-- The free bank takes the tables of a commit that puts new ones in force. -/
theorem freeBank_commitTables {c : Commit} (h : c.advance = true ∨ c.boot = true) (s : State) :
    bankOf (commitTables c s) (s.ctl.epoch + 1) = { c.newTables with stage := stageOf c.newSlot } := by
  rw [commitTables, if_pos h]
  exact bankOf_setBank_same _ _ rfl

/-- The state at T0 before the functions enter their stops. -/
def atT0 (c : Commit) (s : State) : State :=
  let old := s.ctl.epoch
  let stops := c.fns.filter fun f => !linkFn f
  let s1 := setCtl s { s.ctl with
    commit := some { c with begun := true, oldSlot := { s.ctl.active with tables := bankOf s old } },
    epoch := if c.advance then (old + 1) % 4 else old,
    drain := if c.advance then some { old := old, since := raw s } else s.ctl.drain,
    stopped := s.ctl.stopped ++ stops.map fun f => (f, raw s) }
  let s2 := if c.boot then setBank s1 old (bankOf s1 (old + 1)) else s1
  let s3 := if stops.contains .hbmMap then setHbm s2 { s2.hbm with sizes := sizesNow s2 } else s2
  if c.advance then opsSeeDrain (tget 0 s.ctl.epochCount old) s3 else s3

theorem steady_commitStop (c : Commit) (s : State) : steady (commitStop c s) = steady (atT0 c s) :=
  steady_foldl (f := fun t f => fnStop f t) (fun t f => steady_fnStop f t) (c.fns.filter fun f => !linkFn f) (atT0 c s)

/-- What T0 makes of the control part (R61, R62, R64). -/
theorem atT0_ctl (c : Commit) (s : State) : ∃ b0 b1 ops, (atT0 c s).ctl = { s.ctl with
    commit := some { c with begun := true, oldSlot := { s.ctl.active with tables := bankOf s s.ctl.epoch } }
    epoch := if c.advance then (s.ctl.epoch + 1) % 4 else s.ctl.epoch
    drain := if c.advance then some { old := s.ctl.epoch, since := raw s } else s.ctl.drain
    stopped := s.ctl.stopped ++ (c.fns.filter fun f => !linkFn f).map fun f => (f, raw s)
    bank0 := b0, bank1 := b1, ops := ops } := by
  have h2 : ∀ (u : State) (b : Banked), ∃ b0 b1, (if c.boot then setBank u s.ctl.epoch b else u).ctl =
      { u.ctl with bank0 := b0, bank1 := b1 } := by
    intro u b
    split
    · exact ⟨_, _, setBank_ctl ..⟩
    · exact ⟨_, _, rfl⟩
  have h3 : ∀ (u : State), (if (c.fns.filter fun f => !linkFn f).contains .hbmMap = true
      then setHbm u { u.hbm with sizes := sizesNow u } else u).ctl = u.ctl := fun u => by split <;> rfl
  have h4 : ∀ (u : State) (n : Nat), ∃ ops, (if c.advance then opsSeeDrain n u else u).ctl = { u.ctl with ops := ops } := by
    intro u n
    split
    · exact ⟨_, rfl⟩
    · exact ⟨_, rfl⟩
  simp only [atT0]
  obtain ⟨ops, hops⟩ := h4 _ _
  rw [hops, h3]
  obtain ⟨b0, b1, hb⟩ := h2 _ _
  rw [hb]
  exact ⟨b0, b1, ops, rfl⟩

/-- The bank of the epoch in force after T0 is the one that was free, where the tables change or the commit is the boot's. -/
theorem bankOf_atT0 {c : Commit} (h : c.advance = true ∨ c.boot = true) (s : State) :
    bankOf (atT0 c s) (if c.advance then (s.ctl.epoch + 1) % 4 else s.ctl.epoch) = bankOf s (s.ctl.epoch + 1) := by
  have h3 : ∀ (u : State) (k : Nat), bankOf (if (c.fns.filter fun f => !linkFn f).contains .hbmMap = true
      then setHbm u { u.hbm with sizes := sizesNow u } else u) k = bankOf u k := fun u k => by split <;> rfl
  have h4 : ∀ (u : State) (n k : Nat), bankOf (if c.advance then opsSeeDrain n u else u) k = bankOf u k := fun u n k => by
    split <;> rfl
  simp only [atT0, h4, h3]
  cases hb : c.boot
  · have ha : c.advance = true := by simpa [hb] using h
    simp only [ha, if_true, Bool.false_eq_true, if_false]
    rw [bankOf, bankOf, show (s.ctl.epoch + 1) % 4 % 2 = (s.ctl.epoch + 1) % 2 by omega]
    rfl
  · simp only [if_true]
    cases ha : c.advance
    · exact bankOf_setBank_same _ _ rfl
    · simp only [if_true]
      rw [bankOf_setBank_other _ _ (by omega), bankOf, bankOf, show (s.ctl.epoch + 1) % 4 % 2 = (s.ctl.epoch + 1) % 2 by omega]
      rfl

section
variable {s : State} {c : Commit} (hc : s.ctl.commit = some c)
include hc

theorem execCommitBacklogReady_announces {t0 : Nat} (ha : c.announced = false) (hup : s.safe.cobblerReady = true)
    (ht : raw s + cyc 2000 ≤ t0) (hlow : ∀ p ∈ c.fns.flatMap fnPipelines, (hdrFifo s p).length ≤ 8192) :
    execCommitBacklogReady t0 s = .next (setCtl s { s.ctl with commit := some { c with announced := true, t0 := t0 } }) := by
  have hb : commitBacklog c s = false := by
    rw [commitBacklog, List.any_eq_false]
    intro p hp
    exact fun h => Nat.not_lt.2 (hlow p hp) (of_decide_eq_true h)
  simp only [execCommitBacklogReady, hc, ha, hup, hb]
  rw [if_neg (by simp; omega)]

/-- A commit that nobody but the mailbox waits for is answered there when it is dropped. -/
theorem commitDrop_mailbox (st d : Nat) (hop : c.op = none) (hwho : c.asker.who = 0) : commitDrop st d s =
    mbxFinish (answerMsg c.asker.msg (refuse st d)) (setCtl s { s.ctl with commit := none }) := by
  simp only [commitDrop, hc, hop, hwho]
  rfl

theorem execCommitBacklogTimeout_drops (ha : c.announced = false) (hdue : c.accepted + cyc 2000000 ≤ raw s)
    (hhigh : ∃ p ∈ c.fns.flatMap fnPipelines, 8192 < (hdrFifo s p).length) :
    execCommitBacklogTimeout s = .next (commitDrop stBusy 3 s) := by
  have hb : commitBacklog c s = true := by
    obtain ⟨p, hp, hlt⟩ := hhigh
    exact List.any_eq_true.2 ⟨p, hp, decide_eq_true hlt⟩
  simp only [execCommitBacklogTimeout, hc, ha, hb]
  rw [if_pos (by simpa using hdue)]

theorem execCommitStopInstant_stops (ha : c.announced = true) (hb : c.begun = false) (ht : c.t0 ≤ raw s) :
    execCommitStopInstant s = .next (commitStop c (commitTables c s)) := by
  simp only [execCommitStopInstant, hc, ha, hb]
  rw [if_neg (by simp; omega)]

end

/-- Settles O8: `atT0` is what T0 makes of the control part, and the stops of the functions leave it. -/
theorem commitReachesT0 : Obligations.CommitReachesT0 := by
  unfold Obligations.CommitReachesT0
  refine ⟨fun s c t0 hc ha hup ht hlow => ?_, fun s c hc ha hop hwho hdue hhigh => ?_, fun s c hc ha hb ht => ?_,
    fun s n hc hst => ?_⟩
  · exact execCommitBacklogReady_announces hc ha hup ht hlow
  · refine ⟨_, execCommitBacklogTimeout_drops hc ha hdue hhigh, ?_⟩
    rw [commitDrop_mailbox hc _ _ hop hwho, mbxFinish_eq]
    exact ⟨rfl, rfl, rfl, rfl, rfl⟩
  · refine ⟨_, execCommitStopInstant_stops hc ha hb ht, ?_⟩
    have ht' := ctl_of_steady (steady_commitStop c (commitTables c s))
    have he : (commitTables c s).ctl.epoch = s.ctl.epoch := by rw [commitTables_ctl]
    have hbank : ∀ k, bankOf (commitStop c (commitTables c s)) k = bankOf (atT0 c (commitTables c s)) k := fun k =>
      bankOf_of_ctl (by rw [ht']) (by rw [ht'])
    obtain ⟨b0, b1, ops, h0⟩ := atT0_ctl c (commitTables c s)
    have hbank0 := fun h => bankOf_atT0 (c := c) h (commitTables c s)
    generalize commitStop c (commitTables c s) = t at ht' hbank ⊢
    generalize atT0 c (commitTables c s) = u at ht' hbank h0 hbank0
    simp only [he, commitTables_raw] at h0 hbank0
    have hepoch : t.ctl.epoch = if c.advance then (s.ctl.epoch + 1) % 4 else s.ctl.epoch := by rw [ht', h0]
    refine ⟨?_, ?_, hepoch, ?_, fun h => ?_, fun f hf hlink => ?_, ?_⟩
    · rw [ht', h0, commitTables_ctl]
    · rw [ht', h0, commitTables_ctl]
    · rw [ht', h0, commitTables_ctl]
    · rw [hepoch, hbank, hbank0 h]
      exact freeBank_commitTables h s
    · rw [ht', h0]
      exact List.mem_append_right _ (List.mem_map.2 ⟨f, List.mem_filter.2 ⟨hf, by simp [hlink]⟩, rfl⟩)
    · rw [ht', h0]
      exact ⟨_, rfl, rfl, rfl⟩
  · show execLastingRestart .switchCore s = _
    simp [execLastingRestart, hc, hst, fnRestart]
    rfl

end Sys2Proof.Machine
end

section
namespace Sys2Proof.Machine

/-! ### Step 6 of a commit (Table 2-11, R66) -/

/-- The pattern slots and what goes with them. -/
def slots (s : State) : Slot × Slot × Slot × BitVec 32 × Nat × BitVec 32 × Option Commit :=
  (s.ctl.active, s.ctl.staged, s.ctl.previous, s.ctl.generation, s.ctl.epoch, s.ctl.liveEdits, s.ctl.commit)

/-- A pattern is active; the outputs have started. -/
def outputs (s : State) : Bool × Bool := (s.safe.patternActive, s.safe.outputsStarted)

/-- What the objects of a commit leave until the slots rotate. -/
def standing (s : State) : Slot × Slot × BitVec 32 × Nat × Bool × Bool :=
  (s.ctl.staged, s.ctl.previous, s.ctl.generation, s.ctl.epoch, outputs s)

section
variable {s t : State} (h : steady t = steady s)
include h

theorem slots_of_steady : slots t = slots s := by
  have hc := ctl_of_steady h
  simp only [slots]
  rw [hc]

theorem outputs_of_steady : outputs t = outputs s := congrArg Prod.snd h

theorem standing_of_steady : standing t = standing s := by
  have hc := ctl_of_steady h
  have ho := outputs_of_steady h
  simp only [standing, ho]
  rw [hc]

end

@[simp] theorem slots_raise (c : Nat) (ps : List Nat) (s : State) (f : Bool) : slots (raise c ps s f) = slots s :=
  slots_of_steady (steady_raise c ps s f)
@[simp] theorem outputs_raise (c : Nat) (ps : List Nat) (s : State) (f : Bool) : outputs (raise c ps s f) = outputs s :=
  outputs_of_steady (steady_raise c ps s f)

/-- The end of an operation is noted in its slot and reported. -/
theorem opFinish_slots (n k r : Nat) (s : State) : slots (opFinish n k r s) = slots s ∧ outputs (opFinish n k r s) = outputs s := by
  simp only [opFinish]
  split
  · exact ⟨rfl, rfl⟩
  · exact ⟨slots_raise .., outputs_raise ..⟩

theorem psindoSend_slots (n : Nat) (m : Bytes) (s : State) :
    slots (psindoSend n m s) = slots s ∧ outputs (psindoSend n m s) = outputs s := by
  simp only [psindoSend]
  split <;> exact ⟨rfl, rfl⟩

/-- An answer goes to the mailbox or a session. -/
theorem answerTo_slots (n : Nat) (m : Bytes) (a : Answer) (s : State) :
    slots (answerTo n m a s) = slots s ∧ outputs (answerTo n m a s) = outputs s := by
  simp only [answerTo]
  split
  · rw [mbxFinish_eq]; exact ⟨rfl, rfl⟩
  · split
    · exact ⟨rfl, rfl⟩
    · exact psindoSend_slots ..

/-- Giving an object its value in the new slot changes the active slot, and has the effect of a write. -/
theorem standing_commitObj (c : Commit) (a : Nat) (s : State) : standing (commitObj c a s) = standing s := by
  simp only [commitObj]
  split
  · rfl
  · exact (standing_of_steady (steady_writeEffect ..)).trans rfl

theorem standing_commitObjs (c : Commit) (l : List Nat) (s : State) :
    standing (l.foldl (fun t a => commitObj c a t) s) = standing s := by
  induction l generalizing s with
  | nil => rfl
  | cons a l ih => exact (ih _).trans (standing_commitObj c a s)

theorem standing_fnTake (c : Commit) (f : Fn) (s : State) : standing (fnTake c f s) = standing s :=
  (standing_of_steady (steady_fnRestart f _)).trans (standing_commitObjs ..)

theorem standing_fnTakes (c : Commit) (l : List Fn) (s : State) :
    standing (l.foldl (fun t f => fnTake c f t) s) = standing s := by
  induction l generalizing s with
  | nil => rfl
  | cons f l ih => exact (ih _).trans (standing_fnTake c f s)

theorem standing_commitLive (s : State) : standing (commitLive s) = standing s := by
  simp only [commitLive]
  split
  · rfl
  · split
    · rfl
    · exact (standing_commitObjs _ _ s)

/-- The state of a commit once its slots have rotated, before links restart and the answer is sent. -/
def rotated (c : Commit) (s : State) : State :=
  let s2 := rotateSlots c ((c.fns.filter linkFn).foldl (fun t f => fnStop f t) (commitLive s))
  recrcActive (setCtl s2 { s2.ctl with commit := none, liveEdits := 0, lastStop := c.longest })

/-- The answer of a commit goes to its operation, its asker, or nobody. -/
def commitReply (c : Commit) (ans : Answer) (s : State) : State :=
  match c.op with
  | some n => opFinish n 5 stOk s
  | none => if c.asker.who < 9 then answerTo c.asker.who c.asker.msg ans s else s

theorem commitReply_slots (c : Commit) (ans : Answer) (s : State) :
    slots (commitReply c ans s) = slots s ∧ outputs (commitReply c ans s) = outputs s := by
  simp only [commitReply]
  split
  · exact opFinish_slots ..
  · split
    · exact answerTo_slots ..
    · exact ⟨rfl, rfl⟩

/-- The end of a commit but for the outputs that a first pattern starts. -/
def commitAnswered (c : Commit) (s : State) : State :=
  let s3 := rotated c s
  let v := s3.ctl.active.version.toNat
  let s5 := commitReply c
    { status := stOk, body := leBytes 4 v ++ [BitVec.ofNat 8 s.ctl.epoch, 0, 0, 0] ++ leBytes 8 c.longest }
    ((c.fns.filter linkFn).foldl (fun t f => fnRestart f t) s3)
  if c.revert then raise 0x0D04 [v, s.ctl.epoch] s5 else raise 0x0D01 [v, s.ctl.epoch, c.longest] s5

theorem commitFinish_eq (c : Commit) (s : State) : commitFinish c s = bootOutputs c.boot (commitAnswered c s) := rfl

theorem commitAnswered_slots (c : Commit) (s : State) :
    slots (commitAnswered c s) = slots (rotated c s) ∧ outputs (commitAnswered c s) = outputs (rotated c s) := by
  have h4 : steady ((c.fns.filter linkFn).foldl (fun t f => fnRestart f t) (rotated c s)) = steady (rotated c s) :=
    steady_foldl (fun t f => steady_fnRestart f t) _ _
  have h5 := fun ans => commitReply_slots c ans ((c.fns.filter linkFn).foldl (fun t f => fnRestart f t) (rotated c s))
  rw [slots_of_steady h4, outputs_of_steady h4] at h5
  simp only [commitAnswered]
  split <;> exact ⟨(slots_raise ..).trans (h5 _).1, (outputs_raise ..).trans (h5 _).2⟩

theorem steady_prepareOnce (s : State) : steady (prepareOnce s) = steady s := by
  simp only [prepareOnce]; split <;> rfl

/-- The outputs start; links, groups and clocks follow. -/
theorem steady_startOutputs (s : State) :
    steady (startOutputs s) = steady (setSafe s { s.safe with outputsStarted := true }) := by
  simp only [startOutputs]
  rw [steady_recclkReview, steady_foldl (by simp), steady_foldl (by simp), steady_foldl (by simp)]
  rfl

/-- The first pattern becomes active and starts the outputs; a later one finds both as they are. -/
theorem bootOutputs_slots (b : Bool) (s : State) :
    slots (bootOutputs b s) = slots s ∧ outputs (bootOutputs b s) = (s.safe.patternActive || b, s.safe.outputsStarted || b) := by
  cases b
  · simp only [bootOutputs, Bool.or_false]; exact ⟨rfl, rfl⟩
  · simp only [bootOutputs, Bool.or_true, if_true]
    generalize hu : setSafe (setSafe s _) _ = u
    have hp := steady_prepareOnce u
    have h := steady_startOutputs (prepareOnce u)
    refine ⟨(slots_of_steady h).trans ((slots_of_steady hp).trans ?_), (outputs_of_steady h).trans ?_⟩
    · rw [← hu]; rfl
    · have hpat : (prepareOnce u).safe.patternActive = true := by rw [patternActive_of_steady hp, ← hu]; rfl
      simp only [outputs, setSafe_safe, hpat]

/-- What the end of a commit leaves in the slots (Table 2-11, step 6; R66). -/
theorem commitFinish_spec (c : Commit) (s : State) : ∃ crc,
    slots (commitFinish c s) = ({ c.newSlot with tables := emptyBank, crc := crc },
      if c.revert then { s.ctl.staged with state := 1, signature := if c.advance then [] else s.ctl.staged.signature }
        else { c.newSlot with tables := emptyBank },
      if c.revert then c.oldSlot else if c.boot then emptySlot else c.oldSlot,
      if c.revert then s.ctl.generation else 0, s.ctl.epoch, 0, none) ∧
    outputs (commitFinish c s) = (s.safe.patternActive || c.boot, s.safe.outputsStarted || c.boot) := by
  have hlinks : steady ((c.fns.filter linkFn).foldl (fun t f => fnStop f t) (commitLive s)) = steady (commitLive s) :=
    steady_foldl (fun t f => steady_fnStop f t) _ _
  have h1 := (standing_of_steady hlinks).trans (standing_commitLive s)
  obtain ⟨hslots, houts⟩ := commitAnswered_slots c s
  obtain ⟨hslots', houts'⟩ := bootOutputs_slots c.boot (commitAnswered c s)
  rw [commitFinish_eq, hslots', houts', hslots]
  have hrot : rotated c s = recrcActive (setCtl (rotateSlots c ((c.fns.filter linkFn).foldl (fun t f => fnStop f t) (commitLive s)))
    { (rotateSlots c ((c.fns.filter linkFn).foldl (fun t f => fnStop f t) (commitLive s))).ctl with
      commit := none, liveEdits := 0, lastStop := c.longest }) := rfl
  generalize (c.fns.filter linkFn).foldl (fun t f => fnStop f t) (commitLive s) = s1 at h1 hrot
  simp only [standing, Prod.mk.injEq] at h1
  obtain ⟨hstaged, hprev, hgen, hepoch, hout⟩ := h1
  have hout' : outputs (rotated c s) = outputs s1 := by
    rw [hrot]; simp only [rotateSlots]; split <;> rfl
  have hact : (commitAnswered c s).safe.patternActive = s.safe.patternActive ∧
      (commitAnswered c s).safe.outputsStarted = s.safe.outputsStarted := Prod.mk.injEq .. ▸ houts.trans (hout'.trans hout)
  refine ⟨(rotated c s).ctl.active.crc, ?_, by rw [hact.1, hact.2]⟩
  rw [hrot]
  cases hr : c.revert <;>
    simp only [rotateSlots, hr, Bool.false_eq_true, if_true, if_false, slots, recrcActive, setCtl_ctl, hstaged, hepoch, hgen]

section
variable {s : State} {c : Commit} (hc : s.ctl.commit = some c)
include hc

theorem execCommitAnswer_finishes (hb : c.begun = true) (hfast : fastLeft s = false) (hup : s.safe.cobblerReady = true) :
    execCommitAnswer s = .next (commitFinish c s) := by
  simp [execCommitAnswer, hc, hb, hfast, hup]

end

/-! ### The drain (R65) -/

/-- The value of an object in the staged pattern rests on the keys, the slots' objects and the board record. -/
theorem stagedB_congr {s t : State} {a : Nat} (hk : t.ctl.keys = s.ctl.keys) (ho : t.ctl.active.objs = s.ctl.active.objs)
    (hst : t.ctl.staged.objs = s.ctl.staged.objs) (hb : t.safe.boardMgmt = s.safe.boardMgmt) : stagedB t a = stagedB s a := by
  simp only [stagedB, cfgB_congr hk ho hb, hst, hb]

theorem zeroChanged_congr {s t : State} (h : ∀ a, stagedB t a = stagedB s a) (b : Banked) : zeroChanged t b = zeroChanged s b := by
  simp only [zeroChanged, h]

section
variable {s : State} {d : Drain} (hd : s.ctl.drain = some d)
include hd

/-- The end of a drain writes the old bank and ends the drain (R65, R90). -/
theorem drainEnd_ctl : ∃ x, (drainEnd s).ctl = { (setBank s d.old (zeroChanged s (bankOf s s.ctl.epoch))).ctl with
    drain := none, staged := x } := by
  simp only [drainEnd, hd]
  exact ⟨_, rfl⟩

theorem execEpochDrainEnd_ends (h0 : tget 0 s.ctl.epochCount d.old = 0) :
    execEpochDrainEnd s = .next (raise 0x0D02 [d.old, (raw s - d.since) / 800] (drainEnd s)) := by
  simp only [execEpochDrainEnd, hd, h0, if_true]

theorem execEpochDrainTimeout_ends (hdue : d.since + cyc (cfgN s 0x1105 0 0) ≤ raw s) : execEpochDrainTimeout s =
    .next (raise 0x0D02 [d.old, (raw s - d.since) / 800]
      (drainEnd (raise 0x0D07 [d.old, tget 0 s.ctl.epochCount d.old] (expireEpoch d.old s)))) := by
  simp only [execEpochDrainTimeout, hd, hdue, if_true]

theorem drainEnd_spec : (drainEnd s).ctl.drain = none ∧ bankOf (drainEnd s) d.old = zeroChanged s (bankOf s s.ctl.epoch) ∧
    (drainEnd s).ctl.epoch = s.ctl.epoch ∧ (drainEnd s).ctl.active = s.ctl.active ∧
    (drainEnd s).ctl.epochCount = s.ctl.epochCount := by
  obtain ⟨x, hx⟩ := drainEnd_ctl hd
  have hb := setBank_ctl s d.old (zeroChanged s (bankOf s s.ctl.epoch))
  refine ⟨by rw [hx], ?_, by rw [hx, hb], by rw [hx, hb], by rw [hx, hb]⟩
  exact (bankOf_of_ctl (by rw [hx]) (by rw [hx])).trans (bankOf_setBank_same s _ rfl)

end

/-- With no packet in the device the expiry of an epoch forgets its count alone. -/
theorem expireEpoch_of_pkts_nil {s : State} (h : s.path.pkts = []) (e : Nat) : (expireEpoch e s).ctl =
    { s.ctl with epochCount := tdel s.ctl.epochCount e } ∧ (expireEpoch e s).safe = s.safe := by
  simp [expireEpoch, h]

/-- Settles O9: `commitFinish_spec` says what a commit's end leaves, `drainEnd_spec` a drain's. -/
theorem commitRotatesSlotsAndEpochDrains : Obligations.CommitRotatesSlotsAndEpochDrains := by
  unfold Obligations.CommitRotatesSlotsAndEpochDrains
  refine ⟨fun s c hc hb hfast hup => ?_, fun s d hd h0 => ?_, fun s d hd h0 => ?_, fun s d hd hdue hpkts => ?_⟩
  · refine ⟨_, execCommitAnswer_finishes hc hb hfast hup, ?_⟩
    obtain ⟨crc, hslots, hout⟩ := commitFinish_spec c s
    generalize commitFinish c s = t at hslots hout
    simp only [slots, outputs, Prod.mk.injEq] at hslots hout
    obtain ⟨hactive, hstaged, hprev, hgen, hepoch, hedits, hcommit⟩ := hslots
    refine ⟨hcommit, hedits, by rw [hactive], by rw [hactive], fun hr => ?_, fun hr => ?_, hout.1⟩
    · simp only [hr, Bool.false_eq_true, if_false] at hstaged hprev hgen
      exact ⟨by rw [hstaged], hgen, hprev⟩
    · simp only [hr, if_true] at hstaged hprev
      exact ⟨hstaged, hprev⟩
  · obtain ⟨hdrain, hbank, hepoch, hactive, -⟩ := drainEnd_spec hd
    refine ⟨_, execEpochDrainEnd_ends hd h0, ?_⟩
    simp only [bankOf, raise_ctl] at hbank ⊢
    exact ⟨hdrain, hbank, hepoch, hactive⟩
  · show execEpochDrainEnd s = _
    simp only [execEpochDrainEnd, hd, h0, if_false]
  · obtain ⟨hctl, hsafe⟩ := expireEpoch_of_pkts_nil hpkts d.old
    refine ⟨_, execEpochDrainTimeout_ends hd hdue, ?_⟩
    generalize hu : raise 0x0D07 [d.old, tget 0 s.ctl.epochCount d.old] (expireEpoch d.old s) = u
    have huctl : u.ctl = { s.ctl with epochCount := tdel s.ctl.epochCount d.old } := by rw [← hu, raise_ctl, hctl]
    have husafe : u.safe = s.safe := by rw [← hu, raise_safe, hsafe]
    obtain ⟨hdrain, hbank, -, -, hcount⟩ := drainEnd_spec (s := u) (d := d) (by rw [huctl]; exact hd)
    have hst : ∀ a, stagedB u a = stagedB s a := fun a =>
      stagedB_congr (by rw [huctl]) (by rw [huctl]) (by rw [huctl]) (by rw [husafe])
    have hzero : zeroChanged u (bankOf u u.ctl.epoch) = zeroChanged s (bankOf s s.ctl.epoch) := by
      rw [zeroChanged_congr hst]
      simp only [bankOf, huctl]
    rw [hzero] at hbank
    simp only [bankOf, raise_ctl] at hbank ⊢
    exact ⟨hdrain, by rw [hcount, huctl], hbank⟩

end Sys2Proof.Machine
end

section
namespace Sys2Proof.Machine

/-! ### The boot sequence (16.1, R446 to R448) -/

@[simp] theorem reviewGuarantee_ctl (s : State) : (reviewGuarantee s).ctl = s.ctl := by rw [reviewGuarantee_eq]

@[simp] theorem bootDid_bootStep (n : Nat) (s : State) : bootDid n (bootStep n s) = true := by simp [bootDid, bootStep]

@[simp] theorem steady_bootStep (n : Nat) (s : State) : steady (bootStep n s) = steady s := rfl

theorem bootDid_reviewGuarantee (n : Nat) (s : State) : bootDid n (reviewGuarantee s) = bootDid n s := by
  simp only [bootDid]
  rw [reviewGuarantee_eq]

/-- The rise of RESET_N leaves only what survives a reset, and step 1 done (R446). -/
theorem execResetNRise_plain {s : State} (hp : s.safe.powered = true) (hr : s.safe.resetN = false) :
    execResetNRise none s = .next (bootFromStep1 (setSafe s { s.safe with pwrOk := true })) := by
  simp [execResetNRise, hp, hr]

section
variable {s : State}

theorem execSramInitialised_sound (h3 : bootDid 3 s = true) (h6 : bootDid 6 s = false) (hs : s.safe.safeStop = false) :
    execSramInitialised [] s = .next (reviewGuarantee (bootStep 6 s)) := by
  simp [execSramInitialised, h3, h6, hs]

/-- A failing SRAM without a spare ends the boot in safe stop with cause 18 (R448). -/
theorem execSramInitialised_failing {k u b : Nat} (hk : 2 ≤ k) (h3 : bootDid 3 s = true) (h6 : bootDid 6 s = false)
    (hs : s.safe.safeStop = false) :
    execSramInitialised [(k, u, b)] s = .next (reviewGuarantee (safeStop 18 (bootEvent 2 s))) := by
  have htake : spareTakes (k, u, b) s = false := by
    obtain ⟨j, rfl⟩ : ∃ j, k = j + 2 := ⟨k - 2, by omega⟩
    rfl
  have hev : (bootEvent 2 s).safe = s.safe := raise_safe ..
  simp [execSramInitialised, h3, h6, hs, spareBank, htake, safeStop_safe, hev]

/-- Four reports of stacks touch the host interface and the counters. -/
theorem foldl_stackReport_eq (ms : Nat) (l : List Nat) (s : State) : l.foldl (fun t st => stackReport ms st t) s = { s with
    host := (l.foldl (fun t st => stackReport ms st t) s).host, cnt := (l.foldl (fun t st => stackReport ms st t) s).cnt } := by
  induction l generalizing s with
  | nil => rfl
  | cons st l ih =>
    simp only [List.foldl_cons]
    rw [ih, stackReport, raise_eq]

/-- The HBM after training that found nothing: every codeword zero, every pseudo-channel in service. -/
def hbmFresh (s : State) : State := setHbm s { s.hbm with mem := [], poison := [], pcs := [], stackSt := [] }

theorem execHbmTrained_sound (ms : Nat) (h3 : bootDid 3 s = true) (h7 : bootDid 7 s = false) : ∃ h n,
    execHbmTrained ms [] s = .next { hbmFresh s with
      host := h, cnt := n, safe := { s.safe with bootDone := s.safe.bootDone ++ [7] } } := by
  have h3' : s.safe.bootDone.contains 3 = true := h3
  have h7' : s.safe.bootDone.contains 7 = false := h7
  have hrep := foldl_stackReport_eq ms [0, 1, 2, 3] (hbmFresh s)
  generalize hu : [0, 1, 2, 3].foldl (fun t st => stackReport ms st t) (hbmFresh s) = u at hrep
  refine ⟨u.host, u.cnt, ?_⟩
  have hx : execHbmTrained ms [] s = .next { u with safe := { u.safe with bootDone := u.safe.bootDone ++ [7] } } := by
    rw [← hu]
    exact if_neg (by simp only [h3', h7']; decide)
  rw [hx, hrep]
  rfl

/-- The boot pattern enters its slot VALID, and the flow partitions are prepared (R67, R173). -/
def bootPatternTaken (s : State) : State :=
  let x := (parseImage s.ctl.bootImage).1
  let s1 := setCtl s { s.ctl with boot := { x with state := 2, tables := (parseImage s.ctl.bootImage).2 } }
  bootStep 8 (setFlow s1 (prepareFlows (asActive x s1)).flow)

/-- A bad boot pattern is kept INVALID and reported (R67, R448). -/
def bootPatternRefused (ps : List Nat) (s : State) : State :=
  let x := (parseImage s.ctl.bootImage).1
  let s1 := setCtl s { s.ctl with
    boot := if s.ctl.bootImage.isEmpty then emptySlot else { x with state := 3, tables := (parseImage s.ctl.bootImage).2 }
    lastReject := (ps.drop 1).headD s.ctl.lastReject }
  bootEvent 0 (raise 0x0D05 ps (setSafe s1 { s1.safe with bootPatternBad := true }))

theorem bootPatternRefused_eq (ps : List Nat) (s : State) : (bootPatternRefused ps s).safe =
    { s.safe with bootPatternBad := true } ∧ (bootPatternRefused ps s).ports = s.ports := by
  simp only [bootPatternRefused, bootEvent]
  rw [raise_eq, raise_eq]
  exact ⟨rfl, rfl⟩

theorem execBootPatternCheck_due (h5 : bootDid 5 s = true) (h6 : bootDid 6 s = true) (h7 : bootDid 7 s = true)
    (h8 : bootDid 8 s = false) (hbad : s.safe.bootPatternBad = false) : execBootPatternCheck s =
      .next ((bootPatternBad s).elim (bootPatternTaken s) fun ps => bootPatternRefused ps s) := by
  simp only [execBootPatternCheck, h5, h6, h7, h8, hbad]
  cases bootPatternBad s <;> rfl

/-- The state in which the slots of the boot's commit rotate: every function has taken its values. -/
def bootTaken (s : State) : State :=
  ((bootCommitOf s).fns.filter fun f => !linkFn f).foldl (fun t f => fnTake (bootCommitOf s) f t) (setCtl s { s.ctl with
    bank0 := { (bootCommitOf s).newTables with stage := stageOf (bootCommitOf s).newSlot }, bank1 := (bootCommitOf s).newTables
    commit := some (bootCommitOf s), epoch := 0 })

theorem execBootCommit_due (h8 : bootDid 8 s = true) (hp : s.safe.patternActive = false) (hc : s.ctl.commit = none) :
    execBootCommit s = .next (reviewGuarantee (bootStep 9 (commitFinish (bootCommitOf s) (bootTaken s)))) := by
  simp [execBootCommit, h8, hp, hc, bootTaken]

/-- After the boot's commit the boot slot's objects are active and staged, in epoch 0, and the outputs run. -/
theorem bootCommit_spec (s : State) : ∃ crc,
    slots (commitFinish (bootCommitOf s) (bootTaken s)) = ({ s.ctl.boot with tables := emptyBank, crc := crc },
      { s.ctl.boot with tables := emptyBank }, emptySlot, 0, 0, 0, none) ∧
    outputs (commitFinish (bootCommitOf s) (bootTaken s)) = (true, true) := by
  obtain ⟨crc, hslots, hout⟩ := commitFinish_spec (bootCommitOf s) (bootTaken s)
  have hst := standing_fnTakes (bootCommitOf s) ((bootCommitOf s).fns.filter fun f => !linkFn f) (setCtl s { s.ctl with
    bank0 := { (bootCommitOf s).newTables with stage := stageOf (bootCommitOf s).newSlot }, bank1 := (bootCommitOf s).newTables
    commit := some (bootCommitOf s), epoch := 0 })
  simp only [standing, Prod.mk.injEq] at hst
  obtain ⟨-, -, -, hepoch, -⟩ := hst
  refine ⟨crc, hslots.trans ?_, hout.trans ?_⟩
  · rw [show (bootTaken s).ctl.epoch = 0 from hepoch]
    rfl
  · simp only [show (bootCommitOf s).boot = true from rfl, Bool.or_true]

end

/-- Settles O50: each step of Table 16-1 by its own lemma; step 9 is `commitFinish_spec` after the functions took their values. -/
theorem bootSteps : Obligations.BootSteps := by
  unfold Obligations.BootSteps
  refine ⟨⟨fun s hp hr => ?_, fun s h1 h2 => ?_, fun s h2 h3 => ?_⟩,
    ⟨fun s h3 h6 hs => ?_, fun s k u b hk h3 h6 hs => ?_, fun s ms h3 h7 => ?_⟩,
    fun s h5 h6 h7 h8 hbad => ?_, fun s h8 hp hc => ?_⟩
  · exact ⟨_, execResetNRise_plain hp hr, rfl, rfl, rfl, rfl, rfl, rfl, rfl,
      ⟨⟨rfl, rfl, rfl, rfl⟩, ⟨rfl, rfl⟩, ⟨rfl, rfl⟩, rfl, ⟨rfl, rfl⟩, rfl, ⟨rfl, rfl⟩⟩⟩
  · show execPllLocked s = _
    simp [execPllLocked, h1, h2, bootStep]
    rfl
  · show execRomStartComplete s = _
    simp [execRomStartComplete, h2, h3, bootStep]
    rfl
  · refine ⟨_, execSramInitialised_sound h3 h6 hs, by rw [bootDid_reviewGuarantee, bootDid_bootStep], ?_⟩
    rw [reviewGuarantee_eq]
    rfl
  · refine ⟨_, execSramInitialised_failing hk h3 h6 hs, ?_⟩
    have hev : (bootEvent 2 s).safe = s.safe := raise_safe ..
    rw [reviewGuarantee_eq]
    simp [safeStop_safe, hev, hs]
  · obtain ⟨h, n, ht⟩ := execHbmTrained_sound ms h3 h7
    refine ⟨_, ht, fun a => rfl, rfl, fun n => rfl, by simp [bootDid], rfl⟩
  · refine ⟨_, execBootPatternCheck_due h5 h6 h7 h8 hbad, ?_⟩
    cases bootPatternBad s with
    | none => exact ⟨fun _ => ⟨bootDid_bootStep 8 _, rfl, rfl, rfl, hbad⟩, fun h => absurd rfl h⟩
    | some ps =>
      obtain ⟨hsafe, hports⟩ := bootPatternRefused_eq ps s
      refine ⟨nofun, fun _ => ?_⟩
      simp only [Option.elim_some, hsafe, hports, and_self]
  · obtain ⟨crc, hslots, hout⟩ := bootCommit_spec s
    refine ⟨_, execBootCommit_due h8 hp hc, ?_⟩
    have hend : steady (reviewGuarantee (bootStep 9 (commitFinish (bootCommitOf s) (bootTaken s)))) =
        steady (commitFinish (bootCommitOf s) (bootTaken s)) := by rw [steady_reviewGuarantee, steady_bootStep]
    rw [← slots_of_steady hend] at hslots
    rw [← outputs_of_steady hend] at hout
    have h9 := (bootDid_reviewGuarantee 9 _).trans (bootDid_bootStep 9 (commitFinish (bootCommitOf s) (bootTaken s)))
    generalize reviewGuarantee (bootStep 9 (commitFinish (bootCommitOf s) (bootTaken s))) = t at hslots hout h9
    simp only [slots, outputs, Prod.mk.injEq] at hslots hout
    obtain ⟨hactive, hstaged, hprev, -, hepoch, -, -⟩ := hslots
    exact ⟨by rw [hactive], by rw [hstaged], hprev, hepoch, hout.1, hout.2, h9⟩

end Sys2Proof.Machine
end

section
namespace Sys2Proof.Machine

/-! ### The pattern subcommands (R58 to R61, R66) -/

/-- A body of the right length is not refused for its length. -/
theorem lengthBad_of_length {n : Nat} {b : Bytes} (h : b.length = n) : lengthBad n b = none := if_pos h

section
variable {s : State} {sub : Nat} {staged : Bool} {body : Bytes}

/-- A subcommand of the pattern requests belongs to its own row (Table 2-5). -/
theorem isRow_pattern (hr : MailboxRequest s 0x20 sub staged body) (hsub : sub ≤ 5) : isRow 0x20 sub (mbxMsg s) = true := by
  simp [isRow, msgRow, show msgType (mbxMsg s) = 0x20 from mailbox_type hr, show msgSub (mbxMsg s) = sub from mailbox_sub hr, hsub]

theorem msgKnown_pattern (hr : MailboxRequest s 0x20 sub staged body) (hsub : sub ≤ 5) : msgKnown (mbxMsg s) = true := by
  simp [msgKnown, show msgType (mbxMsg s) = 0x20 from mailbox_type hr, show msgSub (mbxMsg s) = sub from mailbox_sub hr, hsub]

end

theorem parseImage_state (img : Bytes) : (parseImage img).1.state = 1 := rfl

/-- A staged edit touches the staged slot and the generation (R58). -/
theorem stagedEdit_ctl (s : State) : (stagedEdit s).ctl =
    { s.ctl with generation := s.ctl.generation + 1, staged := (stagedEdit s).ctl.staged } := congrArg State.ctl (stagedEdit_eq s)

theorem setFreeBank_ctl (s : State) (b : Banked) : (setFreeBank s b).ctl =
    { s.ctl with bank0 := (setFreeBank s b).ctl.bank0, bank1 := (setFreeBank s b).ctl.bank1 } :=
  congrArg State.ctl (setFreeBank_eq s b)

/-- The segment that is first and last makes the staged slot of its image (R58). -/
theorem loadSegment_whole {s : State} (hd : s.ctl.drain = none) (img : Bytes) : ∃ b0 b1, (loadSegment [] img true s).ctl =
    { s.ctl with staged := (parseImage img).1, generation := s.ctl.generation + 1, loading := [], loadOpen := false
                 bank0 := b0, bank1 := b1 } := by
  have hs : loadSegment [] img true s = (let s1 := stagedEdit (setCtl s { s.ctl with loading := img, loadOpen := true })
      setFreeBank (setStaged (setCtl s1 { s1.ctl with loading := [], loadOpen := false }) (parseImage img).1) (parseImage img).2) := by
    simp only [loadSegment, hd]
    rfl
  have hc := stagedEdit_ctl (setCtl s { s.ctl with loading := img, loadOpen := true })
  rw [hs]
  generalize stagedEdit (setCtl s { s.ctl with loading := img, loadOpen := true }) = s1 at hc
  dsimp only
  rw [setFreeBank_ctl]
  generalize (parseImage img).1 = x
  simp only [setStaged, setCtl_ctl]
  rw [hc]
  exact ⟨_, _, rfl⟩

section
variable {s : State}

theorem loadReq_whole {img : Bytes} (hr : MailboxRequest s 0x20 0 false (List.replicate 8 0 ++ img))
    (hlast : msgLast (mbxMsg s) = true) (hlen : 32 ≤ img.length) (hc : s.ctl.commit = none) (hd : s.ctl.drain = none) :
    ∃ a, loadReq (mbxReq s) s = (a, loadSegment [] img true s) := by
  have hbody := mailbox_body hr
  have hlast' : msgLast (mbxReq s).msg = true := hlast
  have hoff : leNat ((List.replicate 8 (0 : Byte) ++ img).take 4) = 0 := rfl
  have hseg : (List.replicate 8 (0 : Byte) ++ img).drop 8 = img := rfl
  have hn : ¬ (List.replicate 8 (0 : Byte) ++ img).length < 8 := by simp
  simp only [loadReq, hbody, hoff, hseg, hc, hd, hlast', if_true, if_neg hn, Option.isSome_none, Bool.false_and, Bool.false_eq_true,
    ne_eq, not_true, false_and, true_and, if_false, if_neg (Nat.not_lt.2 hlen)]
  exact ⟨_, rfl⟩

theorem copyReq_copies (hr : MailboxRequest s 0x20 4 false []) (hc : s.ctl.commit = none) (hd : s.ctl.drain = none) :
    ∃ a t x, copyReq (mbxReq s) s = (a, t) ∧ t.ctl = { (setFreeBank s (bankOf s s.ctl.epoch)).ctl with
      generation := s.ctl.generation + 1, staged := x, loading := [], loadOpen := false } ∧
      x.state = 1 ∧ x.objs = s.ctl.active.objs := by
  have hbody := mailbox_body hr
  let u := stagedEdit (setStaged (setFreeBank s (bankOf s s.ctl.epoch)) s.ctl.active)
  have hcopy : ∃ a, copyReq (mbxReq s) s = (a, setCtl u { u.ctl with loading := [], loadOpen := false }) := by
    simp only [copyReq, hbody, lengthBad, List.length_nil, if_true, hc, hd, Option.isSome_none, Bool.false_eq_true, if_false]
    exact ⟨_, rfl⟩
  obtain ⟨a, ha⟩ := hcopy
  have hu : u.ctl = { (setFreeBank s (bankOf s s.ctl.epoch)).ctl with generation := s.ctl.generation + 1, staged := u.ctl.staged } := by
    have hgen : (setFreeBank s (bankOf s s.ctl.epoch)).ctl.generation = s.ctl.generation := by rw [setFreeBank_ctl]
    rw [← hgen]
    exact stagedEdit_ctl _
  have hstate : u.ctl.staged.state = 1 := rfl
  have hobjs : u.ctl.staged.objs = s.ctl.active.objs := rfl
  clear_value u
  refine ⟨a, _, u.ctl.staged, ha, ?_, hstate, hobjs⟩
  rw [setCtl_ctl, hu]

theorem validateStaged_spec (hl : s.ctl.loadOpen = false) :
    (validateStaged s).2.ctl = { s.ctl with
      staged := { s.ctl.staged with state := if validateCode s.ctl.staged (freeBank s) s = 0 then 2 else 3 }
      lastReject := if validateCode s.ctl.staged (freeBank s) s = 0 then s.ctl.lastReject
        else validateCode s.ctl.staged (freeBank s) s } := by
  have hcode : (if s.ctl.loadOpen then 0x0102 else validateCode s.ctl.staged (freeBank s) s) =
      validateCode s.ctl.staged (freeBank s) s := by rw [hl]; rfl
  simp only [validateStaged, hcode]
  generalize validateCode s.ctl.staged (freeBank s) s = code
  by_cases h : code = 0
  · simp only [h, if_true]; rfl
  · simp only [h, if_false, raise_ctl]; rfl

theorem validateReq_state (hr : MailboxRequest s 0x20 1 false []) : (validateReq (mbxReq s) s).2 = (validateStaged s).2 := by
  have hbody := mailbox_body hr
  simp only [validateReq, hbody, lengthBad, List.length_nil, if_true]
  split <;> rfl

theorem commitConflict_of_ops_nil (h : s.ctl.ops = []) (fns : List Fn) : commitConflict fns s = false := by
  simp [commitConflict, unfinished, h]

/-- A COMMIT that names the staged generation of a VALID slot, with nothing in its way, begins (R60). -/
theorem commitReq_begins (hr : MailboxRequest s 0x20 2 false (leBytes 4 s.ctl.generation.toNat)) (hst : s.ctl.staged.state = 2)
    (hc : s.ctl.commit = none) (hd : s.ctl.drain = none) (ho : s.ctl.ops = []) :
    commitReq (mbxReq s) s = (none, commitBegin false none { who := 0, msg := mbxMsg s } s) := by
  have hbody := mailbox_body hr
  have hg : leNat (leBytes 4 s.ctl.generation.toNat) = s.ctl.generation.toNat := leNat_leBytes_of_lt s.ctl.generation.isLt
  simp only [commitReq, hbody, lengthBad_of_length (length_leBytes 4 _), hg, hst, hc, hd, commitConflict_of_ops_nil ho,
    ne_eq, not_true_eq_false, or_self, if_false, Option.isSome_none, Bool.false_eq_true]
  rfl

theorem commitReq_invalid {g : Nat} (hg : g < 2 ^ 32) (hr : MailboxRequest s 0x20 2 false (leBytes 4 g))
    (h : s.ctl.staged.state ≠ 2 ∨ g ≠ s.ctl.generation.toNat) :
    commitReq (mbxReq s) s = (some (refuse stInvalid 0), s) := by
  have hbody := mailbox_body hr
  have hn : leNat (leBytes 4 g) = g := leNat_leBytes_of_lt hg
  simp only [commitReq, hbody, lengthBad_of_length (length_leBytes 4 g), hn, if_pos h]

theorem revertReq_begins (hr : MailboxRequest s 0x20 3 false []) (hst : s.ctl.previous.state = 2) (hc : s.ctl.commit = none)
    (hd : s.ctl.drain = none) (ho : s.ctl.ops = []) :
    revertReq (mbxReq s) s = (none, commitBegin true none { who := 0, msg := mbxMsg s } s) := by
  have hbody := mailbox_body hr
  simp only [revertReq, hbody, hst, hc, hd, commitConflict_of_ops_nil ho]
  rfl

end

/-- Settles O7: each subcommand's handler by its own lemma. -/
theorem patternCommands : Obligations.PatternCommands := by
  unfold Obligations.PatternCommands
  refine ⟨⟨fun s img hr hlast hlen hc hd => ?_, fun s hr hc hd => ?_, fun s hr hl => ?_⟩,
    fun s hr hst hc hd ho => ?_, fun s hr hst hc hd ho => ?_, fun s g hg hr h => ?_⟩
  · obtain ⟨a, ha⟩ := loadReq_whole hr hlast hlen hc hd
    obtain ⟨b0, b1, hctl⟩ := loadSegment_whole hd img
    obtain ⟨-, hans⟩ := mailbox_answered (h := atOnce loadReq) hr (isRow_pattern hr (by decide)) (msgKnown_pattern hr (by decide))
      (atOnce_eq ha) (by rw [hctl])
    have ht := hans.ctl
    rw [hctl] at ht
    refine ⟨_, rfl, ?_⟩
    rw [ht]
    exact ⟨parseImage_state img, rfl, rfl, rfl, rfl, rfl⟩
  · obtain ⟨a, u, x, hu, hctl, hstate, hobjs⟩ := copyReq_copies hr hc hd
    have hfree := setFreeBank_eq s (bankOf s s.ctl.epoch)
    obtain ⟨-, hans⟩ := mailbox_answered (h := atOnce copyReq) hr (isRow_pattern hr (by decide)) (msgKnown_pattern hr (by decide))
      (atOnce_eq hu) (by rw [hctl, hfree])
    have ht := hans.ctl
    refine ⟨_, rfl, by rw [ht, hctl]; exact hstate, by rw [ht, hctl]; exact hobjs, ?_, ?_, ?_, ?_, ?_⟩
    · rw [← freeBank_setFreeBank s (bankOf s s.ctl.epoch)]
      refine freeBank_congr ?_ ?_ ?_ <;> rw [ht, hctl]
    all_goals rw [ht, hctl, hfree]
  · obtain ⟨-, hans⟩ := mailbox_answered (h := atOnce validateReq) (a := (validateReq (mbxReq s) s).1) (t := (validateStaged s).2)
      hr (isRow_pattern hr (by decide)) (msgKnown_pattern hr (by decide))
      (by rw [← validateReq_state hr]; rfl) (by rw [validateStaged_spec hl])
    have ht := hans.ctl
    rw [validateStaged_spec hl] at ht
    refine ⟨_, rfl, fun h0 => ?_, fun h0 => ?_, ?_⟩
    · rw [ht]; simp only [h0, if_true, and_self]
    · rw [ht]; simp only [h0, if_false, and_self]
    · rw [ht]; exact ⟨rfl, rfl, rfl, rfl⟩
  · exact ⟨_, congrArg Host.Outcome.next (mailbox_serve hr (isRow_pattern hr (by decide)) (msgKnown_pattern hr (by decide))
      (commitReq_begins hr hst hc hd ho)), rfl, rfl, rfl, rfl, rfl, rfl⟩
  · exact ⟨_, congrArg Host.Outcome.next (mailbox_serve hr (isRow_pattern hr (by decide)) (msgKnown_pattern hr (by decide))
      (revertReq_begins hr hst hc hd ho)), rfl, rfl, rfl, rfl, rfl⟩
  · exact ⟨_, rfl, mailbox_answered hr (isRow_pattern hr (by decide)) (msgKnown_pattern hr (by decide))
      (commitReq_invalid hg hr h) rfl⟩

end Sys2Proof.Machine
end

section
namespace Sys2Proof.Machine

/-! ### Reserved fields are 0 once cleaned (R10) -/

theorem leBytes_mod (n v : Nat) : leBytes n (v % 256 ^ n) = leBytes n v := by
  induction n generalizing v with
  | zero => rfl
  | succ n ih =>
    have hdiv : v % 256 ^ (n + 1) / 256 = v / 256 % 256 ^ n := by rw [pow_succ', Nat.mod_mul_right_div_self]
    have hlow : BitVec.ofNat 8 (v % 256 ^ (n + 1)) = BitVec.ofNat 8 v := by
      apply BitVec.eq_of_toNat_eq
      rw [BitVec.toNat_ofNat, BitVec.toNat_ofNat, Nat.mod_mod_of_dvd _ (dvd_pow_self 256 (Nat.succ_ne_zero n))]
    rw [leBytes, leBytes, hdiv, ih, hlow]

/-- A value with the listed fields set to 0. -/
def zeroFields (l : List (Nat × Nat)) (n : Nat) : Nat := l.foldl (fun n r => putFld n r.1 r.2 0) n

theorem testBit_zeroFields {l : List (Nat × Nat)} (hl : ∀ r ∈ l, r.2 ≤ r.1) (n i : Nat) :
    (zeroFields l n).testBit i = (n.testBit i && l.all fun r => !(decide (r.2 ≤ i) && decide (i ≤ r.1))) := by
  induction l generalizing n with
  | nil => simp [zeroFields]
  | cons r l ih =>
    obtain ⟨hr, hl⟩ := List.forall_mem_cons.1 hl
    have ih' := ih hl (putFld n r.1 r.2 0)
    rw [testBit_putFld _ _ hr] at ih'
    simp only [zeroFields, List.foldl_cons, List.all_cons] at ih' ⊢
    rw [ih']
    by_cases h : r.2 ≤ i ∧ i ≤ r.1
    · simp [h]
    · have hf : (decide (r.2 ≤ i) && decide (i ≤ r.1)) = false := by simpa [Bool.and_eq_true] using h
      simp [h, hf]

theorem zeroFields_mod_zeroFields {l : List (Nat × Nat)} (hl : ∀ r ∈ l, r.2 ≤ r.1) (n k : Nat) :
    zeroFields l (zeroFields l n % 2 ^ k) % 2 ^ k = zeroFields l n % 2 ^ k := by
  apply Nat.eq_of_testBit_eq
  intro i
  simp only [Nat.testBit_mod_two_pow, testBit_zeroFields hl]
  cases decide (i < k) <;> cases n.testBit i <;> simp

theorem objReserved_le (a : Nat) : ∀ r ∈ objReserved a, r.2 ≤ r.1 := by
  unfold objReserved
  split <;> decide

theorem objClean_eq (a : Nat) (v : Bytes) : objClean a v =
    if objReserved a = [] then v else leBytes v.length (zeroFields (objReserved a) (leNat v)) := by
  simp only [objClean]
  split
  · rename_i h; rw [if_pos h]
  · rename_i h; rw [if_neg h]; rfl

/-- Cleaning a clean value changes nothing. -/
theorem objClean_objClean (a : Nat) (v : Bytes) : objClean a (objClean a v) = objClean a v := by
  by_cases h : objReserved a = []
  · rw [objClean_eq, if_pos h]
  · simp only [objClean_eq, if_neg h, length_leBytes, leNat_leBytes]
    rw [← leBytes_mod v.length (zeroFields _ (_ % _)), show (256 : Nat) ^ v.length = 2 ^ (8 * v.length) by rw [pow_mul]; rfl,
      zeroFields_mod_zeroFields (objReserved_le a), show (2 : Nat) ^ (8 * v.length) = 256 ^ v.length by rw [pow_mul]; rfl, leBytes_mod]

/-! ### WRITE of one object (R40, R57, R58) -/

section
variable {a ty : Nat} {v : Bytes} (ha : a < 2 ^ 36) (hty : ty < 256) (hv : v.length < 4000)
include ha hty hv

/-- The entry word of a WRITE as a number (2.3). -/
theorem leNat_entryWord : leNat (entryWord v.length ty false a) = v.length * 2 ^ 48 + ty * 2 ^ 40 + a := by
  have hb : b2n false = 0 := rfl
  rw [entryWord, hb, leNat_leBytes_of_lt (by omega)]
  omega

omit ha hty hv in
theorem length_padMul8 : (padMul 8 v).length = (v.length + 7) / 8 * 8 := by
  simp only [padMul, List.length_append, List.length_replicate]
  omega

/-- A body of one entry is parsed as that entry. -/
theorem parseEntries_one : (parseEntries 64 0 (entryWord v.length ty false a ++ padMul 8 v) []).1 = some [(a, ty, v)] := by
  have hlen : (entryWord v.length ty false a).length = 8 := length_leBytes ..
  have htake : (entryWord v.length ty false a ++ padMul 8 v).take 8 = entryWord v.length ty false a := List.take_left' hlen
  have hw := leNat_entryWord ha hty hv
  have hpad := length_padMul8 (v := v)
  have h39 : (v.length * 2 ^ 48 + ty * 2 ^ 40 + a).testBit 39 = false := by
    rw [Nat.testBit_eq_decide_div_mod_eq, decide_eq_false_iff_not]; omega
  have hl : fld (v.length * 2 ^ 48 + ty * 2 ^ 40 + a) 63 48 = v.length := by simp only [fld, Nat.shiftRight_eq_div_pow]; omega
  have ht : fld (v.length * 2 ^ 48 + ty * 2 ^ 40 + a) 47 40 = ty := by simp only [fld, Nat.shiftRight_eq_div_pow]; omega
  have haddr : fld (v.length * 2 ^ 48 + ty * 2 ^ 40 + a) 35 0 = a := by simp only [fld, Nat.shiftRight_eq_div_pow]; omega
  have hslice : slice (entryWord v.length ty false a ++ padMul 8 v) 8 v.length = v := by
    rw [slice, List.drop_left' hlen, padMul, List.take_left' rfl]
  have hne : (entryWord v.length ty false a ++ padMul 8 v).isEmpty = false := by
    rw [List.isEmpty_eq_false_iff, ← List.length_pos_iff]; simp only [List.length_append, hlen]; omega
  have hdrop : (entryWord v.length ty false a ++ padMul 8 v).drop (8 + (v.length + 7) / 8 * 8) = [] := by
    rw [List.drop_eq_nil_iff, List.length_append, hlen, hpad]
  rw [parseEntries]
  simp only [hne, htake, hw, hl, ht, haddr, h39, hslice, hdrop, List.length_append, hlen, hpad, lt_self_iff_false, Bool.false_eq_true,
    or_self, if_false, List.nil_append]
  rfl

end

/-- A WRITE of one entry that passes its checks is made, and sf.guarantee is reviewed (R40, R460). -/
theorem writeAll_one_passed {r : Req} {staged : Bool} {a ty : Nat} {v : Bytes} {s : State}
    (h : writeRefused r staged a ty v s = stOk) : writeAll r staged [(a, ty, v)] s =
      ({ status := stOk }, reviewGuarantee (if staged then stagedEdit (writeObj staged a v s) else writeObj staged a v s)) := by
  simp [writeAll, writeEntries, h]

theorem writeAll_one_refused {r : Req} {staged : Bool} {a ty : Nat} {v : Bytes} {s : State}
    (h : writeRefused r staged a ty v s ≠ stOk) :
    writeAll r staged [(a, ty, v)] s = (refuse (writeRefused r staged a ty v s) 0, s) := by
  simp [writeAll, writeEntries, h]

theorem liveSet_ctl {a : Nat} (hi : oaIndex a ≠ 0x1020) (v : Bytes) (s : State) : ∃ x : Slot,
    x.objs = tput s.ctl.active.objs a (objClean a v) ∧
    (liveSet a v s).ctl = { s.ctl with active := x, liveEdits := s.ctl.liveEdits + 1 } := by
  rw [liveSet, if_neg hi]
  exact ⟨_, rfl, rfl⟩

/-- A live write of an object counts one live edit, and stores a value of access RW (R57). -/
theorem writeObj_live {a : Nat} {row : ObjRow} (hrow : objRow a = some row) (hi : oaIndex a ≠ 0x1020) (v : Bytes) (s : State) :
    ∃ x ec ex, (writeObj false a v s).ctl = { s.ctl with
      active := x, liveEdits := s.ctl.liveEdits + 1, epochCount := ec, expired := ex } ∧
      (row.access = 1 → tfind x.objs a = some (objClean a v)) := by
  simp only [writeObj, Bool.false_eq_true, if_false, hrow]
  rw [ctl_of_steady (steady_writeEffect ..)]
  by_cases h3 : row.access = 3 ∧ oaIndex a ≠ 0x1020
  · rw [if_pos h3]
    exact ⟨s.ctl.active, _, _, rfl, fun h1 => by omega⟩
  · rw [if_neg h3]
    obtain ⟨x, hx, hctl⟩ := liveSet_ctl hi (objClean a v) s
    rw [hctl]
    exact ⟨x, _, _, rfl, fun _ => by rw [hx, tfind_tput_same, objClean_objClean]⟩

/-- A staged write stores the value in the staged slot, and may zero a stage of the free bank (R58, R90). -/
theorem writeObj_staged {a : Nat} (hi : oaIndex a ≠ 0x1020) (v : Bytes) (s : State) :
    ∃ b0 b1, (writeObj true a v s).ctl = { s.ctl with
      staged := { s.ctl.staged with objs := tput s.ctl.staged.objs a (objClean a v) }, bank0 := b0, bank1 := b1 } := by
  simp only [writeObj, if_true, stagedSet, if_neg hi, objClean_objClean]
  split
  · rw [setFreeBank_ctl]; exact ⟨_, _, rfl⟩
  · exact ⟨_, _, rfl⟩

section
variable {s : State} {a ty : Nat} {v : Bytes} {staged : Bool}
  (hr : MailboxRequest s 0x11 0 staged (entryWord v.length ty false a ++ padMul 8 v))
include hr

/-- A WRITE whose body is one entry writes that entry, unless a commit is under way (R40, R61). -/
theorem writeReq_one (ha : a < 2 ^ 36) (hty : ty < 256) (hv : v.length < 4000) (hc : s.ctl.commit = none)
    (hw : (workOf s 0).segWrite = none) : writeReq (mbxReq s) s = writeAll (mbxReq s) staged [(a, ty, v)] s := by
  have hbody := mailbox_body hr
  have hst := mailbox_staged hr
  have hlen : (entryWord v.length ty false a).length = 8 := length_leBytes ..
  have htake : (entryWord v.length ty false a ++ padMul 8 v).take 8 = entryWord v.length ty false a := List.take_left' hlen
  have h39 : (leNat (entryWord v.length ty false a)).testBit 39 = false := by
    rw [leNat_entryWord ha hty hv, Nat.testBit_eq_decide_div_mod_eq, decide_eq_false_iff_not]; omega
  have hw' : (workOf s (mbxReq s).who).segWrite = none := hw
  have hparse := parseEntries_one ha hty hv
  simp only [writeReq, hbody, hst, htake, h39, hw', hc, Bool.and_false, Bool.false_eq_true, if_false, Option.isSome_none]
  generalize parseEntries 64 0 (entryWord v.length ty false a ++ padMul 8 v) [] = p at hparse
  obtain ⟨es, off⟩ := p
  obtain rfl : es = some [(a, ty, v)] := hparse
  rfl

theorem mailbox_write {ans : Answer} {t : State} (hw : writeReq (mbxReq s) s = (ans, t)) (hm : t.ctl.mbx = s.ctl.mbx) :
    MailboxAnswered s (serve (isRow 0x11 0) (atOnce writeReq) .mailbox s) ans ∧
    AnswerOnly (serve (isRow 0x11 0) (atOnce writeReq) .mailbox s) t := by
  have hty : msgType (mbxMsg s) = 0x11 := mailbox_type hr
  have hsub : msgSub (mbxMsg s) = 0 := mailbox_sub hr
  exact mailbox_answered hr (by simp [isRow, msgRow, hty]) (by simp [msgKnown, hty, hsub]) (atOnce_eq hw) hm

end

/-- A live write of an object of access RWS needs a stop (R40). -/
theorem writeRefused_rws {r : Req} {a : Nat} {row : ObjRow} (hrow : objRow a = some row) (hacc : row.access = 2)
    (hrole : r.role = 2) (hv1 : r.v1 = false) (hi : oaIndex a ≠ 0x1318) (ty : Nat) (v : Bytes) (s : State) :
    writeRefused r false a ty v s = stStopRequired := by
  have hbar : writeBarred r false a s = stStopRequired := by simp [writeBarred, hrow, hacc, hrole, hv1, hi]
  simp [writeRefused, hrow, hbar, stStopRequired, stOk]

/-- Settles O5: a WRITE of one entry is `writeAll` of that entry, live or staged. -/
theorem mailboxWriteStoresOrRefuses : Obligations.MailboxWriteStoresOrRefuses := by
  unfold Obligations.MailboxWriteStoresOrRefuses
  refine ⟨fun s a ty v staged row ha hty hv hr hc hw hrow hi => ⟨_, rfl, fun hok => ?_, fun hbad => ?_⟩,
    fun s r a ty v row hrow hacc hrole hv1 hi => writeRefused_rws hrow hacc hrole hv1 hi ty v s⟩
  · have hwrite := (writeReq_one hr ha hty hv hc hw).trans (writeAll_one_passed hok)
    cases staged with
    | false =>
      obtain ⟨x, ec, ex, hctl, hval⟩ := writeObj_live hrow hi v s
      obtain ⟨hans, honly⟩ := mailbox_write hr hwrite (by simp [hctl])
      have ht := honly.ctl
      simp only [Bool.false_eq_true, if_false, reviewGuarantee_ctl, hctl] at ht
      refine ⟨hans, ?_⟩
      rw [ht]
      exact ⟨rfl, rfl, fun _ => ⟨rfl, rfl, rfl, hval⟩, nofun⟩
    | true =>
      obtain ⟨b0, b1, hctl⟩ := writeObj_staged hi v s
      have hedit : ∃ x : Slot, x.state = 1 ∧ x.objs = tput s.ctl.staged.objs a (objClean a v) ∧
          (stagedEdit (writeObj true a v s)).ctl = { s.ctl with
            generation := s.ctl.generation + 1, staged := x, bank0 := b0, bank1 := b1 } := by
        refine ⟨(stagedEdit (writeObj true a v s)).ctl.staged, rfl, ?_, ?_⟩
        · show (writeObj true a v s).ctl.staged.objs = _
          rw [hctl]
        · rw [stagedEdit_ctl, hctl]
      obtain ⟨x, hstate, hobjs, hctl'⟩ := hedit
      obtain ⟨hans, honly⟩ := mailbox_write hr hwrite (by simp [hctl'])
      have ht := honly.ctl
      simp only [if_true, reviewGuarantee_ctl, hctl'] at ht
      refine ⟨hans, ?_⟩
      rw [ht]
      exact ⟨rfl, rfl, nofun, fun _ => ⟨rfl, rfl, hstate, by rw [hobjs, tfind_tput_same]⟩⟩
  · exact mailbox_write hr ((writeReq_one hr ha hty hv hc hw).trans (writeAll_one_refused hbad)) rfl

end Sys2Proof.Machine
end

section
namespace Sys2Proof.Machine

/-! ### Released packets leave the control part alone (step 6 and what it reaches) -/

@[simp] theorem steady_satAdd (i n u k : Nat) (s : State) : steady (satAdd i n u k s) = steady s := rfl
@[simp] theorem steady_rxEnqueue (r : Nat) (f : RxFrame) (s : State) : steady (rxEnqueue r f s) = steady s := by
  rw [rxEnqueue_eq]; rfl
@[simp] theorem steady_toRing (r source pid trunc : Nat) (s : State) : steady (toRing r source pid trunc s) = steady s :=
  steady_rxEnqueue ..
@[simp] theorem steady_setXfifo (s : State) (p e : Nat) (l : List (Nat × QEntry)) : steady (setXfifo s p e l) = steady s := rfl
@[simp] theorem steady_xbarPut (p q : Nat) (x : QEntry) (s : State) : steady (xbarPut p q x s) = steady s := by
  simp only [xbarPut]; split <;> simp
@[simp] theorem steady_dropMalformed (pid : Nat) (s : State) : steady (dropMalformed pid s) = steady s := by
  simp only [dropMalformed, steady_dropPkt]; split <;> simp
@[simp] theorem steady_takeMeta (pid : Nat) (s : State) : steady (takeMeta pid s) = steady s := rfl
@[simp] theorem steady_pushJob (p : Nat) (j : EditJob) (s : State) : steady (pushJob p j s) = steady s := rfl
@[simp] theorem steady_countColour (pid : Nat) (s : State) : steady (countColour pid s) = steady s := by
  simp only [countColour]
  exact steady_ite rfl (steady_ite (by simp) (steady_ite (by simp) (by simp)))
@[simp] theorem steady_mirrorPort (q cls trunc pid : Nat) (s : State) : steady (mirrorPort q cls trunc pid s) = steady s := by
  simp only [mirrorPort]
  exact steady_ite rfl (by simp)
@[simp] theorem steady_mirror (m pid : Nat) (s : State) : steady (mirror m pid s) = steady s := by
  simp only [mirror]
  exact steady_ite rfl (steady_ite (by simp) (steady_ite (by simp) rfl))
@[simp] theorem steady_setFetches (s : State) (g : Nat) (l : List NhFetch) : steady (setFetches s g l) = steady s := rfl
@[simp] theorem steady_awaitLine (g key pid : Nat) (s : State) : steady (awaitLine g key pid s) = steady s := by
  simp only [awaitLine]
  exact steady_ite (by simp) (steady_ite (by simp) (by simp))
@[simp] theorem steady_storeCopy (pid : Nat) (s : State) : steady (storeCopy pid s) = steady s := rfl
@[simp] theorem steady_setEngine (s : State) (d : Nat) (l : List Replica) : steady (setEngine s d l) = steady s := rfl
@[simp] theorem steady_mcEnqueue (d q mc edit pid cls : Nat) (dscp : Option Nat) (s : State) :
    steady (mcEnqueue d q mc edit pid cls dscp s) = steady s := by
  simp only [mcEnqueue, steady_noteDepth, steady_queueCount]
  rfl
@[simp] theorem steady_mcServe (d pid cls edit : Nat) (dscp : Option Nat) (fl : Bool) (s : State) (t : Nat) :
    steady (mcServe d pid cls edit dscp fl s t) = steady s := by
  simp only [mcServe]
  exact steady_ite rfl (steady_ite (steady_mcEnqueue ..) (by simp))
@[simp] theorem steady_multicast (grp pid cls edit : Nat) (dscp : Option Nat) (fl : Bool) (s : State) :
    steady (multicast grp pid cls edit dscp fl s) = steady s := by
  have hserve : ∀ (d : Nat) (l : List Nat), steady (l.foldl (mcServe d pid cls edit dscp fl) (storeCopy pid s)) = steady s :=
    fun d l => steady_foldl (fun t a => steady_mcServe d pid cls edit dscp fl t a) l _
  simp only [multicast]
  exact steady_ite (by simp) (steady_ite (steady_ite (by simp [hserve]) (hserve _ _)) (by simp))
@[simp] theorem steady_noBackend (g service : Nat) (s : State) : steady (noBackend g service s) = steady s := by simp [noBackend]

/-- A fallback of a lookup keeps the state that it is given. -/
theorem steady_fallback {c : Prop} [Decidable c] {o o' : Output} {s t : State} (h : steady t = steady s) :
    steady (if c then (o, t) else (o', t)).2 = steady s := by split <;> exact h

@[simp] theorem steady_resolveService (g sel service pid : Nat) (s : State) :
    steady (resolveService g sel service pid s).2 = steady s := by
  simp only [resolveService]
  split
  · exact steady_fallback rfl
  · split
    · rfl
    · split
      · split
        · exact steady_fallback rfl
        · rfl
      · exact steady_fallback (by simp)
@[simp] theorem steady_routed (g sel : Nat) (p : Packet) (s : State) : steady (routed g sel p s).2 = steady s := by
  simp only [routed]; split <;> simp
@[simp] theorem steady_chooseOutput (pid : Nat) (s : State) : steady (chooseOutput pid s).2 = steady s := by
  simp only [chooseOutput]
  split
  · rfl
  · split <;> rfl
  · split
    · rfl
    · split
      · rfl
      · rfl
      · exact steady_resolveService ..
      · split
        · exact steady_routed ..
        · rfl
@[simp] theorem steady_route (pid : Nat) (s : State) : steady (route pid s) = steady s := by
  simp only [route]
  split <;> simp
@[simp] theorem steady_stepSix (pid : Nat) (s : State) : steady (stepSix pid s) = steady s := by
  simp only [stepSix]
  exact steady_ite (by simp) (steady_ite (steady_ite (by simp) (by simp))
    (steady_ite (by simp) (steady_ite (by simp) (steady_ite (by simp) (steady_ite (by simp) (steady_ite (by simp) (by simp)))))))
@[simp] theorem steady_parkPkt (pid : Nat) (s : State) : steady (parkPkt pid s) = steady s := rfl
@[simp] theorem steady_meterAsk (pid m : Nat) (s : State) : steady (meterAsk pid m s) = steady s := rfl
@[simp] theorem steady_releaseStep (pid : Nat) (s : State) : steady (releaseStep pid s) = steady s := by
  simp only [releaseStep]; split <;> simp
@[simp] theorem steady_releasePkt (pid : Nat) (s : State) : steady (releasePkt pid s) = steady s := by
  simp only [releasePkt]
  exact steady_ite rfl (steady_ite rfl (steady_ite (by simp) (by simp)))

/-! ### A resize that redraws records (R193) -/

@[simp] theorem steady_chainPush (r : Nat) (s : State) : steady (chainPush r s) = steady s := rfl
@[simp] theorem steady_setHold (h : Nat) (x : Hold) (s : State) : steady (setHold h x s) = steady s := rfl
@[simp] theorem steady_delHold (h : Nat) (s : State) : steady (delHold h s) = steady s := rfl
@[simp] theorem steady_delBoth (h : Nat) (s : State) : steady (delBoth h s) = steady s := by
  simp only [delBoth]; split <;> rfl
@[simp] theorem steady_noteFailure (n cause : Nat) (s : State) : steady (noteFailure n cause s) = steady s := by simp [noteFailure]
@[simp] theorem steady_failOne (n : Nat) (t : BitVec 512) (pid : Nat) (s : State) : steady (failOne n t pid s) = steady s := by
  simp only [failOne]; split <;> simp
@[simp] theorem steady_failChain (n : Nat) (t : BitVec 512) (chain : List Nat) (s : State) :
    steady (failChain n t chain s) = steady s :=
  steady_foldl (f := fun u pid => if isExpired u pid then dropPkt pid u else releasePkt pid (failOne n t pid u))
    (fun u pid => steady_ite (by simp) (by simp)) chain s
@[simp] theorem steady_insertFail (h cause : Nat) (s : State) : steady (insertFail h cause s) = steady s := by
  simp only [insertFail]
  split
  · rfl
  · rw [steady_failChain, steady_noteFailure, steady_delBoth]; split <;> rfl

theorem steady_of_chainPop {k r : Nat} {s t : State} (h : chainPop k s = some (r, t)) : steady t = steady s := by
  simp only [chainPop] at h
  split at h
  · simp only [Option.some.injEq, Prod.mk.injEq] at h
    obtain ⟨-, rfl⟩ := h
    rfl
  · split at h
    · simp only [Option.some.injEq, Prod.mk.injEq] at h
      obtain ⟨-, rfl⟩ := h
      rfl
    · exact nomatch h

theorem steady_refill (m k idle : Nat) (got : List Nat) (s : State) : steady (refill m k idle got s).2 = steady s := by
  induction m generalizing k idle got s with
  | zero => rfl
  | succ m ih =>
    rw [refill]
    split
    · rfl
    · split
      · rename_i r t h
        rw [ih, steady_of_chainPop h]
      · rw [ih]

@[simp] theorem steady_recordsLow (s : State) : steady (recordsLow s) = steady s := by
  simp only [recordsLow]; exact steady_ite (by simp) rfl

theorem steady_of_drawRecord {n fuel r : Nat} {s t : State} (h : drawRecord n fuel s = some (r, t)) : steady t = steady s := by
  induction fuel generalizing s with
  | zero => exact nomatch h
  | succ m ih =>
    rw [drawRecord] at h
    split at h
    · dsimp only at h
      split at h
      · exact (ih h).trans rfl
      · simp only [Option.some.injEq, Prod.mk.injEq] at h
        obtain ⟨-, rfl⟩ := h
        rfl
    · dsimp only at h
      split at h
      · exact nomatch h
      · rw [ih h, steady_recordsLow, steady_setFlow, steady_refill]

@[simp] theorem steady_redrawSetup (h : Nat) (s : State) : steady (redrawSetup h s) = steady s := by
  simp only [redrawSetup]
  split
  · rfl
  · split
    · rfl
    · split
      · exact steady_insertFail ..
      · rename_i hd
        rw [steady_setHold, steady_chainPush, steady_of_drawRecord hd]

/-! ### A long operation begins and ends (Table 2-13) -/

/-- A resize that begins states its total in its slot; the records that it takes back are the flow engine's (R193). -/
theorem steady_resizeBegin (n : Nat) (o : LongOp) (s : State) : ∃ total,
    steady (resizeBegin n o s) = steady (setOp s n { o with total := total }) := by
  let p := leNat o.params
  refine ⟨resizeTotal s {
    op := n, part := rsPart p, size := rsSize p
    base := if rsRegion p = 0 then partBase s (rsPart p) else rsRegion p
    lay := placeNow s, next := 0 }, ?_⟩
  simp only [resizeBegin]
  refine steady_ite rfl ?_
  exact (steady_foldl (fun t (h : Nat × Hold) => steady_redrawSetup h.1 t) _ _).trans
    ((steady_foldl (fun t r => steady_chainPush r t) _ _).trans rfl)

/-- The operation in slot n is o but for its total. -/
def OpTotal (n : Nat) (o : LongOp) (s : State) : Prop := ∃ total, tfind s.ctl.ops n = some { o with total := total }

theorem opTotal_of_steady {n : Nat} {o : LongOp} {s t : State} (h : steady t = steady s) (ht : OpTotal n o s) : OpTotal n o t := by
  have hc := ctl_of_steady h
  unfold OpTotal
  rw [hc]
  exact ht

theorem opTotal_setOp (n : Nat) (o : LongOp) (s : State) (total : Nat) : OpTotal n o (setOp s n { o with total := total }) :=
  ⟨total, by simp [setOp]⟩

theorem mbx_of_steady {s t : State} (h : steady t = steady s) : t.ctl.mbx = s.ctl.mbx := by
  have hc := ctl_of_steady h
  rw [hc]

/-- What begins leaves the mailbox and, but for its total, its slot. -/
theorem flowOpBegin_spec {n : Nat} {o : LongOp} {s : State} (ho : tfind s.ctl.ops n = some o) :
    OpTotal n o (flowOpBegin n o s) ∧ (flowOpBegin n o s).ctl.mbx = s.ctl.mbx := by
  simp only [flowOpBegin]
  split
  · exact ⟨opTotal_setOp n o s _, rfl⟩
  · obtain ⟨total, h⟩ := steady_resizeBegin n o s
    exact ⟨opTotal_of_steady h (opTotal_setOp n o s total), by rw [mbx_of_steady h]; rfl⟩
  · exact ⟨opTotal_setOp n o s _, rfl⟩
  · exact ⟨opTotal_setOp n o s _, rfl⟩
  · exact ⟨opTotal_setOp n o s _, rfl⟩
  · exact ⟨⟨o.total, ho⟩, rfl⟩

theorem opBegin_spec {n : Nat} {o : LongOp} {s : State} (ho : tfind s.ctl.ops n = some o) :
    OpTotal n o (opBegin n o s) ∧ (opBegin n o s).ctl.mbx = s.ctl.mbx := by
  simp only [opBegin]
  split
  · split
    · exact flowOpBegin_spec ho
    · exact ⟨opTotal_setOp n o s 0, rfl⟩
  · split
    · exact flowOpBegin_spec ho
    · exact ⟨opTotal_setOp n o s _, rfl⟩
  · exact ⟨opTotal_setOp n o s _, rfl⟩
  · exact ⟨opTotal_setOp n o s _, rfl⟩
  · exact ⟨opTotal_setOp n o s 32, rfl⟩
  · split <;> exact ⟨opTotal_setOp n o s _, rfl⟩
  · exact flowOpBegin_spec ho

/-- An operation that begins runs, and leaves the mailbox alone (Table 2-13). -/
theorem opRun_spec (n : Nat) (o : LongOp) (s : State) :
    OpTotal n { o with state := 2, ran := true } (opRun n o s) ∧ (opRun n o s).ctl.mbx = s.ctl.mbx :=
  opBegin_spec (tfind_tput_same ..)

/-- A FIRMWARE_STAGE that begins has staged nothing, and one of the boot pattern takes the marker away (R67, R72). -/
theorem opRun_firmwareStage {o : LongOp} (hk : o.kind = 11) (n : Nat) (s : State) : (opRun n o s).safe.stageBytes = [] ∧
    ((Config.stageTarget o.params).1 = true → (opRun n o s).ctl.bootMarker = false) := by
  simp only [opRun, opBegin, hk]
  split
  · exact ⟨rfl, fun _ => rfl⟩
  · exact ⟨rfl, fun h => by simp_all⟩

/-- The end of an operation in its slot (R69). -/
theorem opFinish_spec {n : Nat} {o : LongOp} {s : State} (ho : tfind s.ctl.ops n = some o) (k r : Nat) :
    (∃ u, tfind (opFinish n k r s).ctl.ops n = some u ∧ u.state = k ∧ u.result = r) ∧
    (opFinish n k r s).ctl.mbx = s.ctl.mbx ∧ (opFinish n k r s).fwd = s.fwd := by
  simp only [opFinish, ho]
  rw [raise_eq]
  exact ⟨⟨_, tfind_tput_same .., rfl, rfl⟩, rfl, rfl⟩

end Sys2Proof.Machine
end

section
namespace Sys2Proof.Machine

/-! ### START (R68 to R70) -/

/-- A body is no longer than its header states. -/
theorem mailbox_body_length {s : State} {ty sub : Nat} {staged : Bool} {body : Bytes} (hr : MailboxRequest s ty sub staged body) :
    body.length ≤ 4079 := by
  obtain ⟨-, -, -, -, -, -, -, hlen, rfl⟩ := hr
  exact (List.length_take_le _ _).trans hlen

/-- The slot and the record of an operation that a START creates. -/
def startedOp (k : Nat) (p : Bytes) (s : State) : LongOp := {
  kind := k, state := 1, done := 0, total := 0, result := 0, started := devSeconds s,
  requester := 0, ran := false, suspendAsked := false, order := s.ctl.opOrder, finished := 0,
  params := p, generation := 0, written := 0 }

section
variable {s : State} {k : Nat} {p : Bytes} (hops : s.ctl.ops = [])
include hops

/-- With no operation, slot 0 is taken (log entry 19). -/
theorem opCreate_first : ∃ t, opCreate k 0 p 0 0 s = some (0, startedOp k p s, t) ∧ t.ctl.ops = [(0, startedOp k p s)] ∧
    t.ctl.commit = s.ctl.commit ∧ t.ctl.mbx = s.ctl.mbx := by
  have hun : unfinished s = [] := by simp [unfinished, hops]
  have hslot : opSlot s = some 0 := by
    have hfind : ((List.range 16).find? fun n => (tfind s.ctl.ops n).isNone) = some 0 := by
      simp only [hops]; rfl
    simp only [opSlot, hfind]
  simp only [opCreate, hun, hslot]
  refine ⟨_, rfl, ?_, rfl, rfl⟩
  simp only [setOp, setCtl_ctl, hops]
  rfl

end

/-- An operation alone in its slot, outside a commit, conflicts with nothing. -/
theorem opClear_alone {s : State} {n : Nat} {o o' : LongOp} (hops : s.ctl.ops = [(n, o')]) (hc : s.ctl.commit = none) :
    opClear n o s = true := by
  have hun : ∀ r ∈ unfinished s, r.1 = n := fun r hr => by
    simp only [unfinished, hops] at hr
    have := List.mem_of_mem_filter hr
    simp only [List.mem_singleton] at this
    rw [this]
  have hany : ((unfinished s).any fun r => r.1 != n && opsConflict s o r.2 && (opHolds r.2 || decide (r.2.order < o.order))) =
      false := by
    rw [List.any_eq_false]
    intro r hr
    simp [hun r hr]
  simp only [opClear, hany, hc, Bool.not_false, Bool.and_self]

section
variable {s : State} {k : Nat} {p : Bytes} (hk : k ∈ startKinds)
  (hr : MailboxRequest s 0x30 0 false ([BitVec.ofNat 8 k, 0, 0, 0] ++ leBytes 4 p.length ++ p))
include hk hr

theorem start_kind : ((msgBody (mbxMsg s)).headD 0).toNat = k := by
  have hbody : msgBody (mbxMsg s) = [BitVec.ofNat 8 k, 0, 0, 0] ++ leBytes 4 p.length ++ p := mailbox_body hr
  have hlt : k < 256 := by
    simp only [startKinds, List.mem_cons, List.not_mem_nil, or_false] at hk
    omega
  rw [hbody]
  exact (BitVec.toNat_ofNat k 8).trans (Nat.mod_eq_of_lt hlt)

theorem isStart_mailbox : isStart k (mbxMsg s) = true := by
  have hty : msgType (mbxMsg s) = 0x30 := mailbox_type hr
  have hsub : msgSub (mbxMsg s) = 0 := mailbox_sub hr
  have hrow : isRow 0x30 0 (mbxMsg s) = true := by simp [isRow, msgRow, hty, hsub]
  simp only [isStart, hrow, start_kind hk hr, beq_self_eq_true, Bool.true_or, Bool.and_self]

/-- A START that its type does not refuse takes slot 0 of a device without operations, and runs there. -/
theorem startReq_runs (hops : s.ctl.ops = []) (hc : s.ctl.commit = none) (hok : opRefused k p s = none)
    (hbist : k = 8 → bistBusy p s = false) : ∃ t, startReq (mbxReq s) s = ({ status := stOk, body := [0] }, t) ∧
      OpTotal 0 { startedOp k p s with state := 2, ran := true } t ∧ t.ctl.mbx = s.ctl.mbx := by
  have hbody := mailbox_body hr
  have hkind : ((msgBody (mbxReq s).msg).headD 0).toNat = k := start_kind hk hr
  have hlen := mailbox_body_length hr
  simp only [List.length_append, List.length_cons, List.length_nil, length_leBytes] at hlen
  have hsize : leNat (slice ([BitVec.ofNat 8 k, 0, 0, 0] ++ leBytes 4 p.length ++ p) 4 4) = p.length := by
    rw [List.append_assoc, slice, show ([BitVec.ofNat 8 k, 0, 0, 0] ++ (leBytes 4 p.length ++ p)).drop 4 = leBytes 4 p.length ++ p
      from rfl, List.take_left' (length_leBytes ..), leNat_leBytes_of_lt (by omega)]
  have hparams : ([BitVec.ofNat 8 k, 0, 0, 0] ++ leBytes 4 p.length ++ p).drop 8 = p :=
    List.drop_left' (by simp)
  have h8 : ¬ ([BitVec.ofNat 8 k, 0, 0, 0] ++ leBytes 4 p.length ++ p).length < 8 := by simp
  have hbad : lengthBad (8 + p.length) ([BitVec.ofNat 8 k, 0, 0, 0] ++ leBytes 4 p.length ++ p) = none :=
    lengthBad_of_length (by simp; omega)
  have hin : startKinds.contains k = true := by simpa using hk
  have hbusy : ¬ (k = 8 ∧ bistBusy p s = true) := fun h => by simp [hbist h.1] at h
  obtain ⟨u, hcreate, huops, hucommit, humbx⟩ := opCreate_first (k := k) (p := p) hops
  have hclear : opClear 0 (startedOp k p s) u = true := opClear_alone huops (hucommit.trans hc)
  obtain ⟨hrun, hmbx⟩ := opRun_spec 0 (startedOp k p s) u
  refine ⟨opRun 0 (startedOp k p s) u, ?_, hrun, hmbx.trans humbx⟩
  have hcreate' : opCreate k (mbxReq s).who p 0 0 s = some (0, startedOp k p s, u) := hcreate
  simp only [hbody] at hkind
  simp only [startReq, hbody, hkind, hsize, hparams, if_neg h8, hbad, hin, Bool.not_true, Bool.false_eq_true, if_false, if_neg hbusy, hok,
    hcreate', hclear, if_true]
  rfl

theorem start_mailbox (hops : s.ctl.ops = []) (hc : s.ctl.commit = none) (hok : opRefused k p s = none)
    (hbist : k = 8 → bistBusy p s = false) : ∃ t, start k .mailbox s = .next t ∧
      MailboxAnswered s t { status := stOk, body := [0] } ∧ OpTotal 0 { startedOp k p s with state := 2, ran := true } t := by
  have hty : msgType (mbxMsg s) = 0x30 := mailbox_type hr
  have hsub : msgSub (mbxMsg s) = 0 := mailbox_sub hr
  obtain ⟨t, hreq, hop, hmbx⟩ := startReq_runs hk hr hops hc hok hbist
  obtain ⟨hans, honly⟩ := mailbox_answered hr (isStart_mailbox hk hr) (by simp [msgKnown, hty, hsub]) (atOnce_eq hreq) hmbx
  refine ⟨_, rfl, hans, ?_⟩
  unfold OpTotal
  rw [honly.ctl]
  exact hop

end

/-- Settles O10: every type's START is `start`, which `start_mailbox` runs. -/
theorem startTakesSlot : Obligations.StartTakesSlot := by
  unfold Obligations.StartTakesSlot
  intro s k c p hkc hr hops hc hok hbist
  have hstart : k ∈ startKinds ∧ exec c s = start k .mailbox s := by
    simp only [List.mem_cons, Prod.mk.injEq, List.not_mem_nil, or_false] at hkc
    rcases hkc with ⟨rfl, rfl⟩ | ⟨rfl, rfl⟩ | ⟨rfl, rfl⟩ | ⟨rfl, rfl⟩ | ⟨rfl, rfl⟩ | ⟨rfl, rfl⟩ | ⟨rfl, rfl⟩ | ⟨rfl, rfl⟩ |
      ⟨rfl, rfl⟩ | ⟨rfl, rfl⟩ <;> exact ⟨by decide, rfl⟩
  obtain ⟨hk, hexec⟩ := hstart
  obtain ⟨t, ht, hans, total, hop⟩ := start_mailbox hk hr hops hc hok hbist
  exact ⟨t, _, hexec.trans ht, hans, hop, rfl, rfl, rfl, Nat.succ_ne_zero 1, fun _ => rfl⟩

/-! ### The controls (R68, R69) -/

section
variable {s : State} {sub n : Nat} {o : LongOp} (hr : MailboxRequest s 0x30 sub false [BitVec.ofNat 8 n]) (hsub : sub ≤ 4)
include hr hsub

theorem isRow_control : isRow 0x30 sub (mbxMsg s) = true := by
  simp [isRow, msgRow, show msgType (mbxMsg s) = 0x30 from mailbox_type hr, show msgSub (mbxMsg s) = sub from mailbox_sub hr, hsub]

/-- A control that its handler answers at once. -/
theorem mailbox_control {f : Req → State → Answer × State} {a : Answer} {t : State} (hf : f (mbxReq s) s = (a, t))
    (hm : t.ctl.mbx = s.ctl.mbx) : MailboxAnswered s (serve (isRow 0x30 sub) (atOnce f) .mailbox s) a ∧
      AnswerOnly (serve (isRow 0x30 sub) (atOnce f) .mailbox s) t := by
  have hty : msgType (mbxMsg s) = 0x30 := mailbox_type hr
  have hsub' : msgSub (mbxMsg s) = sub := mailbox_sub hr
  exact mailbox_answered hr (isRow_control hr hsub) (by simp [msgKnown, hty, hsub', hsub]) (atOnce_eq hf) hm

/-- A control that stores an operation in its slot. -/
theorem mailbox_control_setOp {f : Req → State → Answer × State} {a : Answer} {u : LongOp}
    (hf : f (mbxReq s) s = (a, setOp s n u)) : tfind (serve (isRow 0x30 sub) (atOnce f) .mailbox s).ctl.ops n = some u ∧
      MailboxAnswered s (serve (isRow 0x30 sub) (atOnce f) .mailbox s) a := by
  obtain ⟨hans, honly⟩ := mailbox_control hr hsub hf rfl
  refine ⟨?_, hans⟩
  rw [honly.ctl]
  exact tfind_tput_same ..

omit hsub in
theorem opNamed_mailbox (hn : n < 16) (ho : tfind s.ctl.ops n = some o) : opNamed (mbxReq s) s = .inr (n, o) := by
  have hbody := mailbox_body hr
  have hnum : (BitVec.ofNat 8 n).toNat = n := (BitVec.toNat_ofNat n 8).trans (Nat.mod_eq_of_lt (by omega))
  simp only [opNamed, hbody, lengthBad, List.length_cons, List.length_nil, if_true, List.headD_cons, hnum, ho]

end

section
variable {s : State} {n : Nat} {o : LongOp} (hn : n < 16) (ho : tfind s.ctl.ops n = some o)
include hn ho

theorem suspend_mailbox (hr : MailboxRequest s 0x30 1 false [BitVec.ofNat 8 n])
    (h : o.state = 1 ∨ (o.state = 2 ∧ opSuspends o = true)) : ∃ t u, exec (.longopSuspend .mailbox) s = .next t ∧
      tfind t.ctl.ops n = some u ∧ u.state = 3 ∧ u.suspendAsked = (o.suspendAsked || o.state == 2) ∧
      MailboxAnswered s t (opAnswer n 3) := by
  have hnamed := opNamed_mailbox hr hn ho
  rcases h with h1 | ⟨h2, hs⟩
  · have hf : suspendReq (mbxReq s) s = (opAnswer n 3, setOp s n { o with state := 3 }) := by
      simp only [suspendReq, hnamed, h1, if_true]
    obtain ⟨hop, hans⟩ := mailbox_control_setOp hr (by decide) hf
    exact ⟨_, _, rfl, hop, rfl, by simp [h1], hans⟩
  · have hf : suspendReq (mbxReq s) s = (opAnswer n 3, setOp s n { o with state := 3, suspendAsked := true }) := by
      simp only [suspendReq, hnamed, h2, hs, if_true]
      rfl
    obtain ⟨hop, hans⟩ := mailbox_control_setOp hr (by decide) hf
    exact ⟨_, _, rfl, hop, rfl, by simp [h2], hans⟩

theorem resume_mailbox (hr : MailboxRequest s 0x30 2 false [BitVec.ofNat 8 n]) (h : o.state = 3) :
    ∃ t u, exec (.longopResume .mailbox) s = .next t ∧ tfind t.ctl.ops n = some u ∧ u.state = (if o.ran then 2 else 1) ∧
      MailboxAnswered s t (opAnswer n (if o.ran then 2 else 1)) := by
  have hnamed := opNamed_mailbox hr hn ho
  cases hran : o.ran
  · have hf : resumeReq (mbxReq s) s = (opAnswer n 1, setOp s n { o with state := 1 }) := by
      simp only [resumeReq, hnamed, h, hran]
      rfl
    obtain ⟨hop, hans⟩ := mailbox_control_setOp hr (by decide) hf
    exact ⟨_, _, rfl, hop, rfl, hans⟩
  · have hf : resumeReq (mbxReq s) s = (opAnswer n 2, setOp s n { o with state := 2, suspendAsked := false }) := by
      simp only [resumeReq, hnamed, h, hran]
      rfl
    obtain ⟨hop, hans⟩ := mailbox_control_setOp hr (by decide) hf
    exact ⟨_, _, rfl, hop, rfl, hans⟩

theorem cancel_queued (hr : MailboxRequest s 0x30 3 false [BitVec.ofNat 8 n]) (h : o.state = 1) :
    ∃ t u, exec (.longopCancel .mailbox) s = .next t ∧ tfind t.ctl.ops n = some u ∧ u.state = 7 ∧
      MailboxAnswered s t (opAnswer n 7) := by
  have hf : cancelReq (mbxReq s) s = (opAnswer n 7, opFinish n 7 stCancelled s) := by
    simp only [cancelReq, opNamed_mailbox hr hn ho, h, if_true]
  obtain ⟨⟨u, hu, hstate, -⟩, hmbx, -⟩ := opFinish_spec ho 7 stCancelled
  obtain ⟨hans, honly⟩ := mailbox_control hr (by decide) hf hmbx
  exact ⟨_, u, rfl, by rw [honly.ctl]; exact hu, hstate, hans⟩

theorem cancel_running (hr : MailboxRequest s 0x30 3 false [BitVec.ofNat 8 n]) (h : o.state = 2) (hc : opCancels o s = true) :
    ∃ t u, exec (.longopCancel .mailbox) s = .next t ∧ tfind t.ctl.ops n = some u ∧ u.state = 4 ∧
      MailboxAnswered s t (opAnswer n 4) := by
  have hf : cancelReq (mbxReq s) s = (opAnswer n 4, setOp s n { o with state := 4, suspendAsked := false }) := by
    simp only [cancelReq, opNamed_mailbox hr hn ho, h, hc]
    rfl
  obtain ⟨hop, hans⟩ := mailbox_control_setOp hr (by decide) hf
  exact ⟨_, _, rfl, hop, rfl, hans⟩

theorem query_mailbox (hr : MailboxRequest s 0x30 4 false [BitVec.ofNat 8 n]) :
    ∃ t rest, exec (.longopQuery .mailbox) s = .next t ∧ AnswerOnly t s ∧
      MailboxAnswered s t { status := stOk, body := leBytes 1 o.kind ++ leBytes 1 o.state ++ rest } := by
  have hf : ∃ rest, queryReq (mbxReq s) s =
      ({ status := stOk, body := leBytes 1 o.kind ++ leBytes 1 o.state ++ rest }, s) := by
    simp only [queryReq, opNamed_mailbox hr hn ho, List.append_assoc]
    exact ⟨_, rfl⟩
  obtain ⟨rest, hf⟩ := hf
  obtain ⟨hans, honly⟩ := mailbox_control hr (by decide) hf rfl
  exact ⟨_, rest, rfl, honly, hans⟩

end

/-! ### Progress and end (R69 to R72) -/

section
variable {s : State} {n : Nat} {o : LongOp} (ho : tfind s.ctl.ops n = some o)
include ho

theorem conflictsClear_runs (h1 : o.state = 1) (h10 : o.kind ≠ 10) (hc : opClear n o s = true) :
    execLongopConflictsClear n s = .next (opRun n o s) := by
  simp [execLongopConflictsClear, ho, h1, h10, hc]

/-- A sector of a FIRMWARE_STAGE is one unit, and joins those staged (R72). -/
theorem unitDone_sector (h2 : o.state = 2) (h11 : o.kind = 11) (d : Bytes) : execLongopUnitDone n (.sector d) s =
    .next (stageSector o d (setOp s n { o with done := o.done + 1, suspendAsked := false })) := by
  simp [execLongopUnitDone, ho, h2, opUnit, unitWork, h11]

theorem workComplete_scrub (h2 : o.state = 2) (h7 : o.kind = 7) (hdone : o.total ≤ o.done) :
    execLongopWorkComplete n s = .next (opFinish n 5 stOk s) := by
  simp [execLongopWorkComplete, ho, h2, h7, opWorkDone, hdone, opEnd, flowOpEnd]

theorem failed_scrub (h2 : o.state = 2) (h7 : o.kind = 7) (st : Nat) :
    execLongopFailed n st s = .next (opFinish n 6 st s) := by
  simp [execLongopFailed, ho, h2, h7, opEnd, flowOpEnd]

theorem cancelWork_ends (h4 : o.state = 4) :
    execCancelWorkComplete n s = .next (opEnd n o 7 (opFinish n 7 stCancelled s)) := by
  simp [execCancelWorkComplete, ho, h4]

end

theorem stageSector_spec (o : LongOp) (d : Bytes) (s : State) : (stageSector o d s).ctl.ops = s.ctl.ops ∧
    (stageSector o d s).safe.stageBytes = s.safe.stageBytes ++ d.take 4096 := by
  simp only [stageSector, setOtherSlot]
  split
  · exact ⟨rfl, rfl⟩
  · split <;> exact ⟨rfl, rfl⟩

/-- The cancel of an operation outside the flow engine leaves the slots alone; that of an AUDIT_PASS drops its rechecks. -/
theorem opEnd_cancelled {o : LongOp} (h5 : 5 < o.kind) (n : Nat) (s : State) : (opEnd n o 7 s).ctl.ops = s.ctl.ops ∧
    (o.kind = 6 → (opEnd n o 7 s).fwd = { s.fwd with rechecks := s.fwd.rechecks.filter fun r => r.pass != o.order + 1 }) ∧
    (o.kind ≠ 6 → (opEnd n o 7 s).fwd = s.fwd) := by
  simp only [opEnd, flowOpEnd]
  split
  · rename_i h6
    exact ⟨rfl, fun _ => rfl, fun h => absurd h6 h⟩
  · exact ⟨rfl, fun h => by omega, fun _ => rfl⟩
  · exact ⟨rfl, fun h => by omega, fun _ => rfl⟩
  · rename_i h6 _ _
    split
    · omega
    · omega
    · exact ⟨rfl, fun h => absurd h h6, fun _ => rfl⟩

/-- A queued commit whose generation is still staged, with nothing in its way, begins (R71). -/
theorem patternCommit_begins {s : State} {n : Nat} {o : LongOp} (hops : s.ctl.ops = [(n, o)]) (hk : o.kind = 10) (h1 : o.state = 1)
    (hc : s.ctl.commit = none) (hd : s.ctl.drain = none) (hg : o.generation = s.ctl.generation.toNat) (hst : s.ctl.staged.state = 2) :
    execPatternCommit n s = .next (commitBegin false (some n) { who := 9, msg := [] }
      (setOp s n { opProgressed s o with state := 2, ran := true })) := by
  have ho : tfind s.ctl.ops n = some o := by simp [hops, tfind]
  have hq : ∀ fns, queuedConflict fns n o s = false := fun fns => by
    simp only [queuedConflict, List.any_eq_false, unfinished, hops]
    intro r hr
    have := List.mem_of_mem_filter hr
    simp only [List.mem_singleton] at this
    simp [this]
  simp only [execPatternCommit, ho, hk, h1, hc, hd, hq, hg, hst, ne_eq, not_true_eq_false, Option.isSome_none, Bool.false_eq_true,
    or_self, if_false]

/-- Settles O11: each control, step and end of a long operation by its own lemma. -/
theorem longOpsProceed : Obligations.LongOpsProceed := by
  unfold Obligations.LongOpsProceed
  refine ⟨fun s n o hn ho => ⟨fun hr h => suspend_mailbox hn ho hr h, fun hr h => resume_mailbox hn ho hr h,
      fun hr h => cancel_queued hn ho hr h, fun hr h hc => cancel_running hn ho hr h hc, fun hr => query_mailbox hn ho hr⟩,
    fun s n o ho h1 h10 hc _ => ?_, fun s n o d ho h2 h11 => ?_, fun s n o ho h2 h7 => ⟨fun hdone => ?_, fun st => ?_⟩,
    fun s n o ho h4 h5 => ?_, fun s n o hops hk h1 hc hd hg hst => ?_⟩
  · obtain ⟨⟨total, hop⟩, -⟩ := opRun_spec n o s
    exact ⟨_, _, conflictsClear_runs ho h1 h10 hc, hop, rfl, rfl, rfl, fun h11 => opRun_firmwareStage h11 n s⟩
  · obtain ⟨hops, hbytes⟩ := stageSector_spec o d (setOp s n { o with done := o.done + 1, suspendAsked := false })
    refine ⟨_, { o with done := o.done + 1, suspendAsked := false }, unitDone_sector ho h2 h11 d, ?_, rfl, hbytes⟩
    rw [hops]
    exact tfind_tput_same ..
  · obtain ⟨⟨u, hu, hstate, hres⟩, -⟩ := opFinish_spec ho 5 stOk
    exact ⟨_, u, workComplete_scrub ho h2 h7 hdone, hu, hstate, hres⟩
  · obtain ⟨⟨u, hu, hstate, hres⟩, -⟩ := opFinish_spec ho 6 st
    exact ⟨_, u, failed_scrub ho h2 h7 st, hu, hstate, hres⟩
  · obtain ⟨⟨u, hu, hstate, hres⟩, -, hfwd⟩ := opFinish_spec ho 7 stCancelled
    obtain ⟨hops, h6, hother⟩ := opEnd_cancelled h5 n (opFinish n 7 stCancelled s)
    rw [hfwd] at h6 hother
    exact ⟨_, u, cancelWork_ends ho h4, by rw [hops]; exact hu, hstate, hres, h6, hother⟩
  · exact ⟨_, _, patternCommit_begins hops hk h1 hc hd hg hst, rfl, rfl, rfl, rfl⟩

end Sys2Proof.Machine
end

section
namespace Sys2Proof.Machine

/-! PROOFS. Edit programs (3.5): bytes and checksums, the words of a program, and the end of one. -/

/-! ### Bytes in network order -/

theorem beNat_eq_leNat_reverse (bs : Bytes) : beNat bs = leNat bs.reverse := by
  induction bs using List.reverseRecOn with
  | nil => rfl
  | append_singleton bs b ih =>
    have hfold : beNat (bs ++ [b]) = beNat bs * 256 + b.toNat := by simp [beNat]
    rw [hfold, ih, List.reverse_append, List.reverse_singleton, List.singleton_append, leNat]
    omega

theorem beNat_lt (bs : Bytes) : beNat bs < 256 ^ bs.length := by
  rw [beNat_eq_leNat_reverse, ← List.length_reverse]
  exact leNat_lt _

@[simp] theorem length_beBytes (n v : Nat) : (beBytes n v).length = n := by simp [beBytes]

@[simp] theorem beNat_beBytes (n v : Nat) : beNat (beBytes n v) = v % 256 ^ n := by
  rw [beNat_eq_leNat_reverse, beBytes, List.reverse_reverse, leNat_leBytes]

theorem beNat_beBytes_two (v : Nat) : beNat (beBytes 2 v) = v % 65536 := beNat_beBytes 2 v

theorem beNat_singleton (b : Byte) : beNat [b] = b.toNat := by simp [beNat]

theorem beNat_append (a b : Bytes) : beNat (a ++ b) = beNat a * 256 ^ b.length + beNat b := by
  induction b using List.reverseRecOn with
  | nil => simp [beNat]
  | append_singleton b x ih =>
    have hfold (l : Bytes) : beNat (l ++ [x]) = beNat l * 256 + x.toNat := by simp [beNat]
    rw [← List.append_assoc, hfold, hfold, ih, List.length_append, List.length_singleton, pow_succ]
    ring

/-! ### Slices and patches -/

theorem length_slice {bs : Bytes} {o n : Nat} (h : o + n ≤ bs.length) : (slice bs o n).length = n := by
  simp only [slice, List.length_take, List.length_drop]; omega

theorem slice_add (bs : Bytes) (o n m : Nat) : slice bs o (n + m) = slice bs o n ++ slice bs (o + n) m := by
  rw [slice, slice, slice, List.take_add, List.drop_drop]

theorem getD_slice {bs : Bytes} {o n k : Nat} (h : k < n) : (slice bs o n).getD k 0 = bs.getD (o + k) 0 := by
  simp [slice, List.getD_eq_getElem?_getD, h]

theorem slice_one {bs : Bytes} {o : Nat} (h : o < bs.length) : slice bs o 1 = [bs.getD o 0] := by
  rw [slice, List.drop_eq_getElem_cons h, List.take_succ_cons, List.take_zero, List.getD_eq_getElem _ _ h]

theorem beNat_slice_one {bs : Bytes} {o : Nat} (h : o < bs.length) : beNat (slice bs o 1) = (bs.getD o 0).toNat := by
  rw [slice_one h, beNat_singleton]

/-- Slices of strings of one length agree where their bytes do. -/
theorem slice_congr {f g : Bytes} {o n : Nat} (hlen : f.length = g.length)
    (h : ∀ k, o ≤ k → k < o + n → f.getD k 0 = g.getD k 0) : slice f o n = slice g o n := by
  apply List.ext_getElem
  · simp only [slice, List.length_take, List.length_drop, hlen]
  · intro i hf hg
    have hi : i < n := by simp only [slice, List.length_take] at hf; omega
    rw [← List.getD_eq_getElem _ 0, ← List.getD_eq_getElem _ 0, getD_slice hi, getD_slice hi]
    exact h _ (by omega) (by omega)

theorem length_patch {bs x : Bytes} {o : Nat} (h : o + x.length ≤ bs.length) : (patch bs o x).length = bs.length := by
  simp only [patch, List.length_append, List.length_take, List.length_drop]; omega

theorem slice_patch_same {bs x : Bytes} {o : Nat} (h : o ≤ bs.length) : slice (patch bs o x) o x.length = x := by
  have ho : (bs.take o).length = o := by simp [h]
  rw [slice, patch, List.append_assoc, List.drop_left' ho, List.take_left' rfl]

theorem getD_patch_apart {bs x : Bytes} {o k : Nat} (h : o + x.length ≤ bs.length) (hk : k < o ∨ o + x.length ≤ k) :
    (patch bs o x).getD k 0 = bs.getD k 0 := by
  have ho : (bs.take o).length = o := by simp; omega
  simp only [patch, List.getD_eq_getElem?_getD, List.append_assoc]
  rcases hk with hk | hk
  · rw [List.getElem?_append_left (by omega), List.getElem?_take, if_pos hk]
  · rw [List.getElem?_append_right (by omega), List.getElem?_append_right (by omega), List.getElem?_drop, ho,
      show o + x.length + (k - o - x.length) = k by omega]

theorem slice_patch_apart {bs x : Bytes} {o p n : Nat} (h : o + x.length ≤ bs.length) (hp : p + n ≤ o ∨ o + x.length ≤ p) :
    slice (patch bs o x) p n = slice bs p n :=
  slice_congr (length_patch h) fun _ _ _ => getD_patch_apart h (by omega)

/-- Behind what comes before it and before what follows, a string of bytes reads as itself. -/
theorem slice_append_mid_add {a b c : Bytes} {o k n : Nat} (ho : a.length = o) (hk : k + n ≤ b.length) :
    slice (a ++ b ++ c) (o + k) n = slice b k n := by
  rw [slice, List.append_assoc, ← List.drop_drop, List.drop_left' ho, List.drop_append_of_le_length (by omega),
    List.take_append_of_le_length (by simp; omega), slice]

theorem getD_append_mid {a b c : Bytes} {o k : Nat} (ho : a.length = o) (hk : k < b.length) :
    (a ++ b ++ c).getD (o + k) 0 = b.getD k 0 := by
  rw [List.append_assoc, List.getD_append_right _ _ _ _ (by omega), List.getD_append _ _ _ _ (by omega), ho, Nat.add_sub_cancel_left]

/-! ### The one's complement sum (R98, RFC 1071) -/

theorem sum16_append {a : Bytes} (b : Bytes) (h : a.length % 2 = 0) : sum16 (a ++ b) = sum16 a + sum16 b := by
  induction a using sum16.induct with
  | case1 => simp [sum16]
  | case2 x => simp at h
  | case3 x y t ih =>
    simp only [List.cons_append, sum16]
    rw [ih (by simp only [List.length_cons] at h; omega)]
    omega

theorem sum16_of_length_two {bs : Bytes} (h : bs.length = 2) : sum16 bs = beNat bs := by
  match bs, h with
  | [a, b], _ => simp [sum16, beNat]

theorem sum16_le (bs : Bytes) : sum16 bs ≤ 65535 * bs.length := by
  induction bs using sum16.induct with
  | case1 => simp [sum16]
  | case2 x => have := x.isLt; simp only [sum16, List.length_singleton]; omega
  | case3 x y t ih =>
    have hx := x.isLt
    have hy := y.isLt
    simp only [sum16, List.length_cons]; omega

theorem sum16_pos {bs : Bytes} (h : bs.getD 0 0 ≠ 0) : 0 < sum16 bs := by
  have hpos {x : Byte} (hx : x ≠ 0) : 0 < x.toNat := Nat.pos_of_ne_zero fun h0 => hx (BitVec.eq_of_toNat_eq h0)
  cases bs using sum16.induct with
  | case1 => simp at h
  | case2 x => have := hpos (x := x) (by simpa using h); simp only [sum16]; omega
  | case3 x y t => have := hpos (x := x) (by simpa using h); simp only [sum16]; omega

theorem onesFold_le {v : Nat} (h : v < 2 ^ 32) : onesFold v ≤ 65535 := by
  simp only [onesFold]; omega

theorem onesFold_mod {v : Nat} : onesFold v % 65535 = v % 65535 := by
  simp only [onesFold]; omega

/-- A sum folds to all ones exactly when it is a positive multiple of all ones. -/
theorem onesFold_eq_ones_iff {v : Nat} (h : v < 2 ^ 32) : onesFold v = 0xFFFF ↔ 0 < v ∧ v % 65535 = 0 := by
  simp only [onesFold]; omega

/-- Within an even run of words, replacing one word exchanges its term of the sum. -/
theorem sum16_slice_patch {f x : Bytes} {o i m : Nat} (hx : x.length = 2) (hi : i % 2 = 0) (h : i + 2 ≤ m) (hf : o + m ≤ f.length) :
    sum16 (slice (patch f (o + i) x) o m) + beNat (slice f (o + i) 2) = sum16 (slice f o m) + beNat x := by
  have hsplit (g : Bytes) (hg : g.length = f.length) : sum16 (slice g o m) =
      sum16 (slice g o i) + (beNat (slice g (o + i) 2) + sum16 (slice g (o + i + 2) (m - (i + 2)))) := by
    have hi' : (slice g o i).length = i := length_slice (by omega)
    have h2 : (slice g (o + i) 2).length = 2 := length_slice (by omega)
    conv_lhs => rw [show m = i + (2 + (m - (i + 2))) by omega, slice_add, slice_add]
    rw [sum16_append _ (by omega), sum16_append _ (by omega), sum16_of_length_two h2]
  have hle : o + i + x.length ≤ f.length := by omega
  have hword : slice (patch f (o + i) x) (o + i) 2 = x := hx ▸ slice_patch_same (by omega)
  rw [hsplit _ (length_patch hle), hsplit f rfl, hword, slice_patch_apart hle (by omega), slice_patch_apart hle (by omega)]
  omega

/-- A header whose checksum was computed over it with its checksum field 0 sums to all ones. -/
theorem checksum_right {f : Bytes} {o m : Nat} (hm : 12 ≤ m) (hm' : m ≤ 65535) (hf : o + m ≤ f.length)
    (hz : beNat (slice f (o + 10) 2) = 0) (h0 : f.getD o 0 ≠ 0) :
    onesFold (sum16 (slice (patch f (o + 10) (beBytes 2 (inetChecksum 0 (slice f o m)))) o m)) = 0xFFFF := by
  have hlen : (slice f o m).length = m := length_slice hf
  have hle : sum16 (slice f o m) ≤ 65535 * 65535 := by have := sum16_le (slice f o m); rw [hlen] at this; omega
  have hpos : 0 < sum16 (slice f o m) := sum16_pos (by rw [getD_slice (by omega), Nat.add_zero]; exact h0)
  have hsum := sum16_slice_patch (x := beBytes 2 (inetChecksum 0 (slice f o m))) (by simp) (by omega) (show 10 + 2 ≤ m by omega) hf
  have hfold := onesFold_le (show sum16 (slice f o m) < 2 ^ 32 by omega)
  have hmod := onesFold_mod (v := sum16 (slice f o m))
  have hc : inetChecksum 0 (slice f o m) = 65535 - onesFold (sum16 (slice f o m)) := by rw [inetChecksum, Nat.zero_add]
  rw [hz, beNat_beBytes] at hsum
  rw [onesFold_eq_ones_iff (by omega)]
  omega

end Sys2Proof.Machine
end

section
namespace Sys2Proof.Machine

/-! ### A bit field of an edited frame (R96) -/

/-- A number whose field of wd bits from bit sh on is replaced by v. -/
def replaceBits (old sh wd v : Nat) : Nat := old - old / 2 ^ sh % 2 ^ wd * 2 ^ sh + v % 2 ^ wd * 2 ^ sh

section
variable (old sh wd v : Nat)

/-- The bits above the field, the field, and the bits below it. -/
theorem replaceBits_eq : replaceBits old sh wd v = 2 ^ sh * (2 ^ wd * (old / 2 ^ (sh + wd)) + v % 2 ^ wd) + old % 2 ^ sh := by
  have h1 := Nat.div_add_mod old (2 ^ sh)
  have h2 := Nat.div_add_mod (old / 2 ^ sh) (2 ^ wd)
  rw [Nat.div_div_eq_div_mul, ← Nat.pow_add] at h2
  have h3 : old = 2 ^ sh * (2 ^ wd * (old / 2 ^ (sh + wd))) + old / 2 ^ sh % 2 ^ wd * 2 ^ sh + old % 2 ^ sh := by
    conv_lhs => rw [← h1, ← h2]
    ring
  rw [replaceBits, Nat.mul_add, Nat.mul_comm (2 ^ sh) (v % 2 ^ wd)]
  omega

theorem replaceBits_mod : replaceBits old sh wd v % 2 ^ sh = old % 2 ^ sh := by
  rw [replaceBits_eq, Nat.mul_add_mod, Nat.mod_mod]

theorem replaceBits_div : replaceBits old sh wd v / 2 ^ sh = 2 ^ wd * (old / 2 ^ (sh + wd)) + v % 2 ^ wd := by
  rw [replaceBits_eq, Nat.mul_add_div (by positivity), Nat.div_eq_of_lt (Nat.mod_lt _ (by positivity)), Nat.add_zero]

theorem replaceBits_field : replaceBits old sh wd v / 2 ^ sh % 2 ^ wd = v % 2 ^ wd := by
  rw [replaceBits_div, Nat.mul_add_mod, Nat.mod_mod]

theorem replaceBits_above : replaceBits old sh wd v / 2 ^ (sh + wd) = old / 2 ^ (sh + wd) := by
  rw [Nat.pow_add, ← Nat.div_div_eq_div_mul, replaceBits_div, Nat.mul_add_div (by positivity),
    Nat.div_eq_of_lt (Nat.mod_lt _ (by positivity)), Nat.add_zero, Nat.pow_add]

end

/-- Bits of a field's bytes below the field. -/
def fieldShift (bo wd : Nat) : Nat := 8 * fieldBytes bo wd - bo - wd

theorem eight_mul_fieldBytes (bo wd : Nat) : 8 * fieldBytes bo wd = bo + (fieldShift bo wd + wd) := by
  simp only [fieldShift, fieldBytes]; omega

theorem replaceBits_lt {old bo wd : Nat} (v : Nat) (h : old < 256 ^ fieldBytes bo wd) :
    replaceBits old (fieldShift bo wd) wd v < 256 ^ fieldBytes bo wd := by
  rw [show (256 : Nat) = 2 ^ 8 from rfl, ← Nat.pow_mul, eight_mul_fieldBytes, Nat.pow_add] at h ⊢
  rw [← Nat.div_lt_iff_lt_mul (by positivity)] at h ⊢
  rwa [replaceBits_above]

section
variable {f : Bytes} {pos bo wd : Nat}

theorem putField_eq (v : Nat) : putField f pos bo wd v = patch f pos
    (beBytes (fieldBytes bo wd) (replaceBits (beNat (slice f pos (fieldBytes bo wd))) (fieldShift bo wd) wd v)) := rfl

variable (h : pos + fieldBytes bo wd ≤ f.length)
include h

theorem length_putField (v : Nat) : (putField f pos bo wd v).length = f.length := by
  rw [putField_eq, length_patch (by simpa using h)]

theorem getD_putField_apart (v : Nat) {k : Nat} (hk : k < pos ∨ pos + fieldBytes bo wd ≤ k) :
    (putField f pos bo wd v).getD k 0 = f.getD k 0 := by
  rw [putField_eq, getD_patch_apart (by simpa using h) (by simpa using hk)]

theorem beNat_slice_putField (v : Nat) : beNat (slice (putField f pos bo wd v) pos (fieldBytes bo wd)) =
    replaceBits (beNat (slice f pos (fieldBytes bo wd))) (fieldShift bo wd) wd v := by
  have hold : beNat (slice f pos (fieldBytes bo wd)) < 256 ^ fieldBytes bo wd := by
    have := beNat_lt (slice f pos (fieldBytes bo wd))
    rwa [length_slice h] at this
  have hs := slice_patch_same (bs := f) (o := pos) (show pos ≤ f.length by omega)
    (x := beBytes (fieldBytes bo wd) (replaceBits (beNat (slice f pos (fieldBytes bo wd))) (fieldShift bo wd) wd v))
  rw [length_beBytes] at hs
  rw [putField_eq, hs, beNat_beBytes, Nat.mod_eq_of_lt (replaceBits_lt v hold)]

end

theorem editLimit_le (j : EditJob) : editLimit j ≤ j.frame.length := Nat.min_le_right ..

section
variable {j : EditJob} {pos bo wd : Nat} (h : pos + fieldBytes bo wd ≤ editLimit j)
include h

theorem readField_of_fits : readField j pos bo wd =
    some (beNat (slice j.frame pos (fieldBytes bo wd)) / 2 ^ fieldShift bo wd % 2 ^ wd) := if_neg (by omega)

/-- The bits of a field's bytes before the field. -/
theorem readField_before : readField j pos 0 bo =
    some (beNat (slice j.frame pos (fieldBytes bo wd)) / 2 ^ (fieldShift bo wd + wd) % 2 ^ bo) := by
  have hle : fieldBytes 0 bo ≤ fieldBytes bo wd := by simp only [fieldBytes]; omega
  have hlim := editLimit_le j
  have hrest := beNat_lt (slice j.frame (pos + fieldBytes 0 bo) (fieldBytes bo wd - fieldBytes 0 bo))
  rw [length_slice (by omega)] at hrest
  have hnum : beNat (slice j.frame pos (fieldBytes 0 bo)) =
      beNat (slice j.frame pos (fieldBytes bo wd)) / 256 ^ (fieldBytes bo wd - fieldBytes 0 bo) := by
    conv_rhs => rw [show fieldBytes bo wd = fieldBytes 0 bo + (fieldBytes bo wd - fieldBytes 0 bo) by omega, slice_add, beNat_append,
      length_slice (by omega), Nat.add_sub_cancel_left, Nat.mul_comm, Nat.mul_add_div (by positivity), Nat.div_eq_of_lt hrest, Nat.add_zero]
  rw [readField_of_fits (by omega), hnum, show (256 : Nat) = 2 ^ 8 from rfl, ← Nat.pow_mul, Nat.div_div_eq_div_mul, ← Nat.pow_add]
  have h0 := eight_mul_fieldBytes 0 bo
  have h1 := eight_mul_fieldBytes bo wd
  rw [show 8 * (fieldBytes bo wd - fieldBytes 0 bo) + fieldShift 0 bo = fieldShift bo wd + wd by omega]

/-- The bits of a field's bytes behind the field. -/
theorem readField_after : readField j pos (bo + wd) (fieldShift bo wd) =
    some (beNat (slice j.frame pos (fieldBytes bo wd)) % 2 ^ fieldShift bo wd) := by
  have h1 := eight_mul_fieldBytes bo wd
  have hb : fieldBytes (bo + wd) (fieldShift bo wd) = fieldBytes bo wd := by simp only [fieldBytes] at h1 ⊢; omega
  have hs : fieldShift (bo + wd) (fieldShift bo wd) = 0 := by
    have h2 := eight_mul_fieldBytes (bo + wd) (fieldShift bo wd)
    omega
  rw [readField_of_fits (by omega), hb, hs, Nat.pow_zero, Nat.div_one]

end

/-! ### The checksums that follow a change (R98) -/

theorem csumFix_cases (old new : Bytes) (c : Csum) : csumFix old new c = new ∨
    c.at_ + 2 ≤ new.length ∧ ∃ v, csumFix old new c = patch new c.at_ (beBytes 2 v) := by
  simp only [csumFix]
  split
  · exact .inl rfl
  · exact .inr ⟨by omega, _, rfl⟩

theorem length_csumFix (old new : Bytes) (c : Csum) : (csumFix old new c).length = new.length := by
  rcases csumFix_cases old new c with h | ⟨hlen, v, h⟩
  · rw [h]
  · rw [h, length_patch (by simpa using hlen)]

theorem getD_csumFix_apart {c : Csum} {k : Nat} (hk : k ≠ c.at_ ∧ k ≠ c.at_ + 1) (old new : Bytes) :
    (csumFix old new c).getD k 0 = new.getD k 0 := by
  rcases csumFix_cases old new c with h | ⟨hlen, v, h⟩
  · rw [h]
  · rw [h, getD_patch_apart (by simpa using hlen) (by rw [length_beBytes]; omega)]

theorem length_changed (j : EditJob) (new : Bytes) : (changed j new).frame.length = new.length := by
  simp only [changed]
  induction j.csums.reverse generalizing new with
  | nil => rfl
  | cons c l ih => rw [List.foldl_cons, ih, length_csumFix]

/-- A byte that belongs to no maintained checksum is as in the changed frame. -/
theorem getD_changed_apart {j : EditJob} {k : Nat} (hk : ∀ c ∈ j.csums, k ≠ c.at_ ∧ k ≠ c.at_ + 1) (new : Bytes) :
    (changed j new).frame.getD k 0 = new.getD k 0 := by
  simp only [changed]
  have hk' : ∀ c ∈ j.csums.reverse, k ≠ c.at_ ∧ k ≠ c.at_ + 1 := fun c hc => hk c (List.mem_reverse.mp hc)
  generalize j.csums.reverse = l at hk'
  induction l generalizing new with
  | nil => rfl
  | cons c l ih =>
    rw [List.foldl_cons, ih _ (fun x hx => hk' x (List.mem_cons_of_mem _ hx)), getD_csumFix_apart (hk' c List.mem_cons_self)]

/-- The job behind a word that left j1: the next word, or the end behind the last one (R96). -/
def stepped (j j1 : EditJob) : EditJob := { j1 with pc := j.pc + 1, done := decide (15 ≤ j.pc) }

/-- What a word that writes v into a field leaves. -/
theorem fieldWritten_stepped {j : EditJob} {pos bo wd : Nat} (h : pos + fieldBytes bo wd ≤ editLimit j) (v : Nat) :
    FieldWritten j (stepped j (changed j (putField j.frame pos bo wd v))) pos bo wd v := by
  have hf : pos + fieldBytes bo wd ≤ j.frame.length := h.trans (editLimit_le j)
  have hlen : (changed j (putField j.frame pos bo wd v)).frame.length = j.frame.length :=
    (length_changed ..).trans (length_putField hf v)
  refine ⟨rfl, hlen, fun hc => ?_, fun k hk hc => (getD_changed_apart hc _).trans (getD_putField_apart hf v hk)⟩
  have h' : pos + fieldBytes bo wd ≤ editLimit (stepped j (changed j (putField j.frame pos bo wd v))) :=
    h.trans_eq (congrArg (min 320) hlen.symm)
  have hs : beNat (slice (changed j (putField j.frame pos bo wd v)).frame pos (fieldBytes bo wd)) =
      replaceBits (beNat (slice j.frame pos (fieldBytes bo wd))) (fieldShift bo wd) wd v := by
    rw [← beNat_slice_putField hf v]
    refine congrArg beNat (slice_congr (length_changed ..) fun k hk hk' => getD_changed_apart (fun c hm => ?_) _)
    have := hc c hm
    omega
  change _ ∧ _ ∧ readField _ pos (bo + wd) (fieldShift bo wd) = readField _ pos (bo + wd) (fieldShift bo wd)
  rw [readField_of_fits h', readField_before h', readField_before h, readField_after h', readField_after h]
  simp only [stepped, hs, replaceBits_field, replaceBits_above, replaceBits_mod, and_self]

/-! ### An IPv4 header checksum stays right (R98) -/

theorem beNat_slice_two {f : Bytes} {p : Nat} (h : p + 2 ≤ f.length) :
    beNat (slice f p 2) = (f.getD p 0).toNat * 256 + (f.getD (p + 1) 0).toNat := by
  rw [show 2 = 1 + 1 from rfl, slice_add, slice_one (by omega), slice_one (by omega)]
  simp [beNat]

theorem spanWord_eq {f : Bytes} {p stop : Nat} (hp : p + 2 ≤ stop) (hf : stop ≤ f.length) :
    spanByte f p stop * 256 + spanByte f (p + 1) stop = beNat (slice f p 2) := by
  rw [beNat_slice_two (by omega), spanByte, spanByte, if_pos (by omega), if_pos (by omega)]

/-- Modulo all ones, the changed words of a span account for the difference of its sums. -/
theorem sum16_add_spanDelta {old new : Bytes} {skip stop : Nat} (hold : stop ≤ old.length) (hnew : stop ≤ new.length)
    (hskip : beNat (slice old skip 2) = beNat (slice new skip 2)) {n p : Nat} (hp : p + 2 * n = stop) :
    (sum16 (slice old p (2 * n)) + spanDelta old new skip stop n p) % 65535 = sum16 (slice new p (2 * n)) % 65535 ∧
      spanDelta old new skip stop n p ≤ 131070 * n := by
  induction n generalizing p with
  | zero => simp [slice, sum16, spanDelta]
  | succ n ih =>
    obtain ⟨hsum, hle⟩ := ih (p := p + 2) (by omega)
    have hword (g : Bytes) (hg : stop ≤ g.length) :
        sum16 (slice g p (2 * (n + 1))) = beNat (slice g p 2) + sum16 (slice g (p + 2) (2 * n)) := by
      have h2 : (slice g p 2).length = 2 := length_slice (by omega)
      rw [show 2 * (n + 1) = 2 + 2 * n by omega, slice_add, sum16_append _ (by omega), sum16_of_length_two h2]
    have hlt (g : Bytes) (hg : stop ≤ g.length) : beNat (slice g p 2) < 65536 := by
      have := beNat_lt (slice g p 2)
      rwa [length_slice (by omega)] at this
    have ho := hlt old hold
    have hn := hlt new hnew
    rw [hword old hold, hword new hnew, spanDelta]
    beta_reduce
    rw [spanWord_eq (by omega) hold, spanWord_eq (by omega) hnew]
    split
    · rename_i hsame
      have hw : beNat (slice old p 2) = beNat (slice new p 2) := by
        rcases hsame with rfl | hw
        · exact hskip
        · exact hw
      omega
    · omega

/-- RFC 1624: where a header of an even length summed to all ones before its bytes changed, its followed checksum makes it
do so again. -/
theorem csumFix_right {old new : Bytes} {o m : Nat} (hm : m % 2 = 0) (hm' : 20 ≤ m) (hold : o + m ≤ min 320 old.length)
    (hlen : new.length = old.length) (hkeep : beNat (slice old (o + 10) 2) = beNat (slice new (o + 10) 2))
    (hright : onesFold (sum16 (slice old o m)) = 0xFFFF) (h0 : new.getD o 0 ≠ 0) :
    onesFold (sum16 (slice (csumFix old new { at_ := o + 10, spans := [(o, m)], kind := 0 }) o m)) = 0xFFFF := by
  set c : Csum := { at_ := o + 10, spans := [(o, m)], kind := 0 } with hc
  have hle : o + m ≤ new.length := by omega
  have hsmall (g : Bytes) (hg : o + m ≤ g.length) : sum16 (slice g o m) < 2 ^ 32 := by
    have := sum16_le (slice g o m)
    rw [length_slice hg] at this
    omega
  have hfixed : (csumFix old new c).getD o 0 ≠ 0 := by
    rwa [getD_csumFix_apart (by simp only [hc]; omega)]
  have hpos : 0 < sum16 (slice (csumFix old new c) o m) := sum16_pos (by rwa [getD_slice (by omega)])
  have hdelta := sum16_add_spanDelta (skip := o + 10) (n := m / 2) (p := o) (by omega) hle hkeep (by omega)
  rw [show 2 * (m / 2) = m by omega] at hdelta
  obtain ⟨hsum, hbound⟩ := hdelta
  obtain ⟨-, hz⟩ := (onesFold_eq_ones_iff (hsmall old (by omega))).mp hright
  rw [onesFold_eq_ones_iff (hsmall _ ((length_csumFix ..).symm ▸ hle))]
  refine ⟨hpos, ?_⟩
  have hwords : spanWords o m = m / 2 := by simp only [spanWords]; omega
  simp only [csumFix, hc, List.map_cons, List.map_nil, List.sum_singleton, hwords, false_and, false_or, ne_eq, not_true, and_false,
    if_false, Nat.zero_ne_one]
  split
  · omega
  · rename_i hn
    have hsum' := sum16_slice_patch (x := beBytes 2 (65535 - onesFold (onesFold (65535 - beNat (slice new (o + 10) 2) +
      spanDelta old new (o + 10) (o + m) (m / 2) o)))) (by simp) (by omega) (show 10 + 2 ≤ m by omega) hle
    have hfield := beNat_lt (slice new (o + 10) 2)
    rw [length_slice (by omega)] at hfield
    generalize beNat (slice new (o + 10) 2) = field at *
    generalize spanDelta old new (o + 10) (o + m) (m / 2) o = d at *
    have hb1 := onesFold_le (show 65535 - field + d < 2 ^ 32 by omega)
    have hb2 := onesFold_le (show onesFold (65535 - field + d) < 2 ^ 32 by omega)
    have hm1 := onesFold_mod (v := 65535 - field + d)
    have hm2 := onesFold_mod (v := onesFold (65535 - field + d))
    rw [beNat_beBytes] at hsum'
    omega

end Sys2Proof.Machine
end

section
namespace Sys2Proof.Machine

/-! ### A job that an editor drops (R99) -/

section
variable (p c : Nat) (j : EditJob) (rest : List EditJob) (s : State)

/-- What is counted and reported as a job ends dropped. -/
def dropReport : State :=
  let s1 := setEdits s p rest
  if c = 7 then count 0x3030 p 7 s1 else raiseLimited 0x0301 p (fun n => [p, j.prog, c, n]) (count 0x3030 p 4 s1)

theorem dropReport_path : (dropReport p c j rest s).path = { s.path with edits := tset [] s.path.edits p rest } := by
  simp only [dropReport]
  split
  · rw [count_eq]; rfl
  · rw [raiseLimited_eq, count_eq]; rfl

/-- The packet of a dropped job leaves the queue it stands on or the device; nothing else does. -/
theorem editDrop_eq : ∃ ctl pkts, editDrop p c j rest s = { dropReport p c j rest s with
    ctl := ctl, path := { (dropReport p c j rest s).path with pkts := pkts } } := by
  show ∃ ctl pkts, (if j.out < 1024 then settle j.pid (dropReport p c j rest s) else dropPkt j.pid (dropReport p c j rest s)) = _
  split
  · exact ⟨_, _, settle_eq ..⟩
  · exact ⟨_, _, dropPkt_eq ..⟩

theorem editDrop_edits : (editDrop p c j rest s).path.edits = tset [] s.path.edits p rest := by
  obtain ⟨ctl, pkts, h⟩ := editDrop_eq p c j rest s
  rw [h, dropReport_path]

theorem editDrop_tx : (editDrop p c j rest s).path.tx = s.path.tx := by
  obtain ⟨ctl, pkts, h⟩ := editDrop_eq p c j rest s
  rw [h, dropReport_path]

theorem editDrop_cnt : (editDrop p c j rest s).cnt = (dropReport p c j rest s).cnt := by
  obtain ⟨ctl, pkts, h⟩ := editDrop_eq p c j rest s
  rw [h]

end

/-- A packet whose TTL has ended is counted as such. -/
theorem editDrop_ttl_cnt (p : Nat) (j : EditJob) (rest : List EditJob) (s : State) :
    (editDrop p 7 j rest s).cnt = (count 0x3030 p 7 s).cnt := by
  rw [editDrop_cnt, dropReport, if_pos rfl]
  exact SameConfig.count (s := s) (t := setEdits s p rest) ⟨rfl, rfl, rfl⟩ rfl ..

/-- A faulted program is counted in edit_fault. -/
theorem ctrGet_editDrop_fault {p c : Nat} {s : State} (hc : c ≠ 7) (hp : p < 16) (h : ctrGet s (oa 0x3030 p 4) + 1 < 2 ^ 48)
    (j : EditJob) (rest : List EditJob) : ctrGet (editDrop p c j rest s) (oa 0x3030 p 4) = ctrGet s (oa 0x3030 p 4) + 1 := by
  rw [ctrGet_of_cnt (editDrop_cnt ..), dropReport, if_neg hc, ctrGet_raiseLimited (by simp only [oa]; omega)]
  exact ctrGet_count_same (s := setEdits s p rest) h

/-! ### The word of an editor's head job (R96) -/

/-- The editor of pipeline p is not in its stop, and its head job j is to execute word w. -/
structure EditsWord (s : State) (p : Nat) (j : EditJob) (rest : List EditJob) (w : Nat) : Prop where
  runs : fnStopped s (.pipeline p) = false
  head : editJobs s p = j :: rest
  going : j.done = false
  word : editWord (bankOf s j.epoch) j.prog j.pc = w

/-- The free value that the next word may use. -/
def editFree (s : State) : Nat := Config.freeValue s.free % 65536

theorem usesFree_of_ne {w : Nat} (h : eOp w ∉ [7, 8]) (j : EditJob) : usesFree j w = false := by
  simp only [List.mem_cons, List.not_mem_nil, or_false, not_or] at h
  simp [usesFree, h]

theorem drawFree_path (n : Nat) (used : Bool) (s : State) : (drawFree n used s).path = s.path := by
  simp only [drawFree]; split <;> rfl

theorem drawFree_cnt (n : Nat) (used : Bool) (s : State) : (drawFree n used s).cnt = s.cnt := by
  simp only [drawFree]; split <;> rfl

/-- An editor in its stop, or without a job, executes no word. -/
theorem editOp_idle {s : State} {p : Nat} (h : editJobs s p = [] ∨ fnStopped s (.pipeline p) = true) (op : Nat) : editOp op p s = s := by
  rcases h with h | h
  · simp [editOp, h]
  · simp [editOp, h]

/-- A word of another operation is not executed. -/
theorem editOp_other {s : State} {p op : Nat} {j : EditJob} {rest : List EditJob} (hs : fnStopped s (.pipeline p) = false)
    (hj : editJobs s p = j :: rest) (h : j.done = true ∨ eOp (editWord (bankOf s j.epoch) j.prog j.pc) ≠ op) : editOp op p s = s := by
  simp only [editOp, hs, hj, Bool.false_eq_true, if_false, if_pos h]

section
variable {s : State} {p : Nat} {j : EditJob} {rest : List EditJob} {w : Nat} (h : EditsWord s p j rest w)
include h

theorem EditsWord.editStep_eq : editStep s j = if eOp w = 0 then editExec s j w (editFree s) else
    (stepped j (editExec s j w (editFree s)).1, (editExec s j w (editFree s)).2) := by
  simp only [editStep, h.word]
  rfl

theorem EditsWord.editOp_eq : editOp (eOp w) p s = drawFree 1 (usesFree j w)
    (if (editStep s j).2 ≠ 0 then editDrop p (editStep s j).2 (editStep s j).1 rest s
      else setEdits s p ((editStep s j).1 :: rest)) := by
  simp [editOp, h.runs, h.head, h.going, h.word]

/-- END ends the program (R96). -/
theorem EditsWord.editOp_end (hop : eOp w = 0) : editOp 0 p s = setEdits s p ({ j with done := true } :: rest) := by
  have hstep : editStep s j = ({ j with done := true }, 0) := by
    rw [h.editStep_eq, if_pos hop, editExec]
    simp only [if_pos hop]
  rw [← hop, h.editOp_eq, hstep, usesFree_of_ne (by simp [hop])]
  rfl

/-- A word that leaves the job j1 makes way for the next one. -/
theorem EditsWord.editOp_next {op : Nat} (hop : eOp w = op) (h0 : op ≠ 0) {j1 : EditJob} (hx : editExec s j w (editFree s) = (j1, 0)) :
    editOp op p s = drawFree 1 (usesFree j w) (setEdits s p (stepped j j1 :: rest)) := by
  rw [← hop, h.editOp_eq, h.editStep_eq, if_neg (hop.trans_ne h0), hx]
  rfl

/-- A word with a cause drops the packet. -/
theorem EditsWord.editOp_drop {op : Nat} (hop : eOp w = op) (h0 : op ≠ 0) {j1 : EditJob} {c : Nat} (hc : c ≠ 0)
    (hx : editExec s j w (editFree s) = (j1, c)) :
    editOp op p s = drawFree 1 (usesFree j w) (editDrop p c (stepped j j1) rest s) := by
  rw [← hop, h.editOp_eq, h.editStep_eq, if_neg (hop.trans_ne h0), hx, if_pos hc]

/-- A word with a fault drops the packet and counts it in edit_fault (R99). -/
theorem EditsWord.editOp_fault {op : Nat} (hop : eOp w = op) (h0 : op ≠ 0) {j1 : EditJob} {c : Nat} (hc : c ≠ 0) (hc7 : c ≠ 7)
    (hx : editExec s j w (editFree s) = (j1, c)) (hp : p < 16) (hlt : ctrGet s (oa 0x3030 p 4) + 1 < 2 ^ 48) :
    (editOp op p s).path.edits = tset [] s.path.edits p rest ∧ (editOp op p s).path.tx = s.path.tx ∧
      ctrGet (editOp op p s) (oa 0x3030 p 4) = ctrGet s (oa 0x3030 p 4) + 1 := by
  rw [h.editOp_drop hop h0 hc hx, drawFree_path, ctrGet_of_cnt (drawFree_cnt ..)]
  exact ⟨editDrop_edits .., editDrop_tx .., ctrGet_editDrop_fault hc7 hp hlt ..⟩

/-- A word that uses no free value only replaces its job. -/
theorem EditsWord.editOp_plain {op : Nat} (hop : eOp w = op) (h0 : op ≠ 0) (hu : usesFree j w = false) {j1 : EditJob}
    (hx : editExec s j w (editFree s) = (j1, 0)) : editOp op p s = setEdits s p (stepped j j1 :: rest) := by
  rw [h.editOp_next hop h0 hx, hu]
  rfl

end

end Sys2Proof.Machine
end

section
namespace Sys2Proof.Machine

/-! ### What each operation computes (R96 to R99) -/

theorem writeField_of_fits {j : EditJob} {pos bo wd : Nat} (h : pos + fieldBytes bo wd ≤ editLimit j) (v : Nat) :
    writeField j pos bo wd v = some (changed j (putField j.frame pos bo wd v)) := if_neg (by omega)

theorem fits_of_readField {j : EditJob} {pos bo wd x : Nat} (h : readField j pos bo wd = some x) :
    pos + fieldBytes bo wd ≤ editLimit j := by
  by_contra hlt
  rw [readField, if_pos (by omega)] at h
  exact absurd h (by simp)

section
variable {s : State} {j : EditJob} {w base : Nat} (ident : Nat)

/-- A word at an anchor that the job lacks is a fault (R99). -/
theorem editExec_no_anchor (ha : anchorAt j (eAnchor w) = none) (h0 : eOp w ≠ 0) (h8 : eOp w ≠ 8) :
    editExec s j w ident = (j, 1) := by
  simp only [editExec, h0, h8, ha, if_false]

variable (ha : anchorAt j (eAnchor w) = some base)
include ha

theorem editExec_set {x : Nat} (hop : eOp w = 1) (hfit : base + eOffset w + fieldBytes (eBitoff w) (eWidth w) ≤ editLimit j)
    (hx : editSource s j (eSrc w) (eImm w) = some x) :
    editExec s j w ident = (changed j (putField j.frame (base + eOffset w) (eBitoff w) (eWidth w) x), 0) := by
  simp only [editExec, hop, ha, hx, writeField_of_fits hfit]
  rfl

theorem editExec_add {x : Nat} (hop : eOp w = 2) (hx : readField j (base + eOffset w) (eBitoff w) (eWidth w) = some x) :
    editExec s j w ident = (changed j (putField j.frame (base + eOffset w) (eBitoff w) (eWidth w) (x + eImm w)), 0) := by
  simp only [editExec, hop, ha, hx, Option.map_some, writeField_of_fits (fits_of_readField hx)]
  rfl

theorem editExec_copy {o x : Nat} (hop : eOp w = 6) (hfit : base + eOffset w + fieldBytes (eBitoff w) (eWidth w) ≤ editLimit j)
    (ho : anchorAt j (fld (eImm w) 31 28) = some o)
    (hx : readField j (o + fld (eImm w) 27 20) (fld (eImm w) 19 17) (eWidth w) = some x) :
    editExec s j w ident = (changed j (putField j.frame (base + eOffset w) (eBitoff w) (eWidth w) x), 0) := by
  simp only [editExec, hop, ha, ho, hx, writeField_of_fits hfit]
  rfl

theorem editExec_decTtl (hop : eOp w = 3) : editExec s j w ident = decTtl j (eAnchor w) base := by
  simp only [editExec, hop, ha]
  rfl

theorem editExec_push (hop : eOp w = 4) : editExec s j w ident =
    pushTemplate j (bankOf s j.epoch) (base + eOffset w) (eImm w % 1024) (eAnchor w == 0 && eOffset w == 0) := by
  simp only [editExec, hop, ha]
  rfl

theorem editExec_pop (hop : eOp w = 5) : editExec s j w ident = popBytes j (base + eOffset w) (eImm w) := by
  simp only [editExec, hop, ha]
  rfl

theorem editExec_fixlen (hop : eOp w = 7) : editExec s j w ident = fixLen j (eAnchor w) base ident := by
  simp only [editExec, hop, ha]
  rfl

theorem editExec_tcCorr {o : Nat} (hop : eOp w = 9) (ho : anchorAt j 6 = some o) (hlim : o + 16 ≤ editLimit j) :
    editExec s j w ident = ({ j with corr := some (o + 8) }, 0) := by
  simp only [editExec, hop, ha, ho, show ¬ editLimit j < o + 16 by omega]
  rfl

end

theorem editExec_xlate {w : Nat} (hop : eOp w = 8) (s : State) (j : EditJob) (ident : Nat) :
    editExec s j w ident = xlate s j (eImm w) ident := by
  simp only [editExec, hop]
  rfl

/-! ### DEC_TTL -/

/-- Where the TTL of IPv4 or the hop limit of IPv6 stands. -/
def ttlAt (v base : Nat) : Nat := base + if v = 4 then 8 else 7

section
variable {j : EditJob} {a base : Nat} (hv : ipVersion j a base ≠ 0) (hf : ttlAt (ipVersion j a base) base < editLimit j)
include hf

theorem readField_ttl : readField j (ttlAt (ipVersion j a base) base) 0 8 =
    some (j.frame.getD (ttlAt (ipVersion j a base) base) 0).toNat := by
  have hlen := hf.trans_le (editLimit_le j)
  rw [readField_of_fits (by simpa [fieldBytes] using hf)]
  have hlt := (j.frame.getD (ttlAt (ipVersion j a base) base) 0).isLt
  simp only [fieldBytes, fieldShift, beNat_slice_one hlen]
  simp only [Nat.reduceAdd, Nat.reduceDiv, Nat.reduceMul, Nat.reduceSub, Nat.pow_zero, Nat.div_one, Nat.mod_eq_of_lt hlt]

include hv

theorem decTtl_eq : decTtl j a base = if (j.frame.getD (ttlAt (ipVersion j a base) base) 0).toNat ≤ 1 then (j, 7) else
    (changed j (putField j.frame (ttlAt (ipVersion j a base) base) 0 8
      ((j.frame.getD (ttlAt (ipVersion j a base) base) 0).toNat - 1)), 0) := by
  have hat : (if ipVersion j a base = 4 then base + 8 else base + 7) = ttlAt (ipVersion j a base) base := by
    simp only [ttlAt]; split <;> rfl
  simp only [decTtl, hv, hat, readField_ttl hf, writeField_of_fits (show _ + fieldBytes 0 8 ≤ _ from hf), if_false]

end

/-! ### PUSH and POP: the frame and its anchors -/

section
variable {j : EditJob} {b : Banked} {pos t : Nat} (hp : j.pushes < 2) (hn : j.pushed + min 64 (fld (tget 0 b.headers t).toNat 7 0) ≤ 128)
  (hlim : pos ≤ editLimit j)

/-- The bytes of a header template. -/
def templBytes (b : Banked) (t : Nat) : Bytes :=
  slice (leBytes 72 (tget 0 b.headers t).toNat) 8 (min 64 (fld (tget 0 b.headers t).toNat 7 0))

theorem length_templBytes (b : Banked) (t : Nat) : (templBytes b t).length = min 64 (fld (tget 0 b.headers t).toNat 7 0) :=
  length_slice (by rw [length_leBytes]; omega)

/-- The job with a template's bytes inserted, its anchors moved. -/
def pushedJob (j : EditJob) (b : Banked) (pos t : Nat) : EditJob :=
  { insertBytes j pos (templBytes b t) with pushes := j.pushes + 1, pushed := j.pushed + (templBytes b t).length }

/-- The anchors that a template names for the level it makes the outer one (R97). -/
def outerAnchors (j : EditJob) (e n : Nat) : List (Nat × Nat) :=
  (j.anchors.filter fun a => a.1 != 1 && a.1 != 2 && a.1 != 5) ++ templAnchor 1 (fld e 15 8) ++ templAnchor 2 (fld e 23 16) ++ [(5, n)]

include hp hn hlim

theorem pushTemplate_eq (atL2 : Bool) : pushTemplate j b pos t atL2 = (if atL2 && (tget 0 b.headers t).toNat.testBit 24 then
    { pushedJob j b pos t with
      anchors := outerAnchors (pushedJob j b pos t) (tget 0 b.headers t).toNat (templBytes b t).length }
    else pushedJob j b pos t, 0) := by
  have h1 : ¬ (2 ≤ j.pushes ∨ 128 < j.pushed + min 64 (fld (tget 0 b.headers t).toNat 7 0)) := by omega
  have h2 : ¬ editLimit j < pos := by omega
  simp only [pushTemplate, h1, h2, if_false, pushedJob, length_templBytes, outerAnchors]
  split <;> rfl

end

theorem anchorAt_of_ne {a : Nat} (h : a ≠ 0) (j : EditJob) : anchorAt j a = (j.anchors.find? fun x => x.1 == a).map (·.2) := if_neg h

/-- Behind a PUSH the anchors at or behind its place have moved. -/
theorem anchorAt_pushedJob {a : Nat} (ha : a ≠ 0) (j : EditJob) (b : Banked) (pos t : Nat) :
    anchorAt (pushedJob j b pos t) a = (anchorAt j a).map fun x => if pos ≤ x then x + (templBytes b t).length else x := by
  rw [anchorAt_of_ne ha, anchorAt_of_ne ha]
  show ((j.anchors.map _).find? _).map _ = _
  rw [List.find?_map, Option.map_map, Option.map_map]
  rfl

theorem find?_templAnchor (code off a : Nat) : (templAnchor code off).find? (fun x => x.1 == a) =
    if off ≠ 0 ∧ code = a then some (code, off) else none := by
  simp only [templAnchor]
  by_cases h : off = 0
  · simp [h]
  · by_cases hc : code = a
    · simp [h, hc]
    · simp [h, hc]

theorem find?_outerAnchors (j : EditJob) (e n : Nat) {a : Nat} (ha : a = 1 ∨ a = 2 ∨ a = 5) :
    (outerAnchors j e n).find? (fun x => x.1 == a) = ((templAnchor 1 (fld e 15 8)).find? (fun x => x.1 == a)).or
      (((templAnchor 2 (fld e 23 16)).find? fun x => x.1 == a).or ([(5, n)].find? fun x => x.1 == a)) := by
  have hnone : (j.anchors.filter fun a => a.1 != 1 && a.1 != 2 && a.1 != 5).find? (fun x => x.1 == a) = none := by
    rw [List.find?_eq_none]
    intro x hx
    have := (List.mem_filter.mp hx).2
    simp only [Bool.and_eq_true, bne_iff_ne] at this
    simp only [beq_iff_eq]
    omega
  rw [outerAnchors, List.find?_append, List.find?_append, List.find?_append, hnone, Option.none_or, Option.or_assoc]

/-- A template that makes the outer level names its anchors. -/
theorem anchorAt_outerAnchors {j k : EditJob} {e n : Nat} (hk : j.anchors = outerAnchors k e n) :
    anchorAt j 5 = some n ∧ (fld e 15 8 ≠ 0 → anchorAt j 1 = some (fld e 15 8)) ∧
      (fld e 23 16 ≠ 0 → anchorAt j 2 = some (fld e 23 16)) := by
  refine ⟨?_, fun h1 => ?_, fun h2 => ?_⟩
  · rw [anchorAt_of_ne (by omega), hk, find?_outerAnchors _ _ _ (by omega), find?_templAnchor, find?_templAnchor]
    simp
  · rw [anchorAt_of_ne (by omega), hk, find?_outerAnchors _ _ _ (by omega), find?_templAnchor, if_pos ⟨h1, rfl⟩]
    rfl
  · rw [anchorAt_of_ne (by omega), hk, find?_outerAnchors _ _ _ (by omega), find?_templAnchor, find?_templAnchor, if_neg (by omega),
      if_pos ⟨h2, rfl⟩]
    rfl

section
variable {j : EditJob} {pos imm : Nat}

/-- The job with the bytes from pos to e removed. -/
def poppedJob (j : EditJob) (pos e : Nat) : EditJob := { removeBytes j pos e with removed := j.removed + (e - pos) }

theorem popBytes_eq (h15 : imm.testBit 15 = false) (hr : j.removed + imm % 256 ≤ 192) (hlim : pos + imm % 256 ≤ editLimit j) :
    popBytes j pos imm = (poppedJob j pos (pos + imm % 256), 0) := by
  have h1 : ¬ pos + imm % 256 < pos := by omega
  have h2 : ¬ 192 < j.removed + (pos + imm % 256 - pos) := by omega
  have h3 : ¬ editLimit j < pos + imm % 256 := by omega
  simp only [popBytes, h15, Bool.false_eq_true, if_false, h1, h2, h3]
  rfl

theorem poppedJob_frame (j : EditJob) (pos n : Nat) : (poppedJob j pos (pos + n)).frame = j.frame.take pos ++ j.frame.drop (pos + n) := by
  simp only [poppedJob, removeBytes]
  split
  · rw [show n = 0 by omega, Nat.add_zero, List.take_append_drop]
  · rfl

/-- Where an anchor that stands behind removed bytes moves to. -/
def popMove (a b x : Nat) : Nat := if b ≤ x then x - (b - a) else min x a

theorem poppedJob_anchors {a b : Nat} (h : a < b) (j : EditJob) : (poppedJob j a b).anchors =
    (j.anchors.filter fun x => !(decide (a ≤ x.2) && decide (x.2 < b))).map fun x => (x.1, popMove a b x.2) := by
  simp only [poppedJob, removeBytes, if_neg (show ¬ b ≤ a by omega)]
  rfl

/-- An anchor outside the removed bytes stays, moved. -/
theorem anchorAt_poppedJob_outside {a b c x : Nat} (hab : a < b) (hc : c ≠ 0) (hx : anchorAt j c = some x) (hout : ¬ (a ≤ x ∧ x < b)) :
    anchorAt (poppedJob j a b) c = some (popMove a b x) := by
  rw [anchorAt_of_ne hc] at hx ⊢
  obtain ⟨⟨code, y⟩, hfind, rfl⟩ := Option.map_eq_some_iff.mp hx
  have hkeep : (j.anchors.filter fun x => !(decide (a ≤ x.2) && decide (x.2 < b))).find? (fun x => x.1 == c) = some (code, y) := by
    rw [List.find?_filter]
    rw [List.find?_eq_some_iff_append] at hfind ⊢
    obtain ⟨hcode, l1, l2, hl, hbefore⟩ := hfind
    refine ⟨?_, l1, l2, hl, fun z hz => ?_⟩
    · simp only [Bool.not_and, Bool.decide_and, Bool.and_eq_true, Bool.or_eq_true, Bool.not_eq_true', decide_eq_false_iff_not,
        decide_eq_true_eq]
      exact ⟨by omega, hcode⟩
    · have := hbefore z hz
      simp_all
  rw [poppedJob_anchors hab, List.find?_map]
  exact congrArg (fun o : Option (Nat × Nat) => (o.map fun x => (x.1, popMove a b x.2)).map (·.2)) hkeep

/-- An anchor on a removed byte is gone. -/
theorem anchorAt_poppedJob_inside {a b c x : Nat} (hd : (j.anchors.map (·.1)).Nodup) (hc : c ≠ 0) (hx : anchorAt j c = some x)
    (hin : a ≤ x ∧ x < b) : anchorAt (poppedJob j a b) c = none := by
  rw [anchorAt_of_ne hc] at hx ⊢
  obtain ⟨⟨code, y⟩, hfind, rfl⟩ := Option.map_eq_some_iff.mp hx
  obtain rfl : code = c := by simpa using List.find?_some hfind
  rw [poppedJob_anchors (by omega), Option.map_eq_none_iff, List.find?_eq_none]
  intro z hz hcode
  obtain ⟨u, hu, rfl⟩ := List.mem_map.mp hz
  obtain ⟨hmem, hkept⟩ := List.mem_filter.mp hu
  obtain rfl : u = (code, y) := List.inj_on_of_nodup_map hd hmem (List.mem_of_find?_eq_some hfind) (by simpa using hcode)
  simp [hin] at hkept

/-- Behind a POP of n bytes from a on: the anchors before it stay, those behind it move, those on a removed byte are gone. -/
theorem anchorAt_poppedJob {a n c x : Nat} (hd : (j.anchors.map (·.1)).Nodup) (hc : c ≠ 0) (hx : anchorAt j c = some x) :
    (x < a → anchorAt (poppedJob j a (a + n)) c = some x) ∧ (a + n ≤ x → anchorAt (poppedJob j a (a + n)) c = some (x - n)) ∧
      (a ≤ x → x < a + n → anchorAt (poppedJob j a (a + n)) c = none) := by
  rcases Nat.eq_zero_or_pos n with rfl | hn
  · have hsame : anchorAt (poppedJob j a (a + 0)) c = anchorAt j c := by
      simp only [poppedJob, removeBytes, Nat.add_zero, le_refl, if_true]
      rfl
    rw [hsame, hx]
    exact ⟨fun _ => rfl, fun _ => rfl, fun _ _ => by omega⟩
  · refine ⟨fun h => ?_, fun h => ?_, fun h h' => anchorAt_poppedJob_inside hd hc hx ⟨h, h'⟩⟩
    · rw [anchorAt_poppedJob_outside (by omega) hc hx (by omega), popMove, if_neg (by omega), Nat.min_eq_left (by omega)]
    · rw [anchorAt_poppedJob_outside (by omega) hc hx (by omega), popMove, if_pos h, Nat.add_sub_cancel_left]

end

end Sys2Proof.Machine
end

section
namespace Sys2Proof.Machine

/-! ### FIXLEN -/

/-- An IPv4 header with a total length written and its checksum field 0. -/
def lengthedV4 (f : Bytes) (base n : Nat) : Bytes := patch (patch f (base + 2) (beBytes 2 n)) (base + 10) [0, 0]

/-- An IPv4 header with a total length and a checksum written. -/
def fixedV4 (f : Bytes) (base n c : Nat) : Bytes := patch (lengthedV4 f base n) (base + 10) (beBytes 2 c)

section
variable {f : Bytes} {base : Nat} (h : base + 12 ≤ f.length) (n c : Nat)
include h

theorem length_lengthedV4 : (lengthedV4 f base n).length = f.length := by
  have h1 := length_patch (bs := f) (x := beBytes 2 n) (o := base + 2) (by rw [length_beBytes]; omega)
  exact (length_patch (by rw [h1]; exact h)).trans h1

theorem length_fixedV4 : (fixedV4 f base n c).length = f.length :=
  (length_patch (by rw [length_lengthedV4 h]; simpa using h)).trans (length_lengthedV4 h n)

theorem getD_lengthedV4 {k : Nat} (hk : k ∉ [base + 2, base + 3, base + 10, base + 11]) :
    (lengthedV4 f base n).getD k 0 = f.getD k 0 := by
  simp only [List.mem_cons, List.not_mem_nil, or_false, not_or] at hk
  have h1 := length_patch (bs := f) (x := beBytes 2 n) (o := base + 2) (by rw [length_beBytes]; omega)
  rw [lengthedV4, getD_patch_apart (by rw [h1]; exact h) (by simp; omega), getD_patch_apart (by simp; omega) (by simp; omega)]

theorem getD_fixedV4 {k : Nat} (hk : k ∉ [base + 2, base + 3, base + 10, base + 11]) :
    (fixedV4 f base n c).getD k 0 = f.getD k 0 := by
  have hk' := hk
  simp only [List.mem_cons, List.not_mem_nil, or_false, not_or] at hk'
  rw [fixedV4, getD_patch_apart (by rw [length_lengthedV4 h]; simpa using h) (by simp; omega), getD_lengthedV4 h n hk]

theorem totalLength_fixedV4 : beNat (slice (fixedV4 f base n c) (base + 2) 2) = n % 65536 := by
  have h1 := length_patch (bs := f) (x := beBytes 2 n) (o := base + 2) (by rw [length_beBytes]; omega)
  have hs := slice_patch_same (bs := f) (x := beBytes 2 n) (o := base + 2) (by omega)
  rw [length_beBytes] at hs
  rw [fixedV4, slice_patch_apart (by rw [length_lengthedV4 h]; simpa using h) (by omega), lengthedV4,
    slice_patch_apart (by rw [h1]; exact h) (by omega), hs, beNat_beBytes_two]

/-- The checksum that FIXLEN computes is right (R99). -/
theorem checksum_fixedV4 {m : Nat} (hm : 20 ≤ m) (hm' : m ≤ 65535) (hf : base + m ≤ f.length) (h0 : f.getD base 0 ≠ 0) :
    onesFold (sum16 (slice (fixedV4 f base n (inetChecksum 0 (slice (lengthedV4 f base n) base m))) base m)) = 0xFFFF := by
  have h1 := length_patch (bs := f) (x := beBytes 2 n) (o := base + 2) (by rw [length_beBytes]; omega)
  have hz : slice (lengthedV4 f base n) (base + 10) 2 = [0, 0] :=
    slice_patch_same (bs := patch f (base + 2) (beBytes 2 n)) (x := [0, 0]) (by omega)
  refine checksum_right (by omega) hm' (by rw [length_lengthedV4 h]; exact hf) (by rw [hz]; rfl) ?_
  rwa [getD_lengthedV4 h n (by simp)]

end

section
variable {j : EditJob} {a base : Nat}

theorem fixLen_v4 (hv : ipVersion j a base = 4) (hlim : base + max 20 (ihlBytes j base) ≤ editLimit j) (free : Nat) :
    fixLen j a base free = ({ j with frame := fixedV4 j.frame base (j.frame.length - base) (if ihlBytes j base < 20 then free else
      inetChecksum 0 (slice (lengthedV4 j.frame base (j.frame.length - base)) base (ihlBytes j base))) }, 0) := by
  simp only [fixLen, hv, show ¬ editLimit j < base + max 20 (ihlBytes j base) by omega]
  rfl

theorem fixLen_v6 (hv : ipVersion j a base = 6) (hlim : base + 40 ≤ editLimit j) (free : Nat) :
    fixLen j a base free = ({ j with frame := patch j.frame (base + 4) (beBytes 2 (j.frame.length - base - 40)) }, 0) := by
  simp only [fixLen, hv, show ¬ editLimit j < base + 40 by omega]
  rfl

theorem fixLen_udp (hv : ipVersion j a base = 0) (hu : udpAt j a = true) (hlim : base + 8 ≤ editLimit j) (free : Nat) :
    fixLen j a base free = ({ j with frame := patch j.frame (base + 4) (beBytes 2 (j.frame.length - base) ++ [0, 0]) }, 0) := by
  simp only [fixLen, hv, hu, show ¬ editLimit j < base + 8 by omega]
  rfl

/-- A byte that begins an IPv4 header is not 0. -/
theorem getD_ne_zero_of_ipVersion (hv : ipVersion j a base = 4) : j.frame.getD base 0 ≠ 0 := by
  intro h0
  simp only [ipVersion, h0] at hv
  revert hv
  split <;> simp

theorem usesFree_fixlen {w : Nat} (hop : eOp w = 7) (ha : anchorAt j (eAnchor w) = some base) :
    usesFree j w = (ipVersion j (eAnchor w) base == 4 && decide (ihlBytes j base < 20)) := by
  simp [usesFree, hop, ha]

end

/-! ### XLATE (R100) -/

/-- A new IPv4 header, its checksum field 0. -/
def bareV4 (tos n ident df ttl proto src dst : Nat) : Bytes :=
  [0x45, BitVec.ofNat 8 tos] ++ beBytes 2 n ++ beBytes 2 ident ++
    [BitVec.ofNat 8 df, 0, BitVec.ofNat 8 ttl, BitVec.ofNat 8 proto, 0, 0] ++ beBytes 4 src ++ beBytes 4 dst

/-- A new IPv4 header. -/
def headerV4 (tos n ident df ttl proto src dst : Nat) : Bytes :=
  patch (bareV4 tos n ident df ttl proto src dst) 10 (beBytes 2 (inetChecksum 0 (bareV4 tos n ident df ttl proto src dst)))

/-- A new IPv6 header of a traffic class. -/
def headerV6 (cls n proto hop src dst : Nat) : Bytes :=
  beBytes 4 (6 * 2 ^ 28 + cls * 2 ^ 20) ++ beBytes 2 n ++ [BitVec.ofNat 8 proto, BitVec.ofNat 8 hop] ++ beBytes 16 src ++ beBytes 16 dst

section
variable (tos n ident df ttl proto src dst : Nat)

theorem length_bareV4 : (bareV4 tos n ident df ttl proto src dst).length = 20 := by simp [bareV4]

theorem length_headerV4 : (headerV4 tos n ident df ttl proto src dst).length = 20 :=
  (length_patch (by simp [length_bareV4])).trans (length_bareV4 ..)

/-- The runs of bytes of a new IPv4 header without its checksum. -/
theorem slice_bareV4 : slice (bareV4 tos n ident df ttl proto src dst) 2 2 = beBytes 2 n ∧
    slice (bareV4 tos n ident df ttl proto src dst) 10 2 = [0, 0] ∧
    slice (bareV4 tos n ident df ttl proto src dst) 12 4 = beBytes 4 src ∧
    slice (bareV4 tos n ident df ttl proto src dst) 16 4 = beBytes 4 dst := ⟨rfl, rfl, rfl, rfl⟩

theorem slice_headerV4 {k m : Nat} (hk : k + m ≤ 10 ∨ 12 ≤ k) : slice (headerV4 tos n ident df ttl proto src dst) k m =
    slice (bareV4 tos n ident df ttl proto src dst) k m :=
  slice_patch_apart (by simp [length_bareV4]) (by simpa using hk)

theorem getD_headerV4 {k : Nat} (hk : k < 10) : (headerV4 tos n ident df ttl proto src dst).getD k 0 =
    (bareV4 tos n ident df ttl proto src dst).getD k 0 :=
  getD_patch_apart (by simp [length_bareV4]) (.inl hk)

/-- The checksum of a new IPv4 header is right. -/
theorem checksum_headerV4 : onesFold (sum16 (slice (headerV4 tos n ident df ttl proto src dst) 0 20)) = 0xFFFF := by
  have hwhole : slice (bareV4 tos n ident df ttl proto src dst) 0 20 = bareV4 tos n ident df ttl proto src dst :=
    List.take_of_length_le (length_bareV4 ..).le
  have hz : beNat (slice (bareV4 tos n ident df ttl proto src dst) (0 + 10) 2) = 0 := by
    rw [Nat.zero_add, (slice_bareV4 tos n ident df ttl proto src dst).2.1]; rfl
  have hc := checksum_right (o := 0) (m := 20) (by omega) (by omega) (length_bareV4 ..).ge hz (by simp [bareV4])
  rwa [hwhole, Nat.zero_add] at hc

end

theorem length_headerV6 (cls n proto hop src dst : Nat) : (headerV6 cls n proto hop src dst).length = 40 := by simp [headerV6]

/-- The runs of bytes of a new IPv6 header. -/
theorem slice_headerV6 (cls n proto hop src dst : Nat) : slice (headerV6 cls n proto hop src dst) 4 2 = beBytes 2 n ∧
    slice (headerV6 cls n proto hop src dst) 8 16 = beBytes 16 src ∧
    slice (headerV6 cls n proto hop src dst) 24 16 = beBytes 16 dst := ⟨rfl, rfl, rfl⟩

theorem version_headerV6 {cls : Nat} (h : cls < 256) (n proto hop src dst : Nat) :
    ((headerV6 cls n proto hop src dst).getD 0 0).toNat / 16 = 6 := by
  have h0 : (headerV6 cls n proto hop src dst).getD 0 0 = BitVec.ofNat 8 ((6 * 2 ^ 28 + cls * 2 ^ 20) / 256 / 256 / 256) := rfl
  rw [h0, BitVec.toNat_ofNat]
  omega

theorem length_xlateCsum (l4 : Bytes) (proto : Nat) (old new : Bytes) : (xlateCsum l4 proto old new).length = l4.length := by
  simp only [xlateCsum]
  generalize (if proto = 6 then 16 else 6) = at_
  split
  · rfl
  · rw [length_patch (by rw [length_beBytes]; omega)]

/-- A translated frame: as many bytes before the header as before, the new header, and the payload. -/
theorem xlateApply_frame {j : EditJob} {pos : Nat} (h : pos ≤ j.frame.length) (oldLen : Nat) (hdr l4 : Bytes) (ety newEty proto : Nat) :
    ∃ pre, pre.length = pos ∧ (xlateApply j pos oldLen hdr l4 ety newEty proto).frame = pre ++ hdr ++ l4 := by
  refine ⟨_, ?_, rfl⟩
  have htake : (j.frame.take pos).length = pos := by simp [h]
  split
  · rename_i hety
    rw [length_patch (by rw [htake, length_beBytes]; omega), htake]
  · exact htake

section
variable {s : State} {j : EditJob} {pos l4 imm : Nat} {nat : Bool × Nat × Nat}

/-- Byte k of the L3 header at pos. -/
def hdrByte (j : EditJob) (pos k : Nat) : Nat := (j.frame.getD (pos + k) 0).toNat

theorem hdrByte_lt (j : EditJob) (pos k : Nat) : hdrByte j pos k < 256 := (j.frame.getD (pos + k) 0).isLt

/-- Bytes that an IPv6 header states to follow it, and that an IPv4 header's total length leaves behind it. -/
def lengthV6 (j : EditJob) (pos : Nat) : Nat := hdrByte j pos 4 * 256 + hdrByte j pos 5
def lengthV4 (j : EditJob) (pos : Nat) : Nat := hdrByte j pos 2 * 256 + hdrByte j pos 3 - hdrByte j pos 0 % 16 * 4

/-- The addresses that R100 derives: the IPv4 one embedded in the destination, the IPv6 one that embeds the source. -/
def dstToV4 (s : State) (j : EditJob) (pos : Nat) : Nat := extract64 (cfgN s 0x3004 0 0) (beNat (slice j.frame (pos + 24) 16))
def srcToV6 (s : State) (j : EditJob) (pos : Nat) : Nat :=
  embed64 (cfgNet s 0x3003 0 0) (cfgN s 0x3004 0 0) (beNat (slice j.frame (pos + 12) 4))

/-- The header of the other family that replaces the one at pos (R100). -/
def headerToV4 (s : State) (j : EditJob) (pos na ident : Nat) : Bytes :=
  headerV4 ((hdrByte j pos 0 * 256 + hdrByte j pos 1) / 16 % 256) (lengthV6 j pos + 20) ident
    (if 1260 < lengthV6 j pos + 20 then 0x40 else 0) (hdrByte j pos 7) (hdrByte j pos 6) na (dstToV4 s j pos)
def headerToV6 (s : State) (j : EditJob) (pos na : Nat) : Bytes :=
  headerV6 (hdrByte j pos 1) (lengthV4 j pos) (hdrByte j pos 9) (hdrByte j pos 8) (srcToV6 s j pos) na

/-- The payload behind it, its checksum as the new addresses ask. -/
def payloadToV4 (s : State) (j : EditJob) (pos na : Nat) : Bytes :=
  xlateCsum (slice j.frame (pos + 40) (lengthV6 j pos)) (hdrByte j pos 6) (slice j.frame (pos + 8) 32)
    (beBytes 4 na ++ beBytes 4 (dstToV4 s j pos))
def payloadToV6 (s : State) (j : EditJob) (pos na : Nat) : Bytes :=
  xlateCsum (slice j.frame (pos + hdrByte j pos 0 % 16 * 4) (lengthV4 j pos)) (hdrByte j pos 9) (slice j.frame (pos + 12) 8)
    (beBytes 16 (srcToV6 s j pos) ++ beBytes 16 na)

theorem length_payloadToV4 (s : State) (j : EditJob) (pos na : Nat) :
    (payloadToV4 s j pos na).length = min (lengthV6 j pos) (j.frame.length - (pos + 40)) := by
  rw [payloadToV4, length_xlateCsum, slice, List.length_take, List.length_drop]

theorem length_payloadToV6 (s : State) (j : EditJob) (pos na : Nat) :
    (payloadToV6 s j pos na).length = min (lengthV4 j pos) (j.frame.length - (pos + hdrByte j pos 0 % 16 * 4)) := by
  rw [payloadToV6, length_xlateCsum, slice, List.length_take, List.length_drop]

variable (h3 : anchorAt j 3 = some pos) (h4 : anchorAt j 4 = some l4) (hn : j.nat = some nat) (hlim : l4 + 8 ≤ editLimit j) (ident : Nat)
include h3 h4 hn hlim

/-- A NAT_ADDR that is not of the new family is a fault (R493). -/
theorem xlate_family (hf : addrFam (natAddr s nat) ≠ b2n (imm.testBit 0)) : xlate s j imm ident = (j, 5) := by
  simp only [xlate, h3, h4, hn, show ¬ editLimit j < l4 + 8 by omega, if_false]
  cases hb : imm.testBit 0 with
  | false => simp_all [b2n]
  | true => simp_all [b2n]

theorem xlate_toV4 (hi : imm.testBit 0 = false) (hf : addrFam (natAddr s nat) = 0) (hv : hdrByte j pos 0 / 16 = 6) (hl : l4 = pos + 40)
    (hp : hdrByte j pos 6 ∈ [6, 17]) : xlate s j imm ident = (xlateApply j pos 40 (headerToV4 s j pos (natAddr s nat) ident)
      (payloadToV4 s j pos (natAddr s nat)) 0x86DD 0x0800 (hdrByte j pos 6), 0) := by
  have hok : ¬ (hdrByte j pos 0 / 16 ≠ 6 ∨ l4 ≠ pos + 40 ∨ (hdrByte j pos 6 ≠ 6 ∧ hdrByte j pos 6 ≠ 17) ∨
      addrFam (natAddr s nat) ≠ 0) := by
    simp only [List.mem_cons, List.not_mem_nil, or_false] at hp
    omega
  simp only [xlate, h3, h4, hn, hi, show ¬ editLimit j < l4 + 8 by omega, if_false, Bool.not_false, if_true]
  exact if_neg hok

theorem xlate_toV6 (hi : imm.testBit 0 = true) (hf : addrFam (natAddr s nat) = 1) (hv : hdrByte j pos 0 / 16 = 4)
    (hl : l4 = pos + hdrByte j pos 0 % 16 * 4) (hp : hdrByte j pos 9 ∈ [6, 17]) : xlate s j imm ident =
      (xlateApply j pos (hdrByte j pos 0 % 16 * 4) (headerToV6 s j pos (natAddr s nat)) (payloadToV6 s j pos (natAddr s nat))
        0x0800 0x86DD (hdrByte j pos 9), 0) := by
  have hok : ¬ (hdrByte j pos 0 / 16 ≠ 4 ∨ l4 ≠ pos + hdrByte j pos 0 % 16 * 4 ∨ (hdrByte j pos 9 ≠ 6 ∧ hdrByte j pos 9 ≠ 17) ∨
      addrFam (natAddr s nat) ≠ 1) := by
    simp only [List.mem_cons, List.not_mem_nil, or_false] at hp
    omega
  simp only [xlate, h3, h4, hn, hi, show ¬ editLimit j < l4 + 8 by omega, if_false, Bool.not_true, Bool.false_eq_true]
  exact if_neg hok

end

/-! ### A program that has ended (R99) -/

/-- A frame padded to 60 bytes, its FCS to come. -/
def padded (f : Bytes) : Bytes := f ++ List.replicate (60 - f.length) 0

/-- A frame with its FCS is longer than the output may take. -/
abbrev TooLong (s : State) (j : EditJob) : Prop :=
  16000 < (padded j.frame).length + 4 ∨ (j.out < 1024 ∧ cfgN s 0x2007 j.out 0 < (padded j.frame).length + 4)

section
variable {s : State} {p : Nat} {j g : EditJob} {rest : List EditJob}

theorem not_tooLong (hmax : (padded g.frame).length + 4 ≤ 16000)
    (hmtu : g.out < 1024 → (padded g.frame).length + 4 ≤ cfgN s 0x2007 g.out 0) : ¬ TooLong s g := by
  rintro (h | ⟨ho, h⟩)
  · exact absurd hmax (by omega)
  · exact absurd (hmtu ho) (by omega)

/-- Without a mark to write, a program's end pads the frame and looks at its length. -/
theorem editFinish_unmarked (he : g.ecn = false) (hd : g.dscp = none) :
    editFinish s g = ({ g with frame := padded g.frame }, false, if TooLong s g then 4 else 0) := by
  simp only [editFinish, he, hd, Bool.false_eq_true, if_false]
  rfl

/-- An editor in its stop, or without a job, runs no program. -/
theorem execEditor_idle (h : editJobs s p = [] ∨ fnStopped s (.pipeline p) = true) : exec (.editor p) s = .next s := by
  show execEditor p s = _
  rcases h with h | h
  · simp [execEditor, h]
  · simp [execEditor, h]

/-- Behind a program that has ended without a cause comes the hand-over. -/
theorem execEditor_done (hs : fnStopped s (.pipeline p) = false) (hj : editJobs s p = j :: rest) (hg : editRun s 16 j = (g, 0)) :
    ∃ used, exec (.editor p) s = .next (drawFree 16 used (editDone p g rest s)) := by
  refine ⟨(progWords (bankOf s j.epoch) j.prog).any fun w => eOp w == 7 || eOp w == 8, ?_⟩
  show execEditor p s = _
  simp only [execEditor, hs, hj, hg, Bool.false_eq_true, if_false, ne_eq, not_true]

variable (he : g.ecn = false) (hd : g.dscp = none)
include he hd

/-- To a port: the padded frame stands at its MAC. -/
theorem editDone_port (hlen : ¬ TooLong s g) (ho : g.out < 1024) :
    ∃ x, x.frame = padded g.frame ∧ x.pid = g.pid ∧ x.corr = g.corr ∧
    editDone p g rest s = setPath s { s.path with
      edits := tset [] s.path.edits p rest, tx := tset [] s.path.tx g.out (tget [] s.path.tx g.out ++ [x]) } := by
  have hfin := editFinish_unmarked (s := s) he hd
  rw [if_neg hlen] at hfin
  refine ⟨txFrameOf (setEdits s p rest) { g with frame := padded g.frame }, rfl, rfl, rfl, ?_⟩
  simp only [editDone, hfin, ho, if_true, ne_eq, not_true, if_false, Bool.false_and, Bool.false_eq_true]
  rfl

/-- To the recirculation path: the packet waits there with the padded frame. -/
theorem editDone_recirc (hlen : ¬ TooLong s g) (ho : 1024 ≤ g.out) :
    editDone p g rest s = toRecirc p { g with frame := padded g.frame } (setEdits s p rest) := by
  have hfin := editFinish_unmarked (s := s) he hd
  rw [if_neg hlen] at hfin
  simp only [editDone, hfin, show ¬ g.out < 1024 by omega, if_false, ne_eq, not_true, Bool.false_and, Bool.false_eq_true]

theorem editDone_tooLong (hlen : TooLong s g) : editDone p g rest s = editDrop p 4 { g with frame := padded g.frame } rest s := by
  have hfin := editFinish_unmarked (s := s) he hd
  rw [if_pos hlen] at hfin
  simp only [editDone, hfin]
  rfl

end

end Sys2Proof.Machine
end

section
namespace Sys2Proof.Machine

/-! ### The commands of an editor -/

/-- The commands that execute one word, by its operation. -/
def editCmds (p : Nat) : List (Nat × Instr) := [(0, .editEnd p), (1, .set p), (2, .add p), (3, .decTtl p), (4, .push p), (5, .pop p),
  (6, .copy p), (7, .fixlen p), (8, .xlate p), (9, .tcCorr p)]

theorem exec_editCmd {p : Nat} {x : Nat × Instr} (hx : x ∈ editCmds p) (s : State) : exec x.2 s = .next (editOp x.1 p s) := by
  simp only [editCmds, List.mem_cons, List.not_mem_nil, or_false] at hx
  rcases hx with rfl | rfl | rfl | rfl | rfl | rfl | rfl | rfl | rfl | rfl <;> rfl

theorem changed_of_csums {j : EditJob} {c : Csum} (h : j.csums = [c]) (new : Bytes) : (changed j new).frame = csumFix j.frame new c := by
  simp [changed, h]

/-- A header whose checksum was right keeps a right one when a field apart from the checksum is written (R98). -/
theorem checksum_changed {j : EditJob} {pos bo wd o n : Nat} (hfit : pos + fieldBytes bo wd ≤ editLimit j) (v : Nat)
    (hc : j.csums = [{ at_ := o + 10, spans := [(o, n)], kind := 0 }]) (hn : n % 2 = 0) (hn' : 20 ≤ n) (hlim : o + n ≤ editLimit j)
    (hap : pos + fieldBytes bo wd ≤ o + 10 ∨ o + 12 ≤ pos) (hright : onesFold (sum16 (slice j.frame o n)) = 0xFFFF)
    (h0 : (changed j (putField j.frame pos bo wd v)).frame.getD o 0 ≠ 0) :
    onesFold (sum16 (slice (changed j (putField j.frame pos bo wd v)).frame o n)) = 0xFFFF := by
  have hf := hfit.trans (editLimit_le j)
  rw [changed_of_csums hc] at h0 ⊢
  have hlen : (putField j.frame pos bo wd v).length = j.frame.length := length_putField hf v
  refine csumFix_right hn hn' hlim hlen ?_ hright ?_
  · exact congrArg beNat (slice_congr hlen.symm fun k _ _ => (getD_putField_apart hf v (by omega)).symm)
  · rwa [getD_csumFix_apart (by simp only; omega)] at h0

section
variable {s : State} {p : Nat} {j : EditJob} {rest : List EditJob} {w base : Nat} (h : EditsWord s p j rest w)
include h

/-- A word that writes a field replaces its job by the one with the field written. -/
theorem EditsWord.writes {op pos bo wd v : Nat} (hop : eOp w = op) (hn : op ∉ [0, 7, 8]) (hfit : pos + fieldBytes bo wd ≤ editLimit j)
    (hx : editExec s j w (editFree s) = (changed j (putField j.frame pos bo wd v), 0)) :
    ∃ j', j' = stepped j (changed j (putField j.frame pos bo wd v)) ∧ editOp op p s = setEdits s p (j' :: rest) ∧
      FieldWritten j j' pos bo wd v := by
  simp only [List.mem_cons, List.not_mem_nil, or_false, not_or] at hn
  exact ⟨_, rfl, h.editOp_plain hop hn.1 (usesFree_of_ne (by simp [hop, hn]) j) hx, fieldWritten_stepped hfit v⟩

variable (ha : anchorAt j (eAnchor w) = some base)
include ha

theorem EditsWord.exec_set {x : Nat} (hop : eOp w = 1) (hfit : base + eOffset w + fieldBytes (eBitoff w) (eWidth w) ≤ editLimit j)
    (hx : editSource s j (eSrc w) (eImm w) = some x) : ∃ j', exec (.set p) s = .next (setEdits s p (j' :: rest)) ∧
      FieldWritten j j' (base + eOffset w) (eBitoff w) (eWidth w) x ∧
      (∀ o n, j.csums = [{ at_ := o + 10, spans := [(o, n)], kind := 0 }] → n % 2 = 0 → 20 ≤ n → o + n ≤ editLimit j →
        (base + eOffset w + fieldBytes (eBitoff w) (eWidth w) ≤ o + 10 ∨ o + 12 ≤ base + eOffset w) →
        onesFold (sum16 (slice j.frame o n)) = 0xFFFF → j'.frame.getD o 0 ≠ 0 → onesFold (sum16 (slice j'.frame o n)) = 0xFFFF) := by
  obtain ⟨j', rfl, hrun, hw⟩ := h.writes hop (by simp) hfit (editExec_set _ ha hop hfit hx)
  exact ⟨_, congrArg Host.Outcome.next hrun, hw,
    fun o n hc hn hn' hlim hap hright h0 => checksum_changed hfit x hc hn hn' hlim hap hright h0⟩

theorem EditsWord.exec_add {x : Nat} (hop : eOp w = 2) (hx : readField j (base + eOffset w) (eBitoff w) (eWidth w) = some x) :
    ∃ j', exec (.add p) s = .next (setEdits s p (j' :: rest)) ∧
      FieldWritten j j' (base + eOffset w) (eBitoff w) (eWidth w) (x + eImm w) := by
  obtain ⟨j', -, hrun, hw⟩ := h.writes hop (by simp) (fits_of_readField hx) (editExec_add _ ha hop hx)
  exact ⟨j', congrArg Host.Outcome.next hrun, hw⟩

theorem EditsWord.exec_copy {o x : Nat} (hop : eOp w = 6) (hfit : base + eOffset w + fieldBytes (eBitoff w) (eWidth w) ≤ editLimit j)
    (ho : anchorAt j (fld (eImm w) 31 28) = some o)
    (hx : readField j (o + fld (eImm w) 27 20) (fld (eImm w) 19 17) (eWidth w) = some x) :
    ∃ j', exec (.copy p) s = .next (setEdits s p (j' :: rest)) ∧ FieldWritten j j' (base + eOffset w) (eBitoff w) (eWidth w) x := by
  obtain ⟨j', -, hrun, hw⟩ := h.writes hop (by simp) hfit (editExec_copy _ ha hop hfit ho hx)
  exact ⟨j', congrArg Host.Outcome.next hrun, hw⟩

theorem EditsWord.exec_decTtl (hop : eOp w = 3) (hv : ipVersion j (eAnchor w) base ≠ 0)
    (hf : ttlAt (ipVersion j (eAnchor w) base) base < editLimit j) :
    let f := ttlAt (ipVersion j (eAnchor w) base) base
    let ttl := (j.frame.getD f 0).toNat
    (1 < ttl → ∃ j', exec (.decTtl p) s = .next (setEdits s p (j' :: rest)) ∧ FieldWritten j j' f 0 8 (ttl - 1)) ∧
      (ttl ≤ 1 → ∃ t, exec (.decTtl p) s = .next t ∧ t.path.edits = tset [] s.path.edits p rest ∧ t.path.tx = s.path.tx ∧
        t.cnt = (count 0x3030 p 7 s).cnt) := by
  intro f ttl
  have hx := (editExec_decTtl (s := s) (editFree s) ha hop).trans (decTtl_eq hv hf)
  refine ⟨fun hlive => ?_, fun hdead => ?_⟩
  · rw [if_neg (show ¬ ttl ≤ 1 by omega)] at hx
    obtain ⟨j', -, hrun, hw⟩ := h.writes hop (by simp) hf hx
    exact ⟨j', congrArg Host.Outcome.next hrun, hw⟩
  · rw [if_pos hdead] at hx
    have hrun := h.editOp_drop hop (by simp) (by simp) hx
    rw [usesFree_of_ne (by simp [hop])] at hrun
    exact ⟨_, congrArg Host.Outcome.next hrun, editDrop_edits .., editDrop_tx .., editDrop_ttl_cnt ..⟩

theorem EditsWord.exec_push (hop : eOp w = 4) :
    let e := (tget 0 (bankOf s j.epoch).headers (eImm w % 1024)).toNat
    let n := min 64 (fld e 7 0)
    let pos := base + eOffset w
    j.pushes < 2 → j.pushed + n ≤ 128 → pos ≤ editLimit j → ∃ j', exec (.push p) s = .next (setEdits s p (j' :: rest)) ∧
      j'.frame = j.frame.take pos ++ slice (leBytes 72 e) 8 n ++ j.frame.drop pos ∧ j'.pushes = j.pushes + 1 ∧
      j'.pushed = j.pushed + n ∧ j'.pc = j.pc + 1 ∧
      (eAnchor w = 0 ∧ eOffset w = 0 ∧ e.testBit 24 = true → anchorAt j' 5 = some n ∧
        (fld e 15 8 ≠ 0 → anchorAt j' 1 = some (fld e 15 8)) ∧ (fld e 23 16 ≠ 0 → anchorAt j' 2 = some (fld e 23 16))) ∧
      (¬ (eAnchor w = 0 ∧ eOffset w = 0 ∧ e.testBit 24 = true) → ∀ a, a ≠ 0 →
        anchorAt j' a = (anchorAt j a).map fun x => if pos ≤ x then x + n else x) := by
  intro e n pos hp hn hlim
  have hx := (editExec_push (s := s) (editFree s) ha hop).trans (pushTemplate_eq hp hn hlim _)
  have hlen := length_templBytes (bankOf s j.epoch) (eImm w % 1024)
  by_cases houter : eAnchor w = 0 ∧ eOffset w = 0 ∧ e.testBit 24 = true
  · obtain ⟨h0, h0', h24⟩ := houter
    rw [if_pos (by rw [h0, h0']; exact h24)] at hx
    have hrun := h.editOp_plain hop (by simp) (usesFree_of_ne (by simp [hop]) j) hx
    refine ⟨_, congrArg Host.Outcome.next hrun, rfl, rfl, congrArg (j.pushed + ·) hlen, rfl, fun _ => ?_,
      fun hno => absurd ⟨h0, h0', h24⟩ hno⟩
    rw [show n = (templBytes (bankOf s j.epoch) (eImm w % 1024)).length from hlen.symm]
    exact anchorAt_outerAnchors rfl
  · rw [if_neg (by simpa [and_assoc, e] using houter)] at hx
    have hrun := h.editOp_plain hop (by simp) (usesFree_of_ne (by simp [hop]) j) hx
    refine ⟨_, congrArg Host.Outcome.next hrun, rfl, rfl, congrArg (j.pushed + ·) hlen, rfl, fun hyes => absurd hyes houter,
      fun _ a ha0 => ?_⟩
    have hmoved := anchorAt_pushedJob ha0 j (bankOf s j.epoch) pos (eImm w % 1024)
    rw [hlen] at hmoved
    exact hmoved

theorem EditsWord.exec_pop (hop : eOp w = 5) (h15 : (eImm w).testBit 15 = false) (hr : j.removed + eImm w % 256 ≤ 192)
    (hlim : base + eOffset w + eImm w % 256 ≤ editLimit j) : ∃ j', exec (.pop p) s = .next (setEdits s p (j' :: rest)) ∧
      j'.frame = j.frame.take (base + eOffset w) ++ j.frame.drop (base + eOffset w + eImm w % 256) ∧
      j'.removed = j.removed + eImm w % 256 ∧ j'.pc = j.pc + 1 ∧
      (∀ a x, (j.anchors.map (·.1)).Nodup → a ≠ 0 → anchorAt j a = some x →
        (x < base + eOffset w → anchorAt j' a = some x) ∧
        (base + eOffset w + eImm w % 256 ≤ x → anchorAt j' a = some (x - eImm w % 256)) ∧
        (base + eOffset w ≤ x → x < base + eOffset w + eImm w % 256 → anchorAt j' a = none)) := by
  have hx := (editExec_pop (s := s) (editFree s) ha hop).trans (popBytes_eq h15 hr hlim)
  have hrun := h.editOp_plain hop (by simp) (usesFree_of_ne (by simp [hop]) j) hx
  exact ⟨_, congrArg Host.Outcome.next hrun, poppedJob_frame .., congrArg (j.removed + ·) (Nat.add_sub_cancel_left ..), rfl,
    fun a x hd h0 hax => anchorAt_poppedJob hd h0 hax⟩

/-- FIXLEN on an IPv4 header whose IHL is below 5: the free value stands as its checksum (log 39). -/
theorem EditsWord.exec_fixlen_short (hop : eOp w = 7) (hv : ipVersion j (eAnchor w) base = 4) (hl : ihlBytes j base < 20)
    (hlim : base + 20 ≤ editLimit j) : ∃ j', exec (.fixlen p) s = .next { setEdits s p (j' :: rest) with free := s.free + 1 } ∧
      beNat (slice j'.frame (base + 2) 2) = (j.frame.length - base) % 65536 ∧ j'.frame.length = j.frame.length ∧
      (∀ k, k ∉ [base + 2, base + 3, base + 10, base + 11] → j'.frame.getD k 0 = j.frame.getD k 0) := by
  have hf : base + 12 ≤ j.frame.length := by have := editLimit_le j; omega
  have hx := (editExec_fixlen (s := s) (editFree s) ha hop).trans (fixLen_v4 hv (by omega) _)
  have hrun := h.editOp_next hop (by simp) hx
  rw [usesFree_fixlen hop ha, hv, decide_eq_true hl] at hrun
  exact ⟨_, congrArg Host.Outcome.next hrun, totalLength_fixedV4 hf .., length_fixedV4 hf .., fun k hk => getD_fixedV4 hf _ _ hk⟩

theorem EditsWord.exec_fixlen_v4 (hop : eOp w = 7) (hv : ipVersion j (eAnchor w) base = 4) (hl : 20 ≤ ihlBytes j base)
    (hlim : base + ihlBytes j base ≤ editLimit j) : ∃ j', exec (.fixlen p) s = .next (setEdits s p (j' :: rest)) ∧
      beNat (slice j'.frame (base + 2) 2) = (j.frame.length - base) % 65536 ∧
      onesFold (sum16 (slice j'.frame base (ihlBytes j base))) = 0xFFFF ∧ j'.frame.length = j.frame.length ∧
      (∀ k, k ∉ [base + 2, base + 3, base + 10, base + 11] → j'.frame.getD k 0 = j.frame.getD k 0) := by
  have hf : base + 12 ≤ j.frame.length := by have := editLimit_le j; omega
  have hx := (editExec_fixlen (s := s) (editFree s) ha hop).trans (fixLen_v4 hv (by omega) _)
  rw [if_neg (by omega)] at hx
  have hrun := h.editOp_plain hop (by simp) (by rw [usesFree_fixlen hop ha, decide_eq_false (by omega), Bool.and_false]) hx
  have hihl : ihlBytes j base ≤ 65535 := by simp only [ihlBytes]; omega
  exact ⟨_, congrArg Host.Outcome.next hrun, totalLength_fixedV4 hf .., checksum_fixedV4 hf _ hl hihl (hlim.trans (editLimit_le j))
    (getD_ne_zero_of_ipVersion hv), length_fixedV4 hf .., fun k hk => getD_fixedV4 hf _ _ hk⟩

theorem EditsWord.exec_fixlen_v6 (hop : eOp w = 7) (hv : ipVersion j (eAnchor w) base = 6) (hlim : base + 40 ≤ editLimit j) :
    ∃ j', exec (.fixlen p) s = .next (setEdits s p (j' :: rest)) ∧
      beNat (slice j'.frame (base + 4) 2) = (j.frame.length - base - 40) % 65536 ∧ j'.frame.length = j.frame.length ∧
      (∀ k, k ∉ [base + 4, base + 5] → j'.frame.getD k 0 = j.frame.getD k 0) := by
  have hf := editLimit_le j
  have hx := (editExec_fixlen (s := s) (editFree s) ha hop).trans (fixLen_v6 hv hlim _)
  have hrun := h.editOp_plain hop (by simp) (by rw [usesFree_fixlen hop ha, hv]; rfl) hx
  have hle : base + 4 + (beBytes 2 (j.frame.length - base - 40)).length ≤ j.frame.length := by rw [length_beBytes]; omega
  have hs := slice_patch_same (bs := j.frame) (x := beBytes 2 (j.frame.length - base - 40)) (o := base + 4) (by omega)
  refine ⟨_, congrArg Host.Outcome.next hrun, (congrArg beNat hs).trans (beNat_beBytes_two _), length_patch hle,
    fun k hk => getD_patch_apart hle ?_⟩
  simp only [List.mem_cons, List.not_mem_nil, or_false, not_or] at hk
  rw [length_beBytes]
  omega

theorem EditsWord.exec_fixlen_udp (hop : eOp w = 7) (hv : ipVersion j (eAnchor w) base = 0) (hu : udpAt j (eAnchor w) = true)
    (hlim : base + 8 ≤ editLimit j) : ∃ j', exec (.fixlen p) s = .next (setEdits s p (j' :: rest)) ∧
      beNat (slice j'.frame (base + 4) 2) = (j.frame.length - base) % 65536 ∧ slice j'.frame (base + 6) 2 = [0, 0] ∧
      j'.frame.length = j.frame.length ∧ (∀ k, k < base + 4 ∨ base + 8 ≤ k → j'.frame.getD k 0 = j.frame.getD k 0) := by
  have hf := editLimit_le j
  have hx := (editExec_fixlen (s := s) (editFree s) ha hop).trans (fixLen_udp hv hu hlim _)
  have hrun := h.editOp_plain hop (by simp) (by rw [usesFree_fixlen hop ha, hv]; rfl) hx
  have hle : base + 4 + (beBytes 2 (j.frame.length - base) ++ [0, 0]).length ≤ j.frame.length := by simp; omega
  have hs := slice_patch_same (bs := j.frame) (x := beBytes 2 (j.frame.length - base) ++ [0, 0]) (o := base + 4) (by omega)
  have h4 : slice (patch j.frame (base + 4) (beBytes 2 (j.frame.length - base) ++ [0, 0])) (base + 4) (2 + 2) =
      beBytes 2 (j.frame.length - base) ++ [0, 0] := hs
  rw [slice_add] at h4
  obtain ⟨hlen, hzero⟩ := List.append_inj h4 (by rw [length_slice (by rw [length_patch hle]; omega), length_beBytes])
  exact ⟨_, congrArg Host.Outcome.next hrun, (congrArg beNat hlen).trans (beNat_beBytes_two _), hzero, length_patch hle,
    fun k hk => getD_patch_apart hle (by simpa using hk)⟩

theorem EditsWord.exec_tcCorr {o : Nat} (hop : eOp w = 9) (ho : anchorAt j 6 = some o) (hlim : o + 16 ≤ editLimit j) :
    exec (.tcCorr p) s = .next (setEdits s p ({ j with corr := some (o + 8), pc := j.pc + 1, done := decide (15 ≤ j.pc) } :: rest)) :=
  congrArg _ (h.editOp_plain hop (by simp) (usesFree_of_ne (by simp [hop]) j) (editExec_tcCorr _ ha hop ho hlim))

end

end Sys2Proof.Machine
end

section
namespace Sys2Proof.Machine

/-! ### What a translated frame holds (R100) -/

theorem toNat_ofNat_of_lt {v : Nat} (h : v < 256) : (BitVec.ofNat 8 v).toNat = v := by
  rw [BitVec.toNat_ofNat]; omega

/-- A new IPv4 header within a frame. -/
theorem frame_headerV4 {pre rest : Bytes} {pos ttl proto : Nat} (hpre : pre.length = pos) (httl : ttl < 256) (hproto : proto < 256)
    (tos n ident df src dst : Nat) : let g := pre ++ headerV4 tos n ident df ttl proto src dst ++ rest
    (g.getD pos 0).toNat = 0x45 ∧ beNat (slice g (pos + 2) 2) = n % 65536 ∧ (g.getD (pos + 8) 0).toNat = ttl ∧
      (g.getD (pos + 9) 0).toNat = proto ∧ onesFold (sum16 (slice g pos 20)) = 0xFFFF ∧
      beNat (slice g (pos + 12) 4) = src % 2 ^ 32 ∧ beNat (slice g (pos + 16) 4) = dst % 2 ^ 32 ∧
      g.length = pos + 20 + rest.length := by
  intro g
  have hlen := length_headerV4 tos n ident df ttl proto src dst
  have hbyte {k : Nat} (hk : k < 10) : g.getD (pos + k) 0 = (bareV4 tos n ident df ttl proto src dst).getD k 0 :=
    (getD_append_mid hpre (by omega)).trans (getD_headerV4 _ _ _ _ _ _ _ _ hk)
  have hrun {k m : Nat} (hk : k + m ≤ 20) (hap : k + m ≤ 10 ∨ 12 ≤ k) :
      slice g (pos + k) m = slice (bareV4 tos n ident df ttl proto src dst) k m :=
    (slice_append_mid_add hpre (by omega)).trans (slice_headerV4 _ _ _ _ _ _ _ _ hap)
  have hwhole : slice g (pos + 0) 20 = slice (headerV4 tos n ident df ttl proto src dst) 0 20 :=
    slice_append_mid_add hpre (by omega)
  obtain ⟨hn, -, hsrc, hdst⟩ := slice_bareV4 tos n ident df ttl proto src dst
  refine ⟨?_, ?_, ?_, ?_, ?_, ?_, ?_, ?_⟩
  · exact congrArg BitVec.toNat (hbyte (k := 0) (by omega))
  · rw [hrun (by omega) (by omega), hn, beNat_beBytes_two]
  · rw [hbyte (by omega)]; exact toNat_ofNat_of_lt httl
  · rw [hbyte (by omega)]; exact toNat_ofNat_of_lt hproto
  · rw [Nat.add_zero] at hwhole
    rw [hwhole, checksum_headerV4]
  · rw [hrun (by omega) (by omega), hsrc]; exact beNat_beBytes ..
  · rw [hrun (by omega) (by omega), hdst]; exact beNat_beBytes ..
  · simp only [g, List.length_append, hpre, hlen]

/-- A new IPv6 header within a frame. -/
theorem frame_headerV6 {pre rest : Bytes} {pos cls proto hop : Nat} (hpre : pre.length = pos) (hcls : cls < 256) (hproto : proto < 256)
    (hhop : hop < 256) (n src dst : Nat) : let g := pre ++ headerV6 cls n proto hop src dst ++ rest
    (g.getD pos 0).toNat / 16 = 6 ∧ beNat (slice g (pos + 4) 2) = n % 65536 ∧ (g.getD (pos + 6) 0).toNat = proto ∧
      (g.getD (pos + 7) 0).toNat = hop ∧ beNat (slice g (pos + 8) 16) = src % 2 ^ 128 ∧
      beNat (slice g (pos + 24) 16) = dst % 2 ^ 128 ∧ g.length = pos + 40 + rest.length := by
  intro g
  have hlen := length_headerV6 cls n proto hop src dst
  have hbyte {k : Nat} (hk : k < 40) : g.getD (pos + k) 0 = (headerV6 cls n proto hop src dst).getD k 0 :=
    getD_append_mid hpre (by omega)
  have hrun {k m : Nat} (hk : k + m ≤ 40) : slice g (pos + k) m = slice (headerV6 cls n proto hop src dst) k m :=
    slice_append_mid_add hpre (by omega)
  obtain ⟨hn, hsrc, hdst⟩ := slice_headerV6 cls n proto hop src dst
  refine ⟨?_, ?_, ?_, ?_, ?_, ?_, ?_⟩
  · exact (congrArg (fun b => b.toNat / 16) (hbyte (k := 0) (by omega))).trans (version_headerV6 hcls ..)
  · rw [hrun (by omega), hn, beNat_beBytes_two]
  · rw [hbyte (by omega)]; exact toNat_ofNat_of_lt hproto
  · rw [hbyte (by omega)]; exact toNat_ofNat_of_lt hhop
  · rw [hrun (by omega), hsrc]; exact beNat_beBytes ..
  · rw [hrun (by omega), hdst]; exact beNat_beBytes ..
  · simp only [g, List.length_append, hpre, hlen]

/-! ### XLATE -/

section
variable {s : State} {p : Nat} {j : EditJob} {rest : List EditJob} {w pos l4 : Nat} {nat : Bool × Nat × Nat}
  (h : EditsWord s p j rest w) (hop : eOp w = 8) (h3 : anchorAt j 3 = some pos) (h4 : anchorAt j 4 = some l4) (hn : j.nat = some nat)
  (hlim : l4 + 8 ≤ editLimit j)
include h hop

/-- A translation replaces its job and draws a free value. -/
theorem EditsWord.exec_xlate {j1 : EditJob} (hx : xlate s j (eImm w) (editFree s) = (j1, 0)) :
    exec (.xlate p) s = .next { setEdits s p (stepped j j1 :: rest) with free := s.free + 1 } := by
  have hrun := h.editOp_next hop (by simp) ((editExec_xlate hop ..).trans hx)
  rw [usesFree, hop] at hrun
  exact congrArg Host.Outcome.next hrun

include h3 h4 hn hlim

theorem EditsWord.exec_xlate_family (hf : addrFam (natAddr s nat) ≠ b2n ((eImm w).testBit 0)) (hp : p < 16)
    (hlt : ctrGet s (oa 0x3030 p 4) + 1 < 2 ^ 48) : ∃ t, exec (.xlate p) s = .next t ∧ t.path.edits = tset [] s.path.edits p rest ∧
      t.path.tx = s.path.tx ∧ ctrGet t (oa 0x3030 p 4) = ctrGet s (oa 0x3030 p 4) + 1 :=
  ⟨_, rfl, h.editOp_fault hop (by simp) (by simp) (by simp) ((editExec_xlate hop ..).trans (xlate_family h3 h4 hn hlim _ hf)) hp hlt⟩

theorem EditsWord.exec_xlate_toV4 (hi : (eImm w).testBit 0 = false) (hf : addrFam (natAddr s nat) = 0) (hv : hdrByte j pos 0 / 16 = 6)
    (hl : l4 = pos + 40) (hp : hdrByte j pos 6 ∈ [6, 17]) :
    ∃ t j', exec (.xlate p) s = .next t ∧ t = { setEdits s p (j' :: rest) with free := s.free + 1 } ∧
      let g := j'.frame
      (g.getD pos 0).toNat = 0x45 ∧ beNat (slice g (pos + 2) 2) = (lengthV6 j pos + 20) % 65536 ∧
      (g.getD (pos + 8) 0).toNat = hdrByte j pos 7 ∧ (g.getD (pos + 9) 0).toNat = hdrByte j pos 6 ∧
      onesFold (sum16 (slice g pos 20)) = 0xFFFF ∧ beNat (slice g (pos + 12) 4) = natAddr s nat % 2 ^ 32 ∧
      beNat (slice g (pos + 16) 4) = dstToV4 s j pos % 2 ^ 32 ∧
      g.length = pos + 20 + min (lengthV6 j pos) (j.frame.length - (pos + 40)) := by
  have hle : pos ≤ j.frame.length := by have := editLimit_le j; omega
  refine ⟨_, _, h.exec_xlate hop (xlate_toV4 h3 h4 hn hlim _ hi hf hv hl hp), rfl, ?_⟩
  obtain ⟨pre, hpre, hframe⟩ := xlateApply_frame hle 40 (headerToV4 s j pos (natAddr s nat) (editFree s))
    (payloadToV4 s j pos (natAddr s nat)) 0x86DD 0x0800 (hdrByte j pos 6)
  rw [← length_payloadToV4 s j pos (natAddr s nat)]
  simp only [stepped, hframe]
  exact frame_headerV4 hpre (hdrByte_lt ..) (hdrByte_lt ..) ..

theorem EditsWord.exec_xlate_toV6 (hi : (eImm w).testBit 0 = true) (hf : addrFam (natAddr s nat) = 1) (hv : hdrByte j pos 0 / 16 = 4)
    (hl : l4 = pos + hdrByte j pos 0 % 16 * 4) (hp : hdrByte j pos 9 ∈ [6, 17]) :
    ∃ t j', exec (.xlate p) s = .next t ∧ t = { setEdits s p (j' :: rest) with free := s.free + 1 } ∧
      let g := j'.frame
      (g.getD pos 0).toNat / 16 = 6 ∧ beNat (slice g (pos + 4) 2) = lengthV4 j pos ∧ (g.getD (pos + 6) 0).toNat = hdrByte j pos 9 ∧
      (g.getD (pos + 7) 0).toNat = hdrByte j pos 8 ∧ beNat (slice g (pos + 8) 16) = srcToV6 s j pos % 2 ^ 128 ∧
      beNat (slice g (pos + 24) 16) = natAddr s nat % 2 ^ 128 ∧
      g.length = pos + 40 + min (lengthV4 j pos) (j.frame.length - (pos + hdrByte j pos 0 % 16 * 4)) := by
  have hle : pos ≤ j.frame.length := by have := editLimit_le j; omega
  have hn16 : lengthV4 j pos % 65536 = lengthV4 j pos := by
    have := hdrByte_lt j pos 2
    have := hdrByte_lt j pos 3
    simp only [lengthV4]
    omega
  refine ⟨_, _, h.exec_xlate hop (xlate_toV6 h3 h4 hn hlim _ hi hf hv hl hp), rfl, ?_⟩
  obtain ⟨pre, hpre, hframe⟩ := xlateApply_frame hle (hdrByte j pos 0 % 16 * 4) (headerToV6 s j pos (natAddr s nat))
    (payloadToV6 s j pos (natAddr s nat)) 0x0800 0x86DD (hdrByte j pos 9)
  have hg := frame_headerV6 (rest := payloadToV6 s j pos (natAddr s nat)) hpre (hdrByte_lt j pos 1) (hdrByte_lt j pos 9)
    (hdrByte_lt j pos 8) (lengthV4 j pos) (srcToV6 s j pos) (natAddr s nat)
  rw [hn16, length_payloadToV6] at hg
  simp only [stepped, hframe]
  exact hg

end

/-! ### The end of a program -/

section
variable {s : State} {p : Nat} {j g : EditJob} {rest : List EditJob} (hs : fnStopped s (.pipeline p) = false)
  (hj : editJobs s p = j :: rest) (hg : editRun s 16 j = (g, 0)) (he : g.ecn = false) (hd : g.dscp = none)
include hs hj hg he hd

theorem execEditor_port (hlen : ¬ TooLong s g) (ho : g.out < 1024) :
    ∃ t x, exec (.editor p) s = .next t ∧ t.path.edits = tset [] s.path.edits p rest ∧
      tget [] t.path.tx g.out = tget [] s.path.tx g.out ++ [x] ∧ x.frame = padded g.frame ∧ x.pid = g.pid ∧ x.corr = g.corr ∧
      t.cnt = s.cnt ∧ t.path.pkts = s.path.pkts := by
  obtain ⟨used, hrun⟩ := execEditor_done hs hj hg
  obtain ⟨x, hf, hp, hc, hdone⟩ := editDone_port (p := p) (rest := rest) he hd hlen ho
  rw [hdone] at hrun
  refine ⟨_, x, hrun, ?_, ?_, hf, hp, hc, drawFree_cnt .., ?_⟩
  · rw [drawFree_path]; rfl
  · rw [drawFree_path]
    exact tget_tset_ne_default (by simp) _ _
  · rw [drawFree_path]; rfl

theorem execEditor_recirc (hlen : ¬ TooLong s g) (ho : 1024 ≤ g.out) :
    ∃ t, exec (.editor p) s = .next t ∧ t.path.edits = tset [] s.path.edits p rest ∧ recircQ t p = recircQ s p ++ [g.pid] ∧
      (pkt t g.pid).data = padded g.frame ∧ t.path.tx = s.path.tx ∧ t.cnt = s.cnt := by
  obtain ⟨used, hrun⟩ := execEditor_done hs hj hg
  rw [editDone_recirc he hd hlen ho] at hrun
  refine ⟨_, hrun, ?_, ?_, ?_, ?_, drawFree_cnt ..⟩
  · rw [drawFree_path]; rfl
  · rw [recircQ, drawFree_path]
    exact tget_tset_ne_default (by simp) _ _
  · rw [pkt, drawFree_path]
    exact congrArg Packet.data (pkt_modPkt_same g.pid (fun x => { x with data := padded g.frame }) (setEdits s p rest))
  · rw [drawFree_path]; rfl

theorem execEditor_tooLong (hlen : TooLong s g) (hp : p < 16) (hlt : ctrGet s (oa 0x3030 p 4) + 1 < 2 ^ 48) :
    ∃ t, exec (.editor p) s = .next t ∧ t.path.edits = tset [] s.path.edits p rest ∧ t.path.tx = s.path.tx ∧
      ctrGet t (oa 0x3030 p 4) = ctrGet s (oa 0x3030 p 4) + 1 := by
  obtain ⟨used, hrun⟩ := execEditor_done hs hj hg
  rw [editDone_tooLong he hd hlen] at hrun
  refine ⟨_, hrun, ?_, ?_, ?_⟩
  · rw [drawFree_path, editDrop_edits]
  · rw [drawFree_path, editDrop_tx]
  · rw [ctrGet_of_cnt (drawFree_cnt ..), ctrGet_editDrop_fault (by simp) hp hlt]

end

/-- Settles O16: each word by the lemma of its operation, a faulted word by `editOp_fault`, the end of a program by
`editDone`. -/
theorem editPrograms : Obligations.EditPrograms := by
  unfold Obligations.EditPrograms
  refine ⟨fun s p j rest base hs hj hd => ?_, fun s p j rest hs hj => ⟨fun x hx hno => ?_, fun hd hop => ?_,
      fun x hx hd hop h08 ha hp hlt => ?_⟩,
    fun s p j rest pos l4 nat hs hj hd h3 h4 hn hlim => ?_, fun s p hidle c hc => ?_,
    fun s p j rest hs hj hrun he hdscp => ⟨fun hlen ho hmtu => ?_, fun hlen ho => ?_, fun hp hlen hlt => ?_⟩⟩
  · intro w imm pos bo wd fits v rest' ha
    have h : EditsWord s p j rest w := ⟨hs, hj, hd, rfl⟩
    exact ⟨fun x hop hfit hx => h.exec_set ha hop hfit hx, fun x hop hx => h.exec_add ha hop hx,
      fun o x hop hfit ho hx => h.exec_copy ha hop hfit ho hx, fun hop hv hf => h.exec_decTtl ha hop hv hf, h.exec_push ha,
      fun hop h15 hr hlim => h.exec_pop ha hop h15 hr hlim,
      fun hop => ⟨fun hv hl hlim => h.exec_fixlen_short ha hop hv hl hlim, fun hv hl hlim => h.exec_fixlen_v4 ha hop hv hl hlim,
        fun hv hlim => h.exec_fixlen_v6 ha hop hv hlim, fun hv hu hlim => h.exec_fixlen_udp ha hop hv hu hlim⟩,
      fun o hop ho hlim => h.exec_tcCorr ha hop ho hlim⟩
  · rw [exec_editCmd hx, editOp_other hs hj hno]
  · have h : EditsWord s p j rest _ := ⟨hs, hj, hd, rfl⟩
    exact congrArg Host.Outcome.next (h.editOp_end hop)
  · have h : EditsWord s p j rest _ := ⟨hs, hj, hd, rfl⟩
    simp only [List.mem_cons, List.not_mem_nil, or_false, not_or] at h08
    exact ⟨_, exec_editCmd hx s, h.editOp_fault hop h08.1 (by simp) (by simp)
      (editExec_no_anchor _ ha (hop.trans_ne h08.1) (hop.trans_ne h08.2)) hp hlt⟩
  · intro w plen pre b hop
    have h : EditsWord s p j rest w := ⟨hs, hj, hd, rfl⟩
    exact ⟨fun hf hp hlt => h.exec_xlate_family hop h3 h4 hn hlim hf hp hlt,
      fun hi hf hv hl hp => h.exec_xlate_toV4 hop h3 h4 hn hlim hi hf hv hl hp,
      fun hi hf hv hl hp => h.exec_xlate_toV6 hop h3 h4 hn hlim hi hf hv hl hp⟩
  · have hcmd : c = .editor p ∨ ∃ x ∈ editCmds p, x.2 = c := by
      simpa [editCmds, eq_comm] using hc
    rcases hcmd with rfl | ⟨x, hx, rfl⟩
    · exact execEditor_idle hidle
    · rw [exec_editCmd hx, editOp_idle hidle]
  · exact execEditor_port hs hj (Prod.ext rfl hrun) he hdscp (not_tooLong hlen fun _ => hmtu) ho
  · exact execEditor_recirc hs hj (Prod.ext rfl hrun) he hdscp (not_tooLong hlen fun h => absurd h (by omega)) ho
  · exact execEditor_tooLong hs hj (Prod.ext rfl hrun) he hdscp hlen hp hlt

end Sys2Proof.Machine
end

section
namespace Sys2Proof.Machine

/-! PROOFS. Forwarding, learning, the resolution cache and the audit (4.2 to 4.8): what each operation leaves, and the
settled statement. -/

@[simp] theorem count_path (i n u : Nat) (s : State) : (count i n u s).path = s.path := by rw [count_eq]
@[simp] theorem count_fwd (i n u : Nat) (s : State) : (count i n u s).fwd = s.fwd := by rw [count_eq]
@[simp] theorem raise_fwd (c : Nat) (ps : List Nat) (s : State) (f : Bool) : (raise c ps s f).fwd = s.fwd := by rw [raise_eq]
@[simp] theorem raiseLimited_fwd (c i : Nat) (ps : Nat → List Nat) (s : State) : (raiseLimited c i ps s).fwd = s.fwd := by
  rw [raiseLimited_eq]

/-! ### The next hop of an index (R110 to R114) -/

/-- The entry of a next-hop index is on chip, or its line is in the group's resolution cache. -/
abbrev AtHand (s : State) (g i : Nat) : Prop := i < 2 ^ 18 ∨ hasLine s g (lineNh i) = true

theorem AtHand.not_awaited {s : State} {g i : Nat} (h : AtHand s g i) :
    ¬ (2 ^ 18 ≤ i ∧ (!hasLine s g (lineNh i)) = true) := by
  rintro ⟨hi, hm⟩
  rcases h with h | h
  · omega
  · simp [h] at hm

/-- The member that a hash chooses in the ECMP group of an entry (R114). -/
def ecmpMember (s : State) (e : BitVec 512) (sel : Nat) : Nat :=
  (tget (0 : BitVec 32) s.fwd.ecmp (256 * nhEcmp e + sel % 256)).toNat % 2 ^ 24

section
variable {s : State} {g i : Nat}

theorem resolveNh_missing (sel : Nat) (hi : 2 ^ 18 ≤ i) (hm : hasLine s g (lineNh i) = false) :
    resolveNh s g sel i = .await (lineNh i) := by
  rw [resolveNh]
  exact if_pos ⟨hi, by rw [hm]; rfl⟩

variable (h : AtHand s g i) (sel : Nat)
include h

theorem resolveNh_port (hk : nhKind (nhEntry s i) = 1) : resolveNh s g sel i = .port (nhPort (nhEntry s i)) (some i) := by
  simp only [resolveNh, if_neg h.not_awaited, hk]

theorem resolveNh_drop (hk : nhKind (nhEntry s i) = 3) : resolveNh s g sel i = .drop (some 2) := by
  simp only [resolveNh, if_neg h.not_awaited, hk]

theorem resolveNh_invalid (hk : nhKind (nhEntry s i) = 0) : resolveNh s g sel i = .drop (some 1) := by
  simp only [resolveNh, if_neg h.not_awaited, hk]

theorem resolveNh_trap (hk : nhKind (nhEntry s i) = 4) : resolveNh s g sel i = .trap (nhTrapRing (nhEntry s i)) 2 := by
  simp only [resolveNh, if_neg h.not_awaited, hk]

variable (hk : nhKind (nhEntry s i) = 2) (hm : AtHand s g (ecmpMember s (nhEntry s i) sel))
include hk hm

/-- An ECMP entry resolves to its member's port, and to a fault where that is no PORT entry (R114). -/
theorem resolveNh_ecmp : resolveNh s g sel i =
    if nhKind (nhEntry s (ecmpMember s (nhEntry s i) sel)) = 1 then
      .port (nhPort (nhEntry s (ecmpMember s (nhEntry s i) sel))) (some (ecmpMember s (nhEntry s i) sel))
    else .drop (some 3) := by
  rw [resolveNh]
  simp only [if_neg h.not_awaited, hk]
  exact if_neg hm.not_awaited

end

/-! ### The output of a packet without record (R107) -/

/-- Nothing but its stages and the tables bears on a packet's output: it has no release, fall-back, record or colour. -/
structure Unanswered (x : Packet) : Prop where
  release : x.release = none
  fall : x.fall = none
  answer : x.answer = none
  colour : x.colour = 0

section
variable {s : State} {pid : Nat} (h : Unanswered (pkt s pid))
include h

theorem chooseOutput_nextHop (hk : (merged (pkt s pid)).nhKind = 1) : chooseOutput pid s =
    (resolveNh s (groupOf (pkt s pid).pipe) (selectHash s (pkt s pid)) (merged (pkt s pid)).nhValue, s) := by
  simp only [chooseOutput, h.release, h.fall, h.answer, hk]
  rfl

variable (hk : (merged (pkt s pid)).nhKind = 0) {w : Parse} (hp : (pkt s pid).parse = some w)
include hk hp

theorem chooseOutput_routed (hr : bit w.word fRouterMac = true) : chooseOutput pid s =
    routed (groupOf (pkt s pid).pipe) (selectHash s (pkt s pid)) (pkt s pid) s := by
  simp only [chooseOutput, h.release, h.fall, h.answer, hk, hp, Option.map_some, Option.getD_some, hr]
  rfl

theorem chooseOutput_bridged (hr : bit w.word fRouterMac = false) : chooseOutput pid s =
    (bridged (groupOf (pkt s pid).pipe) (pkt s pid) s, s) := by
  simp only [chooseOutput, h.release, h.fall, h.answer, hk, hp, Option.map_some, Option.getD_some, hr]
  rfl

end

section
variable {s : State} {x : Packet} {w : Parse} (hp : x.parse = some w)
include hp

theorem routed_hit {i : Nat} (g sel : Nat) (hit : w.outer.bind (fun o => lpmLookup s x.zone o.fam o.dst) = some i) :
    routed g sel x s = (resolveNh s g sel i, s) := by
  simp only [routed, hp, Option.bind_some, hit]

theorem routed_miss (g sel : Nat) (hit : w.outer.bind (fun o => lpmLookup s x.zone o.fam o.dst) = none) :
    routed g sel x s =
      (if cfgN s 0x3800 0 0 = 1 then .trap (cfgN s 0x3801 0 0) 3 else .drop none, count 0x3817 g 0 s) := by
  simp only [routed, hp, Option.bind_some, hit]

end

/-- The bridged lookup by what the layer-2 table finds (R109). It is unfolded step by step: comparing its two forms at once,
the kernel would run the lookup's hashes. -/
theorem bridged_eq_elim {s : State} {x : Packet} {g : Nat} {r : Option Nat}
    (h : l2Find s g (bridgeVid s x) (beNat (x.data.take 6)) = r) : bridged g x s =
      r.elim (if cfgN s 0x3814 (bridgeVid s x) 0 = 0xFFFF then .drop (some 6) else .flood (cfgN s 0x3814 (bridgeVid s x) 0))
        (fun k => if l2Port (l2Entry s k) = x.port then .drop (some 5) else .port (l2Port (l2Entry s k)) none) := by
  generalize hb : bridged = f
  delta bridged at hb
  subst hb
  beta_reduce
  extract_lets -underBinder vid
  have h' : l2Find s g vid (beNat (x.data.take 6)) = r := h
  rw [h']
  cases r <;> rfl

/-! ### What becomes of a packet by its output -/

/-- The descriptor of a packet with the edit program and the class that its stages give it. -/
abbrev stageEntry (pid : Nat) (x : Packet) (nh : Option Nat) : QEntry :=
  { pid := pid, edit := (merged x).edit, cls := (merged x).cls, nh := nh, ecn := false, dscp := none, cut := false, ptp := 0 }

section
variable {s t : State} {pid : Nat} (hx : pkt t pid = pkt s pid)
include hx

theorem route_await {key : Nat} (ho : chooseOutput pid s = (.await key, t)) :
    route pid s = awaitLine (groupOf (pkt s pid).pipe) key pid t := by
  simp only [route, ho, hx]

theorem route_drop {k : Nat} (ho : chooseOutput pid s = (.drop (some k), t)) :
    route pid s = dropPkt pid (count 0x3817 (groupOf (pkt s pid).pipe) k t) := by
  simp only [route, ho, hx]

theorem route_toPort (h : Unanswered (pkt s pid)) {q : Nat} {nh : Option Nat} (ho : chooseOutput pid s = (.port q nh, t)) :
    route pid s = xbarPut (pkt s pid).pipe q (stageEntry pid (pkt s pid) nh) t := by
  have hd : colourDscp s (pkt s pid) = none := by simp only [colourDscp, colourAction, h.colour]; rfl
  simp only [route, ho, hx, hd, editOf, h.release, h.answer]

end

theorem route_silentDrop {s t : State} {pid : Nat} (ho : chooseOutput pid s = (.drop none, t)) : route pid s = dropPkt pid t := by
  simp only [route, ho]

theorem route_trap {s t : State} {pid r src : Nat} (ho : chooseOutput pid s = (.trap r src, t)) :
    route pid s = dropPkt pid (toRing r src pid 0 t) := by
  simp only [route, ho]

/-! ### A packet that waits for a line (R112, R113) -/

theorem hbmRequest_eq (cls a len : Nat) (w : Bool) (s : State) : hbmRequest cls a len w s = { s with
    hbm := (hbmRequest cls a len w s).hbm, cnt := (hbmRequest cls a len w s).cnt } := by
  simp only [hbmRequest]
  generalize hc : count 0x6011 cls 0 _ = t
  have ht : t = { s with hbm := t.hbm, cnt := t.cnt } := by rw [← hc, count_eq]; rfl
  split
  · split
    · exact ht
    · rw [ht]; rfl
  · rw [ht]; rfl

section
variable {s : State} {g key : Nat} (pid : Nat) (hw : waiting s g < 65536) (hl : (fetchesOf s g).length < 4096)
include hw hl

/-- With room to wait, a packet joins the fetch of its line, which it starts if need be; else only the memory's queue and
its counters change. -/
theorem awaitLine_waits : let t := awaitLine g key pid s
    (∃ f ∈ fetchesOf t g, f.line = key ∧ pid ∈ f.waiters) ∧ t.path = s.path ∧ t.tm = s.tm ∧ t.host = s.host := by
  have hfull : ¬ (65536 ≤ waiting s g ∨ ((!(fetchesOf s g).any fun f => f.line == key) = true ∧ 4096 ≤ (fetchesOf s g).length)) := by
    omega
  simp only [awaitLine]
  rw [if_neg hfull]
  split
  case isTrue hknown =>
    obtain ⟨f, hf, hline⟩ := List.any_eq_true.mp hknown
    have hne : (fetchesOf s g).map (fun f => if f.line = key then { f with waiters := f.waiters ++ [pid] } else f) ≠ [] :=
      fun h => List.ne_nil_of_mem hf (List.map_eq_nil_iff.mp h)
    refine ⟨⟨{ f with waiters := f.waiters ++ [pid] }, ?_, beq_iff_eq.mp hline, by simp⟩, rfl, rfl, rfl⟩
    rw [fetchesOf, setFetches, setFwd_fwd, tget_tset_ne_default hne]
    exact List.mem_map.mpr ⟨f, hf, if_pos (beq_iff_eq.mp hline)⟩
  case isFalse =>
    rw [hbmRequest_eq]
    refine ⟨⟨{ line := key, waiters := [pid] }, ?_, rfl, by simp⟩, rfl, rfl, rfl⟩
    show _ ∈ tget [] (tset [] s.fwd.fetches g (fetchesOf s g ++ [{ line := key, waiters := [pid] }])) g
    rw [tget_tset_ne_default (by simp)]
    simp

end

/-! ### A packet ready to forward leaves its retire stage (R95, R107) -/

section
variable {s : State} {p pid : Nat} {rest : List Nat} (h : ReadyToForward s p pid rest)
include h

theorem ReadyToForward.parked : s.path.parked = [] := by
  obtain ⟨-, -, -, hparked, -⟩ := h
  exact hparked

theorem ReadyToForward.sorted : tsorted s.path.pkts = true := by
  obtain ⟨-, -, -, -, -, -, -, -, -, -, -, -, -, -, -, -, hs⟩ := h
  exact hs

theorem ReadyToForward.unanswered : Unanswered (pkt (retired p pid rest s) pid) := by
  obtain ⟨-, -, -, -, -, -, -, hc, ha, hr, hf, -⟩ := h
  rw [pkt_retired]
  exact ⟨hr, hf, ha, hc⟩

/-- It goes through step 6 to its output. -/
theorem ReadyToForward.exec_eq :
    exec (.clickerRetire p) s = .next (unpark (route pid (retired p pid rest s))) := by
  obtain ⟨hq, he, hw, hparked, hb, hm, hfl, hc, ha, hr, -, ht, hv, hrec, hmir, hmet, -⟩ := h
  have hplain : PlainAtSix s pid := ⟨hparked, he, hb, (parsedBit_eq ..).symm.trans hm, ha, hmir, hc⟩
  have hrule : ruleMeter (pkt s pid) = none := by simp [ruleMeter, hmet]
  rw [execClickerRetire_goes hq he (by simp [hfl]) (by simp [hc]) hrule hw, hplain.stepSix_goes ht hv (by simp [hfl]),
    if_neg (by simp [hrec])]

theorem ReadyToForward.exec_of_route {t : State} (hr : route pid (retired p pid rest s) = t)
    (hp : t.path.parked = s.path.parked) : exec (.clickerRetire p) s = .next t := by
  rw [h.exec_eq, hr, unpark_of_parked_nil (hp.trans h.parked)]

theorem ReadyToForward.exec_dropped {k : Nat} (hr : route pid (retired p pid rest s) =
      dropPkt pid (count 0x3817 (groupOf (pkt s pid).pipe) k (retired p pid rest s))) :
    ∃ t, exec (.clickerRetire p) s = .next t ∧ (pkt t pid).place = 3 ∧
      t.cnt = (count 0x3817 (groupOf (pkt s pid).pipe) k s).cnt ∧ t.tm = s.tm ∧ t.host = s.host := by
  obtain ⟨hplace, hparked, hhost, hcnt, htm, -⟩ := dropPkt_retired (count_path ..) h.sorted
  refine ⟨_, h.exec_of_route hr hparked, hplace, ?_, ?_, ?_⟩
  · rw [hcnt]
    exact SameConfig.count (s := s) (t := retired p pid rest s) ⟨rfl, rfl, rfl⟩ rfl ..
  · rw [htm, count_eq]; rfl
  · rw [hhost, count_eq]; rfl

theorem ReadyToForward.exec_trapped {t : State} {r src : Nat}
    (hr : route pid (retired p pid rest s) = dropPkt pid (toRing r src pid 0 t)) (ht : t.path = (retired p pid rest s).path) :
    ∃ u, exec (.clickerRetire p) s = .next u ∧ (pkt u pid).place = 3 ∧ u.host = (toRing r src pid 0 t).host := by
  obtain ⟨hplace, hparked, hhost, -⟩ := dropPkt_retired ((toRing_path r src pid 0 t).trans ht) h.sorted
  exact ⟨_, h.exec_of_route hr hparked, hplace, hhost⟩

theorem ReadyToForward.exec_port {q : Nat} {nh : Option Nat}
    (ho : chooseOutput pid (retired p pid rest s) = (.port q nh, retired p pid rest s)) :
    exec (.clickerRetire p) s = .next (xbarPut (pkt s pid).pipe q (stageEntry pid (pkt s pid) nh) (retired p pid rest s)) := by
  have hr := route_toPort rfl h.unanswered ho
  rw [pkt_retired] at hr
  exact h.exec_of_route hr (parked_xbarPut ..)

theorem ReadyToForward.exec_drop {k : Nat}
    (ho : chooseOutput pid (retired p pid rest s) = (.drop (some k), retired p pid rest s)) :
    ∃ t, exec (.clickerRetire p) s = .next t ∧ (pkt t pid).place = 3 ∧
      t.cnt = (count 0x3817 (groupOf (pkt s pid).pipe) k s).cnt ∧ t.tm = s.tm ∧ t.host = s.host := by
  have hr := route_drop rfl ho
  rw [pkt_retired] at hr
  exact h.exec_dropped hr

end

/-! Its output by the kind of its next hop (R107, R111). -/

theorem l2Find_retired (s : State) (p pid : Nat) (rest : List Nat) (g vid mac : Nat) :
    l2Find (retired p pid rest s) g vid mac = l2Find s g vid mac := rfl

section
variable {s : State} {p pid : Nat} {rest : List Nat} (h : ReadyToForward s p pid rest)
include h

section
variable (hk : (merged (pkt s pid)).nhKind = 1)
include hk

theorem ReadyToForward.output_nextHop : chooseOutput pid (retired p pid rest s) =
    (resolveNh s (groupOf (pkt s pid).pipe) (selectHash s (pkt s pid)) (merged (pkt s pid)).nhValue, retired p pid rest s) := by
  have ho := chooseOutput_nextHop h.unanswered (by rw [pkt_retired]; exact hk)
  rw [pkt_retired] at ho
  exact ho

/-- A packet whose line is not at hand waits for it, where there is room to wait (R112). -/
theorem ReadyToForward.exec_waits {i : Nat} (hv : (merged (pkt s pid)).nhValue = i) (hi : 2 ^ 18 ≤ i)
    (hm : hasLine s (groupOf (pkt s pid).pipe) (lineNh i) = false) (hw : waiting s (groupOf (pkt s pid).pipe) < 65536)
    (hl : (fetchesOf s (groupOf (pkt s pid).pipe)).length < 4096) :
    ∃ t, exec (.clickerRetire p) s = .next t ∧ (pkt t pid).place = (pkt s pid).place ∧
      (∃ f ∈ fetchesOf t (groupOf (pkt s pid).pipe), f.line = lineNh i ∧ pid ∈ f.waiters) ∧ t.tm = s.tm ∧ t.host = s.host := by
  have ho := h.output_nextHop hk
  rw [hv, resolveNh_missing _ hi hm] at ho
  have hr := route_await rfl ho
  rw [pkt_retired] at hr
  obtain ⟨hf, hpath, htm, hhost⟩ := awaitLine_waits (s := retired p pid rest s) (key := lineNh i) pid hw hl
  refine ⟨_, h.exec_of_route hr (congrArg Path.parked hpath :), ?_, hf, htm, hhost⟩
  have hpkt := (pkt_of_pkts (congrArg Path.pkts hpath) pid).trans pkt_retired
  exact (congrArg Packet.place hpkt :)

end

section
variable (hk : (merged (pkt s pid)).nhKind = 0) {w : Parse} (hp : (pkt s pid).parse = some w)
include hk hp

theorem ReadyToForward.output_routed (hr : bit w.word fRouterMac = true) : chooseOutput pid (retired p pid rest s) =
    routed (groupOf (pkt s pid).pipe) (selectHash s (pkt s pid)) (withMeta (pkt s pid)) (retired p pid rest s) := by
  have ho := chooseOutput_routed h.unanswered (by rw [pkt_retired]; exact hk) (by rw [pkt_retired]; exact hp) hr
  rw [pkt_retired] at ho
  exact ho

/-- A packet that is not routed takes its output from the layer-2 table (R109). -/
theorem ReadyToForward.output_bridged (hr : bit w.word fRouterMac = false) {r : Option Nat}
    (hit : l2Find s (groupOf (pkt s pid).pipe) (bridgeVid s (pkt s pid)) (beNat ((pkt s pid).data.take 6)) = r) :
    chooseOutput pid (retired p pid rest s) =
      (r.elim (if cfgN s 0x3814 (bridgeVid s (pkt s pid)) 0 = 0xFFFF then .drop (some 6)
          else .flood (cfgN s 0x3814 (bridgeVid s (pkt s pid)) 0))
        (fun k => if l2Port (l2Entry s k) = (pkt s pid).port then .drop (some 5) else .port (l2Port (l2Entry s k)) none),
      retired p pid rest s) := by
  have ho := chooseOutput_bridged h.unanswered (by rw [pkt_retired]; exact hk) (by rw [pkt_retired]; exact hp) hr
  rw [pkt_retired] at ho
  exact ho.trans (congrArg (·, retired p pid rest s) (bridged_eq_elim ((l2Find_retired ..).trans hit)))

/-- A packet without a matching route takes the route-miss action, counted (R108). -/
theorem ReadyToForward.output_miss (hr : bit w.word fRouterMac = true)
    (hit : w.outer.bind (fun o => lpmLookup s (pkt s pid).zone o.fam o.dst) = none) : chooseOutput pid (retired p pid rest s) =
    (if cfgN s 0x3800 0 0 = 1 then .trap (cfgN s 0x3801 0 0) 3 else .drop none,
      count 0x3817 (groupOf (pkt s pid).pipe) 0 (retired p pid rest s)) :=
  (h.output_routed hk hp hr).trans
    (routed_miss (s := retired p pid rest s) (x := withMeta (pkt s pid)) hp _ _ hit)

/-- A packet with a matching route resolves that route's next hop (R108). -/
theorem ReadyToForward.output_hit (hr : bit w.word fRouterMac = true) {i : Nat}
    (hit : w.outer.bind (fun o => lpmLookup s (pkt s pid).zone o.fam o.dst) = some i) : chooseOutput pid (retired p pid rest s) =
    (resolveNh s (groupOf (pkt s pid).pipe) (selectHash s (pkt s pid)) i, retired p pid rest s) :=
  (h.output_routed hk hp hr).trans
    (routed_hit (s := retired p pid rest s) (x := withMeta (pkt s pid)) hp _ _ hit)

end

end

end Sys2Proof.Machine
end

section
namespace Sys2Proof.Machine

/-! ### The longest match (R108) -/

/-- One step of the search for the longest match: the longer of the best entry so far and the next one, the earlier where they tie. -/
def lpLonger (b : Option (BitVec 256)) (r : Nat × BitVec 256) : Option (BitVec 256) :=
  match b with
  | none => some r.2
  | some x => if lpLen x < lpLen r.2 then some r.2 else some x

theorem lpmLookup_eq (s : State) (zone fam dst : Nat) : lpmLookup s zone fam dst =
    ((s.fwd.lpm.filter fun r => lpMatch r.2 zone fam dst).foldl lpLonger none).map lpNh := rfl

theorem foldl_lpLonger_some (l : List (Nat × BitVec 256)) (x : BitVec 256) :
    ∃ y, l.foldl lpLonger (some x) = some y ∧ (y = x ∨ ∃ r ∈ l, r.2 = y) ∧ lpLen x ≤ lpLen y ∧ ∀ r ∈ l, lpLen r.2 ≤ lpLen y := by
  induction l generalizing x with
  | nil => exact ⟨x, rfl, .inl rfl, le_rfl, by simp⟩
  | cons r l ih =>
    by_cases hlt : lpLen x < lpLen r.2
    · obtain ⟨y, hy, hfrom, hle, hall⟩ := ih r.2
      refine ⟨y, by rw [List.foldl_cons, lpLonger, if_pos hlt, hy], .inr ?_, by omega, ?_⟩
      · rcases hfrom with rfl | ⟨q, hq, rfl⟩
        · exact ⟨r, by simp, rfl⟩
        · exact ⟨q, by simp [hq], rfl⟩
      · simpa using ⟨hle, fun a b hab => hall (a, b) hab⟩
    · obtain ⟨y, hy, hfrom, hle, hall⟩ := ih x
      refine ⟨y, by rw [List.foldl_cons, lpLonger, if_neg hlt, hy], ?_, hle, ?_⟩
      · exact hfrom.imp_right fun ⟨q, hq, hqy⟩ => ⟨q, by simp [hq], hqy⟩
      · have hr : lpLen r.2 ≤ lpLen y := by omega
        simpa using ⟨hr, fun a b hab => hall (a, b) hab⟩

/-- The search finds nothing among no entries, and otherwise one that no other is longer than. -/
theorem foldl_lpLonger_none (l : List (Nat × BitVec 256)) :
    l = [] ∨ ∃ r ∈ l, l.foldl lpLonger none = some r.2 ∧ ∀ q ∈ l, lpLen q.2 ≤ lpLen r.2 := by
  cases l with
  | nil => exact .inl rfl
  | cons r l =>
    obtain ⟨y, hy, hfrom, hle, hall⟩ := foldl_lpLonger_some l r.2
    have hmax : ∀ q ∈ r :: l, lpLen q.2 ≤ lpLen y := fun q hq => (List.mem_cons.mp hq).elim (fun h => h ▸ hle) (hall q)
    right
    rcases hfrom with rfl | ⟨q, hq, rfl⟩
    · exact ⟨r, List.mem_cons_self, hy, hmax⟩
    · exact ⟨q, List.mem_cons_of_mem _ hq, hy, hmax⟩

theorem lpmLookup_some {s : State} {zone fam dst i : Nat} (h : lpmLookup s zone fam dst = some i) :
    ∃ r ∈ s.fwd.lpm, lpMatch r.2 zone fam dst = true ∧ lpNh r.2 = i ∧
      ∀ q ∈ s.fwd.lpm, lpMatch q.2 zone fam dst = true → lpLen q.2 ≤ lpLen r.2 := by
  rw [lpmLookup_eq] at h
  rcases foldl_lpLonger_none (s.fwd.lpm.filter fun r => lpMatch r.2 zone fam dst) with hnil | ⟨r, hr, hfold, hmax⟩
  · simp [hnil] at h
  · obtain ⟨hmem, hmatch⟩ := List.mem_filter.mp hr
    rw [hfold, Option.map_some, Option.some.injEq] at h
    exact ⟨r, hmem, hmatch, h, fun q hq hqm => hmax q (List.mem_filter.mpr ⟨hq, hqm⟩)⟩

theorem lpmLookup_none {s : State} {zone fam dst : Nat} (h : lpmLookup s zone fam dst = none) :
    ∀ r ∈ s.fwd.lpm, lpMatch r.2 zone fam dst = false := by
  rw [lpmLookup_eq] at h
  rcases foldl_lpLonger_none (s.fwd.lpm.filter fun r => lpMatch r.2 zone fam dst) with hnil | ⟨r, hr, hfold, -⟩
  · simpa using List.filter_eq_nil_iff.mp hnil
  · simp [hfold] at h

/-! ### The arrival of a line (R112, R113) -/

/-- A fetch of group g has ended. -/
def fetchEnded (g key : Nat) (s : State) : State := setFetches s g ((fetchesOf s g).filter fun x => x.line != key)

theorem execNhLineArrival_idle {s : State} {g key : Nat} (h : ((fetchesOf s g).find? fun f => f.line == key) = none) :
    exec (.nhLineArrival g key) s = .next s := by
  show execNhLineArrival g key s = _
  simp only [execNhLineArrival, h]

theorem execNhLineArrival_unwaited {s : State} {g key : Nat} {f : NhFetch}
    (h : ((fetchesOf s g).find? fun f => f.line == key) = some f) (hw : f.waiters = []) :
    exec (.nhLineArrival g key) s = .next (installLine g key (fetchEnded g key s)) := by
  show execNhLineArrival g key s = _
  simp only [execNhLineArrival, h, hw]
  rfl

/-- Installing a line changes its group's lines, and draws the line that gives way. -/
theorem installLine_eq (g key : Nat) (s : State) : ∃ l, key ∈ l ∧
    ((cacheLines s g).length < 32768 → ∀ k ∈ cacheLines s g, k ∈ l) ∧
    (installLine g key s = s ∧ cacheLines s g = l ∨
      ∃ n, installLine g key s = { s with free := n, fwd := { s.fwd with lines := tset [] s.fwd.lines g l } }) := by
  simp only [installLine]
  split
  case isTrue hin => exact ⟨cacheLines s g, List.contains_iff_mem.mp hin, fun _ _ h => h, .inl ⟨rfl, rfl⟩⟩
  case isFalse =>
    split
    · exact ⟨cacheLines s g ++ [key], by simp, fun _ k hk => by simp [hk], .inr ⟨_, rfl⟩⟩
    case isFalse hfull => exact ⟨_, by simp, fun h => absurd h hfull, .inr ⟨_, rfl⟩⟩

theorem installLine_spec (g key : Nat) (s : State) : let t := installLine g key s
    hasLine t g key = true ∧ t.fwd.fetches = s.fwd.fetches ∧ (∀ j, j ≠ g → cacheLines t j = cacheLines s j) ∧
      (∀ k, (cacheLines s g).length < 32768 → hasLine s g k = true → hasLine t g k = true) ∧
      t.path = s.path ∧ t.tm = s.tm ∧ t.host = s.host ∧ t.cnt = s.cnt := by
  obtain ⟨l, hkey, hkeep, ⟨ht, hl⟩ | ⟨n, ht⟩⟩ := installLine_eq g key s
  · rw [ht]
    exact ⟨List.contains_iff_mem.mpr (hl ▸ hkey), rfl, fun _ _ => rfl, fun _ _ h => h, rfl, rfl, rfl, rfl⟩
  · have hlines : cacheLines (installLine g key s) g = l := by
      rw [ht]
      exact tget_tset_ne_default (List.ne_nil_of_mem hkey) _ _
    refine ⟨?_, by rw [ht], fun j hj => ?_, fun k hlen hk => ?_, by rw [ht], by rw [ht], by rw [ht], by rw [ht]⟩
    · rw [hasLine, hlines]
      exact List.contains_iff_mem.mpr hkey
    · rw [ht]
      exact tget_tset_other _ _ hj
    · rw [hasLine, hlines]
      exact List.contains_iff_mem.mpr (hkeep hlen k (List.contains_iff_mem.mp hk))

end Sys2Proof.Machine
end

section
namespace Sys2Proof.Machine

/-! ### Learned and moved entries (Table 4-7, Table 4-8) -/

/-- The entry of a source that is learned: dynamic, without a hit, learned now. -/
def l2Learned (x : Learn) (us : Nat) : BitVec 128 :=
  BitVec.ofNat 128 (2 ^ 127 + x.vid * 2 ^ 112 + x.mac * 2 ^ 64 + x.port * 2 ^ 54 + us)

theorem devUs_lt (s : State) : devUs s < 2 ^ 32 := Nat.mod_lt _ (by norm_num)

section
variable {x : Learn} {us : Nat} (hv : x.vid < 4096) (hm : x.mac < 2 ^ 48) (hp : x.port < 1024) (hu : us < 2 ^ 32)
include hv hm hp hu

theorem l2Learned_fields : let e := l2Learned x us
    l2Valid e = true ∧ l2Static e = false ∧ l2Vid e = x.vid ∧ l2Mac e = x.mac ∧ l2Port e = x.port ∧ l2At e = us := by
  simp only [l2Learned, l2Valid, l2Static, l2Vid, l2Mac, l2Port, l2At, bit_ofNat _ (show 127 < 128 by decide),
    bit_ofNat _ (show 126 < 128 by decide), bf_ofNat _ _ (show 123 < 128 by decide), bf_ofNat _ _ (show 111 < 128 by decide),
    bf_ofNat _ _ (show 63 < 128 by decide), bf_ofNat _ _ (show 31 < 128 by decide), Nat.testBit_eq_decide_div_mod_eq,
    decide_eq_true_eq, decide_eq_false_iff_not, fld, Nat.shiftRight_eq_div_pow]
  refine ⟨?_, ?_, ?_, ?_, ?_, ?_⟩ <;> omega

end

/-- An entry that has moved to a port: hit, learned now. -/
def l2Moved (e : BitVec 128) (port us : Nat) : BitVec 128 := putBf (putBf (putBf e 63 54 port) 31 0 us) 124 124 1

theorem l2Hit_l2Moved (e : BitVec 128) (port us : Nat) : l2Hit (l2Moved e port us) = true := by
  simp [l2Hit, l2Moved, bit_putBf]

theorem l2Moved_fields (e : BitVec 128) {port us : Nat} (hp : port < 1024) (hu : us < 2 ^ 32) : let e' := l2Moved e port us
    l2Valid e' = l2Valid e ∧ l2Vid e' = l2Vid e ∧ l2Mac e' = l2Mac e ∧ l2Port e' = port ∧ l2At e' = us ∧ l2Hit e' = true := by
  refine ⟨?_, ?_, ?_, ?_, ?_, l2Hit_l2Moved e port us⟩
  · simp [l2Valid, l2Moved, bit_putBf]
  · simp [l2Vid, l2Moved, bf_putBf_apart]
  · simp [l2Mac, l2Moved, bf_putBf_apart]
  · simp [l2Port, l2Moved, bf_putBf_apart, bf_putBf_same, Nat.mod_eq_of_lt hp]
  · simpa [l2At, l2Moved, bf_putBf_apart, bf_putBf_same] using hu

theorem ne_zero_of_l2Hit {e : BitVec 128} (h : l2Hit e = true) : e ≠ 0 := by
  rintro rfl
  simp [l2Hit, bit] at h

/-! ### L2_LEARN (Table 4-8)

The searches of the layer-2 table are hidden before their results are put in: comparing two forms of a search, the kernel
would run its hashes. -/

/-- The state without the oldest learn of group g. -/
def learnTaken (g : Nat) (rest : List Learn) (s : State) : State :=
  setFwd s { s.fwd with learnQ := tset [] s.fwd.learnQ g rest }

/-- A violation of a static entry, counted and reported. -/
def learnViolation (g : Nat) (x : Learn) (e : BitVec 128) (dropped : Bool) (s : State) : State :=
  raiseLimited 0x0403 g (fun _ => [g, x.vid] ++ words32 2 x.mac ++ [l2Port e, x.port, b2n dropped]) (count 0x3816 g 4 s)

section
variable {s : State} {g : Nat} {x : Learn} {rest : List Learn} (hq : tget [] s.fwd.learnQ g = x :: rest)
include hq

/-- A learn of a key that has no entry takes the room that there is for it, or is counted as refused (Table 4-8). -/
theorem execL2Learn_unknown (hf : l2Find s g x.vid x.mac = none) {r : Option Nat} (hr : l2Room s g x.vid x.mac = r) :
    exec (.l2Learn g) s = .next (r.elim
      (raiseLimited 0x0401 g (fun _ => [g, x.vid] ++ words32 2 x.mac ++ [(l2Group s g).length])
        (count 0x3816 g 5 (learnTaken g rest s)))
      (fun k => count 0x3816 g 1 (setL2 (learnTaken g rest s) k (l2Learned x (devUs s))))) := by
  have hf' : l2Find (learnTaken g rest s) g x.vid x.mac = none := hf
  have hr' : l2Room (learnTaken g rest s) g x.vid x.mac = r := hr
  obtain ⟨find, hfind⟩ : ∃ f, f = l2Find := ⟨_, rfl⟩
  obtain ⟨room, hroom⟩ : ∃ f, f = l2Room := ⟨_, rfl⟩
  rw [learnTaken, ← hfind] at hf'
  rw [learnTaken, ← hroom] at hr'
  show execL2Learn g s = _
  rw [execL2Learn, ← hfind, ← hroom]
  simp only [hq, hf', hr']
  cases r <;> rfl

variable {k : Nat} (hf : l2Find s g x.vid x.mac = some k)
include hf

/-- A learn of a key that has an entry, by that entry (Table 4-8). -/
theorem execL2Learn_found : exec (.l2Learn g) s =
    (let s1 := learnTaken g rest s
     let e := l2Entry s k
     let dropped := l2SvDrop e && !decide ((pkt s x.pid).place = 3)
     if l2Port e = x.port then .next (setL2 s1 k (putBf e 124 124 1))
     else if l2Static e = true then
       .next (if dropped = true then modPkt x.pid (fun p => { p with barred := true }) (learnViolation g x e dropped s1)
         else learnViolation g x e dropped s1)
     else if (devUs s + 2 ^ 32 - l2At e) % 2 ^ 32 * 1000 < cfgN s 0x3811 0 0 then
       .next (raiseLimited 0x0402 g (fun _ => [g, x.vid] ++ words32 2 x.mac ++ [l2Port e, x.port]) (count 0x3816 g 3 s1))
     else .next (count 0x3816 g 2 (setL2 s1 k (l2Moved e x.port (devUs s))))) := by
  have hf' : l2Find (learnTaken g rest s) g x.vid x.mac = some k := hf
  show execL2Learn g s = _
  obtain ⟨find, hfind⟩ : ∃ f, f = l2Find := ⟨_, rfl⟩
  rw [learnTaken, ← hfind] at hf'
  rw [execL2Learn, ← hfind]
  simp only [hq, hf']
  rfl

end

theorem learnViolation_fwd (g : Nat) (x : Learn) (e : BitVec 128) (d : Bool) (s : State) : (learnViolation g x e d s).fwd = s.fwd := by
  rw [learnViolation, raiseLimited_fwd, count_fwd]

theorem setL2_cnt (s : State) (k : Nat) (e : BitVec 128) : (setL2 s k e).cnt = s.cnt := rfl
theorem setL2_path (s : State) (k : Nat) (e : BitVec 128) : (setL2 s k e).path = s.path := rfl
theorem setL2_learnQ (s : State) (k : Nat) (e : BitVec 128) : (setL2 s k e).fwd.learnQ = s.fwd.learnQ := rfl

section
variable (g : Nat) (rest : List Learn) (s : State)

theorem learnTaken_learnQ : (learnTaken g rest s).fwd.learnQ = tset [] s.fwd.learnQ g rest := rfl
theorem learnTaken_l2 : (learnTaken g rest s).fwd.l2 = s.fwd.l2 := rfl
theorem learnTaken_cnt : (learnTaken g rest s).cnt = s.cnt := rfl
theorem learnTaken_path : (learnTaken g rest s).path = s.path := rfl
theorem l2Entry_learnTaken (k : Nat) : l2Entry (learnTaken g rest s) k = l2Entry s k := rfl

end

/-- A state with the counters of s counts one on. -/
theorem ctrGet_count_of_cnt {s t : State} (h : t.cnt = s.cnt) {i n u : Nat} (hlt : ctrGet s (oa i n u) + 1 < 2 ^ 48) :
    ctrGet (count i n u t) (oa i n u) = ctrGet s (oa i n u) + 1 := by
  have hg := ctrGet_of_cnt h (oa i n u)
  rw [ctrGet_count_same (by rw [hg]; exact hlt), hg]

/-- A learn that is reported too is counted all the same. -/
theorem ctrGet_raiseLimited_count {s t : State} (h : t.cnt = s.cnt) {g k : Nat} (hg : g < 4) (hk : k < 8)
    (hlt : ctrGet s (oa 0x3816 g k) + 1 < 2 ^ 48) (code : Nat) (ps : Nat → List Nat) :
    ctrGet (raiseLimited code g ps (count 0x3816 g k t)) (oa 0x3816 g k) = ctrGet s (oa 0x3816 g k) + 1 :=
  (ctrGet_raiseLimited (by simp only [oa]; omega) ..).trans (ctrGet_count_of_cnt h hlt)

/-- A learn of group g has been executed and counted in counter k. -/
def LearnCounted (g k : Nat) (rest : List Learn) (s t : State) : Prop :=
  exec (.l2Learn g) s = .next t ∧ t.fwd.learnQ = tset [] s.fwd.learnQ g rest ∧
    (ctrGet s (oa 0x3816 g k) + 1 < 2 ^ 48 → ctrGet t (oa 0x3816 g k) = ctrGet s (oa 0x3816 g k) + 1)

section
variable {s : State} {g : Nat} {x : Learn} {rest : List Learn} (hq : tget [] s.fwd.learnQ g = x :: rest)
include hq

theorem l2Learn_inserts {k : Nat} (hf : l2Find s g x.vid x.mac = none) (hr : l2Room s g x.vid x.mac = some k) (hv : x.vid < 4096)
    (hm : x.mac < 2 ^ 48) (hp : x.port < 1024) : ∃ t, LearnCounted g 1 rest s t ∧ l2Entry t k = l2Learned x (devUs s) ∧
      ∀ j, j ≠ k → l2Entry t j = l2Entry s j := by
  have hx := execL2Learn_unknown hq hf hr
  rw [Option.elim_some] at hx
  refine ⟨_, ⟨hx, ?_, ctrGet_count_of_cnt (by rw [setL2_cnt, learnTaken_cnt])⟩, ?_, fun j hj => ?_⟩
  · rw [count_fwd, setL2_learnQ, learnTaken_learnQ]
  · rw [l2Entry_count]
    exact l2Entry_setL2_same _ _ (l2Learned_fields hv hm hp (devUs_lt s)).1
  · rw [l2Entry_count, l2Entry_setL2_other _ _ hj, l2Entry_learnTaken]

theorem l2Learn_full (hg : g < 4) (hf : l2Find s g x.vid x.mac = none) (hr : l2Room s g x.vid x.mac = none) :
    ∃ t, LearnCounted g 5 rest s t ∧ t.fwd.l2 = s.fwd.l2 := by
  have hx := execL2Learn_unknown hq hf hr
  rw [Option.elim_none] at hx
  refine ⟨_, ⟨hx, ?_, fun hlt => ctrGet_raiseLimited_count (learnTaken_cnt ..) hg (by omega) hlt ..⟩, ?_⟩
  · rw [raiseLimited_fwd, count_fwd, learnTaken_learnQ]
  · rw [raiseLimited_fwd, count_fwd, learnTaken_l2]

variable {k : Nat} (hf : l2Find s g x.vid x.mac = some k)
include hf

theorem l2Learn_hits (hp : l2Port (l2Entry s k) = x.port) : ∃ t, exec (.l2Learn g) s = .next t ∧
    t.fwd.l2 = tset 0 s.fwd.l2 k (putBf (l2Entry s k) 124 124 1) ∧ t.cnt = s.cnt ∧ t.path = s.path := by
  refine ⟨_, (execL2Learn_found hq hf).trans (if_pos hp), ?_, ?_, ?_⟩
  · rw [setL2_l2, learnTaken_l2]
  · rw [setL2_cnt, learnTaken_cnt]
  · rw [setL2_path, learnTaken_path]

variable (hp : l2Port (l2Entry s k) ≠ x.port)
include hp

/-- A static entry on another port is violated; its sv_drop bars the packet, where that is still in the device. -/
theorem l2Learn_violates (hg : g < 4) (hst : l2Static (l2Entry s k) = true) :
    ∃ t, LearnCounted g 4 rest s t ∧ t.fwd.l2 = s.fwd.l2 ∧
    (l2SvDrop (l2Entry s k) = true → (pkt s x.pid).place ≠ 3 → (pkt t x.pid).barred = true) := by
  have hx := ((execL2Learn_found hq hf).trans (if_neg hp)).trans (if_pos hst)
  generalize hd : (l2SvDrop (l2Entry s k) && !decide ((pkt s x.pid).place = 3)) = dropped at hx
  have hqueue : ∀ d, (learnViolation g x (l2Entry s k) d (learnTaken g rest s)).fwd.learnQ = tset [] s.fwd.learnQ g rest :=
    fun d => by rw [learnViolation_fwd, learnTaken_learnQ]
  have hl2 : ∀ d, (learnViolation g x (l2Entry s k) d (learnTaken g rest s)).fwd.l2 = s.fwd.l2 :=
    fun d => by rw [learnViolation_fwd, learnTaken_l2]
  have hcnt : ∀ d, ctrGet s (oa 0x3816 g 4) + 1 < 2 ^ 48 →
      ctrGet (learnViolation g x (l2Entry s k) d (learnTaken g rest s)) (oa 0x3816 g 4) = ctrGet s (oa 0x3816 g 4) + 1 :=
    fun d hlt => ctrGet_raiseLimited_count (learnTaken_cnt ..) hg (by omega) hlt ..
  cases dropped with
  | true => exact ⟨_, ⟨hx.trans (congrArg _ (if_pos rfl)), hqueue true, hcnt true⟩, hl2 true, fun _ _ => by rw [pkt_modPkt_same]⟩
  | false =>
    refine ⟨_, ⟨hx.trans (congrArg _ (if_neg Bool.false_ne_true)), hqueue false, hcnt false⟩, hl2 false, fun hsv hpl => ?_⟩
    simp [hsv, hpl] at hd

variable (hst : l2Static (l2Entry s k) = false)
include hst

theorem l2Learn_contests (hg : g < 4)
    (hage : (devUs s + 2 ^ 32 - l2At (l2Entry s k)) % 2 ^ 32 * 1000 < cfgN s 0x3811 0 0) :
    ∃ t, LearnCounted g 3 rest s t ∧ t.fwd.l2 = s.fwd.l2 := by
  have hx := (((execL2Learn_found hq hf).trans (if_neg hp)).trans (if_neg (by simp [hst]))).trans (if_pos hage)
  refine ⟨_, ⟨hx, ?_, fun hlt => ctrGet_raiseLimited_count (learnTaken_cnt ..) hg (by omega) hlt ..⟩, ?_⟩
  · rw [raiseLimited_fwd, count_fwd, learnTaken_learnQ]
  · rw [raiseLimited_fwd, count_fwd, learnTaken_l2]

theorem l2Learn_moves (hage : cfgN s 0x3811 0 0 ≤ (devUs s + 2 ^ 32 - l2At (l2Entry s k)) % 2 ^ 32 * 1000) :
    ∃ t, LearnCounted g 2 rest s t ∧ l2Entry t k = l2Moved (l2Entry s k) x.port (devUs s) ∧
      ∀ j, j ≠ k → l2Entry t j = l2Entry s j := by
  have hx := (((execL2Learn_found hq hf).trans (if_neg hp)).trans (if_neg (by simp [hst]))).trans (if_neg (by omega))
  refine ⟨_, ⟨hx, ?_, ctrGet_count_of_cnt (by rw [setL2_cnt, learnTaken_cnt])⟩, ?_, fun j hj => ?_⟩
  · rw [count_fwd, setL2_learnQ, learnTaken_learnQ]
  · rw [l2Entry_count]
    exact tget_tset_ne_default (ne_zero_of_l2Hit (l2Hit_l2Moved ..)) _ _
  · rw [l2Entry_count, l2Entry_setL2_other _ _ hj, l2Entry_learnTaken]

end

/-! ### L2_AGE_SCAN (R119) -/

/-- An entry after a scan: a static one as it was, one with a hit without it, another one gone. -/
def l2Scanned (e : BitVec 128) : BitVec 128 := if l2Static e then e else if l2Hit e then putBf e 124 124 0 else 0

/-- The visit of one listed entry. -/
def scanVisit (g : Nat) (t : State) (r : Nat × BitVec 128) : State :=
  if l2Static r.2 then t
  else if l2Hit r.2 then setL2 t r.1 (putBf r.2 124 124 0)
  else count 0x3816 g 6 (setL2 t r.1 0)

/-- The time of a scan of group g is noted. -/
def scanNoted (g : Nat) (s : State) : State := setFwd s { s.fwd with scanned := tset 0 s.fwd.scanned g (raw s) }

/-- A scan of group g that is due. -/
def scanRun (g : Nat) (s : State) : State := (l2Group s g).foldl (scanVisit g) (scanNoted g s)

theorem execL2AgeScan_eq (g : Nat) (s : State) :
    exec (.l2AgeScan g) s = if scanDue g s then .next (scanRun g s) else .next s := by
  show execL2AgeScan g s = _
  rw [execL2AgeScan]
  cases scanDue g s <;> rfl

/-- A visit changes layer-2 entries and counter values only. -/
theorem scanVisit_eq (g : Nat) (t : State) (r : Nat × BitVec 128) : scanVisit g t r = { t with
    fwd := { t.fwd with l2 := (scanVisit g t r).fwd.l2 }, cnt := { t.cnt with ctr := (scanVisit g t r).cnt.ctr } } := by
  simp only [scanVisit]
  split
  · rfl
  · split
    · rfl
    · rw [count_eq]; rfl

theorem foldl_scanVisit_eq (g : Nat) (l : List (Nat × BitVec 128)) (t : State) : l.foldl (scanVisit g) t = { t with
    fwd := { t.fwd with l2 := (l.foldl (scanVisit g) t).fwd.l2 }
    cnt := { t.cnt with ctr := (l.foldl (scanVisit g) t).cnt.ctr } } := by
  induction l generalizing t with
  | nil => rfl
  | cons r l ih =>
    rw [List.foldl_cons, ih, scanVisit_eq]

theorem scanRun_eq (g : Nat) (s : State) : scanRun g s = { s with
    fwd := { s.fwd with l2 := (scanRun g s).fwd.l2, scanned := tset 0 s.fwd.scanned g (raw s) }
    cnt := { s.cnt with ctr := (scanRun g s).cnt.ctr } } :=
  foldl_scanVisit_eq g (l2Group s g) (scanNoted g s)

/-- A visit scans the entry that it finds. -/
theorem l2Entry_scanVisit (g : Nat) {t : State} (hc : tcanon 0 t.fwd.l2 = true) {r : Nat × BitVec 128} (hr : l2Entry t r.1 = r.2) :
    tcanon 0 (scanVisit g t r).fwd.l2 = true ∧
      ∀ k, l2Entry (scanVisit g t r) k = if k = r.1 then l2Scanned (l2Entry t k) else l2Entry t k := by
  have hset : ∀ e k, l2Entry (setL2 t r.1 e) k = if k = r.1 then e else l2Entry t k := fun e k => by
    split
    · subst_vars; exact tget_tset_same hc _ _
    · exact l2Entry_setL2_other _ _ ‹_›
  simp only [scanVisit]
  split
  case isTrue hst =>
    refine ⟨hc, fun k => ?_⟩
    by_cases hk : k = r.1
    · simp [hk, hr, l2Scanned, hst]
    · simp [hk]
  case isFalse hst =>
    split
    case isTrue hh =>
      refine ⟨tcanon_tset hc _ _, fun k => (hset _ k).trans ?_⟩
      by_cases hk : k = r.1
      · simp [hk, hr, l2Scanned, hst, hh]
      · simp [hk]
    case isFalse hh =>
      refine ⟨by rw [count_fwd, setL2_l2]; exact tcanon_tset hc _ _, fun k => (l2Entry_count ..).trans ((hset _ k).trans ?_)⟩
      by_cases hk : k = r.1
      · simp [hk, hr, l2Scanned, hst, hh]
      · simp [hk]

/-- Visiting listed entries, each once, scans them and leaves the others. -/
theorem l2Entry_foldl_scanVisit (g : Nat) {l : List (Nat × BitVec 128)} (hnd : (l.map Prod.fst).Nodup) {t : State}
    (hc : tcanon 0 t.fwd.l2 = true) (hl : ∀ r ∈ l, l2Entry t r.1 = r.2) (k : Nat) :
    l2Entry (l.foldl (scanVisit g) t) k = if k ∈ l.map Prod.fst then l2Scanned (l2Entry t k) else l2Entry t k := by
  induction l generalizing t with
  | nil => simp
  | cons r l ih =>
    rw [List.map_cons, List.nodup_cons] at hnd
    obtain ⟨hnew, hnd⟩ := hnd
    obtain ⟨hc', hentry⟩ := l2Entry_scanVisit g hc (hl r List.mem_cons_self)
    have hl' : ∀ q ∈ l, l2Entry (scanVisit g t r) q.1 = q.2 := fun q hq => by
      have hne : q.1 ≠ r.1 := fun h => hnew (h ▸ List.mem_map_of_mem hq)
      rw [hentry, if_neg hne]
      exact hl q (List.mem_cons_of_mem _ hq)
    rw [List.foldl_cons, ih hnd hc' hl', hentry]
    by_cases hk : k = r.1
    · simp [hk, hnew]
    · simp [hk]

/-- The keys of a rising table differ. -/
theorem nodup_keys {α : Type} {b : Nat} {t : Tbl α} (h : tsortedFrom b t = true) : (t.map Prod.fst).Nodup := by
  induction t generalizing b with
  | nil => simp
  | cons r t ih =>
    obtain ⟨k, v⟩ := r
    simp only [tsortedFrom, Bool.and_eq_true, decide_eq_true_eq] at h
    rw [List.map_cons, List.nodup_cons]
    refine ⟨fun hk => ?_, ih h.2⟩
    obtain ⟨q, hq, hqk⟩ := List.mem_map.mp hk
    have hle := le_of_mem_tsortedFrom h.2 hq
    simp only at hqk
    omega

/-- A scan that runs scans the entries of its group, and only those (R119). -/
theorem l2Entry_scanRun {s : State} (hc : tcanon 0 s.fwd.l2 = true) (g k : Nat) :
    l2Entry (scanRun g s) k = if k / 2 ^ 20 = g then l2Scanned (l2Entry s k) else l2Entry s k := by
  have hsort : tsortedFrom 0 s.fwd.l2 = true := by
    simp only [tcanon, tsorted, Bool.and_eq_true] at hc
    exact hc.1
  have hmem : ∀ r ∈ l2Group s g, l2Entry s r.1 = r.2 := fun r hr => by
    rw [l2Entry, tget, tfind_eq_some_of_mem hsort (List.mem_of_mem_filter hr), Option.getD_some]
  have hnd : ((l2Group s g).map Prod.fst).Nodup := (nodup_keys hsort).sublist (List.filter_sublist.map _)
  refine (l2Entry_foldl_scanVisit g (t := scanNoted g s) hnd hc hmem k).trans ?_
  show (if k ∈ (l2Group s g).map Prod.fst then l2Scanned (l2Entry s k) else l2Entry s k) = _
  have hin : k ∈ (l2Group s g).map Prod.fst ↔ k / 2 ^ 20 = g ∧ l2Entry s k ≠ 0 := by
    simpa using exists_mem_l2Group_iff hc (fun _ => true) g k
  have hzero : l2Scanned 0 = 0 := by decide
  by_cases hg : k / 2 ^ 20 = g
  · by_cases h0 : l2Entry s k = 0
    · rw [if_neg (fun h => (hin.mp h).2 h0), if_pos hg, h0, hzero]
    · rw [if_pos (hin.mpr ⟨hg, h0⟩), if_pos hg]
  · rw [if_neg (fun h => hg (hin.mp h).1), if_neg hg]

end Sys2Proof.Machine
end

section
namespace Sys2Proof.Machine

/-! ### What an audit reads, it does not change (R124, R125) -/

/-- Outside the audit's own notes, the counters, the host interface and sf.guarantee, t is s. -/
def OnlyAudit (s t : State) : Prop := t = { s with
  host := t.host, cnt := t.cnt, safe := { s.safe with guarantee := t.safe.guarantee }
  fwd := { s.fwd with stale := t.fwd.stale, rechecks := t.fwd.rechecks, refreshed := t.fwd.refreshed, auditAt := t.fwd.auditAt } }

theorem OnlyAudit.refl (s : State) : OnlyAudit s s := rfl

theorem OnlyAudit.trans {s t u : State} (h : OnlyAudit s t) (h' : OnlyAudit t u) : OnlyAudit s u := by
  unfold OnlyAudit at *
  rw [h', h]

theorem onlyAudit_foldl {α : Type} {f : State → α → State} (h : ∀ t a, OnlyAudit t (f t a)) (l : List α) (s : State) :
    OnlyAudit s (l.foldl f s) := by
  induction l generalizing s with
  | nil => exact OnlyAudit.refl s
  | cons a l ih => exact (h s a).trans (ih (f s a))

section
variable {s t : State} (h : OnlyAudit s t)
include h

theorem OnlyAudit.raw : raw t = raw s := by rw [h]; rfl

theorem OnlyAudit.auditBank (x : Nat) : auditBank t x = auditBank s x := by rw [h]; rfl

theorem OnlyAudit.auditDir (x bank : Nat) : auditDir t x bank = auditDir s x bank := by rw [h]; rfl

theorem OnlyAudit.auditActive (x : Nat) : auditActive t x = auditActive s x := by
  rw [Machine.auditActive, h.auditBank, h.auditDir, Machine.auditActive]

theorem OnlyAudit.auditRef (x bank blk : Nat) : auditRef t x bank blk = auditRef s x bank blk := by rw [h]; rfl

theorem OnlyAudit.auditShape (x : Nat) : auditShape t x = auditShape s x := by rw [h]; rfl

theorem OnlyAudit.auditEntry (x i : Nat) : auditEntry t x i = auditEntry s x i := by rw [h]; rfl

theorem OnlyAudit.auditBytes (x i n : Nat) : auditBytes t x i n = auditBytes s x i n := by
  induction n generalizing i with
  | zero => rfl
  | succ n ih => simp only [Machine.auditBytes, h.auditShape, h.auditEntry, ih]

theorem OnlyAudit.auditBlocks (x : Nat) : auditBlocks t x = auditBlocks s x := by
  simp only [Machine.auditBlocks, h.auditShape]

theorem OnlyAudit.auditCrc (bad : List Damage) (x copy blk : Nat) : auditCrc t bad x copy blk = auditCrc s bad x copy blk := by
  have hblock : auditBlock t x blk = auditBlock s x blk := by simp only [Machine.auditBlock, h.auditShape, h.auditBytes]
  simp only [Machine.auditCrc, hblock]

theorem OnlyAudit.auditDiffers (bad : List Damage) (x copy blk : Nat) :
    auditDiffers t bad x copy blk = auditDiffers s bad x copy blk := by
  simp only [Machine.auditDiffers, h.auditCrc, h.auditRef, h.auditBank]

end

/-! ### The start of a period (R127) -/

/-- The STALE mark of a target. -/
def staleKey (s : State) (x : Nat) : Nat := x + 64 * auditBank s x

/-- An active target whose refreshed field stands as it was noted. -/
def StandsStill (s : State) (x : Nat) : Prop :=
  auditActive s x = true ∧ tfind s.fwd.refreshed (staleKey s x) = some (fld (auditDir s x (auditBank s x)) 127 96)

theorem staleKey_inj {s : State} {x y : Nat} (hx : x < 64) (hy : y < 64) (h : staleKey s x = staleKey s y) : x = y := by
  simp only [staleKey] at h
  omega

theorem auditFresh_eq (x : Nat) (s : State) : auditFresh x s = { s with
    host := (auditFresh x s).host, cnt := (auditFresh x s).cnt
    fwd := { s.fwd with stale := (auditFresh x s).fwd.stale } } := by
  simp only [auditFresh]
  split
  · rfl
  · split
    · rfl
    · split
      · rfl
      · rw [raise_eq]; rfl

theorem onlyAudit_auditFresh (x : Nat) (s : State) : OnlyAudit s (auditFresh x s) := by
  unfold OnlyAudit
  rw [auditFresh_eq]

/-- What a target's start of a period leaves of the audit's notes. -/
theorem auditFresh_notes (x : Nat) (s : State) : (auditFresh x s).fwd.refreshed = s.fwd.refreshed ∧
    (auditFresh x s).fwd.rechecks = s.fwd.rechecks ∧ (auditFresh x s).fwd.auditAt = s.fwd.auditAt := by
  rw [auditFresh_eq]
  exact ⟨rfl, rfl, rfl⟩

/-- A target's start of a period marks it, or takes its mark away, and leaves every other mark. -/
theorem mem_stale_auditFresh (x k : Nat) (s : State) : k ∈ (auditFresh x s).fwd.stale ↔
    if k = staleKey s x then StandsStill s x else k ∈ s.fwd.stale := by
  have hremoved : ∀ P : Prop, ¬ P → (k ∈ s.fwd.stale.filter (· != staleKey s x) ↔
      if k = staleKey s x then P else k ∈ s.fwd.stale) := fun P hP => by
    split <;> simp_all
  simp only [auditFresh, StandsStill]
  split
  case isTrue hact =>
    exact hremoved _ fun hs => by simp [hs.1] at hact
  case isFalse hact =>
    split
    case isTrue hmoved =>
      refine hremoved _ fun hs => ?_
      have hnoted : tfind s.fwd.refreshed (x + 64 * auditBank s x) = _ := hs.2
      simp [hnoted] at hmoved
    case isFalse hsame =>
      have hs : StandsStill s x := by simpa [StandsStill, staleKey] using And.intro hact hsame
      split
      case isTrue hin =>
        split
        · subst_vars; exact ⟨fun _ => hs, fun _ => List.contains_iff_mem.mp hin⟩
        · rfl
      case isFalse =>
        rw [raise_fwd, setFwd_fwd, List.mem_append, List.mem_singleton]
        split
        · subst_vars; exact ⟨fun _ => hs, fun _ => .inr rfl⟩
        · exact ⟨fun hk => hk.elim id fun hk => absurd hk ‹_›, .inl⟩

theorem OnlyAudit.staleKey {s t : State} (h : OnlyAudit s t) (x : Nat) : staleKey t x = staleKey s x := by
  rw [Machine.staleKey, h.auditBank, Machine.staleKey]

theorem OnlyAudit.standsStill {s t : State} (h : OnlyAudit s t) (hr : t.fwd.refreshed = s.fwd.refreshed) (x : Nat) :
    StandsStill t x ↔ StandsStill s x := by
  simp only [StandsStill, h.auditActive, hr, h.staleKey, h.auditBank, h.auditDir]

/-- A period begins for one target after another. -/
def auditFreshAll (l : List Nat) (s : State) : State := l.foldl (fun t x => auditFresh x t) s

theorem auditFreshAll_notes (l : List Nat) (s : State) : (auditFreshAll l s).fwd.refreshed = s.fwd.refreshed ∧
    (auditFreshAll l s).fwd.rechecks = s.fwd.rechecks ∧ (auditFreshAll l s).fwd.auditAt = s.fwd.auditAt := by
  induction l generalizing s with
  | nil => exact ⟨rfl, rfl, rfl⟩
  | cons x l ih =>
    obtain ⟨h1, h2, h3⟩ := ih (auditFresh x s)
    obtain ⟨k1, k2, k3⟩ := auditFresh_notes x s
    exact ⟨h1.trans k1, h2.trans k2, h3.trans k3⟩

theorem onlyAudit_auditFreshAll (l : List Nat) (s : State) : OnlyAudit s (auditFreshAll l s) :=
  onlyAudit_foldl (fun t x => onlyAudit_auditFresh x t) l s

/-- Once every target has begun its period, those are marked that stand still. -/
theorem staleKey_mem_auditFreshAll {l : List Nat} (hl : ∀ x ∈ l, x < 64) (s : State) {y : Nat} (hy : y < 64) :
    staleKey s y ∈ (auditFreshAll l s).fwd.stale ↔ if y ∈ l then StandsStill s y else staleKey s y ∈ s.fwd.stale := by
  induction l generalizing s with
  | nil => simp [auditFreshAll]
  | cons x l ih =>
    have honly := onlyAudit_auditFresh x s
    have hih := ih (fun z hz => hl z (List.mem_cons_of_mem _ hz)) (auditFresh x s)
    rw [honly.staleKey, honly.standsStill (auditFresh_notes x s).1, mem_stale_auditFresh] at hih
    refine hih.trans ?_
    by_cases hyl : y ∈ l
    · simp [hyl]
    · by_cases hyx : y = x
      · subst hyx; simp [hyl]
      · have hkey : staleKey s y ≠ staleKey s x := fun h => hyx (staleKey_inj hy (hl x List.mem_cons_self) h)
        simp [hyl, hyx, hkey]

theorem tfind_map_key {α : Type} (f : Nat → α) (l : List Nat) {k : Nat} (hk : k ∈ l) :
    tfind (l.map fun n => (n, f n)) k = some (f k) := by
  induction l with
  | nil => cases hk
  | cons n l ih =>
    by_cases hn : n = k
    · simp [tfind, hn]
    · simpa [tfind, hn] using ih (by simpa [Ne.symm hn] using hk)

/-! ### Comparing the blocks (R125, R127) -/

/-- A recheck is one that comparing block blk of target x leaves: of a copy that differs, noted now, by the periodic audit. -/
def LeftBy (s : State) (bad : List Damage) (x blk : Nat) (r : Recheck) : Prop :=
  r.target = x ∧ r.block = blk ∧ r.bank = auditBank s x ∧ r.copy < auditCopies x blk ∧ r.since = raw s ∧ r.pass = 0 ∧
    auditDiffers s bad x r.copy blk = true

theorem OnlyAudit.leftBy {s t : State} (h : OnlyAudit s t) (bad : List Damage) (x blk : Nat) (r : Recheck) :
    LeftBy t bad x blk r ↔ LeftBy s bad x blk r := by
  simp only [LeftBy, h.auditBank, h.raw, h.auditDiffers]

theorem auditBlockRun_eq (bad : List Damage) (x blk : Nat) (s : State) : auditBlockRun bad x blk 0 s = { s with
    fwd := { s.fwd with rechecks := (auditBlockRun bad x blk 0 s).fwd.rechecks } } := rfl

theorem mem_rechecks_auditBlockRun (bad : List Damage) (x blk : Nat) (s : State) (r : Recheck) :
    r ∈ (auditBlockRun bad x blk 0 s).fwd.rechecks ↔ r ∈ s.fwd.rechecks ∨ LeftBy s bad x blk r := by
  obtain ⟨tg, bk, cp, bl, si, pa⟩ := r
  simp only [auditBlockRun, setFwd_fwd, List.mem_append, List.mem_map, List.mem_filter, List.mem_range, LeftBy, Recheck.mk.injEq]
  refine or_congr_right ⟨?_, ?_⟩
  · rintro ⟨c, ⟨hc, hd⟩, rfl, rfl, rfl, rfl, rfl, rfl⟩
    exact ⟨rfl, rfl, rfl, hc, rfl, rfl, hd⟩
  · rintro ⟨rfl, rfl, rfl, hc, rfl, rfl, hd⟩
    exact ⟨cp, ⟨hc, hd⟩, rfl, rfl, rfl, rfl, rfl, rfl⟩

theorem auditRun_eq (bad : List Damage) (x i n : Nat) (s : State) : auditRun bad x i n s = { s with
    fwd := { s.fwd with rechecks := (auditRun bad x i n s).fwd.rechecks } } := by
  induction n generalizing i s with
  | zero => rfl
  | succ n ih => rw [auditRun, ih, auditBlockRun_eq]

theorem mem_rechecks_auditRun (bad : List Damage) (x i n : Nat) (s : State) (r : Recheck) :
    r ∈ (auditRun bad x i n s).fwd.rechecks ↔ r ∈ s.fwd.rechecks ∨ ∃ blk, i ≤ blk ∧ blk < i + n ∧ LeftBy s bad x blk r := by
  induction n generalizing i s with
  | zero =>
    refine ⟨.inl, ?_⟩
    rintro (h | ⟨blk, h1, h2, -⟩)
    · exact h
    · omega
  | succ n ih =>
    have honly : OnlyAudit s (auditBlockRun bad x i 0 s) := rfl
    simp only [auditRun, ih, mem_rechecks_auditBlockRun, honly.leftBy, or_assoc]
    refine or_congr_right ⟨?_, ?_⟩
    · rintro (h | ⟨blk, h1, h2, h⟩)
      · exact ⟨i, le_rfl, by omega, h⟩
      · exact ⟨blk, by omega, by omega, h⟩
    · rintro ⟨blk, h1, h2, h⟩
      by_cases hb : blk = i
      · subst hb; exact .inl h
      · exact .inr ⟨blk, by omega, by omega, h⟩

theorem ctrSet_fwd (s : State) (a n : Nat) : (ctrSet s a n).fwd = s.fwd := rfl

theorem auditTarget_eq (bad : List Damage) (x : Nat) (s : State) : auditTarget bad x s = { s with
    cnt := (auditTarget bad x s).cnt, fwd := { s.fwd with rechecks := (auditTarget bad x s).fwd.rechecks } } := by
  rw [auditTarget, ctrSet_eq, auditRun_eq]

theorem onlyAudit_auditTarget (bad : List Damage) (x : Nat) (s : State) : OnlyAudit s (auditTarget bad x s) := by
  unfold OnlyAudit
  rw [auditTarget_eq]

theorem auditTarget_notes (bad : List Damage) (x : Nat) (s : State) : (auditTarget bad x s).fwd.stale = s.fwd.stale ∧
    (auditTarget bad x s).fwd.refreshed = s.fwd.refreshed ∧ (auditTarget bad x s).fwd.auditAt = s.fwd.auditAt := by
  rw [auditTarget_eq]
  exact ⟨rfl, rfl, rfl⟩

theorem auditTarget_fwd (bad : List Damage) (x : Nat) (s : State) :
    (auditTarget bad x s).fwd = (auditRun bad x 0 (auditBlocks s x) s).fwd := by
  rw [auditTarget, ctrSet_fwd]

/-- Comparing a target leaves the rechecks of its blocks (R127). -/
theorem mem_rechecks_auditTarget (bad : List Damage) (x : Nat) (s : State) (r : Recheck) :
    r ∈ (auditTarget bad x s).fwd.rechecks ↔ r ∈ s.fwd.rechecks ∨ ∃ blk < auditBlocks s x, LeftBy s bad x blk r := by
  rw [auditTarget_fwd, mem_rechecks_auditRun]
  simp only [Nat.zero_le, true_and, Nat.zero_add]

/-- Targets are compared one after another. -/
def auditAll (bad : List Damage) (l : List Nat) (s : State) : State := l.foldl (fun z x => auditTarget bad x z) s

theorem onlyAudit_auditAll (bad : List Damage) (l : List Nat) (s : State) : OnlyAudit s (auditAll bad l s) :=
  onlyAudit_foldl (fun t x => onlyAudit_auditTarget bad x t) l s

theorem auditAll_notes (bad : List Damage) (l : List Nat) (s : State) : (auditAll bad l s).fwd.stale = s.fwd.stale ∧
    (auditAll bad l s).fwd.refreshed = s.fwd.refreshed ∧ (auditAll bad l s).fwd.auditAt = s.fwd.auditAt := by
  induction l generalizing s with
  | nil => exact ⟨rfl, rfl, rfl⟩
  | cons x l ih =>
    obtain ⟨h1, h2, h3⟩ := ih (auditTarget bad x s)
    obtain ⟨k1, k2, k3⟩ := auditTarget_notes bad x s
    exact ⟨h1.trans k1, h2.trans k2, h3.trans k3⟩

theorem mem_rechecks_auditAll (bad : List Damage) (l : List Nat) (s : State) (r : Recheck) :
    r ∈ (auditAll bad l s).fwd.rechecks ↔ r ∈ s.fwd.rechecks ∨ ∃ x ∈ l, ∃ blk < auditBlocks s x, LeftBy s bad x blk r := by
  induction l generalizing s with
  | nil => simp [auditAll]
  | cons x l ih =>
    have honly := onlyAudit_auditTarget bad x s
    show r ∈ (auditAll bad l (auditTarget bad x s)).fwd.rechecks ↔ _
    simp only [ih, mem_rechecks_auditTarget, honly.leftBy, honly.auditBlocks, or_assoc, List.mem_cons, exists_eq_or_imp]

/-! ### AUDIT_PERIOD (R127) -/

/-- A period as it starts: noted, each target marked or not, and the refreshed fields noted. -/
def auditBegun (s : State) : State := auditNote (auditFreshAll auditTargets (setFwd s { s.fwd with auditAt := raw s + 1 }))

/-- The targets that a period compares. -/
def auditGo (s : State) : List Nat := auditTargets.filter fun x => auditActive s x && !auditIsStale s x

/-- A period that is due. -/
def auditPeriodRun (bad : List Damage) (s : State) : State :=
  reviewGuarantee (auditAll bad (auditGo (auditBegun s)) (auditBegun s))

theorem execAuditPeriod_eq (bad : List Damage) (s : State) :
    exec (.auditPeriod bad) s = if auditDue s then .next (auditPeriodRun bad s) else .next s := by
  show execAuditPeriod bad s = _
  rw [execAuditPeriod]
  cases auditDue s <;> rfl

theorem auditDue_iff (s : State) : auditDue s = true ↔ cfgOn s 0x3830 0 0 = true ∧
    (s.fwd.auditAt = 0 ∨ s.fwd.auditAt + cycSecond * cfgN s 0x3831 0 0 ≤ raw s + 1) := by
  simp only [auditDue, Bool.and_eq_true, Bool.or_eq_true, beq_iff_eq, decide_eq_true_eq]
  exact and_congr_right fun _ => by omega

theorem auditNote_spec (s : State) : OnlyAudit s (auditNote s) ∧ (auditNote s).fwd.stale = s.fwd.stale ∧
    (auditNote s).fwd.rechecks = s.fwd.rechecks ∧ (auditNote s).fwd.auditAt = s.fwd.auditAt ∧
    ∀ k, k < 128 → tfind (auditNote s).fwd.refreshed k = some (fld (auditDir s (k % 64) (k / 64)) 127 96) :=
  ⟨rfl, rfl, rfl, rfl, fun _ hk =>
    tfind_map_key (fun k => fld (auditDir s (k % 64) (k / 64)) 127 96) _ (List.mem_range.mpr hk)⟩

theorem lt_of_mem_auditTargets : ∀ x ∈ auditTargets, x < 64 := by decide

theorem auditBegun_spec (s : State) : OnlyAudit s (auditBegun s) ∧
    (∀ x ∈ auditTargets, staleKey s x ∈ (auditBegun s).fwd.stale ↔ StandsStill s x) ∧
    (auditBegun s).fwd.rechecks = s.fwd.rechecks ∧ (auditBegun s).fwd.auditAt = raw s + 1 ∧
    ∀ k, k < 128 → tfind (auditBegun s).fwd.refreshed k = some (fld (auditDir s (k % 64) (k / 64)) 127 96) := by
  have h0 : OnlyAudit s (setFwd s { s.fwd with auditAt := raw s + 1 }) := rfl
  have h1 := h0.trans (onlyAudit_auditFreshAll auditTargets _)
  obtain ⟨-, hrechecks, hat⟩ := auditFreshAll_notes auditTargets (setFwd s { s.fwd with auditAt := raw s + 1 })
  obtain ⟨h2, hstale, hrechecks', hat', hnoted⟩ :=
    auditNote_spec (auditFreshAll auditTargets (setFwd s { s.fwd with auditAt := raw s + 1 }))
  refine ⟨h1.trans h2, fun x hx => ?_, hrechecks'.trans hrechecks, hat'.trans hat, fun k hk => ?_⟩
  · have hmark := staleKey_mem_auditFreshAll lt_of_mem_auditTargets (setFwd s { s.fwd with auditAt := raw s + 1 })
      (lt_of_mem_auditTargets x hx)
    rw [if_pos hx, h0.staleKey, h0.standsStill rfl] at hmark
    rw [auditBegun, hstale]
    exact hmark
  · rw [auditBegun, hnoted k hk, h1.auditDir]

theorem reviewGuarantee_spec (s : State) : OnlyAudit s (reviewGuarantee s) ∧ (reviewGuarantee s).fwd = s.fwd := by
  unfold OnlyAudit
  rw [reviewGuarantee_eq]
  exact ⟨rfl, rfl⟩

theorem mem_auditGo {s : State} {x : Nat} :
    x ∈ auditGo s ↔ x ∈ auditTargets ∧ auditActive s x = true ∧ staleKey s x ∉ s.fwd.stale := by
  simp [auditGo, auditIsStale, staleKey]

/-- A period that runs marks the targets that stand still, leaves a recheck for each copy that differs in the other active
ones, and notes the refreshed fields (R127). -/
theorem auditPeriodRun_spec (bad : List Damage) (s : State) : let t := auditPeriodRun bad s
    OnlyAudit s t ∧ (∀ x ∈ auditTargets, staleKey s x ∈ t.fwd.stale ↔ StandsStill s x) ∧
    (∀ r, r ∈ t.fwd.rechecks ↔ r ∈ s.fwd.rechecks ∨ ∃ x, (x ∈ auditTargets ∧ auditActive s x = true ∧ staleKey s x ∉ t.fwd.stale) ∧
      ∃ blk < auditBlocks s x, LeftBy s bad x blk r) ∧
    t.fwd.auditAt = raw s + 1 ∧
    ∀ k, k < 128 → tfind t.fwd.refreshed k = some (fld (auditDir s (k % 64) (k / 64)) 127 96) := by
  obtain ⟨h1, hstale, hrechecks, hat, hnoted⟩ := auditBegun_spec s
  obtain ⟨kstale, krefreshed, kat⟩ := auditAll_notes bad (auditGo (auditBegun s)) (auditBegun s)
  obtain ⟨h3, hfwd⟩ := reviewGuarantee_spec (auditAll bad (auditGo (auditBegun s)) (auditBegun s))
  have h2 := onlyAudit_auditAll bad (auditGo (auditBegun s)) (auditBegun s)
  rw [auditPeriodRun]
  refine ⟨(h1.trans h2).trans h3, fun x hx => ?_, fun r => ?_, ?_, fun k hk => ?_⟩ <;> simp only [hfwd]
  · rw [kstale]
    exact hstale x hx
  · simp only [kstale, mem_rechecks_auditAll, hrechecks, mem_auditGo, h1.auditActive, h1.staleKey, h1.auditBlocks, h1.leftBy]
  · rw [kat, hat]
  · rw [krefreshed]
    exact hnoted k hk

/-! ### AUDIT_RECHECK (R127) -/

section
variable {s : State} {bad : List Damage}

theorem execAuditRecheck_none (h : s.fwd.rechecks = []) : exec (.auditRecheck bad) s = .next s := by
  show execAuditRecheck bad s = _
  simp only [execAuditRecheck, h]

variable {r : Recheck} {rest : List Recheck} (h : s.fwd.rechecks = r :: rest)
include h

theorem execAuditRecheck_early (hw : raw s < r.since + cyc 250000000) : exec (.auditRecheck bad) s = .next s := by
  show execAuditRecheck bad s = _
  simp only [execAuditRecheck, h, if_pos hw]

variable (hw : r.since + cyc 250000000 ≤ raw s)
include hw

theorem execAuditRecheck_due : exec (.auditRecheck bad) s =
    (let s1 := setFwd s { s.fwd with rechecks := rest }
     if auditBanked r.target = true ∧ r.bank ≠ s.ctl.epoch % 2 ∨ auditDiffers s bad r.target r.copy r.block = false then .next s1
     else .next (detect 12 0x0404
       [r.target, r.bank, r.copy, r.block, auditRef s r.target r.bank r.block, auditCrc s bad r.target r.copy r.block]
       (count 0x3833 0 0 s1))) := by
  have honly : OnlyAudit s (setFwd s { s.fwd with rechecks := rest }) := rfl
  show execAuditRecheck bad s = _
  simp only [execAuditRecheck, h, if_neg (show ¬ raw s < r.since + cyc 250000000 by omega), honly.auditDiffers, honly.auditRef,
    honly.auditCrc, Bool.or_eq_true, Bool.and_eq_true, bne_iff_ne, Bool.not_eq_true']

end

end Sys2Proof.Machine
end

section
namespace Sys2Proof.Machine

/-! ### The statement of forwarding, learning and the audit -/

/-- Settles O17: a forwarded packet by its output's lemma, a learn by its row of Table 4-8, a scan by `l2Entry_scanRun`, a line
by `installLine_spec`, an audit period by `auditPeriodRun_spec` and a recheck by `execAuditRecheck_due`. -/
theorem forwardingAndLearning : Obligations.ForwardingAndLearning := by
  unfold Obligations.ForwardingAndLearning
  refine ⟨fun s p pid rest h => ⟨fun i hk hv hi => ?nextHop, fun i hk hv hi hm hw hl => h.exec_waits hk hv hi hm hw hl,
      fun w hk hw => ⟨fun hr hit => ?missed, fun i hr hit hi hport => ?routed, fun hr => ?bridged⟩⟩,
    fun s zone fam dst => ⟨fun i => lpmLookup_some, lpmLookup_none⟩,
    fun s g x rest hq hg hv hm hp => ⟨fun k hf hr => ?inserts, fun hf hr => l2Learn_full hq hg hf hr,
      fun k hf => ⟨l2Learn_hits hq hf, fun hmoved hst => l2Learn_violates hq hf hmoved hg hst,
        fun hmoved hst hage => l2Learn_contests hq hf hmoved hst hg hage, fun hmoved hst hage => ?moves⟩⟩,
    fun s g => ⟨fun hnot => ?scanIdle, fun hon hdue hc => ?scans⟩,
    fun s g key hno => execNhLineArrival_idle hno,
    fun s g key f hf hw => ⟨_, execNhLineArrival_unwaited hf hw, installLine_spec g key (fetchEnded g key s)⟩,
    fun s bad => ⟨fun hnot => ?auditIdle, fun hon hdue => ?audits⟩,
    fun s bad => ⟨execAuditRecheck_none, fun r rest hr => ⟨execAuditRecheck_early hr,
      fun hw hend => (execAuditRecheck_due hr hw).trans (if_pos hend), fun hw hgone hd => ?faults⟩⟩⟩
  case nextHop =>
    have ho := h.output_nextHop hk
    rw [hv] at ho
    refine ⟨fun he => ?_, fun he => ?_, fun he => ?_, fun he => ?_, fun he hmem => ⟨fun hek => ?_, fun hek => ?_⟩⟩
    · exact h.exec_port (ho.trans (congrArg (·, _) (resolveNh_port hi _ he)))
    · exact h.exec_drop (ho.trans (congrArg (·, _) (resolveNh_drop hi _ he)))
    · exact h.exec_drop (ho.trans (congrArg (·, _) (resolveNh_invalid hi _ he)))
    · exact h.exec_trapped (route_trap (ho.trans (congrArg (·, _) (resolveNh_trap hi _ he)))) rfl
    · exact h.exec_port (ho.trans (congrArg (·, _) ((resolveNh_ecmp hi _ he hmem).trans (if_pos hek))))
    · exact h.exec_drop (ho.trans (congrArg (·, _) ((resolveNh_ecmp hi _ he hmem).trans (if_neg hek))))
  case missed =>
    have ho := h.output_miss hk hw hr hit
    refine ⟨fun h0 => ?_, fun h1 => ?_⟩
    · rw [h0] at ho
      exact h.exec_dropped (route_silentDrop ho)
    · rw [h1] at ho
      exact h.exec_trapped (route_trap ho) (count_path ..)
  case routed =>
    exact h.exec_port ((h.output_hit hk hw hr hit).trans (congrArg (·, _) (resolveNh_port (.inl hi) _ hport)))
  case bridged =>
    refine ⟨fun k hit hown => ?_, fun k hit hother => ?_, fun hit hoff => ?_⟩
    · exact h.exec_drop ((h.output_bridged hk hw hr hit).trans (congrArg (·, _) (if_pos hown)))
    · exact h.exec_port ((h.output_bridged hk hw hr hit).trans (congrArg (·, _) (if_neg hother)))
    · exact h.exec_drop ((h.output_bridged hk hw hr hit).trans (congrArg (·, _) (if_pos hoff)))
  case inserts =>
    obtain ⟨t, ht, he, hother⟩ := l2Learn_inserts hq hf hr hv hm hp
    refine ⟨t, ht, ?_, hother⟩
    rw [he]
    exact l2Learned_fields hv hm hp (devUs_lt s)
  case moves =>
    obtain ⟨t, ht, he, hother⟩ := l2Learn_moves hq hf hmoved hst hage
    refine ⟨t, ht, ?_, hother⟩
    rw [he]
    exact l2Moved_fields _ hp (devUs_lt s)
  case scanIdle =>
    rw [execL2AgeScan_eq, if_neg]
    simp only [scanDue, Bool.and_eq_true, bne_iff_ne, decide_eq_true_eq]
    omega
  case scans =>
    have hrun : scanDue g s = true := by simp [scanDue, hon, hdue]
    refine ⟨_, (execL2AgeScan_eq g s).trans (if_pos hrun), scanRun_eq g s, fun k => ?_⟩
    rw [l2Entry_scanRun hc, l2Scanned]
    cases l2Static (l2Entry s k) <;> simp
  case auditIdle =>
    rw [execAuditPeriod_eq, if_neg]
    rw [auditDue_iff]
    rintro ⟨hon, hdue⟩
    exact hnot.elim (fun hoff => by simp [hoff] at hon) (fun h => h hdue)
  case audits =>
    obtain ⟨honly, hstale, hrechecks, hat, hnoted⟩ := auditPeriodRun_spec bad s
    refine ⟨_, (execAuditPeriod_eq bad s).trans (if_pos ((auditDue_iff s).mpr ⟨hon, hdue⟩)), hstale, fun r => ?_, hnoted, ?_, ?_⟩
    · rw [hrechecks]
      refine or_congr_right ⟨?_, ?_⟩
      · rintro ⟨x, ⟨hx, hact, hmark⟩, blk, hblk, rfl, rfl, hbank, hcopy, hsince, hpass, hdiff⟩
        exact ⟨hx, hact, hmark, hbank, hcopy, hblk, hsince, hpass, hdiff⟩
      · rintro ⟨hx, hact, hmark, hbank, hcopy, hblk, hsince, hpass, hdiff⟩
        exact ⟨r.target, ⟨hx, hact, hmark⟩, r.block, hblk, rfl, rfl, hbank, hcopy, hsince, hpass, hdiff⟩
    · rw [← hat]
      exact congrArg State.fwd honly
    · exact ⟨(congrArg State.ctl honly :), (congrArg State.path honly :), (congrArg State.hbm honly :)⟩
  case faults =>
    exact (execAuditRecheck_due hr hw).trans (if_neg fun hend => hend.elim hgone fun h => by rw [h] at hd; cases hd)

end Sys2Proof.Machine
end

section
namespace Sys2Proof.Machine

/-! ### A buffered line that leaves its slice's buffer empty (R151, R158) -/

/-- The set of slice 0 that the all-zero key falls into. -/
def zeroKeySet : Nat := hashSet (seedsNow State.reset) 0

/-- A dirty primary line of a record, under another key's fingerprint. -/
def dirtyLine (record : Nat) : Line :=
  { fp := 0, wide := false, key := 0, record := record, link := false, dirty := true, orient := false, st := 0, act := 0,
    telemetry := 0, mirror := 0, dpf := 1, dbf := 64, dpr := 0, dbr := 0, last := 0, home := 0, oAddr := 0, oPort := 0, used := 0 }

/-- The buffered line of the all-zero key. -/
def bufferedLine : WbEntry :=
  { line := { dirtyLine 9 with fp := fingerprint (seedsNow State.reset) 0 }, fold := false }

/-- A device in which packet 0 of the all-zero key waits at slice 0. Its set holds eight dirty lines, and the table of the
writeback buffers lists slice 0 twice: first with the key's line alone, then with a full buffer of lines of record 5. O19
asks for no table of buffers whose keys rise. -/
def bufferListedTwice : State := { State.reset with
  path := { State.reset.path with pkts := [(0, { noPacket with key := some 0 })] }
  flow := { State.reset.flow with
    reqs := [(0, [0])]
    lines := (List.range 8).map fun w => (lineKey 0 zeroKeySet w, dirtyLine 7)
    wb := [(0, [bufferedLine]), (0, List.replicate 1024 { line := dirtyLine 5, fold := false })]
    records := [(5, { key := 1, st := 0, cnt := 0, act := 0 })] } }

theorem lookupNext_bufferListedTwice : LookupNext bufferListedTwice 0 0 0 [] := by decide +kernel

theorem found_bufferListedTwice : holdFor bufferListedTwice 0 0 = none ∧ lineFind bufferListedTwice 0 0 = none ∧
    wbMatch bufferListedTwice 0 0 = some 0 := by decide +kernel

/-- The forward packets that a record has counted in the state that a command answers. -/
def forwardPacketsAfter (o : Host.Outcome State Fault Refusal) (r : Nat) : Option Nat :=
  match o with
  | .next t => (flowRec t r).map fun x => bf x.cnt 255 216
  | _ => none

/-- Serving the lookup evicts a line into the full buffer, which first writes a line of record 5 back. -/
theorem forwardPacketsAfter_bufferListedTwice : forwardPacketsAfter (exec (.lookup 0 0) bufferListedTwice) 5 = some 1 := by
  decide +kernel

/-- Refutes O19, in its clause on buffered lines: where the table of the writeback buffers lists a slice twice, the buffer
that the withdrawn line leaves empty gives way to the second one, which may be full, and the line that its return evicts
has a record written back. -/
theorem not_flowServesPackets : ¬ Obligations.FlowServesPackets := by
  unfold Obligations.FlowServesPackets
  intro ⟨_, _, hbuffered, _⟩
  obtain ⟨hhold, hline, hmatch⟩ := found_bufferListedTwice
  obtain ⟨t, -, -, hexec, -, -, -, -, -, -, -, -, hrecords, -⟩ :=
    hbuffered bufferListedTwice 0 0 0 0 [] bufferedLine lookupNext_bufferListedTwice hhold hline hmatch rfl rfl rfl nofun
      rfl rfl (by decide) (by decide)
  have hcounted := forwardPacketsAfter_bufferListedTwice
  rw [hexec, forwardPacketsAfter, flowRec, hrecords] at hcounted
  exact absurd hcounted (by decide)

end Sys2Proof.Machine
end

section
namespace Sys2Proof.Machine

/-! ### Counts and events touch the counters and the host interface alone -/

/-- t differs from s in counters and in the host interface alone. -/
def Quiet (s t : State) : Prop := t = { s with cnt := t.cnt, host := t.host }

theorem Quiet.refl (s : State) : Quiet s s := rfl

theorem Quiet.trans {s t u : State} (h : Quiet s t) (h' : Quiet t u) : Quiet s u := by
  unfold Quiet at *; rw [h', h]

theorem quiet_count (i n u : Nat) (s : State) : Quiet s (count i n u s) := by rw [count_eq]; rfl
theorem quiet_raise (c : Nat) (ps : List Nat) (s : State) (f : Bool) : Quiet s (raise c ps s f) := by rw [raise_eq]; rfl
theorem quiet_raiseLimited (c i : Nat) (ps : Nat → List Nat) (s : State) : Quiet s (raiseLimited c i ps s) := by
  rw [raiseLimited_eq]; rfl
theorem quiet_noteLately (c i : Nat) (s : State) : Quiet s (noteLately c i s) := rfl

theorem quiet_noteFailure (n cause : Nat) (s : State) : Quiet s (noteFailure n cause s) := by
  unfold noteFailure
  exact ((quiet_count ..).trans (quiet_noteLately ..)).trans (quiet_raiseLimited ..)

theorem quiet_holdFull (n : Nat) (s : State) : Quiet s (holdFull n s) := by
  unfold holdFull
  exact (quiet_count ..).trans (quiet_raiseLimited ..)

theorem quiet_noBackend (g v : Nat) (s : State) : Quiet s (noBackend g v s) := by
  unfold noBackend
  exact (quiet_count ..).trans (quiet_raiseLimited ..)

section
variable {s t : State} (h : Quiet s t)
include h

theorem Quiet.flow : t.flow = s.flow := by rw [h]
theorem Quiet.path : t.path = s.path := by rw [h]
theorem Quiet.hbm : t.hbm = s.hbm := by rw [h]
theorem Quiet.ctl : t.ctl = s.ctl := by rw [h]
theorem Quiet.aw : t.aw = s.aw := by rw [h]
theorem Quiet.fwd : t.fwd = s.fwd := by rw [h]
theorem Quiet.time : t.time = s.time := by rw [h]
theorem Quiet.pkt (pid : Nat) : pkt t pid = pkt s pid := by rw [h]; rfl

end

/-! ### What the flow store's lookups rest on -/

/-- The configuration, the memory's map, the records and the index of t are those of s. -/
structure SameStore (s t : State) : Prop where
  config : SameConfig s t
  bases : t.hbm.bases = s.hbm.bases
  sizes : t.hbm.sizes = s.hbm.sizes
  spread : t.hbm.layouts = s.hbm.layouts
  retired : ∀ n, pcRetired t n = pcRetired s n
  records : t.flow.records = s.flow.records
  index : t.flow.index = s.flow.index
  index2 : t.flow.index2 = s.flow.index2
  nr : t.flow.nr = s.flow.nr
  rehash : t.flow.rehash = s.flow.rehash
  resize : t.flow.resize = s.flow.resize

section
variable {s t : State} (h : SameStore s t)
include h

theorem SameStore.cfgN (i n u : Nat) : cfgN t i n u = cfgN s i n u := h.config.cfgN i n u
theorem SameStore.flowSeed (n : Nat) : flowSeed t n = flowSeed s n := by simp only [Machine.flowSeed, h.rehash, h.cfgN]
theorem SameStore.keyHash (n : Nat) (k : BitVec 384) : keyHash t n k = keyHash s n k := by
  simp only [Machine.keyHash, h.flowSeed]
theorem SameStore.homeSlice (k : BitVec 384) : homeSlice t k = homeSlice s k := by simp only [Machine.homeSlice, h.keyHash]
theorem SameStore.seedsNow : seedsNow t = seedsNow s := by simp only [Machine.seedsNow, List.map, h.flowSeed]
theorem SameStore.seedsAt (n : Nat) (k : BitVec 384) : seedsAt t n k = seedsAt s n k := by
  simp only [Machine.seedsAt, h.rehash, h.homeSlice, h.seedsNow]
theorem SameStore.partSize (k : Nat) : partSize t k = partSize s k := by simp only [Machine.partSize, h.sizes, h.cfgN]
theorem SameStore.partBase (k : Nat) : partBase t k = partBase s k := by simp only [Machine.partBase, h.bases]
theorem SameStore.layNow : layNow t = layNow s := by
  simp only [Machine.layNow, h.seedsNow, h.partSize, h.partBase, h.spread, h.rehash]
theorem SameStore.layouts : layouts t = layouts s := by simp only [Machine.layouts, h.rehash, h.layNow]
theorem SameStore.bucketGone (l : IdxLay) (b : Nat) : bucketGone t l b = bucketGone s l b := h.retired _
theorem SameStore.recPc (r : Nat) : recPc t r = recPc s r := by simp only [Machine.recPc, h.resize, h.spread]
theorem SameStore.recGone (r : Nat) : recGone t r = recGone s r := by simp only [Machine.recGone, h.recPc, h.retired]
theorem SameStore.drawLimit : drawLimit t = drawLimit s := by simp only [Machine.drawLimit, h.resize, h.nr]
theorem SameStore.flowRec (r : Nat) : flowRec t r = flowRec s r := by simp only [Machine.flowRec, h.records]
theorem SameStore.reverseKey (k : BitVec 384) (d : Bool) (a p : Nat) : reverseKey t k d a p = reverseKey s k d a p := by
  simp only [Machine.reverseKey, natPeer, h.cfgN]
theorem SameStore.recReverse (r : FlowRec) : recReverse t r = recReverse s r := by
  simp only [Machine.recReverse, h.reverseKey]
theorem SameStore.idxTable (l : IdxLay) : idxTable t l = idxTable s l := by simp only [Machine.idxTable, h.index, h.index2]
theorem SameStore.idxGet (l : IdxLay) (x : Nat) : idxGet t l x = idxGet s l x := by simp only [Machine.idxGet, h.idxTable]
theorem SameStore.freeSlot (l : IdxLay) (b : Nat) : freeSlot t l b = freeSlot s l b := by
  simp only [Machine.freeSlot, h.idxGet]
theorem SameStore.bucketMatches (l : IdxLay) (b : Nat) (k : BitVec 384) : bucketMatches t l b k = bucketMatches s l b k := by
  simp only [Machine.bucketMatches, h.idxGet, h.nr]
theorem SameStore.slotKey (r d : Nat) : slotKey t r d = slotKey s r d := by
  simp only [Machine.slotKey, h.flowRec, h.recReverse]
theorem SameStore.keyIs (c : Nat) (k : BitVec 384) : keyIs t c k = keyIs s c k := by simp only [Machine.keyIs, h.slotKey]
theorem SameStore.idxFind (k : BitVec 384) : idxFind t k = idxFind s k := by
  simp only [Machine.idxFind, h.layouts, h.bucketGone, h.bucketMatches, h.recGone, h.keyIs]

end

theorem SameStore.refl (s : State) : SameStore s s :=
  ⟨⟨rfl, rfl, rfl⟩, rfl, rfl, rfl, fun _ => rfl, rfl, rfl, rfl, rfl, rfl, rfl⟩

theorem SameStore.trans {s t u : State} (h : SameStore s t) (h' : SameStore t u) : SameStore s u where
  config := ⟨h'.config.keys.trans h.config.keys, h'.config.active.trans h.config.active, h'.config.board.trans h.config.board⟩
  bases := h'.bases.trans h.bases
  sizes := h'.sizes.trans h.sizes
  spread := h'.spread.trans h.spread
  retired n := (h'.retired n).trans (h.retired n)
  records := h'.records.trans h.records
  index := h'.index.trans h.index
  index2 := h'.index2.trans h.index2
  nr := h'.nr.trans h.nr
  rehash := h'.rehash.trans h.rehash
  resize := h'.resize.trans h.resize

theorem Quiet.sameStore {s t : State} (h : Quiet s t) : SameStore s t := by
  rw [h]
  exact ⟨⟨rfl, rfl, rfl⟩, rfl, rfl, rfl, fun _ => rfl, rfl, rfl, rfl, rfl, rfl, rfl⟩

/-! ### Hold entries (R151) -/

@[simp] theorem holdAt_setHold_same (h : Nat) (x : Hold) (s : State) : holdAt (setHold h x s) h = some x :=
  tfind_tput_same _ _ _

theorem holdAt_setHold_other {h i : Nat} (hi : i ≠ h) (x : Hold) (s : State) : holdAt (setHold h x s) i = holdAt s i :=
  tfind_tput_other _ _ hi

theorem holdAt_delHold_same {s : State} (hs : tsorted s.flow.holds = true) (h : Nat) : holdAt (delHold h s) h = none :=
  tfind_tdel_same hs h

theorem holdAt_delHold_other {h i : Nat} (hi : i ≠ h) (s : State) : holdAt (delHold h s) i = holdAt s i :=
  tfind_tdel_other _ hi

theorem holdAt_of_flow {s t : State} (h : t.flow = s.flow) (i : Nat) : holdAt t i = holdAt s i := by rw [holdAt, h, holdAt]

theorem tsorted_setHold {s : State} (hs : tsorted s.flow.holds = true) (h : Nat) (x : Hold) :
    tsorted (setHold h x s).flow.holds = true := tsortedFrom_tput hs (Nat.zero_le _) x

theorem sameStore_setHold (h : Nat) (x : Hold) (s : State) : SameStore s (setHold h x s) :=
  ⟨⟨rfl, rfl, rfl⟩, rfl, rfl, rfl, fun _ => rfl, rfl, rfl, rfl, rfl, rfl, rfl⟩

/-! ### A chain of one packet that has not retired (R18, R187) -/

theorem Unretired.congr {s t : State} {pid : Nat} (hu : Unretired s pid) (hp : t.path = s.path) (hc : t.ctl = s.ctl) :
    Unretired t pid := by
  unfold Unretired isExpired retireQ pkt at *
  rw [hp, hc]; exact hu

theorem Unretired.modPkt {s : State} {pid : Nat} (hu : Unretired s pid) {f : Packet → Packet}
    (hplace : (f (pkt s pid)).place = (pkt s pid).place) (hpipe : (f (pkt s pid)).pipe = (pkt s pid).pipe) :
    Unretired (modPkt pid f s) pid := by
  obtain ⟨he, hpl, hq, hp⟩ := hu
  refine ⟨he, ?_, ?_, ?_⟩ <;> rw [pkt_modPkt_same]
  · rwa [hplace]
  · rw [hpipe]; exact hq
  · rwa [hpipe]

/-- A release leaves a packet that has not retired to its turn in the retire stage. -/
theorem Unretired.release {s : State} {pid : Nat} (hu : Unretired s pid) : releasePkt pid s = s := by
  obtain ⟨-, hplace, hqueue, -⟩ := hu
  rw [releasePkt, if_neg hplace, if_pos hqueue]

/-- The mark that a template's fail_action leaves on a packet (R187). -/
def failMark (T : BitVec 512) : Nat := if tpFail T = 1 then 5 else if tpFail T = 2 then 7 else 4

/-- A flow counter of a slice that fail_action does not count in. -/
def SetupCounter (i j : Nat) : Prop := (i = 0x4020 ∨ i = 0x4040 ∨ i = 0x4041) ∧ j < 13

section
variable {s : State} {pid n : Nat} (T : BitVec 512)

variable (n) in
/-- fail_action marks the packet, and counts (R187). -/
theorem failOne_eq : ∃ f : Packet → Packet, ∃ i m j, failOne n T pid s = count i m j (modPkt pid f s) ∧
    (f (pkt s pid)).flow = failMark T ∧ (f (pkt s pid)).place = (pkt s pid).place ∧ (f (pkt s pid)).pipe = (pkt s pid).pipe ∧
    ((i = 0x4040 ∧ m = n ∧ j = 13) ∨ (i = 0x4011 ∧ m = (pkt s pid).pipe ∧ j < 5)) := by
  unfold failOne failMark
  split
  case h_1 h1 => exact ⟨_, _, _, _, rfl, by simp [h1], rfl, rfl, by simp⟩
  case h_2 h2 => exact ⟨_, _, _, _, rfl, by simp [h2], rfl, rfl, by simp⟩
  case h_3 h1 h2 => exact ⟨_, _, _, _, rfl, by rw [if_neg h1, if_neg h2], rfl, rfl, by simp⟩

theorem failChain_one (hn : n < 16) (hu : Unretired s pid) : let t := failChain n T [pid] s
    t = { s with path := t.path, cnt := t.cnt } ∧ (pkt t pid).flow = failMark T ∧
      (∀ i j, SetupCounter i j → ctrGet t (oa i n j) = ctrGet s (oa i n j)) := by
  obtain ⟨f, i, m, j, heq, hflow, hplace, hpipe, hctr⟩ := failOne_eq (s := s) (pid := pid) n T
  have hmod : Unretired (count i m j (modPkt pid f s)) pid :=
    (hu.modPkt hplace hpipe).congr (quiet_count ..).path (quiet_count ..).ctl
  have hchain : failChain n T [pid] s = count i m j (modPkt pid f s) := by
    simp only [failChain, releaseAll, List.foldl_cons, List.foldl_nil, hu.1, Bool.false_eq_true, if_false, heq]
    exact hmod.release
  intro t
  have ht : t = count i m j (modPkt pid f s) := hchain
  refine ⟨?_, ?_, fun i' j' hset => ?_⟩
  · rw [ht, count_eq]; rfl
  · rw [ht, (quiet_count ..).pkt, pkt_modPkt_same, hflow]
  · obtain ⟨hi', hj'⟩ := hset
    have hpipe16 : (pkt s pid).pipe < 16 := hu.2.2.2
    rw [ht, ctrGet_count_other (by simp only [oa]; omega) (by simp only [oa]; omega)]
    rfl

end

end Sys2Proof.Machine
end

section
namespace Sys2Proof.Machine

/-! ### Insertion failure of an entry with one packet (R187) -/

/-- A failure's index returns to its chain. -/
def returnIndex (u : Option Setup) (s : State) : State :=
  match u with
  | some u => chainPush u.record s
  | none => s

theorem returnIndex_holds (u : Option Setup) (s : State) : (returnIndex u s).flow.holds = s.flow.holds := by
  cases u <;> rfl

theorem returnIndex_eq (u : Option Setup) (s : State) : returnIndex u s = { s with flow := (returnIndex u s).flow } := by
  cases u <;> rfl

/-- What an insertion failure with a cause leaves of entry h, whose chain is one packet (R187). -/
structure InsertFailed (s : State) (h cause pid : Nat) (x : Hold) (t : State) : Prop where
  gone : holdAt t h = none
  others : ∀ i, i ≠ h → holdAt t i = holdAt s i
  flow : t.flow = (delHold h (returnIndex x.setup s)).flow
  hbm : t.hbm = s.hbm
  mark : (pkt t pid).flow = failMark (template s x.epoch x.template)
  counted : ctrGet s (oa 0x4041 (sliceOfHold h) cause) + 1 < 2 ^ 48 →
    ctrGet t (oa 0x4041 (sliceOfHold h) cause) = ctrGet s (oa 0x4041 (sliceOfHold h) cause) + 1
  kept : ∀ i j, SetupCounter i j → i ≠ 0x4041 →
    ctrGet t (oa i (sliceOfHold h) j) = ctrGet s (oa i (sliceOfHold h) j)

theorem sliceOfHold_lt {h : Nat} (hh : h < 2 ^ 20) : sliceOfHold h < 16 := by unfold sliceOfHold; omega

theorem ctrGet_noteFailure_same {n cause : Nat} {s : State} (hn : n < 16) (hc : cause < 13)
    (h : ctrGet s (oa 0x4041 n cause) + 1 < 2 ^ 48) :
    ctrGet (noteFailure n cause s) (oa 0x4041 n cause) = ctrGet s (oa 0x4041 n cause) + 1 := by
  unfold noteFailure
  exact (ctrGet_raiseLimited (by simp only [oa]; omega) ..).trans (ctrGet_count_same h)

theorem ctrGet_noteFailure_other {n cause i j : Nat} {s : State} (hn : n < 16) (hs : SetupCounter i j) (hi : i ≠ 0x4041) (hc : cause < 13) :
    ctrGet (noteFailure n cause s) (oa i n j) = ctrGet s (oa i n j) := by
  obtain ⟨hi', hj⟩ := hs
  unfold noteFailure
  exact (ctrGet_raiseLimited (by simp only [oa]; omega) ..).trans
    (ctrGet_count_other (by simp only [oa]; omega) (by simp only [oa]; omega) s)

theorem insertFail_one {s : State} {h cause pid : Nat} {x : Hold} (hx : holdAt s h = some x) (hh : h < 2 ^ 20)
    (hcause : cause < 13) (hchain : x.chain = [pid]) (hother : x.other = none) (hu : Unretired s pid)
    (hs : tsorted s.flow.holds = true) : InsertFailed s h cause pid x (insertFail h cause s) := by
  have hn := sliceOfHold_lt hh
  have hr : (returnIndex x.setup s).flow.holds = s.flow.holds := returnIndex_holds ..
  have hd : delBoth h (returnIndex x.setup s) = delHold h (returnIndex x.setup s) := by
    have hx' : holdAt (returnIndex x.setup s) h = some x := by rw [holdAt, hr]; exact hx
    simp only [delBoth, hx', Option.bind_some, hother]
  have hq := quiet_noteFailure (sliceOfHold h) cause (delHold h (returnIndex x.setup s))
  have heq : insertFail h cause s = failChain (sliceOfHold h) (template s x.epoch x.template) [pid]
      (noteFailure (sliceOfHold h) cause (delHold h (returnIndex x.setup s))) := by
    simp only [insertFail, hx, bothChains, hother, Option.bind_none, Option.map_none, Option.getD_none, hchain,
      List.append_nil, ← hd]
    rfl
  rw [heq]
  have hdel : delHold h (returnIndex x.setup s) = { s with flow := (delHold h (returnIndex x.setup s)).flow } := by
    rw [returnIndex_eq]; rfl
  have hu' : Unretired (noteFailure (sliceOfHold h) cause (delHold h (returnIndex x.setup s))) pid :=
    hu.congr (hq.path.trans (by rw [hdel])) (hq.ctl.trans (by rw [hdel]))
  obtain ⟨hframe, hmark, hctr⟩ := failChain_one (template s x.epoch x.template) hn hu'
  have hcnt (a : Nat) : ctrGet (delHold h (returnIndex x.setup s)) a = ctrGet s a := ctrGet_of_cnt (by rw [hdel]) a
  have hflow := (congrArg State.flow hframe).trans hq.flow
  refine ⟨?_, fun i hi => ?_, hflow, ?_, hmark, fun hlt => ?_, fun i j hset hi => ?_⟩
  · exact (holdAt_of_flow hflow h).trans (holdAt_delHold_same (by rw [hr]; exact hs) h)
  · rw [holdAt_of_flow hflow, holdAt_delHold_other hi, holdAt, hr, holdAt]
  · exact (congrArg State.hbm hframe).trans (hq.hbm.trans (by rw [hdel]))
  · rw [hctr _ _ ⟨.inr (.inr rfl), hcause⟩, ctrGet_noteFailure_same hn hcause (by rwa [hcnt]), hcnt]
  · rw [hctr _ _ hset, ctrGet_noteFailure_other hn hset hi hcause, hcnt]

end Sys2Proof.Machine
end

section
namespace Sys2Proof.Machine

/-! ### The record of a new flow (Table 6-2, step 1) -/

/-- A field of a word is below the power of its width. -/
theorem bf_lt_two_pow {w : Nat} (v : BitVec w) (hi lo : Nat) : bf v hi lo < 2 ^ (hi + 1 - lo) :=
  Nat.mod_lt _ (Nat.two_pow_pos _)

/-- A flag field is 1 exactly when its flag is set. -/
theorem b2n_mod_two (b : Bool) : b2n b % 2 = b2n b := by cases b <;> rfl

/-- The millisecond that a record's times are written with. -/
def recordMs (s : State) : Nat := if devMs s = 0 then 1 else devMs s

theorem recordMs_lt (s : State) : recordMs s < 2 ^ 32 := by
  have h : devMs s < 2 ^ 32 := s.time.ms.isLt
  unfold recordMs; split <;> omega

section
variable (s : State) (n tn : Nat) (T : BitVec 512) (k : BitVec 384)

theorem newRecord_key : (newRecord s n tn T k).key = k := rfl

theorem bit_eq_decide_bf {w i : Nat} (v : BitVec w) : bit v i = decide (bf v i i = 1) := by
  simp only [bit, bf, fld, BitVec.getLsbD, Nat.testBit, Nat.shiftRight_eq_div_pow, Nat.add_sub_cancel_left, pow_one]
  simp
  cases Nat.mod_two_eq_zero_or_one (v.toNat / 2 ^ i) with
  | inl h => rw [h]; rfl
  | inr h => rw [h]; rfl

theorem newRecord_st (htn : tn < 2 ^ 8) : let w := (newRecord s n tn T k).st
    bf w 127 124 = 2 ∧ stFwd w = 0 ∧ stRev w = 0 ∧ stClass w = tpClassNew T ∧ stTemplate w = tn ∧ stDrop w = tpDrop T ∧
    stPinned w = tpPinned T ∧ stReborn w = isReborn s n k ∧ stTrans w = false ∧ stXlateDst w = false := by
  have hclass : tpClassNew T < 2 ^ 4 := bf_lt_two_pow T 235 232
  intro w
  simp only [stFwd, stRev, stClass, stTemplate, stDrop, stPinned, stReborn, stTrans, stXlateDst, bit_eq_decide_bf, w, newRecord,
    bf_ofNat _ _ (show 127 < 128 by decide), bf_ofNat _ _ (show 123 < 128 by decide), bf_ofNat _ _ (show 119 < 128 by decide),
    bf_ofNat _ _ (show 115 < 128 by decide), bf_ofNat _ _ (show 111 < 128 by decide), bf_ofNat _ _ (show 110 < 128 by decide),
    bf_ofNat _ _ (show 109 < 128 by decide), bf_ofNat _ _ (show 108 < 128 by decide), bf_ofNat _ _ (show 106 < 128 by decide),
    bf_ofNat _ _ (show 103 < 128 by decide), fld, Nat.shiftRight_eq_div_pow]
  generalize tpClassNew T = c at hclass ⊢
  cases isReborn s n k <;> cases tpDrop T <;> cases tpPinned T <;> simp only [b2n] <;> norm_num <;> omega

theorem newRecord_cnt : let w := (newRecord s n tn T k).cnt
    cnFirst w = recordMs s ∧ cnLast w = recordMs s ∧ cnTelemetry w = tpTelemetry T ∧ cnMirror w = tpMirror T ∧
    cnClass w = tpClassNew T := by
  have hclass : tpClassNew T < 2 ^ 4 := bf_lt_two_pow T 235 232
  have htel : tpTelemetry T < 2 ^ 4 := bf_lt_two_pow T 210 207
  have hmir : tpMirror T < 2 ^ 4 := bf_lt_two_pow T 214 211
  have hms := recordMs_lt s
  intro w
  have hw : w = BitVec.ofNat 256 (recordMs s % 2 ^ 32 * 2 ^ 48 + recordMs s % 2 ^ 32 * 2 ^ 16 + tpTelemetry T % 2 ^ 4 * 2 ^ 12 +
      tpMirror T % 2 ^ 4 * 2 ^ 8 + tpClassNew T % 2 ^ 4 * 2 ^ 4) := rfl
  rw [hw, Nat.mod_eq_of_lt hms, Nat.mod_eq_of_lt htel, Nat.mod_eq_of_lt hmir, Nat.mod_eq_of_lt hclass]
  have hfirst : (recordMs s * 2 ^ 48 + recordMs s * 2 ^ 16 + tpTelemetry T * 2 ^ 12 + tpMirror T * 2 ^ 8 +
      tpClassNew T * 2 ^ 4) / 2 ^ 48 = recordMs s := by omega
  simp only [cnFirst, cnLast, cnTelemetry, cnMirror, cnClass, bf_ofNat _ _ (show 79 < 256 by decide),
    bf_ofNat _ _ (show 47 < 256 by decide), bf_ofNat _ _ (show 15 < 256 by decide), bf_ofNat _ _ (show 11 < 256 by decide),
    bf_ofNat _ _ (show 7 < 256 by decide), fld, Nat.shiftRight_eq_div_pow, hfirst]
  omega

theorem newRecord_act : let w := (newRecord s n tn T k).act
    acNhFwd w = tpNhFwd T ∧ acNhRev w = tpNhRev T ∧ acEditFwd w = tpEditFwd T ∧ acEditRev w = tpEditRev T ∧
    acMeter w = tpMeter T := by
  have h1 : tpNhFwd T < 2 ^ 24 := bf_lt_two_pow T 170 147
  have h2 : tpNhRev T < 2 ^ 24 := bf_lt_two_pow T 146 123
  have h3 : tpEditFwd T < 2 ^ 12 := bf_lt_two_pow T 122 111
  have h4 : tpEditRev T < 2 ^ 12 := bf_lt_two_pow T 110 99
  have h5 : tpMeter T < 2 ^ 20 := bf_lt_two_pow T 206 187
  intro w
  simp only [acNhFwd, acNhRev, acEditFwd, acEditRev, acMeter, w, newRecord, bf_ofNat _ _ (show 255 < 256 by decide),
    bf_ofNat _ _ (show 231 < 256 by decide), bf_ofNat _ _ (show 207 < 256 by decide), bf_ofNat _ _ (show 195 < 256 by decide),
    bf_ofNat _ _ (show 183 < 256 by decide), fld, Nat.shiftRight_eq_div_pow]
  omega

end

theorem isReborn_congr {s t : State} (h : SameStore s t) (hr : t.flow.reborn = s.flow.reborn) (ht : t.time = s.time) (n : Nat)
    (k : BitVec 384) : isReborn t n k = isReborn s n k := by
  unfold isReborn
  rw [h.seedsNow, hr, devMs, ht, devMs]

/-- A new record rests on the store, the reborn tables and the time. -/
theorem newRecord_congr {s t : State} (h : SameStore s t) (hr : t.flow.reborn = s.flow.reborn) (ht : t.time = s.time) (n tn : Nat)
    (T : BitVec 512) (k : BitVec 384) : newRecord t n tn T k = newRecord s n tn T k := by
  have hms : devMs t = devMs s := by rw [devMs, ht, devMs]
  unfold newRecord
  rw [isReborn_congr h hr ht, hms]

end Sys2Proof.Machine
end

section
namespace Sys2Proof.Machine

/-! ### A fetch's entry enters SETUP (R168) -/

/-- The template of a packet's flow, in the bank of its epoch. -/
def setupTemplate (s : State) (pid : Nat) : BitVec 512 :=
  template s (pktEpoch s pid) (aTemplate (stageZero (pkt s pid).acts))

/-- A TCP packet that is no SYN meets a template without pickup. -/
def SetupBarred (s : State) (pid : Nat) (k : BitVec 384) : Prop :=
  kProto k = 6 ∧ ((segmentOf (pkt s pid)).any fun g => g.syn && !g.acks) = false ∧ tpPickup (setupTemplate s pid) = false

/-- The entry that a hold entry becomes in SETUP. -/
def setupEntry (s : State) (pid : Nat) (x : Hold) : Hold :=
  { x with
    state := 3, since := raw s, pipe := (pkt s pid).pipe, template := aTemplate (stageZero (pkt s pid).acts),
    epoch := pktEpoch s pid, buckets := [], cands := [], setup := none }

section
variable {s : State} {h pid : Nat} {k : BitVec 384} {x : Hold} (hx : holdAt s h = some x) (hchain : x.chain = [pid])
  (hk : (pkt s pid).key = some k)
include hx hchain hk

theorem enterSetup_barred (hb : SetupBarred s pid k) : enterSetup h s =
    failChain (sliceOfHold h) (setupTemplate s pid) [pid]
      (count 0x4040 (sliceOfHold h) 3 (delHold h (setHold h (setupEntry s pid x) s))) := by
  obtain ⟨htcp, hsyn, hpick⟩ := hb
  unfold enterSetup
  simp only [hx, hchain, hk, Option.getD_some]
  rw [if_pos]
  · simp only [setupEntry, setupTemplate, hchain]
  · refine ⟨htcp, ?_, by rw [setupTemplate] at hpick; rw [hpick]; rfl⟩
    cases hg : segmentOf (pkt s pid) with
    | none => rfl
    | some g => rw [hg, Option.any_some] at hsyn; simp only [hsyn, Bool.not_false]

theorem enterSetup_unbarred (hb : ¬ SetupBarred s pid k) : enterSetup h s =
    match tpKind (setupTemplate s pid) with
    | 1 => setupHardware h (setupEntry s pid x).template (setupTemplate s pid) k pid (setHold h (setupEntry s pid x) s)
    | 2 => setupHardware h (setupEntry s pid x).template (setupTemplate s pid) k pid (setHold h (setupEntry s pid x) s)
    | 3 => setupHardware h (setupEntry s pid x).template (setupTemplate s pid) k pid (setHold h (setupEntry s pid x) s)
    | 4 => setupRoutine h (setupTemplate s pid) k pid (pktEpoch s pid) (setHold h (setupEntry s pid x) s)
    | _ => failChain (sliceOfHold h) (setupTemplate s pid) [pid]
        (count 0x4040 (sliceOfHold h) 2 (delHold h (setHold h (setupEntry s pid x) s))) := by
  unfold enterSetup
  simp only [hx, hchain, hk, Option.getD_some]
  rw [if_neg]
  · simp only [setupEntry, setupTemplate, hchain] <;> rfl
  · rintro ⟨htcp, hsyn, hpick⟩
    refine hb ⟨htcp, ?_, by rw [setupTemplate]; simpa using hpick⟩
    cases hg : segmentOf (pkt s pid) with
    | none => rfl
    | some g => rw [hg] at hsyn; rw [Option.any_some]; simpa only [Bool.not_eq_true'] using hsyn

end

/-- What is left where a fetch's entry goes and its one packet takes fail_action, with a count. -/
structure SetupRefused (s : State) (h pid i j : Nat) (t : State) : Prop where
  gone : holdAt t h = none
  others : ∀ i, i ≠ h → holdAt t i = holdAt s i
  mark : (pkt t pid).flow = failMark (setupTemplate s pid)
  records : t.flow.records = s.flow.records
  index : t.flow.index = s.flow.index
  lines : t.flow.lines = s.flow.lines
  hbm : t.hbm = s.hbm
  counted : ctrGet s (oa i (sliceOfHold h) j) + 1 < 2 ^ 48 →
    ctrGet t (oa i (sliceOfHold h) j) = ctrGet s (oa i (sliceOfHold h) j) + 1
  kept : ∀ j, j < 13 → ctrGet t (oa 0x4020 (sliceOfHold h) j) = ctrGet s (oa 0x4020 (sliceOfHold h) j)

section
variable {s : State} {h pid : Nat} (hh : h < 2 ^ 20) (hu : Unretired s pid) (hs : tsorted s.flow.holds = true)
include hh hu hs

theorem failChain_setupRefused {c : Nat} (hc : c < 13) (y : Hold) : SetupRefused s h pid 0x4040 c
    (failChain (sliceOfHold h) (setupTemplate s pid) [pid] (count 0x4040 (sliceOfHold h) c (delHold h (setHold h y s)))) := by
  have hn := sliceOfHold_lt hh
  have hq := quiet_count 0x4040 (sliceOfHold h) c (delHold h (setHold h y s))
  obtain ⟨hframe, hmark, hctr⟩ := failChain_one (setupTemplate s pid) hn
    (hu.congr (t := count 0x4040 (sliceOfHold h) c (delHold h (setHold h y s))) hq.path hq.ctl)
  have hflow := (congrArg State.flow hframe).trans hq.flow
  refine ⟨?_, fun i hi => ?_, hmark, ?_, ?_, ?_, (congrArg State.hbm hframe).trans hq.hbm, fun hlt => ?_, fun j hj => ?_⟩
  · exact (holdAt_of_flow hflow h).trans (holdAt_delHold_same (tsorted_setHold hs h y) h)
  · exact (holdAt_of_flow hflow i).trans ((holdAt_delHold_other hi _).trans (holdAt_setHold_other hi _ _))
  · rw [hflow]; rfl
  · rw [hflow]; rfl
  · rw [hflow]; rfl
  · exact (hctr _ _ ⟨.inr (.inl rfl), hc⟩).trans (ctrGet_count_same hlt)
  · refine (hctr _ _ ⟨.inl rfl, hj⟩).trans ?_
    exact ctrGet_count_other (by simp only [oa]; omega) (by simp only [oa]; omega) _

omit hh hu hs in
theorem InsertFailed.setupRefused {x : Hold} {cause : Nat} {t : State}
    (hf : InsertFailed (setHold h (setupEntry s pid x) s) h cause pid (setupEntry s pid x) t) :
    SetupRefused s h pid 0x4041 cause t := by
  have hflow : t.flow = (delHold h (setHold h (setupEntry s pid x) s)).flow := hf.flow
  refine ⟨hf.gone, fun i hi => (hf.others i hi).trans (holdAt_setHold_other hi _ _), hf.mark, ?_, ?_, ?_, hf.hbm, hf.counted,
    fun j hj => hf.kept _ _ ⟨.inl rfl, hj⟩ (by decide)⟩
  · rw [hflow]; rfl
  · rw [hflow]; rfl
  · rw [hflow]; rfl

end

/-! ### Drawing a record (R172) -/

/-- The draw takes the first drawn index, where it is below the limit and reachable. -/
theorem drawRecord_first {s : State} {n m r : Nat} {rest : List Nat} (hd : tget [] s.flow.drawn n = r :: rest)
    (hr : r < drawLimit s) (hg : recGone s r = false) :
    drawRecord n (m + 1) s = some (r, setFlow s { s.flow with drawn := tset [] s.flow.drawn n rest }) := by
  rw [drawRecord]
  simp only [hd]
  rw [if_neg]
  simp only [hg, Bool.false_eq_true, or_false, Nat.not_le]
  exact hr

theorem chainPop_none {s : State} {k : Nat} (hc : tget [] s.flow.chains k = [])
    (ht : chainSize (drawLimit s) k ≤ tget 0 s.flow.taken k) : chainPop k s = none := by
  simp only [chainPop, hc, List.find?_nil]
  exact if_neg (Nat.not_lt.mpr ht)

/-- Where every chain is empty a refill draws nothing. -/
theorem refill_none {s : State} (he : ∀ j, j < 16 → chainPop j s = none) (m k idle : Nat) : refill m k idle [] s = ([], s) := by
  induction m generalizing k idle with
  | zero => rfl
  | succ m ih =>
    rw [refill]
    split
    · rfl
    · rw [he _ (Nat.mod_lt _ (by decide))]
      exact ih _ _

theorem drawRecord_none {s : State} {n m : Nat} (hd : tget [] s.flow.drawn n = []) (he : ∀ j, j < 16 → chainPop j s = none) :
    drawRecord n (m + 1) s = none := by
  rw [drawRecord]
  simp only [hd, refill_none he, List.isEmpty_nil, if_true]

end Sys2Proof.Machine
end

section
namespace Sys2Proof.Machine

/-! ### Items handed to the task scheduler (R223 to R225) -/

theorem obsRoll_eq (s : State) : ∃ w l o, obsRoll s = setAw s { s.aw with obsWin := w, obsLast := l, obsNow := o } := by
  simp only [obsRoll]
  split
  · exact ⟨_, _, _, rfl⟩
  · exact ⟨_, _, _, rfl⟩

theorem obsMax_eq (a v : Nat) (s : State) : ∃ w l o, obsMax a v s = setAw s { s.aw with obsWin := w, obsLast := l, obsNow := o } := by
  obtain ⟨w, l, o, h⟩ := obsRoll_eq s
  simp only [obsMax, h]
  exact ⟨_, _, _, rfl⟩

/-- Replacing what waits in a class changes the scheduler alone, and of its lists that of the class. -/
theorem setReady_eq (s : State) (k : Nat) (l : List Item) : ∃ w z o, setReady s k l =
    setAw s { s.aw with ready := tset [] s.aw.ready k l, obsWin := w, obsLast := z, obsNow := o } := by
  obtain ⟨w, z, o, h⟩ := obsRoll_eq s
  simp only [setReady, h, depthNote]
  obtain ⟨w', z', o', h'⟩ := obsMax_eq (oa 0x4811 k 1) (classDepth (setAw (setAw s { s.aw with obsWin := w, obsLast := z, obsNow := o })
    { s.aw with ready := tset [] s.aw.ready k l, obsWin := w, obsLast := z, obsNow := o }) k)
    (setAw (setAw s { s.aw with obsWin := w, obsLast := z, obsNow := o })
      { s.aw with ready := tset [] s.aw.ready k l, obsWin := w, obsLast := z, obsNow := o })
  refine ⟨w', z', o', ?_⟩
  simp only [setAw_aw] at h' ⊢
  rw [h']
  rfl

/-- An item that its class takes stands at the end of its class; else only the scheduler and counters change. -/
theorem submitItem_taken {s : State} {i : Item} (h : classRefuses s i.cls = false) : ∃ q c w t,
    submitItem i s = (true, t) ∧ readyItems t i.cls = readyItems s i.cls ++ [{ i with dseq := q, created := c, since := w }] ∧
      t = { s with aw := t.aw, cnt := { s.cnt with ctr := t.cnt.ctr } } ∧
      ∀ b, b < 0x4811 * 2 ^ 20 → ctrGet t b = ctrGet s b := by
  simp only [submitItem, h, Bool.false_eq_true, if_false]
  generalize hs1 : (if i.basis = 0 then s else setDomain s i _) = s1
  have hs1' : s1 = { s with aw := { s.aw with domains := s1.aw.domains } } := by
    rw [← hs1]; split <;> rfl
  obtain ⟨w, z, o, hset⟩ := setReady_eq s1 i.cls (readyItems s1 i.cls ++ [
    { i with dseq := if i.basis = 0 then 0 else (domainOf s i).issue, created := counterNs s % 2 ^ 32, since := raw s }])
  refine ⟨if i.basis = 0 then 0 else (domainOf s i).issue, counterNs s % 2 ^ 32, raw s, _, rfl, ?_, ?_, fun b hb => ?_⟩
  · rw [readyItems, count_eq]
    show tget [] (setReady s1 i.cls _).aw.ready i.cls = _
    rw [hset, setAw_aw, tget_tset_ne_default (by simp), readyItems, hs1']
    rfl
  · rw [count_eq, hset, hs1']; rfl
  · rw [ctrGet_count_other (by simp only [oa]; omega) (by omega), hset, hs1']; rfl

/-! ### The image that a template gives (Table 6-2, step 1) -/

/-- What the setup engine writes into every record of a template, whatever its kind. -/
structure TemplateImage (s : State) (n tn : Nat) (T : BitVec 512) (k : BitVec 384) (img : FlowRec) : Prop where
  key : img.key = k
  first : cnFirst img.cnt = recordMs s
  last : cnLast img.cnt = recordMs s
  telemetry : cnTelemetry img.cnt = tpTelemetry T
  mirror : cnMirror img.cnt = tpMirror T
  aclass : cnClass img.cnt = tpClassNew T
  state : bf img.st 127 124 = 2
  fwd : stFwd img.st = 0
  rev : stRev img.st = 0
  tclass : stClass img.st = tpClassNew T
  template : stTemplate img.st = tn
  drop : stDrop img.st = tpDrop T
  pinned : stPinned img.st = tpPinned T
  reborn : stReborn img.st = isReborn s n k
  nhRev : acNhRev img.act = tpNhRev T
  editFwd : acEditFwd img.act = tpEditFwd T
  editRev : acEditRev img.act = tpEditRev T
  meter : acMeter img.act = tpMeter T

section
variable {s : State} {n tn : Nat} {T : BitVec 512} {k : BitVec 384}

theorem templateImage_newRecord (htn : tn < 2 ^ 8) : TemplateImage s n tn T k (newRecord s n tn T k) := by
  obtain ⟨hstate, hfwd, hrev, hclass, htemplate, hdrop, hpinned, hreborn, -, -⟩ := newRecord_st s n tn T k htn
  obtain ⟨hfirst, hlast, htelemetry, hmirror, haclass⟩ := newRecord_cnt s n tn T k
  obtain ⟨-, hnhRev, heditFwd, heditRev, hmeter⟩ := newRecord_act s n tn T k
  exact ⟨rfl, hfirst, hlast, htelemetry, hmirror, haclass, hstate, hfwd, hrev, hclass, htemplate, hdrop, hpinned, hreborn, hnhRev,
    heditFwd, heditRev, hmeter⟩

/-- A next hop of its own leaves the rest of an image. -/
theorem TemplateImage.withNextHop {img : FlowRec} (h : TemplateImage s n tn T k img) (nh : Nat) :
    TemplateImage s n tn T k { img with act := putBf img.act 255 232 nh } :=
  { h with
    nhRev := (bf_putBf_apart _ _ (by decide) (by decide) (by decide)).trans h.nhRev
    editFwd := (bf_putBf_apart _ _ (by decide) (by decide) (by decide)).trans h.editFwd
    editRev := (bf_putBf_apart _ _ (by decide) (by decide) (by decide)).trans h.editRev
    meter := (bf_putBf_apart _ _ (by decide) (by decide) (by decide)).trans h.meter }

/-- A translation leaves the action word above the translated address's index. -/
theorem bf_act_snatRecord (img : FlowRec) (a addr q : Nat) {hi lo : Nat} (hlo : 164 ≤ lo) (hhi : hi < 256) :
    bf (snatRecord img a addr q).act hi lo = bf img.act hi lo := by
  simp only [snatRecord]
  rw [bf_putBf_apart _ _ (by decide) hhi (by omega), bf_putBf_apart _ _ (by decide) hhi (by omega),
    bf_putBf_apart _ _ (by decide) hhi (by omega)]

/-- Of the state word it sets the flag of a translation alone. -/
theorem bf_st_snatRecord (img : FlowRec) (a addr q : Nat) {hi lo : Nat} (hlo : 110 < lo ∨ hi < 110) (hhi : hi < 128) :
    bf (snatRecord img a addr q).st hi lo = bf img.st hi lo := by
  simp only [snatRecord]
  rw [bf_putBf_apart _ _ (Nat.le_refl _) hhi (by omega)]

theorem bit_st_snatRecord (img : FlowRec) (a addr q : Nat) {i : Nat} (hi : i ≠ 110) (hlt : i < 128) :
    bit (snatRecord img a addr q).st i = bit img.st i := by
  rw [bit_eq_decide_bf, bf_st_snatRecord _ _ _ _ (by omega) hlt, bit_eq_decide_bf]

/-- A translation leaves the rest of an image. -/
theorem TemplateImage.snat {img : FlowRec} (h : TemplateImage s n tn T k img) (a addr q : Nat) :
    TemplateImage s n tn T k (snatRecord img a addr q) where
  key := by rw [snatRecord]; exact h.key
  first := by rw [snatRecord]; exact h.first
  last := by rw [snatRecord]; exact h.last
  telemetry := by rw [snatRecord]; exact h.telemetry
  mirror := by rw [snatRecord]; exact h.mirror
  aclass := by rw [snatRecord]; exact h.aclass
  state := by rw [bf_st_snatRecord _ _ _ _ (by decide) (by decide), h.state]
  fwd := by rw [stFwd, bf_st_snatRecord _ _ _ _ (by decide) (by decide), ← stFwd, h.fwd]
  rev := by rw [stRev, bf_st_snatRecord _ _ _ _ (by decide) (by decide), ← stRev, h.rev]
  tclass := by rw [stClass, bf_st_snatRecord _ _ _ _ (by decide) (by decide), ← stClass, h.tclass]
  template := by rw [stTemplate, bf_st_snatRecord _ _ _ _ (by decide) (by decide), ← stTemplate, h.template]
  drop := by rw [stDrop, bit_st_snatRecord _ _ _ _ (by decide) (by decide), ← stDrop, h.drop]
  pinned := by rw [stPinned, bit_st_snatRecord _ _ _ _ (by decide) (by decide), ← stPinned, h.pinned]
  reborn := by rw [stReborn, bit_st_snatRecord _ _ _ _ (by decide) (by decide), ← stReborn, h.reborn]
  nhRev := by rw [acNhRev, bf_act_snatRecord _ _ _ _ (by decide) (by decide), ← acNhRev, h.nhRev]
  editFwd := by rw [acEditFwd, bf_act_snatRecord _ _ _ _ (by decide) (by decide), ← acEditFwd, h.editFwd]
  editRev := by rw [acEditRev, bf_act_snatRecord _ _ _ _ (by decide) (by decide), ← acEditRev, h.editRev]
  meter := by rw [acMeter, bf_act_snatRecord _ _ _ _ (by decide) (by decide), ← acMeter, h.meter]

end

/-- The translation that an SNAT record carries (R170). -/
theorem snatRecord_fields (x : FlowRec) (a addr q : Nat) (ha : a < 2 ^ 20) (hq : q < 2 ^ 16) (haddr : addr < 2 ^ 128) :
    let y := snatRecord x a addr q
    stTrans y.st = true ∧ stXlateDst y.st = stXlateDst x.st ∧ acNatIndex y.act = a ∧ acNatPort y.act = q ∧
      acNatAddr y.act = addr := by
  intro y
  refine ⟨?_, ?_, ?_, ?_, ?_⟩
  · simp only [stTrans, bit_eq_decide_bf, y, snatRecord]
    rw [bf_putBf_same _ _ (by decide) (by decide)]; rfl
  · simp only [stXlateDst, bit_eq_decide_bf, y, snatRecord]
    rw [bf_putBf_apart _ _ (by decide) (by decide) (by decide)]
  · simp only [acNatIndex, y, snatRecord]
    rw [bf_putBf_apart _ _ (by decide) (by decide) (by decide), bf_putBf_apart _ _ (by decide) (by decide) (by decide),
      bf_putBf_same _ _ (by decide) (by decide)]
    exact Nat.mod_eq_of_lt ha
  · simp only [acNatPort, y, snatRecord]
    rw [bf_putBf_apart _ _ (by decide) (by decide) (by decide), bf_putBf_same _ _ (by decide) (by decide)]
    exact Nat.mod_eq_of_lt hq
  · simp only [acNatAddr, y, snatRecord]
    rw [bf_putBf_same _ _ (by decide) (by decide)]
    exact Nat.mod_eq_of_lt haddr

/-! ### The search for a port (R170) -/

theorem lbSearch_congr {s t : State} (hf : t.fwd = s.fwd) (tb : Nat) (new : Bool) (m i : Nat) :
    lbSearch t tb new m i = lbSearch s tb new m i := by
  induction m generalizing i with
  | zero => rfl
  | succ m ih => simp only [lbSearch, ih, show lbSlotEntry t = lbSlotEntry s by unfold lbSlotEntry; rw [hf],
      show beEntry t = beEntry s by unfold beEntry; rw [hf]]

/-- The search rests on the store, and on which reverse keys have a hold entry. -/
theorem snatSearch_congr {s t : State} (h : SameStore s t) {n : Nat}
    (hh : ∀ k, (holdFor t n k).isSome = (holdFor s n k).isSome) (k : BitVec 384) (addr lo size h2 m i reads : Nat) :
    snatSearch t n k addr lo size h2 m i reads = snatSearch s n k addr lo size h2 m i reads := by
  induction m generalizing i reads with
  | zero => rfl
  | succ m ih =>
    cases reads <;>
      simp only [snatSearch, ih, h.reverseKey, h.homeSlice, h.layouts, funext (h.bucketGone _), h.idxFind, hh]

/-- A port that the search takes gives a reverse key that shares the slice and is unused, and lies in the range. -/
theorem snatSearch_port {s : State} {n addr lo size h2 m i reads q : Nat} {k rk : BitVec 384}
    (h : snatSearch s n k addr lo size h2 m i reads = .port q rk) :
    rk = reverseKey s k false addr q ∧ homeSlice s rk = n ∧ idxFind s rk = none ∧ holdFor s n rk = none ∧ lo ≤ q ∧
      q < lo + max 1 size := by
  induction m generalizing i reads with
  | zero => cases h
  | succ m ih =>
    simp only [snatSearch] at h
    split at h
    · exact ih h
    case isFalse hhome =>
      split at h
      · cases h
      · split at h
        · cases h
        · split at h
          · exact ih h
          case isFalse hfree =>
            cases h
            simp only [Bool.or_eq_true, not_or, Bool.not_eq_true, Option.isSome_eq_false_iff, Option.isNone_iff_eq_none] at hfree
            have hlt := Nat.mod_lt (h2 % 65536 + i) (show 0 < max 1 size by omega)
            exact ⟨rfl, Decidable.of_not_not hhome, hfree.1, hfree.2, Nat.le_add_right .., by omega⟩

end Sys2Proof.Machine
end

section
namespace Sys2Proof.Machine

/-! ### Which keys have a hold entry (R151) -/

/-- Replacing a listed row leaves every view of the table that the old and the new row share. -/
theorem map_tput_of_tfind {α β : Type} {f : Nat × α → β} {b n : Nat} {t : Tbl α} {x y : α} (hs : tsortedFrom b t = true)
    (hx : tfind t n = some x) (hf : f (n, y) = f (n, x)) : (tput t n y).map f = t.map f := by
  induction t generalizing b with
  | nil => cases hx
  | cons r t ih =>
    obtain ⟨k, v⟩ := r
    simp only [tsortedFrom, Bool.and_eq_true] at hs
    simp only [tfind] at hx
    by_cases hk : k = n
    · subst hk
      rw [if_pos rfl] at hx
      cases hx
      simp [tput, hf]
    · rw [if_neg hk] at hx
      have hlt := le_of_mem_tsortedFrom hs.2 (mem_of_tfind_eq_some hx)
      rw [tput, if_neg (by dsimp only at hlt; omega), if_neg (Ne.symm hk), List.map_cons, List.map_cons, ih hs.2 hx]

/-- The numbers and keys of the hold entries. -/
def holdKeys (s : State) : List (Nat × BitVec 384) := s.flow.holds.map fun r => (r.1, r.2.key)

theorem holdKeys_setHold {s : State} {h : Nat} {x y : Hold} (hs : tsorted s.flow.holds = true) (hx : holdAt s h = some x)
    (hk : y.key = x.key) : holdKeys (setHold h y s) = holdKeys s :=
  map_tput_of_tfind hs hx (by rw [hk])

theorem holdFor_eq (s : State) (n : Nat) (k : BitVec 384) : holdFor s n k =
    (((holdKeys s).filter fun r => r.1 / 65536 == n).find? fun r => bareKey r.2 == bareKey k).map (·.1) := by
  rw [holdFor, holdsOf, holdKeys, List.filter_map, List.find?_map, Option.map_map]
  rfl

theorem freeHold_eq (s : State) (n : Nat) : freeHold s n =
    (let l := ((holdKeys s).filter fun r => r.1 / 65536 == n).map (·.1)
     if 65536 ≤ l.length then none else some (lowestGap (holdKey n 0) l)) := by
  rw [freeHold, holdsOf, holdKeys, List.filter_map, List.map_map]
  rfl

theorem holdFor_congr {s t : State} (h : holdKeys t = holdKeys s) (n : Nat) (k : BitVec 384) : holdFor t n k = holdFor s n k := by
  rw [holdFor_eq, h, holdFor_eq]

theorem freeHold_congr {s t : State} (h : holdKeys t = holdKeys s) (n : Nat) : freeHold t n = freeHold s n := by
  rw [freeHold_eq, h, freeHold_eq]

/-- The lowest gap of a rising list is no number of it. -/
theorem lowestGap_notMem {i : Nat} {l : List Nat} (hl : l.Pairwise (· < ·)) (hi : ∀ k ∈ l, i ≤ k) :
    i ≤ lowestGap i l ∧ lowestGap i l ∉ l := by
  induction l generalizing i with
  | nil => exact ⟨Nat.le_refl _, List.not_mem_nil⟩
  | cons k t ih =>
    obtain ⟨hkt, ht⟩ := List.pairwise_cons.mp hl
    rw [lowestGap]
    by_cases hk : k = i
    · subst hk
      obtain ⟨hge, hnot⟩ := ih (i := k + 1) ht hkt
      rw [if_pos rfl]
      exact ⟨by omega, by simp only [List.mem_cons, hnot, or_false]; omega⟩
    · rw [if_neg hk]
      have hik : i < k := lt_of_le_of_ne (hi k (by simp)) (Ne.symm hk)
      refine ⟨Nat.le_refl _, fun hmem => ?_⟩
      rcases List.mem_cons.mp hmem with rfl | hmem
      · exact absurd hik (Nat.lt_irrefl _)
      · exact absurd (hkt i hmem) (by omega)

theorem pairwise_of_tsortedFrom {α : Type} {b : Nat} {t : Tbl α} (h : tsortedFrom b t = true) :
    (t.map (·.1)).Pairwise (· < ·) := by
  induction t generalizing b with
  | nil => exact List.Pairwise.nil
  | cons r t ih =>
    obtain ⟨k, v⟩ := r
    simp only [tsortedFrom, Bool.and_eq_true] at h
    rw [List.map_cons, List.pairwise_cons]
    refine ⟨fun j hj => ?_, ih h.2⟩
    obtain ⟨r, hr, rfl⟩ := List.mem_map.mp hj
    exact le_of_mem_tsortedFrom h.2 hr

theorem mem_holds_of_holdAt {s : State} {h : Nat} {x : Hold} (hx : holdAt s h = some x) : (h, x) ∈ s.flow.holds :=
  mem_of_tfind_eq_some hx

/-- A free entry is none that stands, in its slice's part of the table. -/
theorem freeHold_spec {s : State} {n o : Nat} (hs : tsorted s.flow.holds = true) (ho : freeHold s n = some o) :
    65536 * n ≤ o ∧ ∀ h x, holdAt s h = some x → sliceOfHold h = n → h ≠ o := by
  simp only [freeHold] at ho
  split at ho
  · cases ho
  · have hsub : ((holdsOf s n).map (·.1)).Pairwise (· < ·) :=
      (pairwise_of_tsortedFrom hs).sublist (List.filter_sublist.map _)
    have hge : ∀ k ∈ (holdsOf s n).map (·.1), holdKey n 0 ≤ k := by
      intro k hk
      obtain ⟨r, hr, rfl⟩ := List.mem_map.mp hk
      have hn : r.1 / 65536 = n := by simpa using (List.mem_filter.mp hr).2
      unfold holdKey; omega
    obtain ⟨hle, hnot⟩ := lowestGap_notMem hsub hge
    cases ho
    refine ⟨hle, fun h x hx hsl heq => hnot (heq ▸ List.mem_map.mpr ⟨(h, x), ?_, rfl⟩)⟩
    exact List.mem_filter.mpr ⟨mem_holds_of_holdAt hx, by simpa [sliceOfHold] using hsl⟩

end Sys2Proof.Machine
end

section
namespace Sys2Proof.Machine

/-! ### What the setup engine makes of an entry (Table 6-2, steps 1 to 3) -/

/-- The state once slice n has drawn the first of its indexes. -/
def afterDraw (n : Nat) (rest : List Nat) (s : State) : State :=
  setFlow s { s.flow with drawn := tset [] s.flow.drawn n rest }

theorem sameStore_afterDraw (n : Nat) (rest : List Nat) (s : State) : SameStore s (afterDraw n rest s) :=
  ⟨⟨rfl, rfl, rfl⟩, rfl, rfl, rfl, fun _ => rfl, rfl, rfl, rfl, rfl, rfl, rfl⟩

/-- A setup of a record whose writes are not issued. -/
def unwritten (r : Nat) (img : FlowRec) (rk : Option (BitVec 384)) : Setup :=
  { record := r, image := img, rkey := rk, written := false }

section
variable {z : State} {h tn pid r : Nat} {T : BitVec 512} {k : BitVec 384} {y : Hold} {rest : List Nat} (hy : holdAt z h = some y)
  (hd : tget [] z.flow.drawn (sliceOfHold h) = r :: rest) (hr : r < drawLimit z) (hg : recGone z r = false)

theorem setupHardware_noRecord (hn : drawRecord (sliceOfHold h) (drawFuel z) z = none) :
    setupHardware h tn T k pid z = insertFail h 2 z := by
  simp only [setupHardware, hn]

include hd hr hg in
theorem drawRecord_afterDraw : drawRecord (sliceOfHold h) (drawFuel z) z = some (r, afterDraw (sliceOfHold h) rest z) :=
  drawRecord_first hd hr hg

include hy hd hr hg

theorem setupHardware_track (hk : tpKind T = 1) : let z2 := afterDraw (sliceOfHold h) rest z
    setupHardware h tn T k pid z =
      setHold h { y with setup := some (unwritten r (newRecord z2 (sliceOfHold h) tn T k) none) } z2 := by
  simp only [setupHardware, drawRecord_afterDraw hd hr hg, hy, hk]
  rfl

theorem setupHardware_backend {nh : Nat} (hk : tpKind T = 2) (hv : svValid (svEntry z (tpService T)) = true)
    (hb : lbSearch z (svTable (svEntry z (tpService T))) true 8 (keyHash z 2 k % 65537) = some nh) :
    let z2 := afterDraw (sliceOfHold h) rest z
    let img := newRecord z2 (sliceOfHold h) tn T k
    setupHardware h tn T k pid z =
      setHold h { y with setup := some (unwritten r { img with act := putBf img.act 255 232 nh } none) } z2 := by
  have hb' : lbSearch (afterDraw (sliceOfHold h) rest z) (svTable (svEntry (afterDraw (sliceOfHold h) rest z) (tpService T))) true 8
      (keyHash (afterDraw (sliceOfHold h) rest z) 2 k % 65537) = some nh := (lbSearch_congr rfl ..).trans hb
  have hv' : svValid (svEntry (afterDraw (sliceOfHold h) rest z) (tpService T)) = true := hv
  simp only [setupHardware, drawRecord_afterDraw hd hr hg, hy, hk, hv', if_true, hb']
  rfl

theorem setupHardware_noBackend (hk : tpKind T = 2) (hv : svValid (svEntry z (tpService T)) = true)
    (hb : lbSearch z (svTable (svEntry z (tpService T))) true 8 (keyHash z 2 k % 65537) = none) :
    let z2 := afterDraw (sliceOfHold h) rest z
    setupHardware h tn T k pid z = fallBack h (svFallback (svEntry z (tpService T)))
      (chainPush r (noBackend (groupOf (pkt z2 pid).pipe) (tpService T) z2)) := by
  have hv' : svValid (svEntry (afterDraw (sliceOfHold h) rest z) (tpService T)) = true := hv
  have hb' : lbSearch (afterDraw (sliceOfHold h) rest z) (svTable (svEntry (afterDraw (sliceOfHold h) rest z) (tpService T))) true 8
      (keyHash (afterDraw (sliceOfHold h) rest z) 2 k % 65537) = none := (lbSearch_congr rfl ..).trans hb
  simp only [setupHardware, drawRecord_afterDraw hd hr hg, hy, hk, hv', if_true, hb']
  rfl

theorem setupHardware_snat {a addr q o : Nat} {rk : BitVec 384} (hk : tpKind T = 3)
    (hp : snatPick (afterDraw (sliceOfHold h) rest z) (sliceOfHold h) T k = (a, addr, .port q rk))
    (ho : freeHold z (sliceOfHold h) = some o) : let z2 := afterDraw (sliceOfHold h) rest z
    setupHardware h tn T k pid z =
      setHold o { emptyHold rk 3 with
          pipe := y.pipe, template := y.template, epoch := y.epoch, since := raw z2, reverse := true, other := some h }
        (setHold h { y with
          setup := some (unwritten r (snatRecord (newRecord z2 (sliceOfHold h) tn T k) a addr q) (some rk)), other := some o } z2) := by
  have ho' : freeHold (afterDraw (sliceOfHold h) rest z) (sliceOfHold h) = some o := ho
  simp only [setupHardware, drawRecord_afterDraw hd hr hg, hy, hk, hp, ho']
  rfl

end

/-- What a finished step 3 of Table 6-2 leaves: a setup u of record r in the image of the template, and the store untouched. -/
structure SetupBuilt (s : State) (h pid : Nat) (k : BitVec 384) (r : Nat) (u : Setup) (t : State) : Prop where
  record : u.record = r
  unwritten : u.written = false
  image : TemplateImage s (sliceOfHold h) (aTemplate (stageZero (pkt s pid).acts)) (setupTemplate s pid) k u.image
  records : t.flow.records = s.flow.records
  index : t.flow.index = s.flow.index
  lines : t.flow.lines = s.flow.lines
  cnt : t.cnt = s.cnt

section
variable {s : State} {h pid r : Nat} {k : BitVec 384} {x : Hold} {rest : List Nat}
  (hx : holdAt s h = some x) (hchain : x.chain = [pid]) (hk : (pkt s pid).key = some k) (hb : ¬ SetupBarred s pid k)
  (hd : tget [] s.flow.drawn (sliceOfHold h) = r :: rest) (hr : r < drawLimit s) (hg : recGone s r = false)

/-- The state in which the setup engine has drawn for an entry that entered SETUP. -/
def setupDrawn (s : State) (h pid : Nat) (x : Hold) (rest : List Nat) : State :=
  afterDraw (sliceOfHold h) rest (setHold h (setupEntry s pid x) s)

theorem sameStore_setupDrawn : SameStore s (setupDrawn s h pid x rest) :=
  (sameStore_setHold ..).trans (sameStore_afterDraw ..)

theorem aTemplate_lt (w : BitVec 128) : aTemplate w < 2 ^ 8 := bf_lt_two_pow w 97 90

/-- The record that the template of a packet's flow gives. -/
def setupImage (s : State) (h pid : Nat) (k : BitVec 384) : FlowRec :=
  newRecord s (sliceOfHold h) (aTemplate (stageZero (pkt s pid).acts)) (setupTemplate s pid) k

/-- The entry of the reverse key of a flow that enters SETUP as entry h. -/
def reverseEntry (s : State) (h pid : Nat) (rk : BitVec 384) : Hold :=
  { emptyHold rk 3 with
    pipe := (pkt s pid).pipe, template := aTemplate (stageZero (pkt s pid).acts), epoch := pktEpoch s pid, since := raw s,
    reverse := true, other := some h }

/-- The image that the engine builds is that of the state before. -/
theorem newRecord_setupDrawn : newRecord (setupDrawn s h pid x rest) (sliceOfHold h) (setupEntry s pid x).template
      (setupTemplate s pid) k = setupImage s h pid k :=
  newRecord_congr sameStore_setupDrawn rfl rfl ..

theorem templateImage_setup : TemplateImage s (sliceOfHold h) (aTemplate (stageZero (pkt s pid).acts)) (setupTemplate s pid) k
    (setupImage s h pid k) :=
  templateImage_newRecord (aTemplate_lt _)

theorem setupBuilt_setHold {img : FlowRec} (hi : TemplateImage s (sliceOfHold h) (aTemplate (stageZero (pkt s pid).acts))
    (setupTemplate s pid) k img) (rk : Option (BitVec 384)) (y : Hold) :
    SetupBuilt s h pid k r (unwritten r img rk) (setHold h y (setupDrawn s h pid x rest)) :=
  ⟨rfl, rfl, hi, rfl, rfl, rfl, rfl⟩

theorem SetupBuilt.setHold {u : Setup} {t : State} (hb : SetupBuilt s h pid k r u t) (o : Nat) (y : Hold) :
    SetupBuilt s h pid k r u (setHold o y t) :=
  ⟨hb.record, hb.unwritten, hb.image, hb.records, hb.index, hb.lines, hb.cnt⟩

include hx hchain hk hb hd hr hg

theorem enterSetup_track (hkind : tpKind (setupTemplate s pid) = 1) : ∃ u, SetupBuilt s h pid k r u (enterSetup h s) ∧
    u.rkey = none ∧ acNhFwd u.image.act = tpNhFwd (setupTemplate s pid) ∧ stTrans u.image.st = false ∧
    holdAt (enterSetup h s) h = some { setupEntry s pid x with setup := some u } ∧
    (∀ i, i ≠ h → holdAt (enterSetup h s) i = holdAt s i) ∧
    (enterSetup h s).flow.drawn = tset [] s.flow.drawn (sliceOfHold h) rest := by
  have heq : enterSetup h s = setHold h { setupEntry s pid x with setup := some (unwritten r (setupImage s h pid k) none) }
      (setupDrawn s h pid x rest) := by
    rw [enterSetup_unbarred hx hchain hk hb, ← newRecord_setupDrawn]
    simp only [hkind]
    exact setupHardware_track (holdAt_setHold_same ..) hd hr hg hkind
  obtain ⟨-, -, -, -, -, -, -, -, htrans, -⟩ := newRecord_st s (sliceOfHold h) (aTemplate (stageZero (pkt s pid).acts))
    (setupTemplate s pid) k (aTemplate_lt _)
  obtain ⟨hnh, -⟩ := newRecord_act s (sliceOfHold h) (aTemplate (stageZero (pkt s pid).acts)) (setupTemplate s pid) k
  rw [heq]
  exact ⟨unwritten r (setupImage s h pid k) none, setupBuilt_setHold templateImage_setup none _, rfl, hnh, htrans,
    holdAt_setHold_same .., fun i hi => (holdAt_setHold_other hi ..).trans (holdAt_setHold_other hi ..), rfl⟩

/-- A setup whose service has a backend takes the backend's next hop. -/
theorem enterSetup_backend {nh : Nat} (hkind : tpKind (setupTemplate s pid) = 2)
    (hv : svValid (svEntry s (tpService (setupTemplate s pid))) = true)
    (hlb : lbSearch s (svTable (svEntry s (tpService (setupTemplate s pid)))) true 8 (keyHash s 2 k % 65537) = some nh) :
    ∃ u, SetupBuilt s h pid k r u (enterSetup h s) ∧ acNhFwd u.image.act = nh % 2 ^ 24 ∧
      holdAt (enterSetup h s) h = some { setupEntry s pid x with setup := some u } := by
  have heq : enterSetup h s = setHold h { setupEntry s pid x with
      setup := some (unwritten r { setupImage s h pid k with act := putBf (setupImage s h pid k).act 255 232 nh } none) }
      (setupDrawn s h pid x rest) := by
    rw [enterSetup_unbarred hx hchain hk hb, ← newRecord_setupDrawn]
    simp only [hkind]
    exact setupHardware_backend (holdAt_setHold_same ..) hd hr hg hkind hv ((lbSearch_congr rfl ..).trans hlb)
  have hnh : bf (putBf (setupImage s h pid k).act 255 232 nh) 255 232 = nh % 2 ^ 24 :=
    bf_putBf_same _ _ (by decide) (by decide)
  rw [heq]
  exact ⟨_, setupBuilt_setHold (templateImage_setup.withNextHop nh) none _, hnh, holdAt_setHold_same ..⟩

/-- Where the service has no backend, the chain goes by the fallback and the index returns to its chain. -/
theorem enterSetup_noBackend (hkind : tpKind (setupTemplate s pid) = 2)
    (hv : svValid (svEntry s (tpService (setupTemplate s pid))) = true)
    (hlb : lbSearch s (svTable (svEntry s (tpService (setupTemplate s pid)))) true 8 (keyHash s 2 k % 65537) = none) :
    ∃ t, Quiet (setupDrawn s h pid x rest) t ∧
      enterSetup h s = fallBack h (svFallback (svEntry s (tpService (setupTemplate s pid)))) (chainPush r t) := by
  refine ⟨_, quiet_noBackend (groupOf (pkt s pid).pipe) (tpService (setupTemplate s pid)) _, ?_⟩
  rw [enterSetup_unbarred hx hchain hk hb]
  simp only [hkind]
  exact setupHardware_noBackend (holdAt_setHold_same ..) hd hr hg hkind hv ((lbSearch_congr rfl ..).trans hlb)

theorem enterSetup_fallBack (hu : Unretired s pid) (hother : x.other = none) (hs : tsorted s.flow.holds = true)
    (hkind : tpKind (setupTemplate s pid) = 2) (hv : svValid (svEntry s (tpService (setupTemplate s pid))) = true)
    (hlb : lbSearch s (svTable (svEntry s (tpService (setupTemplate s pid)))) true 8 (keyHash s 2 k % 65537) = none) :
    holdAt (enterSetup h s) h = none ∧ (pkt (enterSetup h s) pid).flow = 2 ∧
      (pkt (enterSetup h s) pid).fall = some (svFallback (svEntry s (tpService (setupTemplate s pid)))) ∧
      tget [] (enterSetup h s).flow.chains (r % 16) = r :: tget [] s.flow.chains (r % 16) := by
  obtain ⟨w, hq, heq⟩ := enterSetup_noBackend hx hchain hk hb hd hr hg hkind hv hlb
  generalize svFallback (svEntry s (tpService (setupTemplate s pid))) = fall at heq ⊢
  have hholds : (chainPush r w).flow.holds = tput s.flow.holds h (setupEntry s pid x) := congrArg Flow.holds hq.flow
  have hw : holdAt (chainPush r w) h = some (setupEntry s pid x) := by
    rw [holdAt, hholds]; exact tfind_tput_same ..
  have hdel : delBoth h (chainPush r w) = delHold h (chainPush r w) := by
    simp only [delBoth, hw, Option.bind_some, setupEntry, hother]
  have hboth : bothChains h (chainPush r w) = [pid] := by
    simp only [bothChains, hw, setupEntry, hother, hchain, Option.bind_none, Option.map_none, Option.getD_none, List.append_nil]
  have hu' : Unretired (delHold h (chainPush r w)) pid := hu.congr hq.path hq.ctl
  have hrel : enterSetup h s = modPkt pid (fun p => { p with flow := 2, fall := some fall }) (delHold h (chainPush r w)) := by
    rw [heq, fallBack, hboth, hdel]
    simp only [releaseAll, List.foldl_cons, List.foldl_nil, hu'.1, Bool.false_eq_true, if_false]
    exact (hu'.modPkt rfl rfl).release
  rw [hrel]
  refine ⟨?_, by rw [pkt_modPkt_same], by rw [pkt_modPkt_same], ?_⟩
  · show holdAt (delHold h (chainPush r w)) h = none
    exact holdAt_delHold_same (by rw [hholds]; exact tsortedFrom_tput hs (Nat.zero_le _) _) h
  · show tget [] (chainPush r w).flow.chains (r % 16) = _
    simp only [chainPush, setFlow_flow]
    rw [tget_tset_ne_default (by simp), hq.flow]
    rfl

theorem enterSetup_snat {a addr q o : Nat} {rk : BitVec 384} (hs : tsorted s.flow.holds = true) (hq : q < 2 ^ 16)
    (hkind : tpKind (setupTemplate s pid) = 3)
    (hp : snatPick s (sliceOfHold h) (setupTemplate s pid) k = (a, addr, .port q rk))
    (ho : freeHold s (sliceOfHold h) = some o) : ∃ u, SetupBuilt s h pid k r u (enterSetup h s) ∧
      u.rkey = some rk ∧ stTrans u.image.st = true ∧ stXlateDst u.image.st = false ∧ acNatIndex u.image.act = a ∧
      acNatPort u.image.act = q ∧ acNatAddr u.image.act = addr ∧
      holdAt (enterSetup h s) h = some { setupEntry s pid x with setup := some u, other := some o } ∧
      holdAt (enterSetup h s) o = some (reverseEntry s h pid rk) := by
  have hkeys : holdKeys (setHold h (setupEntry s pid x) s) = holdKeys s := holdKeys_setHold hs hx rfl
  have hp' : snatPick (setupDrawn s h pid x rest) (sliceOfHold h) (setupTemplate s pid) k = (a, addr, .port q rk) := by
    rw [← hp]
    simp only [snatPick, sameStore_setupDrawn.flowSeed, sameStore_setupDrawn.keyHash]
    rw [snatSearch_congr sameStore_setupDrawn fun k => by rw [holdFor_congr (t := setupDrawn s h pid x rest) hkeys]]
    rfl
  have heq : enterSetup h s = setHold o (reverseEntry s h pid rk) (setHold h { setupEntry s pid x with
      setup := some (unwritten r (snatRecord (setupImage s h pid k) a addr q) (some rk))
      other := some o } (setupDrawn s h pid x rest)) := by
    rw [enterSetup_unbarred hx hchain hk hb, ← newRecord_setupDrawn]
    simp only [hkind]
    exact setupHardware_snat (holdAt_setHold_same ..) hd hr hg hkind hp' ((freeHold_congr hkeys _).trans ho)
  obtain ⟨-, hne⟩ := freeHold_spec hs ho
  simp only [snatPick, Prod.mk.injEq] at hp
  obtain ⟨ha, haddr, -⟩ := hp
  obtain ⟨htrans, hdst, hindex, hport, hna⟩ := snatRecord_fields (setupImage s h pid k) a addr q
    (ha ▸ Nat.mod_lt _ (by decide)) hq (haddr ▸ BitVec.isLt _)
  obtain ⟨-, -, -, -, -, -, -, -, -, hx0⟩ := newRecord_st s (sliceOfHold h) (aTemplate (stageZero (pkt s pid).acts))
    (setupTemplate s pid) k (aTemplate_lt _)
  rw [heq]
  exact ⟨unwritten r (snatRecord (setupImage s h pid k) a addr q) (some rk),
    (setupBuilt_setHold (templateImage_setup.snat ..) _ _).setHold .., rfl, htrans, hdst.trans hx0, hindex, hport, hna,
    (holdAt_setHold_other (hne h x hx rfl) ..).trans (holdAt_setHold_same ..), holdAt_setHold_same ..⟩

end

section
variable {s : State} {h pid : Nat} {k : BitVec 384} {x : Hold} (hx : holdAt s h = some x) (hchain : x.chain = [pid])
  (hk : (pkt s pid).key = some k) (hb : ¬ SetupBarred s pid k)
include hx hchain hk hb

theorem enterSetup_noRecord (hh : h < 2 ^ 20) (hother : x.other = none) (hu : Unretired s pid)
    (hs : tsorted s.flow.holds = true) (hkind : tpKind (setupTemplate s pid) ∈ [1, 2, 3])
    (hd : tget [] s.flow.drawn (sliceOfHold h) = [])
    (he : ∀ j, j < 16 → tget [] s.flow.chains j = [] ∧ chainSize (drawLimit s) j ≤ tget 0 s.flow.taken j) :
    SetupRefused s h pid 0x4041 2 (enterSetup h s) := by
  have hnone : drawRecord (sliceOfHold h) (drawFuel (setHold h (setupEntry s pid x) s)) (setHold h (setupEntry s pid x) s) = none :=
    drawRecord_none hd fun j hj => chainPop_none (he j hj).1 (he j hj).2
  have heq : enterSetup h s = insertFail h 2 (setHold h (setupEntry s pid x) s) := by
    rw [enterSetup_unbarred hx hchain hk hb]
    simp only [List.mem_cons, List.not_mem_nil, or_false] at hkind
    rcases hkind with hkind | hkind | hkind <;> simp only [hkind] <;> exact setupHardware_noRecord hnone
  rw [heq]
  exact (insertFail_one (cause := 2) (x := setupEntry s pid x) (holdAt_setHold_same ..) hh (by decide) hchain hother
    (hu.congr rfl rfl) (tsorted_setHold hs h _)).setupRefused

theorem enterSetup_noTemplate (hh : h < 2 ^ 20) (hu : Unretired s pid) (hs : tsorted s.flow.holds = true)
    (hkind : tpKind (setupTemplate s pid) ∉ [1, 2, 3, 4]) : SetupRefused s h pid 0x4040 2 (enterSetup h s) := by
  have heq := enterSetup_unbarred hx hchain hk hb
  simp only [List.mem_cons, List.not_mem_nil, or_false, not_or] at hkind
  obtain ⟨h1, h2, h3, h4⟩ := hkind
  split at heq
  · exact absurd (by assumption) h1
  · exact absurd (by assumption) h2
  · exact absurd (by assumption) h3
  · exact absurd (by assumption) h4
  · rw [heq]
    exact failChain_setupRefused (c := 2) hh hu hs (by decide) _

theorem enterSetup_routine (hkind : tpKind (setupTemplate s pid) = 4)
    (hc : classRefuses s (routineShape (tpRoutine (setupTemplate s pid))).1 = false) : ∃ i,
    holdAt (enterSetup h s) h = some (setupEntry s pid x) ∧
    i ∈ readyItems (enterSetup h s) (routineShape (tpRoutine (setupTemplate s pid))).1 ∧
    i.routine = tpRoutine (setupTemplate s pid) ∧ i.param = tpParam (setupTemplate s pid) ∧ i.slice = sliceOfHold h ∧
    i.source = 1 ∧ i.desc = pid ∧ i.data = h % 65536 ∧ i.epoch = pktEpoch s pid := by
  have heq : enterSetup h s = setupRoutine h (setupTemplate s pid) k pid (pktEpoch s pid) (setHold h (setupEntry s pid x) s) := by
    rw [enterSetup_unbarred hx hchain hk hb]
    simp only [hkind]
  unfold setupRoutine at heq
  dsimp only at heq
  generalize hi : ({ newItem (setHold h (setupEntry s pid x) s) (tpRoutine (setupTemplate s pid)) 1 0 with
      param := tpParam (setupTemplate s pid), epoch := pktEpoch s pid, slice := sliceOfHold h, desc := pid, data := h % 65536,
      domain := domainId (setHold h (setupEntry s pid x) s) (newItem (setHold h (setupEntry s pid x) s)
        (tpRoutine (setupTemplate s pid)) 1 0).basis (tpService (setupTemplate s pid)) 0 0 k } : Item) = i at heq
  have hcls : i.cls = (routineShape (tpRoutine (setupTemplate s pid))).1 := by rw [← hi]; rfl
  obtain ⟨q, c, w, t, hsub, hready, hframe, -⟩ := submitItem_taken (s := setHold h (setupEntry s pid x) s) (i := i) (by rw [hcls]; exact hc)
  rw [hsub, if_pos rfl] at heq
  rw [heq]
  refine ⟨{ i with dseq := q, created := c, since := w }, ?_, ?_, ?_⟩
  · rw [holdAt_of_flow (s := setHold h (setupEntry s pid x) s) (by rw [hframe])]
    exact holdAt_setHold_same ..
  · rw [← hcls, hready]; simp
  · rw [← hi]
    exact ⟨rfl, rfl, rfl, rfl, rfl, rfl, rfl⟩

end

end Sys2Proof.Machine
end

section
namespace Sys2Proof.Machine

/-! ### A fetch whose search ends without a match (R168) -/

theorem execBucketArrival_unmatched {s : State} {h c : Nat} {x : Hold} (hx : holdAt s h = some x) (hf : flowHalted s = false)
    (hst : x.state = 2) (hc : x.cands = []) (hb : x.buckets = [c])
    (hm : bucketMatches s (searchAt s c).1 (searchAt s c).2 x.key = []) :
    exec (.bucketArrival h false) s = .next (enterSetup h (count 0x4020 (sliceOfHold h) 4 s)) := by
  show execBucketArrival h false s = _
  simp only [execBucketArrival, hx, hb, hf, hst, hc, hm, readRecord, nextBucket]
  simp

section
variable {s t : State} (h : Quiet s t)
include h

theorem Quiet.setupTemplate (pid : Nat) : setupTemplate t pid = setupTemplate s pid := by rw [h]; rfl
theorem Quiet.setupEntry (pid : Nat) (x : Hold) : setupEntry t pid x = setupEntry s pid x := by rw [h]; rfl
theorem Quiet.reverseEntry (n pid : Nat) (k : BitVec 384) : reverseEntry t n pid k = reverseEntry s n pid k := by rw [h]; rfl
theorem Quiet.setupBarred (pid : Nat) (k : BitVec 384) : SetupBarred t pid k ↔ SetupBarred s pid k := by rw [h]; rfl
theorem Quiet.classRefuses (k : Nat) : classRefuses t k = classRefuses s k := by rw [h]; rfl
theorem Quiet.holdAt (i : Nat) : holdAt t i = holdAt s i := holdAt_of_flow h.flow i
theorem Quiet.freeHold (n : Nat) : freeHold t n = freeHold s n := freeHold_congr (by rw [holdKeys, h.flow, holdKeys]) n

theorem Quiet.holdFor (n : Nat) (k : BitVec 384) : holdFor t n k = holdFor s n k := holdFor_congr (by rw [holdKeys, h.flow, holdKeys]) n k

theorem Quiet.snatPick (n : Nat) (T : BitVec 512) (k : BitVec 384) : snatPick t n T k = snatPick s n T k := by
  simp only [Machine.snatPick, h.sameStore.flowSeed, h.sameStore.keyHash, h.fwd,
    snatSearch_congr h.sameStore (n := n) fun k => by rw [h.holdFor]]

theorem Quiet.isReborn (n : Nat) (k : BitVec 384) : isReborn t n k = isReborn s n k :=
  isReborn_congr h.sameStore (by rw [h.flow]) h.time n k

theorem Quiet.recordMs : recordMs t = recordMs s := by rw [h]; rfl

end

/-- What a setup that was built after a count leaves, told of the state before the count. -/
theorem SetupBuilt.of_count {s t : State} {h pid r i n j : Nat} {k : BitVec 384} {u : Setup}
    (hb : SetupBuilt (count i n j s) h pid k r u t) :
    TemplateImage s (sliceOfHold h) (aTemplate (stageZero (pkt s pid).acts)) (setupTemplate s pid) k u.image ∧
    t.flow.records = s.flow.records ∧ t.flow.index = s.flow.index ∧ t.flow.lines = s.flow.lines ∧
    (ctrGet s (oa i n j) + 1 < 2 ^ 48 → ctrGet t (oa i n j) = ctrGet s (oa i n j) + 1) := by
  have hq := quiet_count i n j s
  have hi := hb.image
  rw [hq.pkt, hq.setupTemplate] at hi
  refine ⟨{ hi with
    first := hi.first.trans hq.recordMs
    last := hi.last.trans hq.recordMs
    reborn := hi.reborn.trans (hq.isReborn ..) }, ?_, ?_, ?_, fun hlt => ?_⟩
  · rw [hb.records, hq.flow]
  · rw [hb.index, hq.flow]
  · rw [hb.lines, hq.flow]
  · rw [ctrGet_of_cnt hb.cnt, ctrGet_count_same hlt]

/-- A chain that fails on arrival of the last bucket, told of the state before the arrival is counted. -/
theorem SetupRefused.of_count {s t : State} {h pid i j : Nat} (hh : h < 2 ^ 20) (hi : i = 0x4040 ∨ i = 0x4041) (hj : j < 13)
    (hr : SetupRefused (count 0x4020 (sliceOfHold h) 4 s) h pid i j t) :
    (holdAt t h = none ∧ (∀ i, i ≠ h → holdAt t i = holdAt s i) ∧ (pkt t pid).flow = failMark (setupTemplate s pid) ∧
      t.flow.records = s.flow.records ∧ t.flow.index = s.flow.index ∧ t.flow.lines = s.flow.lines ∧ t.hbm = s.hbm ∧
      (ctrGet s (oa 0x4020 (sliceOfHold h) 4) + 1 < 2 ^ 48 →
        ctrGet t (oa 0x4020 (sliceOfHold h) 4) = ctrGet s (oa 0x4020 (sliceOfHold h) 4) + 1)) ∧
    (ctrGet s (oa i (sliceOfHold h) j) + 1 < 2 ^ 48 →
      ctrGet t (oa i (sliceOfHold h) j) = ctrGet s (oa i (sliceOfHold h) j) + 1) := by
  have hn := sliceOfHold_lt hh
  have hq := quiet_count 0x4020 (sliceOfHold h) 4 s
  have hctr : ctrGet (count 0x4020 (sliceOfHold h) 4 s) (oa i (sliceOfHold h) j) = ctrGet s (oa i (sliceOfHold h) j) :=
    ctrGet_count_other (by simp only [oa]; omega) (by simp only [oa]; omega) s
  refine ⟨⟨hr.gone, fun i hi => (hr.others i hi).trans (hq.holdAt i), hr.mark.trans (by rw [hq.setupTemplate]), ?_, ?_, ?_, ?_,
    fun hlt => (hr.kept 4 (by decide)).trans (ctrGet_count_same hlt)⟩, fun hlt => ?_⟩
  · rw [hr.records, hq.flow]
  · rw [hr.index, hq.flow]
  · rw [hr.lines, hq.flow]
  · rw [hr.hbm, hq.hbm]
  · rw [hr.counted (by rwa [hctr]), hctr]

end Sys2Proof.Machine
end

section
namespace Sys2Proof.Machine

/-! ### Requests to the memory leave the flow store (R347) -/

theorem pcRetired_setPc {s : State} {n : Nat} {p : Pc} (hne : p ≠ pcReset) (hst : p.state = (pc s n).state) (m : Nat) :
    pcRetired (setPc s n p) m = pcRetired s m := by
  by_cases hm : m = n
  · subst hm
    rw [pcRetired, pc, setPc, setHbm_hbm, tget_tset_ne_default hne, hst, pcRetired]
  · rw [pcRetired, pc, setPc, setHbm_hbm, tget_tset_other _ _ hm]
    rfl

theorem sameStore_hbmRequest (cls a len : Nat) (w : Bool) (s : State) : SameStore s (hbmRequest cls a len w s) := by
  have hconfig : SameConfig s (hbmRequest cls a len w s) := by rw [hbmRequest_eq]; exact ⟨rfl, rfl, rfl⟩
  have hflow : (hbmRequest cls a len w s).flow = s.flow := by rw [hbmRequest_eq]
  have hhbm : (hbmRequest cls a len w s).hbm.bases = s.hbm.bases ∧ (hbmRequest cls a len w s).hbm.sizes = s.hbm.sizes ∧
      (hbmRequest cls a len w s).hbm.layouts = s.hbm.layouts ∧ ∀ n, pcRetired (hbmRequest cls a len w s) n = pcRetired s n := by
    simp only [hbmRequest]
    generalize (if cls = 7 then s.hbm.touched else tset 0 s.hbm.touched (stackOf (pcOf s a)) (raw s)) = touched
    have hq := quiet_count 0x6011 cls 0 (setHbm s { s.hbm with orders := s.hbm.orders + 1, touched := touched })
    generalize count 0x6011 cls 0 _ = t at hq ⊢
    have ht (n : Nat) : pcRetired t n = pcRetired s n := by rw [hq]; rfl
    split
    · split
      · exact ⟨by rw [hq.hbm]; rfl, by rw [hq.hbm]; rfl, by rw [hq.hbm]; rfl, ht⟩
      · exact ⟨by rw [setHbm_hbm, hq.hbm]; rfl, by rw [setHbm_hbm, hq.hbm]; rfl, by rw [setHbm_hbm, hq.hbm]; rfl, ht⟩
    · refine ⟨by rw [setPc, setHbm_hbm, hq.hbm]; rfl, by rw [setPc, setHbm_hbm, hq.hbm]; rfl,
        by rw [setPc, setHbm_hbm, hq.hbm]; rfl, fun n => (pcRetired_setPc ?_ (by rfl) n).trans (ht n)⟩
      exact fun heq => absurd (congrArg (fun p : Pc => p.queue.length) heq) (by simp [pcReset])
  exact ⟨hconfig, hhbm.1, hhbm.2.1, hhbm.2.2.1, hhbm.2.2.2, by rw [hflow], by rw [hflow], by rw [hflow], by rw [hflow], by rw [hflow],
    by rw [hflow]⟩

theorem hbmRequest_flow (cls a len : Nat) (w : Bool) (s : State) : (hbmRequest cls a len w s).flow = s.flow := by
  rw [hbmRequest_eq]
theorem hbmRequest_path (cls a len : Nat) (w : Bool) (s : State) : (hbmRequest cls a len w s).path = s.path := by
  rw [hbmRequest_eq]

/-! ### Records and index slots -/

theorem putRec_of_not_gone {s : State} {r : Nat} (h : recGone s r = false) (x : FlowRec) :
    putRec r x s = setFlow s { s.flow with records := tput s.flow.records r x } := by
  rw [putRec, if_neg (by rw [h]; decide)]

theorem layBuckets_ne_nil (l : IdxLay) (k : BitVec 384) : ∃ rest, layBuckets l k = (layBuckets l k).headD 0 :: rest := by
  simp only [layBuckets]
  split
  · exact ⟨_, rfl⟩
  · exact ⟨_, rfl⟩

/-- A slot of a bucket names its bucket. -/
theorem div_eq_of_mem_bucketSlots {b x : Nat} (h : x ∈ bucketSlots b) : x / 8 = b := by
  simp only [bucketSlots, List.mem_map, List.mem_range] at h
  obtain ⟨i, hi, rfl⟩ := h
  omega

theorem freeSlot_spec {s : State} {l : IdxLay} {b y : Nat} (h : freeSlot s l b = some y) :
    y / 8 = b ∧ slValid (idxGet s l y) = false :=
  ⟨div_eq_of_mem_bucketSlots (List.mem_of_find?_eq_some h), by simpa using List.find?_some h⟩

/-- An index entry is no empty slot. -/
theorem mkSlot_ne_zero (sig record dir : Nat) (alt : Bool) : mkSlot sig record dir alt ≠ 0 := by
  intro h
  have hbit : bit (mkSlot sig record dir alt) 2 = bit (0 : BitVec 64) 2 := by rw [h]
  rw [bit_eq_decide_bf, mkSlot, bf_ofNat _ _ (by decide)] at hbit
  have hfield : fld (sig % 2 ^ 32 * 2 ^ 32 + record % 2 ^ 29 * 8 + 4 + dir % 2 * 2 + b2n alt) 2 2 = 1 := by
    simp only [fld, Nat.shiftRight_eq_div_pow]
    cases alt <;> simp only [b2n] <;> norm_num <;> omega
  rw [hfield] at hbit
  exact absurd hbit (by decide)

/-- With room in bucket A, an entry goes into its first free slot. -/
theorem idxInsert_first {s : State} {l : IdxLay} {k : BitVec 384} {y : Nat} (r d : Nat)
    (hb : bucketGone s l ((layBuckets l k).headD 0) = false) (hf : freeSlot s l ((layBuckets l k).headD 0) = some y) :
    idxInsert l k r d s = .inr (idxPut l y (mkSlot (laySig l k) r d false) s) := by
  obtain ⟨rest, hl⟩ := layBuckets_ne_nil l k
  generalize (layBuckets l k).headD 0 = b at hb hf hl
  simp only [idxInsert, hl, List.filter_cons, hb, Bool.not_false, if_true, List.findSome?_cons, hf, Option.map_some, List.headD_cons,
    bne_self_eq_false]

theorem idxPut_of_not_gone {s : State} {l : IdxLay} {x : Nat} (hg : bucketGone s l (x / 8) = false) (hb : l.building = false)
    (v : BitVec 64) : idxPut l x v s = setFlow s { s.flow with index := tset 0 s.flow.index x v } := by
  rw [idxPut, if_neg (by rw [hg]; decide), if_neg (by rw [hb]; decide)]

theorem layNow_building (s : State) : (layNow s).building = false := by
  simp only [layNow]
  split
  · split <;> rfl
  · rfl

/-! ### Hot lines (R157, R158) -/

/-- t differs from s in hot lines, in the writeback buffers and in counter values alone. -/
def OnlyLines (s t : State) : Prop := t = { s with
  flow := { s.flow with lines := t.flow.lines, lru := t.flow.lru, wb := t.flow.wb }
  cnt := { s.cnt with ctr := t.cnt.ctr } }

theorem OnlyLines.refl (s : State) : OnlyLines s s := rfl

theorem OnlyLines.trans {s t u : State} (h : OnlyLines s t) (h' : OnlyLines t u) : OnlyLines s u := by
  unfold OnlyLines at *; rw [h', h]

theorem onlyLines_count (i n u : Nat) (s : State) : OnlyLines s (count i n u s) := by rw [count_eq]; rfl
theorem onlyLines_setLine (x : Nat) (l : Line) (s : State) : OnlyLines s (setLine x l s) := rfl
theorem onlyLines_dropLine (x : Nat) (s : State) : OnlyLines s (dropLine x s) := rfl
theorem onlyLines_setWb (s : State) (n : Nat) (l : List WbEntry) : OnlyLines s (setWb s n l) := rfl

theorem OnlyLines.sameStore {s t : State} (h : OnlyLines s t) : SameStore s t := by
  rw [h]
  exact ⟨⟨rfl, rfl, rfl⟩, rfl, rfl, rfl, fun _ => rfl, rfl, rfl, rfl, rfl, rfl, rfl⟩

@[simp] theorem lineAt_setLine_same (x : Nat) (l : Line) (s : State) : lineAt (setLine x l s) x = some l := tfind_tput_same _ _ _

theorem lineAt_setLine_other {x z : Nat} (h : z ≠ x) (l : Line) (s : State) : lineAt (setLine x l s) z = lineAt s z :=
  tfind_tput_other _ _ h

/-- With room in the buffer, an entry is only put at its end. -/
theorem wbPush_room {n : Nat} {s : State} (h : (wbOf s n).length < 1024) (e : WbEntry) :
    wbPush n e s = setWb s n (wbOf s n ++ [e]) := by
  simp only [wbPush, if_neg (Nat.not_le.mpr h)]

theorem wbOf_setWb_append (s : State) (n : Nat) (l : List WbEntry) (e : WbEntry) : wbOf (setWb s n (l ++ [e])) n = l ++ [e] :=
  tget_tset_ne_default (by simp) _ _

/-- An eviction with room in the buffer drops the line and buffers it where it is dirty. -/
theorem evict_room {n x : Nat} {s : State} (h : (wbOf s n).length < 1024) :
    OnlyLines s (evict n x s) ∧ (wbOf (evict n x s) n).length ≤ (wbOf s n).length + 1 := by
  unfold evict
  cases lineAt s x with
  | none => exact ⟨.refl s, Nat.le_succ _⟩
  | some l =>
    have h1 : OnlyLines s (dropLine x (count 0x4020 n 6 s)) := (onlyLines_count ..).trans (onlyLines_dropLine ..)
    have hwb : wbOf (dropLine x (count 0x4020 n 6 s)) n = wbOf s n := by
      show tget [] (count 0x4020 n 6 s).flow.wb n = _
      rw [count_flow]; rfl
    dsimp only
    split
    · rw [wbPush_room (by rwa [hwb]), wbOf_setWb_append, hwb, List.length_append]
      exact ⟨h1.trans (onlyLines_setWb ..), Nat.le_refl _⟩
    · exact ⟨h1, by rw [hwb]; omega⟩

/-- An install with room for two evicted lines changes lines and buffers alone, and the line stands where it answers. -/
theorem install_room {n set : Nat} {l : Line} {s : State} (h : (wbOf s n).length ≤ 1022) :
    OnlyLines s (install n set l s).2 ∧ ∃ used, lineAt (install n set l s).2 (install n set l s).1 = some { l with used := used } := by
  have hput {s' : State} (hs : OnlyLines s s') (w : Nat) :
      OnlyLines s (setLine (lineKey n set w) { l with used := s'.flow.lru + 1 } (setFlow s' { s'.flow with lru := s'.flow.lru + 1 })) ∧
      ∃ used, lineAt (setLine (lineKey n set w) { l with used := s'.flow.lru + 1 }
        (setFlow s' { s'.flow with lru := s'.flow.lru + 1 })) (lineKey n set w) = some { l with used := used } :=
    ⟨hs.trans rfl, _, lineAt_setLine_same ..⟩
  have hpair (a b : Nat) : OnlyLines s (evict n a (evict n b s)) := by
    obtain ⟨h1, hlen⟩ := evict_room (x := b) (show (wbOf s n).length < 1024 by omega)
    exact h1.trans (evict_room (by omega)).1
  simp only [install]
  split
  · split
    · exact hput (.refl s) _
    · exact hput (hpair ..) _
  · split
    · exact hput (.refl s) _
    · split
      · exact hput (hpair ..) _
      · exact hput (evict_room (by omega)).1 _

end Sys2Proof.Machine
end

section
namespace Sys2Proof.Machine

/-! ### The end of a setup (Table 6-2, steps 4 to 6) -/

section
variable {s t : State} (h : OnlyLines s t)
include h

theorem OnlyLines.records : t.flow.records = s.flow.records := by rw [h]
theorem OnlyLines.index : t.flow.index = s.flow.index := by rw [h]
theorem OnlyLines.holds : t.flow.holds = s.flow.holds := by rw [h]
theorem OnlyLines.path : t.path = s.path := by rw [h]

end

/-- The state once a setup's record and its index entry in slot y are written. -/
def recordWritten (s : State) (u : Setup) (y : Nat) : State :=
  let s0 := hbmRequest 3 (recAddr s u.record) 128 true s
  setFlow s0 { s0.flow with
    records := tput s0.flow.records u.record u.image
    index := tset 0 s0.flow.index y (mkSlot (laySig (layNow s) u.image.key) u.record 0 false) }

section
variable {s : State} {u : Setup} {y : Nat}

theorem recordWritten_records : (recordWritten s u y).flow.records = tput s.flow.records u.record u.image := by
  simp only [recordWritten, setFlow_flow, hbmRequest_flow]
theorem recordWritten_index : (recordWritten s u y).flow.index =
    tset 0 s.flow.index y (mkSlot (laySig (layNow s) u.image.key) u.record 0 false) := by
  simp only [recordWritten, setFlow_flow, hbmRequest_flow]
theorem recordWritten_lines : (recordWritten s u y).flow.lines = s.flow.lines := by
  simp only [recordWritten, setFlow_flow, hbmRequest_flow]
theorem recordWritten_wb : (recordWritten s u y).flow.wb = s.flow.wb := by
  simp only [recordWritten, setFlow_flow, hbmRequest_flow]
theorem recordWritten_holds : (recordWritten s u y).flow.holds = s.flow.holds := by
  simp only [recordWritten, setFlow_flow, hbmRequest_flow]
theorem recordWritten_path : (recordWritten s u y).path = s.path := hbmRequest_path ..

/-- With a free slot in bucket A of the one layout, a setup's record and entry are written. -/
theorem writeIndex_recordWritten (hl : layouts s = [layNow s]) (hg : recGone s u.record = false)
    (hb : bucketGone s (layNow s) ((layBuckets (layNow s) u.image.key).headD 0) = false)
    (hf : freeSlot s (layNow s) ((layBuckets (layNow s) u.image.key).headD 0) = some y) :
    writeIndex u.record u.image.key none (putRec u.record u.image (hbmRequest 3 (recAddr s u.record) 128 true s)) =
      .inr (recordWritten s u y) := by
  have h0 := sameStore_hbmRequest 3 (recAddr s u.record) 128 true s
  have hput := putRec_of_not_gone ((h0.recGone u.record).trans hg) u.image
  rw [hput]
  unfold recordWritten
  generalize hbmRequest 3 (recAddr s u.record) 128 true s = s0 at h0 ⊢
  have hl' : layouts (setFlow s0 { s0.flow with records := tput s0.flow.records u.record u.image }) = [layNow s] :=
    (show _ = layouts s0 from rfl).trans (h0.layouts.trans hl)
  have hb' : bucketGone (setFlow s0 { s0.flow with records := tput s0.flow.records u.record u.image }) (layNow s)
      ((layBuckets (layNow s) u.image.key).headD 0) = false := (h0.bucketGone ..).trans hb
  have hf' : freeSlot (setFlow s0 { s0.flow with records := tput s0.flow.records u.record u.image }) (layNow s)
      ((layBuckets (layNow s) u.image.key).headD 0) = some y := (show _ = freeSlot s0 _ _ from rfl).trans ((h0.freeSlot ..).trans hf)
  obtain ⟨hy, -⟩ := freeSlot_spec hf
  simp only [writeIndex, idxAdd, hl', idxInsert_first u.record 0 hb' hf']
  rw [idxPut_of_not_gone (by rw [hy]; exact hb') (layNow_building s)]
  rfl

end

/-- A setup whose reads are in writes its record and its entry, and installs its line. -/
theorem setupReads_commit {s : State} {h y : Nat} {x : Hold} {u : Setup} (hx : holdAt s h = some x) (hh : flowHalted s = false)
    (hst : x.state = 3) (hs : x.setup = some u) (hw : u.written = false) (hk : u.rkey = none) (hg : recGone s u.record = false)
    (hl : layouts s = [layNow s]) (hb : bucketGone s (layNow s) ((layBuckets (layNow s) u.image.key).headD 0) = false)
    (hf : freeSlot s (layNow s) ((layBuckets (layNow s) u.image.key).headD 0) = some y) (hp : primaryOf s u.record = none)
    (hlen : (wbOf s (sliceOfHold h)).length ≤ 1022) :
    ∃ v z line, exec (.setupReadsComplete h false) s = .next (setHold h { x with setup := some { u with written := true } } v) ∧
      OnlyLines (recordWritten s u y) v ∧ lineAt v z = some line ∧ line.record = u.record ∧ line.link = false ∧
      line.dirty = false ∧ line.st = u.image.st ∧ line.dpf = 0 ∧ line.dbf = 0 := by
  have hprim : primaryOf (recordWritten s u y) u.record = none := by rw [primaryOf, recordWritten_lines]; exact hp
  have hinst : installLines (sliceOfHold h) u.record u.image none (recordWritten s u y) =
      (install (sliceOfHold h) (hashSet (seedsAt (recordWritten s u y) (sliceOfHold h) u.image.key) u.image.key)
        (newLine (recordWritten s u y) (sliceOfHold h) u.record u.image.key u.image) (recordWritten s u y)).2 := by
    simp only [installLines, installPrimary, hprim]
  obtain ⟨honly, used, hline⟩ := install_room (n := sliceOfHold h)
    (set := hashSet (seedsAt (recordWritten s u y) (sliceOfHold h) u.image.key) u.image.key)
    (l := newLine (recordWritten s u y) (sliceOfHold h) u.record u.image.key u.image) (s := recordWritten s u y)
    (by rw [wbOf, recordWritten_wb]; exact hlen)
  rw [← hinst] at honly
  have hexec : exec (.setupReadsComplete h false) s = .next (setHold h { x with setup := some { u with written := true } }
      (if stReborn u.image.st then count 0x4040 (sliceOfHold h) 7
          (installLines (sliceOfHold h) u.record u.image none (recordWritten s u y))
        else installLines (sliceOfHold h) u.record u.image none (recordWritten s u y))) := by
    show execSetupReadsComplete h false s = _
    simp only [execSetupReadsComplete, hx, hs, hh, hst, hw, hg, hk, writeIndex_recordWritten hl hg hb hf]
    simp
  refine ⟨_, (install (sliceOfHold h) (hashSet (seedsAt (recordWritten s u y) (sliceOfHold h) u.image.key) u.image.key)
        (newLine (recordWritten s u y) (sliceOfHold h) u.record u.image.key u.image) (recordWritten s u y)).1,
    { newLine (recordWritten s u y) (sliceOfHold h) u.record u.image.key u.image with used := used },
    hexec, ?_, ?_, rfl, rfl, rfl, rfl, rfl, rfl⟩
  · split
    · exact honly.trans (onlyLines_count ..)
    · exact honly
  · rw [← hline, ← hinst]
    split
    · rw [lineAt, count_flow]; rfl
    · rfl

/-- Bad reads are an insertion failure of cause FAULT. -/
theorem execSetupReadsComplete_bad {s : State} {h : Nat} {x : Hold} {u : Setup} (hx : holdAt s h = some x)
    (hh : flowHalted s = false) (hst : x.state = 3) (hs : x.setup = some u) (hw : u.written = false) :
    exec (.setupReadsComplete h true) s = .next (insertFail h 6 s) := by
  show execSetupReadsComplete h true s = _
  simp only [execSetupReadsComplete, hx, hs, hh, hst, hw]
  simp

theorem tget_chains_insertFailed {s t : State} {h cause pid : Nat} {x : Hold} {u : Setup} (hf : InsertFailed s h cause pid x t)
    (hs : x.setup = some u) :
    tget [] t.flow.chains (u.record % 16) = u.record :: tget [] s.flow.chains (u.record % 16) := by
  rw [hf.flow, hs]
  exact tget_tset_ne_default (List.cons_ne_nil _ _) _ _

theorem InsertFailed.records {s t : State} {h cause pid : Nat} {x : Hold} (hf : InsertFailed s h cause pid x t) :
    t.flow.records = s.flow.records := by rw [hf.flow]; cases x.setup <;> rfl
theorem InsertFailed.index {s t : State} {h cause pid : Nat} {x : Hold} (hf : InsertFailed s h cause pid x t) :
    t.flow.index = s.flow.index := by rw [hf.flow]; cases x.setup <;> rfl
theorem InsertFailed.lines {s t : State} {h cause pid : Nat} {x : Hold} (hf : InsertFailed s h cause pid x t) :
    t.flow.lines = s.flow.lines := by rw [hf.flow]; cases x.setup <;> rfl

/-! ### A packet without a segment is served by its record's primary line (R150) -/

theorem mem_lines_of_primaryOf {s : State} {r y : Nat} (h : primaryOf s r = some y) :
    ∃ l, (y, l) ∈ s.flow.lines ∧ l.record = r ∧ l.link = false := by
  simp only [primaryOf, Option.map_eq_some_iff] at h
  obtain ⟨q, hq, rfl⟩ := h
  have hp := List.find?_some hq
  simp only [Bool.and_eq_true, beq_iff_eq, Bool.not_eq_true'] at hp
  exact ⟨q.2, List.mem_of_find?_eq_some hq, hp⟩

/-- Where the keys of the hot lines rise, the primary line of a record is the one listed at its unit. -/
theorem primaryOf_line {s : State} {r y : Nat} {l : Line} (hs : tsorted s.flow.lines = true) (h : primaryOf s r = some y)
    (hl : lineAt s y = some l) : l.record = r ∧ l.link = false := by
  obtain ⟨l', hmem, hrec, hlink⟩ := mem_lines_of_primaryOf h
  have heq : lineAt s y = some l' := tfind_eq_some_of_mem hs hmem
  rw [hl] at heq
  cases heq
  exact ⟨hrec, hlink⟩

/-- The line that a packet without a segment leaves of line l, in direction rev under template T at millisecond ms. -/
def countedLine (l : Line) (rev : Bool) (len ms : Nat) (T : BitVec 512) (k : BitVec 384) : Line :=
  let st1 := if rev then putBf l.st 107 107 1 else l.st
  { addPacket l rev len with
    st := if (rev && !stRevSeen l.st) = true ∧ kProto k ≠ 6 then putBf st1 115 112 (tpClassEst T) else st1
    last := ms, dirty := true }

theorem serveHit_countedLine {s : State} {n y pid mark : Nat} {k : BitVec 384} {l l1 : Line} (hk : (pkt s pid).key = some k)
    (hl : lineAt s y = some l) (hlink : l.link = false) (hl1 : lineAt (touch y s) y = some l1)
    (hroom : deltaFull l1 (lineReverse s y k) (pkt s pid).rxLen = false) (hseg : segmentOf (pkt (touch y s) pid) = none) :
    ∃ ans : FlowAnswer, ans.meter = acMeter l1.act ∧ serveHit n y pid mark s =
      modPkt pid (fun p => { p with flow := mark, answer := some ans })
        (setLine y (countedLine l1 (lineReverse s y k) (pkt s pid).rxLen (devMs (touch y s))
          (template (touch y s) (pktEpoch (touch y s) pid) (stTemplate l1.st)) k) (touch y s)) := by
  refine ⟨answerOf (countedLine l1 (lineReverse s y k) (pkt s pid).rxLen (devMs (touch y s))
    (template (touch y s) (pktEpoch (touch y s) pid) (stTemplate l1.st)) k) none (lineReverse s y k) false, ?_, ?_⟩
  · simp only [answerOf, countedLine, addPacket]
    split <;> rfl
  · simp only [serveHit, hl, hk, hlink, Bool.false_eq_true, if_false, hl1, hroom, hseg]
    rfl

/-- What serving one packet by a primary line leaves of the state (R150, R153). -/
structure PacketServed (s : State) (pid y : Nat) (l : Line) (t : State) : Prop where
  frame : ∃ l', t.flow = { s.flow with lines := tput (tput s.flow.lines y { l with used := s.flow.lru + 1 }) y l', lru := s.flow.lru + 1 } ∧
    l'.record = l.record ∧ l'.link = l.link ∧ l'.dpf + l'.dpr = l.dpf + l.dpr + 1 ∧
    l'.dbf + l'.dbr = l.dbf + l.dbr + (pkt s pid).rxLen ∧ l'.last = devMs s ∧ l'.dirty = true
  mark : (pkt t pid).flow = 2
  ctl : t.ctl = s.ctl

theorem countedLine_sums (l : Line) (rev : Bool) (len ms : Nat) (T : BitVec 512) (k : BitVec 384) :
    let l' := countedLine l rev len ms T k
    l'.record = l.record ∧ l'.link = l.link ∧ l'.dpf + l'.dpr = l.dpf + l.dpr + 1 ∧
      l'.dbf + l'.dbr = l.dbf + l.dbr + len ∧ l'.last = ms ∧ l'.dirty = true := by
  cases rev
  · exact ⟨rfl, rfl, by simp only [countedLine, addPacket]; simp; omega, by simp only [countedLine, addPacket]; simp; omega, rfl, rfl⟩
  · exact ⟨rfl, rfl, by simp only [countedLine, addPacket]; simp; omega, by simp only [countedLine, addPacket]; simp; omega, rfl, rfl⟩

section
variable {s : State} {n pid y r : Nat} {k : BitVec 384} {l : Line} {q : FlowRec} (hk : (pkt s pid).key = some k)
  (hu : Unretired s pid) (hseg : segmentOf (pkt s pid) = none) (hl : lineAt s y = some l) (hlink : l.link = false)
  (hroom : ∀ b, deltaFull l b (pkt s pid).rxLen = false) (hmeter : acMeter l.act = 0)
include hk hu hseg hl hlink hroom hmeter

theorem serveRelease_primary : PacketServed s pid y l (serveRelease n y 2 pid s) ∧
    releasePkt pid (serveRelease n y 2 pid s) = serveRelease n y 2 pid s ∧
    (serveRelease n y 2 pid s).cnt = s.cnt := by
  have htouch : touch y s = setLine y { l with used := s.flow.lru + 1 } (setFlow s { s.flow with lru := s.flow.lru + 1 }) := by
    simp only [touch, hl]
  obtain ⟨ans, hans, heq⟩ := serveHit_countedLine (n := n) (mark := 2) (l1 := { l with used := s.flow.lru + 1 }) hk hl hlink
    (by rw [htouch]; exact lineAt_setLine_same ..) (hroom _) (by rw [htouch]; exact hseg)
  have hrel : serveRelease n y 2 pid s = serveHit n y pid 2 s := by
    have hz : ans.meter = 0 := hans.trans hmeter
    simp only [serveRelease]
    rw [heq, pkt_modPkt_same]
    simp only [hz, ne_eq, not_true_eq_false, if_false]
  have hsums := countedLine_sums { l with used := s.flow.lru + 1 } (lineReverse s y k) (pkt s pid).rxLen (devMs (touch y s))
    (template (touch y s) (pktEpoch (touch y s) pid) (stTemplate l.st)) k
  rw [hrel, heq]
  have hflow : (touch y s).flow = { s.flow with
      lines := tput s.flow.lines y { l with used := s.flow.lru + 1 }, lru := s.flow.lru + 1 } := by rw [htouch]; rfl
  have hpath : (touch y s).path = s.path := by rw [htouch]; rfl
  have hctl : (touch y s).ctl = s.ctl := by rw [htouch]; rfl
  have hms : devMs (touch y s) = devMs s := by rw [htouch]; rfl
  generalize countedLine { l with used := s.flow.lru + 1 } _ _ _ _ k = l' at hsums ⊢
  have hus : Unretired (setLine y l' (touch y s)) pid := hu.congr hpath hctl
  refine ⟨⟨⟨l', ?_, ?_⟩, by rw [pkt_modPkt_same], hctl⟩, (hus.modPkt rfl rfl).release, ?_⟩
  · show { (touch y s).flow with lines := tput (touch y s).flow.lines y l' } = _
    rw [hflow]
  · rw [hms] at hsums; exact hsums
  · show (touch y s).cnt = s.cnt
    rw [htouch]; rfl

/-- A chain of one packet without a segment is served by its record's primary line and released. -/
theorem serveChain_primary (hrec : flowRec s r = some q) (hp : primaryOf s r = some y) (htrans : stTrans q.st = false)
    (hlt : stTrans l.st = false) (key : BitVec 384) :
    ∃ t, serveChain n r 2 key [pid] s = t ∧ PacketServed s pid y l t ∧ t.cnt = (count 0x4020 n 0 s).cnt := by
  have hline : lineToServe n r key s = (some y, s) := by
    simp only [lineToServe, hrec, installPrimary, hp, recReverse, htrans, Bool.false_eq_true, if_false]
  have hq := quiet_count 0x4020 n 0 s
  have hexc : exceptionOf (count 0x4020 n 0 s) y pid = none := by
    have hl' : lineAt (count 0x4020 n 0 s) y = some l := by rw [lineAt, hq.flow]; exact hl
    simp only [exceptionOf, hl', hq.pkt, hk, hlink, Bool.false_eq_true, if_false, hlt, false_and, hseg]
  have hserve := serveRelease_primary (s := count 0x4020 n 0 s) (n := n) (pid := pid) (y := y) (k := k) (l := l)
    (by rw [hq.pkt]; exact hk) (hu.congr hq.path hq.ctl) (by rw [hq.pkt]; exact hseg) (by rw [lineAt, hq.flow]; exact hl) hlink
    (by rw [hq.pkt]; exact hroom) hmeter
  obtain ⟨⟨⟨l', hflow, hsums⟩, hmark, hctl⟩, hrelease, hcnt⟩ := hserve
  refine ⟨_, rfl, ?_, ?_⟩
  · simp only [serveChain, hu.1, Bool.false_eq_true, if_false, hline, hexc, Option.isSome_none, hrelease]
    refine ⟨⟨l', ?_, ?_⟩, hmark, hctl.trans hq.ctl⟩
    · rw [hflow, hq.flow]
    · rw [hq.pkt, show devMs (count 0x4020 n 0 s) = devMs s by rw [devMs, hq.time, devMs]] at hsums
      exact hsums
  · simp only [serveChain, hu.1, Bool.false_eq_true, if_false, hline, hexc, Option.isSome_none, hrelease]
    exact hcnt

end

end Sys2Proof.Machine
end

section
namespace Sys2Proof.Machine

/-! ### The item of a hold entry that leaves (R171, R230) -/

/-- t differs from s in the scheduler alone. -/
def OnlyAw (s t : State) : Prop := t = { s with aw := t.aw }

theorem OnlyAw.refl (s : State) : OnlyAw s s := rfl

theorem OnlyAw.trans {s t u : State} (h : OnlyAw s t) (h' : OnlyAw t u) : OnlyAw s u := by
  unfold OnlyAw at *; rw [h', h]

theorem onlyAw_obsRoll (s : State) : OnlyAw s (obsRoll s) := by
  obtain ⟨w, l, o, h⟩ := obsRoll_eq s
  rw [h]; rfl

theorem onlyAw_obsMax (a v : Nat) (s : State) : OnlyAw s (obsMax a v s) := by
  obtain ⟨w, l, o, h⟩ := obsMax_eq a v s
  rw [h]; rfl

theorem onlyAw_setReady (s : State) (k : Nat) (l : List Item) : OnlyAw s (setReady s k l) := by
  obtain ⟨w, z, o, h⟩ := setReady_eq s k l
  rw [h]; rfl

theorem onlyAw_setFront (s : State) (k : Nat) (l : List (Item × Option Ctx)) : OnlyAw s (setFront s k l) := by
  unfold setFront depthNote
  exact ((onlyAw_obsRoll s).trans (u := setAw (obsRoll s) _) rfl).trans (onlyAw_obsMax ..)

theorem onlyAw_leaveOut (i : Item) (s : State) : OnlyAw s (leaveOut i s) := by
  simp only [leaveOut]; split <;> rfl

theorem onlyAw_domainReleased (i : Item) (s : State) : OnlyAw s (domainReleased i s) := by
  simp only [domainReleased]; split <;> rfl

theorem onlyAw_foldl {α : Type} {f : State → α → State} (h : ∀ t a, OnlyAw t (f t a)) (l : List α) (s : State) :
    OnlyAw s (l.foldl f s) := by
  induction l generalizing s with
  | nil => exact .refl s
  | cons a l ih => exact (h s a).trans (ih _)

theorem onlyAw_dropHoldItem (h : Nat) (s : State) : OnlyAw s (dropHoldItem h s) := by
  unfold dropHoldItem
  refine onlyAw_foldl (fun t k => ?_) _ s
  dsimp only
  split
  · exact (onlyAw_setReady ..).trans (onlyAw_domainReleased ..)
  · split
    · exact ((onlyAw_setFront ..).trans (onlyAw_leaveOut ..)).trans (onlyAw_domainReleased ..)
    · exact .refl t

/-- t differs from s in the scheduler, in counters and in the host interface alone. -/
def Aside (s t : State) : Prop := t = { s with aw := t.aw, cnt := t.cnt, host := t.host }

theorem Aside.refl (s : State) : Aside s s := rfl
theorem Aside.trans {s t u : State} (h : Aside s t) (h' : Aside t u) : Aside s u := by
  unfold Aside at *; rw [h', h]
theorem Quiet.aside {s t : State} (h : Quiet s t) : Aside s t := by rw [h]; rfl
theorem OnlyAw.aside {s t : State} (h : OnlyAw s t) : Aside s t := by rw [h]; rfl

/-- A setup before its time stands. -/
theorem execSetupTimeout_early {s : State} {h : Nat} {x : Hold} (hx : holdAt s h = some x)
    (hd : raw s < x.since + cyc (cfgN s 0x4032 0 0)) : exec (.setupTimeout h) s = .next s := by
  show execSetupTimeout h s = _
  simp only [execSetupTimeout, hx, decide_eq_false (Nat.not_le.mpr hd)]
  simp

/-- The state in which a setup that is due fails: its item is gone and the timeout reported. -/
theorem execSetupTimeout_due {s : State} {h : Nat} {x : Hold} (hx : holdAt s h = some x) (hf : flowHalted s = false)
    (hst : x.state = 3) (hs : x.setup = none) (hr : x.reverse = false) (hd : x.since + cyc (cfgN s 0x4032 0 0) ≤ raw s) :
    ∃ z, exec (.setupTimeout h) s = .next (insertFail h 4 z) ∧
      Aside s z ∧ ∀ b, b < 0x6812 * 2 ^ 20 → ctrGet z b = ctrGet s b := by
  have hnote := quiet_noteLately 0x0509 (sliceOfHold h) s
  have hdrop := onlyAw_dropHoldItem h (noteLately 0x0509 (sliceOfHold h) s)
  have hdropCnt : (dropHoldItem h (noteLately 0x0509 (sliceOfHold h) s)).cnt = (noteLately 0x0509 (sliceOfHold h) s).cnt := by
    rw [hdrop]
  refine ⟨raise 0x0509 [sliceOfHold h, x.template, tpRoutine (template s x.epoch x.template),
    seenLately 0x0509 (sliceOfHold h) (noteLately 0x0509 (sliceOfHold h) s)]
    (dropHoldItem h (noteLately 0x0509 (sliceOfHold h) s)), ?_, ?_, fun b hb => ?_⟩
  · show execSetupTimeout h s = _
    simp only [execSetupTimeout, hx, hf, hst, hs, hr, decide_eq_true hd]
    simp
  · exact (hnote.aside.trans hdrop.aside).trans (quiet_raise ..).aside
  · exact (ctrGet_raise hb ..).trans ((ctrGet_of_cnt hdropCnt b).trans (ctrGet_of_cnt rfl b))

end Sys2Proof.Machine
end

section
namespace Sys2Proof.Machine

/-! ### O20: flow setup -/

/-- Settles O20: each case of the template, each end of a setup and the search for a port by its own lemma. -/
theorem flowSetups : Obligations.FlowSetups := by
  unfold Obligations.FlowSetups
  refine ⟨?_, fun s n addr lo size h2 m i reads q k rk h => snatSearch_port h, ?_, ?_, ?_⟩
  · intro s h c pid k x hx hh hf hst hcands hbuckets hmatch hchain hother hu hk hs p n e tn T syn barred up failed y ms built
    have hq := quiet_count 0x4020 (sliceOfHold h) 4 s
    have hexec := execBucketArrival_unmatched hx hf hst hcands hbuckets hmatch
    have hx' := (hq.holdAt h).trans hx
    have hk' : (pkt (count 0x4020 (sliceOfHold h) 4 s) pid).key = some k := by rw [hq.pkt]; exact hk
    have hu' : Unretired (count 0x4020 (sliceOfHold h) 4 s) pid := hu.congr hq.path hq.ctl
    have hs' : tsorted (count 0x4020 (sliceOfHold h) 4 s).flow.holds = true := by rw [hq.flow]; exact hs
    have hT : setupTemplate (count 0x4020 (sliceOfHold h) 4 s) pid = T := hq.setupTemplate pid
    have hbar : SetupBarred (count 0x4020 (sliceOfHold h) 4 s) pid k ↔ barred := hq.setupBarred pid k
    have hrefused {i j : Nat} (hi : i = 0x4040 ∨ i = 0x4041) (hj : j < 13)
        (hr : SetupRefused (count 0x4020 (sliceOfHold h) 4 s) h pid i j (enterSetup h (count 0x4020 (sliceOfHold h) 4 s))) :
        ∃ t, failed t ∧ up t i j :=
      ⟨_, ⟨hexec, (hr.of_count hh hi hj).1⟩, (hr.of_count hh hi hj).2⟩
    have hbuilt {r : Nat} {u : Setup}
        (hb : SetupBuilt (count 0x4020 (sliceOfHold h) 4 s) h pid k r u (enterSetup h (count 0x4020 (sliceOfHold h) 4 s))) :
        built (enterSetup h (count 0x4020 (sliceOfHold h) 4 s)) u r := by
      obtain ⟨hi, hrecords, hindex, hlines, hup⟩ := hb.of_count
      exact ⟨hexec, hb.record, hb.unwritten, hi.key, hi.first, hi.last, hi.state, hi.fwd, hi.rev, hi.tclass, hi.aclass, hi.template,
        hi.drop, hi.pinned, hi.reborn, hi.nhRev, hi.editFwd, hi.editRev, hi.meter, hi.mirror, hi.telemetry, hrecords, hindex, hlines,
        hup⟩
    refine ⟨fun hb => ?_, fun hb hkind => ?_, fun hb hkind hd he => ?_, fun r rest hb hd hr hg => ⟨fun hkind => ?_,
      fun nh hkind hv hlb => ?_, fun hkind hv hlb => ?_, fun a addr q rk o hkind hp ho hq16 => ?_⟩, fun hb hkind hc => ?_⟩
    · refine hrefused (.inl rfl) (by decide) ?_
      rw [enterSetup_barred hx' hchain hk' (hbar.mpr hb)]
      exact failChain_setupRefused (c := 3) hh hu' hs' (by decide) _
    · exact hrefused (.inl rfl) (by decide)
        (enterSetup_noTemplate hx' hchain hk' (mt hbar.mp hb) hh hu' hs' (by rw [hT]; exact hkind))
    · exact hrefused (.inr rfl) (by decide) (enterSetup_noRecord hx' hchain hk' (mt hbar.mp hb) hh hother hu' hs'
        (by rw [hT]; exact hkind) (by rw [hq.flow]; exact hd)
        (by rw [hq.flow, hq.sameStore.drawLimit]; exact he))
    · obtain ⟨u, hb', hrk, hnh, htrans, hhold, hothers, hdrawn⟩ := enterSetup_track hx' hchain hk' (mt hbar.mp hb)
        (by rw [hq.flow]; exact hd) (by rw [hq.sameStore.drawLimit]; exact hr) (by rw [hq.sameStore.recGone]; exact hg)
        (by rw [hT]; exact hkind)
      rw [hT] at hnh
      rw [hq.setupEntry] at hhold
      exact ⟨_, u, hbuilt hb', hrk, hnh, htrans, hhold, fun i hi => (hothers i hi).trans (hq.holdAt i), by rw [hdrawn, hq.flow]⟩
    · obtain ⟨u, hb', hnh, hhold⟩ := enterSetup_backend (nh := nh) hx' hchain hk' (mt hbar.mp hb)
        (by rw [hq.flow]; exact hd) (by rw [hq.sameStore.drawLimit]; exact hr) (by rw [hq.sameStore.recGone]; exact hg)
        (by rw [hT]; exact hkind) (by rw [hT, svEntry, hq.fwd]; exact hv)
        (by rw [hT, svEntry, hq.fwd, lbSearch_congr hq.fwd, hq.sameStore.keyHash]; exact hlb)
      rw [hq.setupEntry] at hhold
      exact ⟨_, u, hbuilt hb', hnh, hhold⟩
    · obtain ⟨hgone, hflow, hfall, hchains⟩ := enterSetup_fallBack hx' hchain hk' (mt hbar.mp hb)
        (by rw [hq.flow]; exact hd) (by rw [hq.sameStore.drawLimit]; exact hr) (by rw [hq.sameStore.recGone]; exact hg)
        hu' hother hs' (by rw [hT]; exact hkind) (by rw [hT, svEntry, hq.fwd]; exact hv)
        (by rw [hT, svEntry, hq.fwd, lbSearch_congr hq.fwd, hq.sameStore.keyHash]; exact hlb)
      rw [hT, svEntry, hq.fwd] at hfall
      rw [hq.flow] at hchains
      exact ⟨_, hexec, hgone, hflow, hfall, hchains⟩
    · obtain ⟨u, hb', hrk, htrans, hdst, hindex, hport, hna, hhold, hrev⟩ := enterSetup_snat hx' hchain hk' (mt hbar.mp hb)
        (by rw [hq.flow]; exact hd) (by rw [hq.sameStore.drawLimit]; exact hr) (by rw [hq.sameStore.recGone]; exact hg)
        hs' hq16 (by rw [hT]; exact hkind) (by rw [hT, hq.snatPick]; exact hp) ((hq.freeHold _).trans ho)
      rw [hq.setupEntry] at hhold
      rw [hq.reverseEntry] at hrev
      exact ⟨_, u, hbuilt hb', hrk, htrans, hdst, hindex, hport, hna, hhold, hrev⟩
    · obtain ⟨i, hhold, hmem, hroutine, hparam, hslice, hsource, hdesc, hdata, hepoch⟩ := enterSetup_routine hx' hchain hk'
        (mt hbar.mp hb) (by rw [hT]; exact hkind) (by rw [hT, hq.classRefuses]; exact hc)
      rw [hT] at hmem hroutine hparam
      rw [hq.setupEntry] at hhold
      exact ⟨_, i, hexec, hhold, hmem, hroutine, hparam, hslice, hsource, hdesc, hdata,
        hepoch.trans (by rw [pktEpoch, hq.pkt, hq.ctl]; rfl)⟩
  · intro s h x u hx hh hf hst hset hw hother hrk hg n l b
    refine ⟨fun y hl hb hfree hp htrans hlen hr => ?_, fun pid hchain hu hs => ?_, ?_⟩
    · obtain ⟨v, z, line, hexec, honly, hline, hrec, hlink, hdirty, hlst, hdpf, hdbf⟩ :=
        setupReads_commit hx hf hst hset hw hrk hg hl hb hfree hp hlen
      refine ⟨_, z, line, hexec, ?_, fun j hj => ?_, ?_, fun j hj => ?_, hline, hrec, hlink, hdirty, hlst, hdpf, hdbf,
        holdAt_setHold_same .., fun i hi => ?_, honly.path.trans recordWritten_path⟩
      · show tfind v.flow.records u.record = _
        rw [honly.records, recordWritten_records]
        exact tfind_tput_same ..
      · show tfind v.flow.records j = _
        rw [honly.records, recordWritten_records, tfind_tput_other _ _ hj]
        rfl
      · show tget 0 v.flow.index y = _
        rw [honly.index, recordWritten_index]
        exact tget_tset_ne_default (x := mkSlot _ _ _ _) (mkSlot_ne_zero _ _ _ _) _ _
      · show tget 0 v.flow.index j = _
        rw [honly.index, recordWritten_index, tget_tset_other _ _ hj]
      · rw [holdAt_setHold_other hi, holdAt, honly.holds, recordWritten_holds, holdAt]
    · have hfail := insertFail_one (cause := 6) hx hh (by decide) hchain hother hu hs
      exact ⟨_, execSetupReadsComplete_bad hx hf hst hset hw, hfail.gone, hfail.others, tget_chains_insertFailed hfail hset,
        hfail.records, hfail.index, hfail.counted, hfail.mark⟩
    · show execSetupWritesAcknowledged h s = _
      simp only [execSetupWritesAcknowledged, hx, Option.bind_some, hset, hw, Bool.false_and, Bool.false_eq_true, if_false]
  · intro s h pid y k x u l r hx hh hf hset hw hother hrk hchain hu hk hseg hp hl hrec htrans hlt hmeter htel hroom hsh hsl n
    obtain ⟨hlrec, hllink⟩ := primaryOf_line hsl hp hl
    have hdel : delBoth h s = delHold h s := by simp only [delBoth, hx, Option.bind_some, hother]
    obtain ⟨t, hserve, ⟨⟨l', hflow, hrec', hlink', hpackets, hbytes, hlast, hdirty⟩, hmark, hctl⟩, hcnt⟩ :=
      serveChain_primary (s := delHold h s) (n := n) (r := u.record) hk (hu.congr rfl rfl) hseg hl hllink hroom hmeter hrec hp
        htrans hlt u.image.key
    have hq := quiet_count 0x4040 n 0 t
    have hexec : exec (.setupWritesAcknowledged h) s = .next (count 0x4040 n 0 t) := by
      show execSetupWritesAcknowledged h s = _
      simp only [execSetupWritesAcknowledged, hx, Option.bind_some, hset, hw, hf, Bool.not_false, Bool.and_true, if_true, setupRelease,
        hchain, hrk, hdel, startTrigger, htel, Bool.false_eq_true, if_false]
      rw [← hserve]
    have hflow' : (count 0x4040 n 0 t).flow = _ := hq.flow.trans hflow
    refine ⟨_, l', hexec, ?_, fun i hi => ?_, ?_, hrec'.trans hlrec, hpackets, hbytes, hlast, hdirty, fun z hz => ?_,
      (congrArg Packet.flow (hq.pkt pid)).trans hmark, ?_, ?_, fun hlt => ?_⟩
    · rw [holdAt, hflow']; exact holdAt_delHold_same hsh h
    · rw [holdAt, hflow']; exact holdAt_delHold_other hi s
    · rw [lineAt, hflow']; exact tfind_tput_same ..
    · rw [lineAt, hflow']; exact (tfind_tput_other _ _ hz).trans (tfind_tput_other _ _ hz)
    · rw [hflow']; rfl
    · rw [hflow']; rfl
    · have hn : n < 16 := sliceOfHold_lt hh
      have hsame : ctrGet t (oa 0x4040 n 0) = ctrGet s (oa 0x4040 n 0) :=
        (ctrGet_of_cnt hcnt _).trans (ctrGet_count_other (by simp only [oa]; omega) (by simp only [oa]; omega) _)
      rw [ctrGet_count_same (by rwa [hsame]), hsame]
  · intro s h pid x hx hh hf hst hset hother hrev hchain hu hs n
    refine ⟨fun hd => execSetupTimeout_early hx hd, fun hd => ?_⟩
    obtain ⟨z, hexec, hframe, hctr⟩ := execSetupTimeout_due hx hf hst hset hrev hd
    have hflow : z.flow = s.flow := by rw [hframe]
    have hn : n < 16 := sliceOfHold_lt hh
    have hfail := insertFail_one (s := z) (cause := 4) ((holdAt_of_flow hflow h).trans hx) hh (by decide) hchain hother
      (hu.congr (by rw [hframe]) (by rw [hframe])) (by rw [hflow]; exact hs)
    have hsame : ctrGet z (oa 0x4041 n 4) = ctrGet s (oa 0x4041 n 4) := hctr _ (by simp only [oa]; omega)
    refine ⟨_, hexec, hfail.gone, fun i hi => (hfail.others i hi).trans (holdAt_of_flow hflow i), hfail.records.trans (by rw [hflow]),
      hfail.lines.trans (by rw [hflow]), fun hlt => ?_, hfail.mark.trans (by rw [hframe]; rfl)⟩
    rw [hfail.counted (by rwa [hsame]), hsame]

end Sys2Proof.Machine
end

section
namespace Sys2Proof.Machine

/-! ### The ageing scanner's visit (R182) -/

/-- A visit notes its number, and nominates the record when its number is new and it is not idle. -/
def visited (r q p a : Nat) (s : State) : State :=
  let s1 := setFlow s { s.flow with visits := tset 0 s.flow.visits r q }
  if tget 0 s.flow.visits r < q ∧ p ≤ a then
    setFlow s1 { s1.flow with nominated := s1.flow.nominated.filter (· != r) ++ [r] }
  else s1

theorem visited_eq (r q p a : Nat) (s : State) : ∃ v l, visited r q p a s =
    { s with flow := { s.flow with visits := v, nominated := l } } := by
  by_cases h : tget 0 s.flow.visits r < q ∧ p ≤ a
  · exact ⟨tset 0 s.flow.visits r q, s.flow.nominated.filter (· != r) ++ [r], by rw [visited, if_pos h]; rfl⟩
  · exact ⟨tset 0 s.flow.visits r q, s.flow.nominated, by rw [visited, if_neg h]; rfl⟩

theorem nominate_on {r : Nat} {x : FlowRec} {s : State} (h : (cnTelemetry x.cnt).testBit 2 = true) : nominate r x s =
    visited r (idleMs s (cnFirst x.cnt) / max 1 (cfgN s 0x7831 0 0 * 1000)) (idleMs s (cnLast x.cnt))
      (max 1 (cfgN s 0x7831 0 0 * 1000)) s := by
  rw [nominate, if_neg (by rw [h]; decide), visited]

theorem nominate_off {r : Nat} {x : FlowRec} {s : State} (h : (cnTelemetry x.cnt).testBit 2 = false) : nominate r x s = s := by
  simp only [nominate, h, Bool.not_false, if_true]

/-- A visit touches only what it notes of visits and nominations. -/
theorem nominate_eq (r : Nat) (x : FlowRec) (s : State) : ∃ v l, nominate r x s =
    { s with flow := { s.flow with visits := v, nominated := l } } := by
  cases h : (cnTelemetry x.cnt).testBit 2 with
  | false => exact ⟨s.flow.visits, s.flow.nominated, nominate_off h⟩
  | true => rw [nominate_on h]; exact visited_eq ..

theorem execAgeScan_off {s : State} (h : cfgOn s 0x4031 0 0 = false) (r : Nat) : exec (.ageScan r) s = .next s := by
  change execAgeScan r s = _
  simp [execAgeScan, h]

theorem execAgeScan_absent {s : State} {r : Nat} (h : flowRec s r = none) : exec (.ageScan r) s = .next s := by
  change execAgeScan r s = _
  simp [execAgeScan, h]

section
variable {s : State} {r : Nat} {x : FlowRec} (hx : flowRec s r = some x) (hf : flowHalted s = false)
  (hon : cfgOn s 0x4031 0 0 = true) (hg : recGone s r = false)
include hx hf hon hg

theorem execAgeScan_due (hd : classTimeout s (cnClass x.cnt) ≤ idleMs s (cnLast x.cnt)) (hp : stPinned x.st = false) :
    exec (.ageScan r) s = .next (setFlow (nominate r x s) { (nominate r x s).flow with
      ageQ := tput s.flow.ageQ (homeSlice s x.key) (tget [] s.flow.ageQ (homeSlice s x.key) ++ [(r, s.path.turns)]) }) := by
  change execAgeScan r s = _
  obtain ⟨v, l, hn⟩ := nominate_eq r x s
  have hq : (nominate r x s).flow.ageQ = s.flow.ageQ := by rw [hn]
  have ht : (nominate r x s).path = s.path := by rw [hn]
  simp only [execAgeScan, hx, hf, hon, hg, hp, Nat.not_lt.mpr hd, Bool.not_true, Bool.false_eq_true, or_self, if_false, hq, ht]

theorem execAgeScan_kept (h : idleMs s (cnLast x.cnt) < classTimeout s (cnClass x.cnt) ∨ stPinned x.st = true) :
    exec (.ageScan r) s = .next (nominate r x s) := by
  change execAgeScan r s = _
  simp only [execAgeScan, hx, hf, hon, hg, h, Bool.not_true, Bool.false_eq_true, or_self, if_false, if_true]

end

/-! ### The reason of an age-out (R186) -/

theorem ageReason_eq (r : FlowRec) : ageReason r = (if stClass r.st = 15 ∧ kProto r.key = 6 ∧
    ((stFwd r.st = 4 ∧ stRev r.st = 4) ∨ stFwd r.st = 5 ∨ stRev r.st = 5) then 2 else 1) := rfl

/-! ### The end of removals (R184) -/

theorem enterSetup_emptyChain {s : State} {h : Nat} {x : Hold} (hx : holdAt s h = some x) (hc : x.chain = []) :
    enterSetup h s = delHold h s := by
  unfold enterSetup
  simp [hx, hc]

theorem tsorted_delHold {s : State} (hs : tsorted s.flow.holds = true) (h : Nat) : tsorted (delHold h s).flow.holds = true :=
  tsortedFrom_tdel hs h

/-- Entries with empty chains that enter SETUP are removed, and nothing else happens. -/
theorem foldl_enterSetup_empty (l : List (Nat × Hold)) {s : State} (hs : tsorted s.flow.holds = true)
    (hn : (l.map (·.1)).Nodup) (hl : ∀ e ∈ l, holdAt s e.1 = some e.2 ∧ e.2.chain = []) :
    let t := l.foldl (fun t r => enterSetup r.1 t) s
    (∀ h, holdAt t h = if h ∈ l.map (·.1) then none else holdAt s h) ∧
      t = { s with flow := { s.flow with
        holds := t.flow.holds, missQ := t.flow.missQ, surrender := t.flow.surrender } } := by
  induction l generalizing s with
  | nil => exact ⟨fun h => by simp, rfl⟩
  | cons e l ih =>
    obtain ⟨hx, hc⟩ := hl e (List.mem_cons_self ..)
    rw [List.map_cons, List.nodup_cons] at hn
    have hl' : ∀ r ∈ l, holdAt (delHold e.1 s) r.1 = some r.2 ∧ r.2.chain = [] := fun r hr => by
      have hne : r.1 ≠ e.1 := fun h => hn.1 (h ▸ List.mem_map_of_mem hr)
      rw [holdAt_delHold_other hne]
      exact hl r (List.mem_cons_of_mem _ hr)
    obtain ⟨hall, hframe⟩ := ih (tsorted_delHold hs e.1) hn.2 hl'
    rw [List.foldl_cons, enterSetup_emptyChain hx hc]
    refine ⟨fun h => ?_, by rw [hframe]; rfl⟩
    rw [hall h]
    by_cases he : h = e.1
    · subst he
      simp [holdAt_delHold_same hs]
    · simp only [List.map_cons, List.mem_cons, he, false_or, holdAt_delHold_other he]

theorem removalEnd_empty {s : State} {n : Nat} (hs : tsorted s.flow.holds = true)
    (hc : ∀ e ∈ holdsOf s n, e.2.state = 4 → e.2.chain = []) :
    (∀ h, holdAt (removalEnd n s) h =
        if h / 65536 = n ∧ (holdAt s h).any (·.state == 4) = true then none else holdAt s h) ∧
      removalEnd n s = { s with flow := { s.flow with
        holds := (removalEnd n s).flow.holds, missQ := (removalEnd n s).flow.missQ,
        surrender := (removalEnd n s).flow.surrender } } := by
  have hsub : ((holdsOf s n).filter fun r => r.2.state == 4).Sublist s.flow.holds :=
    List.filter_sublist.trans List.filter_sublist
  have hn : (((holdsOf s n).filter fun r => r.2.state == 4).map (·.1)).Nodup :=
    ((pairwise_of_tsortedFrom hs).imp Nat.ne_of_lt).sublist (hsub.map _)
  obtain ⟨hall, hframe⟩ := foldl_enterSetup_empty _ hs hn fun e he => by
    have hm := List.mem_filter.mp he
    exact ⟨tfind_eq_some_of_mem hs (hsub.subset he), hc e hm.1 (by simpa using hm.2)⟩
  refine ⟨fun h => (hall h).trans ?_, hframe⟩
  congr 1
  refine propext ⟨fun hm => ?_, fun ⟨hd, hst⟩ => ?_⟩
  · obtain ⟨e, he, rfl⟩ := List.mem_map.mp hm
    have he' : holdAt s e.1 = some e.2 := tfind_eq_some_of_mem hs (hsub.subset he)
    simp only [holdsOf, List.mem_filter, beq_iff_eq] at he
    exact ⟨he.1.2, by simp [he', he.2]⟩
  · obtain ⟨x, hx⟩ := Option.any_eq_true _ _ |>.mp hst
    exact List.mem_map.mpr ⟨(h, x), by
      simp only [holdsOf, List.mem_filter, beq_iff_eq]
      exact ⟨⟨mem_holds_of_holdAt hx.1, hd⟩, by simpa using hx.2⟩, rfl⟩

end Sys2Proof.Machine
end

section
namespace Sys2Proof.Machine

/-! ### Folds that establish a fact of each member and keep it -/

/-- A fold whose every step moves along R, which keeps I and each P a, makes P a true for each member a when its step does. -/
theorem foldl_establishes {α β : Type} {f : β → α → β} {R : β → β → Prop} {I : β → Prop} {P : α → β → Prop}
    (hrefl : ∀ t, R t t) (htrans : ∀ {t u v}, R t u → R u v → R t v) (hstep : ∀ t a, R t (f t a))
    (hI : ∀ {t u}, R t u → I t → I u) (hP : ∀ a t, I t → P a (f t a)) (hkeep : ∀ {a t u}, R t u → P a t → P a u)
    (l : List α) {s : β} (hs : I s) : R s (l.foldl f s) ∧ ∀ a ∈ l, P a (l.foldl f s) := by
  induction l generalizing s with
  | nil => exact ⟨hrefl s, fun a ha => absurd ha (List.not_mem_nil)⟩
  | cons a l ih =>
    obtain ⟨hR, hall⟩ := ih (hI (hstep s a) hs)
    refine ⟨htrans (hstep s a) hR, fun b hb => ?_⟩
    rcases List.mem_cons.mp hb with rfl | hb
    · exact hkeep hR (hP b s hs)
    · exact hall b hb

/-! ### Index entries cleared (R184) -/

/-- t differs from s in index entries that have gone and in counters of the pseudo-channels. -/
structure IndexThinned (s t : State) : Prop where
  frame : t = { s with
    flow := { s.flow with index := t.flow.index, index2 := t.flow.index2 }, cnt := { s.cnt with ctr := t.cnt.ctr } }
  counters : ∀ b, b < 0x6031 * 2 ^ 20 → ctrGet t b = ctrGet s b
  slots : tsorted s.flow.index = true → tsorted s.flow.index2 = true → ∀ l x, idxGet t l x = idxGet s l x ∨ idxGet t l x = 0
  sorted : tsorted s.flow.index = true → tsorted t.flow.index = true
  sorted2 : tsorted s.flow.index2 = true → tsorted t.flow.index2 = true

theorem IndexThinned.refl (s : State) : IndexThinned s s :=
  ⟨rfl, fun _ _ => rfl, fun _ _ _ _ => .inl rfl, id, id⟩

theorem IndexThinned.trans {s t u : State} (h : IndexThinned s t) (h' : IndexThinned t u) : IndexThinned s u where
  frame := by rw [h'.frame, h.frame]
  counters b hb := (h'.counters b hb).trans (h.counters b hb)
  slots hs hs2 l x := (h'.slots (h.sorted hs) (h.sorted2 hs2) l x).elim
    (fun e => (h.slots hs hs2 l x).imp e.trans e.trans) .inr
  sorted := h'.sorted ∘ h.sorted
  sorted2 := h'.sorted2 ∘ h.sorted2

theorem IndexThinned.bucketGone {s t : State} (h : IndexThinned s t) (l : IdxLay) (b : Nat) : bucketGone t l b = bucketGone s l b := by
  rw [h.frame]; rfl

theorem tsorted_tset {α : Type} [DecidableEq α] {d : α} {t : Tbl α} (h : tsorted t = true) (n : Nat) (x : α) :
    tsorted (tset d t n x) = true := by
  unfold tset
  split
  · exact tsortedFrom_tdel h n
  · exact tsortedFrom_tput h (Nat.zero_le n) x

theorem tget_tset {α : Type} [DecidableEq α] {d : α} {t : Tbl α} (h : tsorted t = true) (n m : Nat) (x : α) :
    tget d (tset d t n x) m = if m = n then x else tget d t m := by
  split
  next he => rw [he, tget_tset_same_of_tsorted h]
  next he => exact tget_tset_other t x he

theorem indexThinned_idxPut_zero (l : IdxLay) (x : Nat) (s : State) : IndexThinned s (idxPut l x 0 s) := by
  unfold idxPut
  split
  · refine ⟨by rw [count_eq], fun b hb => ctrGet_count_other (by simp only [oa]; omega) (by omega) s,
      fun _ _ l x => .inl ?_, ?_, ?_⟩
    · rw [count_eq]
      rfl
    · rw [count_eq]; exact id
    · rw [count_eq]; exact id
  · split
    next hb =>
      refine ⟨rfl, fun _ _ => rfl, fun hs hs2 l' y => ?_, id, fun hs2 => tsorted_tset (d := 0) hs2 x 0⟩
      cases hl : l'.building
      · left; simp only [idxGet, idxTable, hl]; rfl
      · simp only [idxGet, idxTable, hl]
        show tget 0 (tset 0 s.flow.index2 x 0) y = tget 0 s.flow.index2 y ∨ tget 0 (tset 0 s.flow.index2 x 0) y = 0
        rw [tget_tset hs2]
        split
        · exact .inr rfl
        · exact .inl rfl
    next hb =>
      refine ⟨rfl, fun _ _ => rfl, fun hs hs2 l' y => ?_, fun hs => tsorted_tset (d := 0) hs x 0, id⟩
      cases hl : l'.building
      · simp only [idxGet, idxTable, hl]
        show tget 0 (tset 0 s.flow.index x 0) y = tget 0 s.flow.index y ∨ tget 0 (tset 0 s.flow.index x 0) y = 0
        rw [tget_tset hs]
        split
        · exact .inr rfl
        · exact .inl rfl
      · left; simp only [idxGet, idxTable, hl]; rfl

theorem idxGet_idxPut_same {s : State} {l : IdxLay} {x : Nat} (hg : bucketGone s l (x / 8) = false)
    (hs : tsorted s.flow.index = true) (hs2 : tsorted s.flow.index2 = true) (v : BitVec 64) : idxGet (idxPut l x v s) l x = v := by
  simp only [idxPut, hg, Bool.false_eq_true, if_false]
  cases hb : l.building
  · simp only [Bool.false_eq_true, if_false, idxGet, idxTable, hb]
    exact tget_tset_same_of_tsorted hs x v
  · simp only [if_true, idxGet, idxTable, hb]
    exact tget_tset_same_of_tsorted hs2 x v

/-- A slot is an entry of a record under a direction. -/
def SlotOf (record dir : Nat) (v : BitVec 64) : Prop := slValid v = true ∧ slRec v = record ∧ slDir v = dir

/-- Clear a slot when it is an entry of a record under a direction. -/
def slotClear (l : IdxLay) (record dir x : Nat) (s : State) : State :=
  if slValid (idxGet s l x) ∧ slRec (idxGet s l x) = record ∧ slDir (idxGet s l x) = dir then idxPut l x 0 s else s

theorem idxClear_eq (k : BitVec 384) (record dir : Nat) (s : State) : idxClear k record dir s =
    (layouts s).foldl (fun t l => ((layBuckets l k).flatMap bucketSlots).foldl (fun u x => slotClear l record dir x u) t) s := rfl

theorem indexThinned_slotClear (l : IdxLay) (record dir x : Nat) (s : State) : IndexThinned s (slotClear l record dir x s) := by
  unfold slotClear
  split
  · exact indexThinned_idxPut_zero l x s
  · exact .refl s

theorem not_slotOf_zero (record dir : Nat) : ¬ SlotOf record dir 0 := fun h => absurd h.1 (by decide)

/-- Both index tables have rising keys. -/
def IndexSorted (s : State) : Prop := tsorted s.flow.index = true ∧ tsorted s.flow.index2 = true

theorem IndexThinned.indexSorted {s t : State} (h : IndexThinned s t) (hs : IndexSorted s) : IndexSorted t :=
  ⟨h.sorted hs.1, h.sorted2 hs.2⟩

/-- Slot x of a layout is no entry of the record, with both tables in order. -/
def SlotFree (l : IdxLay) (record dir x : Nat) (s : State) : Prop := IndexSorted s ∧ ¬ SlotOf record dir (idxGet s l x)

theorem SlotFree.thinned {l : IdxLay} {record dir x : Nat} {s t : State} (h : IndexThinned s t) (hf : SlotFree l record dir x s) :
    SlotFree l record dir x t := by
  refine ⟨h.indexSorted hf.1, ?_⟩
  rcases h.slots hf.1.1 hf.1.2 l x with e | e
  · rw [e]; exact hf.2
  · rw [e]; exact not_slotOf_zero record dir

theorem slotFree_slotClear {l : IdxLay} {record dir x : Nat} {s : State} (hg : bucketGone s l (x / 8) = false)
    (hs : IndexSorted s) : SlotFree l record dir x (slotClear l record dir x s) := by
  refine ⟨(indexThinned_slotClear l record dir x s).indexSorted hs, ?_⟩
  unfold slotClear
  split
  next h => rw [idxGet_idxPut_same hg hs.1 hs.2]; exact not_slotOf_zero record dir
  next h => exact h

/-- Clearing slots of a layout frees each that lies on no retired pseudo-channel. -/
theorem slotFree_foldl_slotClear (l : IdxLay) (record dir : Nat) (xs : List Nat) (s : State) (hs : IndexSorted s) :
    IndexThinned s (xs.foldl (fun u x => slotClear l record dir x u) s) ∧
      ∀ x ∈ xs, bucketGone s l (x / 8) = false → SlotFree l record dir x (xs.foldl (fun u x => slotClear l record dir x u) s) :=
  foldl_establishes (R := IndexThinned) (I := fun t => IndexSorted t ∧ ∀ b, bucketGone t l b = bucketGone s l b)
    (P := fun x t => bucketGone s l (x / 8) = false → SlotFree l record dir x t)
    .refl .trans (fun t x => indexThinned_slotClear l record dir x t)
    (fun h hI => ⟨h.indexSorted hI.1, fun b => (h.bucketGone l b).trans (hI.2 b)⟩)
    (fun _ _ hI hg => slotFree_slotClear ((hI.2 _).trans hg) hI.1) (fun h hP hg => (hP hg).thinned h) xs
    ⟨hs, fun _ => rfl⟩

theorem indexThinned_foldl {α : Type} {f : State → α → State} (h : ∀ t a, IndexThinned t (f t a)) (l : List α) (s : State) :
    IndexThinned s (l.foldl f s) := by
  induction l generalizing s with
  | nil => exact .refl s
  | cons a l ih => exact (h s a).trans (ih _)

theorem indexThinned_idxClear (k : BitVec 384) (record dir : Nat) (s : State) : IndexThinned s (idxClear k record dir s) := by
  rw [idxClear_eq]
  exact indexThinned_foldl (fun t l => indexThinned_foldl (fun u x => indexThinned_slotClear l record dir x u) _ t) _ s

/-- After idxClear no reachable slot of the key's buckets is an entry of the record (R184). -/
theorem slotFree_idxClear (k : BitVec 384) (record dir : Nat) {s : State} (hs : IndexSorted s) {l : IdxLay} (hl : l ∈ layouts s)
    {b : Nat} (hb : b ∈ layBuckets l k) (hg : bucketGone s l b = false) {y : Nat} (hy : y ∈ bucketSlots b) :
    SlotFree l record dir y (idxClear k record dir s) := by
  rw [idxClear_eq]
  have h := foldl_establishes (f := fun t l => ((layBuckets l k).flatMap bucketSlots).foldl (fun u x => slotClear l record dir x u) t)
    (R := IndexThinned) (I := fun t => IndexSorted t ∧ ∀ l b, bucketGone t l b = bucketGone s l b)
    (P := fun l t => ∀ x ∈ (layBuckets l k).flatMap bucketSlots, bucketGone s l (x / 8) = false → SlotFree l record dir x t)
    .refl .trans (fun t l => indexThinned_foldl (fun u x => indexThinned_slotClear l record dir x u) _ t)
    (fun h hI => ⟨h.indexSorted hI.1, fun l b => (h.bucketGone l b).trans (hI.2 l b)⟩)
    (fun l t hI x hx hg => (slotFree_foldl_slotClear l record dir _ t hI.1).2 x hx ((hI.2 _ _).trans hg))
    (fun h hP x hx hg => (hP x hx hg).thinned h) (layouts s) ⟨hs, fun _ _ => rfl⟩
  exact h.2 l hl y (List.mem_flatMap.mpr ⟨b, hb, hy⟩) (by rw [div_eq_of_mem_bucketSlots hy]; exact hg)

end Sys2Proof.Machine
end

section
namespace Sys2Proof.Machine

/-! ### The stages of a flow's end (R184) -/

/-- The lines of a record dropped. -/
def linesDropped (r : Nat) (s : State) : State := (linesOf s r).foldl (fun t x => dropLine x t) s

/-- What the slices hold of a record dropped: lines, buffered lines, visits, ageing requests and nominations. -/
def tracesDropped (r : Nat) (s : State) : State :=
  let s1 := linesDropped r s
  setFlow s1 { s1.flow with
    wb := (s1.flow.wb.map fun w => (w.1, w.2.filter fun e => e.line.record != r)).filter fun w => !w.2.isEmpty
    visits := tdel s1.flow.visits r
    ageQ := (s1.flow.ageQ.map fun w => (w.1, w.2.filter (·.1 != r))).filter fun w => !w.2.isEmpty
    nominated := s1.flow.nominated.filter (· != r)
    rehash := s1.flow.rehash.map fun z => { z with newOnly := z.newOnly.filter (· != r) } }

/-- The keys of a record RETIRING and its index entries cleared. -/
def keysRetired (r n : Nat) (k : BitVec 384) (rk : Option (BitVec 384)) (s : State) : State :=
  let s3 := retireKey n k s
  idxClear k r 0 (match rk with
    | some j => idxClear j r 1 (retireKey n j s3)
    | none => s3)

/-- The end notice of an image, where there is one. -/
def noticeGiven (n r reason : Nat) (image : Option FlowRec) (s : State) : State :=
  match image with
  | some img => exportEnd n r reason img s
  | none => s

/-- The record freed: it goes, and its index returns to its chain. -/
def recordFreed (r : Nat) (s : State) : State :=
  let t := setFlow s { s.flow with records := tdel s.flow.records r }
  if r < t.flow.nr then chainPush r t else t

/-- The end counted, and an aged key noted as reborn (R185). -/
def endCounted (n reason : Nat) (k : BitVec 384) (s : State) : State :=
  let t := if reason = 1 then count 0x4040 n 5 s else if reason = 2 then count 0x4040 n 6 s else s
  if reason = 1 ∨ reason = 2 then noteReborn n k t else t

theorem flowEnd_eq {s : State} {r : Nat} {x : FlowRec} (hx : flowRec s r = some x) (reason : Nat) (image : Option FlowRec) :
    flowEnd r reason image s =
      let n := homeSlice s x.key
      endCounted n reason x.key (recordFreed r (noticeGiven n r reason image (keysRetired r n x.key (recReverse s x)
        (foldsGoOn n (issueReads r (tracesDropped r s)))))) := by
  simp only [flowEnd, hx]
  cases image <;> rfl

theorem flowEnd_absent {s : State} {r : Nat} (hx : flowRec s r = none) (reason : Nat) (image : Option FlowRec) :
    flowEnd r reason image s = s := by simp only [flowEnd, hx]

/-! ### Lines dropped -/

theorem foldl_dropLine (xs : List Nat) (s : State) : xs.foldl (fun t x => dropLine x t) s =
    setFlow s { s.flow with lines := xs.foldl tdel s.flow.lines } := by
  induction xs generalizing s with
  | nil => rfl
  | cons x xs ih => rw [List.foldl_cons, ih]; rfl

theorem tfind_foldl_tdel {α : Type} {t : Tbl α} (h : tsorted t = true) (xs : List Nat) (n : Nat) :
    tfind (xs.foldl tdel t) n = if n ∈ xs then none else tfind t n := by
  induction xs generalizing t with
  | nil => simp
  | cons x xs ih =>
    rw [List.foldl_cons, ih (tsortedFrom_tdel h x)]
    by_cases he : n = x
    · subst he; simp [tfind_tdel_same h n]
    · simp only [List.mem_cons, he, false_or, tfind_tdel_other t he]

theorem linesDropped_eq (r : Nat) (s : State) :
    linesDropped r s = setFlow s { s.flow with lines := (linesOf s r).foldl tdel s.flow.lines } := foldl_dropLine ..

theorem lineAt_linesDropped {s : State} (hs : tsorted s.flow.lines = true) (r y : Nat) (l : Line) :
    lineAt (linesDropped r s) y = some l ↔ lineAt s y = some l ∧ l.record ≠ r := by
  rw [linesDropped_eq, lineAt]
  show tfind ((linesOf s r).foldl tdel s.flow.lines) y = some l ↔ _
  rw [tfind_foldl_tdel hs]
  have hmem : y ∈ linesOf s r ↔ ∃ l', lineAt s y = some l' ∧ l'.record = r := by
    simp only [linesOf, List.mem_map, List.mem_filter, beq_iff_eq]
    exact ⟨fun ⟨e, he, hy⟩ => ⟨e.2, hy ▸ tfind_eq_some_of_mem hs he.1, he.2⟩,
      fun ⟨l', hl', hr⟩ => ⟨(y, l'), ⟨mem_of_tfind_eq_some hl', hr⟩, rfl⟩⟩
  split
  next h =>
    obtain ⟨l', hl', hr⟩ := hmem.mp h
    exact ⟨fun hn => (nomatch hn), fun ⟨hl, hne⟩ => absurd ((Option.some.inj (hl'.symm.trans hl)) ▸ hr) hne⟩
  next h => exact ⟨fun hl => ⟨hl, fun hr => h (hmem.mpr ⟨l, hl, hr⟩)⟩, fun hl => hl.1⟩

/-- The slices' traces of a record go with nothing else. -/
theorem tracesDropped_eq (r : Nat) (s : State) : tracesDropped r s = { s with flow := { s.flow with
    lines := (linesDropped r s).flow.lines, wb := (tracesDropped r s).flow.wb, visits := (tracesDropped r s).flow.visits,
    ageQ := (tracesDropped r s).flow.ageQ, nominated := (tracesDropped r s).flow.nominated,
    rehash := s.flow.rehash.map fun z => { z with newOnly := z.newOnly.filter (· != r) } } } := by
  unfold tracesDropped
  rw [linesDropped_eq]
  rfl

/-! ### What the stages leave alone -/

/-- t differs from s in what the slices hold of flows, in the index, and outside the flow engine in the HBM's queues, the
scheduler, counters and the host interface alone. -/
def Detached (s t : State) : Prop := t = { s with
  flow := { s.flow with
    index := t.flow.index, index2 := t.flow.index2, lines := t.flow.lines, lru := t.flow.lru, wb := t.flow.wb,
    holds := t.flow.holds,
    ageQ := t.flow.ageQ, rehash := t.flow.rehash, visits := t.flow.visits, nominated := t.flow.nominated,
    foldWait := t.flow.foldWait }
  hbm := t.hbm, cnt := t.cnt, host := t.host, aw := t.aw }

theorem Detached.refl (s : State) : Detached s s := rfl
theorem Detached.trans {s t u : State} (h : Detached s t) (h' : Detached t u) : Detached s u := by
  unfold Detached at *; rw [h', h]
theorem Aside.detached {s t : State} (h : Aside s t) : Detached s t := by rw [h]; rfl
theorem IndexThinned.detached {s t : State} (h : IndexThinned s t) : Detached s t := by rw [h.frame]; rfl

theorem detached_foldl {α : Type} {f : State → α → State} (h : ∀ t a, Detached t (f t a)) (l : List α) (s : State) :
    Detached s (l.foldl f s) := by
  induction l generalizing s with
  | nil => exact .refl s
  | cons a l ih => exact (h s a).trans (ih _)

theorem detached_tracesDropped (r : Nat) (s : State) : Detached s (tracesDropped r s) := by rw [tracesDropped_eq]; rfl

theorem detached_hbmRequest (cls a len : Nat) (w : Bool) (s : State) : Detached s (hbmRequest cls a len w s) := by
  rw [hbmRequest_eq]; rfl

theorem detached_issueReads (r : Nat) (s : State) : Detached s (issueReads r s) := by
  unfold issueReads
  split
  · exact .refl s
  · refine detached_foldl (fun t e => ?_) _ s
    exact Detached.trans (t := setFlow t { t.flow with holds := tput t.flow.holds e.1 { e.2 with readWaits := false } }) rfl
      (detached_hbmRequest ..)

theorem detached_retireKey (n : Nat) (k : BitVec 384) (s : State) : Detached s (retireKey n k s) := by
  unfold retireKey
  split <;> rfl

theorem aside_submitItem (i : Item) (s : State) : Aside s (submitItem i s).2 := by
  cases h : classRefuses s i.cls
  · obtain ⟨q, c, w, t, ht, -, hframe, -⟩ := submitItem_taken h
    rw [ht, hframe]; rfl
  · simp only [submitItem, h, if_true, itemRefused]
    exact ((quiet_count ..).trans (quiet_raiseLimited ..)).aside

theorem quiet_streamLoss (st kind : Nat) (s : State) : Quiet s (streamLoss st kind s) := by
  unfold streamLoss
  exact (quiet_noteLately ..).trans (quiet_raiseLimited ..)

theorem quiet_noticeLost (s : State) : Quiet s (noticeLost s) := by
  unfold noticeLost
  exact Quiet.trans (t := notSent (flowStream s) 1 s) rfl (quiet_streamLoss ..)

theorem aside_exportEnd (n r reason : Nat) (img : FlowRec) (s : State) : Aside s (exportEnd n r reason img s) := by
  unfold exportEnd
  split
  · dsimp only
    split
    · exact aside_submitItem ..
    · exact (aside_submitItem ..).trans (((quiet_count ..).trans (quiet_raiseLimited ..)).trans (quiet_noticeLost _)).aside
  · exact .refl s

theorem aside_noticeGiven (n r reason : Nat) (image : Option FlowRec) (s : State) : Aside s (noticeGiven n r reason image s) := by
  cases image with
  | none => exact .refl s
  | some img => exact aside_exportEnd ..

theorem detached_keysRetired (r n : Nat) (k : BitVec 384) (rk : Option (BitVec 384)) (s : State) :
    Detached s (keysRetired r n k rk s) := by
  unfold keysRetired
  refine Detached.trans ?_ (indexThinned_idxClear ..).detached
  cases rk with
  | none => exact detached_retireKey n k s
  | some j => exact ((detached_retireKey n k s).trans (detached_retireKey n j _)).trans (indexThinned_idxClear ..).detached

/-- Each line of t stands in s, of the same record. -/
def LinesKept (s t : State) : Prop := ∀ y l, lineAt t y = some l → ∃ l', lineAt s y = some l' ∧ l'.record = l.record

theorem LinesKept.refl (s : State) : LinesKept s s := fun _ l h => ⟨l, h, rfl⟩
theorem LinesKept.trans {s t u : State} (h : LinesKept s t) (h' : LinesKept t u) : LinesKept s u := fun y l hl => by
  obtain ⟨l1, h1, e1⟩ := h' y l hl
  obtain ⟨l2, h2, e2⟩ := h y l1 h1
  exact ⟨l2, h2, e2.trans e1⟩
theorem linesKept_of_lines {s t : State} (h : t.flow.lines = s.flow.lines) : LinesKept s t := fun y l hl =>
  ⟨l, by rw [lineAt, ← h]; exact hl, rfl⟩

/-- A fold with room in the buffer moves a line's deltas and nothing else. -/
theorem foldLine_room {n x : Nat} {s : State} (h : (wbOf s n).length < 1024) :
    OnlyLines s (foldLine n x s) ∧ LinesKept s (foldLine n x s) := by
  unfold foldLine
  split
  · exact ⟨.refl s, .refl s⟩
  next l hl =>
    have hc : wbOf (count 0x4020 n 8 s) n = wbOf s n := by rw [count_eq]; rfl
    rw [wbPush_room (by rw [hc]; exact h)]
    refine ⟨((onlyLines_count ..).trans (onlyLines_setWb ..)).trans (onlyLines_setLine ..), fun y l' hl' => ?_⟩
    by_cases hy : y = x
    · subst hy
      rw [lineAt_setLine_same] at hl'
      cases hl'
      exact ⟨l, hl, rfl⟩
    · rw [lineAt_setLine_other hy] at hl'
      refine ⟨l', ?_, rfl⟩
      rw [← hl', count_eq]; rfl

theorem OnlyLines.detached {s t : State} (h : OnlyLines s t) : Detached s t := by rw [h]; rfl

/-- Line x no longer waits for a fold of slice n. -/
def foldTaken (n x : Nat) (s : State) : State :=
  setFlow s { s.flow with foldWait := tset [] s.flow.foldWait n ((tget [] s.flow.foldWait n).erase x) }

/-- Folds that go on move deltas into the buffer while it has room. -/
theorem foldsGoOn_frame (n : Nat) (s : State) : Detached s (foldsGoOn n s) ∧ LinesKept s (foldsGoOn n s) := by
  unfold foldsGoOn
  generalize tget [] s.flow.foldWait n = xs
  induction xs generalizing s with
  | nil => exact ⟨.refl s, .refl s⟩
  | cons x xs ih =>
    rw [List.foldl_cons]
    refine (fun h => ⟨h.1.trans (ih _).1, h.2.trans (ih _).2⟩ : Detached s _ ∧ LinesKept s _ → _) ?_
    split
    · exact ⟨.refl s, .refl s⟩
    next hroom =>
      dsimp only
      split
      · have h := foldLine_room (x := x) (s := foldTaken n x s) (Nat.lt_of_not_le hroom)
        exact ⟨Detached.trans (t := foldTaken n x s) rfl h.1.detached,
          LinesKept.trans (t := foldTaken n x s) (linesKept_of_lines rfl) h.2⟩
      · exact ⟨rfl, linesKept_of_lines rfl⟩

/-! ### The end of a flow as a whole -/

/-- t differs from s in what the slices, the index and the free chains hold of flows, in records, and outside the flow
engine in the HBM's queues, the scheduler, counters and the host interface alone. -/
def Removed (s t : State) : Prop := t = { s with
  flow := { s.flow with
    records := t.flow.records, index := t.flow.index, index2 := t.flow.index2, lines := t.flow.lines, lru := t.flow.lru,
    wb := t.flow.wb, holds := t.flow.holds, ageQ := t.flow.ageQ, rehash := t.flow.rehash, visits := t.flow.visits,
    nominated := t.flow.nominated, foldWait := t.flow.foldWait, chains := t.flow.chains, reborn := t.flow.reborn }
  hbm := t.hbm, cnt := t.cnt, host := t.host, aw := t.aw }

theorem Removed.trans {s t u : State} (h : Removed s t) (h' : Removed t u) : Removed s u := by
  unfold Removed at *; rw [h', h]
theorem Detached.removed {s t : State} (h : Detached s t) : Removed s t := by rw [h]; rfl
theorem Detached.records {s t : State} (h : Detached s t) : t.flow.records = s.flow.records := by rw [h]
theorem Quiet.lines {s t : State} (h : Quiet s t) : t.flow.lines = s.flow.lines := by rw [h.flow]

theorem recordFreed_frame (r : Nat) (s : State) : Removed s (recordFreed r s) ∧
    (recordFreed r s).flow.records = tdel s.flow.records r ∧ (recordFreed r s).flow.lines = s.flow.lines := by
  unfold recordFreed
  dsimp only
  split <;> exact ⟨rfl, rfl, rfl⟩

theorem noteReborn_frame (n : Nat) (k : BitVec 384) (s : State) : Removed s (noteReborn n k s) ∧
    (noteReborn n k s).flow.records = s.flow.records ∧ (noteReborn n k s).flow.lines = s.flow.lines := by
  unfold noteReborn
  dsimp only
  split
  · rw [count_eq]; exact ⟨rfl, rfl, rfl⟩
  · exact ⟨rfl, rfl, rfl⟩

theorem endCounted_frame (n reason : Nat) (k : BitVec 384) (s : State) : Removed s (endCounted n reason k s) ∧
    (endCounted n reason k s).flow.records = s.flow.records ∧ (endCounted n reason k s).flow.lines = s.flow.lines := by
  unfold endCounted
  generalize ht : (if reason = 1 then count 0x4040 n 5 s else if reason = 2 then count 0x4040 n 6 s else s) = t
  have hq : Quiet s t := by
    rw [← ht]
    split
    · exact quiet_count ..
    · split
      · exact quiet_count ..
      · exact .refl s
  dsimp only
  split
  · obtain ⟨hm, hr, hl⟩ := noteReborn_frame n k t
    exact ⟨hq.aside.detached.removed.trans hm, hr.trans (by rw [hq.flow]), hl.trans hq.lines⟩
  · exact ⟨hq.aside.detached.removed, by rw [hq.flow], hq.lines⟩

theorem noticeGiven_flow (n r reason : Nat) (image : Option FlowRec) (s : State) :
    (noticeGiven n r reason image s).flow = s.flow := by rw [aside_noticeGiven n r reason image s]

theorem keysRetired_lines (r n : Nat) (k : BitVec 384) (rk : Option (BitVec 384)) (s : State) :
    (keysRetired r n k rk s).flow.lines = s.flow.lines := by
  have hr : ∀ k t, (retireKey n k t).flow.lines = t.flow.lines := fun k t => by unfold retireKey; split <;> rfl
  have hc : ∀ k d t, (idxClear k r d t).flow.lines = t.flow.lines := fun k d t => by rw [(indexThinned_idxClear k r d t).frame]
  cases rk with
  | none => exact (hc ..).trans (hr ..)
  | some j => exact (hc ..).trans ((hc ..).trans ((hr ..).trans (hr ..)))

theorem issueReads_lines (r : Nat) (s : State) : (issueReads r s).flow.lines = s.flow.lines := by
  unfold issueReads
  split
  · rfl
  · generalize s.flow.holds.filter _ = l
    generalize hs : s.flow.lines = lines
    have : ∀ (l : List (Nat × Hold)) (t : State), t.flow.lines = lines → (l.foldl (fun t h =>
        hbmRequest 1 (recAddr t r) 128 false (setFlow t { t.flow with
          holds := tput t.flow.holds h.1 { h.2 with readWaits := false } })) t).flow.lines = lines := by
      intro l
      induction l with
      | nil => exact fun t ht => ht
      | cons e l ih => exact fun t ht => ih _ (by rw [hbmRequest_flow]; exact ht)
    exact this l s hs

/-- What a flow's end leaves (R184): the record goes and no other, and no line of it stays. -/
structure FlowEnded (s : State) (r : Nat) (t : State) : Prop where
  frame : Removed s t
  records : t.flow.records = tdel s.flow.records r
  lines : tsorted s.flow.lines = true → ∀ y l, lineAt t y = some l → l.record ≠ r

theorem flowEnded_flowEnd {s : State} {r : Nat} {x : FlowRec} (hx : flowRec s r = some x) (reason : Nat) (image : Option FlowRec) :
    FlowEnded s r (flowEnd r reason image s) := by
  rw [flowEnd_eq hx]
  dsimp only
  generalize homeSlice s x.key = n
  generalize recReverse s x = rk
  generalize x.key = k
  have h1 := detached_tracesDropped r s
  have hl1 : (tracesDropped r s).flow.lines = (linesDropped r s).flow.lines := by rw [tracesDropped_eq]
  generalize tracesDropped r s = s1 at h1 hl1
  have h2 := detached_issueReads r s1
  have hl2 := issueReads_lines r s1
  generalize issueReads r s1 = s2 at h2 hl2
  obtain ⟨h3, hl3⟩ := foldsGoOn_frame n s2
  generalize foldsGoOn n s2 = s3 at h3 hl3
  have h4 := detached_keysRetired r n k rk s3
  have hl4 := keysRetired_lines r n k rk s3
  generalize keysRetired r n k rk s3 = s4 at h4 hl4
  have h5 := (aside_noticeGiven n r reason image s4).detached
  have hl5 := congrArg Flow.lines (noticeGiven_flow n r reason image s4)
  generalize noticeGiven n r reason image s4 = s5 at h5 hl5
  obtain ⟨h6, hr6, hl6⟩ := recordFreed_frame r s5
  generalize recordFreed r s5 = s6 at h6 hr6 hl6
  obtain ⟨h7, hr7, hl7⟩ := endCounted_frame n reason k s6
  generalize endCounted n reason k s6 = s7 at h7 hr7 hl7
  have hd : Detached s s5 := ((((h1.trans h2).trans h3).trans h4).trans h5)
  refine ⟨(hd.removed.trans h6).trans h7, by rw [hr7, hr6, hd.records], fun hs y l hl => ?_⟩
  have hlines : s7.flow.lines = s3.flow.lines := hl7.trans (hl6.trans (hl5.trans hl4))
  rw [lineAt, hlines] at hl
  obtain ⟨l', hl', hrec⟩ := hl3 y l hl
  rw [lineAt, hl2, hl1] at hl'
  rw [← hrec]
  exact ((lineAt_linesDropped hs r y l').mp hl').2

end Sys2Proof.Machine
end

section
namespace Sys2Proof.Machine

/-! ### Layouts and seeds while records leave the new-only list -/

section
variable {s t : State} {r : Nat} (hc : SameConfig s t) (hh : t.hbm = s.hbm)
  (hr : t.flow.rehash = s.flow.rehash.map fun z => { z with newOnly := z.newOnly.filter (· != r) })
include hc hr

theorem flowSeed_of_newOnly (i : Nat) : flowSeed t i = flowSeed s i := by
  simp only [flowSeed, hr, hc.cfgN]
  cases s.flow.rehash <;> rfl

theorem seedsNow_of_newOnly : seedsNow t = seedsNow s := by
  simp only [seedsNow, List.map, flowSeed_of_newOnly hc hr]

include hh

theorem layNow_of_newOnly : layNow t = layNow s := by
  simp only [layNow, seedsNow_of_newOnly hc hr, partSize, partBase, hh, hr, hc.cfgN]
  cases s.flow.rehash <;> rfl

theorem layouts_of_newOnly : layouts t = layouts s := by
  simp only [layouts, layNow_of_newOnly hc hh hr, hr]
  cases s.flow.rehash <;> rfl

end

/-! ### A slice decides an ageing request (R183) -/

/-- The slice takes its oldest ageing request. -/
def ageTaken (n : Nat) (rest : List (Nat × Nat)) (s : State) : State :=
  sliceServes n (setFlow s { s.flow with ageQ := tset [] s.flow.ageQ n rest })

theorem mergedRec_ageTaken (n : Nat) (rest : List (Nat × Nat)) (s : State) (r : Nat) :
    mergedRec (ageTaken n rest s) r = mergedRec s r := rfl

theorem execAgeDecide_oldest {s : State} {n r k : Nat} {rest : List (Nat × Nat)} {m : FlowRec}
    (hq : tget [] s.flow.ageQ n = (r, k) :: rest) (hf : flowHalted s = false) (hl : lookupReady s n = none)
    (ha : (awlReads s).contains r = false) (hz : sliceAsleep s n = false) (hw : inWrites s r = none) (hm : mergedRec s r = some m) :
    exec (.ageDecide n) s = .next (if idleMs s (cnLast m.cnt) < classTimeout s (stClass m.st) then ageTaken n rest s
      else flowRemove r (ageReason m) (ageTaken n rest s)) := by
  change execAgeDecide n s = _
  simp only [execAgeDecide, ageServe, hq, hf, hl, ha, hz, hw, hm, ageTaken, Option.isSome_none, Bool.or_self, Bool.false_eq_true, or_self, if_false]

/-! ### An aged flow's end -/

theorem issueReads_idle {s : State} (h : ∀ e ∈ s.flow.holds, e.2.readWaits = false) (r : Nat) : issueReads r s = s := by
  unfold issueReads
  split
  · rfl
  · rw [List.filter_eq_nil_iff.mpr fun e he => by simp [h e he]]
    rfl

theorem foldsGoOn_idle {s : State} {n : Nat} (h : tget [] s.flow.foldWait n = []) : foldsGoOn n s = s := by
  rw [foldsGoOn, h]; rfl

/-- The state between an untranslated flow's index entry and its end notice. -/
def flowUnlinked (r n : Nat) (k : BitVec 384) (s : State) : State := idxClear k r 0 (retireKey n k (tracesDropped r s))

/-- With no read and no fold waiting, an untranslated flow's end is its stages in a row. -/
theorem flowRemove_idle {s : State} {r : Nat} {x m : FlowRec} (hx : flowRec s r = some x) (hm : mergedRec s r = some m)
    (htr : stTrans x.st = false) (hw : ∀ e ∈ s.flow.holds, e.2.readWaits = false)
    (hf : tget [] s.flow.foldWait (homeSlice s x.key) = []) (reason : Nat) :
    flowRemove r reason s = endCounted (homeSlice s x.key) reason x.key (recordFreed r
      (exportEnd (homeSlice s x.key) r reason m (flowUnlinked r (homeSlice s x.key) x.key s))) := by
  have hholds : (tracesDropped r s).flow.holds = s.flow.holds := by rw [tracesDropped_eq]
  have hfw : (tracesDropped r s).flow.foldWait = s.flow.foldWait := by rw [tracesDropped_eq]
  have hrk : recReverse s x = none := by simp only [recReverse, htr, Bool.false_eq_true, if_false]
  rw [flowRemove, flowEnd_eq hx]
  dsimp only
  rw [hm, hrk, issueReads_idle (by rw [hholds]; exact hw), foldsGoOn_idle (by rw [hfw]; exact hf)]
  rfl

section
variable {s : State} {r n : Nat} {k : BitVec 384}

theorem retireKey_keeps : retireKey n k s = setFlow s { s.flow with holds := (retireKey n k s).flow.holds } := by
  unfold retireKey
  split <;> rfl

/-- What the state with its traces dropped and its key RETIRING has of the state before. -/
theorem retired_eq : retireKey n k (tracesDropped r s) = { s with flow := { s.flow with
    lines := (linesDropped r s).flow.lines, wb := (tracesDropped r s).flow.wb, visits := (tracesDropped r s).flow.visits
    ageQ := (tracesDropped r s).flow.ageQ, nominated := (tracesDropped r s).flow.nominated
    rehash := s.flow.rehash.map fun z => { z with newOnly := z.newOnly.filter (· != r) }
    holds := (retireKey n k (tracesDropped r s)).flow.holds } } := by
  have h := retireKey_keeps (s := tracesDropped r s) (n := n) (k := k)
  rw [h, setFlow, tracesDropped_eq]

/-- What the unlinked state has of the state before. -/
theorem flowUnlinked_eq : flowUnlinked r n k s = { s with
    flow := { s.flow with
      index := (flowUnlinked r n k s).flow.index, index2 := (flowUnlinked r n k s).flow.index2
      lines := (linesDropped r s).flow.lines, wb := (tracesDropped r s).flow.wb, visits := (tracesDropped r s).flow.visits
      ageQ := (tracesDropped r s).flow.ageQ, nominated := (tracesDropped r s).flow.nominated
      rehash := s.flow.rehash.map fun z => { z with newOnly := z.newOnly.filter (· != r) }
      holds := (retireKey n k (tracesDropped r s)).flow.holds }
    cnt := { s.cnt with ctr := (flowUnlinked r n k s).cnt.ctr } } := by
  have h := (indexThinned_idxClear k r 0 (retireKey n k (tracesDropped r s))).frame
  rw [flowUnlinked, h, retired_eq]

theorem ctrGet_flowUnlinked {b : Nat} (hb : b < 0x6031 * 2 ^ 20) : ctrGet (flowUnlinked r n k s) b = ctrGet s b := by
  refine ((indexThinned_idxClear k r 0 _).counters b hb).trans (ctrGet_of_cnt ?_ b)
  rw [retired_eq]

/-- No reachable slot of the key's buckets is an entry of the record any more. -/
theorem slotFree_flowUnlinked (hs : IndexSorted s) {l : IdxLay} (hl : l ∈ layouts s) {b : Nat} (hb : b ∈ layBuckets l k)
    (hg : bucketGone s l b = false) {y : Nat} (hy : y ∈ bucketSlots b) :
    ¬ SlotOf r 0 (idxGet (flowUnlinked r n k s) l y) := by
  have hlay : layouts (retireKey n k (tracesDropped r s)) = layouts s := by
    rw [retired_eq]; exact layouts_of_newOnly (r := r) ⟨rfl, rfl, rfl⟩ rfl rfl
  refine (slotFree_idxClear k r 0 (s := retireKey n k (tracesDropped r s)) ?_ (hlay ▸ hl) hb ?_ hy).2
  · rw [retired_eq]; exact hs
  · rw [retired_eq]; exact hg

end

/-! ### The end notice handed on (R186, R224) -/

theorem classRefuses_congr {s t : State} (hc : SameConfig s t) (ha : t.aw = s.aw) (k : Nat) : classRefuses t k = classRefuses s k := by
  simp only [classRefuses, hc.cfgN, classDepth, readyItems, frontItems, itemsWaiting, ha]
  rfl

theorem exportEnd_admitted {s : State} {reason : Nat} (he : (cfgN s 0x4034 0 0).testBit (reason - 1) = true)
    (hc : classRefuses s 4 = false) (n r : Nat) (m : FlowRec) :
    ∃ i ∈ readyItems (exportEnd n r reason m s) 4, i.routine = 8 ∧ i.record = r ∧ i.bytes = endNotice s n r reason m := by
  obtain ⟨q, c, w, t, ht, hi, -, -⟩ := submitItem_taken (s := s)
    (i := { newItem s 8 3 0 with slice := n, record := r, bytes := endNotice s n r reason m }) hc
  have hx : exportEnd n r reason m s = t := by simp only [exportEnd, he, ht, if_true]
  rw [hx]
  change readyItems t 4 = readyItems s 4 ++ _ at hi
  exact ⟨_, by rw [hi]; exact List.mem_append_right _ (List.mem_singleton_self _), rfl, rfl, rfl⟩

theorem ctrGet_streamLoss {b : Nat} (hb : b < 0x6812 * 2 ^ 20) (st kind : Nat) (s : State) :
    ctrGet (streamLoss st kind s) b = ctrGet s b := by
  unfold streamLoss
  exact (ctrGet_raiseLimited hb ..).trans (ctrGet_of_cnt rfl b)

theorem ctrGet_submitItem {b : Nat} (hb : b < 0x4811 * 2 ^ 20) (i : Item) (s : State) : ctrGet (submitItem i s).2 b = ctrGet s b := by
  cases h : classRefuses s i.cls
  · obtain ⟨q, c, w, t, ht, -, -, hctr⟩ := submitItem_taken h
    rw [ht]; exact hctr b hb
  · simp only [submitItem, h, if_true, itemRefused]
    exact (ctrGet_raiseLimited (by omega) ..).trans (ctrGet_count_other (by simp only [oa]; omega) (by omega) s)

/-- An end notice, handed on or lost, touches no counter of ageing but that of lost notices. -/
theorem ctrGet_exportEnd {n j : Nat} (hn : n < 16) (hj : j < 0x0B) (r reason : Nat) (m : FlowRec) (s : State) :
    ctrGet (exportEnd n r reason m s) (oa 0x4040 n j) = ctrGet s (oa 0x4040 n j) := by
  unfold exportEnd
  split
  · dsimp only
    have hs := ctrGet_submitItem (b := oa 0x4040 n j) (by simp only [oa]; omega)
      { newItem s 8 3 0 with slice := n, record := r, bytes := endNotice s n r reason m } s
    generalize submitItem { newItem s 8 3 0 with slice := n, record := r, bytes := endNotice s n r reason m } s = q at hs
    split
    · exact hs
    · unfold noticeLost
      refine (ctrGet_streamLoss (by simp only [oa]; omega) ..).trans ?_
      show ctrGet (raiseLimited 0x050B n (fun c => [n, c]) (count 0x4040 n 0x0B q.2)) _ = _
      exact (ctrGet_raiseLimited (by simp only [oa]; omega) ..).trans
        ((ctrGet_count_other (by simp only [oa]; omega) (by simp only [oa]; omega) _).trans hs)
  · rfl

/-! ### The record freed and the end counted -/

theorem tget_chains_recordFreed {s : State} {r : Nat} (hr : r < s.flow.nr) :
    tget [] (recordFreed r s).flow.chains (r % 16) = r :: tget [] s.flow.chains (r % 16) := by
  have h : recordFreed r s = chainPush r (setFlow s { s.flow with records := tdel s.flow.records r }) := if_pos hr
  rw [h]
  exact tget_tset_ne_default (List.cons_ne_nil _ _) _ _

theorem recordFreed_eq (r : Nat) (s : State) : recordFreed r s = setFlow s { s.flow with
    records := tdel s.flow.records r, chains := (recordFreed r s).flow.chains } := by
  unfold recordFreed
  dsimp only
  split <;> rfl

theorem noteReborn_eq (n : Nat) (k : BitVec 384) (s : State) : Quiet (setFlow s { s.flow with
    reborn := (noteReborn n k s).flow.reborn }) (noteReborn n k s) := by
  unfold noteReborn
  dsimp only
  split
  · rw [count_eq]; rfl
  · rfl

theorem getLast_noteReborn (n : Nat) (k : BitVec 384) (s : State) :
    (tget [] (noteReborn n k s).flow.reborn n).getLast? = some (fingerprint (seedsNow s) k, devMs s) := by
  unfold noteReborn
  dsimp only
  split
  · rw [count_eq]
    show (tget [] (tput s.flow.reborn n _) n).getLast? = _
    rw [tget, tfind_tput_same, Option.getD_some, List.getLast?_concat]
  · show (tget [] (tput s.flow.reborn n _) n).getLast? = _
    rw [tget, tfind_tput_same, Option.getD_some, List.getLast?_concat]

theorem ctrGet_noteReborn {b n : Nat} (h : b ≠ oa 0x4040 n 8) (hb : b < 0x7880 * 2 ^ 20) (k : BitVec 384) (s : State) :
    ctrGet (noteReborn n k s) b = ctrGet s b := by
  unfold noteReborn
  dsimp only
  split
  · exact (ctrGet_count_other h hb _).trans rfl
  · rfl

/-- An age-out's end, by its reason 1 or 2: counted, and then the key noted. -/
theorem endCounted_aged {reason : Nat} (h : reason = 1 ∨ reason = 2) (n : Nat) (k : BitVec 384) (s : State) :
    endCounted n reason k s = noteReborn n k (count 0x4040 n (4 + reason) s) := by
  rcases h with rfl | rfl <;> rfl

theorem ctrGet_endCounted_aged {reason n : Nat} (h : reason = 1 ∨ reason = 2) (hn : n < 16) (k : BitVec 384) {s : State}
    (hw : ctrGet s (oa 0x4040 n (4 + reason)) + 1 < 2 ^ 48) :
    ctrGet (endCounted n reason k s) (oa 0x4040 n (4 + reason)) = ctrGet s (oa 0x4040 n (4 + reason)) + 1 := by
  rw [endCounted_aged h]
  exact (ctrGet_noteReborn (by simp only [oa]; omega) (by simp only [oa]; omega) k _).trans (ctrGet_count_same hw)

theorem getLast_endCounted_aged {reason n : Nat} (h : reason = 1 ∨ reason = 2) (k : BitVec 384) (s : State) :
    (tget [] (endCounted n reason k s).flow.reborn n).getLast? = some (fingerprint (seedsNow s) k, devMs s) := by
  rw [endCounted_aged h, getLast_noteReborn, (quiet_count 0x4040 n (4 + reason) s).sameStore.seedsNow, count_eq]
  rfl

theorem endCounted_eq (n reason : Nat) (k : BitVec 384) (s : State) : Quiet (setFlow s { s.flow with
    reborn := (endCounted n reason k s).flow.reborn }) (endCounted n reason k s) := by
  unfold endCounted
  generalize ht : (if reason = 1 then count 0x4040 n 5 s else if reason = 2 then count 0x4040 n 6 s else s) = t
  have hq : Quiet s t := by
    rw [← ht]
    split
    · exact quiet_count ..
    · split
      · exact quiet_count ..
      · exact .refl s
  dsimp only
  split
  · have h := noteReborn_eq n k t
    unfold Quiet at *
    rw [h, hq]
    rfl
  · rw [hq]; rfl

theorem ageReason_cases (x : FlowRec) : ageReason x = 1 ∨ ageReason x = 2 := by
  rw [ageReason_eq]
  split
  · exact .inr rfl
  · exact .inl rfl

end Sys2Proof.Machine
end

section
namespace Sys2Proof.Machine

/-! ### An aged flow's end, fact by fact (R183 to R186) -/

/-- The end of an untranslated flow with image m, with no read and no fold waiting. -/
def agedOut (r n : Nat) (k : BitVec 384) (m : FlowRec) (s : State) : State :=
  endCounted n (ageReason m) k (recordFreed r (exportEnd n r (ageReason m) m (flowUnlinked r n k s)))

section
variable {s : State} {r n : Nat} {k : BitVec 384} {m : FlowRec}

/-- What the end leaves as it was, and what it takes from the state without the record's traces. -/
theorem agedOut_eq : agedOut r n k m s = { s with
    flow := { (flowUnlinked r n k s).flow with
      records := tdel s.flow.records r
      chains := (recordFreed r (exportEnd n r (ageReason m) m (flowUnlinked r n k s))).flow.chains
      reborn := (agedOut r n k m s).flow.reborn }
    cnt := (agedOut r n k m s).cnt, host := (agedOut r n k m s).host
    aw := (exportEnd n r (ageReason m) m (flowUnlinked r n k s)).aw } := by
  have h1 := endCounted_eq n (ageReason m) k (recordFreed r (exportEnd n r (ageReason m) m (flowUnlinked r n k s)))
  have h2 := recordFreed_eq r (exportEnd n r (ageReason m) m (flowUnlinked r n k s))
  have h3 := aside_exportEnd n r (ageReason m) m (flowUnlinked r n k s)
  have h4 : flowUnlinked r n k s = { s with flow := (flowUnlinked r n k s).flow, cnt := (flowUnlinked r n k s).cnt } := by
    rw [flowUnlinked_eq]
  have h5 : (flowUnlinked r n k s).flow.records = s.flow.records := by rw [flowUnlinked_eq]
  have h6 : (exportEnd n r (ageReason m) m (flowUnlinked r n k s)).flow = (flowUnlinked r n k s).flow := by rw [h3]
  unfold agedOut
  generalize flowUnlinked r n k s = z at *
  generalize exportEnd n r (ageReason m) m z = y at *
  generalize recordFreed r y = w at *
  generalize endCounted n (ageReason m) k w = t at *
  unfold Quiet Aside at *
  rw [h1, h2, setFlow, setFlow, h6, h5, h3, h4]

theorem flowRec_agedOut_same (hs : tsorted s.flow.records = true) : flowRec (agedOut r n k m s) r = none := by
  rw [agedOut_eq]; exact tfind_tdel_same hs r

theorem flowRec_agedOut_other {j : Nat} (hj : j ≠ r) : flowRec (agedOut r n k m s) j = flowRec s j := by
  rw [agedOut_eq]; exact tfind_tdel_other _ hj

theorem lineAt_agedOut (hs : tsorted s.flow.lines = true) (y : Nat) (l : Line) :
    lineAt (agedOut r n k m s) y = some l ↔ lineAt s y = some l ∧ l.record ≠ r := by
  rw [← lineAt_linesDropped hs, agedOut_eq, lineAt, lineAt, flowUnlinked_eq]

theorem slot_agedOut (hs : IndexSorted s) {l : IdxLay} (hl : l ∈ layouts s) {b : Nat} (hb : b ∈ layBuckets l k)
    (hg : bucketGone s l b = false) {y : Nat} (hy : y ∈ bucketSlots b) :
    ¬ SlotOf r 0 (idxGet (agedOut r n k m s) l y) := by
  have h := slotFree_flowUnlinked (r := r) (n := n) hs hl hb hg hy
  have he : idxGet (agedOut r n k m s) l y = idxGet (flowUnlinked r n k s) l y := by rw [agedOut_eq]; rfl
  rwa [he]

theorem tget_chains_agedOut (hr : r < s.flow.nr) :
    tget [] (agedOut r n k m s).flow.chains (r % 16) = r :: tget [] s.flow.chains (r % 16) := by
  have hy := aside_exportEnd n r (ageReason m) m (flowUnlinked r n k s)
  have hnr : (exportEnd n r (ageReason m) m (flowUnlinked r n k s)).flow.nr = s.flow.nr := by rw [hy, flowUnlinked_eq]
  have hc : (exportEnd n r (ageReason m) m (flowUnlinked r n k s)).flow.chains = s.flow.chains := by rw [hy, flowUnlinked_eq]
  rw [agedOut_eq, ← hc]
  exact tget_chains_recordFreed (hnr ▸ hr)

theorem holdAt_agedOut {h : Nat} (hn : holdFor s n k = none) (hf : freeHold s n = some h) :
    holdAt (agedOut r n k m s) h = some (emptyHold k 4) := by
  have hk : holdKeys (tracesDropped r s) = holdKeys s := by rw [tracesDropped_eq]; rfl
  have hr : retireKey n k (tracesDropped r s) = setHold h (emptyHold k 4) (tracesDropped r s) := by
    simp only [retireKey, (holdFor_congr hk n k).trans hn, (freeHold_congr hk n).trans hf]
  rw [agedOut_eq, holdAt, flowUnlinked_eq, hr]
  exact holdAt_setHold_same ..

theorem getLast_agedOut : (tget [] (agedOut r n k m s).flow.reborn n).getLast? = some (fingerprint (seedsNow s) k, devMs s) := by
  have hy := aside_exportEnd n r (ageReason m) m (flowUnlinked r n k s)
  have hw : recordFreed r (exportEnd n r (ageReason m) m (flowUnlinked r n k s)) = { s with
      flow := { (flowUnlinked r n k s).flow with
        records := tdel (flowUnlinked r n k s).flow.records r
        chains := (recordFreed r (exportEnd n r (ageReason m) m (flowUnlinked r n k s))).flow.chains }
      cnt := (exportEnd n r (ageReason m) m (flowUnlinked r n k s)).cnt
      host := (exportEnd n r (ageReason m) m (flowUnlinked r n k s)).host
      aw := (exportEnd n r (ageReason m) m (flowUnlinked r n k s)).aw } := by
    rw [recordFreed_eq, setFlow, hy, flowUnlinked_eq]
  have hr : (recordFreed r (exportEnd n r (ageReason m) m (flowUnlinked r n k s))).flow.rehash =
      s.flow.rehash.map fun z => { z with newOnly := z.newOnly.filter (· != r) } := by rw [hw, flowUnlinked_eq]
  unfold agedOut
  rw [getLast_endCounted_aged (ageReason_cases m), seedsNow_of_newOnly (s := s) (r := r) (by rw [hw]; exact ⟨rfl, rfl, rfl⟩) hr, hw]
  rfl

theorem ctrGet_agedOut (hn : n < 16) (hw : ctrGet s (oa 0x4040 n (4 + ageReason m)) + 1 < 2 ^ 48) :
    ctrGet (agedOut r n k m s) (oa 0x4040 n (4 + ageReason m)) = ctrGet s (oa 0x4040 n (4 + ageReason m)) + 1 := by
  have hj : 4 + ageReason m < 0x0B := by rcases ageReason_cases m with h | h <;> omega
  have hb : ctrGet (recordFreed r (exportEnd n r (ageReason m) m (flowUnlinked r n k s))) (oa 0x4040 n (4 + ageReason m)) =
      ctrGet s (oa 0x4040 n (4 + ageReason m)) := by
    rw [recordFreed_eq]
    exact (ctrGet_exportEnd hn hj ..).trans (ctrGet_flowUnlinked (by simp only [oa]; omega))
  unfold agedOut
  rw [ctrGet_endCounted_aged (ageReason_cases m) hn k (by rw [hb]; exact hw), hb]

theorem notice_agedOut (he : (cfgN s 0x4034 0 0).testBit (ageReason m - 1) = true) (hc : classRefuses s 4 = false) :
    ∃ i ∈ readyItems (agedOut r n k m s) 4, i.routine = 8 ∧ i.record = r ∧ i.bytes = endNotice s n r (ageReason m) m := by
  have hsame : SameConfig s (flowUnlinked r n k s) := by rw [flowUnlinked_eq]; exact ⟨rfl, rfl, rfl⟩
  have haw : (flowUnlinked r n k s).aw = s.aw := by rw [flowUnlinked_eq]
  obtain ⟨i, hi, hr, hrec, hb⟩ := exportEnd_admitted (s := flowUnlinked r n k s) (by rw [hsame.cfgN]; exact he)
    ((classRefuses_congr hsame haw 4).trans hc) n r m
  refine ⟨i, ?_, hr, hrec, hb.trans ?_⟩
  · rw [agedOut_eq]; exact hi
  · rw [flowUnlinked_eq]; rfl

end

section
variable {s : State} {n r k : Nat} {rest : List (Nat × Nat)} {x m : FlowRec}
  (hq : tget [] s.flow.ageQ n = (r, k) :: rest) (hf : flowHalted s = false) (hl : lookupReady s n = none)
  (ha : (awlReads s).contains r = false) (hz : sliceAsleep s n = false) (hw : inWrites s r = none)
  (hm : mergedRec s r = some m)
include hq hf hl ha hz hw hm

theorem execAgeDecide_renewed (hd : idleMs s (cnLast m.cnt) < classTimeout s (stClass m.st)) :
    exec (.ageDecide n) s = .next (ageTaken n rest s) := by
  rw [execAgeDecide_oldest hq hf hl ha hz hw hm, if_pos hd]

theorem execAgeDecide_aged (hx : flowRec s r = some x) (hd : classTimeout s (stClass m.st) ≤ idleMs s (cnLast m.cnt))
    (htr : stTrans x.st = false) (hfw : tget [] s.flow.foldWait (homeSlice s x.key) = [])
    (hrw : ∀ e ∈ s.flow.holds, e.2.readWaits = false) :
    exec (.ageDecide n) s = .next (agedOut r (homeSlice s x.key) x.key m (ageTaken n rest s)) := by
  rw [execAgeDecide_oldest hq hf hl ha hz hw hm, if_neg (Nat.not_lt.mpr hd)]
  exact congrArg _ (flowRemove_idle (s := ageTaken n rest s) (x := x) hx ((mergedRec_ageTaken ..).trans hm) htr hrw hfw _)

end

theorem homeSlice_lt (s : State) (k : BitVec 384) : homeSlice s k < 16 := by unfold homeSlice; omega

end Sys2Proof.Machine
end

section
namespace Sys2Proof.Machine

/-! ### Flow commands over the mailbox (R194, R224) -/

/-- A scheduler with the lists that hold contexts, sets and commands as another has them. -/
structure SameRunning (a b : Cluster) : Prop where
  awls : b.awls = a.awls
  closer : b.closer = a.closer
  front : b.front = a.front
  parked : b.parked = a.parked
  hostCmds : b.hostCmds = a.hostCmds
  hostNext : b.hostNext = a.hostNext

theorem sameRunning_submitItem (i : Item) (s : State) : SameRunning s.aw (submitItem i s).2.aw := by
  cases h : classRefuses s i.cls
  · simp only [submitItem, h, Bool.false_eq_true, if_false]
    generalize hs1 : (if i.basis = 0 then s else setDomain s i _) = s1
    have hs1' : s1 = { s with aw := { s.aw with domains := s1.aw.domains } } := by
      rw [← hs1]; split <;> rfl
    obtain ⟨w, z, o, hset⟩ := setReady_eq s1 i.cls (readyItems s1 i.cls ++ [
      { i with dseq := if i.basis = 0 then 0 else (domainOf s i).issue, created := counterNs s % 2 ^ 32, since := raw s }])
    rw [count_eq, hset, hs1']
    exact ⟨rfl, rfl, rfl, rfl, rfl, rfl⟩
  · simp only [submitItem, h, if_true, itemRefused]
    rw [((quiet_count ..).trans (quiet_raiseLimited ..)).aw]
    exact ⟨rfl, rfl, rfl, rfl, rfl, rfl⟩

/-- A flow command over the mailbox that no check refuses is handed to HOST_FLOW (R194). -/
theorem tableReq_hostFlow {s : State} {h : Nat} {payload : Bytes} (hr : TableRequest s h false payload)
    (ht : (tblCmd h false payload 4071).table ∈ [0x10, 0x11]) (hok : tblRefused (tblCmd h false payload 4071) s = none) :
    tableReq { who := 0, role := 2, v1 := false, limit := 4079, msg := mbxMsg s } s =
      msgSubmit (tblCmd h false payload 4071) { who := 0, msg := mbxMsg s } s := by
  have hop : (tblCmd h false payload 4071).op ≠ 5 := fun h5 => by
    have h7 := (ops_of_tblRefused_none hok).2.1 (.inr h5)
    rw [h7] at ht
    exact absurd ht (by decide)
  have hhost : hostTable (tblCmd h false payload 4071) = true := by
    simp only [List.mem_cons, List.not_mem_nil, or_false] at ht
    simp only [hostTable, Bool.or_eq_true, beq_iff_eq]
    exact ht
  have hreq := tableReq_passed hr (msgTblRefused_eq_none hok)
  simpa only [if_neg hop, hhost, if_true] using hreq

/-- The command in flight that a message's flow command becomes. -/
def msgHostCmd (c : TblCmd) (a : Asker) (s : State) : HostCmd :=
  { tag := msgTag s, src := .msg a, cmd := c, replyHbm := false, replyAt := 0, replyLimit := 0, fail := 0, ended := none }

/-- The HOST_FLOW item of a message's command. -/
def msgItem (s : State) : Item := { newItem s 10 5 1 with data := msgTag s }

theorem hostSubmit_message (c : TblCmd) (a : Asker) (s : State) : hostSubmit (msgHostCmd c a s) s =
    let r := submitItem (msgItem s) s
    if r.1 then (true, setHostCmds r.2 (r.2.aw.hostCmds ++ [msgHostCmd c a s])) else r := rfl

theorem msgSubmit_eq (c : TblCmd) (a : Asker) (s : State) : msgSubmit c a s = match hostSubmit (msgHostCmd c a s) s with
    | (true, t) => (none, setAw t { t.aw with hostNext := t.aw.hostNext + 1 })
    | (false, t) => (some (refuse stBusy 0), t) := rfl

theorem msgSubmit_refused {s : State} (hc : classRefuses s 3 = true) (c : TblCmd) (a : Asker) :
    msgSubmit c a s = (some (refuse stBusy 0), itemRefused 3 s) := by
  have h : submitItem (msgItem s) s = (false, itemRefused 3 s) := if_pos hc
  rw [msgSubmit_eq, hostSubmit_message, h]
  rfl

/-- An admitted command waits at the end of class 3 with its item, and nothing else of the scheduler's lists moves. -/
theorem msgSubmit_admitted {s : State} (hc : classRefuses s 3 = false) (c : TblCmd) (a : Asker) : ∃ t i,
    msgSubmit c a s = (none, t) ∧ t = { s with aw := t.aw, cnt := t.cnt } ∧ readyItems t 3 = readyItems s 3 ++ [i] ∧
      i.routine = 10 ∧ i.source = 5 ∧ i.data = msgTag s ∧ t.aw.hostCmds = s.aw.hostCmds ++ [msgHostCmd c a s] ∧
      t.aw.awls = s.aw.awls ∧ t.aw.closer = s.aw.closer ∧ t.aw.front = s.aw.front ∧ t.aw.parked = s.aw.parked := by
  obtain ⟨q, n, w, t, ht, hi, hframe, -⟩ := submitItem_taken (s := s) (i := msgItem s) hc
  have hrun := sameRunning_submitItem (msgItem s) s
  rw [ht] at hrun
  refine ⟨setAw (setHostCmds t (t.aw.hostCmds ++ [msgHostCmd c a s]))
    { (setHostCmds t (t.aw.hostCmds ++ [msgHostCmd c a s])).aw with hostNext := t.aw.hostNext + 1 },
    { msgItem s with dseq := q, created := n, since := w }, ?_, ?_, hi, rfl, rfl, rfl, ?_, hrun.awls, hrun.closer, hrun.front,
    hrun.parked⟩
  · rw [msgSubmit_eq, hostSubmit_message, ht]
    rfl
  · rw [hframe]; rfl
  · show t.aw.hostCmds ++ _ = _
    rw [hrun.hostCmds]

/-! ### The Closer applies a HOST_FLOW set (R220, R229) -/

theorem execCloserApply_hostFlow {s : State} {c : CommitSet} (ha : awlsHalted s = false) (hf : flowHalted s = false)
    (hc : (s.aw.closer.find? fun x => setMayApply s x) = some c) (hr : c.item.routine = 10) (hs : c.item.source = 5)
    (hst : c.staged = []) :
    exec .closerApply s = .next (hostFlush (domainReleased c.item (hostServe c.item.data
      (leaveOut c.item (setAw s { s.aw with closer := s.aw.closer.erase c }))))) := by
  change execCloserApply s = _
  have hfind : (s.aw.closer.find? fun c => setMayApply s c && !(setNeedsSlice c && flowHalted s)) = some c := by
    rw [← hc]; congr 1; funext x; simp [hf]
  have hpart : hasSlicePart c.item = false := by simp [hasSlicePart, hs]
  have hdec : setDeclines s c.item [] = false := by simp [setDeclines, hs]
  have hd : ∀ t, setDeclines t c.item [] = false := fun t => by simp [setDeclines, hs]
  simp only [execCloserApply, ha, Bool.false_eq_true, if_false, closeNext, hfind, applySet, hst, closeSlice, hpart,
    Bool.not_false, if_true, List.foldl_nil, List.filter_nil, hd, routineEnd, hr]

theorem hostServe_eq {s : State} {d : HostCmd}
    (hd : (s.aw.hostCmds.find? fun x => x.tag == d.tag && x.ended.isNone) = some d) :
    let x := hostExec d.cmd s
    let e : HostEnd := { status := x.status, detail := x.detail, done := x.done, result := x.result, reply := x.reply }
    hostServe d.tag s = setHostCmds x.st (x.st.aw.hostCmds.map fun y =>
      if y.tag = d.tag ∧ y.ended = none then { y with ended := some e } else y) := by
  simp only [hostServe, hd, hostEnds, Option.isNone_iff_eq_none]

theorem ring_raiseVector (v : Nat) (s : State) (k : Nat) : ring (raiseVector v s) k = ring s k := by
  simp only [raiseVector]
  split <;> rfl

theorem ring_mbxFinish (m : Bytes) (s : State) (k : Nat) : ring (mbxFinish m s) k = ring s k := by
  simp only [mbxFinish]
  split
  · rw [ring_raiseVector]; rfl
  · rfl

/-- The one command of a message that has ended is answered over the mailbox. -/
theorem hostFlush_message {s : State} {d : HostCmd} {e : HostEnd} (hl : s.aw.hostCmds = [d])
    (hsrc : d.src = .msg { who := 0, msg := mbxMsg s }) (hend : d.ended = some e)
    (hring : (ring s cmdKey).enable = true ∨ (ring s cmdKey).stopped = true) :
    hostFlush s = mbxFinish (answerMsg (mbxMsg s) (tblAnswer d.cmd e)) (setHostCmds s []) := by
  have hfrom : hostFromRing d = false := by simp only [hostFromRing, hsrc]
  have h1 : flushRing (s.aw.hostCmds.filter hostFromRing) s = s := by simp [hl, hfrom, flushRing]
  have h2 : flushRing (s.aw.hostCmds.filter fun c => !hostFromRing c) s =
      mbxFinish (answerMsg (mbxMsg s) (tblAnswer d.cmd e)) (setHostCmds s []) := by
    simp [hl, hfrom, flushRing, hend, hostFinish, hsrc, answerTo_mailbox]
  have h3 : ring (mbxFinish (answerMsg (mbxMsg s) (tblAnswer d.cmd e)) (setHostCmds s [])) cmdKey = ring s cmdKey := ring_mbxFinish ..
  have h4 : ∀ t : State, ring t cmdKey = ring s cmdKey → ringDrained t = t := fun t ht => by
    rw [ringDrained, ht, if_pos (by rcases hring with h | h <;> simp [h])]
  unfold hostFlush
  rw [h1]
  dsimp only
  rw [h2, h4 _ h3]

end Sys2Proof.Machine
end

section
namespace Sys2Proof.Machine

/-! ### A flow command of one entry (R106, R194) -/

section
variable {s : State} {c : TblCmd} (ht : c.table = 0x10) (hc : c.count = 1) (hl : c.op = 3 → 128 ≤ c.limit)
include ht hc hl

theorem hostExec_applied {d : Nat} {out : Bytes} {t : State} (h : flowEntry c 0 s = (0, d, out, t)) : hostExec c s =
    { status := 0, detail := 0, done := 1, result := if c.op = 1 then leNat (out.take 4) else 0, reply := out, st := t } := by
  have hlim : ¬ c.limit < hostReadBytes c := by
    unfold hostReadBytes
    split
    next h3 => simpa [hc, ht] using hl h3
    · exact Nat.not_lt_zero _
  rw [hostExec, if_neg hlim]
  simp [ht, hc, runEntries, h]

theorem hostExec_refused {st d : Nat} {out : Bytes} {t : State} (hst : st ≠ 0) (h : flowEntry c 0 s = (st, d, out, t)) :
    hostExec c s = { status := st, detail := d, done := 0, result := 0, reply := [], st := t } := by
  have hlim : ¬ c.limit < hostReadBytes c := by
    unfold hostReadBytes
    split
    next h3 => simpa [hc, ht] using hl h3
    · exact Nat.not_lt_zero _
  rw [hostExec, if_neg hlim]
  obtain ⟨n, rfl⟩ := Nat.exists_eq_succ_of_ne_zero hst
  simp [ht, hc, runEntries, h]

end

/-! ### Requests with nothing before them at the home slice (R27, R149) -/

theorem sliceDrain_idle {s : State} {n : Nat} (hq : sliceReqs s n = []) (ha : tget [] s.flow.ageQ n = []) : sliceDrain n s = s := by
  unfold sliceDrain
  split
  · rfl
  · rw [hq, ha]; rfl

theorem finishKey_idle {s : State} {k : BitVec 384} (hh : holdFor s (homeSlice s k) k = none)
    (hq : sliceReqs s (homeSlice s k) = []) (ha : tget [] s.flow.ageQ (homeSlice s k) = []) : finishKey k s = s := by
  unfold finishKey
  dsimp only
  rw [sliceDrain_idle hq ha, hh]

/-! ### A WRITE of an untranslated flow (R194, R196) -/

theorem storedImage_first (x : FlowRec) : cnFirst (storedImage x).cnt ≠ 0 := by
  unfold storedImage cnFirst
  dsimp only
  rw [bf_putBf_apart _ _ (by decide) (by decide) (by decide), bf_putBf_apart _ _ (by decide) (by decide) (by decide)]
  split
  · rw [bf_putBf_same _ _ (by decide) (by decide)]; decide
  · assumption

theorem storedImage_class (x : FlowRec) : cnClass (storedImage x).cnt = stClass (storedImage x).st := by
  unfold storedImage cnClass stClass
  dsimp only
  rw [bf_putBf_apart _ _ (by decide) (by decide) (by decide), bf_putBf_same _ _ (by decide) (by decide),
    bf_putBf_apart _ _ (by decide) (by decide) (by decide)]
  exact Nat.mod_eq_of_lt (bf_lt_two_pow ..)

section
variable {s : State} {img x : FlowRec} (hx : storedImage img = x) (htr : stTrans x.st = false)
  (hh : holdFor s (homeSlice s x.key) x.key = none) (hq : sliceReqs s (homeSlice s x.key) = [])
  (ha : tget [] s.flow.ageQ (homeSlice s x.key) = [])
include hx htr hh hq ha

/-- With nothing before it, a host insert of an untranslated flow looks for its key and draws an index. -/
theorem hostInsert_idle : hostInsert img s =
    if bf x.st 127 124 ≠ 2 then (2, 0x0503, 0, s)
    else if (idxFind s x.key).isSome then (2, 0x0501, 0, s)
    else match drawRecord (homeSlice s x.key) (drawFuel s) s with
      | none => (5, 2, 0, count 0x4041 (homeSlice s x.key) 2 s)
      | some (r, s1) =>
        match writeIndex r x.key none (putRec r x s1) with
        | .inl e => (5, e, 0, count 0x4041 (homeSlice s x.key) e (chainPush r s1))
        | .inr s2 => (0, 0, r, preempt r x.key s2) := by
  have hrk : recReverse s x = none := by simp only [recReverse, htr, Bool.false_eq_true, if_false]
  simp only [hostInsert, hx, hrk, finishKey_idle hh hq ha, Option.map_none, Option.getD_none, Bool.or_false, Bool.false_eq_true,
    if_false] <;> rfl

theorem hostInsert_badFormat (hf : bf x.st 127 124 ≠ 2) : hostInsert img s = (2, 0x0503, 0, s) := by
  rw [hostInsert_idle hx htr hh hq ha, if_pos hf]

theorem hostInsert_present (hf : bf x.st 127 124 = 2) (hi : (idxFind s x.key).isSome = true) :
    hostInsert img s = (2, 0x0501, 0, s) := by
  rw [hostInsert_idle hx htr hh hq ha, if_neg (not_not_intro hf), if_pos hi]

theorem hostInsert_full (hf : bf x.st 127 124 = 2) (hi : idxFind s x.key = none)
    (hd : tget [] s.flow.drawn (homeSlice s x.key) = [])
    (he : ∀ j, j < 16 → tget [] s.flow.chains j = [] ∧ chainSize (drawLimit s) j ≤ tget 0 s.flow.taken j) :
    hostInsert img s = (5, 2, 0, count 0x4041 (homeSlice s x.key) 2 s) := by
  have hnone : drawRecord (homeSlice s x.key) (drawFuel s) s = none :=
    drawRecord_none hd fun j hj => chainPop_none (he j hj).1 (he j hj).2
  rw [hostInsert_idle hx htr hh hq ha, if_neg (not_not_intro hf), hi, hnone]
  rfl

end

/-- The state with a host's untranslated flow inserted under the index drawn for its slice. -/
def flowInserted (s : State) (n r y : Nat) (rest : List Nat) (x : FlowRec) : State :=
  setFlow s { s.flow with
    drawn := tset [] s.flow.drawn n rest
    records := tput s.flow.records r x
    index := tset 0 s.flow.index y (mkSlot (laySig (layNow s) x.key) r 0 false) }

theorem preempt_idle {s : State} {k : BitVec 384} (h : holdFor s (homeSlice s k) k = none) (r : Nat) : preempt r k s = s := by
  unfold preempt
  dsimp only
  rw [h]

theorem hostInsert_drawn {s : State} {img x : FlowRec} {r y : Nat} {rest : List Nat} (hx : storedImage img = x)
    (htr : stTrans x.st = false) (hh : holdFor s (homeSlice s x.key) x.key = none) (hq : sliceReqs s (homeSlice s x.key) = [])
    (ha : tget [] s.flow.ageQ (homeSlice s x.key) = []) (hf : bf x.st 127 124 = 2) (hi : idxFind s x.key = none)
    (hd : tget [] s.flow.drawn (homeSlice s x.key) = r :: rest) (hr : r < drawLimit s) (hg : recGone s r = false)
    (hl : layouts s = [layNow s]) (hb : bucketGone s (layNow s) ((layBuckets (layNow s) x.key).headD 0) = false)
    (hfree : freeSlot s (layNow s) ((layBuckets (layNow s) x.key).headD 0) = some y) :
    hostInsert img s = (0, 0, r, flowInserted s (homeSlice s x.key) r y rest x) := by
  have hdraw : drawRecord (homeSlice s x.key) (drawFuel s) s = some (r, afterDraw (homeSlice s x.key) rest s) :=
    drawRecord_first hd hr hg
  rw [hostInsert_idle hx htr hh hq ha, if_neg (not_not_intro hf), hi, hdraw]
  have hsame := sameStore_afterDraw (homeSlice s x.key) rest s
  have hput := putRec_of_not_gone ((hsame.recGone r).trans hg) x
  obtain ⟨hy, -⟩ := freeSlot_spec hfree
  generalize hz : afterDraw (homeSlice s x.key) rest s = z at *
  have hl' : layouts (putRec r x z) = [layNow s] := by rw [hput]; exact (show _ = layouts z from rfl).trans (hsame.layouts.trans hl)
  have hb' : bucketGone (putRec r x z) (layNow s) ((layBuckets (layNow s) x.key).headD 0) = false := by
    rw [hput]; exact (hsame.bucketGone ..).trans hb
  have hf' : freeSlot (putRec r x z) (layNow s) ((layBuckets (layNow s) x.key).headD 0) = some y := by
    rw [hput]; exact (show _ = freeSlot z _ _ from rfl).trans ((hsame.freeSlot ..).trans hfree)
  have hins := idxInsert_first (k := x.key) r 0 hb' hf'
  rw [idxPut_of_not_gone (by rw [hy]; exact hb') (layNow_building s)] at hins
  have hw : writeIndex r x.key none (putRec r x z) = .inr (flowInserted s (homeSlice s x.key) r y rest x) := by
    simp only [writeIndex, idxAdd, hl', hins]
    rw [hput, ← hz]
    rfl
  simp only [Option.isSome_none, Bool.false_eq_true, if_false, hw]
  rw [preempt_idle (s := flowInserted s (homeSlice s x.key) r y rest x) hh r]

end Sys2Proof.Machine
end

section
namespace Sys2Proof.Machine

/-! ### Flow commands by record index (R194, R195) -/

theorem finishRecord_idle {s : State} {r : Nat} (hw : inWrites s r = none)
    (h : ∀ x, flowRec s r = some x → sliceReqs s (homeSlice s x.key) = [] ∧ tget [] s.flow.ageQ (homeSlice s x.key) = []) :
    finishRecord r s = s := by
  unfold finishRecord
  cases hx : flowRec s r with
  | none => simp only [hw]
  | some x =>
    obtain ⟨hq, ha⟩ := h x hx
    simp only [sliceDrain_idle hq ha, hw]

theorem hostReach_absent {s : State} {r : Nat} (hw : inWrites s r = none) (hx : flowRec s r = none) (k : BitVec 384) :
    hostReach (some r) k s = (none, s) := by
  have hf := finishRecord_idle hw fun x h => by rw [hx] at h; cases h
  simp only [hostReach, hf, hostLocate, hx, Option.isSome_none, Bool.false_eq_true, false_and, if_false]

theorem hostReach_present {s : State} {r : Nat} {x : FlowRec} (hw : inWrites s r = none) (hx : flowRec s r = some x)
    (hg : recGone s r = false) (hq : sliceReqs s (homeSlice s x.key) = []) (ha : tget [] s.flow.ageQ (homeSlice s x.key) = [])
    (k : BitVec 384) : hostReach (some r) k s = (some r, s) := by
  have hf := finishRecord_idle hw fun x' h => by rw [hx] at h; cases h; exact ⟨hq, ha⟩
  simp only [hostReach, hf, hostLocate, hx, hg, Option.isSome_some, Bool.not_false, and_self, if_true]

/-! ### The fields that a MODIFY selects (Table 6-10) -/

section
variable {w : Nat} (v : BitVec w) (x : Nat) (p : Prop) [Decidable p] {hi lo : Nat}

theorem bf_ite_putBf_apart (h : lo ≤ hi) {hi' lo' : Nat} (hw : hi' < w) (hap : hi < lo' ∨ hi' < lo) :
    bf (if p then putBf v hi lo x else v) hi' lo' = bf v hi' lo' := by
  split
  · exact bf_putBf_apart v x h hw hap
  · rfl

theorem bf_ite_putBf_same (h : lo ≤ hi) (hw : hi < w) :
    bf (if p then putBf v hi lo x else v) hi lo = if p then x % 2 ^ (hi + 1 - lo) else bf v hi lo := by
  split
  · exact bf_putBf_same v x h hw
  · rfl

theorem bit_ite_putBf_apart (h : lo ≤ hi) {i : Nat} (hw : i < w) (hap : hi < i ∨ i < lo) :
    bit (if p then putBf v hi lo x else v) i = bit v i := by
  split
  · rw [bit_putBf v x h hw, if_neg (by omega)]
  · rfl

theorem bit_ite_putBf_same {i : Nat} (hw : i < w) :
    bit (if p then putBf v i i x else v) i = if p then x.testBit 0 else bit v i := by
  split
  · rw [bit_putBf v x (Nat.le_refl i) hw, if_pos ⟨Nat.le_refl i, Nat.le_refl i⟩, Nat.sub_self]
  · rfl

end

theorem fld_mod (v hi lo : Nat) : fld v hi lo % 2 ^ (hi + 1 - lo) = fld v hi lo := Nat.mod_mod _ _

theorem bf_mod {w : Nat} (v : BitVec w) (hi lo : Nat) : bf v hi lo % 2 ^ (hi + 1 - lo) = bf v hi lo := fld_mod ..

theorem testBit_fld_one (v i : Nat) : (fld v i i).testBit 0 = v.testBit i := by rw [testBit_fld]; simp

section
variable (sel st : Nat)

theorem modAction_fields (a w : BitVec 256) : let q := modAction sel a w
    acNhFwd q = (if sel.testBit 0 then acNhFwd a else acNhFwd w) ∧ acNhRev q = (if sel.testBit 1 then acNhRev a else acNhRev w) ∧
    acEditFwd q = (if sel.testBit 2 then acEditFwd a else acEditFwd w) ∧
    acEditRev q = (if sel.testBit 3 then acEditRev a else acEditRev w) ∧
    acMeter q = (if sel.testBit 4 then acMeter a else acMeter w) ∧ bf q 163 0 = bf w 163 0 := by
  unfold modAction acNhFwd acNhRev acEditFwd acEditRev acMeter
  dsimp only
  refine ⟨?_, ?_, ?_, ?_, ?_, ?_⟩ <;>
    simp (disch := decide) only [bf_ite_putBf_apart, bf_ite_putBf_same, bf_mod]

theorem modCounters_fields (w : BitVec 256) : let q := modCounters sel st w
    cnMirror q = (if sel.testBit 5 then fld st 11 8 else cnMirror w) ∧
    cnTelemetry q = (if sel.testBit 6 then fld st 15 12 else cnTelemetry w) ∧ bf q 255 16 = bf w 255 16 := by
  unfold modCounters cnMirror cnTelemetry
  dsimp only
  refine ⟨?_, ?_, ?_⟩ <;>
    simp (disch := decide) only [bf_ite_putBf_apart, bf_ite_putBf_same, fld_mod]

theorem modState_fields (w : BitVec 128) : let q := modState sel st w
    stClass q = (if sel.testBit 7 then fld st 3 0 else stClass w) ∧ stPinned q = (if sel.testBit 8 then st.testBit 4 else stPinned w) ∧
    stDrop q = (if sel.testBit 9 then st.testBit 5 else stDrop w) ∧ bf q 127 116 = bf w 127 116 ∧ bf q 103 0 = bf w 103 0 := by
  unfold modState stClass stPinned stDrop
  dsimp only
  refine ⟨?_, ?_, ?_, ?_, ?_⟩ <;>
    simp (disch := decide) only [bf_ite_putBf_apart, bf_ite_putBf_same, fld_mod, bit_ite_putBf_apart, bit_ite_putBf_same,
      testBit_fld_one]

end

/-! ### A MODIFY by index (R195) -/

/-- A record as a MODIFY leaves it. -/
def recModified (sel st : Nat) (a : BitVec 256) (x : FlowRec) : FlowRec :=
  { x with st := modState sel st x.st, act := modAction sel a x.act, cnt := modCounters sel st x.cnt }

/-- A line as a MODIFY of record r leaves it. -/
def lineModified (r sel st : Nat) (a : BitVec 256) (l : Line) : Line := if l.record = r then modLine sel st a l else l

/-- The state as a MODIFY of record r leaves it. -/
def flowModified (s : State) (r sel st : Nat) (a : BitVec 256) (x : FlowRec) : State := setFlow s { s.flow with
  records := tput s.flow.records r (recModified sel st a x)
  lines := s.flow.lines.map fun q => (q.1, lineModified r sel st a q.2)
  wb := s.flow.wb.map fun q => (q.1, q.2.map fun w => { w with line := lineModified r sel st a w.line }) }

theorem tfind_map_value {α β : Type} (f : α → β) (t : Tbl α) (n : Nat) :
    tfind (t.map fun q => (q.1, f q.2)) n = (tfind t n).map f := by
  induction t with
  | nil => rfl
  | cons q t ih =>
    obtain ⟨k, v⟩ := q
    simp only [List.map_cons, tfind]
    split
    · rfl
    · exact ih

theorem slice_slice {b : Bytes} {n o m : Nat} (h : o + m ≤ n) : slice (slice b 0 n) o m = slice b o m := by
  simp only [slice, List.drop_zero, List.drop_take, List.take_take]
  rw [Nat.min_eq_left (by omega)]

theorem testBit_mod_two_pow_ten (v : Nat) {i : Nat} (h : i < 10) : (v % 2 ^ 10).testBit i = v.testBit i := by
  rw [Nat.testBit_mod_two_pow, decide_eq_true h, Bool.true_and]

theorem hostModify_present {s : State} {r : Nat} {x : FlowRec} (hw : inWrites s r = none) (hx : flowRec s r = some x)
    (hg : recGone s r = false) (hq : sliceReqs s (homeSlice s x.key) = []) (ha : tget [] s.flow.ageQ (homeSlice s x.key) = [])
    (e : Bytes) : hostModify (some r) e s = (0, flowModified s r (leNat (slice e 48 8) % 2 ^ 10) (leNat (slice e 56 8))
      (BitVec.ofNat 256 (leNat (slice e 64 32))) x) := by
  unfold hostModify
  dsimp only
  rw [hostReach_present hw hx hg hq ha]
  simp only [hx, putRec_of_not_gone hg]
  rfl

end Sys2Proof.Machine
end

section
namespace Sys2Proof.Machine

/-! ### Commands by record index, executed (R194, R195) -/

section
variable {s : State} {c : TblCmd} (ht : c.table = 0x10) (hc : c.count = 1) (hi : c.index ≠ 0xFFFFFFFF)
  (hw : inWrites s c.index = none) (hl : c.op = 3 → 128 ≤ c.limit)

include hi in
theorem flowAt_index : flowAt c 0 = some c.index := by
  simp only [flowAt, tblKeyed, beq_iff_eq, hi, if_false, Nat.add_zero]

include ht hc hi hw hl

theorem hostExec_absent (hx : flowRec s c.index = none) (hop : c.op ∈ [2, 3, 6]) :
    hostExec c s = { status := 4, detail := 0, done := 0, result := 0, reply := [], st := s } := by
  refine hostExec_refused ht hc hl (out := []) (by decide) ?_
  simp only [List.mem_cons, List.not_mem_nil, or_false] at hop
  rcases hop with hop | hop | hop
  · simp only [flowEntry, hop, hostDelete, flowAt_index hi, hostReach_absent hw hx]; rfl
  · simp only [flowEntry, hop, hostRead, flowAt_index hi, hostReach_absent hw hx]
  · simp only [flowEntry, hop, hostModify, flowAt_index hi, hostReach_absent hw hx]; rfl

variable {x m : FlowRec} (hx : flowRec s c.index = some x) (hg : recGone s c.index = false)
  (hq : sliceReqs s (homeSlice s x.key) = []) (ha : tget [] s.flow.ageQ (homeSlice s x.key) = [])
include hx hg hq ha

theorem hostExec_delete (hop : c.op = 2) : hostExec c s =
    { status := 0, detail := 0, done := 1, result := 0, reply := [], st := flowRemove c.index 3 s } := by
  rw [hostExec_applied ht hc hl (d := 0) (out := []) (t := flowRemove c.index 3 s) ?_]
  · simp only [hop]; rfl
  · simp only [flowEntry, hop, hostDelete, flowAt_index hi, hostReach_present hw hx hg hq ha]; rfl

theorem hostExec_read (hm : mergedRec s c.index = some m) (hop : c.op = 3) : hostExec c s =
    { status := 0, detail := 0, done := 1, result := 0, reply := recBytes m, st := hbmRequest 3 (recAddr s c.index) 128 false s } := by
  rw [hostExec_applied ht hc hl (d := 0) (out := recBytes m) (t := hbmRequest 3 (recAddr s c.index) 128 false s) ?_]
  · simp only [hop]; rfl
  · simp only [flowEntry, hop, hostRead, flowAt_index hi, hostReach_present hw hx hg hq ha, hm, Option.map_some]

theorem hostExec_modify (hop : c.op = 6) : hostExec c s =
    { status := 0, detail := 0, done := 1, result := 0, reply := []
      st := flowModified s c.index (leNat (slice c.payload 48 8) % 2 ^ 10) (leNat (slice c.payload 56 8))
        (BitVec.ofNat 256 (leNat (slice c.payload 64 32))) x } := by
  have he : flowEntry c 0 s = (0, 0, [], flowModified s c.index (leNat (slice c.payload 48 8) % 2 ^ 10)
      (leNat (slice c.payload 56 8)) (BitVec.ofNat 256 (leNat (slice c.payload 64 32))) x) := by
    simp only [flowEntry, hop, flowAt_index hi, hostModify_present hw hx hg hq ha, Nat.mul_zero]
    rw [slice_slice (by decide), slice_slice (by decide), slice_slice (by decide)]
    rfl
  rw [hostExec_applied ht hc hl he]
  simp only [hop]; rfl

end

end Sys2Proof.Machine
end

section
namespace Sys2Proof.Machine

theorem hbmRequest_mem (cls a len : Nat) (w : Bool) (s : State) : (hbmRequest cls a len w s).hbm.mem = s.hbm.mem := by
  simp only [hbmRequest]
  generalize hcount : count 0x6011 cls 0 _ = t
  have ht : t.hbm.mem = s.hbm.mem := by rw [← hcount, count_eq]; rfl
  split
  · split
    · exact ht
    · exact ht
  · exact ht

theorem sameStore_ageTaken (n : Nat) (rest : List (Nat × Nat)) (s : State) : SameStore s (ageTaken n rest s) :=
  ⟨⟨rfl, rfl, rfl⟩, rfl, rfl, rfl, fun _ => rfl, rfl, rfl, rfl, rfl, rfl, rfl⟩

theorem ageTaken_eq (n : Nat) (rest : List (Nat × Nat)) (s : State) : ageTaken n rest s = { s with flow := { s.flow with
    ageQ := tset [] s.flow.ageQ n rest, served := (ageTaken n rest s).flow.served } } := rfl

section
variable {s : State} {n r : Nat} {k : BitVec 384} {rest : List (Nat × Nat)} {m : FlowRec} {h : Nat}

theorem flowRec_agedOut_ageTaken (hs : tsorted s.flow.records = true) :
    flowRec (agedOut r h k m (ageTaken n rest s)) r = none ∧
      ∀ j, j ≠ r → flowRec (agedOut r h k m (ageTaken n rest s)) j = flowRec s j :=
  ⟨flowRec_agedOut_same (s := ageTaken n rest s) hs, fun _ hj => flowRec_agedOut_other (s := ageTaken n rest s) hj⟩

theorem lineAt_agedOut_ageTaken (hs : tsorted s.flow.lines = true) (y : Nat) (l : Line) :
    lineAt (agedOut r h k m (ageTaken n rest s)) y = some l ↔ lineAt s y = some l ∧ l.record ≠ r :=
  lineAt_agedOut (s := ageTaken n rest s) hs y l

theorem tget_chains_agedOut_ageTaken (hr : r < s.flow.nr) :
    tget [] (agedOut r h k m (ageTaken n rest s)).flow.chains (r % 16) = r :: tget [] s.flow.chains (r % 16) :=
  tget_chains_agedOut (s := ageTaken n rest s) hr

theorem slot_agedOut_ageTaken (hs : IndexSorted s) {l : IdxLay} (hl : l ∈ layouts s) {b : Nat} (hb : b ∈ layBuckets l k)
    (hg : bucketGone s l b = false) {y : Nat} (hy : y ∈ bucketSlots b) :
    ¬ SlotOf r 0 (idxGet (agedOut r h k m (ageTaken n rest s)) l y) := by
  have hsame := sameStore_ageTaken n rest s
  exact slot_agedOut (s := ageTaken n rest s) ⟨hsame.index ▸ hs.1, hsame.index2 ▸ hs.2⟩ (hsame.layouts ▸ hl) hb
    ((hsame.bucketGone l b).trans hg) hy

theorem holdAt_agedOut_ageTaken {j : Nat} (hn : holdFor s h k = none) (hf : freeHold s h = some j) :
    holdAt (agedOut r h k m (ageTaken n rest s)) j = some (emptyHold k 4) := by
  have hk : holdKeys (ageTaken n rest s) = holdKeys s := rfl
  exact holdAt_agedOut ((holdFor_congr hk h k).trans hn) ((freeHold_congr hk h).trans hf)

theorem getLast_agedOut_ageTaken : (tget [] (agedOut r h k m (ageTaken n rest s)).flow.reborn h).getLast? =
    some (fingerprint (seedsNow s) k, devMs s) := by
  rw [getLast_agedOut, (sameStore_ageTaken n rest s).seedsNow]
  rfl

theorem ctrGet_agedOut_ageTaken {reason : Nat} (hm : ageReason m = reason) (hh : h < 16)
    (hw : ctrGet s (oa 0x4040 h (4 + reason)) + 1 < 2 ^ 48) :
    ctrGet (agedOut r h k m (ageTaken n rest s)) (oa 0x4040 h (4 + reason)) = ctrGet s (oa 0x4040 h (4 + reason)) + 1 := by
  have hc : ∀ a, ctrGet (ageTaken n rest s) a = ctrGet s a := fun a => ctrGet_of_cnt rfl a
  subst hm
  rw [ctrGet_agedOut hh (by rw [hc]; exact hw), hc]

theorem notice_agedOut_ageTaken (he : (cfgN s 0x4034 0 0).testBit (ageReason m - 1) = true) (hc : classRefuses s 4 = false) :
    ∃ i ∈ readyItems (agedOut r h k m (ageTaken n rest s)) 4,
      i.routine = 8 ∧ i.record = r ∧ i.bytes = endNotice s h r (ageReason m) m := by
  have hsame := sameStore_ageTaken n rest s
  exact notice_agedOut (s := ageTaken n rest s) (by rw [hsame.cfgN]; exact he)
    ((classRefuses_congr (s := s) hsame.config rfl 4).trans hc)

theorem agedOut_ageTaken_outside : let t := agedOut r h k m (ageTaken n rest s)
    t.path = s.path ∧ t.tm = s.tm ∧ t.fwd = s.fwd ∧ t.hbm = s.hbm := by
  dsimp only
  rw [agedOut_eq]
  exact ⟨rfl, rfl, rfl, rfl⟩

end

theorem hostExec_write {s : State} {c : TblCmd} {r : Nat} {t : State} (ht : c.table = 0x10) (hc : c.count = 1) (hop : c.op = 1)
    (hr : r < 2 ^ 29) (h : hostInsert (recOfBytes (slice c.payload 0 128)) s = (0, 0, r, t)) : hostExec c s =
    { status := 0, detail := 0, done := 1, result := r, reply := leBytes 4 r, st := t } := by
  have he : flowEntry c 0 s = (0, 0, leBytes 4 r, t) := by simp only [flowEntry, hop, Nat.mul_zero, h, if_true]
  rw [hostExec_applied ht hc (fun h3 => by omega) he, if_pos hop, List.take_of_length_le (by rw [length_leBytes]),
    leNat_leBytes_of_lt (by omega)]

section
variable {s : State} {n r y : Nat} {rest : List Nat} {x : FlowRec}

theorem flowRec_flowInserted : flowRec (flowInserted s n r y rest x) r = some x ∧
    ∀ j, j ≠ r → flowRec (flowInserted s n r y rest x) j = flowRec s j :=
  ⟨tfind_tput_same _ _ _, fun _ hj => tfind_tput_other _ _ hj⟩

theorem index_flowInserted :
    tget 0 (flowInserted s n r y rest x).flow.index y = mkSlot (laySig (layNow s) x.key) r 0 false ∧
      ∀ j, j ≠ y → tget 0 (flowInserted s n r y rest x).flow.index j = tget 0 s.flow.index j :=
  ⟨tget_tset_ne_default (mkSlot_ne_zero _ _ _ _) _ _, fun _ hj => tget_tset_other _ _ hj⟩

end

section
variable {s : State} {r sel st : Nat} {a : BitVec 256} {x : FlowRec}

theorem flowRec_flowModified : flowRec (flowModified s r sel st a x) r = some (recModified sel st a x) ∧
    ∀ j, j ≠ r → flowRec (flowModified s r sel st a x) j = flowRec s j :=
  ⟨tfind_tput_same _ _ _, fun _ hj => tfind_tput_other _ _ hj⟩

theorem lineAt_flowModified_other {y : Nat} {l : Line} (hl : lineAt s y = some l) (hr : l.record ≠ r) :
    lineAt (flowModified s r sel st a x) y = some l := by
  show tfind (s.flow.lines.map fun q => (q.1, lineModified r sel st a q.2)) y = some l
  rw [tfind_map_value, show tfind s.flow.lines y = some l from hl, Option.map_some, lineModified, if_neg hr]

end

/-- The fields that a MODIFY selects by bits 9:0 take their new values, and the others stay (Table 6-10). -/
theorem recModified_fields (sel v : Nat) (a : BitVec 256) (x : FlowRec) : let q := recModified (sel % 2 ^ 10) v a x
    q.key = x.key ∧
    acNhFwd q.act = (if sel.testBit 0 then acNhFwd a else acNhFwd x.act) ∧
    acNhRev q.act = (if sel.testBit 1 then acNhRev a else acNhRev x.act) ∧
    acEditFwd q.act = (if sel.testBit 2 then acEditFwd a else acEditFwd x.act) ∧
    acEditRev q.act = (if sel.testBit 3 then acEditRev a else acEditRev x.act) ∧
    acMeter q.act = (if sel.testBit 4 then acMeter a else acMeter x.act) ∧ bf q.act 163 0 = bf x.act 163 0 ∧
    cnMirror q.cnt = (if sel.testBit 5 then fld v 11 8 else cnMirror x.cnt) ∧
    cnTelemetry q.cnt = (if sel.testBit 6 then fld v 15 12 else cnTelemetry x.cnt) ∧ bf q.cnt 255 16 = bf x.cnt 255 16 ∧
    stClass q.st = (if sel.testBit 7 then fld v 3 0 else stClass x.st) ∧
    stPinned q.st = (if sel.testBit 8 then v.testBit 4 else stPinned x.st) ∧
    stDrop q.st = (if sel.testBit 9 then v.testBit 5 else stDrop x.st) ∧ bf q.st 127 116 = bf x.st 127 116 ∧
    bf q.st 103 0 = bf x.st 103 0 := by
  obtain ⟨a1, a2, a3, a4, a5, a6⟩ := modAction_fields (sel % 2 ^ 10) a x.act
  obtain ⟨c1, c2, c3⟩ := modCounters_fields (sel % 2 ^ 10) v x.cnt
  obtain ⟨s1, s2, s3, s4, s5⟩ := modState_fields (sel % 2 ^ 10) v x.st
  simp (disch := decide) only [testBit_mod_two_pow_ten] at a1 a2 a3 a4 a5 c1 c2 s1 s2 s3
  exact ⟨rfl, a1, a2, a3, a4, a5, a6, c1, c2, c3, s1, s2, s3, s4, s5⟩

theorem hbmRequest_read (a : Nat) (s : State) : let u := hbmRequest 3 a 128 false s
    u = { s with hbm := u.hbm, cnt := u.cnt } ∧ u.hbm.mem = s.hbm.mem := ⟨hbmRequest_eq .., hbmRequest_mem ..⟩

/-- A DELETE's end of a flow (R184, R194). -/
theorem flowRemove_facts {s : State} {r : Nat} {x : FlowRec} (hx : flowRec s r = some x) (reason : Nat)
    (hsr : tsorted s.flow.records = true) : let u := flowRemove r reason s
    flowRec u r = none ∧ (∀ j, j ≠ r → flowRec u j = flowRec s j) ∧
      (tsorted s.flow.lines = true → ∀ y l, lineAt u y = some l → l.record ≠ r) ∧ u.path = s.path ∧ u.fwd = s.fwd := by
  have h := flowEnded_flowEnd hx reason (mergedRec s r)
  refine ⟨?_, fun j hj => ?_, h.lines, ?_, ?_⟩
  · rw [flowRec, flowRemove, h.records]; exact tfind_tdel_same hsr r
  · rw [flowRec, flowRemove, h.records]; exact tfind_tdel_other _ hj
  · rw [flowRemove, h.frame]
  · rw [flowRemove, h.frame]

/-- Settles O21, clause by clause: each command is the state its rule names, and each fact of that state is a lemma. -/
theorem flowRemovalAndHost : Obligations.FlowRemovalAndHost := by
  unfold Obligations.FlowRemovalAndHost
  refine ⟨fun s r => ⟨fun h => execAgeScan_off h r, execAgeScan_absent, fun x hx hf hon hg => ?_⟩,
    fun s n r k rest x m hq hf hl ha hz hw hx hm => ⟨fun hd => ?_, fun hd hsr hsl hsi hsi2 htr hfw hrw => ?_⟩,
    ageReason_eq, fun s n hf hs hc => ?_, fun s h payload hr => ?_,
    fun s c ha hf hc hr hs hst => execCloserApply_hostFlow ha hf hc hr hs hst, fun s d hd => hostServe_eq hd,
    fun s d e hl hsrc hend hring => ?_, fun s c ht hop hc => ?_, fun s c ht hc hi hw hl => ?_⟩
  · obtain ⟨v, l, hn⟩ := nominate_eq r x s
    have hoff : (cnTelemetry x.cnt).testBit 2 = false →
        (nominate r x s).flow.nominated = s.flow.nominated ∧ (nominate r x s).flow.visits = s.flow.visits := fun h => by
      rw [nominate_off h]; exact ⟨rfl, rfl⟩
    refine ⟨fun hd hp => ⟨_, ⟨execAgeScan_due hx hf hon hg hd hp, ?_, hoff⟩, rfl⟩,
      fun h => ⟨_, ⟨execAgeScan_kept hx hf hon hg h, ?_, hoff⟩, ?_⟩⟩
    · rw [hn]; rfl
    · rw [hn]
    · rw [hn]
  · exact ⟨_, execAgeDecide_renewed hq hf hl ha hz hw hm hd, ageTaken_eq ..⟩
  · exact ⟨_, execAgeDecide_aged hq hf hl ha hz hw hm hx hd htr hfw hrw, (flowRec_agedOut_ageTaken hsr).1,
      (flowRec_agedOut_ageTaken hsr).2, fun y l h => ((lineAt_agedOut_ageTaken hsl y l).mp h).2,
      fun y l h hne => (lineAt_agedOut_ageTaken hsl y l).mpr ⟨h, hne⟩,
      fun l hl b hb hg y hy => slot_agedOut_ageTaken ⟨hsi, hsi2⟩ hl hb hg hy, tget_chains_agedOut_ageTaken,
      fun h => holdAt_agedOut_ageTaken, getLast_agedOut_ageTaken, fun h1 => ctrGet_agedOut_ageTaken h1 (homeSlice_lt s x.key),
      fun h2 => ctrGet_agedOut_ageTaken h2 (homeSlice_lt s x.key), notice_agedOut_ageTaken, agedOut_ageTaken_outside⟩
  · obtain ⟨hholds, hframe⟩ := removalEnd_empty hs hc
    have hexec : exec (.removalComplete n) s = .next (removalEnd n s) := by
      change execRemovalComplete n s = _
      rw [execRemovalComplete, hf]; rfl
    refine ⟨removalEnd n s, hexec, hholds, ?_, ?_, ?_⟩ <;> rw [hframe]
  · intro c cmds ht hok q hq hrow
    have hmem : q ∈ mailboxTableCmds := by
      simp only [cmds, List.mem_cons, List.not_mem_nil, or_false] at hq
      simp only [mailboxTableCmds, List.mem_cons, List.not_mem_nil, or_false]
      tauto
    have hreq := tableReq_hostFlow hr ht hok
    refine ⟨fun hb => ?_, fun ha => ?_⟩
    · rw [msgSubmit_refused hb] at hreq
      have hquiet : Quiet s (itemRefused 3 s) := (quiet_count ..).trans (quiet_raiseLimited ..)
      obtain ⟨hans, honly⟩ := mailboxAnswered_mbxFinish (s := s) (t := itemRefused 3 s) (by rw [hquiet.ctl]) (refuse stBusy 0)
      refine ⟨_, ?_, honly, hans⟩
      rw [exec_mailboxTableCmd hmem, tblRun_mailbox hr hrow hreq]
      rfl
    · obtain ⟨t, i, hsub, hframe, hready, hrt, hsrc, hdata, hcmds, hlists⟩ := msgSubmit_admitted ha c { who := 0, msg := mbxMsg s }
      rw [hsub] at hreq
      refine ⟨t, i, msgHostCmd c { who := 0, msg := mbxMsg s } s, ?_, hframe, hready, hrt, hsrc, hdata, hcmds, rfl, rfl, rfl, hlists⟩
      rw [exec_mailboxTableCmd hmem, tblRun_mailbox hr hrow hreq]
      rfl
  · rw [hostFlush_message hl hsrc hend hring]
    exact mailboxAnswered_mbxFinish rfl _
  · intro x n l b fails hh htr hq ha
    have hlim : c.op = 3 → 128 ≤ c.limit := fun h => by omega
    have hentry : ∀ {st d r : Nat} {t : State}, hostInsert (recOfBytes (slice c.payload 0 128)) s = (st, d, r, t) →
        flowEntry c 0 s = (st, d, if st = 0 then leBytes 4 r else [], t) := fun h => by
      simp only [flowEntry, hop, Nat.mul_zero, h]
    refine ⟨fun hf => ?_, fun hf hi => ?_, fun hf hi hd he => ?_, fun r rest y hf hi hd hr hr29 hg hlay hb hfree => ?_⟩
    · exact hostExec_refused ht hc hlim (by decide) (hentry (hostInsert_badFormat rfl htr hh hq ha hf))
    · exact hostExec_refused ht hc hlim (by decide) (hentry (hostInsert_present rfl htr hh hq ha hf hi))
    · exact hostExec_refused ht hc hlim (by decide) (hentry (hostInsert_full rfl htr hh hq ha hf hi hd he))
    · have hz := hostExec_write ht hc hop hr29 (hostInsert_drawn rfl htr hh hq ha hf hi hd hr hg hlay hb hfree)
      intro z u
      have hu : u = flowInserted s n r y rest x := congrArg TblEnd.st hz
      rw [hu]
      refine ⟨congrArg TblEnd.status hz, congrArg TblEnd.done hz, congrArg TblEnd.result hz, congrArg TblEnd.reply hz,
        flowRec_flowInserted.1, flowRec_flowInserted.2, index_flowInserted.1, index_flowInserted.2, rfl, rfl, rfl, rfl, rfl,
        storedImage_first _, storedImage_class _⟩
  · intro r z u
    refine ⟨fun hx hop => hostExec_absent ht hc hi hw hl hx hop, fun x m hx hg hm hq ha => ?_⟩
    have hdel := hostExec_delete ht hc hi hw hl hx hg hq ha
    have hread := hostExec_read ht hc hi hw hl hx hg hq ha hm
    have hmod := hostExec_modify ht hc hi hw hl hx hg hq ha
    refine ⟨fun hop => ?_, fun hop hsr hsl => ?_, fun hop => ?_, fun hop => ?_⟩
    · simp only [List.mem_cons, List.not_mem_nil, or_false] at hop
      rcases hop with hop | hop | hop
      · simp [z, hdel hop, hop]
      · simp [z, hread hop, hop]
      · simp [z, hmod hop, hop]
    · have hu : u = flowRemove r 3 s := congrArg TblEnd.st (hdel hop)
      obtain ⟨hgone, hother, hlines, houtside⟩ := flowRemove_facts hx 3 hsr
      rw [hu]
      exact ⟨hgone, hother, hlines hsl, houtside⟩
    · have hu : u = hbmRequest 3 (recAddr s r) 128 false s := congrArg TblEnd.st (hread hop)
      rw [hu]
      exact hbmRequest_read _ s
    · have hu : u = flowModified s r _ _ _ x := congrArg TblEnd.st (hmod hop)
      rw [hu]
      exact ⟨_, rfl, flowRec_flowModified.1, flowRec_flowModified.2, recModified_fields .., fun y l => lineAt_flowModified_other⟩

end Sys2Proof.Machine
end

section
namespace Sys2Proof.Machine

/-! ### LOAD_V1 serves a record (R202) -/

theorem loadServe_unconverted {tag n d : Nat} {bs : Bytes} {o : LongOp} {s : State} (hl : loadOf tag s = some (n, o))
    (hv : fromV1 bs s = .inl d) : loadServe tag bs s = loadDone n o (loadRefused n 2 d s) := by
  simp only [loadServe, hl, hv]

theorem loadServe_converted {tag n st d r : Nat} {bs : Bytes} {o : LongOp} {s u : State} {x : FlowRec}
    (hl : loadOf tag s = some (n, o)) (hv : fromV1 bs s = .inr x) (hi : hostInsert x s = (st, d, r, u)) :
    loadServe tag bs s = loadDone n o (if st = 0 then u else loadRefused n st d u) := by
  simp only [loadServe, hl, hv, hi]

/-! ### A slice's banks (R141, R142) -/

theorem noteFault_flow (k : Nat) (s : State) : (noteFault k s).flow = s.flow := by
  rw [noteFault_eq]

theorem foldl_noteFault_flow (l : List Nat) (s : State) : (l.foldl (fun t _ => noteFault 1 t) s).flow = s.flow := by
  induction l generalizing s with
  | nil => rfl
  | cons a l ih => exact (ih _).trans (noteFault_flow 1 s)

/-- The bank mapped to the spare, and reported with its cause. -/
def bankMapped (n c y : Nat) (u : State) : State :=
  detect 7 0x0503 [n, y, c] (setFlow u { u.flow with spare := tset (0, 0) u.flow.spare n (2, y) })

section
variable {s : State} {n bank c : Nat}

theorem sliceBankFault_mapped (h : (tget (0, 0) s.flow.spare n).1 ≠ 2) : sliceBankFault n bank c s = bankMapped n c bank s := by
  simp only [sliceBankFault, if_neg h]; rfl

theorem sliceBankFault_same (h : tget (0, 0) s.flow.spare n = (2, bank)) : sliceBankFault n bank c s = s := by
  simp only [sliceBankFault, h, if_true]

theorem sliceBankFault_further (h : (tget (0, 0) s.flow.spare n).1 = 2) (hb : (tget (0, 0) s.flow.spare n).2 ≠ bank) :
    sliceBankFault n bank c s = detect 7 0x0504 [n, bank] s := by
  simp only [sliceBankFault, h, hb, if_true, if_false]

theorem execSliceBankSpare_fault (hits : Nat) : exec (.sliceBankSpare n bank hits) s = .next (if hits = 0 then sliceBankFault n bank 1 s
    else sliceBankHits n bank hits s) := rfl

theorem sliceBankHits_eq {hits : Nat} : sliceBankHits n bank hits s =
    if 0 < hits ∧ cfgN s 0x4007 0 0 ≤ hits then sliceBankFault n bank 2 ((List.range hits).foldl (fun t _ => noteFault 1 t) s)
    else (List.range hits).foldl (fun t _ => noteFault 1 t) s := rfl

theorem execSliceOnlineBist_cases (pass : Bool) :
    ((tget (0, 0) s.flow.spare n).1 = 0 → exec (.sliceOnlineBist n bank pass) s = .next (setSpare n (1, bank) s)) ∧
    ((tget (0, 0) s.flow.spare n).1 = 1 → exec (.sliceOnlineBist n bank pass) s = .next (if pass then setSpare n (0, 0) s
      else bankMapped n 1 (tget (0, 0) s.flow.spare n).2 s)) ∧
    ((tget (0, 0) s.flow.spare n).1 = 2 → exec (.sliceOnlineBist n bank pass) s = .next s) := by
  change (_ → execSliceOnlineBist n bank pass s = _) ∧ (_ → execSliceOnlineBist n bank pass s = _) ∧
    (_ → execSliceOnlineBist n bank pass s = _)
  unfold execSliceOnlineBist
  generalize tget (0, 0) s.flow.spare n = p
  obtain ⟨v, b⟩ := p
  refine ⟨fun h => ?_, fun h => ?_, fun h => ?_⟩ <;> subst h
  · rfl
  · cases pass <;> rfl
  · rfl

end

end Sys2Proof.Machine
end

section
namespace Sys2Proof.Machine

/-! ### The switch of a REHASH (R191) -/

/-- A waiting lookup joins the requests of its key's home slice. -/
def reqHomed (t : State) (p : Nat) : State :=
  match (pkt t p).key with
  | some k => setReqs t (homeSlice t k) (sliceReqs t (homeSlice t k) ++ [p])
  | none => t

/-- An ageing request joins those of its record's home slice. -/
def ageHomed (t : State) (r : Nat × Nat) : State :=
  match flowRec t r.1 with
  | some x => setFlow t { t.flow with
      ageQ := tput t.flow.ageQ (homeSlice t x.key) (tget [] t.flow.ageQ (homeSlice t x.key) ++ [r]) }
  | none => t

theorem rehome_eq (s : State) : rehome s = (s.flow.ageQ.flatMap (·.2)).foldl ageHomed
    ((s.flow.reqs.flatMap (·.2)).foldl reqHomed (setFlow s { s.flow with reqs := [], ageQ := [] })) := rfl

/-- u differs from t in waiting lookups alone, of which none has left its slice. -/
def ReqsGrown (t u : State) : Prop :=
  u = { t with flow := { t.flow with reqs := u.flow.reqs } } ∧ ∀ n p, p ∈ sliceReqs t n → p ∈ sliceReqs u n

theorem ReqsGrown.refl (t : State) : ReqsGrown t t := ⟨rfl, fun _ _ h => h⟩
theorem ReqsGrown.trans {t u v : State} (h : ReqsGrown t u) (h' : ReqsGrown u v) : ReqsGrown t v :=
  ⟨by rw [h'.1, h.1], fun n p hp => h'.2 n p (h.2 n p hp)⟩

theorem sliceReqs_setReqs_same {l : List Nat} (hl : l ≠ []) (t : State) (n : Nat) : sliceReqs (setReqs t n l) n = l :=
  tget_tset_ne_default hl _ _

theorem reqsGrown_setReqs (t : State) (n p : Nat) : ReqsGrown t (setReqs t n (sliceReqs t n ++ [p])) := by
  refine ⟨rfl, fun m q hq => ?_⟩
  by_cases hm : m = n
  · subst hm
    rw [sliceReqs_setReqs_same (by simp)]
    exact List.mem_append_left _ hq
  · have he : sliceReqs (setReqs t n (sliceReqs t n ++ [p])) m = sliceReqs t m := tget_tset_other _ _ hm
    rwa [he]

theorem reqsGrown_reqHomed (t : State) (p : Nat) : ReqsGrown t (reqHomed t p) := by
  unfold reqHomed
  split
  · exact reqsGrown_setReqs ..
  · exact .refl t

/-- A lookup with a key waits at its key's home slice. -/
def WaitsHome (p : Nat) (t : State) : Prop := ∀ k, (pkt t p).key = some k → p ∈ sliceReqs t (homeSlice t k)

theorem waitsHome_reqHomed (p : Nat) (t : State) : WaitsHome p (reqHomed t p) := by
  intro k hk
  rw [(reqsGrown_reqHomed t p).1] at hk
  have hk' : (pkt t p).key = some k := hk
  have hh : homeSlice (reqHomed t p) k = homeSlice t k := by rw [(reqsGrown_reqHomed t p).1]; rfl
  rw [hh]
  simp only [reqHomed, hk']
  rw [sliceReqs_setReqs_same (by simp)]
  exact List.mem_append_right _ (List.mem_singleton_self p)

theorem WaitsHome.grown {p : Nat} {t u : State} (h : ReqsGrown t u) (hp : WaitsHome p t) : WaitsHome p u := by
  intro k hk
  have hh : homeSlice u k = homeSlice t k := by rw [h.1]; rfl
  rw [h.1] at hk
  rw [hh]
  exact h.2 _ _ (hp k hk)

/-- Every lookup handed on waits at its home slice. -/
theorem foldl_reqHomed (l : List Nat) (s : State) :
    ReqsGrown s (l.foldl reqHomed s) ∧ ∀ p ∈ l, WaitsHome p (l.foldl reqHomed s) :=
  foldl_establishes (R := ReqsGrown) (I := fun _ => True) (P := WaitsHome) .refl .trans reqsGrown_reqHomed
    (fun _ _ => trivial) (fun p t _ => waitsHome_reqHomed p t) (fun h hp => hp.grown h) l trivial

theorem foldl_ageHomed (l : List (Nat × Nat)) (s : State) :
    l.foldl ageHomed s = { s with flow := { s.flow with ageQ := (l.foldl ageHomed s).flow.ageQ } } := by
  induction l generalizing s with
  | nil => rfl
  | cons r l ih =>
    rw [List.foldl_cons, ih]
    unfold ageHomed
    split <;> rfl

theorem rehome_frame (s : State) :
    rehome s = { s with flow := { s.flow with reqs := (rehome s).flow.reqs, ageQ := (rehome s).flow.ageQ } } := by
  rw [rehome_eq, foldl_ageHomed, (foldl_reqHomed _ _).1.1]
  rfl

theorem waitsHome_rehome {s : State} {n p : Nat} (hp : p ∈ sliceReqs s n) : WaitsHome p (rehome s) := by
  have hm : p ∈ s.flow.reqs.flatMap (·.2) := by
    unfold sliceReqs tget at hp
    cases hf : tfind s.flow.reqs n with
    | none => rw [hf] at hp; cases hp
    | some l =>
      rw [hf] at hp
      exact List.mem_flatMap.mpr ⟨(n, l), mem_of_tfind_eq_some hf, hp⟩
  have h := (foldl_reqHomed (s.flow.reqs.flatMap (·.2)) (setFlow s { s.flow with reqs := [], ageQ := [] })).2 p hm
  rw [rehome_eq, foldl_ageHomed]
  exact h

theorem restartFetches_eq (s : State) :
    restartFetches s = { s with flow := { s.flow with holds := (restartFetches s).flow.holds } } := rfl

/-- The new layout in force, before requests move. -/
def layoutSwitched (r : Rehash) (s : State) : State := setFlow s { s.flow with
  index := s.flow.index2, index2 := [], rehash := some { r with phase := 2, since := raw s, newOnly := [] } }

theorem execRehashSwitch_done {s : State} {r : Rehash} {o : LongOp} (hr : s.flow.rehash = some r) (ho : workingOp s r.op = some o)
    (hp : r.phase = 1) (hf : flowHalted s = false) : exec .rehashSwitch s =
      .next (if seedsMove r then setCtl (restartFetches (rehome (layoutSwitched r s)))
          { (restartFetches (rehome (layoutSwitched r s))).ctl with
            stopped := (restartFetches (rehome (layoutSwitched r s))).ctl.stopped ++ [(Fn.flowEngine, raw s)] }
        else restartFetches (rehome (layoutSwitched r s))) := by
  change execRehashSwitch s = _
  simp only [execRehashSwitch, hr, ho, hp, hf, ne_eq, not_true_eq_false, Bool.false_eq_true, or_self, if_false]
  rfl

theorem switched_eq (r : Rehash) (s : State) : restartFetches (rehome (layoutSwitched r s)) = { s with flow := { s.flow with
    index := s.flow.index2, index2 := [], rehash := some { r with phase := 2, since := raw s, newOnly := [] }
    reqs := (restartFetches (rehome (layoutSwitched r s))).flow.reqs, ageQ := (restartFetches (rehome (layoutSwitched r s))).flow.ageQ
    holds := (restartFetches (rehome (layoutSwitched r s))).flow.holds } } := by
  rw [restartFetches_eq, rehome_frame]
  rfl

/-- What the switch leaves in force, whatever the control part. -/
theorem switched_facts (r : Rehash) (s : State) (c : Control) : let t := setCtl (restartFetches (rehome (layoutSwitched r s))) c
    t.flow.index = s.flow.index2 ∧ t.flow.index2 = [] ∧ t.flow.rehash = some { r with phase := 2, since := raw s, newOnly := [] } ∧
    (∀ i ∈ [1, 2, 3, 4, 5], flowSeed t i = r.seeds.getD (i - 1) 0) ∧
    (∀ n pid k, pid ∈ sliceReqs s n → (pkt s pid).key = some k → pid ∈ sliceReqs t (homeSlice t k)) := by
  dsimp only
  have hw := fun n pid => waitsHome_rehome (s := layoutSwitched r s) (n := n) (p := pid)
  have hpkt : ∀ pid, pkt (rehome (layoutSwitched r s)) pid = pkt s pid := fun pid => by rw [rehome_frame]; rfl
  have hhome : ∀ k, homeSlice (setCtl (restartFetches (rehome (layoutSwitched r s))) c) k = homeSlice (rehome (layoutSwitched r s)) k := by
    intro k
    rw [rehome_frame]
    rfl
  have hreqs : ∀ n, sliceReqs (setCtl (restartFetches (rehome (layoutSwitched r s))) c) n = sliceReqs (rehome (layoutSwitched r s)) n :=
    fun n => rfl
  refine ⟨?_, ?_, ?_, fun i _ => ?_, fun n pid k hp hk => ?_⟩
  · rw [switched_eq]; rfl
  · rw [switched_eq]; rfl
  · rw [switched_eq]; rfl
  · rw [switched_eq]; rfl
  · rw [hreqs, hhome]
    exact hw n pid hp k (by rw [hpkt]; exact hk)

end Sys2Proof.Machine
end

section
namespace Sys2Proof.Machine

/-! ### Merged records -/

theorem mergeLine_key (x : FlowRec) (l : Line) : (mergeLine x l).key = x.key := rfl

theorem foldl_mergeLine_key (ls : List Line) (x : FlowRec) : (ls.foldl mergeLine x).key = x.key := by
  induction ls generalizing x with
  | nil => rfl
  | cons l ls ih => rw [List.foldl_cons, ih, mergeLine_key]

theorem mergedRec_spec {s : State} {r : Nat} {m : FlowRec} (h : mergedRec s r = some m) :
    ∃ x, flowRec s r = some x ∧ m.key = x.key := by
  unfold mergedRec at h
  obtain ⟨x, hx, hm⟩ := Option.map_eq_some_iff.mp h
  refine ⟨x, hx, ?_⟩
  rw [← hm]
  dsimp only
  split
  · rw [mergeLine_key, foldl_mergeLine_key]
  · exact foldl_mergeLine_key ..

/-! ### Progress of an operation (R69) -/

theorem opProgress_eq {s : State} {n : Nat} {o : LongOp} (ho : tfind s.ctl.ops n = some o) (d : Nat) (p : Bool) :
    opProgress n d p s = setOp s n { o with done := d, suspendAsked := o.suspendAsked && !p } := by
  simp only [opProgress, ho]

theorem tfind_of_workingOp {s : State} {n : Nat} {o : LongOp} (h : workingOp s n = some o) : tfind s.ctl.ops n = some o :=
  (Option.filter_eq_some_iff.mp h).1

theorem noteWritten_eq {s : State} {n : Nat} {o : LongOp} (ho : tfind s.ctl.ops n = some o) (b : Nat) :
    noteWritten n b s = setOp s n { o with written := b } := by
  simp only [noteWritten, ho]

theorem tfind_setOp_same (s : State) (n : Nat) (o : LongOp) : tfind (setOp s n o).ctl.ops n = some o := tfind_tput_same _ _ _

/-! ### A walk that visits one record (R198, R199) -/

/-- The walk of slot n stands at stop, with the bytes that u has written noted with its operation. -/
def walkedTo (n stop : Nat) (p : Bool) (u : State) : State :=
  opProgress n stop p (setWalk n (stop, (walkAt u n).2) (noteWritten n (walkAt u n).2 u))

theorem walkedTo_eq {u : State} {n : Nat} {o : LongOp} (ho : tfind u.ctl.ops n = some o) (stop : Nat) (p : Bool) :
    walkedTo n stop p u = { u with
      flow := { u.flow with walks := tput u.flow.walks n (stop, (walkAt u n).2) }
      ctl := { u.ctl with ops := (walkedTo n stop p u).ctl.ops } } ∧
    tfind (walkedTo n stop p u).ctl.ops n =
      some { o with done := stop, suspendAsked := o.suspendAsked && !p, written := (walkAt u n).2 } := by
  have h : tfind (setWalk n (stop, (walkAt u n).2) (setOp u n { o with written := (walkAt u n).2 })).ctl.ops n =
      some { o with written := (walkAt u n).2 } := tfind_setOp_same ..
  unfold walkedTo
  rw [noteWritten_eq ho, opProgress_eq h]
  exact ⟨rfl, tfind_setOp_same ..⟩

theorem walkAt_walkedTo {u : State} {n : Nat} {o : LongOp} (ho : tfind u.ctl.ops n = some o) (stop : Nat) (p : Bool) :
    walkAt (walkedTo n stop p u) n = (stop, (walkAt u n).2) := by
  rw [(walkedTo_eq ho stop p).1]
  exact congrArg (Option.getD · (0, 0)) (tfind_tput_same _ _ _)

section
variable {s : State} {n cnt r : Nat} {o : LongOp} {m : FlowRec} (ho : workingOp s n = some o) (hf : flowHalted s = false)
  (hsus : o.suspendAsked = false)
include ho hf hsus

theorem flowWalk_one (hw : walksFlows o = true) (hrs : (s.flow.records.filter fun e => decide ((walkAt s n).1 ≤ e.1) &&
    decide (e.1 < min s.flow.nr ((walkAt s n).1 + cnt))).map (·.1) = [r]) : ∃ p, flowWalk n cnt s =
    match walkOne n o r s with
    | none => opFinish n 6 5 (noteWritten n (walkAt s n).2 s)
    | some u => walkedTo n (min s.flow.nr ((walkAt s n).1 + cnt)) p u := by
  refine ⟨min s.flow.nr ((walkAt s n).1 + cnt) % 65536 == 0 || min s.flow.nr ((walkAt s n).1 + cnt) == s.flow.nr, ?_⟩
  simp only [flowWalk, ho, hw, hf, hsus, Bool.not_true, Bool.false_eq_true, or_self, if_false, hrs, walkList]
  cases walkOne n o r s <;> rfl

end

theorem execFlowWalk_otherTable {s : State} {n : Nat} {o : LongOp} (ho : workingOp s n = some o) (hk : o.kind = 4)
    (ht : Config.opTable 4 o.params ≠ 0x10) (cnt : Nat) : exec (.flowWalk n cnt) s = .next s := by
  have hw : walksFlows o = false := by simp [walksFlows, hk, ht]
  change Host.Outcome.next (flowWalk n cnt s) = _
  simp only [flowWalk, ho, hw, Bool.not_false, true_or, if_true]

section
variable {s : State} {n r : Nat} {o : LongOp} {m : FlowRec} (hw : inWrites s r = none) (hg : recGone s r = false)
  (hm : mergedRec s r = some m) (hq : sliceReqs s (homeSlice s m.key) = []) (ha : tget [] s.flow.ageQ (homeSlice s m.key) = [])
include hw hg hm hq ha

theorem walkOne_idle : walkOne n o r s =
    if o.kind = 4 then if walkMatches s (Config.dumpBlock o.params).1 m then dumpOne n o m s else some s
    else if walkMatches s o.params m ∧ (!stPinned m.st ∨ (o.params.getD 98 0).toNat.testBit 1) then some (flowRemove r 4 s)
    else some s := by
  obtain ⟨x, hx, hk⟩ := mergedRec_spec hm
  have hfin : finishRecord r s = s := finishRecord_idle hw fun x' h => by
    rw [hx] at h; cases h; rw [← hk]; exact ⟨hq, ha⟩
  simp only [walkOne, hfin, hm, hg, Bool.false_eq_true, if_false]

/-- A flush's visit removes a flow that it matches unless it is pinned and not included (R199). -/
theorem walkOne_flush (hk : o.kind = 5) : ∃ u, walkOne n o r s = some u ∧
    (u = flowRemove r 4 s ∧ walkMatches s o.params m = true ∧ (stPinned m.st = false ∨ (o.params.getD 98 0).toNat.testBit 1 = true) ∨
      u = s ∧ ¬ (walkMatches s o.params m = true ∧ (stPinned m.st = false ∨ (o.params.getD 98 0).toNat.testBit 1 = true))) := by
  rw [walkOne_idle hw hg hm hq ha, if_neg (by rw [hk]; decide)]
  split
  next h => exact ⟨_, rfl, .inl ⟨rfl, h.1, by simpa using h.2⟩⟩
  next h => exact ⟨_, rfl, .inr ⟨rfl, fun h' => h ⟨h'.1, by simpa using h'.2⟩⟩⟩

end

/-! ### A dump writes a record (R198) -/

theorem hbmWriteUnit_frame (s : State) (a : Nat) (bs : Bytes) :
    hbmWriteUnit s a bs = { s with hbm := (hbmWriteUnit s a bs).hbm, cnt := (hbmWriteUnit s a bs).cnt } := by
  unfold hbmWriteUnit
  split
  · rfl
  · split
    · rw [count_eq]
    · rfl

theorem hbmWriteUnits_frame (k : Nat) (s : State) (a : Nat) (bs : Bytes) :
    hbmWriteUnits k s a bs = { s with hbm := (hbmWriteUnits k s a bs).hbm, cnt := (hbmWriteUnits k s a bs).cnt } := by
  induction k generalizing s a bs with
  | zero => rfl
  | succ k ih =>
    rw [hbmWriteUnits, ih, hbmWriteUnit_frame]

theorem hbmWrite_frame (s : State) (a : Nat) (bs : Bytes) :
    hbmWrite s a bs = { s with hbm := (hbmWrite s a bs).hbm, cnt := (hbmWrite s a bs).cnt } := hbmWriteUnits_frame ..

/-- The record written at the dump's destination. -/
def recordDumped (n : Nat) (o : LongOp) (m : FlowRec) (s : State) : State :=
  let b := Config.dumpBlock o.params
  if b.2.1 then hbmWrite s (b.2.2.1 + (walkAt s n).2) (recBytes m) else hostWrite s (b.2.2.1 + (walkAt s n).2) (recBytes m)

theorem recordDumped_frame (n : Nat) (o : LongOp) (m : FlowRec) (s : State) : recordDumped n o m s = { s with
    hbm := (recordDumped n o m s).hbm, cnt := (recordDumped n o m s).cnt, host := (recordDumped n o m s).host } := by
  unfold recordDumped
  dsimp only
  split
  · rw [hbmWrite_frame]
  · rfl

theorem dumpOne_full {n : Nat} {o : LongOp} {m : FlowRec} {s : State}
    (h : (Config.dumpBlock o.params).2.2.2 < (walkAt s n).2 + 128) : dumpOne n o m s = none := if_pos h

theorem dumpOne_room {n : Nat} {o : LongOp} {m : FlowRec} {s : State}
    (h : (walkAt s n).2 + 128 ≤ (Config.dumpBlock o.params).2.2.2) :
    dumpOne n o m s = some (setWalk n ((walkAt s n).1, (walkAt s n).2 + 128) (recordDumped n o m s)) :=
  if_neg (Nat.not_lt.mpr h)

/-- An operation that ends with what it has written noted keeps its bytes (R69). -/
theorem opFinish_noteWritten {s : State} {n : Nat} {o : LongOp} (ho : tfind s.ctl.ops n = some o) (hk : o.kind ≠ 10) (final result b : Nat) :
    (tfind (opFinish n final result (noteWritten n b s)).ctl.ops n).map (fun p => (p.state, p.result, p.written)) =
      some (final, result, b) := by
  have hp : opProgressed (noteWritten n b s) { o with written := b } = { o with written := b } := by
    simp [opProgressed, opAwaitsDrain, hk]
  rw [noteWritten_eq ho] at hp ⊢
  simp only [opFinish, tfind_setOp_same, hp]
  rw [raise_eq]
  show (tfind (tput _ n _) n).map _ = _
  rw [tfind_tput_same]
  rfl

theorem opFinish_noteWritten_frame {s : State} (n final result b : Nat) :
    (opFinish n final result (noteWritten n b s)).flow = s.flow ∧ (opFinish n final result (noteWritten n b s)).path = s.path := by
  have h : (noteWritten n b s).flow = s.flow ∧ (noteWritten n b s).path = s.path := by
    unfold noteWritten
    split <;> exact ⟨rfl, rfl⟩
  unfold opFinish
  split
  · exact h
  · rw [raise_eq]; exact h

end Sys2Proof.Machine
end

section
namespace Sys2Proof.Machine

/-! ### The walks' statement (R198, R199) -/

section
variable {s : State} {n cnt r : Nat} {o : LongOp} {m : FlowRec} (ho : workingOp s n = some o) (hf : flowHalted s = false)
  (hsus : o.suspendAsked = false) (hw : inWrites s r = none) (hg : recGone s r = false) (hm : mergedRec s r = some m)
  (hq : sliceReqs s (homeSlice s m.key) = []) (ha : tget [] s.flow.ageQ (homeSlice s m.key) = [])
  (hrs : (s.flow.records.filter fun e => decide ((walkAt s n).1 ≤ e.1) &&
    decide (e.1 < min s.flow.nr ((walkAt s n).1 + cnt))).map (·.1) = [r])
include ho hf hsus hw hg hm hq ha hrs

theorem flowWalk_flush (hk : o.kind = 5) (hs : tsorted s.flow.records = true) : let t := flowWalk n cnt s
    (walkAt t n).1 = min s.flow.nr ((walkAt s n).1 + cnt) ∧
    tfind t.ctl.ops n = some { o with
      done := min s.flow.nr ((walkAt s n).1 + cnt), suspendAsked := false, written := (walkAt s n).2 } ∧
    (flowRec t r = none ↔ (walkMatches s o.params m = true ∧
      (stPinned m.st = false ∨ (o.params.getD 98 0).toNat.testBit 1 = true))) ∧
    (∀ j, j ≠ r → flowRec t j = flowRec s j) ∧ t.path = s.path := by
  obtain ⟨x, hx, -⟩ := mergedRec_spec hm
  obtain ⟨p, hp⟩ := flowWalk_one ho hf hsus (by simp [walksFlows, hk]) hrs
  obtain ⟨u, hu, hcase⟩ := walkOne_flush (n := n) (o := o) hw hg hm hq ha hk
  rw [hu] at hp
  dsimp only at hp ⊢
  rw [hp]
  have hops : tfind u.ctl.ops n = some o ∧ walkAt u n = walkAt s n ∧ u.path = s.path := by
    rcases hcase with ⟨rfl, -⟩ | ⟨rfl, -⟩
    · have h := flowEnded_flowEnd hx 4 (mergedRec s r)
      rw [flowRemove, h.frame]
      exact ⟨tfind_of_workingOp ho, rfl, rfl⟩
    · exact ⟨tfind_of_workingOp ho, rfl, rfl⟩
  obtain ⟨hop, hwalk, hpath⟩ := hops
  obtain ⟨hframe, hop'⟩ := walkedTo_eq hop (min s.flow.nr ((walkAt s n).1 + cnt)) p
  have hrec : ∀ j, flowRec (walkedTo n (min s.flow.nr ((walkAt s n).1 + cnt)) p u) j = flowRec u j := fun j => by rw [hframe]; rfl
  refine ⟨by rw [walkAt_walkedTo hop], by rw [hop', hsus, hwalk]; rfl, ?_, fun j hj => ?_, ?_⟩
  · rw [hrec]
    rcases hcase with ⟨rfl, hc⟩ | ⟨rfl, hc⟩
    · obtain ⟨hgone, -⟩ := flowRemove_facts hx 4 hs
      exact ⟨fun _ => hc, fun _ => hgone⟩
    · rw [hx]
      exact ⟨(nomatch ·), fun h => absurd h hc⟩
  · rw [hrec]
    rcases hcase with ⟨rfl, -⟩ | ⟨rfl, -⟩
    · exact (flowRemove_facts hx 4 hs).2.1 j hj
    · rfl
  · rw [hframe]; exact hpath

section
variable (hk : o.kind = 4) (ht : Config.opTable 4 o.params = 0x10)
include hk ht

theorem flowWalk_dump : ∃ p, flowWalk n cnt s =
    match (if walkMatches s (Config.dumpBlock o.params).1 m then dumpOne n o m s else some s) with
    | none => opFinish n 6 5 (noteWritten n (walkAt s n).2 s)
    | some u => walkedTo n (min s.flow.nr ((walkAt s n).1 + cnt)) p u := by
  obtain ⟨p, hp⟩ := flowWalk_one ho hf hsus (by simp [walksFlows, hk, ht]) hrs
  rw [walkOne_idle hw hg hm hq ha, if_pos hk] at hp
  exact ⟨p, hp⟩

theorem flowWalk_dumpMiss (hmatch : walkMatches s (Config.dumpBlock o.params).1 m = false) : let t := flowWalk n cnt s
    t.host = s.host ∧ t.hbm = s.hbm ∧ walkAt t n = (min s.flow.nr ((walkAt s n).1 + cnt), (walkAt s n).2) ∧
      t.flow.records = s.flow.records ∧ t.path = s.path := by
  obtain ⟨p, hp⟩ := flowWalk_dump ho hf hsus hw hg hm hq ha hrs hk ht
  rw [hmatch] at hp
  simp only [Bool.false_eq_true, if_false] at hp
  dsimp only
  rw [hp]
  have hop := tfind_of_workingOp ho
  refine ⟨?_, ?_, walkAt_walkedTo hop _ p, ?_, ?_⟩ <;> rw [(walkedTo_eq hop _ p).1]

theorem flowWalk_dumpRoom (hmatch : walkMatches s (Config.dumpBlock o.params).1 m = true)
    (hroom : (walkAt s n).2 + 128 ≤ (Config.dumpBlock o.params).2.2.2) : let t := flowWalk n cnt s
    walkAt t n = (min s.flow.nr ((walkAt s n).1 + cnt), (walkAt s n).2 + 128) ∧
      (tfind t.ctl.ops n).map (·.written) = some ((walkAt s n).2 + 128) ∧
      t.host = (recordDumped n o m s).host ∧ t.hbm = (recordDumped n o m s).hbm ∧
      t.flow.records = s.flow.records ∧ t.path = s.path := by
  obtain ⟨p, hp⟩ := flowWalk_dump ho hf hsus hw hg hm hq ha hrs hk ht
  rw [if_pos hmatch, dumpOne_room hroom] at hp
  dsimp only at hp ⊢
  rw [hp]
  have hd := recordDumped_frame n o m s
  have hop : tfind (setWalk n ((walkAt s n).1, (walkAt s n).2 + 128) (recordDumped n o m s)).ctl.ops n = some o := by
    rw [hd]; exact tfind_of_workingOp ho
  have hwalk : walkAt (setWalk n ((walkAt s n).1, (walkAt s n).2 + 128) (recordDumped n o m s)) n =
      ((walkAt s n).1, (walkAt s n).2 + 128) := congrArg (Option.getD · (0, 0)) (tfind_tput_same _ _ _)
  obtain ⟨hframe, hop'⟩ := walkedTo_eq hop (min s.flow.nr ((walkAt s n).1 + cnt)) p
  refine ⟨?_, ?_, ?_, ?_, ?_, ?_⟩
  · rw [walkAt_walkedTo hop, hwalk]
  · rw [hop', hwalk]; rfl
  · rw [hframe]; rfl
  · rw [hframe]; rfl
  · rw [hframe]
    show (recordDumped n o m s).flow.records = _
    rw [hd]
  · rw [hframe]
    show (recordDumped n o m s).path = _
    rw [hd]

theorem flowWalk_dumpFull (hmatch : walkMatches s (Config.dumpBlock o.params).1 m = true)
    (hfull : (Config.dumpBlock o.params).2.2.2 < (walkAt s n).2 + 128) : let t := flowWalk n cnt s
    (tfind t.ctl.ops n).map (fun p => (p.state, p.result, p.written)) = some (6, 5, (walkAt s n).2) ∧
      t.flow.records = s.flow.records ∧ t.path = s.path := by
  obtain ⟨p, hp⟩ := flowWalk_dump ho hf hsus hw hg hm hq ha hrs hk ht
  rw [if_pos hmatch, dumpOne_full hfull] at hp
  dsimp only at hp ⊢
  rw [hp]
  obtain ⟨hflow, hpath⟩ := opFinish_noteWritten_frame (s := s) n 6 5 (walkAt s n).2
  exact ⟨opFinish_noteWritten (tfind_of_workingOp ho) (by rw [hk]; decide) 6 5 _, by rw [hflow], hpath⟩

end
end

end Sys2Proof.Machine
end

section
namespace Sys2Proof.Machine

/-! ### Tables filtered by their keys -/

theorem tfind_filter_key {α : Type} (q : Nat → Bool) (t : Tbl α) (a : Nat) :
    tfind (t.filter fun c => q c.1) a = if q a then tfind t a else none := by
  induction t with
  | nil => simp [tfind]
  | cons c t ih =>
    obtain ⟨k, v⟩ := c
    by_cases hk : k = a
    · subst hk
      cases hq : q k <;> simp [hq, tfind, ih]
    · cases hq : q k <;> simp [hq, tfind, ih, hk]

/-- Zeroing a region leaves every byte outside it. -/
theorem readByte_zeroRegion (base size : Nat) (s : State) (a : Nat) : readByte (zeroRegion base size s).hbm.mem a =
    if base ≤ a ∧ a < base + size then 0 else readByte s.hbm.mem a := by
  show tget 0 (s.hbm.mem.filter fun c => !(decide (base ≤ c.1) && decide (c.1 < base + size))) a = _
  rw [tget, tfind_filter_key (fun k => !(decide (base ≤ k) && decide (k < base + size)))]
  by_cases h : base ≤ a ∧ a < base + size
  · simp [h]
  · simp only [if_neg h, readByte, tget]
    rw [if_pos (by simp; omega)]

/-! ### A step of growth (R193) -/

/-- The state with a GB of records appended, before its progress is noted. -/
def recordsGrown (z : Resize) (s : State) : State :=
  let s1 := zeroRegion (z.base + partSize s 0) gb s
  let s2 := setHbm s1 { s1.hbm with sizes := tput s1.hbm.sizes 0 (partSize s 0 / gb + 1) }
  setFlow s2 { s2.flow with nr := s.flow.nr + 2 ^ 23 }

section
variable {s : State} {z : Resize} {o : LongOp} (hz : s.flow.resize = some z) (ho : workingOp s z.op = some o)
  (hf : flowHalted s = false) (hn : z.next < o.total)
include hz ho hf hn

theorem execResizeStep_grow (hp : z.part = 0) (hg : partSize s 0 < z.size * gb) :
    exec .resizeStep s = .next (resizeTo z (z.next + 2 ^ 23) true (recordsGrown z s)) := by
  have hgr : resizeGrows s z = true := by simpa [resizeGrows, hp] using hg
  change Host.Outcome.next (resizeStep s) = _
  simp only [resizeStep, hz, ho, hf, hp, hgr, Nat.not_le.mpr hn, Bool.false_eq_true, or_self, if_false, if_true]
  rfl

end

theorem resizeTo_eq {z : Resize} {u : State} {o : LongOp} (ho : tfind u.ctl.ops z.op = some o) (next : Nat) (p : Bool) :
    resizeTo z next p u = setOp (setFlow u { u.flow with resize := some { z with next := next } }) z.op
      { o with done := next, suspendAsked := o.suspendAsked && !p } :=
  opProgress_eq (s := setFlow u { u.flow with resize := some { z with next := next } }) ho next p

theorem partSize_multiple (s : State) (k : Nat) : partSize s k / gb * gb = partSize s k := by
  unfold partSize
  rw [Nat.mul_div_cancel _ (by decide)]

theorem resizeGrow_facts {s : State} {z : Resize} {o : LongOp} (ho : tfind s.ctl.ops z.op = some o) :
    let t := resizeTo z (z.next + 2 ^ 23) true (recordsGrown z s)
    partSize t 0 = partSize s 0 + gb ∧
    t.flow = { s.flow with nr := s.flow.nr + 2 ^ 23, resize := some { z with next := z.next + 2 ^ 23 } } ∧
    (tfind t.ctl.ops z.op).map (·.done) = some (z.next + 2 ^ 23) ∧
    (∀ a, (a < z.base + partSize s 0 ∨ z.base + partSize s 0 + gb ≤ a) → readByte t.hbm.mem a = readByte s.hbm.mem a) := by
  have ho' : tfind (recordsGrown z s).ctl.ops z.op = some o := ho
  dsimp only
  rw [resizeTo_eq ho']
  refine ⟨?_, rfl, by rw [tfind_setOp_same]; rfl, fun a ha => ?_⟩
  · show (tfind (tput s.hbm.sizes 0 (partSize s 0 / gb + 1)) 0).getD _ * gb = _
    rw [tfind_tput_same, Option.getD_some, Nat.add_mul, partSize_multiple, Nat.one_mul]
  · exact (readByte_zeroRegion (z.base + partSize s 0) gb s a).trans (if_neg (by omega))

/-! ### A step of shrinking that moves one record (R193) -/

/-- An index entry, a line, a candidate and an ageing request of record r as those of record q. -/
def slotMoved (r q : Nat) (v : BitVec 64) : BitVec 64 := if slValid v && slRec v == r then putBf v 31 3 q else v
def lineMoved (r q : Nat) (l : Line) : Line := if l.record = r then { l with record := q } else l
def candMoved (r q : Nat) (c : Nat) : Nat := if c / 2 = r then 2 * q + c % 2 else c

/-- Record r, an image x, at index q with all that names it. -/
def recordMoved (r q : Nat) (x : FlowRec) (s : State) : State :=
  let s2 := putRec q x s
  setFlow s2 { s2.flow with
    records := tdel s2.flow.records r
    index := s2.flow.index.map fun e => (e.1, slotMoved r q e.2)
    index2 := s2.flow.index2.map fun e => (e.1, slotMoved r q e.2)
    lines := s2.flow.lines.map fun e => (e.1, lineMoved r q e.2)
    wb := s2.flow.wb.map fun w => (w.1, w.2.map fun e => { e with line := lineMoved r q e.line })
    holds := s2.flow.holds.map fun h => (h.1, { h.2 with
      cands := h.2.cands.map (candMoved r q), record := if h.2.record = r then q else h.2.record })
    ageQ := s2.flow.ageQ.map fun w => (w.1, w.2.map fun e => if e.1 = r then (q, e.2) else e)
    nominated := s2.flow.nominated.map fun e => if e = r then q else e }

/-- A record moved, its old index freed and its write asked for. -/
def recordRelocated (r q : Nat) (x : FlowRec) (s : State) : State :=
  hbmRequest 3 (recAddr (recordMoved r q x s) q) 128 true (chainPush r (recordMoved r q x s))

theorem moveRecord_drawn {s s1 : State} {r q : Nat} {x : FlowRec} (hx : flowRec s r = some x)
    (hd : drawRecord (homeSlice s x.key) (drawFuel s) s = some (q, s1)) : moveRecord r s = some (recordRelocated r q x s1) := by
  simp only [moveRecord, hx, hd]
  rfl

theorem recordRelocated_flow (r q : Nat) (x : FlowRec) (s : State) :
    (recordRelocated r q x s).flow = (chainPush r (recordMoved r q x s)).flow := hbmRequest_flow ..

theorem recordRelocated_path (r q : Nat) (x : FlowRec) (s : State) : (recordRelocated r q x s).path = s.path := by
  unfold recordRelocated
  rw [hbmRequest_path]
  show (putRec q x s).path = s.path
  unfold putRec
  split
  · rw [count_eq]
  · rfl

theorem recordRelocated_ctl (r q : Nat) (x : FlowRec) (s : State) : (recordRelocated r q x s).ctl = s.ctl := by
  unfold recordRelocated
  rw [hbmRequest_eq]
  show (putRec q x s).ctl = s.ctl
  unfold putRec
  split
  · rw [count_eq]
  · rfl

theorem tget_chains_chainPush (r : Nat) (s : State) :
    tget [] (chainPush r s).flow.chains (r % 16) = r :: tget [] s.flow.chains (r % 16) :=
  tget_tset_ne_default (List.cons_ne_nil _ _) _ _

section
variable {s : State} {r q n : Nat} {rest : List Nat} {x : FlowRec} (hg : recGone s q = false)
include hg

theorem putRec_afterDraw : putRec q x (afterDraw n rest s) = setFlow (afterDraw n rest s) { (afterDraw n rest s).flow with
    records := tput s.flow.records q x } :=
  putRec_of_not_gone (((sameStore_afterDraw n rest s).recGone q).trans hg) x

/-- What a moved record leaves: the record at its new index alone, and all that named it names the new one (R193). -/
theorem recordRelocated_facts (hne : q ≠ r) (hs : tsorted s.flow.records = true) : let t := recordRelocated r q x (afterDraw n rest s)
    flowRec t q = some x ∧ flowRec t r = none ∧ (∀ j, j ≠ q → j ≠ r → flowRec t j = flowRec s j) ∧
    (∀ y, tget 0 t.flow.index y = slotMoved r q (tget 0 s.flow.index y)) ∧
    (∀ y l, lineAt s y = some l → lineAt t y = some (lineMoved r q l)) ∧
    tget [] t.flow.chains (r % 16) = r :: tget [] s.flow.chains (r % 16) := by
  have hput := putRec_afterDraw (x := x) (n := n) (rest := rest) hg
  have hflow := recordRelocated_flow r q x (afterDraw n rest s)
  have hrec : (chainPush r (recordMoved r q x (afterDraw n rest s))).flow.records = tdel (tput s.flow.records q x) r := by
    show tdel (putRec q x (afterDraw n rest s)).flow.records r = _
    rw [hput]; rfl
  have hsorted : tsorted (tput s.flow.records q x) = true := tsortedFrom_tput hs (Nat.zero_le q) x
  refine ⟨?_, ?_, fun j hq hr => ?_, fun y => ?_, fun y l hl => ?_, ?_⟩
  · rw [flowRec, hflow, hrec, tfind_tdel_other _ hne, tfind_tput_same]
  · rw [flowRec, hflow, hrec, tfind_tdel_same hsorted]
  · rw [flowRec, hflow, hrec, tfind_tdel_other _ hr, tfind_tput_other _ _ hq]
    rfl
  · rw [hflow]
    show tget 0 ((putRec q x (afterDraw n rest s)).flow.index.map fun e => (e.1, slotMoved r q e.2)) y = _
    rw [hput, tget, tfind_map_value]
    show ((tfind s.flow.index y).map _).getD 0 = slotMoved r q (tget 0 s.flow.index y)
    rw [tget]
    cases tfind s.flow.index y with
    | none => rfl
    | some v => rfl
  · rw [lineAt, hflow]
    show tfind ((putRec q x (afterDraw n rest s)).flow.lines.map fun e => (e.1, lineMoved r q e.2)) y = _
    rw [hput, tfind_map_value]
    show (tfind s.flow.lines y).map _ = _
    rw [show tfind s.flow.lines y = some l from hl]
    rfl
  · rw [hflow, tget_chains_chainPush]
    show r :: tget [] (putRec q x (afterDraw n rest s)).flow.chains (r % 16) = _
    rw [hput]
    rfl

end

theorem execResizeStep_move {s : State} {z : Resize} {o : LongOp} {r q : Nat} {rest : List Nat} {x : FlowRec}
    (hz : s.flow.resize = some z) (ho : workingOp s z.op = some o) (hf : flowHalted s = false) (hn : z.next < o.total)
    (hp : z.part = 0) (hsh : z.size * gb < partSize s 0) (hw : inWrites s r = none) (hx : flowRec s r = some x)
    (hrs : (s.flow.records.filter fun e => decide (z.size * 2 ^ 23 + z.next ≤ e.1) &&
      decide (e.1 < z.size * 2 ^ 23 + z.next + 65536)).map (·.1) = [r])
    (hd : tget [] s.flow.drawn (homeSlice s x.key) = q :: rest) (hq : q < drawLimit s) (hg : recGone s q = false)
    (hreq : sliceReqs s (homeSlice s x.key) = []) (hage : tget [] s.flow.ageQ (homeSlice s x.key) = []) :
    exec .resizeStep s = .next (resizeTo z (z.next + 65536) true (recordRelocated r q x (afterDraw (homeSlice s x.key) rest s))) := by
  have hgr : resizeGrows s z = false := by simpa [resizeGrows, hp] using Nat.le_of_lt hsh
  have hshr : resizeShrinks s z = true := by simpa [resizeShrinks, hp] using hsh
  have hfin : finishRecord r s = s := finishRecord_idle hw fun x' h => by rw [hx] at h; cases h; exact ⟨hreq, hage⟩
  have hdraw : drawRecord (homeSlice s x.key) (drawFuel s) s = some (q, afterDraw (homeSlice s x.key) rest s) :=
    drawRecord_first hd hq hg
  change Host.Outcome.next (resizeStep s) = _
  simp only [resizeStep, hz, ho, hf, hp, hgr, hshr, Nat.not_le.mpr hn, Bool.false_eq_true, or_self, if_false, if_true, hrs, moveList,
    hfin, moveRecord_drawn hx hdraw]

end Sys2Proof.Machine
end

section
namespace Sys2Proof.Machine

/-! ### A MB of a region moves (R346) -/

/-- Storing nonzero bytes at distinct places leaves each at its place and every other place as it was. -/
theorem readByte_foldl_writeByte (f : Nat → Nat) (cells : List Host.Cell) (m : List Host.Cell)
    (hne : ∀ c ∈ cells, c.2 ≠ 0) (hn : (cells.map fun c => f c.1).Nodup) :
    let t := cells.foldl (fun m c => writeByte m (f c.1) c.2) m
    (∀ c ∈ cells, readByte t (f c.1) = c.2) ∧ ∀ a, a ∉ cells.map (fun c => f c.1) → readByte t a = readByte m a := by
  induction cells generalizing m with
  | nil => exact ⟨fun c hc => absurd hc List.not_mem_nil, fun a _ => rfl⟩
  | cons c cells ih =>
    rw [List.map_cons, List.nodup_cons] at hn
    obtain ⟨hin, hout⟩ := ih (writeByte m (f c.1) c.2) (fun d hd => hne d (List.mem_cons_of_mem _ hd)) hn.2
    refine ⟨fun d hd => ?_, fun a ha => ?_⟩
    · rcases List.mem_cons.mp hd with rfl | hd
      · exact (hout _ hn.1).trans (tget_tset_ne_default (hne _ (List.mem_cons_self ..)) m _)
      · exact hin d hd
    · rw [List.map_cons, List.mem_cons, not_or] at ha
      exact (hout a ha.2).trans (tget_tset_other m c.2 ha.1)

/-- The bytes of a MB that move: those on pseudo-channels in service. -/
def mbCells (src : Nat) (s : State) : List Host.Cell :=
  s.hbm.mem.filter fun c => decide (src ≤ c.1) && decide (c.1 < src + 2 ^ 20) && !pcRetired s (pcOf s c.1)

/-- Both MBs zeroed. -/
def mbZeroed (src dst : Nat) (s : State) : State := zeroRegion dst (2 ^ 20) (zeroRegion src (2 ^ 20) s)

theorem moveMb_mem (src dst : Nat) (s : State) : (moveMb src dst s).hbm.mem =
    (mbCells src s).foldl (fun m c => writeByte m (c.1 - src + dst) c.2) (mbZeroed src dst s).hbm.mem := rfl

theorem moveMb_eq (src dst : Nat) (s : State) : moveMb src dst s = { s with hbm := (moveMb src dst s).hbm } := rfl

theorem readByte_mbZeroed (src dst : Nat) (s : State) (a : Nat) : readByte (mbZeroed src dst s).hbm.mem a =
    if dst ≤ a ∧ a < dst + 2 ^ 20 then 0 else if src ≤ a ∧ a < src + 2 ^ 20 then 0 else readByte s.hbm.mem a := by
  rw [mbZeroed, readByte_zeroRegion, readByte_zeroRegion]

section
variable {s : State} {src dst : Nat} (hwf : Memory.wf s.hbm.mem = true) (hpc : ∀ i, pcRetired s i = false)
include hwf hpc

theorem mem_mbCells {c : Host.Cell} : c ∈ mbCells src s ↔ tfind s.hbm.mem c.1 = some c.2 ∧ src ≤ c.1 ∧ c.1 < src + 2 ^ 20 := by
  have hs : tsorted s.hbm.mem = true := (Bool.and_eq_true_iff.mp hwf).1
  simp only [mbCells, List.mem_filter, hpc, Bool.not_false, Bool.and_true, Bool.and_eq_true, decide_eq_true_eq]
  exact ⟨fun h => ⟨tfind_eq_some_of_mem hs h.1, h.2⟩, fun h => ⟨mem_of_tfind_eq_some h.1, h.2⟩⟩

theorem mbCells_spec : (∀ c ∈ mbCells src s, c.2 ≠ 0) ∧ ((mbCells src s).map fun c => c.1 - src + dst).Nodup := by
  obtain ⟨hs, hall⟩ := Bool.and_eq_true_iff.mp hwf
  refine ⟨fun c hc => ?_, ?_⟩
  · have hm : c ∈ s.hbm.mem := (List.mem_filter.mp hc).1
    simpa using List.all_eq_true.mp hall c hm
  · have hpw : (mbCells src s).Pairwise fun a b => a.1 < b.1 :=
      List.Pairwise.sublist List.filter_sublist (List.pairwise_map.mp (pairwise_of_tsortedFrom hs))
    refine List.pairwise_map.mpr (hpw.imp_of_mem fun {a b} ha hb hlt => ?_)
    have ha' := (mem_mbCells hwf hpc).mp ha
    have hb' := (mem_mbCells hwf hpc).mp hb
    omega

/-- The MB's bytes stand at their new places, none at the old ones, and every other byte as it was. -/
theorem readByte_moveMb (hap : src + 2 ^ 20 ≤ dst ∨ dst + 2 ^ 20 ≤ src) : let t := moveMb src dst s
    (∀ k, k < 2 ^ 20 → readByte t.hbm.mem (dst + k) = readByte s.hbm.mem (src + k) ∧ readByte t.hbm.mem (src + k) = 0) ∧
    (∀ a, (a < src ∨ src + 2 ^ 20 ≤ a) → (a < dst ∨ dst + 2 ^ 20 ≤ a) → readByte t.hbm.mem a = readByte s.hbm.mem a) := by
  obtain ⟨hne, hn⟩ := mbCells_spec (dst := dst) (src := src) hwf hpc
  obtain ⟨hin, hout⟩ := readByte_foldl_writeByte (fun k => k - src + dst) (mbCells src s) (mbZeroed src dst s).hbm.mem hne hn
  have himg : ∀ a, a ∈ (mbCells src s).map (fun c => c.1 - src + dst) →
      dst ≤ a ∧ a < dst + 2 ^ 20 ∧ ∃ v, tfind s.hbm.mem (src + (a - dst)) = some v := fun a ha => by
    obtain ⟨c, hc, rfl⟩ := List.mem_map.mp ha
    obtain ⟨hf, h1, h2⟩ := (mem_mbCells hwf hpc).mp hc
    refine ⟨by omega, by omega, c.2, ?_⟩
    rw [← hf]; congr 1; omega
  dsimp only
  rw [moveMb_mem]
  refine ⟨fun k hk => ⟨?_, ?_⟩, fun a h1 h2 => ?_⟩
  · cases hf : tfind s.hbm.mem (src + k) with
    | some v =>
      have h := hin (src + k, v) ((mem_mbCells hwf hpc).mpr ⟨hf, by omega, by omega⟩)
      dsimp only at h
      rw [show src + k - src + dst = dst + k by omega] at h
      rw [h, readByte, tget, hf]; rfl
    | none =>
      rw [hout _ fun hm => ?_, readByte_mbZeroed, if_pos ⟨by omega, by omega⟩, readByte, tget, hf]
      · rfl
      · obtain ⟨-, -, v, hv⟩ := himg _ hm
        rw [Nat.add_sub_cancel_left, hf] at hv
        cases hv
  · rw [hout _ fun hm => ?_, readByte_mbZeroed]
    · split
      · rfl
      · rw [if_pos ⟨by omega, by omega⟩]
    · obtain ⟨h3, h4, -⟩ := himg _ hm
      omega
  · rw [hout _ fun hm => ?_, readByte_mbZeroed, if_neg (by omega), if_neg (by omega)]
    obtain ⟨h3, h4, -⟩ := himg _ hm
    omega

end

theorem execResizeStep_mb {s : State} {z : Resize} {o : LongOp} (hz : s.flow.resize = some z) (ho : workingOp s z.op = some o)
    (hf : flowHalted s = false) (hn : z.next < o.total) (h2 : 2 ≤ z.part) (h4 : z.part ≤ 4) : ∃ p, exec .resizeStep s =
    .next (resizeTo z (z.next + 1) p (moveMb (partBase s z.part + z.next * 2 ^ 20) (z.base + z.next * 2 ^ 20) s)) := by
  refine ⟨(z.next + 1) % 1024 == 0, ?_⟩
  have h0 : z.part ≠ 0 := by omega
  have h5 : z.part ≠ 5 := by omega
  change Host.Outcome.next (resizeStep s) = _
  simp only [resizeStep, hz, ho, hf, h0, h5, Nat.not_le.mpr hn, Bool.false_eq_true, or_self, false_and, if_false]

end Sys2Proof.Machine
end

section
namespace Sys2Proof.Machine

/-! ### What writing lines back leaves alone (R156 to R159) -/

/-- t differs from s in records, in what the slices hold of lines and fetches, and outside the flow engine in the HBM and
counters alone. -/
def Flushed (s t : State) : Prop := t = { s with
  flow := { s.flow with
    records := t.flow.records, lines := t.flow.lines, lru := t.flow.lru, wb := t.flow.wb, holds := t.flow.holds
    foldWait := t.flow.foldWait }
  hbm := t.hbm, cnt := t.cnt }

theorem Flushed.refl (s : State) : Flushed s s := rfl
theorem Flushed.trans {s t u : State} (h : Flushed s t) (h' : Flushed t u) : Flushed s u := by
  unfold Flushed at *; rw [h', h]
theorem OnlyLines.flushed {s t : State} (h : OnlyLines s t) : Flushed s t := by rw [h]; rfl
theorem flushed_count (i n u : Nat) (s : State) : Flushed s (count i n u s) := (onlyLines_count i n u s).flushed
theorem flushed_hbmRequest (cls a len : Nat) (w : Bool) (s : State) : Flushed s (hbmRequest cls a len w s) := by
  rw [hbmRequest_eq]; rfl

theorem flushed_foldl {α : Type} {f : State → α → State} (h : ∀ t a, Flushed t (f t a)) (l : List α) (s : State) :
    Flushed s (l.foldl f s) := by
  induction l generalizing s with
  | nil => exact .refl s
  | cons a l ih => exact (h s a).trans (ih _)

/-- t differs from s in records for which P holds, and outside the flow engine in the HBM and counters alone. -/
structure RecordsWritten (P : Nat → Prop) (s t : State) : Prop where
  frame : t = { s with flow := { s.flow with records := t.flow.records }, hbm := t.hbm, cnt := t.cnt }
  others : ∀ j, ¬ P j → flowRec t j = flowRec s j

theorem RecordsWritten.refl (P : Nat → Prop) (s : State) : RecordsWritten P s s := ⟨rfl, fun _ _ => rfl⟩
theorem RecordsWritten.trans {P : Nat → Prop} {s t u : State} (h : RecordsWritten P s t) (h' : RecordsWritten P t u) :
    RecordsWritten P s u := ⟨by rw [h'.frame, h.frame], fun j hj => (h'.others j hj).trans (h.others j hj)⟩
theorem RecordsWritten.flushed {P : Nat → Prop} {s t : State} (h : RecordsWritten P s t) : Flushed s t := by rw [h.frame]; rfl

theorem recordsWritten_of_flow {P : Nat → Prop} {s t : State} (h : t = { s with hbm := t.hbm, cnt := t.cnt }) :
    RecordsWritten P s t := ⟨by rw [h], fun j _ => by rw [h]; rfl⟩

theorem recordsWritten_count (P : Nat → Prop) (i n u : Nat) (s : State) : RecordsWritten P s (count i n u s) :=
  recordsWritten_of_flow (by rw [count_eq])

theorem recordsWritten_hbmRequest (P : Nat → Prop) (cls a len : Nat) (w : Bool) (s : State) :
    RecordsWritten P s (hbmRequest cls a len w s) := recordsWritten_of_flow (hbmRequest_eq ..)

theorem recordsWritten_putRec (r : Nat) (x : FlowRec) (s : State) : RecordsWritten (· = r) s (putRec r x s) := by
  unfold putRec
  split
  · exact recordsWritten_count ..
  · exact ⟨rfl, fun j hj => tfind_tput_other _ _ hj⟩

theorem recordsWritten_writeback (n : Nat) (l : Line) (s : State) : RecordsWritten (· = l.record) s (writeback n l s) := by
  unfold writeback
  split
  · exact .refl _ s
  · dsimp only
    exact (((recordsWritten_hbmRequest ..).trans (recordsWritten_hbmRequest ..)).trans (recordsWritten_count ..)).trans
      (recordsWritten_putRec ..)

theorem flushed_issueReads (r : Nat) (s : State) : Flushed s (issueReads r s) := by
  unfold issueReads
  split
  · exact .refl s
  · refine flushed_foldl (fun t e => ?_) _ s
    exact Flushed.trans (t := setFlow t { t.flow with holds := tput t.flow.holds e.1 { e.2 with readWaits := false } }) rfl
      (flushed_hbmRequest ..)

theorem flushed_wbOut (n : Nat) (e : WbEntry) (s : State) : Flushed s (wbOut n e s) := by
  unfold wbOut
  exact (Flushed.trans (t := setWb s n ((wbOf s n).erase e)) rfl (recordsWritten_writeback ..).flushed).trans (flushed_issueReads ..)

theorem flushed_wbPush (n : Nat) (e : WbEntry) (s : State) : Flushed s (wbPush n e s) := by
  unfold wbPush
  dsimp only
  refine Flushed.trans ?_ (onlyLines_setWb ..).flushed
  split
  · refine (flushed_count 0x4020 n 9 s).trans ?_
    cases (wbNext s n).or (wbOf s n).head? with
    | some o => exact flushed_wbOut ..
    | none => exact .refl _
  · exact .refl s

theorem flushed_foldLine (n x : Nat) (s : State) : Flushed s (foldLine n x s) := by
  unfold foldLine
  split
  · exact .refl s
  · exact ((flushed_count ..).trans (flushed_wbPush ..)).trans (onlyLines_setLine ..).flushed

theorem flushed_evict (n x : Nat) (s : State) : Flushed s (evict n x s) := by
  unfold evict
  split
  · exact .refl s
  · dsimp only
    have h := (flushed_count 0x4020 n 6 s).trans (onlyLines_dropLine x _).flushed
    split
    · exact h.trans (flushed_wbPush ..)
    · exact h

theorem flushed_foldEvict (x : Nat) (s : State) : Flushed s (foldEvict x s) := by
  unfold foldEvict
  dsimp only
  refine Flushed.trans ?_ (flushed_evict ..)
  split
  · exact flushed_foldLine ..
  · exact .refl s

theorem flushed_evictLines (gone : Nat → Line → Bool) (s : State) : Flushed s (evictLines gone s) :=
  flushed_foldl (fun t (r : Nat × Line) => flushed_foldEvict r.1 t) _ s

theorem flushed_foldsGoOn (n : Nat) (s : State) : Flushed s (foldsGoOn n s) := by
  unfold foldsGoOn
  refine flushed_foldl (fun t x => ?_) _ s
  dsimp only
  split
  · exact .refl t
  · split
    · exact Flushed.trans (t := foldTaken n x t) rfl (flushed_foldLine ..)
    · rfl

/-! ### A flush in its stages -/

/-- The buffered lines of a test written back. -/
def buffersWritten (gone : Nat → Line → Bool) (s : State) : State :=
  s.flow.wb.foldl (fun t w => w.2.foldl (fun u e => if gone (131072 * w.1) e.line then writeback w.1 e.line u else u) t) s

/-- The buffered lines of a test gone from the buffers. -/
def buffersDropped (gone : Nat → Line → Bool) (s : State) : State := setFlow s { s.flow with
  wb := (s.flow.wb.map fun w => (w.1, w.2.filter fun e => !gone (131072 * w.1) e.line)).filter fun w => !w.2.isEmpty }

/-- A line written back, when it is a dirty primary line, and dropped. -/
def lineFlushed (t : State) (r : Nat × Line) : State :=
  dropLine r.1 (if r.2.dirty && !r.2.link then writeback (r.1 / 131072) r.2 t else t)

/-- The lines of a test written back and dropped. -/
def linesFlushed (gone : Nat → Line → Bool) (s : State) : State :=
  (s.flow.lines.filter fun r => gone r.1 r.2).foldl lineFlushed s

theorem flushLines_eq (gone : Nat → Line → Bool) (s : State) : flushLines gone s =
    (List.range 16).foldl (fun t n => foldsGoOn n t) (((s.flow.wb.flatMap fun w => w.2.map (·.line.record)).eraseDups).foldl
      (fun t r => issueReads r t) (linesFlushed gone (buffersDropped gone (buffersWritten gone s)))) := rfl

theorem recordsWritten_foldl {α : Type} {P : Nat → Prop} {f : State → α → State} (l : List α)
    (h : ∀ a ∈ l, ∀ t, RecordsWritten P t (f t a)) (s : State) : RecordsWritten P s (l.foldl f s) := by
  induction l generalizing s with
  | nil => exact .refl P s
  | cons a l ih => exact (h a (List.mem_cons_self ..) s).trans (ih (fun b hb => h b (List.mem_cons_of_mem _ hb)) _)

theorem flushed_buffersWritten (gone : Nat → Line → Bool) (s : State) : Flushed s (buffersWritten gone s) := by
  refine flushed_foldl (fun t (w : Nat × List WbEntry) => flushed_foldl (fun u e => ?_) w.2 t) _ s
  split
  · exact (recordsWritten_writeback ..).flushed
  · exact .refl u

theorem flushed_lineFlushed (t : State) (r : Nat × Line) : Flushed t (lineFlushed t r) := by
  unfold lineFlushed
  refine Flushed.trans ?_ (onlyLines_dropLine ..).flushed
  split
  · exact (recordsWritten_writeback ..).flushed
  · exact .refl t

theorem flushed_flushLines (gone : Nat → Line → Bool) (s : State) : Flushed s (flushLines gone s) := by
  rw [flushLines_eq]
  refine Flushed.trans ?_ (flushed_foldl (fun t n => flushed_foldsGoOn n t) _ _)
  refine Flushed.trans ?_ (flushed_foldl (fun t r => flushed_issueReads r t) _ _)
  refine Flushed.trans ?_ (flushed_foldl flushed_lineFlushed _ _)
  exact Flushed.trans (t := buffersWritten gone s) (flushed_buffersWritten gone s) rfl

/-! ### The changeover's end (R189, R191) -/

/-- t differs from s in its control slots alone. -/
def OnlySlots (s t : State) : Prop :=
  t = { s with ctl := { s.ctl with active := t.ctl.active, staged := t.ctl.staged, previous := t.ctl.previous } }

theorem OnlySlots.trans {s t u : State} (h : OnlySlots s t) (h' : OnlySlots t u) : OnlySlots s u := by
  unfold OnlySlots at *; rw [h', h]

theorem onlySlots_setThree (a : Nat) (v : Bytes) (s : State) : OnlySlots s (setThree a v s) := rfl

theorem cfgB_setThree {a b : Nat} (v : Bytes) (hb : oaIndex b ≠ 0x1020) (s : State) :
    cfgB (setThree a v s) b = if b = a then v else cfgB s b := by
  have h : (setThree a v s).ctl.active.objs = tput s.ctl.active.objs a v := rfl
  simp only [cfgB, if_neg hb, h]
  by_cases hba : b = a
  · subst hba
    rw [tfind_tput_same, if_pos rfl]
    rfl
  · rw [tfind_tput_other _ _ hba, if_neg hba]
    rfl

/-- The five seeds of a REHASH written as configured. -/
def seedsWritten (r : Rehash) (s : State) : State :=
  [1, 2, 3, 4, 5].foldl (fun t i => setThree (oa 0x4000 i 0) (leBytes 4 (r.seeds.getD (i - 1) 0)) t) s

theorem onlySlots_seedsWritten (r : Rehash) (s : State) : OnlySlots s (seedsWritten r s) :=
  ((((onlySlots_setThree ..).trans (onlySlots_setThree ..)).trans (onlySlots_setThree ..)).trans (onlySlots_setThree ..)).trans
    (onlySlots_setThree ..)

theorem cfgN_seedsWritten (r : Rehash) (s : State) (v : Bytes) {i : Nat} (hi : i ∈ [1, 2, 3, 4, 5]) :
    cfgN (setThree (oa 0x6000 1 0) v (seedsWritten r s)) 0x4000 i 0 = r.seeds.getD (i - 1) 0 % 2 ^ 32 := by
  have h : cfgB (setThree (oa 0x6000 1 0) v (seedsWritten r s)) (oa 0x4000 i 0) = leBytes 4 (r.seeds.getD (i - 1) 0) := by
    simp only [List.mem_cons, List.not_mem_nil, or_false] at hi
    unfold seedsWritten
    simp only [List.foldl_cons, List.foldl_nil]
    rcases hi with rfl | rfl | rfl | rfl | rfl <;> simp (disch := decide) only [cfgB_setThree] <;> rfl
  have hlt : i < 4096 := by
    simp only [List.mem_cons, List.not_mem_nil, or_false] at hi
    omega
  rw [cfgN, if_pos hlt, h, leNat_leBytes]
  rfl

/-- The lines of the old seeds folded, evicted and written back. -/
def oldLinesFlushed (s : State) : State :=
  let s0 := evictLines (fun x l => !lineCurrent s x l) s
  flushLines (fun x l => !(lineAt s0 x == some l) && !buffered s l) s0

theorem flushed_oldLinesFlushed (s : State) : Flushed s (oldLinesFlushed s) := by
  unfold oldLinesFlushed
  dsimp only
  have h := flushed_evictLines (fun x l => !lineCurrent s x l) s
  generalize evictLines (fun x l => !lineCurrent s x l) s = s0 at h ⊢
  exact h.trans (flushed_flushLines _ s0)

/-- The new layout's place in force and the changeover over, before the slots are written. -/
def layoutPlaced (r : Rehash) (u : State) : State :=
  let s2 := setFlow u { u.flow with rehash := none, surrender := [] }
  setHbm s2 { s2.hbm with
    bases := tput s2.hbm.bases 1 r.region
    layouts := if r.lay.isEmpty then tdel s2.hbm.layouts 1 else tput s2.hbm.layouts 1 r.lay }

theorem changeoverEnd_eq (r : Rehash) (s : State) : changeoverEnd r s =
    setThree (oa 0x6000 1 0) (leBytes 2 (r.nb * 64 / gb)) (seedsWritten r (layoutPlaced r (oldLinesFlushed s))) := by
  unfold changeoverEnd oldLinesFlushed
  dsimp only
  generalize flushLines _ (evictLines (fun x l => !lineCurrent s x l) s) = u
  rfl

theorem onlySlots_changeoverEnd (r : Rehash) (s : State) :
    OnlySlots (layoutPlaced r (oldLinesFlushed s)) (changeoverEnd r s) := by
  rw [changeoverEnd_eq]
  exact (onlySlots_seedsWritten r _).trans (onlySlots_setThree ..)

theorem partBase_layoutPlaced (r : Rehash) (u : State) : partBase (layoutPlaced r u) 1 = r.region := by
  show (tfind (tput u.hbm.bases 1 r.region) 1).getD _ = _
  rw [tfind_tput_same]
  rfl

/-- The end of an operation touches its slot, counters and the host interface alone. -/
theorem opFinish_frame (n final result : Nat) (s : State) : opFinish n final result s = { s with
    ctl := { s.ctl with ops := (opFinish n final result s).ctl.ops, opFinished := (opFinish n final result s).ctl.opFinished }
    cnt := (opFinish n final result s).cnt, host := (opFinish n final result s).host } := by
  unfold opFinish
  split
  · rfl
  · rw [raise_eq]; rfl

theorem execRehashChangeoverEnd_done {s : State} {r : Rehash} (hr : s.flow.rehash = some r) (hp : r.phase = 2)
    (hf : flowHalted s = false) (hs : s.flow.surrender = []) : exec .rehashChangeoverEnd s =
    .next (opFinish r.op 5 0 (raise 0x050A [r.op, (raw s - r.since) / 800000] (changeoverEnd r s))) := by
  change execRehashChangeoverEnd s = _
  simp only [execRehashChangeoverEnd, hr, hp, hf, hs, ne_eq, not_true_eq_false, Bool.false_eq_true, List.isEmpty_nil, Bool.not_true,
    or_self, if_false]

/-- What an operation's end with a report before it leaves. -/
theorem opFinish_raise_facts {z : State} {n : Nat} {o : LongOp} (ho : tfind z.ctl.ops n = some o) (final result code : Nat)
    (ps : List Nat) : let t := opFinish n final result (raise code ps z)
    t.flow = z.flow ∧ t.hbm = z.hbm ∧ t.path = z.path ∧ SameConfig z t ∧
      (tfind t.ctl.ops n).map (fun p => (p.state, p.result)) = some (final, result) := by
  have hquiet := quiet_raise code ps z false
  generalize raise code ps z = y at hquiet
  have ho' : tfind y.ctl.ops n = some o := by rw [hquiet.ctl]; exact ho
  obtain ⟨⟨u, hu, hst, hres⟩, -⟩ := opFinish_spec ho' final result
  have hfin := opFinish_frame n final result y
  dsimp only
  refine ⟨?_, ?_, ?_, ⟨?_, ?_, ?_⟩, by rw [hu, Option.map_some, hst, hres]⟩ <;> rw [hfin, hquiet]

/-- What the changeover's end leaves in force. -/
theorem changeoverEnd_facts {s : State} {r : Rehash} {o : LongOp} (ho : tfind s.ctl.ops r.op = some o) (ps : List Nat) :
    let t := opFinish r.op 5 0 (raise 0x050A ps (changeoverEnd r s))
    t.flow.rehash = none ∧ partBase t 1 = r.region ∧
      (∀ i ∈ [1, 2, 3, 4, 5], cfgN t 0x4000 i 0 = r.seeds.getD (i - 1) 0 % 2 ^ 32) ∧ t.flow.index = s.flow.index ∧
      (tfind t.ctl.ops r.op).map (fun p => (p.state, p.result)) = some (5, 0) ∧ t.path = s.path := by
  have hflush := flushed_oldLinesFlushed s
  have hslots := onlySlots_changeoverEnd r s
  have hseeds := fun i hi => cfgN_seedsWritten r (layoutPlaced r (oldLinesFlushed s)) (leBytes 2 (r.nb * 64 / gb)) (i := i) hi
  have hbase := partBase_layoutPlaced r (oldLinesFlushed s)
  rw [← changeoverEnd_eq] at hseeds
  generalize changeoverEnd r s = z at hslots hseeds
  generalize oldLinesFlushed s = u at hflush hslots hbase
  have hops : tfind z.ctl.ops r.op = some o := by
    rw [hslots]
    show tfind u.ctl.ops r.op = some o
    rw [hflush]; exact ho
  obtain ⟨hflow, hhbm, hpath, hconfig, hop⟩ := opFinish_raise_facts hops 5 0 0x050A ps
  have hzhbm : z.hbm = (layoutPlaced r u).hbm := by rw [hslots]
  dsimp only
  refine ⟨?_, ?_, fun i hi => (hconfig.cfgN ..).trans (hseeds i hi), ?_, hop, ?_⟩
  · rw [hflow, hslots]; rfl
  · rw [partBase, hhbm, hzhbm]; exact hbase
  · rw [hflow, hslots]
    show u.flow.index = _
    rw [hflush]
  · rw [hpath, hslots]
    show u.path = _
    rw [hflush]

end Sys2Proof.Machine
end

section
namespace Sys2Proof.Machine

/-! ### A record's lines surrendered (R191) -/

/-- Nothing of the flow engine waits for a writeback: no read and no periodic fold. -/
def NoWaits (s : State) : Prop := (∀ j, tget [] s.flow.foldWait j = []) ∧ ∀ e ∈ s.flow.holds, e.2.readWaits = false

theorem foldl_eq_self {α β : Type} {f : β → α → β} {b : β} (h : ∀ a, f b a = b) (l : List α) : l.foldl f b = b := by
  induction l with
  | nil => rfl
  | cons a l ih => rw [List.foldl_cons, h, ih]

/-- t differs from s in records for which P holds, in lines, and outside the flow engine in the HBM and counters alone. -/
structure LinesWritten (P : Nat → Prop) (s t : State) : Prop where
  frame : t = { s with
    flow := { s.flow with records := t.flow.records, lines := t.flow.lines }, hbm := t.hbm, cnt := t.cnt }
  others : ∀ j, ¬ P j → flowRec t j = flowRec s j

theorem LinesWritten.refl (P : Nat → Prop) (s : State) : LinesWritten P s s := ⟨rfl, fun _ _ => rfl⟩
theorem LinesWritten.trans {P : Nat → Prop} {s t u : State} (h : LinesWritten P s t) (h' : LinesWritten P t u) :
    LinesWritten P s u := ⟨by rw [h'.frame, h.frame], fun j hj => (h'.others j hj).trans (h.others j hj)⟩
theorem RecordsWritten.linesWritten {P : Nat → Prop} {s t : State} (h : RecordsWritten P s t) : LinesWritten P s t :=
  ⟨by rw [h.frame], h.others⟩
theorem linesWritten_dropLine (P : Nat → Prop) (x : Nat) (s : State) : LinesWritten P s (dropLine x s) := ⟨rfl, fun _ _ => rfl⟩

theorem lineFlushed_spec (t : State) (r : Nat × Line) : LinesWritten (· = r.2.record) t (lineFlushed t r) ∧
    (lineFlushed t r).flow.lines = tdel t.flow.lines r.1 := by
  unfold lineFlushed
  have h : RecordsWritten (· = r.2.record) t (if r.2.dirty && !r.2.link then writeback (r.1 / 131072) r.2 t else t) := by
    split
    · exact recordsWritten_writeback ..
    · exact .refl _ t
  generalize (if r.2.dirty && !r.2.link then writeback (r.1 / 131072) r.2 t else t) = u at h
  refine ⟨h.linesWritten.trans (linesWritten_dropLine ..), ?_⟩
  show tdel u.flow.lines r.1 = _
  rw [h.frame]

theorem foldl_lineFlushed {r : Nat} (l : List (Nat × Line)) (hl : ∀ e ∈ l, e.2.record = r) (s : State) :
    LinesWritten (· = r) s (l.foldl lineFlushed s) ∧
      (l.foldl lineFlushed s).flow.lines = (l.map (·.1)).foldl tdel s.flow.lines := by
  induction l generalizing s with
  | nil => exact ⟨.refl _ s, rfl⟩
  | cons e l ih =>
    obtain ⟨h1, hl1⟩ := lineFlushed_spec s e
    rw [hl e (List.mem_cons_self ..)] at h1
    obtain ⟨h2, hl2⟩ := ih (fun d hd => hl d (List.mem_cons_of_mem _ hd)) (lineFlushed s e)
    exact ⟨h1.trans h2, by rw [List.foldl_cons, hl2, hl1, List.map_cons, List.foldl_cons]⟩

/-- The test of a record's lines. -/
def ofRecord (r : Nat) : Nat → Line → Bool := fun _ l => l.record == r

theorem recordsWritten_buffersWritten (r : Nat) (s : State) :
    RecordsWritten (· = r) s (buffersWritten (ofRecord r) s) := by
  refine recordsWritten_foldl _ (fun w _ t => recordsWritten_foldl _ (fun e _ u => ?_) t) s
  split
  next h =>
    have he : e.line.record = r := by simpa [ofRecord] using h
    exact he ▸ recordsWritten_writeback ..
  · exact .refl _ u

/-- What a flush of a record leaves when nothing waits for a writeback (R191). -/
structure RecordFlushed (s : State) (r : Nat) (t : State) : Prop where
  frame : t = { s with
    flow := { s.flow with
      records := t.flow.records, lines := (linesOf s r).foldl tdel s.flow.lines
      wb := (s.flow.wb.map fun w => (w.1, w.2.filter fun e => !ofRecord r (131072 * w.1) e.line)).filter fun w => !w.2.isEmpty }
    hbm := t.hbm, cnt := t.cnt }
  others : ∀ j, j ≠ r → flowRec t j = flowRec s j

theorem recordFlushed_linesFlushed (r : Nat) (s : State) :
    RecordFlushed s r (linesFlushed (ofRecord r) (buffersDropped (ofRecord r) (buffersWritten (ofRecord r) s))) := by
  have h1 := recordsWritten_buffersWritten r s
  generalize buffersWritten (ofRecord r) s = s1 at h1
  have hlines : s1.flow.lines = s.flow.lines := by rw [h1.frame]
  have hwb : s1.flow.wb = s.flow.wb := by rw [h1.frame]
  obtain ⟨h2, hl2⟩ := foldl_lineFlushed (r := r) ((buffersDropped (ofRecord r) s1).flow.lines.filter fun e => ofRecord r e.1 e.2)
    (fun e he => by simpa [ofRecord] using (List.mem_filter.mp he).2) (buffersDropped (ofRecord r) s1)
  have hkeys : ((buffersDropped (ofRecord r) s1).flow.lines.filter fun e => ofRecord r e.1 e.2).map (·.1) = linesOf s r := by
    show (s1.flow.lines.filter fun e => ofRecord r e.1 e.2).map (·.1) = _
    rw [hlines]; rfl
  rw [hkeys] at hl2
  refine ⟨?_, fun j hj => ?_⟩
  · have hf := h2.frame
    unfold linesFlushed
    rw [hl2] at hf
    rw [hf]
    unfold buffersDropped
    rw [hwb, h1.frame]
    rfl
  · exact (h2.others j hj).trans (h1.others j hj)

theorem flushRecord_idle {s : State} (hn : NoWaits s) (r : Nat) :
    flushRecord r s = linesFlushed (ofRecord r) (buffersDropped (ofRecord r) (buffersWritten (ofRecord r) s)) := by
  have h := recordFlushed_linesFlushed r s
  have heq : flushRecord r s = flushLines (ofRecord r) s := rfl
  rw [heq, flushLines_eq]
  generalize linesFlushed (ofRecord r) (buffersDropped (ofRecord r) (buffersWritten (ofRecord r) s)) = t at h
  have hholds : t.flow.holds = s.flow.holds := by rw [h.frame]
  have hfold : t.flow.foldWait = s.flow.foldWait := by rw [h.frame]
  have hreads : ∀ k, issueReads k t = t := fun k => issueReads_idle (by rw [hholds]; exact hn.2) k
  have hfolds : ∀ n, foldsGoOn n t = t := fun n => foldsGoOn_idle (by rw [hfold]; exact hn.1 n)
  rw [foldl_eq_self (f := fun t r => issueReads r t) hreads, foldl_eq_self (f := fun t n => foldsGoOn n t) hfolds]

theorem wbEntries_recordFlushed {s t : State} {r : Nat} (h : RecordFlushed s r t) : wbEntries t r = [] := by
  unfold wbEntries
  rw [h.frame]
  dsimp only
  rw [List.flatMap_eq_nil_iff]
  intro w hw
  obtain ⟨w', -, rfl⟩ := List.mem_map.mp (List.mem_filter.mp hw).1
  simp [ofRecord, List.filter_filter]

theorem lineAt_recordFlushed {s t : State} {r : Nat} (h : RecordFlushed s r t) (hs : tsorted s.flow.lines = true) (y : Nat) (l : Line) :
    lineAt t y = some l ↔ lineAt s y = some l ∧ l.record ≠ r := by
  rw [← lineAt_linesDropped hs, linesDropped_eq, lineAt, h.frame]
  rfl

section
variable {s : State} {n c : Nat} {q : BitVec 384 × Nat} {x : Hold}

/-- A surrender request is ready at its old home. -/
def surrenderReady (s : State) (n : Nat) (q : BitVec 384 × Nat) : Bool := oldHome s q.1 == some n &&
  !((holdsOf s n).any fun h => h.1 != q.2 && bareKey h.2.key == q.1)

/-- A surrender request served: it goes and its fetch joins the miss queue. -/
def surrendered (q : BitVec 384 × Nat) (p : Nat) (s : State) : State :=
  queueFetch p q.2 (setFlow s { s.flow with surrender := s.flow.surrender.filter (· != q) })

theorem execSurrenderRequest_found (hq : s.flow.surrender.find? (surrenderReady s n) = some q) (hf : flowHalted s = false)
    (hc : idxFind s q.1 = some c) (hx : holdAt s q.2 = some x) (hn : NoWaits s) :
    exec (.surrenderRequest n) s = .next (surrendered q x.pipe (flushRecord (c / 2) s)) := by
  have hfl := recordFlushed_linesFlushed (c / 2) s
  rw [← flushRecord_idle hn] at hfl
  have hx' : tfind (flushRecord (c / 2) s).flow.holds q.2 = some x := by
    rw [hfl.frame]; exact hx
  change execSurrenderRequest n s = _
  have hq' : s.flow.surrender.find? (fun q => oldHome s q.1 == some n &&
      !((holdsOf s n).any fun h => h.1 != q.2 && bareKey h.2.key == q.1)) = some q := hq
  unfold execSurrenderRequest
  dsimp only
  rw [hq']
  dsimp only
  rw [hf, hc]
  dsimp only
  rw [if_neg (by decide)]
  generalize flushRecord (c / 2) s = u at hx'
  have hx2 : ∀ t : State, t.flow.holds = u.flow.holds → holdAt t q.2 = some x := fun t ht => by rw [holdAt, ht]; exact hx'
  rw [hx2 (setFlow u { u.flow with surrender := u.flow.surrender.filter (· != q) }) rfl]
  rfl

/-- What a served surrender leaves (R191). -/
theorem surrendered_facts (hl : tsorted s.flow.lines = true) (hn : NoWaits s) (p r : Nat) :
    let t := surrendered q p (flushRecord r s)
    (∀ y l, lineAt t y = some l → l.record ≠ r) ∧
      (∀ y l, lineAt s y = some l → l.record ≠ r → lineAt t y = some l) ∧ wbEntries t r = [] ∧
      t.flow.surrender = s.flow.surrender.filter (· != q) ∧
      t.flow.missQ = tset [] s.flow.missQ p (tget [] s.flow.missQ p ++ [q.2]) ∧
      (∀ j, j ≠ r → flowRec t j = flowRec s j) ∧ t.flow.holds = s.flow.holds ∧ t.flow.index = s.flow.index := by
  have hfl := recordFlushed_linesFlushed r s
  rw [← flushRecord_idle hn] at hfl
  generalize flushRecord r s = u at hfl
  have hline := lineAt_recordFlushed hfl hl
  refine ⟨fun y l h => ((hline y l).mp h).2, fun y l h hne => (hline y l).mpr ⟨h, hne⟩, ?_, ?_, ?_,
    hfl.others, ?_, ?_⟩
  · show wbEntries u r = []
    exact wbEntries_recordFlushed hfl
  · show u.flow.surrender.filter (· != q) = _
    rw [hfl.frame]
  · show tset [] u.flow.missQ p (tget [] u.flow.missQ p ++ [q.2]) = _
    rw [hfl.frame]
  · show u.flow.holds = _
    rw [hfl.frame]
  · show u.flow.index = _
    rw [hfl.frame]

end

end Sys2Proof.Machine
end

section
namespace Sys2Proof.Machine

/-! ### Lines of the old form evicted (R148, R157) -/

/-- No entry of a writeback buffer is of the record. -/
def NoneBuffered (s : State) (j : Nat) : Prop := ∀ w ∈ s.flow.wb, ∀ e ∈ w.2, e.line.record ≠ j

theorem noneBuffered_of_wbEntries {s : State} {j : Nat} (h : wbEntries s j = []) : NoneBuffered s j := by
  intro w hw e he hr
  have hrow := List.flatMap_eq_nil_iff.mp h w hw
  have hmem : e.line ∈ (w.2.filter fun e => e.line.record == j).map (·.line) :=
    List.mem_map_of_mem (List.mem_filter.mpr ⟨he, by simpa using hr⟩)
  rw [hrow] at hmem
  exact nomatch hmem

theorem exists_row_of_mem_tget {α : Type} {t : Tbl (List α)} {n : Nat} {e : α} (h : e ∈ tget [] t n) : ∃ w ∈ t, e ∈ w.2 := by
  unfold tget at h
  cases hf : tfind t n with
  | none => rw [hf] at h; exact nomatch h
  | some l => rw [hf] at h; exact ⟨(n, l), mem_of_tfind_eq_some hf, h⟩

theorem noneBuffered_setWb {s : State} {j n : Nat} {l : List WbEntry} (h : NoneBuffered s j) (hl : ∀ e ∈ l, e.line.record ≠ j) :
    NoneBuffered (setWb s n l) j := by
  intro w hw
  have hw' : w ∈ tset [] s.flow.wb n l := hw
  unfold tset at hw'
  split at hw'
  · exact h w (mem_tdel hw')
  · rcases mem_tput hw' with rfl | hw'
    · exact hl
    · exact h w hw'

/-- t differs from s in what the slices hold of lines, in records that P names or that are buffered, and outside the
flow engine in the HBM and counters alone. -/
structure Buffering (P : Nat → Prop) (s t : State) : Prop where
  frame : Flushed s t
  holds : t.flow.holds = s.flow.holds
  others : ∀ j, ¬ P j → NoneBuffered s j → NoneBuffered t j ∧ flowRec t j = flowRec s j

theorem Buffering.refl (P : Nat → Prop) (s : State) : Buffering P s s := ⟨.refl s, rfl, fun _ _ h => ⟨h, rfl⟩⟩
theorem Buffering.trans {P : Nat → Prop} {s t u : State} (h : Buffering P s t) (h' : Buffering P t u) : Buffering P s u :=
  ⟨h.frame.trans h'.frame, h'.holds.trans h.holds, fun j hj hn =>
    ⟨(h'.others j hj (h.others j hj hn).1).1, (h'.others j hj (h.others j hj hn).1).2.trans (h.others j hj hn).2⟩⟩
theorem Buffering.mono {P Q : Nat → Prop} {s t : State} (h : Buffering P s t) (hPQ : ∀ j, P j → Q j) : Buffering Q s t :=
  ⟨h.frame, h.holds, fun j hj => h.others j fun hP => hj (hPQ j hP)⟩

theorem buffering_of_wb {P : Nat → Prop} {s t : State} (hf : Flushed s t) (hh : t.flow.holds = s.flow.holds)
    (hw : t.flow.wb = s.flow.wb) (hr : t.flow.records = s.flow.records) : Buffering P s t :=
  ⟨hf, hh, fun j _ h => ⟨by rw [NoneBuffered, hw]; exact h, by rw [flowRec, hr]; rfl⟩⟩

theorem buffering_count (P : Nat → Prop) (i n u : Nat) (s : State) : Buffering P s (count i n u s) :=
  buffering_of_wb (flushed_count ..) (by rw [count_eq]) (by rw [count_eq]) (by rw [count_eq])

theorem buffering_setWb {s : State} {n r : Nat} {l : List WbEntry}
    (hl : ∀ e ∈ l, e.line.record ≠ r → e ∈ wbOf s n) : Buffering (· = r) s (setWb s n l) := by
  refine ⟨(onlyLines_setWb ..).flushed, rfl, fun j hj h => ⟨noneBuffered_setWb h fun e he hej => ?_, rfl⟩⟩
  obtain ⟨w, hw, hew⟩ := exists_row_of_mem_tget (hl e he (hej ▸ hj))
  exact h w hw e hew hej

section
variable {s : State} (hn : ∀ e ∈ s.flow.holds, e.2.readWaits = false)
include hn

theorem lines_wbOut (n : Nat) (e : WbEntry) : (wbOut n e s).flow.lines = s.flow.lines := by
  have hw := recordsWritten_writeback n e.line (setWb s n ((wbOf s n).erase e))
  unfold wbOut
  generalize writeback n e.line (setWb s n ((wbOf s n).erase e)) = t at hw
  rw [issueReads_idle (by rw [hw.frame]; exact hn), hw.frame]
  rfl

/-- Writing back a buffered entry touches no record without one. -/
theorem buffering_wbOut {n : Nat} {e : WbEntry} (he : e ∈ wbOf s n) (P : Nat → Prop) : Buffering P s (wbOut n e s) := by
  have hw := recordsWritten_writeback n e.line (setWb s n ((wbOf s n).erase e))
  unfold wbOut
  generalize writeback n e.line (setWb s n ((wbOf s n).erase e)) = t at hw
  have hholds : t.flow.holds = s.flow.holds := by rw [hw.frame]; rfl
  rw [issueReads_idle (by rw [hholds]; exact hn)]
  refine ⟨(onlyLines_setWb ..).flushed.trans hw.flushed, hholds, fun j _ h => ⟨?_, hw.others j fun hj => ?_⟩⟩
  · have hset : NoneBuffered (setWb s n ((wbOf s n).erase e)) j := noneBuffered_setWb h fun d hd => by
      obtain ⟨w, hw, hdw⟩ := exists_row_of_mem_tget (List.mem_of_mem_erase hd)
      exact h w hw d hdw
    have hwb : t.flow.wb = (setWb s n ((wbOf s n).erase e)).flow.wb := by rw [hw.frame]
    rw [NoneBuffered, hwb]; exact hset
  · obtain ⟨w, hw, hew⟩ := exists_row_of_mem_tget he
    exact h w hw e hew hj.symm

/-- A full buffer gives room by writing an entry back. -/
theorem wbPush_eq (n : Nat) (e : WbEntry) : ∃ u, wbPush n e s = setWb u n (wbOf u n ++ [e]) ∧ u.flow.lines = s.flow.lines ∧
    ∀ P, Buffering P s u := by
  unfold wbPush
  dsimp only
  have hflow : (count 0x4020 n 9 s).flow = s.flow := by rw [count_eq]
  have hcount := fun P => buffering_count P 0x4020 n 9 s
  generalize count 0x4020 n 9 s = c at hflow hcount
  refine ⟨_, rfl, ?_⟩
  split
  · cases ho : (wbNext s n).or (wbOf s n).head? with
    | none => exact ⟨congrArg Flow.lines hflow, hcount⟩
    | some o =>
      have hmem : o ∈ wbOf s n := by
        rcases Option.or_eq_some_iff.mp ho with ho | ⟨-, ho⟩
        · exact List.mem_of_find?_eq_some ho
        · exact List.mem_of_head? ho
      have hnc : ∀ e ∈ c.flow.holds, e.2.readWaits = false := by rw [hflow]; exact hn
      have hmc : o ∈ wbOf c n := by rw [wbOf, hflow]; exact hmem
      exact ⟨(lines_wbOut hnc n o).trans (congrArg Flow.lines hflow), fun P => (hcount P).trans (buffering_wbOut hnc hmc P)⟩
  · exact ⟨rfl, fun P => .refl P s⟩

theorem buffering_wbPush (n : Nat) (e : WbEntry) :
    Buffering (· = e.line.record) s (wbPush n e s) ∧ (wbPush n e s).flow.lines = s.flow.lines := by
  obtain ⟨u, hu, hl, hb⟩ := wbPush_eq hn n e
  rw [hu]
  refine ⟨(hb _).trans (buffering_setWb fun d hd hr => ?_), hl⟩
  rcases List.mem_append.mp hd with hd | hd
  · exact hd
  · exact absurd (congrArg (·.line.record) (List.mem_singleton.mp hd)) hr

end

theorem buffering_lines {P : Nat → Prop} {s t : State} (h : t = setFlow s { s.flow with lines := t.flow.lines }) :
    Buffering P s t := by
  refine buffering_of_wb ?_ ?_ ?_ ?_ <;> rw [h] <;> rfl

section
variable {s : State} (hn : ∀ e ∈ s.flow.holds, e.2.readWaits = false)
include hn

theorem foldLine_spec {n x : Nat} {l : Line} (hl : lineAt s x = some l) :
    Buffering (· = l.record) s (foldLine n x s) ∧ (foldLine n x s).flow.lines = tput s.flow.lines x (cleared l) := by
  have hflow : (count 0x4020 n 8 s).flow = s.flow := by rw [count_eq]
  have hcount := buffering_count (· = l.record) 0x4020 n 8 s
  unfold foldLine
  rw [hl]
  dsimp only
  generalize count 0x4020 n 8 s = c at hflow hcount
  obtain ⟨hp, hpl⟩ := buffering_wbPush (s := c) (by rw [hflow]; exact hn) n { line := l, fold := true }
  generalize wbPush n { line := l, fold := true } c = u at hp hpl
  refine ⟨(hcount.trans hp).trans (buffering_lines rfl), ?_⟩
  show tput u.flow.lines x (cleared l) = _
  rw [hpl, hflow]

theorem evict_spec {n x : Nat} {l : Line} (hl : lineAt s x = some l) :
    Buffering (· = l.record) s (evict n x s) ∧ (evict n x s).flow.lines = tdel s.flow.lines x := by
  have hflow : (count 0x4020 n 6 s).flow = s.flow := by rw [count_eq]
  have hcount := buffering_count (· = l.record) 0x4020 n 6 s
  unfold evict
  rw [hl]
  dsimp only
  generalize count 0x4020 n 6 s = c at hflow hcount
  have hdrop : Buffering (· = l.record) s (dropLine x c) := hcount.trans (buffering_lines rfl)
  have hlines : (dropLine x c).flow.lines = tdel s.flow.lines x := by rw [← hflow]; rfl
  have hholds : (dropLine x c).flow.holds = s.flow.holds := by rw [← hflow]; rfl
  generalize dropLine x c = d at hdrop hlines hholds
  split
  · obtain ⟨hp, hpl⟩ := buffering_wbPush (s := d) (by rw [hholds]; exact hn) n { line := l, fold := false }
    exact ⟨hdrop.trans hp, hpl.trans hlines⟩
  · exact ⟨hdrop, hlines⟩

theorem foldEvict_spec (hs : tsorted s.flow.lines = true) (x : Nat) :
    Buffering (fun j => ∃ l, lineAt s x = some l ∧ l.record = j) s (foldEvict x s) ∧
      tsorted (foldEvict x s).flow.lines = true ∧
      ∀ y, lineAt (foldEvict x s) y = if y = x then none else lineAt s y := by
  unfold foldEvict
  dsimp only
  cases hl : lineAt s x with
  | none =>
    have heq : evict (x / 131072) x s = s := by unfold evict; rw [hl]
    rw [Option.map_none, Option.getD_none, if_neg (by decide), heq]
    refine ⟨.refl _ s, hs, fun y => ?_⟩
    split
    next h => rw [h, hl]
    · rfl
  | some l =>
    have hrec : ∀ {t : State}, Buffering (· = l.record) s t → Buffering (fun j => ∃ l', some l = some l' ∧ l'.record = j) s t :=
      fun h => h.mono fun j hj => ⟨l, rfl, hj.symm⟩
    rw [Option.map_some, Option.getD_some]
    split
    · obtain ⟨h1, hl1⟩ := foldLine_spec hn (n := x / 131072) hl
      generalize foldLine (x / 131072) x s = u at h1 hl1
      have hul : lineAt u x = some (cleared l) := by rw [lineAt, hl1]; exact tfind_tput_same ..
      obtain ⟨h2, hl2⟩ := evict_spec (by rw [h1.holds]; exact hn) (n := x / 131072) hul
      have hsu : tsorted u.flow.lines = true := by rw [hl1]; exact tsortedFrom_tput hs (Nat.zero_le x) _
      refine ⟨hrec (h1.trans h2), by rw [hl2]; exact tsortedFrom_tdel hsu x, fun y => ?_⟩
      rw [lineAt, hl2]
      split
      next h => rw [h]; exact tfind_tdel_same hsu x
      next h => rw [tfind_tdel_other _ h, hl1]; exact tfind_tput_other _ _ h
    · obtain ⟨h2, hl2⟩ := evict_spec hn (n := x / 131072) hl
      refine ⟨hrec h2, by rw [hl2]; exact tsortedFrom_tdel hs x, fun y => ?_⟩
      rw [lineAt, hl2]
      split
      next h => rw [h]; exact tfind_tdel_same hs x
      next h => exact tfind_tdel_other _ h

theorem foldl_foldEvict_spec (xs : List (Nat × Line)) (hs : tsorted s.flow.lines = true) :
    Buffering (fun j => ∃ r ∈ xs, ∃ l, lineAt s r.1 = some l ∧ l.record = j) s (xs.foldl (fun t r => foldEvict r.1 t) s) ∧
      ∀ y, lineAt (xs.foldl (fun t r => foldEvict r.1 t) s) y = if y ∈ xs.map (·.1) then none else lineAt s y := by
  induction xs generalizing s with
  | nil => exact ⟨.refl _ s, fun _ => rfl⟩
  | cons r xs ih =>
    obtain ⟨h1, hs1, hl1⟩ := foldEvict_spec hn hs r.1
    rw [List.foldl_cons]
    generalize foldEvict r.1 s = u at h1 hs1 hl1
    obtain ⟨h2, hl2⟩ := ih (by rw [h1.holds]; exact hn) hs1
    refine ⟨(h1.mono fun j ⟨l, hl⟩ => ⟨r, List.mem_cons_self .., l, hl⟩).trans (h2.mono fun j ⟨q, hq, l, hl, hj⟩ => ?_), fun y => ?_⟩
    · rw [hl1] at hl
      split at hl
      · exact nomatch hl
      · exact ⟨q, List.mem_cons_of_mem _ hq, l, hl, hj⟩
    · rw [hl2, hl1, List.map_cons]
      by_cases hy : y = r.1
      · rw [if_pos hy, ite_self, if_pos (by rw [hy]; exact List.mem_cons_self ..)]
      · simp only [List.mem_cons, hy, if_false, false_or]

/-- The lines of a test are gone; records without such a line and without a buffered entry stand. -/
theorem evictLines_spec (hs : tsorted s.flow.lines = true) (gone : Nat → Line → Bool) :
    Buffering (fun j => ∃ y l, lineAt s y = some l ∧ gone y l = true ∧ l.record = j) s (evictLines gone s) ∧
      ∀ y l, lineAt (evictLines gone s) y = some l ↔ lineAt s y = some l ∧ gone y l = false := by
  obtain ⟨h, hl⟩ := foldl_foldEvict_spec hn (s.flow.lines.filter fun r => gone r.1 r.2) hs
  have hmem : ∀ {y l}, lineAt s y = some l → (y ∈ (s.flow.lines.filter fun r => gone r.1 r.2).map (·.1) ↔ gone y l = true) := by
    intro y l hyl
    simp only [List.mem_map, List.mem_filter]
    constructor
    · rintro ⟨e, ⟨he, hg⟩, rfl⟩
      rw [Option.some.inj (hyl.symm.trans (tfind_eq_some_of_mem hs he))]
      exact hg
    · exact fun hg => ⟨(y, l), ⟨mem_of_tfind_eq_some hyl, hg⟩, rfl⟩
  refine ⟨h.mono fun j ⟨r, hr, l, hrl, hj⟩ => ⟨r.1, l, hrl, (hmem hrl).mp (List.mem_map_of_mem hr), hj⟩, fun y l => ?_⟩
  show lineAt ((s.flow.lines.filter fun r => gone r.1 r.2).foldl (fun t r => foldEvict r.1 t) s) y = some l ↔ _
  rw [hl]
  split
  next hy =>
    refine ⟨(nomatch ·), fun ⟨hyl, hg⟩ => ?_⟩
    rw [(hmem hyl).mp hy] at hg
    exact nomatch hg
  next hy =>
    refine ⟨fun hyl => ⟨hyl, ?_⟩, fun h => h.1⟩
    rw [hmem hyl] at hy
    simpa using hy

end

/-- A settled cache mode (R148). -/
def modeSettled (s : State) : State :=
  let s1 := evictLines (fun _ l => l.wide != cfgOn s 0x4003 0 0) s
  raise 0x0507 [b2n (cfgOn s 0x4003 0 0), (raw s - (s.flow.converting - 1)) / 800000] (setFlow s1 { s1.flow with converting := 0 })

theorem execCacheModeSettled_idle {s : State} (hc : s.flow.converting = 0) : exec .cacheModeSettled s = .next s := by
  change execCacheModeSettled s = _
  unfold execCacheModeSettled
  rw [if_pos (.inl hc)]

theorem execCacheModeSettled_done {s : State} (hc : s.flow.converting ≠ 0) (hf : flowHalted s = false) :
    exec .cacheModeSettled s = .next (modeSettled s) := by
  change execCacheModeSettled s = _
  unfold execCacheModeSettled
  rw [if_neg (by rw [hf]; rintro (h | h); exacts [hc h, nomatch h])]
  rfl

theorem modeSettled_facts {s : State} (hs : tsorted s.flow.lines = true) (hn : ∀ h ∈ s.flow.holds, h.2.readWaits = false) :
    (modeSettled s).flow.converting = 0 ∧
      (∀ y l, lineAt (modeSettled s) y = some l ↔ (lineAt s y = some l ∧ l.wide = cfgOn s 0x4003 0 0)) ∧
      (∀ j, (∀ y l, lineAt s y = some l → l.record = j → l.wide = cfgOn s 0x4003 0 0) → wbEntries s j = [] →
        flowRec (modeSettled s) j = flowRec s j) ∧
      (modeSettled s).flow.holds = s.flow.holds ∧ (modeSettled s).flow.index = s.flow.index ∧
      (modeSettled s).path = s.path := by
  obtain ⟨h, hl⟩ := evictLines_spec hn hs (fun _ l => l.wide != cfgOn s 0x4003 0 0)
  unfold modeSettled
  dsimp only
  generalize evictLines (fun _ l => l.wide != cfgOn s 0x4003 0 0) s = u at h hl
  have hq := quiet_raise 0x0507 [b2n (cfgOn s 0x4003 0 0), (raw s - (s.flow.converting - 1)) / 800000]
    (setFlow u { u.flow with converting := 0 }) false
  generalize raise 0x0507 [b2n (cfgOn s 0x4003 0 0), (raw s - (s.flow.converting - 1)) / 800000]
    (setFlow u { u.flow with converting := 0 }) = t at hq
  have hflow : t.flow = { u.flow with converting := 0 } := hq.flow
  refine ⟨by rw [hflow], fun y l => ?_, fun j hj hw => ?_, ?_, ?_, ?_⟩
  · rw [lineAt, hflow]
    exact (hl y l).trans (by simp)
  · rw [flowRec, hflow]
    refine (h.others j (fun ⟨y, l, hyl, hg, hr⟩ => ?_) (noneBuffered_of_wbEntries hw)).2
    rw [hj y l hyl hr] at hg
    simp at hg
  · rw [hflow]; exact h.holds
  · rw [hflow]
    show u.flow.index = _
    rw [h.frame]
  · rw [hq.path]
    show u.path = _
    rw [h.frame]

end Sys2Proof.Machine
end

section
namespace Sys2Proof.Machine

/-! ### Entries of an index slot table (R137, Table 5-5) -/

theorem slValid_mkSlot (sig record dir : Nat) (alt : Bool) : slValid (mkSlot sig record dir alt) = true := by
  rw [slValid, bit_eq_decide_bf, mkSlot, bf_ofNat _ _ (by decide), decide_eq_true_eq]
  simp only [fld, Nat.shiftRight_eq_div_pow]
  cases alt <;> simp only [b2n] <;> norm_num <;> omega

theorem slRec_mkSlot (sig record dir : Nat) (alt : Bool) : slRec (mkSlot sig record dir alt) = record % 2 ^ 29 := by
  rw [slRec, mkSlot, bf_ofNat _ _ (by decide)]
  simp only [fld, Nat.shiftRight_eq_div_pow]
  cases alt <;> simp only [b2n] <;> norm_num <;> omega

theorem slDir_mkSlot (sig record dir : Nat) (alt : Bool) : slDir (mkSlot sig record dir alt) = dir % 2 := by
  rw [slDir, mkSlot, bf_ofNat _ _ (by decide)]
  simp only [fld, Nat.shiftRight_eq_div_pow]
  cases alt <;> simp only [b2n] <;> norm_num <;> omega

theorem slRec_mod (v : BitVec 64) : slRec v % 2 ^ 29 = slRec v := bf_mod v 31 3
theorem slDir_mod (v : BitVec 64) : slDir v % 2 = slDir v := bf_mod v 1 1

theorem slRec_mkSlot_slRec (sig dir : Nat) (v : BitVec 64) (alt : Bool) : slRec (mkSlot sig (slRec v) dir alt) = slRec v :=
  (slRec_mkSlot ..).trans (slRec_mod v)
theorem slDir_mkSlot_slDir (sig r : Nat) (v : BitVec 64) (alt : Bool) : slDir (mkSlot sig r (slDir v) alt) = slDir v :=
  (slDir_mkSlot ..).trans (slDir_mod v)

theorem ne_zero_of_slValid {v : BitVec 64} (h : slValid v = true) : v ≠ 0 := by
  rintro rfl
  exact absurd h (by decide)

/-- A table lists a record's key in a direction. -/
def Listed (t : Tbl (BitVec 64)) (r d : Nat) : Prop :=
  ∃ y, slValid (tget 0 t y) = true ∧ slRec (tget 0 t y) = r ∧ slDir (tget 0 t y) = d

theorem listed_tset {t : Tbl (BitVec 64)} {v : BitVec 64} (hv : slValid v = true) (x : Nat) :
    Listed (tset 0 t x v) (slRec v) (slDir v) :=
  ⟨x, by rw [tget_tset_ne_default (ne_zero_of_slValid hv)]; exact ⟨hv, rfl, rfl⟩⟩

/-- A slot written displaces at most the entry that stood there. -/
theorem Listed.tset {t : Tbl (BitVec 64)} {r d : Nat} (h : Listed t r d) (x : Nat) (v : BitVec 64) :
    Listed (tset 0 t x v) r d ∨ (slValid (tget 0 t x) = true ∧ slRec (tget 0 t x) = r ∧ slDir (tget 0 t x) = d) := by
  obtain ⟨y, hy⟩ := h
  by_cases hx : y = x
  · exact .inr (hx ▸ hy)
  · exact .inl ⟨y, by rw [tget_tset_other _ _ hx]; exact hy⟩

theorem Listed.tset_free {t : Tbl (BitVec 64)} {r d x : Nat} (h : Listed t r d) (hx : slValid (tget 0 t x) = false) (v : BitVec 64) :
    Listed (Machine.tset 0 t x v) r d := by
  rcases h.tset x v with h | ⟨h, -⟩
  · exact h
  · rw [hx] at h; exact nomatch h

/-! ### Entries entered into the new layout (R139, R190) -/

/-- The state with another table of the new layout. -/
def relaid (t : Tbl (BitVec 64)) (s : State) : State := setFlow s { s.flow with index2 := t }

section
variable {s : State} {l : IdxLay} (hb : l.building = true) (hp : ∀ i, pcRetired s i = false)
include hb hp

theorem idxPut_building (x : Nat) (v : BitVec 64) : idxPut l x v s = relaid (tset 0 s.flow.index2 x v) s := by
  rw [idxPut, if_neg (by rw [bucketGone, hp]; decide), if_pos hb]
  rfl

end

theorem idxGet_building {l : IdxLay} (hb : l.building = true) (s : State) (x : Nat) : idxGet s l x = tget 0 s.flow.index2 x := by
  rw [idxGet, idxTable, if_pos hb]

theorem valid_of_freeSlot_none {s : State} {l : IdxLay} {b : Nat} (h : freeSlot s l b = none) {x : Nat} (hx : x ∈ bucketSlots b) :
    slValid (idxGet s l x) = true := by
  simpa using List.find?_eq_none.mp h x hx

/-- What t of the new layout keeps of s, with an entry more. -/
structure Entered (s t : State) (r d : Nat) : Prop where
  frame : t = relaid t.flow.index2 s
  entry : Listed t.flow.index2 r d
  kept : ∀ r' d', Listed s.flow.index2 r' d' → Listed t.flow.index2 r' d'

/-- An entry in hand put over another, which is entered in turn. -/
theorem Entered.of_displaced {s u t : State} {x : Nat} {hand : BitVec 64} (hh : slValid hand = true)
    (hu : u = relaid (tset 0 s.flow.index2 x hand) s)
    (h : Entered u t (slRec (tget 0 s.flow.index2 x)) (slDir (tget 0 s.flow.index2 x))) :
    Entered s t (slRec hand) (slDir hand) := by
  have hu2 : u.flow.index2 = tset 0 s.flow.index2 x hand := by rw [hu]; rfl
  refine ⟨by rw [h.frame, hu]; rfl, h.kept _ _ (by rw [hu2]; exact listed_tset hh x), fun r d hl => ?_⟩
  rcases hl.tset x hand with hl | ⟨-, rfl, rfl⟩
  · exact h.kept r d (by rw [hu2]; exact hl)
  · exact h.entry

/-- An entry put into a free slot. -/
theorem entered_free {s : State} {y : Nat} (hy : slValid (tget 0 s.flow.index2 y) = false) {v : BitVec 64} (hv : slValid v = true) :
    Entered s (relaid (tset 0 s.flow.index2 y v) s) (slRec v) (slDir v) :=
  ⟨rfl, listed_tset hv y, fun _ _ h => h.tset_free hy v⟩

/-- An entry displaced is entered in its other bucket under the same record and direction. -/
def movedEntry (o : BitVec 64) (two : Bool) : BitVec 64 := mkSlot (slSig o) (slRec o) (slDir o) (!slAlt o && two)

theorem slValid_movedEntry (o : BitVec 64) (two : Bool) : slValid (movedEntry o two) = true := slValid_mkSlot ..
theorem slRec_movedEntry (o : BitVec 64) (two : Bool) : slRec (movedEntry o two) = slRec o := slRec_mkSlot_slRec ..
theorem slDir_movedEntry (o : BitVec 64) (two : Bool) : slDir (movedEntry o two) = slDir o := slDir_mkSlot_slDir ..

theorem entered_displace {l : IdxLay} (hb : l.building = true) (n : Nat) {s t : State} (hp : ∀ i, pcRetired s i = false)
    {d b : Nat} {hand : BitVec 64} (hh : slValid hand = true) (hfull : ∀ x ∈ bucketSlots b, slValid (idxGet s l x) = true)
    (h : displace l n d b hand s = some t) : Entered s t (slRec hand) (slDir hand) := by
  induction n generalizing s d b hand with
  | zero => exact nomatch h
  | succ n ih =>
    have hx : slValid (idxGet s l (8 * b + d % 8)) = true :=
      hfull _ (List.mem_map.mpr ⟨d % 8, List.mem_range.mpr (Nat.mod_lt _ (by decide)), rfl⟩)
    have hput := idxPut_building hb hp (8 * b + d % 8) hand
    unfold displace at h
    dsimp only at h
    rw [hput] at h
    rw [idxGet_building hb] at h hx
    generalize 8 * b + d % 8 = x at h hx
    generalize hu : relaid (tset 0 s.flow.index2 x hand) s = u at h
    have hu2 : u.flow.index2 = tset 0 s.flow.index2 x hand := by rw [← hu]; rfl
    have hpu : ∀ i, pcRetired u i = false := by rw [← hu]; exact hp
    split at h
    · exact nomatch h
    next k _ =>
      generalize (if slAlt (tget 0 s.flow.index2 x) = true then (layBuckets l k).headD 0
        else (layBuckets l k).getD 1 ((layBuckets l k).headD 0)) = other at h
      change (if _ ∨ _ then none else match freeSlot s l other with
        | some y => some (idxPut l y (movedEntry (tget 0 s.flow.index2 x) ((layBuckets l k).length == 2)) u)
        | none => displace l n (d + 1) other (movedEntry (tget 0 s.flow.index2 x) ((layBuckets l k).length == 2)) u) = some t at h
      have hmoved := slValid_movedEntry (tget 0 s.flow.index2 x) ((layBuckets l k).length == 2)
      have hrec := slRec_movedEntry (tget 0 s.flow.index2 x) ((layBuckets l k).length == 2)
      have hdir := slDir_movedEntry (tget 0 s.flow.index2 x) ((layBuckets l k).length == 2)
      generalize movedEntry (tget 0 s.flow.index2 x) ((layBuckets l k).length == 2) = o at h hmoved hrec hdir
      refine Entered.of_displaced hh hu.symm ?_
      rw [← hrec, ← hdir]
      split at h
      · exact nomatch h
      · split at h
        next y hy =>
          obtain ⟨-, hfree⟩ := freeSlot_spec hy
          rw [idxGet_building hb] at hfree
          have hne : y ≠ x := fun he => by rw [he, hx] at hfree; exact nomatch hfree
          rw [idxPut_building hb hpu] at h
          cases h
          exact entered_free (by rw [hu2, tget_tset_other _ _ hne]; exact hfree) hmoved
        next hnone =>
          refine ih hpu hmoved (fun z hz => ?_) h
          rw [idxGet_building hb, hu2]
          by_cases hzx : z = x
          · rw [hzx, tget_tset_ne_default (ne_zero_of_slValid hh)]; exact hh
          · rw [tget_tset_other _ _ hzx, ← idxGet_building hb]; exact valid_of_freeSlot_none hnone hz

theorem entered_idxInsert {l : IdxLay} (hb : l.building = true) {s t : State} (hp : ∀ i, pcRetired s i = false)
    {k : BitVec 384} {r d : Nat} (h : idxInsert l k r d s = .inr t) : Entered s t (r % 2 ^ 29) (d % 2) := by
  have hvalid := slValid_mkSlot (laySig l k) r d
  have hrec := slRec_mkSlot (laySig l k) r d
  have hdir := slDir_mkSlot (laySig l k) r d
  have hlive : ((layBuckets l k).filter fun b => !bucketGone s l b) = layBuckets l k :=
    List.filter_eq_self.mpr fun b _ => by rw [bucketGone, hp]; rfl
  obtain ⟨rest, hne⟩ := layBuckets_ne_nil l k
  unfold idxInsert at h
  dsimp only at h
  rw [hlive] at h
  split at h
  · exact nomatch h
  · split at h
    next b x hx =>
      obtain ⟨b', -, hb'⟩ := List.exists_of_findSome?_eq_some hx
      obtain ⟨x', hx', he⟩ := Option.map_eq_some_iff.mp hb'
      obtain ⟨-, hfree⟩ := freeSlot_spec hx'
      rw [(Prod.mk.inj he).2, idxGet_building hb] at hfree
      rw [idxPut_building hb hp] at h
      cases h
      rw [← hrec, ← hdir]
      exact entered_free hfree (hvalid _)
    next hnone =>
      rw [if_neg (by rw [bucketGone, hp]; decide)] at h
      split at h
      next u hu =>
        cases h
        rw [← hrec false, ← hdir false]
        refine entered_displace hb 16 hp (hvalid _) (fun x hx => ?_) hu
        refine valid_of_freeSlot_none ?_ hx
        have := List.findSome?_eq_none_iff.mp hnone ((layBuckets l k).headD 0) (by rw [hne]; exact List.mem_cons_self ..)
        exact Option.map_eq_none_iff.mp this
      · exact nomatch h

/-! ### The copier's walk (R190, R192) -/

/-- The new layout that REHASH builds. -/
def rehashLay (r : Rehash) : IdxLay := { seeds := r.seeds, nb := r.nb, base := r.region, pcs := r.lay, building := true }

theorem find_building_layouts {s : State} {r : Rehash} (hr : s.flow.rehash = some r) (h0 : r.phase = 0) :
    (layouts s).find? (·.building) = some (rehashLay r) := by
  unfold layouts
  rw [hr]
  dsimp only
  rw [if_neg (by omega)]
  rfl

theorem idxGet_layNow (s : State) (x : Nat) : idxGet s (layNow s) x = tget 0 s.flow.index x := by
  rw [idxGet, idxTable, if_neg (by rw [layNow_building]; decide)]

/-- The slot's entry stands in the new layout after its copy, unless its record is not there. -/
structure Copied (s t : State) (P : Nat → Prop) : Prop where
  frame : t = relaid t.flow.index2 s
  entries : ∀ x, P x → slValid (tget 0 s.flow.index x) = true →
    slotKey s (slRec (tget 0 s.flow.index x)) (slDir (tget 0 s.flow.index x)) ≠ none →
    Listed t.flow.index2 (slRec (tget 0 s.flow.index x)) (slDir (tget 0 s.flow.index x))
  kept : ∀ r' d', Listed s.flow.index2 r' d' → Listed t.flow.index2 r' d'

theorem copied_copyEntry {s t : State} {r : Rehash} (hr : s.flow.rehash = some r) (h0 : r.phase = 0)
    (hp : ∀ i, pcRetired s i = false) {x : Nat} (h : copyEntry x s = some t) : Copied s t (· = x) := by
  unfold copyEntry at h
  dsimp only at h
  rw [find_building_layouts hr h0, idxGet_layNow] at h
  dsimp only at h
  split at h
  next hv =>
    cases h
    refine ⟨rfl, ?_, fun _ _ h => h⟩
    rintro _ rfl hvalid
    rw [hvalid] at hv
    exact absurd hv (by decide)
  · rw [if_neg (by rw [bucketGone, recGone, hp, hp]; decide)] at h
    split at h
    next hnone =>
      cases h
      exact ⟨rfl, by rintro _ rfl - hk; exact absurd hnone hk, fun _ _ h => h⟩
    next k _ =>
      split at h
      next hthere =>
        cases h
        refine ⟨rfl, ?_, fun _ _ h => h⟩
        rintro _ rfl - -
        obtain ⟨b, -, hb⟩ := List.any_eq_true.mp hthere
        obtain ⟨y, -, hy⟩ := List.any_eq_true.mp hb
        rw [idxGet_building (l := rehashLay r) rfl] at hy
        simp only [Bool.and_eq_true, beq_iff_eq] at hy
        exact ⟨y, hy.1.1, hy.1.2, hy.2⟩
      · split at h
        next u hu =>
          cases h
          have hin := entered_idxInsert (l := rehashLay r) rfl hp hu
          rw [slRec_mod, slDir_mod] at hin
          exact ⟨hin.frame, by rintro _ rfl - -; exact hin.entry, hin.kept⟩
        · exact nomatch h

theorem copied_copyList {s : State} {r : Rehash} (hr : s.flow.rehash = some r) (h0 : r.phase = 0)
    (hp : ∀ i, pcRetired s i = false) (xs : List Nat) :
    (copyList xs s).2 = relaid (copyList xs s).2.flow.index2 s ∧
      ((copyList xs s).1 = true → Copied s (copyList xs s).2 (· ∈ xs)) := by
  induction xs generalizing s with
  | nil => exact ⟨rfl, fun _ => ⟨rfl, fun _ h => (nomatch h), fun _ _ h => h⟩⟩
  | cons x xs ih =>
    unfold copyList
    split
    · exact ⟨rfl, fun h => nomatch h⟩
    next u hu =>
      have h1 := copied_copyEntry hr h0 hp hu
      have hur : u.flow.rehash = some r := by rw [h1.frame]; exact hr
      have hup : ∀ i, pcRetired u i = false := by rw [h1.frame]; exact hp
      have hui : u.flow.index = s.flow.index := by rw [h1.frame]; rfl
      have huk : ∀ a d, slotKey u a d = slotKey s a d := fun a d => by rw [h1.frame]; rfl
      obtain ⟨hf, hc⟩ := ih hur hup
      refine ⟨by rw [hf, h1.frame]; rfl, fun hok => ?_⟩
      have h2 := hc hok
      refine ⟨by rw [hf, h1.frame]; rfl, fun z hz hv hk => ?_, fun a d h => h2.kept a d (h1.kept a d h)⟩
      rcases List.mem_cons.mp hz with rfl | hz
      · exact h2.kept _ _ (h1.entries z rfl hv hk)
      · have he := h2.entries z hz
        rw [hui, huk] at he
        exact he hv hk

end Sys2Proof.Machine
end

section
namespace Sys2Proof.Machine

/-! ### REHASH_COPY as a command (R190, R192) -/

/-- The slots of old buckets from one to another, as the table lists them. -/
def slotsBetween (s : State) (a b : Nat) : List Nat :=
  (s.flow.index.filter fun e => decide (8 * a ≤ e.1) && decide (e.1 < 8 * b)).map (·.1)

theorem mem_slotsBetween {s : State} {a b x : Nat} (ha : 8 * a ≤ x) (hb : x < 8 * b) (hv : slValid (tget 0 s.flow.index x) = true) :
    x ∈ slotsBetween s a b := by
  unfold tget at hv
  cases hx : tfind s.flow.index x with
  | none => rw [hx] at hv; exact absurd hv (by decide)
  | some v => exact List.mem_map.mpr ⟨(x, v), List.mem_filter.mpr ⟨mem_of_tfind_eq_some hx, by simp [ha, hb]⟩, rfl⟩

/-- The copier's place after its walk. -/
def copierAt (stop nb : Nat) (s : State) : State :=
  setFlow s { s.flow with rehash := s.flow.rehash.map fun z => { z with next := stop, phase := if stop = nb then 1 else 0 } }

section
variable {s : State} {r : Rehash} {o : LongOp} (hr : s.flow.rehash = some r) (ho : workingOp s r.op = some o) (h0 : r.phase = 0)
  (hf : flowHalted s = false) (hs : o.suspendAsked = false) (cnt : Nat)
include hr ho h0 hf hs

theorem execRehashCopy_eq : exec (.rehashCopy cnt) s = .next (
    let nb := (layNow s).nb
    let stop := min nb (r.next + cnt)
    let c := copyList (slotsBetween s r.next stop) s
    if c.1 then opProgress r.op stop (stop % 65536 == 0 || stop == nb) (copierAt stop nb c.2)
    else rehashCancel (opFinish r.op 6 5 c.2)) := by
  change execRehashCopy cnt s = _
  unfold execRehashCopy rehashCopy
  rw [hr]
  dsimp only
  rw [ho]
  dsimp only
  rw [if_neg (by rw [hf, h0]; decide), hs, if_neg Bool.false_ne_true]
  rfl

variable (hp : ∀ i, pcRetired s i = false)
include hp

theorem rehashCopy_copied (hok : (copyList (slotsBetween s r.next (min (layNow s).nb (r.next + cnt))) s).1 = true) :
    ∃ t, exec (.rehashCopy cnt) s = .next t ∧
      t.flow = { s.flow with
        index2 := t.flow.index2
        rehash := some { r with
          next := min (layNow s).nb (r.next + cnt)
          phase := if min (layNow s).nb (r.next + cnt) = (layNow s).nb then 1 else 0 } } ∧
      (∀ x, 8 * r.next ≤ x → x < 8 * min (layNow s).nb (r.next + cnt) → slValid (tget 0 s.flow.index x) = true →
        slotKey s (slRec (tget 0 s.flow.index x)) (slDir (tget 0 s.flow.index x)) ≠ none →
        Listed t.flow.index2 (slRec (tget 0 s.flow.index x)) (slDir (tget 0 s.flow.index x))) ∧
      tfind t.ctl.ops r.op = some { o with done := min (layNow s).nb (r.next + cnt), suspendAsked := false } ∧
      t.path = s.path ∧ t.hbm = s.hbm := by
  rw [execRehashCopy_eq hr ho h0 hf hs cnt]
  dsimp only
  rw [if_pos hok]
  have hc := (copied_copyList hr h0 hp (slotsBetween s r.next (min (layNow s).nb (r.next + cnt)))).2 hok
  generalize (copyList (slotsBetween s r.next (min (layNow s).nb (r.next + cnt))) s).2 = u at hc
  generalize hstop : min (layNow s).nb (r.next + cnt) = stop at hc
  have hou : tfind (copierAt stop (layNow s).nb u).ctl.ops r.op = some o := by
    show tfind u.ctl.ops r.op = some o
    rw [hc.frame]
    exact tfind_of_workingOp ho
  rw [opProgress_eq hou, hs]
  refine ⟨_, rfl, ?_, fun x ha hb hv hk => hc.entries x (mem_slotsBetween ha hb hv) hv hk, tfind_setOp_same .., ?_, ?_⟩
  · show (copierAt stop (layNow s).nb u).flow = { s.flow with
        index2 := u.flow.index2
        rehash := some { r with
          next := stop
          phase := if stop = (layNow s).nb then 1 else 0 } }
    rw [hc.frame, copierAt]
    simp only [relaid, setFlow_flow, hr, Option.map_some]
  · show u.path = _
    rw [hc.frame]; rfl
  · show u.hbm = _
    rw [hc.frame]; rfl

end

theorem foldl_flowRemove_ctl (l : List Nat) (s : State) : (l.foldl (fun t x => flowRemove x 5 t) s).ctl = s.ctl := by
  induction l generalizing s with
  | nil => rfl
  | cons x l ih =>
    rw [List.foldl_cons, ih]
    cases hx : flowRec s x with
    | none => rw [flowRemove, flowEnd]; simp only [hx]
    | some m => rw [flowRemove, (flowEnded_flowEnd hx 5 _).frame]

/-- A cancelled rehash has no new layout. -/
theorem rehashCancel_facts {s : State} {r : Rehash} (hr : s.flow.rehash = some r) : (rehashCancel s).flow.rehash = none ∧
    (rehashCancel s).flow.index2 = [] ∧ (rehashCancel s).ctl = s.ctl := by
  unfold rehashCancel
  rw [hr]
  exact ⟨rfl, rfl, foldl_flowRemove_ctl ..⟩

theorem rehashCopy_noRoom {s : State} {r : Rehash} {o : LongOp} (hr : s.flow.rehash = some r) (ho : workingOp s r.op = some o)
    (h0 : r.phase = 0) (hf : flowHalted s = false) (hs : o.suspendAsked = false) (cnt : Nat) (hp : ∀ i, pcRetired s i = false)
    (hno : (copyList (slotsBetween s r.next (min (layNow s).nb (r.next + cnt))) s).1 = false) :
    ∃ t, exec (.rehashCopy cnt) s = .next t ∧ t.flow.rehash = none ∧ t.flow.index2 = [] ∧
      (tfind t.ctl.ops r.op).map (fun p => (p.state, p.result)) = some (6, 5) := by
  rw [execRehashCopy_eq hr ho h0 hf hs cnt]
  dsimp only
  rw [if_neg (by rw [hno]; decide)]
  have hc := (copied_copyList hr h0 hp (slotsBetween s r.next (min (layNow s).nb (r.next + cnt)))).1
  generalize (copyList (slotsBetween s r.next (min (layNow s).nb (r.next + cnt))) s).2 = u at hc
  have hou : tfind u.ctl.ops r.op = some o := by rw [hc]; exact tfind_of_workingOp ho
  obtain ⟨⟨p, hp1, hp2, hp3⟩, -⟩ := opFinish_spec hou 6 5
  have hflow : (opFinish r.op 6 5 u).flow = u.flow := by rw [opFinish_frame]
  obtain ⟨h1, h2, h3⟩ := rehashCancel_facts (s := opFinish r.op 6 5 u) (r := r) (by rw [hflow, hc]; exact hr)
  exact ⟨_, rfl, h1, h2, by rw [h3, hp1, Option.map_some, hp2, hp3]⟩

end Sys2Proof.Machine
end

section
namespace Sys2Proof.Machine

/-! ### Released packets leave the flow engine alone (step 6 and what it reaches) -/

theorem foldl_flow {α : Type} {f : State → α → State} (h : ∀ t a, (f t a).flow = t.flow) (l : List α) (s : State) :
    (l.foldl f s).flow = s.flow := by
  induction l generalizing s with
  | nil => rfl
  | cons a l ih => exact (ih _).trans (h s a)
theorem ite_flow {c : Prop} [Decidable c] {s t u : State} (ht : t.flow = s.flow) (hu : u.flow = s.flow) :
    (if c then t else u).flow = s.flow := by split <;> assumption

/-! Counters, events and detections -/

@[simp] theorem ctrAdd_flow (a n : Nat) (s : State) : (ctrAdd a n s).flow = s.flow := by rw [ctrAdd_eq]
@[simp] theorem queueAdd_flow (q sel k n : Nat) (s : State) : (queueAdd q sel k n s).flow = s.flow := ctrAdd_flow ..
@[simp] theorem queueCount_flow (q sel u k : Nat) (s : State) : (queueCount q sel u k s).flow = s.flow := by
  simp only [queueCount, queueAdd_flow, count_flow]
@[simp] theorem queueDrop_flow (q sel u : Nat) (s : State) : (queueDrop q sel u s).flow = s.flow := queueCount_flow ..
@[simp] theorem raiseLimited_flow (c i : Nat) (ps : Nat → List Nat) (s : State) :
    (raiseLimited c i ps s).flow = s.flow := by rw [raiseLimited_eq]

/-! Packets and queues -/

@[simp] theorem setPkt_flow (n : Nat) (p : Packet) (s : State) : (setPkt n p s).flow = s.flow := rfl
@[simp] theorem modPkt_flow (n : Nat) (f : Packet → Packet) (s : State) : (modPkt n f s).flow = s.flow := rfl
@[simp] theorem leaveEpoch_flow (pid : Nat) (s : State) : (leaveEpoch pid s).flow = s.flow := by
  simp only [leaveEpoch]; split <;> rfl
@[simp] theorem settle_flow (pid : Nat) (s : State) : (settle pid s).flow = s.flow := by
  have h := leaveEpoch_flow pid s
  simp only [settle]
  split
  · split
    · exact h
    · exact h
  · rfl
@[simp] theorem dropPkt_flow (pid : Nat) (s : State) : (dropPkt pid s).flow = s.flow := by
  simp only [dropPkt, freeCells, settle_flow, modPkt_flow]
@[simp] theorem noteDepth_flow (q sel : Nat) (s : State) : (noteDepth q sel s).flow = s.flow := rfl
@[simp] theorem chargePending_flow (n pid : Nat) (s : State) : (chargePending n pid s).flow = s.flow := rfl

/-! What a release reaches (step 6) -/

@[simp] theorem rxEnqueue_flow (r : Nat) (f : RxFrame) (s : State) : (rxEnqueue r f s).flow = s.flow := by
  rw [rxEnqueue_eq]
@[simp] theorem toRing_flow (r source pid trunc : Nat) (s : State) : (toRing r source pid trunc s).flow = s.flow :=
  rxEnqueue_flow ..
@[simp] theorem setXfifo_flow (s : State) (p e : Nat) (l : List (Nat × QEntry)) : (setXfifo s p e l).flow = s.flow := rfl
@[simp] theorem xbarPut_flow (p q : Nat) (x : QEntry) (s : State) : (xbarPut p q x s).flow = s.flow := by
  simp only [xbarPut]; split <;> simp
@[simp] theorem dropMalformed_flow (pid : Nat) (s : State) : (dropMalformed pid s).flow = s.flow := by
  simp only [dropMalformed, dropPkt_flow]; split <;> simp
@[simp] theorem takeMeta_flow (pid : Nat) (s : State) : (takeMeta pid s).flow = s.flow := rfl
@[simp] theorem pushJob_flow (p : Nat) (j : EditJob) (s : State) : (pushJob p j s).flow = s.flow := rfl
@[simp] theorem countColour_flow (pid : Nat) (s : State) : (countColour pid s).flow = s.flow := by
  simp only [countColour]
  exact ite_flow rfl (ite_flow (by simp) (ite_flow (by simp) (by simp)))
@[simp] theorem mirrorPort_flow (q cls trunc pid : Nat) (s : State) : (mirrorPort q cls trunc pid s).flow = s.flow := by
  simp only [mirrorPort]
  exact ite_flow rfl (by simp)
@[simp] theorem mirror_flow (m pid : Nat) (s : State) : (mirror m pid s).flow = s.flow := by
  simp only [mirror]
  exact ite_flow rfl (ite_flow (by simp) (ite_flow (by simp) rfl))
@[simp] theorem awaitLine_flow (g key pid : Nat) (s : State) : (awaitLine g key pid s).flow = s.flow := by
  simp only [awaitLine]
  exact ite_flow (by simp) (ite_flow rfl (hbmRequest_flow ..))
@[simp] theorem storeCopy_flow (pid : Nat) (s : State) : (storeCopy pid s).flow = s.flow := rfl
@[simp] theorem setEngine_flow (s : State) (d : Nat) (l : List Replica) : (setEngine s d l).flow = s.flow := rfl
@[simp] theorem mcEnqueue_flow (d q mc edit pid cls : Nat) (dscp : Option Nat) (s : State) :
    (mcEnqueue d q mc edit pid cls dscp s).flow = s.flow := by
  simp only [mcEnqueue, noteDepth_flow, queueCount_flow]
  rfl
@[simp] theorem mcServe_flow (d pid cls edit : Nat) (dscp : Option Nat) (fl : Bool) (s : State) (t : Nat) :
    (mcServe d pid cls edit dscp fl s t).flow = s.flow := by
  simp only [mcServe]
  exact ite_flow rfl (ite_flow (mcEnqueue_flow ..) (by simp))
@[simp] theorem multicast_flow (grp pid cls edit : Nat) (dscp : Option Nat) (fl : Bool) (s : State) :
    (multicast grp pid cls edit dscp fl s).flow = s.flow := by
  have hserve : ∀ (d : Nat) (l : List Nat), (l.foldl (mcServe d pid cls edit dscp fl) (storeCopy pid s)).flow = s.flow :=
    fun d l => foldl_flow (fun t a => mcServe_flow d pid cls edit dscp fl t a) l _
  simp only [multicast]
  exact ite_flow (by simp) (ite_flow (ite_flow (by simp [hserve]) (hserve _ _)) (by simp))
@[simp] theorem noBackend_flow (g service : Nat) (s : State) : (noBackend g service s).flow = s.flow := by simp [noBackend]
theorem fallback_flow {c : Prop} [Decidable c] {o o' : Output} {s t : State} (h : t.flow = s.flow) :
    (if c then (o, t) else (o', t)).2.flow = s.flow := by split <;> exact h
@[simp] theorem resolveService_flow (g sel service pid : Nat) (s : State) :
    (resolveService g sel service pid s).2.flow = s.flow := by
  simp only [resolveService]
  split
  · exact fallback_flow rfl
  · split
    · rfl
    · split
      · split
        · exact fallback_flow rfl
        · rfl
      · exact fallback_flow (by simp)
@[simp] theorem routed_flow (g sel : Nat) (p : Packet) (s : State) : (routed g sel p s).2.flow = s.flow := by
  simp only [routed]; split <;> simp
@[simp] theorem chooseOutput_flow (pid : Nat) (s : State) : (chooseOutput pid s).2.flow = s.flow := by
  simp only [chooseOutput]
  split
  · rfl
  · split <;> rfl
  · split
    · rfl
    · split
      · rfl
      · rfl
      · exact resolveService_flow ..
      · split
        · exact routed_flow ..
        · rfl
@[simp] theorem route_flow (pid : Nat) (s : State) : (route pid s).flow = s.flow := by
  simp only [route]
  split <;> simp
@[simp] theorem stepSix_flow (pid : Nat) (s : State) : (stepSix pid s).flow = s.flow := by
  simp only [stepSix]
  exact ite_flow (by simp) (ite_flow (ite_flow (by simp) (by simp))
    (ite_flow (by simp) (ite_flow (by simp) (ite_flow (by simp) (ite_flow (by simp) (ite_flow (by simp) (by simp)))))))
@[simp] theorem parkPkt_flow (pid : Nat) (s : State) : (parkPkt pid s).flow = s.flow := rfl
@[simp] theorem meterAsk_flow (pid m : Nat) (s : State) : (meterAsk pid m s).flow = s.flow := rfl
@[simp] theorem releaseStep_flow (pid : Nat) (s : State) : (releaseStep pid s).flow = s.flow := by
  simp only [releaseStep]; split <;> simp
@[simp] theorem releasePkt_flow (pid : Nat) (s : State) : (releasePkt pid s).flow = s.flow := by
  simp only [releasePkt]
  exact ite_flow rfl (ite_flow rfl (ite_flow (by simp) (by simp)))

end Sys2Proof.Machine
end

section
namespace Sys2Proof.Machine

/-! ### A host insert leaves the operations and their walks alone (R174, R196, R200) -/

/-- The long-operation slots and where their walks stand. -/
def walked (s : State) : Tbl LongOp × Tbl (Nat × Nat) := (s.ctl.ops, s.flow.walks)

theorem walked_ite {c : Prop} [Decidable c] {s t u : State} (ht : walked t = walked s) (hu : walked u = walked s) :
    walked (if c then t else u) = walked s := by split <;> assumption

theorem walked_foldl {α : Type} {f : State → α → State} (h : ∀ t a, walked (f t a) = walked t) (l : List α) (s : State) :
    walked (l.foldl f s) = walked s := by
  induction l generalizing s with
  | nil => rfl
  | cons a l ih => exact (ih _).trans (h s a)

/-- What leaves the flow engine and the data plane's share of the control part alone. -/
theorem walked_of_flow {s t : State} (hs : steady t = steady s) (hf : t.flow = s.flow) : walked t = walked s := by
  rw [walked, walked, hf, ctl_of_steady hs]

theorem Flushed.walked {s t : State} (h : Flushed s t) : Machine.walked t = Machine.walked s := by rw [h]; rfl
theorem Removed.walked {s t : State} (h : Removed s t) : Machine.walked t = Machine.walked s := by rw [h]; rfl
theorem Detached.walked {s t : State} (h : Detached s t) : Machine.walked t = Machine.walked s := by rw [h]; rfl
theorem Aside.walked {s t : State} (h : Aside s t) : Machine.walked t = Machine.walked s := by rw [h]; rfl
theorem OnlyAw.walked {s t : State} (h : OnlyAw s t) : Machine.walked t = Machine.walked s := h.aside.walked
theorem Quiet.walked {s t : State} (h : Quiet s t) : Machine.walked t = Machine.walked s := by rw [h]; rfl

/-! Counters, packets and items -/

@[simp] theorem walked_count (i n u : Nat) (s : State) : walked (count i n u s) = walked s := (quiet_count ..).walked
@[simp] theorem walked_raise (c : Nat) (ps : List Nat) (s : State) : walked (raise c ps s) = walked s := (quiet_raise ..).walked
@[simp] theorem walked_raiseLimited (c i : Nat) (ps : Nat → List Nat) (s : State) : walked (raiseLimited c i ps s) = walked s :=
  (quiet_raiseLimited ..).walked
@[simp] theorem walked_noteLately (c i : Nat) (s : State) : walked (noteLately c i s) = walked s := rfl
@[simp] theorem walked_noteFailure (n c : Nat) (s : State) : walked (noteFailure n c s) = walked s := (quiet_noteFailure ..).walked
@[simp] theorem walked_holdFull (n : Nat) (s : State) : walked (holdFull n s) = walked s := (quiet_holdFull ..).walked
@[simp] theorem walked_noBackend (g v : Nat) (s : State) : walked (noBackend g v s) = walked s := (quiet_noBackend ..).walked
@[simp] theorem walked_triggerLost (s : State) : walked (triggerLost s) = walked s := by
  refine (quiet_streamLoss ..).walked.trans ?_
  exact (walked_count 0x7850 0 2 s)
@[simp] theorem walked_detect (k c : Nat) (ps : List Nat) (s : State) : walked (detect k c ps s) = walked s :=
  walked_of_flow (steady_detect ..) (detect_flow ..)
@[simp] theorem walked_modPkt (pid : Nat) (f : Packet → Packet) (s : State) : walked (modPkt pid f s) = walked s := rfl
@[simp] theorem walked_dropPkt (pid : Nat) (s : State) : walked (dropPkt pid s) = walked s :=
  walked_of_flow (steady_dropPkt ..) (dropPkt_flow ..)
@[simp] theorem walked_releasePkt (pid : Nat) (s : State) : walked (releasePkt pid s) = walked s :=
  walked_of_flow (steady_releasePkt ..) (releasePkt_flow ..)
@[simp] theorem walked_submitItem (i : Item) (s : State) : walked (submitItem i s).2 = walked s := (aside_submitItem ..).walked
@[simp] theorem walked_domainReleased (i : Item) (s : State) : walked (domainReleased i s) = walked s := by
  simp only [domainReleased]; exact walked_ite rfl rfl
@[simp] theorem walked_leaveOut (i : Item) (s : State) : walked (leaveOut i s) = walked s := by
  simp only [leaveOut]; exact walked_ite rfl rfl
@[simp] theorem walked_dropHoldItem (h : Nat) (s : State) : walked (dropHoldItem h s) = walked s := by
  unfold dropHoldItem
  refine walked_foldl (fun t k => ?_) _ s
  split
  · rw [walked_domainReleased, (onlyAw_setReady ..).walked]
  · split
    · rw [walked_domainReleased, walked_leaveOut, (onlyAw_setFront ..).walked]
    · rfl

/-! Hold entries, requests and free chains -/

@[simp] theorem walked_setHold (h : Nat) (x : Hold) (s : State) : walked (setHold h x s) = walked s := rfl
@[simp] theorem walked_delHold (h : Nat) (s : State) : walked (delHold h s) = walked s := rfl
@[simp] theorem walked_delBoth (h : Nat) (s : State) : walked (delBoth h s) = walked s := by
  simp only [delBoth]; split <;> rfl
@[simp] theorem walked_chainPush (r : Nat) (s : State) : walked (chainPush r s) = walked s := rfl
@[simp] theorem walked_putRec (r : Nat) (x : FlowRec) (s : State) : walked (putRec r x s) = walked s :=
  (recordsWritten_putRec ..).flushed.walked

theorem walked_of_chainPop {k r : Nat} {s t : State} (h : chainPop k s = some (r, t)) : walked t = walked s := by
  simp only [chainPop] at h
  split at h
  · cases h; rfl
  · split at h
    · cases h; rfl
    · exact nomatch h

theorem walked_refill (m k idle : Nat) (got : List Nat) (s : State) : walked (refill m k idle got s).2 = walked s := by
  induction m generalizing k idle got s with
  | zero => rfl
  | succ m ih =>
    rw [refill]
    split
    · rfl
    · split
      next r t h => rw [ih, walked_of_chainPop h]
      · rw [ih]

theorem walked_recordsLow (s : State) : walked (recordsLow s) = walked s := by
  simp only [recordsLow]
  exact walked_ite (walked_raise ..) rfl

theorem walked_of_drawRecord {n fuel r : Nat} {s t : State} (h : drawRecord n fuel s = some (r, t)) : walked t = walked s := by
  induction fuel generalizing s with
  | zero => exact nomatch h
  | succ m ih =>
    rw [drawRecord] at h
    split at h
    · dsimp only at h
      split at h
      · exact (ih h).trans rfl
      · cases h; rfl
    · dsimp only at h
      split at h
      · exact nomatch h
      · exact (ih h).trans ((walked_recordsLow _).trans (walked_refill ..))

/-! The index -/

@[simp] theorem walked_idxPut (l : IdxLay) (x : Nat) (v : BitVec 64) (s : State) : walked (idxPut l x v s) = walked s := by
  simp only [idxPut]
  exact walked_ite (walked_count ..) (walked_ite rfl rfl)

theorem walked_of_displace {l : IdxLay} (n : Nat) {d b : Nat} {hand : BitVec 64} {s t : State}
    (h : displace l n d b hand s = some t) : walked t = walked s := by
  induction n generalizing d b hand s with
  | zero => exact nomatch h
  | succ n ih =>
    unfold displace at h
    dsimp only at h
    split at h
    · exact nomatch h
    next k _ =>
      generalize (if slAlt (idxGet s l (8 * b + d % 8)) = true then (layBuckets l k).headD 0
        else (layBuckets l k).getD 1 ((layBuckets l k).headD 0)) = other at h
      split at h
      · exact nomatch h
      · split at h
        · cases h
          rw [walked_idxPut, walked_idxPut]
        · rw [ih h, walked_idxPut]

theorem walked_of_idxInsert {l : IdxLay} {k : BitVec 384} {r d : Nat} {s t : State} (h : idxInsert l k r d s = .inr t) :
    walked t = walked s := by
  unfold idxInsert at h
  dsimp only at h
  split at h
  · exact nomatch h
  · split at h
    · cases h; exact walked_idxPut ..
    · split at h
      · exact nomatch h
      · split at h
        next u hu => cases h; exact walked_of_displace 16 hu
        · exact nomatch h

theorem walked_of_idxAdd {k : BitVec 384} {r d : Nat} {s t : State} (h : idxAdd k r d s = .inr t) : walked t = walked s := by
  unfold idxAdd at h
  split at h
  · exact walked_of_idxInsert h
  · split at h
    · exact nomatch h
    next u hu =>
      split at h
      next v hv => cases h; exact (walked_of_idxInsert hv).trans (walked_of_idxInsert hu)
      · cases h
        exact (walked_of_idxInsert hu : _)
  · exact nomatch h

theorem walked_of_writeIndex {r : Nat} {k : BitVec 384} {rk : Option (BitVec 384)} {s t : State}
    (h : writeIndex r k rk s = .inr t) : walked t = walked s := by
  unfold writeIndex at h
  dsimp only at h
  split at h
  · exact nomatch h
  next u hu =>
    have h1 : walked u = walked s := by
      split at hu
      · cases hu; rfl
      · exact walked_of_idxAdd hu
    split at h
    · exact nomatch h
    next v hv => cases h; exact (walked_of_idxAdd hv).trans h1

/-! Lines -/

@[simp] theorem walked_setLine (x : Nat) (l : Line) (s : State) : walked (setLine x l s) = walked s := rfl
@[simp] theorem walked_dropLine (x : Nat) (s : State) : walked (dropLine x s) = walked s := rfl
@[simp] theorem walked_setWb (s : State) (n : Nat) (l : List WbEntry) : walked (setWb s n l) = walked s := rfl
@[simp] theorem walked_touch (x : Nat) (s : State) : walked (touch x s) = walked s := by
  simp only [touch]; split <;> rfl
@[simp] theorem walked_foldLine (n x : Nat) (s : State) : walked (foldLine n x s) = walked s := (flushed_foldLine ..).walked
@[simp] theorem walked_evict (n x : Nat) (s : State) : walked (evict n x s) = walked s := (flushed_evict ..).walked
@[simp] theorem walked_install (n set : Nat) (l : Line) (s : State) : walked (install n set l s).2 = walked s := by
  unfold install
  dsimp only
  split
  · split
    · rfl
    · exact (walked_evict ..).trans (walked_evict ..)
  · split
    · rfl
    · split
      · exact (walked_evict ..).trans (walked_evict ..)
      · exact walked_evict ..
@[simp] theorem walked_installPrimary (n r : Nat) (x : FlowRec) (s : State) : walked (installPrimary n r x s).2 = walked s := by
  unfold installPrimary
  split
  · rfl
  · exact walked_install ..
@[simp] theorem walked_installLink (n r home : Nat) (x : FlowRec) (rk : BitVec 384) (s : State) :
    walked (installLink n r home x rk s) = walked s := by
  unfold installLink
  split
  · rfl
  · exact walked_install ..

/-! Lookups served -/

@[simp] theorem walked_overflow (pid : Nat) (s : State) : walked (overflow pid s) = walked s := by
  unfold overflow
  dsimp only
  rw [walked_raiseLimited, walked_noteLately, walked_count, walked_modPkt]
@[simp] theorem walked_tcpSegment (n : Nat) (t : BitVec 512) (w : BitVec 128) (rev : Bool) (g : Segment) (s : State) :
    walked (tcpSegment n t w rev g s).2.2 = walked s := by
  unfold tcpSegment
  dsimp only
  split
  · exact walked_count ..
  · exact walked_ite (walked_count ..) rfl
@[simp] theorem walked_serveHit (n x pid flow : Nat) (s : State) : walked (serveHit n x pid flow s) = walked s := by
  unfold serveHit
  dsimp only
  split
  next l0 k _ _ =>
    generalize hs1 : touch (if l0.link then l0.home else x) (if l0.link then touch x s else s) = s1
    have h1 : walked s1 = walked s := by
      rw [← hs1, walked_touch]
      exact walked_ite (walked_touch ..) rfl
    split
    · rfl
    · rw [walked_modPkt, walked_setLine, ← h1]
      split
      · rw [walked_tcpSegment]
        split
        · exact walked_ite (walked_foldLine ..) rfl
        · rfl
      · dsimp only
        split
        · exact walked_ite (walked_foldLine ..) rfl
        · rfl
  · rfl
@[simp] theorem walked_askMeter (pid : Nat) (s : State) : walked (askMeter pid s) = walked s := by
  unfold askMeter
  split
  · exact walked_ite rfl rfl
  · rfl
@[simp] theorem walked_serveRelease (n x flow pid : Nat) (s : State) : walked (serveRelease n x flow pid s) = walked s :=
  (walked_askMeter pid _).trans (walked_serveHit ..)
@[simp] theorem walked_lineToServe (n r : Nat) (k : BitVec 384) (s : State) : walked (lineToServe n r k s).2 = walked s := by
  unfold lineToServe
  split
  · rfl
  · dsimp only
    split
    · split
      · exact (walked_installLink ..).trans (walked_installPrimary ..)
      · exact walked_installPrimary ..
    · exact walked_installPrimary ..
@[simp] theorem walked_handOff (n x pid e : Nat) (behind : List Nat) (s : State) : walked (handOff n x pid e behind s).2 = walked s := by
  unfold handOff
  dsimp only
  split
  · rfl
  · split
    · rw [walked_setHold, walked_modPkt, walked_submitItem]
    · exact walked_submitItem ..
@[simp] theorem walked_serveChain (n r flow : Nat) (k : BitVec 384) (chain : List Nat) (s : State) :
    walked (serveChain n r flow k chain s) = walked s := by
  induction chain generalizing s with
  | nil => rfl
  | cons pid rest ih =>
    unfold serveChain
    split
    · rw [ih, walked_dropPkt]
    · dsimp only
      split
      · rw [ih, walked_releasePkt, walked_overflow, walked_lineToServe]
      next x _ =>
        have h1 : walked (count 0x4020 n 0 (lineToServe n r k s).2) = walked s := by rw [walked_count, walked_lineToServe]
        have hgo : ∀ (h : Bool × State) (mark : Nat), walked h.2 = walked s → walked (if h.1 then h.2
            else serveChain n r flow k rest (releasePkt pid (serveRelease n x mark pid h.2))) = walked s := by
          intro h mark h2
          split
          · exact h2
          · rw [ih, walked_releasePkt, walked_serveRelease, h2]
        refine hgo _ _ ?_
        split
        · split
          · exact h1
          · exact (walked_handOff ..).trans h1
        · exact h1

@[simp] theorem walked_lookupHit (n x pid : Nat) (s : State) : walked (lookupHit n x pid s) = walked s := by
  unfold lookupHit
  dsimp only
  split
  · refine (walked_ite (s := (handOff n x pid _ [] (count 0x4020 n 0 s)).2) rfl ?_).trans ?_
    · rw [walked_askMeter, walked_serveHit]
    · rw [walked_handOff, walked_count]
  · rw [walked_askMeter, walked_serveHit, walked_count]

@[simp] theorem walked_loseLine (n x : Nat) (readable : Bool) (s : State) : walked (loseLine n x readable s) = walked s := by
  unfold loseLine
  split
  · rfl
  · dsimp only
    rw [walked_detect, walked_count, walked_dropLine]
    split <;> rfl

@[simp] theorem walked_joinChain (h pid : Nat) (x : Hold) (s : State) : walked (joinChain h pid x s) = walked s := by
  unfold joinChain
  exact walked_ite ((walked_overflow ..).trans (walked_count ..)) rfl

@[simp] theorem walked_lookupMiss (n pid : Nat) (k : BitVec 384) (s : State) : walked (lookupMiss n pid k s) = walked s := by
  unfold lookupMiss
  dsimp only
  split
  · rw [walked_overflow, walked_holdFull]
  · split
    · exact walked_overflow ..
    · split <;> rfl

theorem walked_of_reinstall {n i x : Nat} {k : BitVec 384} {s t : State} (h : reinstall n i k s = some (x, t)) :
    walked t = walked s := by
  unfold reinstall at h
  split at h
  · exact nomatch h
  · dsimp only at h
    have ht := congrArg Prod.snd (Option.some.inj h)
    dsimp only at ht
    rw [← ht, walked_install, (flushed_foldsGoOn ..).walked, (flushed_issueReads ..).walked, walked_setWb]

/-- A lookup without a hold entry, once its line is known to stand or not. -/
def lookupFound (n pid : Nat) (k : BitVec 384) (s : State) : State :=
  match lineFind s n k with
  | some x => lookupHit n x pid s
  | none =>
    match (wbMatch s n k).bind fun i => reinstall n i k s with
    | some (x, t) => lookupHit n x pid (count 0x4020 n 5 t)
    | none => lookupMiss n pid k (count 0x4011 (pkt s pid).pipe 0 s)

theorem walked_lookupFound (n pid : Nat) (k : BitVec 384) (s : State) : walked (lookupFound n pid k s) = walked s := by
  unfold lookupFound
  split
  · exact walked_lookupHit ..
  · split
    next x t ht =>
      obtain ⟨i, -, hi⟩ := Option.bind_eq_some_iff.mp ht
      rw [walked_lookupHit, walked_count, walked_of_reinstall hi]
    · rw [walked_lookupMiss, walked_count]

theorem walked_lookupOne (n pid lost : Nat) (k : BitVec 384) (s : State) : walked (lookupOne n pid lost k s) = walked s := by
  unfold lookupOne
  split
  · split
    · rw [walked_joinChain]
      exact walked_ite rfl (walked_count ..)
    · rfl
  · refine (walked_lookupFound n pid k _).trans ?_
    split
    · refine walked_ite (walked_loseLine ..) ?_
      split
      · exact walked_ite rfl rfl
      · rfl
    · rfl

@[simp] theorem walked_lookupServe (n lost pid : Nat) (s : State) : walked (lookupServe n lost pid s) = walked s := by
  unfold lookupServe
  dsimp only
  split
  · rfl
  · exact walked_ite rfl (walked_lookupOne ..)

/-! Chains that fail, setups and ageing -/

@[simp] theorem walked_failOne (n : Nat) (t : BitVec 512) (pid : Nat) (s : State) : walked (failOne n t pid s) = walked s := by
  unfold failOne
  dsimp only
  split <;> exact walked_count ..

theorem walked_releaseAll {f : Nat → State → State} (hf : ∀ pid t, walked (f pid t) = walked t) (chain : List Nat) (s : State) :
    walked (releaseAll f chain s) = walked s :=
  walked_foldl (fun t pid => walked_ite (walked_dropPkt ..) ((walked_releasePkt ..).trans (hf pid t))) chain s

@[simp] theorem walked_failChain (n : Nat) (t : BitVec 512) (chain : List Nat) (s : State) : walked (failChain n t chain s) = walked s :=
  walked_releaseAll (fun pid u => walked_failOne n t pid u) chain s

@[simp] theorem walked_insertFail (h cause : Nat) (s : State) : walked (insertFail h cause s) = walked s := by
  unfold insertFail
  split
  · rfl
  · dsimp only
    rw [walked_failChain, walked_noteFailure, walked_delBoth]
    split <;> rfl

@[simp] theorem walked_setupRoutine (h : Nat) (t : BitVec 512) (k : BitVec 384) (pid e : Nat) (s : State) :
    walked (setupRoutine h t k pid e s) = walked s := by
  unfold setupRoutine
  exact walked_ite (walked_submitItem ..) ((walked_insertFail ..).trans (walked_submitItem ..))

@[simp] theorem walked_fallBack (h fall : Nat) (s : State) : walked (fallBack h fall s) = walked s :=
  (walked_releaseAll (fun _ _ => walked_modPkt ..) ..).trans (walked_delBoth ..)

@[simp] theorem walked_setupHardware (h tn : Nat) (t : BitVec 512) (k : BitVec 384) (pid : Nat) (s : State) :
    walked (setupHardware h tn t k pid s) = walked s := by
  unfold setupHardware
  dsimp only
  split
  next r s1 x hd _ =>
    rw [← walked_of_drawRecord hd]
    split
    · split
      · rfl
      · rw [walked_fallBack, walked_chainPush]
        exact walked_ite (walked_noBackend ..) rfl
    · split
      · rw [walked_insertFail, walked_setHold]
      · rw [walked_insertFail, walked_setHold]
      · split
        · rw [walked_insertFail, walked_setHold, walked_holdFull]
        · rfl
    · rfl
  · exact walked_insertFail ..

@[simp] theorem walked_enterSetup (h : Nat) (s : State) : walked (enterSetup h s) = walked s := by
  unfold enterSetup
  split
  · rfl
  · split
    · rfl
    · dsimp only
      refine walked_ite ?_ ?_
      · rw [walked_failChain, walked_count]; rfl
      · split
        · rw [walked_setupHardware]; rfl
        · rw [walked_setupHardware]; rfl
        · rw [walked_setupHardware]; rfl
        · rw [walked_setupRoutine]; rfl
        · rw [walked_failChain, walked_count]; rfl

@[simp] theorem walked_startTrigger (n r : Nat) (x : FlowRec) (s : State) : walked (startTrigger n r x s) = walked s := by
  unfold startTrigger
  exact walked_ite (walked_ite (walked_submitItem ..) ((walked_triggerLost ..).trans (walked_submitItem ..))) rfl

@[simp] theorem walked_setupRelease (h c : Nat) (s : State) : walked (setupRelease h c s) = walked s := by
  unfold setupRelease
  split
  · rfl
  · split
    · rfl
    · dsimp only
      rw [walked_startTrigger, walked_count]
      split
      · rw [walked_serveChain, walked_serveChain, walked_delBoth]
      · rw [walked_serveChain, walked_delBoth]

@[simp] theorem walked_flowRemove (r reason : Nat) (s : State) : walked (flowRemove r reason s) = walked s := by
  cases hx : flowRec s r with
  | none => rw [flowRemove, flowEnd]; simp only [hx]
  | some x => exact (flowEnded_flowEnd hx reason _).frame.walked

@[simp] theorem walked_ageServe (n : Nat) (s : State) : walked (ageServe n s) = walked s := by
  unfold ageServe
  split
  · rfl
  · split
    · rfl
    · dsimp only
      split
      · rfl
      · exact walked_ite rfl (walked_flowRemove ..)

theorem walked_drainSlice (n m : Nat) (s : State) : walked (drainSlice n m s) = walked s := by
  induction m generalizing s with
  | zero => rfl
  | succ m ih =>
    unfold drainSlice
    split
    · rw [ih, walked_lookupServe]
    · exact walked_ite rfl ((ih _).trans (walked_ageServe ..))

@[simp] theorem walked_sliceDrain (n : Nat) (s : State) : walked (sliceDrain n s) = walked s :=
  walked_ite rfl (walked_drainSlice ..)

/-! The insert as a whole -/

@[simp] theorem walked_finishKey (k : BitVec 384) (s : State) : walked (finishKey k s) = walked s := by
  unfold finishKey
  dsimp only
  rw [← walked_sliceDrain (homeSlice s k) s]
  split
  · rfl
  · split
    · rfl
    · exact walked_ite (walked_setupRelease ..) (walked_ite (walked_enterSetup ..) rfl)

@[simp] theorem walked_refetch (h : Nat) (s : State) : walked (refetch h s) = walked s := by
  unfold refetch
  split
  · rfl
  · exact walked_ite rfl rfl

@[simp] theorem walked_preempt (r : Nat) (k : BitVec 384) (s : State) : walked (preempt r k s) = walked s := by
  unfold preempt
  dsimp only
  split
  · rfl
  next h _ =>
    split
    · rfl
    next x _ =>
      generalize (if x.reverse = true then x.other.getD h else h) = own
      refine walked_ite rfl ?_
      have h1 : walked (if x.state = 3 then count 0x4040 (homeSlice s k) 4 (dropHoldItem own s) else s) = walked s :=
        walked_ite ((walked_count ..).trans (walked_dropHoldItem ..)) rfl
      generalize (if x.state = 3 then count 0x4040 (homeSlice s k) 4 (dropHoldItem own s) else s) = s1 at h1
      rw [walked_serveChain, ← h1]
      split
      · rw [walked_refetch, walked_delHold]
        split <;> rfl
      · rw [walked_delHold]
        split <;> rfl

/-- A host insert of a stored image, once its keys' requests are served: s0 before that, s after it. -/
def insertServed (x : FlowRec) (rk : Option (BitVec 384)) (s0 s : State) : Nat × Nat × Nat × State :=
  let n := homeSlice s x.key
  if bf x.st 127 124 ≠ 2 then (2, 0x0503, 0, s0)
  else if (idxFind s x.key).isSome || (rk.map fun k => (idxFind s k).isSome).getD false then (2, 0x0501, 0, s)
  else if (rk.map fun k => homeSlice s k != n).getD false then (2, 0x0502, 0, s)
  else match drawRecord n (drawFuel s) s with
    | none => (5, 2, 0, count 0x4041 n 2 s)
    | some (r, s1) =>
      match writeIndex r x.key rk (putRec r x s1) with
      | .inl c => (5, c, 0, count 0x4041 n c (chainPush r s1))
      | .inr s2 =>
        let s3 := preempt r x.key s2
        (0, 0, r, match rk with
          | some k => preempt r k s3
          | none => s3)

theorem walked_insertServed (x : FlowRec) (rk : Option (BitVec 384)) {s0 s : State} (hs : walked s = walked s0) :
    walked (insertServed x rk s0 s).2.2.2 = walked s0 := by
  unfold insertServed
  dsimp only
  split
  · rfl
  · split
    · exact hs
    · split
      · exact hs
      · split
        · exact (walked_count ..).trans hs
        next r s1 hd =>
          split
          · rw [walked_count, walked_chainPush, walked_of_drawRecord hd, hs]
          next s2 hw =>
            have h2 : walked s2 = walked s0 := by rw [walked_of_writeIndex hw, walked_putRec, walked_of_drawRecord hd, hs]
            dsimp only
            split
            · rw [walked_preempt, walked_preempt, h2]
            · rw [walked_preempt, h2]

theorem walked_hostInsert (img : FlowRec) (s : State) : walked (hostInsert img s).2.2.2 = walked s := by
  refine walked_insertServed (storedImage img) (recReverse s (storedImage img)) (s0 := s) ?_
  split
  · rw [walked_finishKey, walked_finishKey]
  · rw [walked_finishKey]

end Sys2Proof.Machine
end

section
namespace Sys2Proof.Machine

/-! ### A load takes a record (R200, R202) -/

/-- The bytes of a load's next record: of its window source in HBM, or as its host-memory source holds them. -/
def loadBytes (s : State) (n : Nat) (o : LongOp) (data : Bytes) : Bytes :=
  let b := Config.loadBlock o.params
  let size := if b.2.2.2 = 1 then 96 else 128
  padTo size (if b.1 then hbmRead s (b.2.1 + size * (walkAt s n).1) size else data)

/-- The load of slot n takes no record now: it loads no flows, it has them all, or a SUSPEND waits for it here. -/
def loadHeld (s : State) (n : Nat) (o : LongOp) : Prop :=
  Config.opTable 3 o.params ≠ 0x10 ∨ (Config.loadBlock o.params).2.2.1 ≤ (walkAt s n).1 ∨
    (o.suspendAsked = true ∧ (walkAt s n).1 % 4096 = 0 ∧ o.done < (walkAt s n).1)

theorem quiet_loadRefused (n st d : Nat) (s : State) : Quiet s (loadRefused n st d s) := by
  unfold loadRefused
  exact ((quiet_count ..).trans (quiet_noteLately ..)).trans (quiet_raiseLimited ..)

/-- The state after an insert of a load: its refusal is counted. -/
def insertNoted (n : Nat) (r : Nat × Nat × Nat × State) : State :=
  if r.1 = 0 then r.2.2.2 else loadRefused n r.1 r.2.1 r.2.2.2

theorem quiet_insertNoted (n : Nat) (r : Nat × Nat × Nat × State) : Quiet r.2.2.2 (insertNoted n r) := by
  unfold insertNoted
  split
  · exact .refl _
  · exact quiet_loadRefused ..

theorem walkAt_setWalk (n : Nat) (w : Nat × Nat) (s : State) : walkAt (setWalk n w s) n = w :=
  congrArg (Option.getD · (0, 0)) (tfind_tput_same _ _ _)

section
variable {s : State} {n : Nat} {o : LongOp} (ho : workingOp s n = some o) (hk : o.kind = 3) (hf : flowHalted s = false) (data : Bytes)
include ho hk hf

omit hk hf in
theorem execLoadRecord_held (h : loadHeld s n o) : exec (.loadRecord n data) s = .next s := by
  change execLoadRecord n data s = _
  unfold execLoadRecord loadRecord
  rw [ho]
  dsimp only
  rw [if_pos]
  rcases h with h | h | h
  · exact .inr (.inl h)
  · exact .inr (.inr (.inl h))
  · exact .inr (.inr (.inr (.inr h)))

omit ho in
/-- The model's test of a load that takes no record. -/
theorem not_loadPassed (h : ¬ loadHeld s n o) : ¬ (o.kind ≠ 3 ∨ Config.opTable 3 o.params ≠ 0x10 ∨
    (Config.loadBlock o.params).2.2.1 ≤ (walkAt s n).1 ∨ flowHalted s = true ∨
    (o.suspendAsked = true ∧ (walkAt s n).1 % 4096 = 0 ∧ o.done < (walkAt s n).1)) := by
  rintro (h' | h' | h' | h' | h')
  · exact h' hk
  · exact h (.inl h')
  · exact h (.inr (.inl h'))
  · rw [hf] at h'; exact nomatch h'
  · exact h (.inr (.inr h'))

theorem execLoadRecord_insert (h : ¬ loadHeld s n o) (hv : (Config.loadBlock o.params).2.2.2 ≠ 1) :
    exec (.loadRecord n data) s = .next (opProgress n ((walkAt s n).1 + 1)
      (((walkAt s n).1 + 1) % 4096 == 0 || (walkAt s n).1 + 1 == (Config.loadBlock o.params).2.2.1)
      (insertNoted n (hostInsert (recOfBytes (loadBytes s n o data)) (setWalk n ((walkAt s n).1 + 1, 0) s)))) := by
  have hv' : ((Config.loadBlock o.params).2.2.2 == 1) = false := beq_false_of_ne hv
  change execLoadRecord n data s = _
  unfold execLoadRecord loadRecord loadBytes
  rw [ho]
  dsimp only
  rw [if_neg (not_loadPassed hk hf h), hv', if_neg hv, if_neg Bool.false_ne_true, if_neg Bool.false_ne_true]
  rfl

theorem execLoadRecord_item (h : ¬ loadHeld s n o) (hv : (Config.loadBlock o.params).2.2.2 = 1) :
    exec (.loadRecord n data) s = .next (if classRefuses s 3 then s
      else (submitItem { newItem (setWalk n ((walkAt s n).1 + 1, 0) s) 11 5 1 with
          data := n + 16 * o.order
          bytes := loadBytes s n o data } (setWalk n ((walkAt s n).1 + 1, 0) s)).2) := by
  have hv' : ((Config.loadBlock o.params).2.2.2 == 1) = true := beq_iff_eq.mpr hv
  change execLoadRecord n data s = _
  unfold execLoadRecord loadRecord loadBytes
  rw [ho]
  dsimp only
  rw [if_neg (not_loadPassed hk hf h), hv', if_pos hv, if_pos rfl, if_pos rfl]

/-- A version 2 record is inserted as a host WRITE, or its refusal counted. -/
theorem loadRecord_inserted (h : ¬ loadHeld s n o) (hv : (Config.loadBlock o.params).2.2.2 ≠ 1) :
    let i := (walkAt s n).1
    let r := hostInsert (recOfBytes (loadBytes s n o data)) (setWalk n (i + 1, 0) s)
    ∃ t, exec (.loadRecord n data) s = .next t ∧ walkAt t n = (i + 1, 0) ∧
      (tfind t.ctl.ops n).map (·.done) = some (i + 1) ∧ t.flow = r.2.2.2.flow ∧
      (r.1 = 0 → t.cnt = r.2.2.2.cnt) ∧ (r.1 ≠ 0 → t.cnt = (loadRefused n r.1 r.2.1 r.2.2.2).cnt) := by
  dsimp only
  rw [execLoadRecord_insert ho hk hf data h hv]
  have hw := walked_hostInsert (recOfBytes (loadBytes s n o data)) (setWalk n ((walkAt s n).1 + 1, 0) s)
  generalize hostInsert (recOfBytes (loadBytes s n o data)) (setWalk n ((walkAt s n).1 + 1, 0) s) = r at hw
  obtain ⟨hops, hwalks⟩ := Prod.mk.inj hw
  have hq := quiet_insertNoted n r
  have hu : tfind (insertNoted n r).ctl.ops n = some o := by
    rw [hq.ctl, hops]; exact tfind_of_workingOp ho
  rw [opProgress_eq hu]
  refine ⟨_, rfl, ?_, by rw [tfind_setOp_same]; rfl, hq.flow, fun h0 => ?_, fun h0 => ?_⟩
  · show tget (0, 0) (insertNoted n r).flow.walks n = _
    rw [hq.flow, hwalks]
    exact walkAt_setWalk ..
  · show (insertNoted n r).cnt = _
    rw [insertNoted, if_pos h0]
  · show (insertNoted n r).cnt = _
    rw [insertNoted, if_neg h0]

/-- A version 1 record goes to LOAD_V1, or waits. -/
theorem loadRecord_handed (h : ¬ loadHeld s n o) (hv : (Config.loadBlock o.params).2.2.2 = 1) (hc : classRefuses s 3 = false) :
    let i := (walkAt s n).1
    ∃ t x, exec (.loadRecord n data) s = .next t ∧ walkAt t n = (i + 1, 0) ∧
      readyItems t 3 = readyItems s 3 ++ [x] ∧ x.routine = 11 ∧ x.data = n + 16 * o.order ∧ x.bytes = loadBytes s n o data ∧
      t.flow = { s.flow with walks := t.flow.walks } ∧ t.ctl = s.ctl ∧ t.path = s.path := by
  dsimp only
  rw [execLoadRecord_item ho hk hf data h hv, if_neg (by rw [hc]; decide)]
  have hc' : classRefuses (setWalk n ((walkAt s n).1 + 1, 0) s) 3 = false :=
    (classRefuses_congr (s := s) (t := setWalk n ((walkAt s n).1 + 1, 0) s) ⟨rfl, rfl, rfl⟩ rfl 3).trans hc
  have hwalk := walkAt_setWalk n ((walkAt s n).1 + 1, 0) s
  have hz : setWalk n ((walkAt s n).1 + 1, 0) s = { s with
      flow := { s.flow with walks := (setWalk n ((walkAt s n).1 + 1, 0) s).flow.walks } } := rfl
  generalize setWalk n ((walkAt s n).1 + 1, 0) s = z at hc' hwalk hz
  obtain ⟨q, c, w, t, hsub, hready, hframe, -⟩ := submitItem_taken (i := { newItem z 11 5 1 with
    data := n + 16 * o.order
    bytes := loadBytes s n o data }) hc'
  rw [hsub]
  have hz3 : readyItems z 3 = readyItems s 3 := by rw [readyItems, hz]; rfl
  change readyItems t 3 = readyItems z 3 ++ _ at hready
  rw [hz3] at hready
  refine ⟨t, _, rfl, ?_, hready, rfl, rfl, rfl, ?_, ?_, ?_⟩
  · rw [walkAt, hframe]; exact hwalk
  · rw [hframe, hz]
  · rw [hframe, hz]
  · rw [hframe, hz]

end

end Sys2Proof.Machine
end

section
namespace Sys2Proof.Machine

/-! ### O22 (REHASH, resizing, walks and the slices' banks) -/

theorem rehashSwitch_switched {s : State} {r : Rehash} {o : LongOp} (hr : s.flow.rehash = some r) (ho : workingOp s r.op = some o)
    (hp : r.phase = 1) (hf : flowHalted s = false) :
    ∃ t, exec .rehashSwitch s = .next t ∧ t.flow.index = s.flow.index2 ∧ t.flow.index2 = [] ∧
      t.flow.rehash = some { r with phase := 2, since := raw s, newOnly := [] } ∧
      (∀ i ∈ [1, 2, 3, 4, 5], flowSeed t i = r.seeds.getD (i - 1) 0) ∧
      (∀ n pid k, pid ∈ sliceReqs s n → (pkt s pid).key = some k → pid ∈ sliceReqs t (homeSlice t k)) ∧
      (seedsMove r = true → t.ctl = { s.ctl with stopped := s.ctl.stopped ++ [(Fn.flowEngine, raw s)] }) ∧
      (seedsMove r = false → t.ctl = s.ctl) ∧ t.flow.records = s.flow.records ∧ t.flow.lines = s.flow.lines ∧ t.path = s.path := by
  rw [execRehashSwitch_done hr ho hp hf]
  have hfacts := switched_facts r s
  have heq := switched_eq r s
  generalize restartFetches (rehome (layoutSwitched r s)) = u at hfacts heq
  have hctl : u.ctl = s.ctl := by rw [heq]
  have hkept : u.flow.records = s.flow.records ∧ u.flow.lines = s.flow.lines ∧ u.path = s.path := by
    rw [heq]; exact ⟨rfl, rfl, rfl⟩
  cases hm : seedsMove r with
  | true =>
    obtain ⟨h1, h2, h3, h4, h5⟩ := hfacts { u.ctl with stopped := u.ctl.stopped ++ [(Fn.flowEngine, raw s)] }
    rw [if_pos rfl]
    exact ⟨_, rfl, h1, h2, h3, h4, h5, fun _ => by rw [← hctl]; rfl, (nomatch ·), hkept⟩
  | false =>
    obtain ⟨h1, h2, h3, h4, h5⟩ := hfacts u.ctl
    rw [if_neg Bool.false_ne_true]
    exact ⟨u, rfl, h1, h2, h3, h4, h5, (nomatch ·), fun _ => hctl, hkept⟩

/-- A shrink moves its window's one record to the drawn index (R193). -/
theorem resizeStep_moved {s : State} {z : Resize} {o : LongOp} {r q : Nat} {rest : List Nat} {x : FlowRec}
    (hz : s.flow.resize = some z) (ho : workingOp s z.op = some o) (hf : flowHalted s = false) (hn : z.next < o.total)
    (hp : z.part = 0) (hsh : z.size * gb < partSize s 0) (hw : inWrites s r = none) (hx : flowRec s r = some x)
    (hrs : (s.flow.records.filter fun e => decide (z.size * 2 ^ 23 + z.next ≤ e.1) &&
      decide (e.1 < z.size * 2 ^ 23 + z.next + 65536)).map (·.1) = [r])
    (hd : tget [] s.flow.drawn (homeSlice s x.key) = q :: rest) (hq : q < drawLimit s) (hqz : q < z.size * 2 ^ 23)
    (hg : recGone s q = false) (hs : tsorted s.flow.records = true)
    (hreq : sliceReqs s (homeSlice s x.key) = []) (hage : tget [] s.flow.ageQ (homeSlice s x.key) = []) :
    ∃ t, exec .resizeStep s = .next t ∧ flowRec t q = some x ∧ flowRec t r = none ∧
      (∀ j, j ≠ q → j ≠ r → flowRec t j = flowRec s j) ∧
      (∀ y, tget 0 t.flow.index y = slotMoved r q (tget 0 s.flow.index y)) ∧
      (∀ y l, lineAt s y = some l → lineAt t y = some (lineMoved r q l)) ∧
      tget [] t.flow.chains (r % 16) = r :: tget [] s.flow.chains (r % 16) ∧
      t.flow.resize = some { z with next := z.next + 65536 } ∧ t.path = s.path := by
  have hne : q ≠ r := by
    have hr : r ∈ (s.flow.records.filter fun e => decide (z.size * 2 ^ 23 + z.next ≤ e.1) &&
        decide (e.1 < z.size * 2 ^ 23 + z.next + 65536)).map (·.1) := by rw [hrs]; exact List.mem_singleton_self r
    obtain ⟨e, he, rfl⟩ := List.mem_map.mp hr
    have hle := (List.mem_filter.mp he).2
    simp only [Bool.and_eq_true, decide_eq_true_eq] at hle
    omega
  rw [execResizeStep_move hz ho hf hn hp hsh hw hx hrs hd hq hg hreq hage]
  obtain ⟨h1, h2, h3, h4, h5, h6⟩ := recordRelocated_facts (x := x) (n := homeSlice s x.key) (rest := rest) hg hne hs
  have hpath := recordRelocated_path r q x (afterDraw (homeSlice s x.key) rest s)
  have hctl := recordRelocated_ctl r q x (afterDraw (homeSlice s x.key) rest s)
  generalize recordRelocated r q x (afterDraw (homeSlice s x.key) rest s) = u at h1 h2 h3 h4 h5 h6 hpath hctl
  have hou : tfind u.ctl.ops z.op = some o := by rw [hctl]; exact tfind_of_workingOp ho
  rw [resizeTo_eq hou]
  exact ⟨_, rfl, h1, h2, h3, h4, h5, h6, rfl, hpath⟩

/-- Another region moves by one MB (R346). -/
theorem resizeStep_copied {s : State} {z : Resize} {o : LongOp} (hz : s.flow.resize = some z) (ho : workingOp s z.op = some o)
    (hf : flowHalted s = false) (hn : z.next < o.total) (h2 : 2 ≤ z.part) (h4 : z.part ≤ 4) (hwf : Memory.wf s.hbm.mem = true)
    (hpc : ∀ i, pcRetired s i = false) {src dst : Nat} (hsrc : src = partBase s z.part + z.next * 2 ^ 20)
    (hdst : dst = z.base + z.next * 2 ^ 20) (hap : src + 2 ^ 20 ≤ dst ∨ dst + 2 ^ 20 ≤ src) :
    ∃ t, exec .resizeStep s = .next t ∧ t.flow = { s.flow with resize := some { z with next := z.next + 1 } } ∧
      (∀ k, k < 2 ^ 20 → readByte t.hbm.mem (dst + k) = readByte s.hbm.mem (src + k) ∧ readByte t.hbm.mem (src + k) = 0) ∧
      (∀ a, (a < src ∨ src + 2 ^ 20 ≤ a) → (a < dst ∨ dst + 2 ^ 20 ≤ a) → readByte t.hbm.mem a = readByte s.hbm.mem a) ∧
      t.path = s.path := by
  obtain ⟨p, hexec⟩ := execResizeStep_mb hz ho hf hn h2 h4
  rw [← hsrc, ← hdst] at hexec
  obtain ⟨hin, hout⟩ := readByte_moveMb hwf hpc hap
  have hframe := moveMb_eq src dst s
  generalize moveMb src dst s = u at hexec hin hout hframe
  have hou : tfind u.ctl.ops z.op = some o := by rw [hframe]; exact tfind_of_workingOp ho
  rw [resizeTo_eq hou] at hexec
  refine ⟨_, hexec, ?_, hin, hout, ?_⟩
  · show { u.flow with resize := some { z with next := z.next + 1 } } = _
    rw [hframe]
  · show u.path = _
    rw [hframe]

end Sys2Proof.Machine
end

section
namespace Sys2Proof.Machine

/-- A dump's visit of one record (R198). -/
theorem flowWalk_dumpCases {s : State} {n cnt r : Nat} {o : LongOp} {m : FlowRec} (ho : workingOp s n = some o)
    (hf : flowHalted s = false) (hsus : o.suspendAsked = false) (hw : inWrites s r = none) (hg : recGone s r = false)
    (hm : mergedRec s r = some m) (hq : sliceReqs s (homeSlice s m.key) = []) (ha : tget [] s.flow.ageQ (homeSlice s m.key) = [])
    (hrs : (s.flow.records.filter fun e => decide ((walkAt s n).1 ≤ e.1) &&
      decide (e.1 < min s.flow.nr ((walkAt s n).1 + cnt))).map (·.1) = [r])
    (hk : o.kind = 4) (ht : Config.opTable 4 o.params = 0x10) : let t := flowWalk n cnt s
    let b := Config.dumpBlock o.params
    t.flow.records = s.flow.records ∧ t.path = s.path ∧
      (walkMatches s b.1 m = false → t.host = s.host ∧ t.hbm = s.hbm ∧
        walkAt t n = (min s.flow.nr ((walkAt s n).1 + cnt), (walkAt s n).2)) ∧
      (walkMatches s b.1 m = true → (walkAt s n).2 + 128 ≤ b.2.2.2 →
        walkAt t n = (min s.flow.nr ((walkAt s n).1 + cnt), (walkAt s n).2 + 128) ∧
        (tfind t.ctl.ops n).map (·.written) = some ((walkAt s n).2 + 128) ∧
        (b.2.1 = false → t.host.mem = writeBytes s.host.mem (b.2.2.1 + (walkAt s n).2) (recBytes m)) ∧
        (b.2.1 = true → t.hbm = (hbmWrite s (b.2.2.1 + (walkAt s n).2) (recBytes m)).hbm)) ∧
      (walkMatches s b.1 m = true → b.2.2.2 < (walkAt s n).2 + 128 →
        (tfind t.ctl.ops n).map (fun p => (p.state, p.result, p.written)) = some (6, 5, (walkAt s n).2)) := by
  intro t b
  have hmiss := flowWalk_dumpMiss ho hf hsus hw hg hm hq ha hrs hk ht
  have hroom := flowWalk_dumpRoom ho hf hsus hw hg hm hq ha hrs hk ht
  have hfull := flowWalk_dumpFull ho hf hsus hw hg hm hq ha hrs hk ht
  have hkept : t.flow.records = s.flow.records ∧ t.path = s.path := by
    cases hb : walkMatches s b.1 m with
    | false =>
      obtain ⟨-, -, -, h⟩ := hmiss hb
      exact h
    | true =>
      rcases Nat.lt_or_ge b.2.2.2 ((walkAt s n).2 + 128) with hlt | hle
      · exact (hfull hb hlt).2
      · obtain ⟨-, -, -, -, h⟩ := hroom hb hle
        exact h
  refine ⟨hkept.1, hkept.2, fun hb => ?_, fun hb hle => ?_, fun hb hlt => (hfull hb hlt).1⟩
  · obtain ⟨h1, h2, h3, -⟩ := hmiss hb
    exact ⟨h1, h2, h3⟩
  · obtain ⟨h1, h2, h3, h4, -⟩ := hroom hb hle
    refine ⟨h1, h2, fun hd => ?_, fun hd => ?_⟩
    · rw [h3, recordDumped, if_neg (by rw [show (Config.dumpBlock o.params).2.1 = false from hd]; decide)]
      rfl
    · rw [h4, recordDumped, if_pos hd]

/-- Settles O22, clause by clause: each command is the state its rule names, and each fact of that state is a lemma. -/
theorem flowMoves : Obligations.FlowMoves := by
  unfold Obligations.FlowMoves
  refine ⟨fun s cnt r o hr ho h0 hf hs hp => ⟨rehashCopy_copied hr ho h0 hf hs cnt hp, rehashCopy_noRoom hr ho h0 hf hs cnt hp⟩,
    fun s r o hr ho hp hf => rehashSwitch_switched hr ho hp hf,
    fun s n c q x hq hf hc hx hl hw hn =>
      ⟨_, execSurrenderRequest_found hq hf hc hx ⟨hw, hn⟩, surrendered_facts hl ⟨hw, hn⟩ x.pipe (c / 2)⟩,
    fun s r o hr hp hf hs ho => ⟨_, execRehashChangeoverEnd_done hr hp hf hs, changeoverEnd_facts ho _⟩,
    fun s z o hz ho hf hn => ⟨fun hp hg => ?_, fun r q rest x hp hsh hw hx hrs hd hq hqz _ hg hs hreq hage => ?_,
      fun h2 h4 hwf hpc => resizeStep_copied hz ho hf hn h2 h4 hwf hpc rfl rfl⟩,
    fun s n cnt r o m ho hf hsus hw hg hm hs hq ha => fun hrs =>
     ⟨fun hk => ⟨_, rfl, flowWalk_flush ho hf hsus hw hg hm hq ha hrs hk hs⟩,
      fun hk ht => execFlowWalk_otherTable ho hk ht cnt,
      fun hk ht => ⟨_, rfl, flowWalk_dumpCases ho hf hsus hw hg hm hq ha hrs hk ht⟩⟩,
    fun s n data o ho hk hf => ⟨execLoadRecord_held ho data, loadRecord_inserted ho hk hf data, fun h hv =>
      ⟨fun hc => ?_, loadRecord_handed ho hk hf data h hv⟩⟩,
    fun s tag n bs o hl => ⟨fun d hv => loadServe_unconverted hl hv, fun x st d r u hv hi => loadServe_converted hl hv hi⟩,
    fun s n bank hits => ?_,
    fun s => ⟨execCacheModeSettled_idle, fun hc hf hs hn => ⟨_, execCacheModeSettled_done hc hf, modeSettled_facts hs hn⟩⟩⟩
  · exact ⟨_, execResizeStep_grow hz ho hf hn hp hg, resizeGrow_facts (tfind_of_workingOp ho)⟩
  · obtain ⟨t, ht, h1, h2, h3, h4, h5⟩ := resizeStep_moved hz ho hf hn hp hsh hw hx hrs hd hq hqz hg hs hreq hage
    exact ⟨t, ht, h1, h2, h3, fun y => (h4 y).trans (by simp only [slotMoved, Bool.and_eq_true, beq_iff_eq]), h5⟩
  · rw [execLoadRecord_item ho hk hf data h hv, if_pos hc]
  · intro v mapped found fault
    have hfault : ∀ (u : State) (c : Nat), u.flow = s.flow →
        exec (.sliceBankSpare n bank hits) s = .next (sliceBankFault n bank c u) → fault u c := fun u c hu he => by
      have hv : tget (0, 0) u.flow.spare n = v := by rw [hu]
      refine ⟨fun h => ?_, fun h => ?_, fun h hb => ?_⟩
      · rw [he, sliceBankFault_mapped (by rw [hv]; exact h)]; rfl
      · rw [he, sliceBankFault_same (hv.trans h)]
      · rw [he, sliceBankFault_further (by rw [hv]; exact h) (by rw [hv]; exact hb)]
    have hfound : found.flow = s.flow := foldl_noteFault_flow _ s
    have hbist := fun pass => execSliceOnlineBist_cases (s := s) (n := n) (bank := bank) pass
    have hexec := execSliceBankSpare_fault (s := s) (n := n) (bank := bank) hits
    refine ⟨fun h0 => hfault s 1 rfl ?_, fun h0 hle => hfault found 2 hfound ?_, fun h0 hlt => ?_, hfound,
      fun pass => (hbist pass).1, (hbist true).2.1, (hbist false).2.1, fun pass => (hbist pass).2.2, fun u c => detect_flow ..⟩
    · rw [hexec, if_pos h0]
    · rw [hexec, if_neg (Nat.pos_iff_ne_zero.mp h0), sliceBankHits_eq, if_pos ⟨h0, hle⟩]
    · rw [hexec, if_neg (Nat.pos_iff_ne_zero.mp h0), sliceBankHits_eq, if_neg fun h => absurd h.2 (Nat.not_le.mpr hlt)]

end Sys2Proof.Machine
end
